-- ==== Sys2Proof/Word.lean ====
section
/-! DEFINITION. The word types of the AB-4160's control space and memory (00 R8, R9, 12 "Registers are 32 bits wide"). -/

namespace Sys2Proof

/-- A control-space register (00 "Registers are 32 bits wide"). -/
abbrev Word := BitVec 32

/-- One byte of a memory tier, of a crib or of a message. -/
abbrev Byte := BitVec 8

/-- A 64-bit quantity: an address, a page-table entry, a handle, the local interval counter. -/
abbrev W64 := BitVec 64

/-- A run of bytes in memory order, lowest address first (00 R9). -/
abbrev Bytes := List (BitVec 8)

end Sys2Proof
end

