-- ==== Sys2Proof/Syntax.lean ====
section
/-! DEFINITION. The commands of the AB-4160: one constructor of `Instr` for each row of the opcode table, with the row's
operands. The table gives no encoding; an operand is a source, an index, a register value, or a structure of fields. -/

namespace Sys2Proof

/-- A source of register accesses: a control processor, or a Bale peer (12 R301). -/
inductive Source where
  | cp (n : Fin 4)
  | peer (p : Fin 16384)
  deriving DecidableEq, Repr

/-- The blocks of control space that have a guard or a `HUB_COMMIT` mask bit (12 R295, R301). -/
inductive Block where
  | hub | vane | pmc | eth | audio | tel | cfg | sec | trn
  | core (n : Fin 36)
  | bay (n : Fin 16)
  | stream | tier
  deriving DecidableEq, Repr

/-- Who asks for a translation (03 R82 requester codes 0 to 6; the dispatcher's submission read posts no record). -/
inductive Requester where
  | fxe | bse | walker | rdma | bale | batcher | audio | dispatcher
  deriving DecidableEq, Repr

/-- Core fault causes (04 R109). -/
inductive CoreCause where
  | regfileUe | engineCheck | clockLoss | seqHang | reset
  deriving DecidableEq, Repr

/-- A resident stall: the engine instructions of a sheaf name it by core and slot (04 R85). -/
structure StallRef where
  core : Fin 36
  slot : Fin 8
  deriving DecidableEq, Repr

/-- The four programs that a sheaf may run (09 R209). -/
inductive ProgKind where
  | input | weight | output | nextLayer
  deriving DecidableEq, Repr

/-- A post to, or a wait on, one of a stall's eight tokens (09 R214). -/
structure TokenUse where
  token : Fin 8
  count : Fin 65536
  deriving DecidableEq, Repr

/-- An engine instruction of a resident stall, with the tokens that it waits on and posts to (09 R214). -/
structure EngineRef where
  stall : StallRef
  await : Option TokenUse
  post : Option TokenUse
  deriving DecidableEq, Repr

/-- A running swath program. -/
structure ProgRef where
  stall : StallRef
  prog : ProgKind
  deriving DecidableEq, Repr

/-- Number formats (05 R115). -/
inductive Fmt where
  | int4 | int8 | int16 | int32 | e4m3 | e5m2 | fp16 | bf16 | fp32
  deriving DecidableEq, Repr

/-- Where an MXE pass takes its weight tile: its crib reservation, or a tile of the core's ring buffer (05 R119, 09 R228). -/
inductive TileSource where
  | crib (offset : Nat)
  | ring (round : Nat) (tile : Nat)
  deriving DecidableEq, Repr

/-- The epilogues of an MXE pass (05 R121). -/
inductive Epilogue where
  | partialSum (offset : Nat)
  | accumulate (offset : Nat)
  | rescale (accumulateFrom : Option Nat) (out : Fmt) (mode : Nat) (table : Nat) (dst : Nat)
  | scaleConvert (tokenScales channelScales : Option Nat) (out : Fmt) (dst : Nat)
  deriving DecidableEq, Repr

/-- An MXE instruction (05 R118 to R121): the operand formats, the tile, the columns and the epilogue. -/
structure MxePass where
  weights : Fmt
  columns : Fmt
  tile : TileSource
  /-- Crib offset of the first column; column c starts `columnStride` bytes after column c - 1. -/
  columnOffset : Nat
  columnStride : Nat
  columnCount : Nat
  /-- Elements of a column; a shorter column than K is padded with zeros. -/
  depth : Nat
  channels : Nat
  epilogue : Epilogue
  deriving DecidableEq, Repr

/-- The element-wise operations of the VXE (05 R123). -/
inductive VxeOp where
  | add | sub | mul | fma | min | max | compare | select | abs | neg
  | convert
  | recip | rsqrt | sqrt | exp | exp2 | log | log2 | tanh | sigmoid | silu | gelu
  deriving DecidableEq, Repr

/-- A VXE instruction over one row: the operand rows a, b and c by crib offset, the formats, and the destination. -/
structure VxeRow where
  count : Nat
  inFmt : Fmt
  outFmt : Fmt
  a : Nat
  b : Nat
  c : Nat
  dst : Nat
  deriving DecidableEq, Repr

/-- The VXE row reductions (05 R123, R124). -/
inductive Reduction where
  | sum | max | absMax
  deriving DecidableEq, Repr

/-- Operands of a VXE RESCALE (05 R129 to R131). -/
structure RescaleOp where
  count : Nat
  src : Nat
  out : Fmt
  mode : Nat
  table : Nat
  /-- Channels of a row, for table modes 1 and 2 (element i is channel i mod channels of token i / channels). -/
  channels : Nat
  dst : Nat
  deriving DecidableEq, Repr

/-- One operation of a REG message (10 R252). -/
structure RegOp where
  op : Byte
  addr : Word
  data : Word
  deriving DecidableEq, Repr

/-- An end of a datagram: IP address in wire order, UDP port, MAC address in wire order, VLAN identifier, IP version (10 R246, 14 R345). -/
structure NetEnd where
  address : List Byte
  port : BitVec 16
  mac : List Byte
  vlan : BitVec 12
  ipv6 : Bool
  deriving DecidableEq, Repr

/-- Who sent a message of no session (14 R345, R347): its address, and the tag that the reply names. -/
structure Caller where
  source : NetEnd
  tag : BitVec 16
  deriving DecidableEq, Repr

/-- Who asks for a quote (14 R344): its peer entry, none where no entry names its address. -/
structure Attester where
  peer : Option (Fin 16384)
  source : NetEnd
  deriving DecidableEq, Repr

/-- The IP and UDP headers of a received datagram: its source, the destination address and port, and whether the UDP checksum is right,
none where it is zero (10 R245). -/
structure UdpHead where
  src : NetEnd
  dstAddress : List Byte
  dstPort : BitVec 16
  checksum : Option Bool
  deriving DecidableEq, Repr

/-- The header of a received Bale datagram (10 R245), with the UDP payload's length, whether its tag is right (R251), and for a MGMT message its
operation (14 R347). -/
structure BaleDatagram where
  version : Byte
  cls : Byte
  flags : Byte
  seq : Word
  cum : Word
  sack : Word
  session : Word
  counter : Word
  udpPayload : Nat
  headerLength : Nat
  authentic : Bool
  op : BitVec 16
  deriving DecidableEq, Repr

/-- What a received Ethernet frame carries, as the checks of 10 R240, R241, R244 and R245 see it. -/
inductive FrameBody where
  /-- A MAC control frame: not protected (R244). -/
  | macControl
  /-- A UDP datagram with a Bale header. -/
  | bale (udp : UdpHead) (d : BaleDatagram)
  /-- A RoCEv2 packet for the queue pair of a connection (R260), and whether its ICRC is right. -/
  | roce (udp : UdpHead) (conn : Fin 4096) (opcode : Byte) (icrc : Bool)
  /-- Any other frame. -/
  | other
  deriving DecidableEq, Repr

/-- A received Ethernet frame (10 R240 to R244), with its destination MAC address, octets 0 first. -/
structure EthFrame where
  length : Nat
  dstMac : BitVec 48
  vlanPcp : Option Nat
  dscp : Nat
  ecnCe : Bool
  /-- MACsec: none unprotected; else association number, packet number and whether the ICV is right. -/
  macsec : Option (Nat × Nat × Bool)
  body : FrameBody
  deriving DecidableEq, Repr

/-- A RoCEv2 request on a connection (10 R260, R261). -/
structure RoceRequest where
  conn : Fin 4096
  psn : Nat
  rkey : Word
  va : W64
  deriving DecidableEq, Repr

/-- What a received RoCEv2 answer is (10 R260, R263). -/
inductive RoceAnswer where
  | ack | rnrNak | remoteAccessNak | invalidRequestNak | remoteOperationalNak
  | readResponse (data : List Byte) (chaff : Bool)
  deriving DecidableEq, Repr

/-- Whose send-rate limit a congestion notice lowers (10 R243). -/
inductive RateTarget where
  | peer (p : Fin 16384)
  | conn (c : Fin 4096)
  deriving DecidableEq, Repr

/-- The PMD group a link trained on: eight lanes, or four of lanes 0 to 3 or 4 to 7 (10 R237, R238). -/
inductive LinkWidth where
  | eight | lanes03 | lanes47
  deriving DecidableEq, Repr

/-- A tier access error that a patrol scrub finds in one line (03 R53, R54). -/
inductive ScrubFinding where
  | clean | corrected | uncorrectable
  deriving DecidableEq, Repr

/-- The loss that HUB_CLOCK_LOSS reports: a hub island's clock, or REFCLK itself (13 R317, 17 R403). -/
inductive ClockLost where
  | hubIsland | refclk
  deriving DecidableEq, Repr

/-- The commands: one constructor for each row of spec/opcode_table.json, in its order. -/
inductive Instr where
  -- configuration loader and CRC monitor (02)
  | cfgLoad (src : Source)
  | cfgData (peer : Fin 16384) (offset : Word) (data : List Byte)
  | signatureCheckDone
  | cfgCommit (src : Source)
  | cfgAbort (src : Source)
  | cfgAck (src : Source)
  | cfgResume (src : Source)
  | bayMove (src : Source) (bay : Fin 16) (core : BitVec 6) (join : Bool)
  | spareSelfTestDone (pass : Bool)
  | moveCopyDone
  | moveWeightsDone
  | bayLullReached (bay : Fin 16)
  | commitCopyADone
  | commitCopyBDone
  | tablesApplied
  | lullRequest (src : Source) (bay : Fin 16)
  | lullRelease (src : Source) (bay : Fin 16)
  | serialFloorHiWrite (src : Source) (value : Word)
  | serialFloorLoWrite (src : Source) (value : Word)
  | cfgcrcRefWrite (src : Source) (value : Word)
  | crcSweepEnd
  | cfgRefMissing
  -- memory tiers and translation (03)
  | loftRowRemap (die : Fin 4) (bank row : Nat)
  | doubleRefresh (die : Fin 4)
  | refreshNormal (die : Fin 4)
  | tableWalk (bay : Fin 16) (va : W64) (write : Bool) (who : Requester) (holder : Nat)
  | trnInv (src : Source) (value : Word)
  | trnInvDone
  | fqTailWrite (src : Source) (value : Word)
  | faultResume (src : Source) (tag : BitVec 16) (abort : Bool)
  | mtAssign (src : Source) (bay : Fin 16)
  | mtRelease (src : Source) (bay : Fin 16)
  | mtMigrate (src : Source) (bay : Fin 16) (lc : Bool)
  | mtEnlist (src : Source) (bay : Fin 16)
  | mtCancel (src : Source) (bay : Fin 16)
  | mtOffline (src : Source)
  | mtOnline (src : Source)
  | migrationStart
  | migrationFirstInvDone (migration : Nat)
  | migrationCopyDone (migration : Nat)
  | migrationEnd (migration : Nat)
  | spillCheck (bay : Fin 16)
  -- dispatch and cores (04)
  | dispSubmit (src : Source) (bay : Fin 16) (hi : Word)
  | sheafPlace (bay : Fin 16)
  | passBoundary (core : Fin 36)
  | evictionCheck (core : Fin 36)
  | stallSaveDone (core : Fin 36) (slot : Fin 8)
  | stallWake (inst : Nat)
  | sheafDone (inst : Nat)
  | sheafOverrun (inst : Nat)
  | coreFault (core : Fin 36) (cause : CoreCause)
  | seqHang (core : Fin 36)
  | coreHold (src : Source) (core : Fin 36)
  | coreRelease (src : Source) (core : Fin 36)
  | staggerEnd (bay : Fin 16)
  -- arithmetic (05)
  | mxePass (at_ : EngineRef) (pass : MxePass)
  | vxeElementwise (at_ : EngineRef) (op : VxeOp) (row : VxeRow)
  | rowReduction (at_ : EngineRef) (kind : Reduction) (row : VxeRow)
  | layerNorm (at_ : EngineRef) (row : VxeRow) (epsilon : Word)
  | rmsNorm (at_ : EngineRef) (row : VxeRow) (epsilon : Word)
  | softmax (at_ : EngineRef) (row : VxeRow)
  | scale (at_ : EngineRef) (row : VxeRow) (target : Fmt)
  | quant (at_ : EngineRef) (row : VxeRow) (target : Fmt)
  | dequant (at_ : EngineRef) (row : VxeRow)
  | rescale (at_ : EngineRef) (op : RescaleOp)
  | bseDot (at_ : EngineRef) (command : Nat)
  | bseWsum (at_ : EngineRef) (command : Nat)
  | bseShareDone (share : Nat)
  -- streams and batcher (06)
  | scArm (src : Source) (sid : Fin 16384)
  | scStart (src : Source) (sid : Fin 16384)
  | scPause (src : Source) (sid : Fin 16384)
  | scResume (src : Source) (sid : Fin 16384)
  | scDrain (src : Source) (sid : Fin 16384)
  | scAbort (src : Source) (sid : Fin 16384)
  | scResetState (src : Source) (sid : Fin 16384)
  | scRecheck (src : Source) (sid : Fin 16384)
  | streamInputFrames (peer : Fin 16384) (sid : Fin 16384) (chaff : Bool) (first : Word) (count : Nat) (data : List Byte)
  | chunkPost (sid : Fin 16384)
  | batchClose (bay : Fin 16) (graph : Fin 256)
  | batchWindowExpire (bay : Fin 16) (graph : Fin 256)
  | chainEnd (bay : Fin 16) (slot : Fin 1024)
  | chunkComplete (sid : Fin 16384)
  | outTailWrite (src : Source) (sequence : Bool) (index : Fin 16384) (value : Word)
  | alignStart (src : Source) (bay : Fin 16)
  | alignSlackExpire (bay : Fin 16) (set : Fin 1024)
  -- scan engine (07)
  | scan (at_ : EngineRef) (descriptor : Nat)
  -- sequences and attention (08)
  | sqArm (src : Source) (q : Fin 8192)
  | sqStart (src : Source) (q : Fin 8192)
  | sqPause (src : Source) (q : Fin 8192)
  | sqResume (src : Source) (q : Fin 8192)
  | sqDrain (src : Source) (q : Fin 8192)
  | sqAbort (src : Source) (q : Fin 8192)
  | sqRecheck (src : Source) (q : Fin 8192)
  | attScore (at_ : EngineRef) (descriptor : Nat)
  | attValue (at_ : EngineRef) (descriptor : Nat)
  | attentionPassDone (inst : Nat)
  | stepComplete (q : Fin 8192)
  -- swath programs (09): the operation at the program's restart point
  | swEnd (p : ProgRef)
  | swBase (p : ProgRef)
  | swRowbase (p : ProgRef)
  | swLoop (p : ProgRef)
  | swStep (p : ProgRef)
  | swCset (p : ProgRef)
  | swMove (p : ProgRef)
  | swGet (p : ProgRef)
  | swWait (p : ProgRef)
  | swSignal (p : ProgRef)
  | swFree (p : ProgRef)
  | swSyncPost (p : ProgRef)
  | swSyncWait (p : ProgRef)
  | swEndloop (p : ProgRef)
  | swRotate (p : ProgRef)
  | ringTileDelivery (bay : Fin 16) (round : BitVec 16) (core : Fin 36)
  | triggeredInstance (queue : Fin 4096)
  | bseQueueService (queue : Fin 4096)
  | queueFlush (src : Source) (bay : Fin 16)
  | swCancel (src : Source) (bay : Fin 16)
  | gleanDone (inst : Nat)
  | cchArm (src : Source) (bay : Fin 16) (ch : Fin 4)
  | cchCancel (src : Source) (bay : Fin 16) (ch : Fin 4)
  | cchTransferDone (bay : Fin 16) (ch : Fin 4)
  -- Ethernet port (10)
  | laneFail (lane : Fin 8)
  | trainingDone (width : LinkWidth) (copper : Bool)
  | trainingFail (failed : BitVec 8)
  | linkRetry
  | retrain (src : Source)
  | restore (src : Source)
  | peerReset (src : Source) (peer : Fin 16384)
  | linkAnFallback
  | ethernetFrameRx (frame : EthFrame)
  | pfcPauseRx (priority : Fin 8) (quanta : BitVec 16)
  | pfcPauseEnd (priority : Fin 8)
  | cnpRx (target : RateTarget)
  | ecnRateRaise (target : RateTarget)
  -- Bale and RoCEv2 (10)
  | regMessage (peer : Fin 16384) (tag : BitVec 16) (ops : List RegOp)
  | regReadTimeout (peer : Fin 16384) (tag : BitVec 16) (op : Nat)
  | streamQueuePiece (peer : Fin 16384) (queue : Fin 4096) (chaff : Bool) (offset length : Nat) (streamTag : BitVec 14)
      (data : List Byte)
  | baleAckRx (peer : Fin 16384) (cum sack : Word)
  | baleAckTimer (peer : Fin 16384)
  | baleRetransmit (peer : Fin 16384) (seq : Word)
  | baleProbe (peer : Fin 16384)
  | queueBoundSend (queue : Fin 4096)
  | eventMessageSend
  | roceRdmaWrite (req : RoceRequest) (data : List Byte)
  | roceRdmaRead (req : RoceRequest) (length : Nat)
  | roceSend (conn : Fin 4096) (psn : Nat) (data : List Byte)
  | roceAckRx (conn : Fin 4096) (psn : Nat) (answer : RoceAnswer)
  | roceAckTimeout (conn : Fin 4096)
  | connOpen (src : Source)
  | connError (src : Source)
  | connReset (src : Source)
  | connErrorReport (conn : Fin 4096)
  | peerEntryWrite (src : Source) (peer : Fin 16384) (value : Word)
  -- audio ports (11)
  | pllLock (pll : Fin 2)
  | pllUnlock (pll : Fin 2)
  | apPllCtrlWrite (src : Source) (value : Word)
  | apStart (src : Source) (port : Fin 6)
  | apStop (src : Source) (port : Fin 6)
  | apRestart (src : Source) (port : Fin 6)
  | groupStart (src : Source)
  | groupStop (src : Source)
  | astartEdge (rising : Bool)
  | leadInDone (port : Fin 6)
  | leadOutDone (port : Fin 6)
  | audioFrame (port : Fin 6) (bitClocks : Nat) (samples : List Word) (lost : List Nat)
  | clockLost (port : Fin 6)
  | capturePeriodEnd (port : Fin 6)
  | playbackPeriodFetch (port : Fin 6)
  | portdArm (src : Source) (port : Fin 6)
  | portdCancel (src : Source) (port : Fin 6)
  | rateWindowEnd (port : Fin 6) (frames periods : Nat)
  -- registers and events (12)
  | registerWrite (src : Source) (addr value : Word)
  | trnInvDoneTagRead (src : Source)
  | mtCmdStatusRead (src : Source)
  | mtUeAddrRead (src : Source)
  | hubCommitStatusRead (src : Source)
  | swCancelStatusRead (src : Source) (bay : Fin 16)
  | cchStatusRead (src : Source) (bay : Fin 16) (ch : Fin 4)
  | apRateRead (src : Source) (port : Fin 6)
  | repStatusRead (src : Source)
  | hubCommit (src : Source) (mask : Word)
  | hubCommitDone
  | guardOpen (src : Source) (block : Block)
  | guardExpire (src : Source)
  | eventHoldoffEnd (status : Word)
  | eventRateWindow
  | rcRefresh
  -- Vane, power and reset (13, 16, 17)
  | kick (slot : Fin 5) (seq : Word)
  | ackAlarm (slot : Fin 5) (seq : Word) (code : BitVec 16)
  | setTrip (slot : Fin 5) (seq : Word) (trip : Byte) (value : BitVec 16)
  | setAction (slot : Fin 5) (seq : Word) (code : BitVec 16) (action : Byte)
  | leaveSafe (slot : Fin 5) (seq : Word)
  | powerOnReset
  | startupComplete
  | granaryChannelOnline (channel : Fin 8)
  | addressRecord
  | resetNAssert
  | resetNDeassert
  | chipReset (slot : Option (Fin 5)) (seq : Word)
  | warmRestartComplete
  | bayReset (slot : Fin 5) (seq : Word) (bay : BitVec 16)
  | coreReset (slot : Option (Fin 5)) (seq : Word) (core : BitVec 16)
  | powerLoss
  | junctionTrip (core : Fin 36) (celsius : Nat)
  | loftTrip (die : Fin 4) (celsius : Nat)
  | junctionCrit (core : Fin 36) (celsius : Nat)
  | vinLow (millivolts : Nat)
  | vinHigh (millivolts : Nat)
  | vinCrit (millivolts : Nat)
  | railFault (core : Option (Fin 36))
  | phaseLoss (phase : Fin 11)
  | cpWatchdog (cp : Fin 4)
  | hubClockLoss (lost : ClockLost)
  | glitch
  | vaneWatchdog
  | capControlInterval (watts : Nat)
  | powerSample (watts average100 : Nat)
  | thermalPredict (junctions : List Nat) (lofts : List Nat)
  | coldStartEnd
  | droop (island : Nat) (share : Nat)
  | droopRecover (island : Nat)
  -- security (14)
  | attest (who : Attester) (nonce : List Byte) (flags : Byte)
  | open1 (address : List Byte) (port : BitVec 16) (mac : List Byte) (vlan : BitVec 12) (ipv6 : Bool) (tag : BitVec 16)
      (payload : List Byte)
  | open3 (who : Caller) (payload : List Byte)
  | openAbandon (session : Word)
  | sessionClose (peer : Fin 16384) (tag : BitVec 16)
  | sessionIdle (session : Word)
  | claim (who : Caller) (record : List Byte)
  | keyInstall (peer : Fin 16384) (tag : BitVec 16) (kind : Byte) (key : List Byte)
  | keyRemove (peer : Fin 16384) (tag : BitVec 16) (kind : Byte) (digest : List Byte)
  | certFloor (peer : Fin 16384) (tag : BitVec 16) (floor : W64)
  | macsecSa (peer : Fin 16384) (tag : BitVec 16) (transmit : Bool) (an : Fin 4) (sak salt : List Byte) (ssci : Word)
      (sci pn : W64)
  | macsecClear (peer : Fin 16384) (tag : BitVec 16)
  | tagStage (peer : Fin 16384) (tag : BitVec 16) (offset : BitVec 16) (data : List Byte)
  | tagCommit (peer : Fin 16384) (tag : BitVec 16) (expected : Word) (digest : List Byte)
  | fwStage (peer : Fin 16384) (tag : BitVec 16) (offset : Word) (data : List Byte)
  | fwVerify (peer : Fin 16384) (tag : BitVec 16)
  | fwActivate (peer : Fin 16384) (tag : BitVec 16)
  -- repair and telemetry service (15)
  | fwHandover (peer : Fin 16384) (tag : BitVec 16)
  | dimmRemove (peer : Fin 16384) (tag : BitVec 16) (channel : Byte)
  | dimmInsert (peer : Fin 16384) (tag : BitVec 16) (channel : Byte)
  | siloFence (peer : Fin 16384) (tag : BitVec 16) (row : Byte)
  | fenceRetry
  | granuleRetire (address : Nat)
  | telReplay (peer : Fin 16384) (tag : BitVec 16) (ring : Byte) (first count : Word)
  | alarmList (peer : Fin 16384) (tag : BitVec 16) (first : BitVec 16)
  | telemetryRecord (record : List Byte)
  | telemExport
  | squallTick
  | summaryFlush
  -- boundary scan (17) and the remaining rows of the table
  | secErase (data : Word)
  | tapReset
  | extest (boundary : List Bool)
  | samplePreload (boundary : List Bool)
  | idcode
  | highz
  | clamp
  | bypass
  | patrolScrub (address : Nat) (finding : ScrubFinding)
  | stackChannelFailed (stack : Fin 8) (row : Fin 32)
  | refclkReturn
  | stallRestoreDone (core : Fin 36) (slot : Fin 8)
  | cpBootDone (cp : Fin 4)
  | eraseComplete
  | pfcPauseRefresh (priority : Fin 8) (fillPercent : Nat)
  deriving DecidableEq, Repr

end Sys2Proof
end

