-- ==== Sys2Proof/Machine/Maps.lean ====
section
/-! DEFINITION. Finite maps by number, kept as lists with strictly rising keys, so that equal maps are equal data. -/

namespace Sys2Proof.Machine

/-- A finite map: pairs of a key and a value, keys strictly rising (`AMap.wf`). -/
abbrev AMap (α : Type) := List (Nat × α)

/-- The value at a key, if the map lists one. -/
def AMap.get? {α : Type} : AMap α → Nat → Option α
  | [], _ => none
  | (k, v) :: rest, key => if k = key then some v else AMap.get? rest key

/-- The value at a key, or a default. -/
def AMap.getD {α : Type} (m : AMap α) (key : Nat) (d : α) : α := (AMap.get? m key).getD d

/-- The map with a value at a key. -/
def AMap.set {α : Type} : AMap α → Nat → α → AMap α
  | [], key, v => [(key, v)]
  | (k, w) :: rest, key, v =>
    if key < k then (key, v) :: (k, w) :: rest
    else if key = k then (key, v) :: rest
    else (k, w) :: AMap.set rest key v

/-- The map without a key. -/
def AMap.erase {α : Type} : AMap α → Nat → AMap α
  | [], _ => []
  | (k, v) :: rest, key => if k = key then rest else (k, v) :: AMap.erase rest key

/-- Keys strictly rising. -/
def AMap.wf {α : Type} : AMap α → Bool
  | [] => true
  | [_] => true
  | (a, _) :: (b, v) :: rest => decide (a < b) && AMap.wf ((b, v) :: rest)

/-- The entries whose key and value pass a test. -/
def AMap.keep {α : Type} (p : Nat → α → Bool) (m : AMap α) : AMap α := m.filter fun e => p e.1 e.2

/-- Every value changed by a function of its key. -/
def AMap.mapVals {α β : Type} (f : Nat → α → β) (m : AMap α) : AMap β := m.map fun e => (e.1, f e.1 e.2)

/-- The keys, rising. -/
def AMap.keys {α : Type} (m : AMap α) : List Nat := m.map (·.1)

/-- The values, in key order. -/
def AMap.vals {α : Type} (m : AMap α) : List α := m.map (·.2)

/-- Insert into a strictly rising list of numbers (a finite set). -/
def setInsert : List Nat → Nat → List Nat
  | [], n => [n]
  | k :: rest, n => if n < k then n :: k :: rest else if n = k then k :: rest else k :: setInsert rest n

/-- Remove a number from a finite set. -/
def setRemove (l : List Nat) (n : Nat) : List Nat := l.filter (· ≠ n)

/-- The first number below a bound that passes a test, counting up. -/
def firstBelow (p : Nat → Bool) (bound : Nat) : Option Nat := (List.range bound).find? p

/-- Insert into a list ordered by `before`, after the entries that do not come after it (stable). -/
def orderedInsert {α : Type} (before : α → α → Bool) (x : α) : List α → List α
  | [] => [x]
  | y :: rest => if before x y then x :: y :: rest else y :: orderedInsert before x rest

end Sys2Proof.Machine
end

