-- ==== Sys2Proof/Machine/TierTypes.lean ====
section
/-! DEFINITION. The state of the memory tiers and of translation (03). -/

namespace Sys2Proof.Machine

/-- A leaf in a translation cache (03 R65): its bay, the virtual address of its page, and the entry as read. -/
structure CachedLeaf where
  bay : Nat
  page : Nat
  size : Nat
  entry : W64
  deriving DecidableEq, Repr

/-- A pointer in a walk cache (03 R65): the table at `level` that covers `page`, and its physical address. -/
structure CachedPointer where
  bay : Nat
  page : Nat
  level : Nat
  table : Nat
  deriving DecidableEq, Repr

/-- Translation fault causes (03 R81). -/
inductive FaultCause where
  | notPresent | wrongTier | migrating | outside | writeRo | owner | entry
  deriving DecidableEq, Repr

/-- Cause codes (03 R81). -/
def FaultCause.code : FaultCause → Nat
  | .notPresent => 1 | .wrongTier => 2 | .migrating => 3 | .outside => 8 | .writeRo => 9 | .owner => 0xA | .entry => 0xB

/-- A resumable cause (03 R81). -/
def FaultCause.resumable : FaultCause → Bool
  | .notPresent => true | .wrongTier => true | .migrating => true
  | .outside => false | .writeRo => false | .owner => false | .entry => false

/-- Who waits for a translation fault: an FXE program of an instance, an attention pass or a bank-side command of an instance,
a copy channel, a stream or sequence context that the batcher serves, a RoCEv2 request, a queue piece of a peer, an audio port,
or nobody. -/
inductive FaultHolder where
  | program (inst : Nat) (prog : ProgKind)
  | engine (inst : Nat)
  | copy (bay ch : Nat)
  | stream (sid : Nat)
  | seq (q : Nat)
  | rdma (conn : Nat)
  | peer (p : Nat)
  | audio (port : Nat)
  /-- A batch's writes of its slot (06 R415). -/
  | batch (bay slot : Nat)
  /-- The read of an output slot to be sent (10 R256). -/
  | send (seq : Bool) (index : Nat)
  /-- A received STREAM message that is held (10 R255, R257). -/
  | message (id : Nat)
  /-- A bank-side engine that serves a handle queue (09 R223). -/
  | service (queue : Nat)
  | none
  deriving DecidableEq, Repr

/-- An outstanding fault (03 R81, R82): its tag, what faulted, and whether its record is posted or still waits for room. -/
structure OutFault where
  tag : Nat
  bay : Nat
  va : W64
  entry : W64
  level : Nat
  core : Nat
  requester : Nat
  write : Bool
  cause : FaultCause
  holder : FaultHolder
  posted : Bool
  deriving DecidableEq, Repr

/-- A write held on a COPYING page (03 R78). -/
structure HeldWrite where
  bay : Nat
  va : W64
  holder : FaultHolder
  deriving DecidableEq, Repr

/-- An accepted TRN_INV (03 R71, R72). -/
structure InvCmd where
  bay : Nat
  whole : Bool
  allLevels : Bool
  tag : Nat
  start : Nat
  /-- Length of the range in 64 KiB units. -/
  len : Nat
  deriving DecidableEq, Repr

/-- Who asked for a migration (03 R75 "Migration and spill"). -/
inductive MigOrigin where
  | command | spill | batcher | walker | repair
  deriving DecidableEq, Repr

/-- Where a migration stands (03 R76, R77). -/
inductive MigPhase where
  | queued | firstInv | copying | secondInv
  deriving DecidableEq, Repr

/-- A migration of one leaf page (03 R77). -/
structure Migration where
  id : Nat
  bay : Nat
  va : W64
  /-- Target tier 0 to 2. -/
  target : Nat
  lc : Bool
  origin : MigOrigin
  phase : MigPhase
  /-- Physical address of the entry, and the entry as first read. -/
  entryAddr : Nat
  oldEntry : W64
  /-- First byte and byte length of the new frame. -/
  newFrame : Nat
  size : Nat
  deriving DecidableEq, Repr

/-- `MT_CMD` results (03 "`MT_CMD_STATUS.RESULT` codes"). -/
inductive TierResult where
  | ok | quota | owner | busy | absent | abandoned | argument
  deriving DecidableEq, Repr

/-- Result codes. -/
def TierResult.code : TierResult → Nat
  | .ok => 0 | .quota => 1 | .owner => 2 | .busy => 3 | .absent => 4 | .abandoned => 5 | .argument => 6

/-- Translation state: caches by place (0 to 3 the dies, 4 the hub, 8 + n the FXE of core n), invalidates, faults. -/
structure Trans where
  leafCaches : AMap (List CachedLeaf)
  walkCaches : AMap (List CachedPointer)
  invs : List InvCmd
  /-- `TRN_INV_STATUS.FULL`. -/
  invFull : Bool
  /-- `TRN_FQ_COUNT`: unread fault records. -/
  fqCount : Nat
  faults : List OutFault
  held : List HeldWrite
  /-- The next fault tag to try (03 R82: tags wrap, and no two outstanding faults share one). -/
  nextTag : Nat
  deriving DecidableEq, Repr

/-- Memory tier state: the granule map by exception, offline rows, online Granary channels, migration, spill, refresh, repair. -/
structure Tiers where
  /-- Granule map bytes that differ from the map after power-on (03 R73), by granule number (address / 64 KiB). -/
  granules : AMap Nat
  /-- Lofts whose training failed since power-on (16 R382). -/
  loftsFailed : BitVec 4
  rowsOffline : BitVec 32
  channelsOnline : BitVec 8
  /-- Size in GiB of each installed DIMM (03 R53, 16 R384). -/
  dimms : AMap Nat
  /-- What the SPD hub of each channel says of its DIMM: manufacturer identifier, part number and serial (16 R381). -/
  dimmIds : AMap Bytes
  migrations : List Migration
  nextMigration : Nat
  /-- `MT_CMD_STATUS`: BUSY with the running command's migration, REFUSED, RESULT. -/
  cmdBusy : Option Nat
  cmdRefused : Bool
  cmdResult : Nat
  /-- Spill list of each bay, oldest first (03 R80). -/
  spill : AMap (List W64)
  spillActive : BitVec 16
  spillStarved : BitVec 16
  /-- The Granary channel that the next spilled page tries first. -/
  spillChannel : Nat
  doubleRefresh : BitVec 4
  /-- Spare rows used in each loft bank (key die * 65,536 + bank), and remapped rows (03 R55). -/
  spareUsed : AMap Nat
  remapped : List (Nat × Nat × Nat)
  /-- Banks without a spare row left that have raised LOFT_SPARE_OUT. -/
  spareOut : List Nat
  deriving DecidableEq, Repr

def Trans.reset : Trans := ⟨[], [], [], false, 0, [], [], 0⟩

def Tiers.reset : Tiers :=
  { granules := [], loftsFailed := 0, rowsOffline := 0, channelsOnline := 0, dimms := [], dimmIds := [], migrations := [], nextMigration := 0, cmdBusy := none
    cmdRefused := false, cmdResult := 0, spill := [], spillActive := 0, spillStarved := 0, spillChannel := 0
    doubleRefresh := 0, spareUsed := [], remapped := [], spareOut := [] }

end Sys2Proof.Machine
end

