-- ==== Sys2Proof/Machine/SheafTypes.lean ====
section
/-! DEFINITION. The state of sheaves, swath programs, cores, handle queues, buffer pools, rotation rounds and copy channels
(04, 09). -/

namespace Sys2Proof.Machine

/-- A sheaf descriptor (04 R87), parsed; program and queue fields keep 0xFFFF for none. -/
structure SheafDesc where
  graph : Nat
  be : Bool
  roundEven : Bool
  replay : Bool
  node : Nat
  rowCount : Nat
  engines : Nat
  cribUnits : Nat
  rowTable : W64
  inputProg : Nat
  weightProg : Nat
  outputProg : Nat
  nextProg : Nat
  consume0 : Nat
  consume1 : Nat
  produce0 : Nat
  produce1 : Nat
  resetMasks : W64
  deadline : W64
  engineTime : Nat
  stagger : Nat
  steps : Nat
  deriving DecidableEq, Repr

/-- How an address register was last filled (09 R209, R212, R217, R219). -/
inductive RegFill where
  | unset | address | got | waited
  deriving DecidableEq, Repr

/-- An address register: its base, where it came from, its buffer, and what was written through it (09 R209, R225). -/
structure AddrReg where
  fill : RegFill
  base : W64
  pool : Nat
  buffer : Nat
  /-- ROWBASE's source, row level, step level and offset, while the base follows the counters. -/
  row : Option (Nat × Nat × Nat × Int)
  /-- The handle that WAIT took carried chaff. -/
  chaff : Bool
  /-- Highest byte offset written through the register since its GET. -/
  extent : Nat
  /-- A marked line was written through the register since its GET. -/
  wroteChaff : Bool
  deriving DecidableEq, Repr

def AddrReg.zero : AddrReg := ⟨.unset, 0, 0, 0, none, false, 0, false⟩

/-- An open loop level: its number, count, counter, the instruction its body starts at, and its strides (target register, or 8
for the crib cursor). -/
structure LoopLevel where
  level : Nat
  count : Nat
  counter : Nat
  body : Nat
  strides : List (Nat × Int)
  deriving DecidableEq, Repr

/-- What holds a program at its element (04 R92, 09 R213, R214, R217, R219, R228). -/
inductive ProgWait where
  | none
  | pool (p : Nat)
  | queue (q : Nat)
  | token (t : Nat) (count : Nat)
  | fault (tag : Nat)
  | held
  | ring (round : Nat)
  | remote (conn : Nat)
  deriving DecidableEq, Repr

/-- A swath program of an instance (09 R209). -/
structure Program where
  /-- Index of the SWATH entry. -/
  entry : Nat
  pc : Nat
  regs : List AddrReg
  /-- Open levels, innermost first. -/
  loops : List LoopLevel
  cursorBase : Nat
  /-- 0 the crib reservation, 1 the next half of the ring buffer. -/
  cursorArea : Nat
  started : Bool
  ended : Bool
  wait : ProgWait
  deriving DecidableEq, Repr

def Program.start (entry : Nat) : Program :=
  ⟨entry, 0, List.replicate 8 AddrReg.zero, [], 0, 0, true, false, .none⟩

/-- Sheaf states (04 R92). -/
inductive SheafState where
  | ready | resident | blocked | saving | saved | restoring | done | aborted
  deriving DecidableEq, Repr

/-- Where an instance came from. -/
inductive InstOrigin where
  | batch (slot : Nat)
  | trigger
  | submit
  deriving DecidableEq, Repr

/-- Why an instance is gleaned (09 R230). -/
inductive GleanKind where
  | cancel | replay | abort
  deriving DecidableEq, Repr

/-- A handle (09 R216) without its sequence field, which the queue writes. -/
structure Handle where
  pool : Nat
  buffer : Nat
  length : Nat
  chaff : Bool
  last : Bool
  tag : Nat
  seq : Nat
  deriving DecidableEq, Repr

/-- The context that a queue keeps with a handle (09 R221), and the batch chain it belongs to. -/
structure HandleCtx where
  rowTable : W64
  resetMasks : W64
  rowCount : Nat
  steps : Nat
  deadline : W64
  be : Bool
  chain : Option Nat
  deriving DecidableEq, Repr

structure QueueEntry where
  handle : Handle
  ctx : HandleCtx
  deriving DecidableEq, Repr

/-- A handle queue by its device-wide index (09 R219, R416): entries, and the publish buffer's runs that wait for room. -/
structure HandleQueue where
  entries : List QueueEntry
  runs : List (List QueueEntry)
  /-- `SW_Q_PUSHES` and `SW_Q_HIGH`. -/
  pushes : Word
  high : Nat
  deriving DecidableEq, Repr

def HandleQueue.empty : HandleQueue := ⟨[], [], 0, 0⟩

/-- What the scan blocks of a chunk have done for one row (07 R170, R174, R179): whether the header was checked, whether the
loaded state carries chaff, saturations, and what the new header will say. -/
structure RowScan where
  checked : Bool
  badHeader : Bool
  loadChaff : Bool
  sat : Nat
  overs : Nat
  stored : Bool
  storeChaff : Bool
  bodyEnd : Nat
  thawing : Bool
  mismatches : Nat
  deriving DecidableEq, Repr

def RowScan.zero : RowScan := ⟨false, false, false, 0, 0, false, false, 0, false, 0⟩

/-- A sheaf instance (04 R87, R92) with all that its stall image and its crib reservation hold (04 R84, R85). -/
structure Inst where
  bay : Nat
  desc : SheafDesc
  seq : Word
  state : SheafState
  origin : InstOrigin
  /-- The batch chain that the instance belongs to (09 R221, 06 R153). -/
  chain : Option Nat
  ready : W64
  /-- Core faults met (04 R110). -/
  faults : Nat
  /-- R102's failure is counted once per instance. -/
  failCounted : Bool
  core : Nat
  slot : Nat
  /-- Local interval counter when the stall blocked. -/
  blockedAt : W64
  blockCause : Nat
  crib : AMap Byte
  cribChaff : List Nat
  /-- The 8-byte words of the reservation that hold an uncorrectable error (04 R84). -/
  cribUe : List Nat
  tokens : AMap Nat
  /-- The post that the engine instruction under way owes when it completes (09 R214). -/
  owed : Option TokenUse
  /-- The descriptor of a SCAN that a fault or a held store keeps from running: it runs again from its start (03 R81, 07 R175). -/
  scanHeld : Option Nat
  input : Option Program
  weight : Option Program
  output : Option Program
  next : Option Program
  /-- Handles popped, in order, and how many of each queue's this attempt's WAITs have taken (09 R222). -/
  popped : List (Nat × QueueEntry)
  taken : AMap Nat
  /-- Buffers taken by GET and not yet published: program, pool, buffer (09 R218). -/
  got : List (ProgKind × Nat × Nat)
  /-- Handles staged by SIGNAL: program, queue, handle (09 R216). -/
  staged : List (ProgKind × Nat × Handle)
  /-- Releases staged by FREE: pool, buffer (09 R218). -/
  frees : List (Nat × Nat)
  /-- Buffers whose lines chaff mode has still to mark, a page of theirs having faulted: pool, buffer (04 R108). -/
  unmarked : List (Nat × Nat)
  chaffMode : Bool
  gleaning : Option GleanKind
  /-- The cause of a protection fault to take when the saved context is restored (04 R111). -/
  faultOnRestore : Option Nat
  /-- Bytes written into buffers by the input, weight and next-layer programs, and by the output program, for the wasted-byte count
  (09 R231). -/
  wasted : Nat
  wastedOut : Nat
  /-- `ARITH_CTL` as it stood at placement (05 R141). -/
  arithCtl : Word
  /-- The scan results of this attempt, by row (07 R179). -/
  scan : AMap RowScan
  deriving DecidableEq, Repr

/-- One half of a core's ring buffer (09 R229): the round that a NEXT_LAYER program tagged it with, the bytes that program wrote, the
bytes and marked lines, and the slots of the tiles present, by the round's serial number * 65,536 + tile. -/
structure RingHalf where
  tag : Option Nat
  filled : Nat
  bytes : AMap Byte
  chaff : List Nat
  tiles : AMap Nat
  deriving DecidableEq, Repr

def RingHalf.empty : RingHalf := ⟨none, 0, [], [], []⟩

/-- A core: what fences it, its stall slots and saved contexts (oldest first), and its ring buffer (04 R84 to R86, R94). -/
structure Core where
  faultFenced : Bool
  moveFenced : Bool
  /-- Powered by a move that tests it (02 R47). -/
  movePowered : Bool
  /-- The clock is lost (12 R298). -/
  clockLost : Bool
  /-- Instance in each occupied stall slot. -/
  slots : AMap Nat
  saved : List Nat
  /-- The slot that issues, and the BE slot that last issued (04 R99). -/
  issuing : Option Nat
  lastBe : Nat
  /-- The instance whose matrix pass was the last on the core (05 R119). -/
  mxeLast : Option Nat
  /-- The instance that takes a slot once its victim is saved (04 R103, R104, R106). -/
  promised : AMap Nat
  current : RingHalf
  next : RingHalf
  deriving DecidableEq, Repr

def Core.reset : Core := ⟨false, false, false, false, [], [], none, 0, none, [], .empty, .empty⟩

/-- A stall that joined a rotation round (09 R228): its instance, token, the tiles over which its passes have ended, and the tiles that
passed it by and that it reads directly, in delivery order. -/
structure RoundJoin where
  inst : Nat
  token : Nat
  had : List Nat
  missed : List Nat
  deriving DecidableEq, Repr

/-- A rotation round (09 R226 to R228): its first tile's address, the ring at its start, the tiles passed at each ring core, the tiles on their way
round the ring, with the bytes and the marked lines that their home segment read, the joins; once it has ended it is kept for the stalls that
still read its tiles, beside a later round of its number. `serial` tells rounds of one number apart. -/
structure Round where
  round : Nat
  serial : Nat
  base : W64
  tiles : Nat
  ring : List Nat
  passed : AMap Nat
  flying : AMap (Bytes × List Nat)
  joins : List RoundJoin
  ended : Bool
  deriving DecidableEq, Repr

/-- A copy channel descriptor (09 R234). -/
structure CopyDesc where
  src : W64
  dst : W64
  len : Nat
  be : Bool
  deriving DecidableEq, Repr

/-- A copy channel: active and pending descriptors and conditions (09 R234, R235). -/
structure CopyChannel where
  active : Option CopyDesc
  pending : Option CopyDesc
  error : Bool
  blocked : Bool
  cause : Nat
  /-- Every piece of the active transfer has been moved or asked for; remote ones may be outstanding. -/
  issued : Bool
  /-- 64-byte units of the active transfer that have been moved or asked for. -/
  asked : Nat
  /-- Pieces whose data came from a peer and met a resumable fault at the destination: source, destination, length; each is asked for again. -/
  again : List (Nat × Nat × Nat)
  deriving DecidableEq, Repr

def CopyChannel.idle : CopyChannel := ⟨none, none, false, false, 0, false, 0, []⟩

/-- A GET that waits for a buffer of a pool (09 R217). -/
structure PoolWait where
  inst : Nat
  prog : ProgKind
  lc : Bool
  deriving DecidableEq, Repr

/-- A buffer pool: the buffers taken, and the waiting GETs in order of service. -/
structure Pool where
  taken : List Nat
  waits : List PoolWait
  deriving DecidableEq, Repr

/-- The dispatcher, swath and ring state of a bay (04 R93 to R101, R113, 09 R217, R228, R230, R234). -/
structure Bay where
  readyLc : List Nat
  readyBe : List Nat
  /-- The next sheaf sequence (04 R87). -/
  nextSeq : Word
  /-- Sequences of the instances that reached DONE (09 R230: a cancel of one is refused with reason 2). -/
  doneSeqs : List Nat
  lastPlaced : Option W64
  /-- A submission that waits for room in its ready list (R93, R113): `DISP_SUBMIT_STATUS.BUSY` while there is one. -/
  submitWait : Option SheafDesc
  submitRefused : Bool
  submitReason : Nat
  pools : AMap Pool
  rounds : List Round
  roundSerial : Nat
  channels : AMap CopyChannel
  /-- The number of the next gleaning of a copy transfer (09 R234). -/
  gleanSerial : Nat
  cancelBusy : Option Nat
  cancelRefused : Bool
  cancelReason : Nat
  /-- Why the bay is to be in lull (02 R43): the host's request, a load or move, a restart, Vane's safe state or policy. -/
  lullHost : Bool
  lullLoad : Bool
  lullRestart : Bool
  lullSafe : Bool
  lullPolicy : Bool
  lullReset : Bool
  /-- The bay is in lull (`CFG_LULL_STATUS`). -/
  lulled : Bool
  deriving DecidableEq, Repr

def Bay.empty : Bay :=
  { readyLc := [], readyBe := [], nextSeq := 0, doneSeqs := [], lastPlaced := none, submitWait := none, submitRefused := false
    submitReason := 0, pools := [], rounds := [], roundSerial := 0, channels := [], gleanSerial := 0, cancelBusy := none, cancelRefused := false
    cancelReason := 0, lullHost := false, lullLoad := false, lullRestart := false, lullSafe := false, lullPolicy := false
    lullReset := false, lulled := false }

end Sys2Proof.Machine
end

