-- ==== Sys2Proof/Machine/StreamTypes.lean ====
section
/-! DEFINITION. The state of stream contexts and of the batcher (06). -/

namespace Sys2Proof.Machine

/-- States of a stream or sequence context (06 R144, 08 R186). -/
inductive CtxState where
  | idle | armed | running | paused | draining
  deriving DecidableEq, Repr

def CtxState.code : CtxState → Nat
  | .idle => 0 | .armed => 1 | .running => 2 | .paused => 3 | .draining => 4

/-- A command that holds PENDING until the chunk or step in flight completes (06 R146). -/
inductive PendingCmd where
  | pause | drain | abort
  deriving DecidableEq, Repr

/-- Where the headers of a chunk or step stand (06 R174 steps 4 and 5): its sheaves run; the chain has ended and the writes are due;
they have completed. -/
inductive HeaderStage where
  | running | due | written
  deriving DecidableEq, Repr

/-- What a slot is published for (06 R150, R157, R414): a chunk or step that ran, a dropped one, or the empty slot with LAST. -/
inductive SlotKind where
  | normal | dropped | empty
  deriving DecidableEq, Repr

/-- The chunk or step in flight (06 R148, R149, R153, R154): its sequence, frames and flags, its reset steps with the named frames and
the next-chunk reset that they come from, its times, its graph, and what its headers say. -/
structure InFlight where
  kind : SlotKind
  seq : Word
  firstFrame : Word
  valid : Nat
  silence : Bool
  last : Bool
  resets : List Nat
  named : List Word
  resetNext : Bool
  ready : W64
  deadline : W64
  graph : Nat
  stage : HeaderStage
  late : Bool
  chaff : Bool
  published : W64
  /-- The final sheaf of the chain was aborted (06 R151), and a STORE of the row's may be incomplete (07 R170). -/
  cut : Bool
  torn : Bool
  scan : RowScan
  deriving DecidableEq, Repr

/-- A stream context beyond its registers (06 R144 to R159). -/
structure Stream where
  state : CtxState
  be : Bool
  pending : Option PendingCmd
  absent : Bool
  absentSince : W64
  absentCounted : Bool
  /-- A page is not present: the batcher waits for RECHECK (06 R158). -/
  needRecheck : Bool
  outFull : Bool
  alignWait : Bool
  stateFault : Bool
  refused : Bool
  reason : Nat
  /-- Frame sequences present in the ring. -/
  frames : List Nat
  /-- The SC_IN_HEAD at which DRAIN closed the input. -/
  closed : Option Word
  /-- Frames named by accepted RESET_STATE commands that have not run, and a reset for the next chunk posted (06 R154). -/
  resetFrames : List Word
  resetNext : Bool
  /-- Readiness and deadline of the chunks that are ready and not posted, by chunk sequence (06 R148, R156). -/
  readies : AMap (W64 × W64)
  /-- Chunks of a sequence before this one are published as DROPPED, each once it is the next and the ring has room (06 R159). -/
  dropTo : Option Word
  /-- The next chunk has been completed with silence: frames of it are behind the stream, and it is counted (06 R147, R149). -/
  silenced : Bool
  /-- The next chunk came back to the stream, and is posted again (06 R162, R415). -/
  returned : Bool
  inflight : Option InFlight
  /-- The chunk in flight was the last or an empty LAST slot is owed (06 R414). -/
  lastOwed : Bool
  drained : Bool
  /-- The header of the latest store (07 R174, R177): STATE_CHAFF and THAWING. -/
  stateChaff : Bool
  thawing : Bool
  /-- Slots published and not yet sent, oldest first (10 R256). -/
  unsent : List Word
  deriving DecidableEq, Repr

def Stream.idle : Stream :=
  { state := .idle, be := false, pending := none, absent := false, absentSince := 0, absentCounted := false
    needRecheck := false, outFull := false
    alignWait := false, stateFault := false, refused := false, reason := 0, frames := [], closed := none, resetFrames := []
    resetNext := false, readies := [], dropTo := none, silenced := false, returned := false, inflight := none, lastOwed := false, drained := false, stateChaff := false
    thawing := false, unsent := [] }

/-- A row of a batch (06 R152 to R154): a stream or sequence, its deadline, its reset steps, whether it has completed or been returned,
and whether a sheaf that carries a STORE for it was aborted (07 R170). -/
structure Row where
  seq : Bool
  index : Nat
  deadline : W64
  resets : List Nat
  finished : Bool
  torn : Bool
  /-- What the chain's finished sheaves have done to the row's carried state (07 R174). -/
  scan : RowScan
  deriving DecidableEq, Repr

/-- A batch (06 R152): its graph, rows in posting order, and when its first row joined. -/
structure Batch where
  graph : Nat
  seq : Bool
  rows : List Row
  opened : W64
  /-- Window in force when the batch opened (`BAT_WINDOW`), in µs. -/
  window : Nat
  /-- Its writes of the batch area are held on a translation fault (06 R415). -/
  held : Bool
  /-- The final sheaf of its chain, so far, was aborted (06 R151). -/
  cut : Bool
  deriving DecidableEq, Repr

/-- An aligned set (06 R159). -/
structure AlignSet where
  running : Bool
  /-- When the slack timer started. -/
  timing : Option W64
  slack : Nat
  offered : List Nat
  /-- The slack timer expired while the bay was in lull: the group waits for the bay to resume (02 R43, 06 R161). -/
  expired : Bool
  deriving DecidableEq, Repr

/-- A graph's shape (06 R151): frame length field, L, F. -/
structure Shape where
  frame : Nat
  l : Nat
  f : Nat
  deriving DecidableEq, Repr

/-- The batcher of a bay. -/
structure Batcher where
  shapes : AMap Shape
  openBatches : AMap Batch
  /-- Closed batches that wait for a free batch slot or for room in a ready list, oldest first (06 R152, 04 R93). -/
  waiting : List Batch
  slots : AMap Batch
  sets : AMap AlignSet
  deriving DecidableEq, Repr

def Batcher.empty : Batcher := ⟨[], [], [], [], []⟩

end Sys2Proof.Machine
end

