-- ==== Sys2Proof/Machine/AttnTypes.lean ====
section
/-! DEFINITION. The state of bank-side engines (05), sequence contexts and the attention walkers (08). -/

namespace Sys2Proof.Machine

/-- A bank-side engine command (05 R136) in progress, issued by an instance: its fields, and its results so far, one 32-bit word
per result element. -/
structure BseCommand where
  id : Nat
  inst : Nat
  lc : Bool
  wsum : Bool
  matrixFmt : Nat
  vectorFmt : Nat
  vectors : Nat
  accumulate : Bool
  rows : Nat
  cols : Nat
  stride : Nat
  matrix : W64
  vecOff : Nat
  resOff : Nat
  /-- The first byte of the matrix that is not translated yet, and the end of the matrix. -/
  next : Nat
  stop : Nat
  /-- For each result element, the partial results of the shares done, each with whether it saturated (05 R138). -/
  partials : AMap (List (Word × Bool))
  chaff : List Nat
  /-- The next share waits for a die whose queue is full (05 R139, 01 R22). -/
  waitRoom : Bool
  deriving DecidableEq, Repr

/-- What a bank-side share works on: a page of a command's matrix, or a page of an attention row (05 R138, 08 R194). -/
inductive ShareWork where
  | command (id : Nat)
  | pass (inst : Nat) (row : Nat) (page : Nat)
  deriving DecidableEq, Repr

/-- A share queued on a die (05 R138, R139): the page it reads, by virtual and physical address. -/
structure BseShare where
  id : Nat
  die : Nat
  lc : Bool
  work : ShareWork
  pageVa : W64
  pageLen : Nat
  phys : Nat
  /-- The die's engines have taken the command that the share belongs to (05 R139). -/
  taken : Bool
  deriving DecidableEq, Repr

/-- The service of a handle queue by the bank-side engines (09 R223): the buffer as a crib area, the command slots still to run, the command
under way with the page runs of its matrix still to read, whether a command has broken R137, and the runs of results. -/
structure Service where
  area : Inst
  slots : List Nat
  current : Option (BseCommand × List (Nat × Nat))
  broken : Bool
  results : List (Nat × Nat)
  deriving DecidableEq, Repr

/-- One page of a row of an attention pass (08 R194): its page number, its virtual address, its physical leaves, whether it takes the MXE path, and
whether a line read from it was marked. -/
structure PassPage where
  page : Nat
  va : Nat
  tag : Nat
  leaves : List Nat
  mxe : Bool
  pageChaff : Bool
  deriving DecidableEq, Repr

/-- One row of an attention pass. -/
structure PassRow where
  row : Nat
  q : Nat
  pos : Nat
  /-- Entry words of the global list as latched. -/
  globals : List Word
  window : Nat
  shapeFault : Bool
  /-- Pages still to translate, and pages translated. -/
  todo : List Nat
  pages : List PassPage
  deriving DecidableEq, Repr

/-- An attention pass (08 R191) of an instance. -/
structure AttPass where
  inst : Nat
  die : Nat
  core : Nat
  lc : Bool
  value : Bool
  tap : Bool
  allMxe : Bool
  heads : Nat
  selfTag : Nat
  layer : Nat
  scale : Word
  qLat : Nat
  qTally : Nat
  selfOff : Nat
  scoreArea : W64
  slots : Nat
  valueOff : Nat
  workOff : Nat
  rows : List PassRow
  /-- It waits for one of the 64 places of its die's walker (08 R191, 01 R22). -/
  queued : Bool
  /-- A share of its next page waits for a die whose queue is full (05 R139, 01 R22). -/
  waitRoom : Bool
  deriving DecidableEq, Repr

/-- What the batcher latches for a step at its readiness (08 R189). -/
structure StepLatch where
  window : Nat
  globals : List Word
  /-- The global list has been read. -/
  held : Bool
  tapBase : W64
  tapCfg : Word
  tapSel : Word
  deriving DecidableEq, Repr

/-- A sequence context beyond its registers (08 R184 to R190, R204). -/
structure SeqCtx where
  state : CtxState
  be : Bool
  pending : Option PendingCmd
  absent : Bool
  absentCounted : Bool
  /-- The next step is ready and its probe has found every leaf in place (08 R189). -/
  probed : Bool
  outFull : Bool
  pageFault : Bool
  refused : Bool
  reason : Nat
  /-- Readiness of the next step, once it is ready, and the deadline that it then took (06 R156). -/
  readyAt : Option W64
  due : W64
  latch : StepLatch
  inflight : Option InFlight
  lastOwed : Bool
  drained : Bool
  /-- The forecast window D and the steps since the latest miss (`SQ_FC`). -/
  window : Nat
  quiet : Nat
  /-- Steps without a miss since D last changed, and whether the step under way has had one (08 R204). -/
  calm : Nat
  missed : Bool
  /-- `ATT_FC_CFG` as the sequence took it at its latest ARM or readiness (08 R208). -/
  fc : Word
  unsent : List Word
  deriving DecidableEq, Repr

def StepLatch.zero : StepLatch := ⟨0x400, [], false, 0, 0, 0⟩

def SeqCtx.idle : SeqCtx :=
  { state := .idle, be := false, pending := none, absent := false, absentCounted := false, probed := false, outFull := false
    pageFault := false, refused := false, reason := 0, readyAt := none, due := 0, latch := .zero, inflight := none, lastOwed := false
    drained := false, window := 2, quiet := 0, calm := 0, missed := false, fc := 0x00401002, unsent := [] }

/-- A graph's shape for sequences (08 R188). -/
structure SeqShape where
  width : Nat
  qfmt : Nat
  layers : Nat
  deriving DecidableEq, Repr

/-- Bank-side engines and attention walkers of the device. -/
structure Engines where
  commands : List BseCommand
  shares : List BseShare
  nextShare : Nat
  nextCommand : Nat
  passes : List AttPass
  /-- Services of handle queues that a fault holds, by queue. -/
  services : AMap Service
  /-- Shapes fixed by sequences, by bay * 256 + graph. -/
  seqShapes : AMap SeqShape
  deriving DecidableEq, Repr

def Engines.reset : Engines := ⟨[], [], 0, 0, [], [], []⟩

end Sys2Proof.Machine
end

