-- ==== Sys2Proof/Machine/AudioTypes.lean ====
section
/-! DEFINITION. The state of the audio block (11). -/

namespace Sys2Proof.Machine

/-- Port states (11 R280). -/
inductive PortState where
  | off | primed | leadIn | running | leadOut
  deriving DecidableEq, Repr

def PortState.code : PortState → Nat
  | .off => 0 | .primed => 1 | .leadIn => 2 | .running => 3 | .leadOut => 4

/-- A port descriptor (11 R282, R283): mode, shape, ring base, target, run count; and the periods it has carried. -/
structure PortDesc where
  mode : Nat
  p : Nat
  c : Nat
  pack : Nat
  base : W64
  target : Nat
  run : Nat
  done : Nat
  deriving DecidableEq, Repr

/-- A period (11 R279, R282): its sequence, the descriptor and route that it opened under, the index of its next frame, the samples
captured by frame (each 32 bits, left-justified; a frame not listed is zero), or the bytes to be played, its mark, and what is
released after it has played: an output slot, or a buffer of pool 7's bay. -/
structure Period where
  seq : Word
  desc : Option PortDesc
  bay : Nat
  sid : Nat
  at_ : Nat
  frames : AMap (List Word)
  bytes : Bytes
  chaff : Bool
  slot : Option Word
  buffer : Option (Nat × Nat)
  deriving DecidableEq, Repr

/-- A playback period fetched ahead: its bytes, its mark, and what is released after it has played. -/
structure Fetched where
  bytes : Bytes
  chaff : Bool
  slot : Option Word
  buffer : Option (Nat × Nat)
  deriving DecidableEq, Repr

/-- An audio port beyond its registers. -/
structure AudioPort where
  state : PortState
  rejoin : Bool
  refused : Bool
  reason : Nat
  clockLost : Bool
  /-- The divider's 24-bit accumulator (11 R268). -/
  acc : Nat
  /-- The clocks have run without a stop since the group's release (11 R284). -/
  steady : Bool
  /-- The lead-in is that of a rejoin (11 R284). -/
  rejoining : Bool
  /-- Frames of the lead-in or lead-out still to come (11 R280). -/
  left : Nat
  slip : Nat
  slipped : Bool
  /-- STOP was accepted: data ends at the period boundary. -/
  stopping : Bool
  open_ : Option Period
  /-- Capture periods that wait for their delivery, oldest first. -/
  full : List Period
  held : Option Period
  fetched : List Fetched
  /-- Playback: the sample that an underrun left to be played in the next slot. -/
  carry : Word
  active : Option PortDesc
  pending : Option PortDesc
  /-- CANCEL was accepted: the descriptors end with the open period. -/
  cancelling : Bool
  portdError : Bool
  portdCause : Nat
  /-- Playback: periods already taken from the current output slot. -/
  slotTaken : Nat
  /-- The latest window's measurement, in 0.01 Hz (11 R275). -/
  lastRate : Option Nat
  /-- The data pins in the latest frame, by slot; none for a slot that is not driven (11 R271). -/
  out : List (Option Word)
  deriving DecidableEq, Repr

def AudioPort.off : AudioPort :=
  { state := .off, rejoin := false, refused := false, reason := 0, clockLost := false, acc := 0, steady := false, rejoining := false
    left := 0, slip := 0, slipped := false, stopping := false, open_ := none, full := [], held := none, fetched := [], carry := 0
    active := none, pending := none, cancelling := false, portdError := false, portdCause := 0, slotTaken := 0, lastRate := none
    out := [] }

/-- Group states (11 R280, `AP_GROUP_STATUS`). -/
inductive GroupState where
  | idle | primed | running
  deriving DecidableEq, Repr

/-- An aligned group (11 R284, R285). -/
structure AudioGroup where
  state : GroupState
  /-- Armed for an edge of ASTART: true for rising. -/
  armed : Option Bool
  /-- Members that slipped and have not rejoined. -/
  slipped : List Nat
  deriving DecidableEq, Repr

def AudioGroup.idle : AudioGroup := ⟨.idle, none, []⟩

/-- The audio block. -/
structure Audio where
  locked : BitVec 2
  present : BitVec 2
  astart : Bool
  ports : AMap AudioPort
  groups : AMap AudioGroup
  deriving DecidableEq, Repr

def Audio.reset : Audio := ⟨0, 0, false, [], []⟩

end Sys2Proof.Machine
end

