-- ==== Sys2Proof/Config.lean ====
section
/-! DEFINITION. What one device fixes and what the manual leaves open: constants WITHOUT A BODY, so that no proof can
see a value of them (assumption log 4, 5, 7, 8, 9). -/

namespace Sys2Proof.Config

/-- The k-th free value: what the manual leaves undefined, drawn once per use (log 5). -/
opaque freeValue : Nat → W64

/-- `HUB_VERSION` of this device (12, "Per device"). -/
opaque hubVersion : Word
/-- `HUB_SERIAL` of this device (12, "Per device"). -/
opaque serial : W64
/-- `HUB_CORE_PRESENT`: bit n set when core Cn passed manufacturing test (12 R308). -/
opaque corePresent : BitVec 36
/-- `HUB_CORE_SPARE`: four bits per die, the die-local index of the spare, or 0xF (12 R308). -/
opaque coreSpare : BitVec 16
/-- Where the device's own areas lie in the Silo (03 R75, per device): the row and the first granule in it. An area lies within one row of 196,608
granules (log 94). The staging buffer has 1,024 granules, the granule map 640, the spill lists and the fault queue 288; the telemetry ring has at
most 65,536 (15 R357). -/
opaque stageAt : Fin 32 × Fin 195585
opaque granuleMapAt : Fin 32 × Fin 195969
opaque spillAt : Fin 32 × Fin 196321
opaque telRingAt : Fin 32 × Fin 131073
/-- Where the fault queue lies in its area, in 64-byte units. -/
opaque faultQueueAt : Fin 292865

/-- Physical address of a granule of a Silo row (03 R57). -/
def siloAddress (row granule : Nat) : Nat := 0x10000000000 + row * 0x400000000 + granule * 65536

/-- Physical base of the configuration staging buffer (02 "Loading", per device). -/
def stageBase : Nat := siloAddress stageAt.1.val stageAt.2.val
/-- Physical base of the translation fault queue (03, per device). -/
def faultQueueBase : Nat := siloAddress spillAt.1.val spillAt.2.val + faultQueueAt.val * 64
/-- Physical base of the telemetry ring (15, per device). -/
def telRingBase : Nat := siloAddress telRingAt.1.val telRingAt.2.val
/-- The BOOTSEL straps (16 R380, per device). -/
opaque straps : BitVec 2
/-- The MAC address assigned at manufacture, octet 0 in the top byte (16 R385, per device). -/
opaque macAddress : BitVec 48
/-- Size in GiB of the DIMM of Granary channel g as its SPD hub reports it, 0 for none, at most 256 (03 R53, 16 R382, R384). -/
opaque dimmGiB : Nat → Fin 257
/-- The first of the 512 granules, 32 MiB, that a die's loft reserves (03 R75; log 94). -/
opaque loftReserveAt : Nat → Fin 65025
/-- Frames that the egress queue of a priority holds before it is full (10 R239: the manual gives no size; log 98). -/
opaque egressRoom : Nat → Nat
/-- Spare rows of a loft bank, 2 % of its rows (03 R53, R55). -/
opaque spareRows : Nat → Nat

/-- The upset of a crib word that falls at a reading of the local interval counter: the core, which of the reservations held there, the byte
offset in it, and whether one bit is lost (corrected) or two (04 R84: the manual says what follows, not when; log 81). -/
opaque cribUpset : W64 → Option (Fin 36 × Nat × Nat × Bool)

/-- The security block's flash at manufacture or as its owner left it (14 R335, R339, "Per device"). -/
opaque keyOperatorRoots : List Bytes
/-- Image-signing public keys installed in flash (14 R339). -/
opaque keyImageSigning : List Bytes
/-- Certificate floor in flash (14 R339). -/
opaque certFloor : W64
/-- Erase count in flash (14 R340). -/
opaque eraseCount : Word
/-- Firmware floor in flash (14 R337). -/
opaque fwFloor : BitVec 16
/-- The slot record's active slot: false A, true B (14 R337). -/
opaque fwActiveSlot : Bool
/-- The bytes of a firmware slot in flash: header, body and signature (14 R336). -/
opaque fwSlotBytes : Bool → Bytes
/-- Identity certificate and the SHA-512 digest of the identity public key (14 R339, `SEC_ID_DIGEST`). -/
opaque idCertificate : Bytes
opaque idPublicKey : Bytes
/-- The two copies of the user tag area in flash: 4 KiB of data, its sequence, and whether its CRC is right (14 R349). -/
opaque tagCopy : Bool → (Bytes × Word × Bool)
/-- What the tag window and `HUB_TAG_SEQ` show while neither copy has a right CRC, as after an erase: the manual does not say
(14 R349, R352; log 37). -/
opaque tagless : Nat → Byte
opaque taglessSeq : Word
/-- Digests of the two Yawick firmware keys and of the claim key, and those keys (14 R336, R340). -/
opaque yawickFwKeys : List Bytes
opaque yawickClaimKey : Bytes
/-- The addressing record of flash, if one exists: MAC, IPv4, IPv6, VLAN, Bale port, port control (16 R385). -/
opaque addressRecord : Option (List Word)
/-- The training records of flash, by unit: the identity that the unit was trained against, its values and the CRC-32C, if one exists (16 R381,
per device). -/
opaque trainingRecord : Nat → Option (Bytes × Bytes × Word)
/-- The identity that is read of a compute die or of an HBM4 stack, and of the DIMM that is installed in a Granary channel (16 R381, per
device). -/
opaque unitIdentity : Nat → Bytes
opaque dimmIdentity : Nat → Bytes
/-- Whether an owner-state erase was pending in flash when power came (14 R352, 16 R378 step 3). -/
opaque erasePending : Bool

/-- SHA-512 of a byte string (00 R9; the standard is not part of the manual). -/
opaque sha512 : Bytes → Bytes
/-- ECDSA P-521 with SHA-512: public key, message, signature r‖s (02 R31, 14 R344). -/
opaque ecdsaVerify : Bytes → Bytes → Bytes → Bool
/-- The signature that the identity key makes over a message (14 R343, R348). -/
opaque identitySign : Bytes → Bytes
/-- The session keys that HKDF gives from the two ephemeral keys, the nonces and the identifier (14 R343). -/
opaque sessionKeys : Bytes → Bytes → Bytes → Bytes → Word → Bytes
/-- The device's own random choices: nonce and ephemeral key of the k-th opening (14 R343). -/
opaque deviceNonce : Nat → Bytes
opaque deviceEphemeral : Nat → Bytes
/-- A session identifier for the k-th opening (14 R345: non-zero and distinct; the model skips those in use). -/
opaque sessionId : Nat → Word

/-- Bytes of output a graph writes per chunk or step in a bay's image: the compiler's, not encoded in the manual (06 R145,
08 R187; log 11). Arguments: bay, graph. -/
opaque graphOutput : Nat → Nat → Fin 4194177

/-- The fraction of a NaN that an operation makes, by format width (05 R132: the payload is not stated; log 8). -/
opaque nanPayload : Nat → Nat
/-- The sign of a NaN that no operand NaN gives its sign (05 R132; log 8). -/
opaque nanSign : Bool
/-- What the VXE's compare gives for two FP32 operands, and which operand its select takes for a mask value (05 R123: the manual names
the operations and states neither; log 9). -/
opaque compareResult : Word → Word → Word
opaque selectsFirst : Word → Bool

/-- The group delay of a PDM port's decimator in whole output samples, by its ratio R: fixed for a given R and at most 24 (11 R273;
log 5). -/
opaque pdmDelay : Nat → Fin 25

end Sys2Proof.Config
end

