-- ==== Sys2Proof/Machine/Bits.lean ====
section
/-! DEFINITION. Bit fields, byte order and CRC-32C (00 R8, R9). -/

namespace Sys2Proof.Machine

/-- Bits [hi:lo] of a word, as a number (00 R8). -/
def fld {n : Nat} (w : BitVec n) (hi lo : Nat) : Nat := (w.toNat >>> lo) % 2 ^ (hi - lo + 1)

/-- Bit n of a word (00 R8). -/
def bit {n : Nat} (w : BitVec n) (i : Nat) : Bool := w.getLsbD i

/-- A 32-bit word from a number, modulo 2^32. -/
def w32 (n : Nat) : Word := BitVec.ofNat 32 n

/-- A number placed at bit `lo` of a 32-bit word. -/
def at_ (n lo : Nat) : Word := BitVec.ofNat 32 (n <<< lo)

/-- One bit as a word with that bit at position `lo`. -/
def flag (b : Bool) (lo : Nat) : Word := if b then at_ 1 lo else 0

/-- The word with bit i made b. -/
def setBit (w : Word) (i : Nat) (b : Bool) : Word :=
  if b then w ||| at_ 1 i else w &&& ~~~(at_ 1 i)

/-- The low half of a 64-bit value, as its `_LO` register holds it (12 R300). -/
def lo32 (w : W64) : Word := BitVec.setWidth 32 w

/-- The high half of a 64-bit value, as its `_HI` register holds it (12 R300). -/
def hi32 (w : W64) : Word := BitVec.setWidth 32 (w >>> 32)

/-- A 64-bit value from its `_LO` and `_HI` registers (12 R300). -/
def pair (lo hi : Word) : W64 := hi ++ lo

/-- The number that bytes spell, least significant byte first (00 R9). -/
def leNat : Bytes → Nat
  | [] => 0
  | b :: rest => b.toNat + 256 * leNat rest

/-- The number that bytes spell, most significant byte first (network byte order, 00 R9). -/
def beNat (bs : Bytes) : Nat := bs.foldl (fun a b => a * 256 + b.toNat) 0

/-- A number as `k` bytes, least significant byte first (00 R9). -/
def leBytes : Nat → Nat → Bytes
  | 0, _ => []
  | k + 1, n => BitVec.ofNat 8 n :: leBytes k (n / 256)

/-- A number as `k` bytes, most significant byte first (network byte order, 00 R9). -/
def beBytes (k n : Nat) : Bytes := (leBytes k n).reverse

/-- The `len` bytes at offset `off` of a byte string, short where the string ends. -/
def slice (bs : Bytes) (off len : Nat) : Bytes := (bs.drop off).take len

/-- The little-endian field of `len` bytes at offset `off` (00 R9). -/
def leAt (bs : Bytes) (off len : Nat) : Nat := leNat (slice bs off len)

/-- All bytes are zero. -/
def allZero (bs : Bytes) : Bool := bs.all (· == 0)

/-- One bit step of the reflected CRC-32C register. -/
def crcStep (c : Word) : Word :=
  if c.getLsbD 0 then (c >>> 1) ^^^ 0x82F63B78#32 else c >>> 1

/-- CRC-32C over bytes: initial value and final inversion all ones, so that the CRC of nothing is 0 (16 R387). -/
def crc32c (bs : Bytes) : Word :=
  ~~~ (bs.foldl (fun c b =>
    let c0 := c ^^^ BitVec.setWidth 32 b
    crcStep (crcStep (crcStep (crcStep (crcStep (crcStep (crcStep (crcStep c0)))))))) 0xFFFFFFFF#32)

/-- Modular comparison of 32-bit sequences: a is before b (06 R147, 10 R248). -/
def seqLt (a b : Word) : Bool := a != b && (b - a).toNat < 2 ^ 31

/-- Modular "a is before or equal to b". -/
def seqLe (a b : Word) : Bool := a == b || seqLt a b

/-- Rounded-up division. -/
def ceilDiv (a b : Nat) : Nat := (a + b - 1) / b

/-- A signed number read from the low `k` bits of a number (two's complement). -/
def signedOf (k n : Nat) : Int :=
  let m := n % 2 ^ k
  if m < 2 ^ (k - 1) then (m : Int) else (m : Int) - (2 ^ k : Nat)

/-- The low `k` bits of an integer, two's complement. -/
def natOfInt (k : Nat) (i : Int) : Nat := (i % (2 ^ k : Nat)).toNat

/-- An integer limited to a range. -/
def clampInt (lo hi i : Int) : Int := if i < lo then lo else if i > hi then hi else i

/-- REFCLK periods in a number of microseconds: 156.25 per µs (06 R156). -/
def periodsOfMicros (us : Nat) : Nat := us * 625 / 4

/-- Microseconds in a number of REFCLK periods, rounded down (01 R24: 6.4 ns each). -/
def microsOfPeriods (p : Nat) : Nat := p * 4 / 625

end Sys2Proof.Machine
end

