-- ==== Sys2Proof/Machine/SecTypes.lean ====
section
/-! DEFINITION. The state of the security block: flash, keys, sessions, attestation and the tag area (14). -/

namespace Sys2Proof.Machine

/-- Roles of a session (14 R341, R342): [0] READ, [1] OPERATE, [2] CONFIGURE, [3] ADMIN. -/
inductive Role where
  | read | operate | configure | admin
  deriving DecidableEq, Repr

/-- The bit of a role. -/
def Role.bit : Role → Nat
  | .read => 0 | .operate => 1 | .configure => 2 | .admin => 3

/-- An opening in progress (14 R343, R345): OPEN_2 has been sent and OPEN_3 has not arrived. -/
structure Opening where
  id : Word
  entry : Nat
  /-- Source IP address, UDP port, MAC address, VLAN and family of OPEN_1's frame. -/
  address : Bytes
  port : Nat
  mac : Bytes
  vlan : Nat
  ipv6 : Bool
  cert : Bytes
  hostNonce : Bytes
  deviceNonce : Bytes
  hostKey : Bytes
  deviceKey : Bytes
  /-- T: the transcript hash; and whether OPEN_2 filled the entry, which was unused (R345). -/
  transcript : Bytes
  filled : Bool
  deriving DecidableEq, Repr

/-- An open session (10 R251, 14 R342, R346). -/
structure Session where
  id : Word
  peer : Nat
  roles : Nat
  certSerial : W64
  rootDigest : Bytes
  keys : Bytes
  /-- Transmit counter of the next message; highest receive counter accepted. -/
  tx : Word
  rxHigh : Word
  /-- Local interval counter at the latest authenticated message. -/
  last : W64
  deriving DecidableEq, Repr

/-- A copy of the tag area in flash (14 R349). -/
structure TagCopy where
  data : Bytes
  seq : Word
  good : Bool
  deriving DecidableEq, Repr

/-- The slot record (14 R337). A slot is false for A, true for B. -/
structure SlotRecord where
  active : Bool
  trial : Bool
  trialStarted : Bool
  deriving DecidableEq, Repr

/-- The security block. -/
structure Sec where
  roots : List Bytes
  imageKeys : List Bytes
  certFloor : W64
  eraseCount : Word
  fwFloor : Nat
  slotA : Bytes
  slotB : Bytes
  record : SlotRecord
  /-- The slot that the boot ROM loaded, none while no slot is acceptable; whether it runs on trial (14 R337, R338). -/
  running : Option Bool
  onTrial : Bool
  /-- A FW_VERIFY passed and no FW_STAGE came since (14 R347). -/
  verified : Bool
  openings : List Opening
  sessions : List Session
  /-- Openings accepted so far: the argument of the device's own random choices. -/
  drawn : Nat
  /-- Quotes signed in the running second (14 R348), and when that second began. -/
  quotes : Nat
  second : W64
  copyA : TagCopy
  copyB : TagCopy
  staging : Option Bytes
  /-- SEC_ERASE runs (14 R352). -/
  erasing : Bool
  deriving DecidableEq, Repr

end Sys2Proof.Machine
end

