-- ==== Sys2Proof/Machine/Boot.lean ====
section
/-! DEFINITION. The firmware slots and the boot ROM's choice between them (14 R336 to R338), and what an owner-state erase
leaves (14 R352). -/

namespace Sys2Proof.Machine

/-- The slot that is not the given one. -/
def otherSlot (b : Bool) : Bool := !b

/-- The bytes of a slot. -/
def Sec.slot (sec : Sec) (b : Bool) : Bytes := if b then sec.slotB else sec.slotA

/-- Body length field of a firmware set's header (14 R336). -/
def fwBodyLength (fw : Bytes) : Nat := leAt fw 0x04 4
/-- Security version (14 R336). -/
def fwVersion (fw : Bytes) : Nat := leAt fw 0x08 2
/-- Build number (14 R336). -/
def fwBuild (fw : Bytes) : Nat := leAt fw 0x0A 2
/-- RAISE_FLOOR, bit [0] of the flags byte (14 R336). -/
def fwRaisesFloor (fw : Bytes) : Bool := leAt fw 0x0C 1 % 2 = 1
/-- Header and body: the bytes that the signature covers and that attestation measures (14 R336, R348). -/
def fwSigned (fw : Bytes) : Bytes := fw.take (256 + fwBodyLength fw)
/-- The signature r‖s at the end of the set (14 R336). -/
def fwSignature (fw : Bytes) : Bytes := slice fw (256 + fwBodyLength fw) 132

/-- The signature verifies under one of the two Yawick keys, the one whose digest the header names (14 R336). -/
def fwSignatureGood (fw : Bytes) : Bool :=
  leAt fw 0 4 = 0x57464159 && fw.length ≥ 256 + fwBodyLength fw + 132 &&
    Config.yawickFwKeys.any fun k =>
      Config.sha512 k = slice fw 0x40 64 && Config.ecdsaVerify k (fwSigned fw) (fwSignature fw)

/-- A slot is acceptable: its signature verifies and its version is at or above the floor (14 R337). -/
def acceptable (sec : Sec) (b : Bool) : Bool :=
  fwSignatureGood (sec.slot b) && decide (fwVersion (sec.slot b) ≥ sec.fwFloor)

/-- The slot record as the boot ROM rewrites it before it tries the slots: a trial that had started has failed (14 R337). -/
def bootRecord (r : SlotRecord) : SlotRecord :=
  let r1 := if r.trial && r.trialStarted then { r with active := otherSlot r.active, trial := false } else r
  if r1.trial then { r1 with trialStarted := true } else r1

/-- The boot ROM: the slot it loads, none where neither is acceptable (14 R337). The running set is on trial while the record's
trial flag is set and the active slot is the one that was loaded (R338). -/
def boot (sec : Sec) : Sec :=
  let r := bootRecord sec.record
  let running :=
    if acceptable sec r.active then some r.active
    else if acceptable sec (otherSlot r.active) then some (otherSlot r.active) else none
  { sec with record := r, running := running, onTrial := r.trial && decide (running = some r.active) }

/-- Confirmation: both trial flags clear, and the firmware floor rises where the running set's header asks for it (14 R338). -/
def confirmTrial (sec : Sec) : Sec :=
  if sec.onTrial then
    match sec.running with
    | some b =>
      { sec with
        record := { sec.record with trial := false, trialStarted := false }
        onTrial := false
        fwFloor := if fwRaisesFloor (sec.slot b) then max sec.fwFloor (fwVersion (sec.slot b)) else sec.fwFloor }
    | none => sec
  else sec

/-- A copy of the tag area that has been erased: 4 KiB of zeros, which no CRC covers. -/
def TagCopy.erased : TagCopy := ⟨List.replicate 4096 0, 0, false⟩

/-- The valid copy of the tag area, if there is one: of two with a right CRC the one with the later sequence (14 R349). True is
copy B. -/
def Sec.validTag (sec : Sec) : Option Bool :=
  if sec.copyA.good then some (sec.copyB.good && seqLt sec.copyA.seq sec.copyB.seq)
  else if sec.copyB.good then some true else none

def Sec.tagCopy (sec : Sec) (b : Bool) : TagCopy := if b then sec.copyB else sec.copyA

/-- The 4 KiB that the tag window shows, and `HUB_TAG_SEQ` (12 R309). -/
def Sec.tagData (sec : Sec) : Bytes :=
  match sec.validTag with
  | some b => (sec.tagCopy b).data
  | none => (List.range 4096).map Config.tagless

def Sec.tagSeq (sec : Sec) : Word :=
  match sec.validTag with
  | some b => (sec.tagCopy b).seq
  | none => Config.taglessSeq

/-- The owner state erased: keys, certificate floor, tag copies; the erase count rises, saturating; the identity, the firmware
slots, the slot record and the firmware floor stay (14 R352). -/
def eraseOwner (sec : Sec) : Sec :=
  { sec with
    roots := [], imageKeys := [], certFloor := 0, copyA := .erased, copyB := .erased, staging := none, sessions := []
    openings := [], eraseCount := if sec.eraseCount = 0xFFFFFFFF#32 then sec.eraseCount else sec.eraseCount + 1 }

/-- What a loss of power leaves of the security block: flash alone (14 R335, R339, R345, R346). -/
def flashOnly (sec : Sec) : Sec :=
  { sec with
    running := none, onTrial := false, verified := false, openings := [], sessions := [], quotes := 0, second := 0
    staging := none, erasing := false }

/-- The security block's flash as the device left its maker or its last owner (log 4). -/
def Sec.shipped : Sec :=
  { roots := Config.keyOperatorRoots, imageKeys := Config.keyImageSigning, certFloor := Config.certFloor
    eraseCount := Config.eraseCount, fwFloor := Config.fwFloor.toNat
    slotA := Config.fwSlotBytes false, slotB := Config.fwSlotBytes true
    record := ⟨Config.fwActiveSlot, false, false⟩, running := none, onTrial := false, verified := false
    openings := [], sessions := [], drawn := 0, quotes := 0, second := 0
    copyA := ⟨(Config.tagCopy false).1, (Config.tagCopy false).2.1, (Config.tagCopy false).2.2⟩
    copyB := ⟨(Config.tagCopy true).1, (Config.tagCopy true).2.1, (Config.tagCopy true).2.2⟩
    staging := none, erasing := false }

end Sys2Proof.Machine
end

