-- ==== Sys2Proof/Machine/LoaderTypes.lean ====
section
/-! DEFINITION. The state of the configuration loader, the configuration store and the CRC monitor (02). -/

namespace Sys2Proof.Machine

/-- One section as a slot holds it: its 32-byte table entry and its body (02 R30, R37). -/
structure SlotSection where
  entry : Bytes
  body : Bytes
  deriving DecidableEq, Repr

/-- The contents of one slot: its sections, in the image's table order (02 R37, R49). -/
abbrev SlotCopy := List SlotSection

/-- What a commit record says (02 R38). -/
structure CommitRecord where
  seq : Word
  /-- [15:0] bays, [16] global slot: the active bank of each slot. -/
  active : BitVec 17
  defined : BitVec 17
  /-- Four bits per die: the die-local index of the core whose work the spare carries, or 0xF. -/
  spareSub : BitVec 16
  serial : W64
  deriving DecidableEq, Repr

/-- The record after power-on reset: nothing defined, nothing substituted (02 R40). -/
def CommitRecord.empty : CommitRecord := ⟨0, 0, 0, 0xFFFF, 0⟩

/-- Bytes 0x00 to 0x1B of a commit record; the reserved word is zero (02 R38). -/
def CommitRecord.body (r : CommitRecord) : Bytes :=
  leBytes 4 r.seq.toNat ++ leBytes 4 r.active.toNat ++ leBytes 4 r.defined.toNat ++ leBytes 4 r.spareSub.toNat ++ leBytes 8 r.serial.toNat ++
    leBytes 4 0

/-- A copy of the commit record, 32 bytes with its CRC (02 R38). -/
def CommitRecord.bytes (r : CommitRecord) : Bytes := r.body ++ leBytes 4 (crc32c r.body).toNat

/-- A copy whose writing a restart cut off: it fails its CRC (02 R39, R45). -/
def CommitRecord.torn (r : CommitRecord) : Bytes := r.body ++ leBytes 4 (~~~(crc32c r.body)).toNat

/-- `CFG_STATUS.STATE` (02 "Loader states"). -/
inductive LoadState where
  | idle | receiving | verifying | staged | lulling | applying | rejected
  deriving DecidableEq, Repr

/-- Where a commit stands (02 R39, R43): waiting for lull; writing copy A; writing copy B; applying the tables. -/
inductive CommitPhase where
  | none | waitLull | copyA | copyB | tables
  deriving DecidableEq, Repr

/-- The steps of a bay move that the model tells apart (02 R48): self-test of the spare; lull; the copy of saved stalls and
pinned crib; the weights; the commit. -/
inductive MoveStep where
  | selfTest | lull | copy | weights | commit
  deriving DecidableEq, Repr

/-- A bay move in progress (02 R47, R48). -/
structure MoveOp where
  bay : Nat
  core : Nat
  joined : Bool
  step : MoveStep
  deriving DecidableEq, Repr

/-- The load in progress: what the staged image carries and which cores and bays it touches (02 R41, R43). -/
structure LoadOp where
  /-- Image length, known once the first 256 bytes are in (02 "`CFG_CMD` fields"). -/
  length : Option Nat
  /-- Granules of 64 bytes received, bit n for granule n (10 R253). -/
  granules : Nat
  mask : BitVec 16
  full : Bool
  global : Bool
  serial : W64
  /-- The header of the image, for what it records (02 R29). -/
  header : Bytes
  /-- Image-signing keys as they stood when the signature check began (14 R353). -/
  keys : List Bytes
  /-- Bays whose lull the commit waits for. -/
  lullSet : BitVec 16
  deriving DecidableEq, Repr

/-- `CFGCRC_STATUS.STATE` (02 R50). -/
inductive CrcState where
  | awaitRef | comparing
  deriving DecidableEq, Repr

/-- The loader, the store and the monitor. -/
structure Loader where
  state : LoadState
  op : LoadOp
  phase : CommitPhase
  move : Option MoveOp
  /-- The record being written. -/
  newRecord : CommitRecord
  /-- The two copies of the commit record, and the record in force: the one that a commit has made valid, or that a restart found so (02 R38, R39). -/
  copyA : Bytes
  copyB : Bytes
  record : CommitRecord
  /-- Banks 0 and 1: slot contents by slot number, 16 the global slot (02 R37). -/
  bank0 : AMap SlotCopy
  bank1 : AMap SlotCopy
  /-- The copies of the tables that the blocks apply, by slot (02 R43, R50). -/
  applied : AMap SlotCopy
  /-- The header of the image that last loaded each slot (02 R29, 14 R348). -/
  headers : AMap Bytes
  /-- `CFG_ERROR`. -/
  errCode : Nat
  errSection : Nat
  errBay : Nat
  /-- The held half of the serial floor, and the floor (02 R52). -/
  floorHi : Option Word
  floor : W64
  /-- The dies whose spare has failed its self-test (02 code 0x0D). -/
  spareFailed : BitVec 4
  /-- `CFG_STATUS.RESUME_WAIT`. -/
  resumeWait : Bool
  crcState : CrcState
  crcMismatch : Bool
  crcSlot : Nat
  /-- CRC of every slot from the latest sweep (`CFGCRC_SLOT_VAL`). -/
  crcSlots : AMap Word
  /-- The warning of R50 was raised in this stay in AWAIT_REF. -/
  crcWarned : Bool
  deriving DecidableEq, Repr

/-- Nothing loading. -/
def LoadOp.none : LoadOp := ⟨Option.none, 0, 0, false, false, 0, [], [], 0⟩

/-- The loader after power-on reset (02 R40, R50). -/
def Loader.reset : Loader :=
  { state := .idle, op := .none, phase := .none, move := none, newRecord := .empty
    copyA := CommitRecord.empty.bytes, copyB := CommitRecord.empty.bytes, record := .empty, bank0 := [], bank1 := [], applied := [], headers := []
    errCode := 0, errSection := 0, errBay := 0, floorHi := none, floor := 0, spareFailed := 0, resumeWait := false
    crcState := .awaitRef, crcMismatch := false, crcSlot := 0, crcSlots := [], crcWarned := false }

end Sys2Proof.Machine
end

