-- ==== Sys2Proof/Machine/NetTypes.lean ====
section
/-! DEFINITION. The state of the Ethernet port, of Bale and of RoCEv2 (10), and of the events (12). -/

namespace Sys2Proof.Machine

/-- An event record (10 R258): status register, the bits that rose, the local interval counter. -/
structure EventRecord where
  addr : Nat
  bits : Word
  time : W64
  deriving DecidableEq, Repr

/-- The limits of one status register (12 R304): its holdoff is running; the record pending. -/
structure EventHold where
  running : Bool
  pending : Option (Word × W64)
  deriving DecidableEq, Repr

/-- Event machinery (12 R303, R304, 10 R258). -/
structure Events where
  queue : List EventRecord
  holds : AMap EventHold
  /-- Records queued in the running 1 ms window. -/
  window : Nat
  /-- LOST of the next message. -/
  lost : Bool
  deriving DecidableEq, Repr

def Events.reset : Events := ⟨[], [], 0, false⟩

/-- Link states (10 R238). -/
inductive LinkState where
  | down | training | up8 | up4
  deriving DecidableEq, Repr

/-- What training the port runs: eight lanes, or one of the two groups. -/
inductive TrainLanes where
  | all | low | high
  deriving DecidableEq, Repr

/-- A MACsec association (10 R244, 14 R350): association number, the next packet number sent, or the one after the highest
accepted, key material. -/
structure MacsecSa where
  an : Nat
  pn : W64
  sak : Bytes
  salt : Bytes
  ssci : Word
  sci : W64
  deriving DecidableEq, Repr

/-- The port: link, lanes, pauses in force, receive levels, MACsec associations (10 R237 to R244). -/
structure Port where
  link : LinkState
  group : Bool
  cr : Bool
  failed : BitVec 8
  train : TrainLanes
  /-- The port trains with auto-negotiation for the rest of this power-on (16 R386). -/
  fallback : Bool
  /-- Quanta of the pause in force on each egress priority. -/
  paused : AMap Nat
  /-- Receive buffer level of each priority in bytes, and whether the port has it paused at the sender. -/
  rxLevel : AMap Nat
  pausing : BitVec 8
  txSas : List MacsecSa
  rxSas : List MacsecSa
  deriving DecidableEq, Repr

def Port.reset : Port :=
  { link := .down, group := false, cr := false, failed := 0, train := .all, fallback := false, paused := [], rxLevel := [], pausing := 0
    txSas := [], rxSas := [] }

/-- What an outgoing Bale message carries (10 R252 to R259, 14, 15). -/
inductive TxBody where
  /-- A REG response: request tag, and status, data and high word of each operation. -/
  | regResponse (tag : BitVec 16) (ops : List (Nat × Word × Word))
  /-- A piece of an output slot: sequence kind, context, slot index, offset, slot length, bytes, whether it is the slot's final
  piece, and whether the work is LC. -/
  | slotPiece (seq : Bool) (index : Nat) (slot : Word) (offset total : Nat) (data : Bytes) (chaff final lc : Bool)
  /-- A piece of a queue buffer: bay, pool, buffer, remote queue, offset, buffer length, stream tag, bytes. -/
  | queuePiece (bay pool buffer remote offset total tag : Nat) (data : Bytes) (chaff final lc : Bool)
  | event (lost : Bool) (records : List EventRecord)
  /-- A TELEM message: its payload header, sub-ring, the sequence of its first ring record, alarm and ring records. -/
  | telem (header : Bytes) (ring : Nat) (first : Word) (records : List Bytes)
  /-- A MGMT or ATTEST reply: operation, tag, status, body. -/
  | reply (op : Nat) (tag : BitVec 16) (status : Nat) (body : Bytes)
  deriving DecidableEq, Repr

/-- A Bale message sent and not acknowledged (10 R249). -/
structure TxMsg where
  seq : Word
  body : TxBody
  /-- It is the first message since the entry was written or reset: it carries START (10 R248). -/
  start : Bool
  retries : Nat
  sacked : Bool
  deriving DecidableEq, Repr

/-- A queue buffer being assembled from pieces (10 R257): queue, buffer of pool 7, length, ranges landed, chaff, tag. -/
structure Assembly where
  queue : Nat
  buffer : Nat
  total : Nat
  landed : List (Nat × Nat)
  chaff : Bool
  tag : Nat
  conn : Option Nat
  deriving DecidableEq, Repr

/-- A Bale peer beyond its entry words (10 R246 to R251). -/
structure Peer where
  txSeq : Word
  /-- The next message sent carries START. -/
  start : Bool
  unacked : List TxMsg
  /-- Messages that wait for room or for a session, oldest first. -/
  waiting : List TxBody
  /-- The cumulative acknowledgement: every message before it has taken effect (10 R249). -/
  rxNext : Word
  /-- Sequences beyond `rxNext` whose messages have taken effect. -/
  rxBeyond : List Word
  /-- Messages received that have not taken effect: class and sequence, in the order received (10 R249, R250). -/
  arrived : List (Nat × Word)
  /-- Effects not yet acknowledged (10 R249). -/
  unackedEffects : Nat
  down : Bool
  /-- Doublings of the retransmission timeout. -/
  backoff : Nat
  /-- Messages queued when the session closed are held for the next session (10 R251). -/
  awaitSession : Bool
  /-- The next message to the peer carries ECE. -/
  ece : Bool
  rtt : Nat
  /-- Send-rate limit in bit/s, none while it stands at line rate (10 R243). -/
  rate : Option Nat
  /-- When the limit was last cut (10 R243: at most once per 50 µs). -/
  cutAt : Option W64
  assemblies : List Assembly
  deriving DecidableEq, Repr

def Peer.fresh : Peer :=
  { txSeq := 0, start := true, unacked := [], waiting := [], rxNext := 0, rxBeyond := [], arrived := [], unackedEffects := 0
    down := false, backoff := 0, awaitSession := false, ece := false, rtt := 0, rate := none, cutAt := none, assemblies := [] }

/-- Connection states (10 R263). -/
inductive ConnState where
  | idle | rts | error
  deriving DecidableEq, Repr

/-- A request in flight on a connection (10 R260, R262). -/
inductive ConnRequest where
  /-- A remote read for a program: instance, program, crib offset, length, area, and the virtual address read. -/
  | read (inst : Nat) (prog : ProgKind) (crib length : Nat) (area va : Nat)
  | write (inst : Nat) (prog : ProgKind) (length va : Nat)
  /-- A remote read of a copy channel: the virtual address read, where in the bay's memory the bytes go, and the length. -/
  | copyRead (bay ch : Nat) (src dst : Nat) (length : Nat)
  | copyWrite (bay ch : Nat) (dst length : Nat)
  /-- An access of a copy transfer that was cancelled (09 R231) or reset (09 R235): what comes back lands nowhere; the gleaning that waits for
  it, if one does. -/
  | gleaned (bay : Nat) (serial : Option Nat) (va length : Nat) (read : Bool)
  | send (bay pool buffer : Nat)
  deriving DecidableEq, Repr

/-- An inbound request held on a translation fault (10 R261): its packet sequence number, its address, its data or length. -/
inductive RdmaHeld where
  | write (psn va : Nat) (data : Bytes)
  | read (psn va length : Nat)
  | send (psn : Nat) (data : Bytes)
  deriving DecidableEq, Repr

/-- What a request puts on the wire (10 R260, R262). -/
inductive WireRequest where
  | read (addr length : Nat)
  | write (addr : Nat) (data : Bytes)
  | send (data : Bytes)
  deriving DecidableEq, Repr

/-- A RoCEv2 connection beyond its registers (10 R260 to R263). -/
structure Conn where
  state : ConnState
  refused : Bool
  cause : Nat
  /-- An error is waiting for the packet lifetime (10 R263). -/
  failing : Option Nat
  sendPsn : Nat
  recvPsn : Nat
  requests : List (Nat × ConnRequest)
  /-- Requests that wait behind 16 outstanding READs, oldest first (10 R260). -/
  waits : List (ConnRequest × WireRequest)
  tries : Nat
  /-- The inbound request that is held on a fault, and holds those behind it (10 R261). -/
  heldReq : Option RdmaHeld
  rate : Option Nat
  cutAt : Option W64
  /-- When the latest congestion notification was sent (10 R243: at most one per 50 µs). -/
  cnpAt : Option W64
  deriving DecidableEq, Repr

def Conn.idle : Conn :=
  { state := .idle, refused := false, cause := 0, failing := none, sendPsn := 0, recvPsn := 0, requests := [], waits := [], tries := 0
    heldReq := none, rate := none, cutAt := none, cnpAt := none }

/-- What a frame that the device sends carries, and the answers of the mailbox. -/
inductive Sent where
  /-- A Bale message to a peer, or an ACK without one; whether it is a retransmission (10 R249). -/
  | bale (peer : Nat) (retx : Bool) (msg : Option TxMsg)
  /-- A reply at a source address, without sequence state (10 R246). -/
  | unboundReply (dest : NetEnd) (op : Nat) (tag : BitVec 16) (status : Nat) (body : Bytes)
  /-- Requests of a connection: a READ, a WRITE, a SEND (10 R260, R262). -/
  | rdmaRead (conn psn : Nat) (rkey : Word) (va : W64) (length : Nat)
  | rdmaWrite (conn psn : Nat) (rkey : Word) (va : W64) (data : Bytes)
  | rdmaSend (conn psn : Nat) (data : Bytes)
  /-- The requests of a connection from a packet sequence number on are sent again. -/
  | rdmaRetry (conn psn : Nat)
  | roceAck (conn psn : Nat)
  | roceNak (conn psn : Nat) (code : Nat)
  | roceReadResponse (conn psn : Nat) (data : Bytes) (chaff : Bool)
  | cnp (conn : Nat)
  | pause (priority : Nat) (on : Bool)
  | mailbox (slot : Nat) (seq status result : Nat)
  deriving DecidableEq, Repr

/-- The Bale header of a sent datagram (10 R245). -/
structure BaleHeader where
  cls : Nat
  flags : Byte
  seq : Word
  cum : Word
  sack : Word
  session : Word
  counter : Word
  length : Nat
  deriving DecidableEq, Repr

/-- What the frame of a sent packet says: where it goes, its VLAN identifier (0 untagged), its priority and DSCP (10 R240, R241), its SecTAG:
association number, packet number, SCI (10 R244), and for a connection's packet the queue pair number of the far end (10 R266). -/
structure FrameHead where
  dest : NetEnd
  qpn : Option Nat
  vlan : Nat
  priority : Nat
  dscp : Nat
  sectag : Option (Nat × W64 × W64)
  deriving DecidableEq, Repr

/-- What has left the device: a frame with its head and Bale header; MAC control frames and the mailbox have neither. -/
structure SentItem where
  what : Sent
  head : Option FrameHead
  bale : Option BaleHeader
  deriving DecidableEq, Repr

/-- A STREAM message that is held on a translation fault, its sequence, and what of it has not landed (10 R255, R257). -/
inductive HeldMsg where
  | frames (peer : Nat) (msg : Option Word) (sid : Nat) (chaff : Bool) (first : Word) (data : List Bytes)
  | piece (peer : Nat) (msg : Option Word) (queue : Nat) (chaff : Bool) (offset length tag : Nat) (data : Bytes)
  deriving DecidableEq, Repr

/-- The network side of the device. -/
structure Net where
  port : Port
  peers : AMap Peer
  conns : AMap Conn
  /-- What has left, in the order sent. -/
  sent : List SentItem
  /-- The egress queues: frames that wait, each with its priority, oldest first (10 R239, R241, R242). -/
  egress : List (Nat × Sent)
  /-- Bytes of priority 5 that left in the running 100 µs window, and what is left of the round of each weighted priority (10 R241). -/
  telemBytes : Nat
  credit : AMap Nat
  /-- The bay whose frame left last, by priority (01 R26). -/
  lastBay : AMap Nat
  heldMsgs : AMap HeldMsg
  nextHeld : Nat
  deriving DecidableEq, Repr

def Net.reset : Net := ⟨.reset, [], [], [], [], 0, [], [], [], 0⟩

end Sys2Proof.Machine
end

