-- ==== Sys2Proof/Machine/PowerTypes.lean ====
section
/-! DEFINITION. The state of Vane, of power and reset, of start-up and of the pins (13, 16, 17). -/

namespace Sys2Proof.Machine

/-- What manufacturing test fixed (12 R308): the cores that passed it (`HUB_CORE_PRESENT`), and each die's spare
(`HUB_CORE_SPARE`, four bits per die). No command changes it. -/
structure Fuses where
  present : BitVec 36
  spare : BitVec 16
  deriving DecidableEq, Repr

/-- Where the device stands between power and service (13 R331, 16 R378 to R380): no power; the power-on sequence; held there
by RESET_N; stopped for card test; held because no firmware slot is acceptable; a warm restart; held there by RESET_N; in service. -/
inductive DevicePhase where
  | unpowered | startUp | startUpHeld | cardTest | noFirmware | restart | restartHeld | service
  deriving DecidableEq, Repr

/-- An entry of Vane's alarm table (15 R356, R360): code, unit, count, first and latest time, action, acknowledged, shared (the code's
reserved entry), marked for export. -/
structure AlarmEntry where
  code : Nat
  unit : Nat
  count : Nat
  first : W64
  latest : W64
  action : Nat
  acked : Bool
  shared : Bool
  mark : Bool
  deriving DecidableEq, Repr

/-- An action that waits for the end of a restart or of the safe state (13 R318, R333): action code, alarm code, source. -/
structure DeferredAction where
  action : Nat
  code : Nat
  source : Nat
  deriving DecidableEq, Repr

/-- A cause of the safe state: its alarm code and when it cleared, if it has. -/
structure SafeCause where
  code : Nat
  cleared : Option W64
  deriving DecidableEq, Repr

/-- Vane (13 R311 to R319, 15 R360). -/
structure Vane where
  safe : Bool
  causes : List SafeCause
  leavePending : Bool
  /-- The alarm table, by table index. -/
  alarms : AMap AlarmEntry
  deferred : List DeferredAction
  /-- Actions raised by SET_ACTION, by alarm code. -/
  actions : AMap Nat
  watchRunning : BitVec 4
  watchExpired : BitVec 4
  /-- Watchdogs that expired since the latest period of 100 ms in which not every one did, with the time of each. -/
  expiredAt : AMap W64
  /-- In-box words (13 R313): slot * 16 + word. -/
  inbox : AMap Word
  /-- Live counters and sensors behind the RC registers. -/
  foreignWr : Nat
  selfRestarts : Nat
  alarmCount : Word
  /-- A reset of some kind is under way: its strength (core 1, bay 2, chip 3, RESET_N 4, power-on 5), or 0. -/
  underWay : Nat
  /-- When the latest chip restart reached its last step. -/
  lastRestart : Option W64
  /-- The slot that BAY_REAPPLY re-applied and that has not yet matched again. -/
  reapplied : Option Nat
  /-- Bays that stay in lull because they still differed after BAY_REAPPLY. -/
  stay : BitVec 16
  alarmN : Bool
  /-- The Vane microcontroller runs. -/
  running : Bool
  deriving DecidableEq, Repr

def Vane.reset : Vane :=
  { safe := false, causes := [], leavePending := false, alarms := [], deferred := [], actions := [], watchRunning := 0
    watchExpired := 0, expiredAt := [], inbox := [], foreignWr := 0, selfRestarts := 0, alarmCount := 0, underWay := 0
    lastRestart := none, reapplied := none, stay := 0, alarmN := true, running := false }

/-- The PMC (13 R320 to R327): admission, ceilings, limits, sensors. Temperatures are in °C. -/
structure Pmc where
  h : Nat
  /-- When the running control interval of 1 ms began (R322, R323). -/
  intervalAt : W64
  capCeil : Nat
  thermCeil : AMap Nat
  /-- How many consecutive 1 ms forecasts of a core stayed 3 °C below the limit. -/
  coolFor : AMap Nat
  half : Bool
  cold : Bool
  phases : BitVec 11
  /-- Islands that stretch their clock. -/
  droops : List Nat
  junction : AMap Nat
  loft : AMap Nat
  vin : Nat
  pin : Nat
  pin1s : Nat
  pinHistory : List Nat
  energy : W64
  stretch : Nat
  droopEvents : Word
  capIntervals : Word
  deriving DecidableEq, Repr

def Pmc.reset : Pmc :=
  { h := 0, intervalAt := 0, capCeil := 0, thermCeil := [], coolFor := [], half := false, cold := true, phases := 0, droops := []
    junction := [], loft := [], vin := 0, pin := 0, pin1s := 0, pinHistory := [], energy := 0, stretch := 0
    droopEvents := 0, capIntervals := 0 }

/-- IEEE 1149.1 instructions (17 R408). -/
inductive TapInstr where
  | extest | samplePreload | idcode | highz | clamp | bypass | secErase
  deriving DecidableEq, Repr

/-- The test access port: instruction, boundary latch, and what the device drives from it (17 R408). -/
structure Tap where
  instr : TapInstr
  boundary : List Bool
  captured : List Bool
  /-- What the selected data register last captured. -/
  data : Word
  deriving DecidableEq, Repr

def Tap.reset : Tap := ⟨.idcode, [], [], 0⟩

/-- A training record of flash (16 R381): the identity of what the unit was trained against, the timing values, and the CRC-32C of both. -/
structure TrainRecord where
  identity : Bytes
  values : Bytes
  crc : Word
  deriving DecidableEq, Repr

/-- Phase, pins, straps and flash-backed records of start-up. -/
structure Power where
  phase : DevicePhase
  resetN : Bool
  straps : BitVec 2
  /-- DIMM power enables DPEN0 to DPEN7 (13 R320). -/
  dpen : BitVec 8
  /-- Channels that train or clear (16 R384). -/
  training : BitVec 8
  /-- The addressing record of flash (16 R385). -/
  address : Option (List Word)
  /-- An owner-state erase is pending in flash (14 R352). -/
  erasePending : Bool
  /-- The training records of flash, by unit: lofts 0 to 3, HBM4 stacks 4 to 11, Granary channels 12 to 19 (16 R381). -/
  records : List (Option TrainRecord)
  /-- Records that a full training of a Granary channel found, and that flash does not hold yet, by unit. -/
  fresh : AMap TrainRecord
  /-- The timing values in use, by unit. -/
  timing : AMap Bytes
  /-- REFCLK is present (17 R403). -/
  refclk : Bool
  deriving DecidableEq, Repr

end Sys2Proof.Machine
end

