-- ==== Sys2Proof/Machine/RegMap.lean ====
section
/-! DEFINITION. The control space map (12 R306) and the register tables of every chapter: where each register stands, its access
code, its reset value, the bits that a write can set, and the kind of its boundary (12 R290, R293). A register of a block that a
selector indexes has one place per index. -/

namespace Sys2Proof.Machine

/-- Access codes (12 R290). -/
inductive Access where
  | rw | rs | rx | ro | rl | rc | rk | wo
  deriving DecidableEq, Repr

/-- When an accepted write applies (12 R293): at once, or staged until a natural boundary, a command, a condition, or only a
commit strobe. -/
inductive Boundary where
  | now | natural | command | condition | commit
  deriving DecidableEq, Repr

/-- Registers that are indexed by a selector register. -/
inductive Selector where
  | mtBay | mtUnit | stall | graph | set | pool | queue | lane | peer | conn | qbQueue | group | pmcCore | ring | slot
  deriving DecidableEq, Repr

/-- One row of a register table. -/
structure RegDesc where
  off : Nat
  /-- How many consecutive registers the row stands for. -/
  count : Nat
  access : Access
  reset : Word
  /-- The bits that a write can set; reserved bits read as zero (00 R10). -/
  mask : Word
  boundary : Boundary
  /-- A counter that any write clears (12 R305). -/
  clears : Bool
  selector : Option Selector
  deriving DecidableEq, Repr

/-- Base of core n's window (12 R306). -/
def coreBase (n : Nat) : Nat := 0x01000000 + n * 0x00100000
/-- The model's place for bay b's registers, which every core window of the bay shows at offset 0x8000 (04 R112). -/
def bayBase (b : Nat) : Nat := 0x06000000 + b * 0x400
/-- Bay b's copy channel c (09 "Copy channel registers"). -/
def cchBase (b c : Nat) : Nat := bayBase b + 0x300 + c * 0x40
/-- Base of a stream context's registers (12 R306). -/
def streamBase (sid : Nat) : Nat := 0x04000000 + sid * 0x100
/-- Base of a sequence context's registers. -/
def seqBase (q : Nat) : Nat := 0x05200000 + q * 0x100
/-- Base of die d's bank-side engine registers. -/
def bseBase (d : Nat) : Nat := 0x05001000 + d * 0x100
/-- Base of an audio port's registers. -/
def portBase (p : Nat) : Nat := 0x00401000 + p * 0x100
/-- Word w of a peer's entry in the peer table (10 R247). -/
def peerWord (p w : Nat) : Nat := 0x00380000 + p * 32 + w * 4
/-- The place of an indexed register: one place per index above the 32-bit control space. -/
def sel (i key : Nat) : Nat := key + (i + 1) * 2 ^ 32
/-- The 32-bit address part of a place. -/
def keyAddr (key : Nat) : Nat := key % 2 ^ 32
/-- The index part of a place, for an indexed register. -/
def keyIndex (key : Nat) : Nat := key / 2 ^ 32 - 1

namespace Reg

def CFG_ID : Nat := 0x00600000
def CFG_STATUS : Nat := 0x00600004
def CFG_CMD : Nat := 0x00600008
def CFG_ERROR : Nat := 0x0060000C
def CFG_ACTIVE : Nat := 0x00600010
def CFG_DEFINED : Nat := 0x00600014
def CFG_COMMIT_SEQ : Nat := 0x00600018
def CFG_SPARE_SUB : Nat := 0x0060001C
def CFG_STAGE_BASE_LO : Nat := 0x00600020
def CFG_STAGE_BASE_HI : Nat := 0x00600024
def CFG_SERIAL_FLOOR_LO : Nat := 0x00600028
def CFG_SERIAL_FLOOR_HI : Nat := 0x0060002C
def CFG_SERIAL_LO : Nat := 0x00600030
def CFG_SERIAL_HI : Nat := 0x00600034
def CFG_LULL_REQ : Nat := 0x00600038
def CFG_LULL_STATUS : Nat := 0x0060003C
def CFG_STORE_FREE : Nat := 0x00600040
def CFG_GUARD : Nat := 0x00600044
def CFG_EVENT_EN : Nat := 0x00600048
def CFG_EVENT_STATUS : Nat := 0x0060004C
def CFGCRC_REF : Nat := 0x00600100
def CFGCRC_LAST : Nat := 0x00600104
def CFGCRC_STATUS : Nat := 0x00600108
def CFGCRC_SWEEPS : Nat := 0x0060010C
def CFGCRC_MISMATCHES : Nat := 0x00600110
def CFGCRC_SLOT_SEL : Nat := 0x00600114
def CFGCRC_SLOT_VAL (i : Nat) : Nat := sel i 0x00600118
def TRN_ID : Nat := 0x00800000
def TRN_INV_VA_LO : Nat := 0x00800004
def TRN_INV_VA_HI : Nat := 0x00800008
def TRN_INV_LEN : Nat := 0x0080000C
def TRN_INV_CMD : Nat := 0x00800010
def TRN_INV_STATUS : Nat := 0x00800014
def TRN_INV_DONE_TAG : Nat := 0x00800018
def TRN_INV_REFUSED : Nat := 0x0080001C
def TRN_FQ_BASE_LO : Nat := 0x00800020
def TRN_FQ_BASE_HI : Nat := 0x00800024
def TRN_FQ_HEAD : Nat := 0x00800028
def TRN_FQ_TAIL : Nat := 0x0080002C
def TRN_FAULT_RESUME : Nat := 0x00800030
def TRN_WALKS : Nat := 0x00800034
def TRN_EVENT_EN : Nat := 0x00800038
def TRN_EVENT_STATUS : Nat := 0x0080003C
def TRN_FQ_COUNT : Nat := 0x00800040
def MT_ID : Nat := 0x05000000
def MT_CAPACITY_LOFT : Nat := 0x05000004
def MT_CAPACITY_SILO : Nat := 0x05000008
def MT_CAPACITY_GRANARY : Nat := 0x0500000C
def MT_SEL : Nat := 0x05000010
def MT_USED_LOFT (i : Nat) : Nat := sel i 0x05000014
def MT_USED_SILO (i : Nat) : Nat := sel i 0x05000018
def MT_USED_GRANARY (i : Nat) : Nat := sel i 0x0500001C
def MT_SPILL_HI (i : Nat) : Nat := sel i 0x05000020
def MT_SPILL_LO (i : Nat) : Nat := sel i 0x05000024
def MT_GUARD : Nat := 0x05000028
def MT_CMD : Nat := 0x0500002C
def MT_ARG0_LO : Nat := 0x05000030
def MT_ARG0_HI : Nat := 0x05000034
def MT_ARG1 : Nat := 0x05000038
def MT_CMD_STATUS : Nat := 0x0500003C
def MT_REFRESH_STATUS : Nat := 0x05000040
def MT_ERR_SEL : Nat := 0x05000044
def MT_ERR_CE (i : Nat) : Nat := sel i 0x05000048
def MT_ERR_UE (i : Nat) : Nat := sel i 0x0500004C
def MT_UE_ADDR_LO : Nat := 0x05000050
def MT_UE_ADDR_HI : Nat := 0x05000054
def MT_MIG_ABANDONED : Nat := 0x05000058
def MT_EVENT_EN : Nat := 0x0500005C
def MT_EVENT_STATUS : Nat := 0x05000060
def CORE_ID (n : Nat) : Nat := coreBase n + 0x0
def CORE_STATUS (n : Nat) : Nat := coreBase n + 0x4
def CORE_GUARD (n : Nat) : Nat := coreBase n + 0x8
def CORE_CMD (n : Nat) : Nat := coreBase n + 0xC
def CORE_STALL_SEL (n : Nat) : Nat := coreBase n + 0x10
def CORE_STALL_STATE (n i : Nat) : Nat := sel i (coreBase n + 0x14)
def CORE_STALL_SHEAF (n i : Nat) : Nat := sel i (coreBase n + 0x18)
def CORE_SAVED (n : Nat) : Nat := coreBase n + 0x1C
def CORE_CRIB_FREE (n : Nat) : Nat := coreBase n + 0x20
def CORE_CRIB_LC_RESERVE (n : Nat) : Nat := coreBase n + 0x24
def CORE_SHEAVES (n : Nat) : Nat := coreBase n + 0x28
def CORE_PREEMPTS (n : Nat) : Nat := coreBase n + 0x2C
def CORE_EVICTIONS (n : Nat) : Nat := coreBase n + 0x30
def CORE_REPLAYS (n : Nat) : Nat := coreBase n + 0x34
def CORE_ABORTS (n : Nat) : Nat := coreBase n + 0x38
def CORE_FAULT (n : Nat) : Nat := coreBase n + 0x3C
def CORE_MXE_BUSY_LO (n : Nat) : Nat := coreBase n + 0x40
def CORE_MXE_BUSY_HI (n : Nat) : Nat := coreBase n + 0x44
def CORE_CORR_ERR (n : Nat) : Nat := coreBase n + 0x48
def CORE_EVENT_EN (n : Nat) : Nat := coreBase n + 0x4C
def CORE_EVENT_STATUS (n : Nat) : Nat := coreBase n + 0x50
def DISP_STATUS (b : Nat) : Nat := bayBase b + 0x0
def DISP_READY_LC (b : Nat) : Nat := bayBase b + 0x4
def DISP_READY_BE (b : Nat) : Nat := bayBase b + 0x8
def DISP_SUBMIT_LO (b : Nat) : Nat := bayBase b + 0xC
def DISP_SUBMIT_HI (b : Nat) : Nat := bayBase b + 0x10
def DISP_SUBMIT_STATUS (b : Nat) : Nat := bayBase b + 0x14
def DISP_LATE_LC (b : Nat) : Nat := bayBase b + 0x18
def DISP_LC_WAIT_MAX (b : Nat) : Nat := bayBase b + 0x1C
def DISP_PREEMPT_FAIL (b : Nat) : Nat := bayBase b + 0x20
def ARITH_CTL (n : Nat) : Nat := coreBase n + 0x100
def ARITH_ACC_SAT (n : Nat) : Nat := coreBase n + 0x104
def ARITH_OUT_SAT (n : Nat) : Nat := coreBase n + 0x108
def ARITH_NONFINITE (n : Nat) : Nat := coreBase n + 0x10C
def ARITH_DEGENERATE_ROWS (n : Nat) : Nat := coreBase n + 0x110
def ARITH_EVENT_EN (n : Nat) : Nat := coreBase n + 0x114
def ARITH_EVENT_STATUS (n : Nat) : Nat := coreBase n + 0x118
def BSE_STATUS (d : Nat) : Nat := bseBase d + 0x0
def BSE_CMDS (d : Nat) : Nat := bseBase d + 0x4
def BSE_MAC_LO (d : Nat) : Nat := bseBase d + 0x8
def BSE_MAC_HI (d : Nat) : Nat := bseBase d + 0xC
def BSE_ACC_SAT (d : Nat) : Nat := bseBase d + 0x10
def BSE_NONFINITE (d : Nat) : Nat := bseBase d + 0x14
def BSE_CHAFF (d : Nat) : Nat := bseBase d + 0x18
def BSE_EVENT_EN (d : Nat) : Nat := bseBase d + 0x1C
def BSE_EVENT_STATUS (d : Nat) : Nat := bseBase d + 0x20
def SC_CTRL (sid : Nat) : Nat := streamBase sid + 0x0
def SC_STATUS (sid : Nat) : Nat := streamBase sid + 0x4
def SC_CMD (sid : Nat) : Nat := streamBase sid + 0x8
def SC_FRAME (sid : Nat) : Nat := streamBase sid + 0xC
def SC_CHUNK (sid : Nat) : Nat := streamBase sid + 0x10
def SC_DEADLINE (sid : Nat) : Nat := streamBase sid + 0x14
def SC_STATE_PTR_LO (sid : Nat) : Nat := streamBase sid + 0x18
def SC_STATE_PTR_HI (sid : Nat) : Nat := streamBase sid + 0x1C
def SC_STATE_LEN (sid : Nat) : Nat := streamBase sid + 0x20
def SC_STATE_GEN (sid : Nat) : Nat := streamBase sid + 0x24
def SC_IN_BASE_LO (sid : Nat) : Nat := streamBase sid + 0x28
def SC_IN_BASE_HI (sid : Nat) : Nat := streamBase sid + 0x2C
def SC_IN_CAP (sid : Nat) : Nat := streamBase sid + 0x30
def SC_IN_HEAD (sid : Nat) : Nat := streamBase sid + 0x34
def SC_IN_TAIL (sid : Nat) : Nat := streamBase sid + 0x38
def SC_START_FRAME (sid : Nat) : Nat := streamBase sid + 0x3C
def SC_OUT_BASE_LO (sid : Nat) : Nat := streamBase sid + 0x40
def SC_OUT_BASE_HI (sid : Nat) : Nat := streamBase sid + 0x44
def SC_OUT_CFG (sid : Nat) : Nat := streamBase sid + 0x48
def SC_OUT_HEAD (sid : Nat) : Nat := streamBase sid + 0x4C
def SC_OUT_TAIL (sid : Nat) : Nat := streamBase sid + 0x50
def SC_PEER (sid : Nat) : Nat := streamBase sid + 0x54
def SC_SET (sid : Nat) : Nat := streamBase sid + 0x58
def SC_RESET_FRAME (sid : Nat) : Nat := streamBase sid + 0x5C
def SC_CHUNK_SEQ (sid : Nat) : Nat := streamBase sid + 0x60
def SC_DELAY_BOUND (sid : Nat) : Nat := streamBase sid + 0x64
def SC_READY_LO (sid : Nat) : Nat := streamBase sid + 0x68
def SC_READY_HI (sid : Nat) : Nat := streamBase sid + 0x6C
def SC_SVC_LAST (sid : Nat) : Nat := streamBase sid + 0x70
def SC_SVC_MAX (sid : Nat) : Nat := streamBase sid + 0x74
def SC_CHUNKS (sid : Nat) : Nat := streamBase sid + 0x78
def SC_MISSES (sid : Nat) : Nat := streamBase sid + 0x7C
def SC_DROPPED (sid : Nat) : Nat := streamBase sid + 0x80
def SC_IN_OVERRUN (sid : Nat) : Nat := streamBase sid + 0x84
def SC_LATE_DISCARD (sid : Nat) : Nat := streamBase sid + 0x88
def SC_GAPS (sid : Nat) : Nat := streamBase sid + 0x8C
def SC_ABSENT_WAITS (sid : Nat) : Nat := streamBase sid + 0x90
def SC_ABSENT_MAX (sid : Nat) : Nat := streamBase sid + 0x94
def SC_EVENT_EN (sid : Nat) : Nat := streamBase sid + 0x98
def SC_EVENT_STATUS (sid : Nat) : Nat := streamBase sid + 0x9C
def BAT_AREA_LO (b : Nat) : Nat := bayBase b + 0x100
def BAT_AREA_HI (b : Nat) : Nat := bayBase b + 0x104
def BAT_SLOTS_FREE (b : Nat) : Nat := bayBase b + 0x108
def BAT_GSEL (b : Nat) : Nat := bayBase b + 0x10C
def BAT_WINDOW (b i : Nat) : Nat := sel i (bayBase b + 0x110)
def BAT_SHAPE (b i : Nat) : Nat := sel i (bayBase b + 0x114)
def BAT_STREAMS (b i : Nat) : Nat := sel i (bayBase b + 0x118)
def BAT_OPEN_ROWS (b i : Nat) : Nat := sel i (bayBase b + 0x11C)
def BAT_BATCHES (b i : Nat) : Nat := sel i (bayBase b + 0x120)
def BAT_MISSES (b i : Nat) : Nat := sel i (bayBase b + 0x124)
def BAT_SVC_MAX (b i : Nat) : Nat := sel i (bayBase b + 0x128)
def BAT_ASEL (b : Nat) : Nat := bayBase b + 0x12C
def BAT_ALIGN_CFG (b i : Nat) : Nat := sel i (bayBase b + 0x130)
def BAT_ALIGN_SEQ (b : Nat) : Nat := bayBase b + 0x134
def BAT_ALIGN_CMD (b i : Nat) : Nat := sel i (bayBase b + 0x138)
def BAT_ALIGN_STATUS (b i : Nat) : Nat := sel i (bayBase b + 0x13C)
def BAT_ALIGN_NEXT (b i : Nat) : Nat := sel i (bayBase b + 0x140)
def BAT_ALIGN_SILENCE (b i : Nat) : Nat := sel i (bayBase b + 0x144)
def BAT_EVENT_EN (b : Nat) : Nat := bayBase b + 0x148
def BAT_EVENT_STATUS (b : Nat) : Nat := bayBase b + 0x14C
def SC_SCAN_CTRL (sid : Nat) : Nat := streamBase sid + 0xC0
def SC_DRIFT_SAT (sid : Nat) : Nat := streamBase sid + 0xC4
def SC_DRIFT_OVER (sid : Nat) : Nat := streamBase sid + 0xC8
def SC_DRIFT_LAST (sid : Nat) : Nat := streamBase sid + 0xCC
def SC_DRIFT_CHUNKS (sid : Nat) : Nat := streamBase sid + 0xD0
def SC_STEPS (sid : Nat) : Nat := streamBase sid + 0xD4
def SC_STATE_MISMATCH (sid : Nat) : Nat := streamBase sid + 0xD8
def SC_SCAN_EVENT (sid : Nat) : Nat := streamBase sid + 0xDC
def SCE_STATUS (n : Nat) : Nat := coreBase n + 0x140
def SCE_LANE_OPS_LO (n : Nat) : Nat := coreBase n + 0x144
def SCE_LANE_OPS_HI (n : Nat) : Nat := coreBase n + 0x148
def SCE_STATE_BYTES_LO (n : Nat) : Nat := coreBase n + 0x14C
def SCE_STATE_BYTES_HI (n : Nat) : Nat := coreBase n + 0x150
def SCE_SAT (n : Nat) : Nat := coreBase n + 0x154
def SCE_MISMATCH (n : Nat) : Nat := coreBase n + 0x158
def SCE_CHAFF_ROWS (n : Nat) : Nat := coreBase n + 0x15C
def SCE_EVENT_EN (n : Nat) : Nat := coreBase n + 0x160
def SCE_EVENT_STATUS (n : Nat) : Nat := coreBase n + 0x164
def SQ_CTRL (q : Nat) : Nat := seqBase q + 0x0
def SQ_STATUS (q : Nat) : Nat := seqBase q + 0x4
def SQ_CMD (q : Nat) : Nat := seqBase q + 0x8
def SQ_SHAPE (q : Nat) : Nat := seqBase q + 0xC
def SQ_WINDOW (q : Nat) : Nat := seqBase q + 0x10
def SQ_DEADLINE (q : Nat) : Nat := seqBase q + 0x14
def SQ_KV_BASE_LO (q : Nat) : Nat := seqBase q + 0x18
def SQ_KV_BASE_HI (q : Nat) : Nat := seqBase q + 0x1C
def SQ_LAYER_STRIDE (q : Nat) : Nat := seqBase q + 0x20
def SQ_START_POS (q : Nat) : Nat := seqBase q + 0x24
def SQ_POS_LIMIT (q : Nat) : Nat := seqBase q + 0x28
def SQ_POS (q : Nat) : Nat := seqBase q + 0x2C
def SQ_GLOBAL_LO (q : Nat) : Nat := seqBase q + 0x30
def SQ_GLOBAL_HI (q : Nat) : Nat := seqBase q + 0x34
def SQ_GLOBAL_COUNT (q : Nat) : Nat := seqBase q + 0x38
def SQ_SEED (q : Nat) : Nat := seqBase q + 0x3C
def SQ_OUT_BASE_LO (q : Nat) : Nat := seqBase q + 0x40
def SQ_OUT_BASE_HI (q : Nat) : Nat := seqBase q + 0x44
def SQ_OUT_CFG (q : Nat) : Nat := seqBase q + 0x48
def SQ_OUT_HEAD (q : Nat) : Nat := seqBase q + 0x4C
def SQ_OUT_TAIL (q : Nat) : Nat := seqBase q + 0x50
def SQ_PEER (q : Nat) : Nat := seqBase q + 0x54
def SQ_TAP_BASE_LO (q : Nat) : Nat := seqBase q + 0x58
def SQ_TAP_BASE_HI (q : Nat) : Nat := seqBase q + 0x5C
def SQ_TAP_CFG (q : Nat) : Nat := seqBase q + 0x60
def SQ_TAP_SEL (q : Nat) : Nat := seqBase q + 0x64
def SQ_TAP_HEAD (q : Nat) : Nat := seqBase q + 0x68
def SQ_TAP_TAIL (q : Nat) : Nat := seqBase q + 0x6C
def SQ_DELAY_BOUND (q : Nat) : Nat := seqBase q + 0x70
def SQ_READY_LO (q : Nat) : Nat := seqBase q + 0x74
def SQ_READY_HI (q : Nat) : Nat := seqBase q + 0x78
def SQ_SVC_MAX (q : Nat) : Nat := seqBase q + 0x7C
def SQ_STEPS (q : Nat) : Nat := seqBase q + 0x80
def SQ_MISSES (q : Nat) : Nat := seqBase q + 0x84
def SQ_DROPPED (q : Nat) : Nat := seqBase q + 0x88
def SQ_ABSENT_WAITS (q : Nat) : Nat := seqBase q + 0x8C
def SQ_SHAPE_FAULTS (q : Nat) : Nat := seqBase q + 0x90
def SQ_FC (q : Nat) : Nat := seqBase q + 0x94
def SQ_FC_MISSES (q : Nat) : Nat := seqBase q + 0x98
def SQ_TAP_DROPPED (q : Nat) : Nat := seqBase q + 0x9C
def SQ_EVENT_EN (q : Nat) : Nat := seqBase q + 0xA0
def SQ_EVENT_STATUS (q : Nat) : Nat := seqBase q + 0xA4
def ATT_ID : Nat := 0x05002000
def ATT_FC_CFG : Nat := 0x05002004
def ATT_QUEUE : Nat := 0x05002008
def ATT_SHARES_BSE : Nat := 0x0500200C
def ATT_SHARES_MXE : Nat := 0x05002010
def ATT_FC_MISSES : Nat := 0x05002014
def ATT_FC_MIGRATES : Nat := 0x05002018
def ATT_SHAPE_FAULTS : Nat := 0x0500201C
def ATT_TAP_DROPPED : Nat := 0x05002020
def ATT_EVENT_EN : Nat := 0x05002024
def ATT_EVENT_STATUS : Nat := 0x05002028
def FXE_STATUS (n : Nat) : Nat := coreBase n + 0x180
def FXE_ELEMENTS_LO (n : Nat) : Nat := coreBase n + 0x184
def FXE_ELEMENTS_HI (n : Nat) : Nat := coreBase n + 0x188
def FXE_BYTES_LO (n : Nat) : Nat := coreBase n + 0x18C
def FXE_BYTES_HI (n : Nat) : Nat := coreBase n + 0x190
def FXE_RING_TILES (n : Nat) : Nat := coreBase n + 0x194
def FXE_RING_MISSES (n : Nat) : Nat := coreBase n + 0x198
def FXE_CHAFF_IN (n : Nat) : Nat := coreBase n + 0x19C
def FXE_CHAFF_OUT (n : Nat) : Nat := coreBase n + 0x1A0
def FXE_NEXT_WASTE (n : Nat) : Nat := coreBase n + 0x1A4
def FXE_EVENT_EN (n : Nat) : Nat := coreBase n + 0x1A8
def FXE_EVENT_STATUS (n : Nat) : Nat := coreBase n + 0x1AC
def SW_GUARD (b : Nat) : Nat := bayBase b + 0x200
def SW_POOL_SEL (b : Nat) : Nat := bayBase b + 0x204
def SW_POOL_BASE_LO (b i : Nat) : Nat := sel i (bayBase b + 0x208)
def SW_POOL_BASE_HI (b i : Nat) : Nat := sel i (bayBase b + 0x20C)
def SW_POOL_CFG (b i : Nat) : Nat := sel i (bayBase b + 0x210)
def SW_POOL_FREE (b i : Nat) : Nat := sel i (bayBase b + 0x214)
def SW_POOL_WAITS (b i : Nat) : Nat := sel i (bayBase b + 0x218)
def SW_POOL_DOUBLE (b i : Nat) : Nat := sel i (bayBase b + 0x21C)
def SW_Q_SEL (b : Nat) : Nat := bayBase b + 0x220
def SW_Q_STATUS (b i : Nat) : Nat := sel i (bayBase b + 0x224)
def SW_Q_HIGH (b i : Nat) : Nat := sel i (bayBase b + 0x228)
def SW_Q_PUSHES (b i : Nat) : Nat := sel i (bayBase b + 0x22C)
def SW_Q_CMD (b i : Nat) : Nat := sel i (bayBase b + 0x230)
def SW_RING_CFG (b : Nat) : Nat := bayBase b + 0x234
def SW_RING_ROUNDS (b : Nat) : Nat := bayBase b + 0x238
def SW_WSET_BASE_LO (b : Nat) : Nat := bayBase b + 0x23C
def SW_WSET_BASE_HI (b : Nat) : Nat := bayBase b + 0x240
def SW_CANCEL_SEQ (b : Nat) : Nat := bayBase b + 0x244
def SW_CANCEL_CMD (b : Nat) : Nat := bayBase b + 0x248
def SW_CANCEL_STATUS (b : Nat) : Nat := bayBase b + 0x24C
def SW_GLEAN_LO (b : Nat) : Nat := bayBase b + 0x250
def SW_GLEAN_HI (b : Nat) : Nat := bayBase b + 0x254
def SW_GLEANS (b : Nat) : Nat := bayBase b + 0x258
def SW_EVENT_EN (b : Nat) : Nat := bayBase b + 0x25C
def SW_EVENT_STATUS (b : Nat) : Nat := bayBase b + 0x260
def CCH_SRC_LO (b c : Nat) : Nat := cchBase b c + 0x0
def CCH_SRC_HI (b c : Nat) : Nat := cchBase b c + 0x4
def CCH_DST_LO (b c : Nat) : Nat := cchBase b c + 0x8
def CCH_DST_HI (b c : Nat) : Nat := cchBase b c + 0xC
def CCH_LEN (b c : Nat) : Nat := cchBase b c + 0x10
def CCH_CTRL (b c : Nat) : Nat := cchBase b c + 0x14
def CCH_CMD (b c : Nat) : Nat := cchBase b c + 0x18
def CCH_STATUS (b c : Nat) : Nat := cchBase b c + 0x1C
def CCH_PROGRESS (b c : Nat) : Nat := cchBase b c + 0x20
def CCH_COMPLETIONS (b c : Nat) : Nat := cchBase b c + 0x24
def CCH_LOST_REARM (b c : Nat) : Nat := cchBase b c + 0x28
def EB_ID : Nat := 0x00300000
def EB_PORT_STATUS : Nat := 0x00300004
def EB_PORT_CTRL : Nat := 0x00300008
def EB_GUARD : Nat := 0x0030000C
def EB_CMD : Nat := 0x00300010
def EB_MAC_LO : Nat := 0x00300014
def EB_MAC_HI : Nat := 0x00300018
def EB_IP4 : Nat := 0x0030001C
def EB_IP6_OF (i : Nat) : Nat := 0x00300020 + 4 * i
def EB_VLAN : Nat := 0x00300030
def EB_BALE_PORT : Nat := 0x00300034
def EB_BALE_MAX : Nat := 0x00300038
def EB_RTO : Nat := 0x0030003C
def EB_PROBE : Nat := 0x00300040
def EB_PKT_LIFE : Nat := 0x00300044
def EB_EVENT_PEER : Nat := 0x00300048
def EB_TELEM_PEER : Nat := 0x0030004C
def EB_TX_DSCP_LO : Nat := 0x00300050
def EB_TX_DSCP_HI : Nat := 0x00300054
def EB_PFC : Nat := 0x00300058
def EB_WEIGHT : Nat := 0x0030005C
def EB_ECN_CFG : Nat := 0x00300060
def EB_MACSEC_CTRL : Nat := 0x00300064
def EB_MACSEC_WINDOW : Nat := 0x00300068
def EB_FEC_CORR_LO : Nat := 0x00300080
def EB_FEC_CORR_HI : Nat := 0x00300084
def EB_FEC_UNCORR : Nat := 0x00300088
def EB_LANE_SEL : Nat := 0x0030008C
def EB_LANE_SYM_ERR (i : Nat) : Nat := sel i 0x00300090
def EB_DEGRADES : Nat := 0x00300094
def EB_RX_FRAMES_LO : Nat := 0x00300098
def EB_RX_FRAMES_HI : Nat := 0x0030009C
def EB_TX_FRAMES_LO : Nat := 0x003000A0
def EB_TX_FRAMES_HI : Nat := 0x003000A4
def EB_RX_DROP : Nat := 0x003000A8
def EB_MACSEC_DROP : Nat := 0x003000AC
def EB_PFC_PAUSE_RX : Nat := 0x003000B0
def EB_PFC_PAUSE_TX : Nat := 0x003000B4
def EB_CNP_RX : Nat := 0x003000B8
def EB_CNP_TX : Nat := 0x003000BC
def EB_RETX : Nat := 0x003000C0
def EB_RX_UNBOUND : Nat := 0x003000C4
def EB_RX_REFUSED : Nat := 0x003000C8
def EB_RX_NOBUF : Nat := 0x003000CC
def EB_EVENT_LOST : Nat := 0x003000D0
def EB_PEER_DISCARD : Nat := 0x003000D4
def EB_TX_DROP : Nat := 0x003000D8
def EB_EVENT_EN : Nat := 0x003000DC
def EB_EVENT_STATUS : Nat := 0x003000E0
def EB_PEER_SEL : Nat := 0x00300100
def EB_PEER_STATE (i : Nat) : Nat := sel i 0x00300104
def EB_PEER_TX_SEQ (i : Nat) : Nat := sel i 0x00300108
def EB_PEER_RX_NEXT (i : Nat) : Nat := sel i 0x0030010C
def EB_PEER_RTT (i : Nat) : Nat := sel i 0x00300110
def EB_CONN_SEL : Nat := 0x00300200
def EB_CONN_CTRL (i : Nat) : Nat := sel i 0x00300204
def EB_CONN_RQPN (i : Nat) : Nat := sel i 0x00300208
def EB_CONN_SPSN (i : Nat) : Nat := sel i 0x0030020C
def EB_CONN_RPSN (i : Nat) : Nat := sel i 0x00300210
def EB_CONN_RKEY_IN (i : Nat) : Nat := sel i 0x00300214
def EB_CONN_RKEY_OUT (i : Nat) : Nat := sel i 0x00300218
def EB_CONN_EXP_LO (i : Nat) : Nat := sel i 0x0030021C
def EB_CONN_EXP_HI (i : Nat) : Nat := sel i 0x00300220
def EB_CONN_EXP_LEN (i : Nat) : Nat := sel i 0x00300224
def EB_CONN_CMD (i : Nat) : Nat := sel i 0x00300228
def EB_CONN_STATE (i : Nat) : Nat := sel i 0x0030022C
def EB_CONN_RETRIES (i : Nat) : Nat := sel i 0x00300230
def EB_QB_SEL : Nat := 0x00300300
def EB_QB (i : Nat) : Nat := sel i 0x00300304
def EB_QB_CONN (i : Nat) : Nat := sel i 0x00300308
def AP_ID : Nat := 0x00400000
def AP_GUARD : Nat := 0x00400004
def AP_PLL_CTRL : Nat := 0x00400008
def AP_PLL_STATUS : Nat := 0x0040000C
def AP_GSEL : Nat := 0x00400010
def AP_GROUP_CTRL (i : Nat) : Nat := sel i 0x00400014
def AP_GROUP_CMD (i : Nat) : Nat := sel i 0x00400018
def AP_GROUP_STATUS (i : Nat) : Nat := sel i 0x0040001C
def AP_GROUP_FRAMES_LO (i : Nat) : Nat := sel i 0x00400020
def AP_GROUP_FRAMES_HI (i : Nat) : Nat := sel i 0x00400024
def AP_ASTART : Nat := 0x00400028
def AP_EVENT_EN : Nat := 0x0040002C
def AP_EVENT_STATUS : Nat := 0x00400030
def AP_CTRL (p : Nat) : Nat := portBase p + 0x0
def AP_FMT (p : Nat) : Nat := portBase p + 0x4
def AP_DIV_INT (p : Nat) : Nat := portBase p + 0x8
def AP_DIV_FRAC (p : Nat) : Nat := portBase p + 0xC
def AP_SLOTS (p : Nat) : Nat := portBase p + 0x10
def AP_CMD (p : Nat) : Nat := portBase p + 0x14
def AP_STATUS (p : Nat) : Nat := portBase p + 0x18
def AP_LEAD (p : Nat) : Nat := portBase p + 0x1C
def AP_PERIOD_BASE (p : Nat) : Nat := portBase p + 0x20
def AP_PERIOD_SEQ (p : Nat) : Nat := portBase p + 0x24
def AP_MEAS_CFG (p : Nat) : Nat := portBase p + 0x28
def AP_RATE (p : Nat) : Nat := portBase p + 0x2C
def AP_PDM_DELAY (p : Nat) : Nat := portBase p + 0x30
def AP_SLIP (p : Nat) : Nat := portBase p + 0x34
def AP_PORTD_CTRL (p : Nat) : Nat := portBase p + 0x38
def AP_PORTD_BASE_LO (p : Nat) : Nat := portBase p + 0x3C
def AP_PORTD_BASE_HI (p : Nat) : Nat := portBase p + 0x40
def AP_PORTD_TARGET (p : Nat) : Nat := portBase p + 0x44
def AP_PORTD_RUN (p : Nat) : Nat := portBase p + 0x48
def AP_PORTD_CMD (p : Nat) : Nat := portBase p + 0x4C
def AP_PORTD_STATUS (p : Nat) : Nat := portBase p + 0x50
def AP_PORTD_LOST_REARM (p : Nat) : Nat := portBase p + 0x54
def AP_RING_HEAD (p : Nat) : Nat := portBase p + 0x58
def AP_MARK_BASE_LO (p : Nat) : Nat := portBase p + 0x5C
def AP_MARK_BASE_HI (p : Nat) : Nat := portBase p + 0x60
def AP_MARK_CFG (p : Nat) : Nat := portBase p + 0x64
def AP_MARK_HEAD (p : Nat) : Nat := portBase p + 0x68
def AP_MARK_TAIL (p : Nat) : Nat := portBase p + 0x6C
def AP_MARK_LOST (p : Nat) : Nat := portBase p + 0x70
def AP_GAP_PERIODS (p : Nat) : Nat := portBase p + 0x74
def AP_DISCARD (p : Nat) : Nat := portBase p + 0x78
def AP_FRAME_ERR (p : Nat) : Nat := portBase p + 0x7C
def AP_CHAFF_MUTED (p : Nat) : Nat := portBase p + 0x80
def AP_FRAMES_LO (p : Nat) : Nat := portBase p + 0x84
def AP_FRAMES_HI (p : Nat) : Nat := portBase p + 0x88
def AP_PORT_EVENT_EN (p : Nat) : Nat := portBase p + 0x8C
def AP_PORT_EVENT_STATUS (p : Nat) : Nat := portBase p + 0x90
def HUB_ID : Nat := 0x00000000
def HUB_VERSION : Nat := 0x00000004
def HUB_SERIAL_LO : Nat := 0x00000008
def HUB_SERIAL_HI : Nat := 0x0000000C
def HUB_BOOTSEL : Nat := 0x00000010
def HUB_CORE_PRESENT_LO : Nat := 0x00000014
def HUB_CORE_PRESENT_HI : Nat := 0x00000018
def HUB_CORE_SPARE : Nat := 0x0000001C
def HUB_LIC_LO : Nat := 0x00000020
def HUB_LIC_HI : Nat := 0x00000024
def HUB_GUARD : Nat := 0x00000028
def HUB_COMMIT : Nat := 0x0000002C
def HUB_COMMIT_STATUS : Nat := 0x00000030
def HUB_EVENT_HOLDOFF : Nat := 0x00000034
def HUB_EVENT_RATE : Nat := 0x00000038
def HUB_GUARD_REFUSED : Nat := 0x0000003C
def HUB_BAD_ADDR : Nat := 0x00000040
def HUB_BAD_ADDR_LAST : Nat := 0x00000044
def HUB_EVENT_EN : Nat := 0x00000048
def HUB_EVENT_STATUS : Nat := 0x0000004C
def HUB_SCRATCH_OF (i : Nat) : Nat := 0x00000050 + 4 * i
def HUB_TAG_SEQ : Nat := 0x00000060
def HUB_TAG_OF (i : Nat) : Nat := 0x00001000 + 4 * i
def VANE_ID : Nat := 0x00100000
def VANE_STATUS : Nat := 0x00100004
def VANE_RESET_CAUSE : Nat := 0x00100008
def VANE_RESETS : Nat := 0x0010000C
def VANE_FOREIGN_WR : Nat := 0x00100010
def VANE_SELF_RESTARTS : Nat := 0x00100014
def VANE_LAST_ALARM : Nat := 0x00100018
def VANE_ALARMS : Nat := 0x0010001C
def VANE_WDOG : Nat := 0x00100020
def VANE_TRIP_JUNCTION : Nat := 0x00100024
def VANE_TRIP_LOFT : Nat := 0x00100028
def VANE_TRIP_VIN_LO : Nat := 0x0010002C
def VANE_TRIP_VIN_HI : Nat := 0x00100030
def VANE_LIMIT_JUNCTION : Nat := 0x00100034
def VANE_LIMIT_LOFT : Nat := 0x00100038
def VANE_T_JMAX : Nat := 0x00100040
def VANE_T_LOFTMAX : Nat := 0x00100044
def VANE_VIN : Nat := 0x00100048
def VANE_MBOX_RESP_OF (i : Nat) : Nat := 0x00100100 + 4 * i
def PMC_ID : Nat := 0x00200000
def PMC_GUARD : Nat := 0x00200004
def PMC_CAP : Nat := 0x00200008
def PMC_PSTATE_CEIL : Nat := 0x0020000C
def PMC_STATUS : Nat := 0x00200010
def PMC_PIN : Nat := 0x00200014
def PMC_PIN_1S : Nat := 0x00200018
def PMC_VIN : Nat := 0x0020001C
def PMC_ENERGY_LO : Nat := 0x00200020
def PMC_ENERGY_HI : Nat := 0x00200024
def PMC_CORE_SEL : Nat := 0x00200028
def PMC_CORE_POINT (i : Nat) : Nat := sel i 0x0020002C
def PMC_CORE_TEMP (i : Nat) : Nat := sel i 0x00200030
def PMC_LOFT_TEMP : Nat := 0x00200034
def PMC_STRETCH : Nat := 0x00200038
def PMC_DROOP_EVENTS : Nat := 0x0020003C
def PMC_CAP_INTERVALS : Nat := 0x00200040
def PMC_PHASES : Nat := 0x00200044
def PMC_EVENT_EN : Nat := 0x00200048
def PMC_EVENT_STATUS : Nat := 0x0020004C
def SEC_ID : Nat := 0x00700000
def SEC_STATUS : Nat := 0x00700004
def SEC_FW_VERSION : Nat := 0x00700008
def SEC_FW_FLOOR : Nat := 0x0070000C
def SEC_ERASES : Nat := 0x00700010
def SEC_CERT_FLOOR_LO : Nat := 0x00700014
def SEC_CERT_FLOOR_HI : Nat := 0x00700018
def SEC_SESSIONS : Nat := 0x0070001C
def SEC_OPEN_FAIL : Nat := 0x00700020
def SEC_ROLE_REFUSED : Nat := 0x00700024
def SEC_ATTESTS : Nat := 0x00700028
def SEC_ATTEST_DROP : Nat := 0x0070002C
def SEC_GLITCHES : Nat := 0x00700030
def SEC_ATTEST_RATE : Nat := 0x00700034
def SEC_GUARD : Nat := 0x00700038
def SEC_SESSION_IDLE : Nat := 0x0070003C
def SEC_EVENT_EN : Nat := 0x00700040
def SEC_EVENT_STATUS : Nat := 0x00700044
def SEC_ID_DIGEST_OF (i : Nat) : Nat := 0x00700100 + 4 * i
def TEL_ID : Nat := 0x00500000
def TEL_STATUS : Nat := 0x00500004
def TEL_GUARD : Nat := 0x00500008
def TEL_CTRL : Nat := 0x0050000C
def TEL_TRACE_EN : Nat := 0x00500010
def TEL_TRACE_CODES : Nat := 0x00500014
def TEL_SQUALL_CFG : Nat := 0x00500018
def TEL_RING_SEL : Nat := 0x0050001C
def TEL_RING_BASE_LO (i : Nat) : Nat := sel i 0x00500020
def TEL_RING_BASE_HI (i : Nat) : Nat := sel i 0x00500024
def TEL_RING_SIZE (i : Nat) : Nat := sel i 0x00500028
def TEL_RING_FILL (i : Nat) : Nat := sel i 0x0050002C
def TEL_SEQ (i : Nat) : Nat := sel i 0x00500030
def TEL_ACKED (i : Nat) : Nat := sel i 0x00500034
def TEL_SAMPLED_OUT (i : Nat) : Nat := sel i 0x00500038
def TEL_DROPPED (i : Nat) : Nat := sel i 0x0050003C
def TEL_COALESCED (i : Nat) : Nat := sel i 0x00500040
def TEL_SQUALLS (i : Nat) : Nat := sel i 0x00500044
def TEL_ALARM_USED : Nat := 0x00500048
def TEL_ALARM_SHARED : Nat := 0x0050004C
def TEL_EVENT_EN : Nat := 0x00500050
def TEL_EVENT_STATUS : Nat := 0x00500054
def REP_STATUS : Nat := 0x00500100
def REP_DPEN : Nat := 0x00500104
def REP_SILO_FENCED : Nat := 0x00500108
def REP_CP_ROLES : Nat := 0x0050010C
def REP_HANDOVERS : Nat := 0x00500110
def REP_RETIRED : Nat := 0x00500114
def REP_POLICY : Nat := 0x00500118

end Reg

/-- Hub global registers (12). -/
def hubRegs : List RegDesc :=
 [
  ⟨0x0, 1, .ro, 0x41600C44, 0x00000000, .now, false, none⟩,
  ⟨0x4, 1, .ro, 0x00000000, 0x00000000, .now, false, none⟩,
  ⟨0x8, 1, .ro, 0x00000000, 0x00000000, .now, false, none⟩,
  ⟨0xC, 1, .ro, 0x00000000, 0x00000000, .now, false, none⟩,
  ⟨0x10, 1, .ro, 0x00000000, 0x00000000, .now, false, none⟩,
  ⟨0x14, 1, .ro, 0x00000000, 0x00000000, .now, false, none⟩,
  ⟨0x18, 1, .ro, 0x00000000, 0x00000000, .now, false, none⟩,
  ⟨0x1C, 1, .ro, 0x00000000, 0x00000000, .now, false, none⟩,
  ⟨0x20, 1, .ro, 0x00000000, 0x00000000, .now, false, none⟩,
  ⟨0x24, 1, .ro, 0x00000000, 0x00000000, .now, false, none⟩,
  ⟨0x28, 1, .wo, 0x00000000, 0x00000000, .now, false, none⟩,
  ⟨0x2C, 1, .rk, 0x00000000, 0x00000FFF, .now, false, none⟩,
  ⟨0x30, 1, .rl, 0x00000000, 0x00000000, .now, false, none⟩,
  ⟨0x34, 1, .rx, 0x00000032, 0x0000FFFF, .commit, false, none⟩,
  ⟨0x38, 1, .rx, 0x00000100, 0x000007FF, .commit, false, none⟩,
  ⟨0x3C, 1, .rw, 0x00000000, 0x0000FFFF, .now, true, none⟩,
  ⟨0x40, 1, .rw, 0x00000000, 0x0000FFFF, .now, true, none⟩,
  ⟨0x44, 1, .ro, 0x00000000, 0x00000000, .now, false, none⟩,
  ⟨0x48, 1, .rw, 0x00000000, 0x00000007, .now, false, none⟩,
  ⟨0x4C, 1, .rl, 0x00000000, 0x00000000, .now, false, none⟩,
  ⟨0x50, 4, .rw, 0x00000000, 0xFFFFFFFF, .now, false, none⟩,
  ⟨0x60, 1, .ro, 0x00000000, 0x00000000, .now, false, none⟩,
  ⟨0x1000, 1024, .ro, 0x00000000, 0x00000000, .now, false, none⟩]

/-- Vane registers (13). -/
def vaneRegs : List RegDesc :=
 [
  ⟨0x0, 1, .ro, 0x41601301, 0x00000000, .now, false, none⟩,
  ⟨0x4, 1, .rl, 0x00000002, 0x00000000, .now, false, none⟩,
  ⟨0x8, 1, .ro, 0x00000001, 0x00000000, .now, false, none⟩,
  ⟨0xC, 1, .ro, 0x00000000, 0x00000000, .now, false, none⟩,
  ⟨0x10, 1, .rc, 0x00000000, 0x00000000, .now, false, none⟩,
  ⟨0x14, 1, .rc, 0x00000000, 0x00000000, .now, false, none⟩,
  ⟨0x18, 1, .ro, 0x00000000, 0x00000000, .now, false, none⟩,
  ⟨0x1C, 1, .rc, 0x00000000, 0x00000000, .now, false, none⟩,
  ⟨0x20, 1, .rl, 0x00000000, 0x00000000, .now, false, none⟩,
  ⟨0x24, 1, .ro, 0x00000073, 0x00000000, .now, false, none⟩,
  ⟨0x28, 1, .ro, 0x00000069, 0x00000000, .now, false, none⟩,
  ⟨0x2C, 1, .ro, 0x00009088, 0x00000000, .now, false, none⟩,
  ⟨0x30, 1, .ro, 0x0000CB20, 0x00000000, .now, false, none⟩,
  ⟨0x34, 1, .ro, 0x00000069, 0x00000000, .now, false, none⟩,
  ⟨0x38, 1, .ro, 0x0000005F, 0x00000000, .now, false, none⟩,
  ⟨0x40, 1, .rc, 0x00000000, 0x00000000, .now, false, none⟩,
  ⟨0x44, 1, .rc, 0x00000000, 0x00000000, .now, false, none⟩,
  ⟨0x48, 1, .rc, 0x00000000, 0x00000000, .now, false, none⟩,
  ⟨0x100, 5, .ro, 0x00000000, 0x00000000, .now, false, none⟩,
  ⟨0x8000, 80, .rw, 0x00000000, 0xFFFFFFFF, .now, false, none⟩]

/-- PMC registers (13). -/
def pmcRegs : List RegDesc :=
 [
  ⟨0x0, 1, .ro, 0x41601302, 0x00000000, .now, false, none⟩,
  ⟨0x4, 1, .wo, 0x00000000, 0x00000000, .now, false, none⟩,
  ⟨0x8, 1, .rk, 0x000006D6, 0x000007FF, .natural, false, none⟩,
  ⟨0xC, 1, .rs, 0x00000000, 0x00000007, .natural, false, none⟩,
  ⟨0x10, 1, .rl, 0x00000010, 0x00000000, .now, false, none⟩,
  ⟨0x14, 1, .rc, 0x00000000, 0x00000000, .now, false, none⟩,
  ⟨0x18, 1, .rc, 0x00000000, 0x00000000, .now, false, none⟩,
  ⟨0x1C, 1, .rc, 0x00000000, 0x00000000, .now, false, none⟩,
  ⟨0x20, 1, .rc, 0x00000000, 0x00000000, .now, false, none⟩,
  ⟨0x24, 1, .rc, 0x00000000, 0x00000000, .now, false, none⟩,
  ⟨0x28, 1, .rw, 0x00000000, 0x0000003F, .now, false, none⟩,
  ⟨0x2C, 1, .rc, 0x00000000, 0x00000000, .now, false, some .pmcCore⟩,
  ⟨0x30, 1, .rc, 0x00000000, 0x00000000, .now, false, some .pmcCore⟩,
  ⟨0x34, 1, .rc, 0x00000000, 0x00000000, .now, false, none⟩,
  ⟨0x38, 1, .rc, 0x00000000, 0x00000000, .now, false, none⟩,
  ⟨0x3C, 1, .rc, 0x00000000, 0x00000000, .now, false, none⟩,
  ⟨0x40, 1, .rc, 0x00000000, 0x00000000, .now, false, none⟩,
  ⟨0x44, 1, .rc, 0x00000000, 0x00000000, .now, false, none⟩,
  ⟨0x48, 1, .rw, 0x00000000, 0x0000000F, .now, false, none⟩,
  ⟨0x4C, 1, .rl, 0x00000000, 0x00000000, .now, false, none⟩]

/-- Ethernet and Bale registers (10). -/
def ethRegs : List RegDesc :=
 [
  ⟨0x0, 1, .ro, 0x41601001, 0x00000000, .now, false, none⟩,
  ⟨0x4, 1, .rl, 0x00000000, 0x00000000, .now, false, none⟩,
  ⟨0x8, 1, .rs, 0x0000000D, 0x0000000F, .command, false, none⟩,
  ⟨0xC, 1, .wo, 0x00000000, 0x00000000, .now, false, none⟩,
  ⟨0x10, 1, .rk, 0x00000000, 0x0003FFF7, .now, false, none⟩,
  ⟨0x14, 1, .rk, 0x00000000, 0xFFFFFFFF, .now, false, none⟩,
  ⟨0x18, 1, .rk, 0x00000000, 0x0000FFFF, .now, false, none⟩,
  ⟨0x1C, 1, .rk, 0x00000000, 0xFFFFFFFF, .now, false, none⟩,
  ⟨0x20, 4, .rk, 0x00000000, 0xFFFFFFFF, .now, false, none⟩,
  ⟨0x30, 1, .rk, 0x00000000, 0x00000FFF, .natural, false, none⟩,
  ⟨0x34, 1, .rk, 0x0000B9A0, 0x0000FFFF, .now, false, none⟩,
  ⟨0x38, 1, .rs, 0x00000015, 0x000000FF, .natural, false, none⟩,
  ⟨0x3C, 1, .rw, 0x000800C8, 0x000FFFFF, .now, false, none⟩,
  ⟨0x40, 1, .rw, 0x0000000A, 0x0000FFFF, .now, false, none⟩,
  ⟨0x44, 1, .rw, 0x000003E8, 0x0000FFFF, .now, false, none⟩,
  ⟨0x48, 1, .rw, 0x00000000, 0x80003FFF, .now, false, none⟩,
  ⟨0x4C, 1, .rw, 0x00000000, 0x80003FFF, .now, false, none⟩,
  ⟨0x50, 1, .rs, 0x18100800, 0x3F3F3F3F, .natural, false, none⟩,
  ⟨0x54, 1, .rs, 0x38302820, 0x3F3F3F3F, .natural, false, none⟩,
  ⟨0x58, 1, .rs, 0x00000014, 0x000000FF, .natural, false, none⟩,
  ⟨0x5C, 1, .rs, 0x10104010, 0xFFFFFFFF, .natural, false, none⟩,
  ⟨0x60, 1, .rw, 0x00000A03, 0x0000FF0F, .now, false, none⟩,
  ⟨0x64, 1, .rk, 0x00000000, 0x00000007, .natural, false, none⟩,
  ⟨0x68, 1, .rk, 0x00000000, 0x3FFFFFFF, .natural, false, none⟩,
  ⟨0x80, 1, .ro, 0x00000000, 0x00000000, .now, false, none⟩,
  ⟨0x84, 1, .ro, 0x00000000, 0x00000000, .now, false, none⟩,
  ⟨0x88, 1, .rw, 0x00000000, 0xFFFFFFFF, .now, true, none⟩,
  ⟨0x8C, 1, .rw, 0x00000000, 0x00000007, .now, false, none⟩,
  ⟨0x90, 1, .rw, 0x00000000, 0xFFFFFFFF, .now, true, some .lane⟩,
  ⟨0x94, 1, .ro, 0x00000000, 0x00000000, .now, false, none⟩,
  ⟨0x98, 1, .ro, 0x00000000, 0x00000000, .now, false, none⟩,
  ⟨0x9C, 1, .ro, 0x00000000, 0x00000000, .now, false, none⟩,
  ⟨0xA0, 1, .ro, 0x00000000, 0x00000000, .now, false, none⟩,
  ⟨0xA4, 1, .ro, 0x00000000, 0x00000000, .now, false, none⟩,
  ⟨0xA8, 1, .rw, 0x00000000, 0xFFFFFFFF, .now, true, none⟩,
  ⟨0xAC, 1, .rw, 0x00000000, 0xFFFFFFFF, .now, true, none⟩,
  ⟨0xB0, 1, .ro, 0x00000000, 0x00000000, .now, false, none⟩,
  ⟨0xB4, 1, .ro, 0x00000000, 0x00000000, .now, false, none⟩,
  ⟨0xB8, 1, .ro, 0x00000000, 0x00000000, .now, false, none⟩,
  ⟨0xBC, 1, .ro, 0x00000000, 0x00000000, .now, false, none⟩] ++
 [
  ⟨0xC0, 1, .ro, 0x00000000, 0x00000000, .now, false, none⟩,
  ⟨0xC4, 1, .rw, 0x00000000, 0xFFFFFFFF, .now, true, none⟩,
  ⟨0xC8, 1, .rw, 0x00000000, 0xFFFFFFFF, .now, true, none⟩,
  ⟨0xCC, 1, .rw, 0x00000000, 0xFFFFFFFF, .now, true, none⟩,
  ⟨0xD0, 1, .rw, 0x00000000, 0x0000FFFF, .now, true, none⟩,
  ⟨0xD4, 1, .rw, 0x00000000, 0xFFFFFFFF, .now, true, none⟩,
  ⟨0xD8, 1, .rw, 0x00000000, 0xFFFFFFFF, .now, true, none⟩,
  ⟨0xDC, 1, .rw, 0x00000000, 0x0000007F, .now, false, none⟩,
  ⟨0xE0, 1, .rl, 0x00000001, 0x00000000, .now, false, none⟩,
  ⟨0x100, 1, .rw, 0x00000000, 0x00003FFF, .now, false, none⟩,
  ⟨0x104, 1, .rl, 0x00000000, 0x00000000, .now, false, some .peer⟩,
  ⟨0x108, 1, .ro, 0x00000000, 0x00000000, .now, false, some .peer⟩,
  ⟨0x10C, 1, .ro, 0x00000000, 0x00000000, .now, false, some .peer⟩,
  ⟨0x110, 1, .ro, 0x00000000, 0x00000000, .now, false, some .peer⟩,
  ⟨0x200, 1, .rw, 0x00000000, 0x00000FFF, .now, false, none⟩,
  ⟨0x204, 1, .rs, 0x00000000, 0x3FFFFFFF, .command, false, some .conn⟩,
  ⟨0x208, 1, .rs, 0x00000000, 0x00FFFFFF, .command, false, some .conn⟩,
  ⟨0x20C, 1, .rs, 0x00000000, 0x00FFFFFF, .command, false, some .conn⟩,
  ⟨0x210, 1, .rs, 0x00000000, 0x00FFFFFF, .command, false, some .conn⟩,
  ⟨0x214, 1, .rs, 0x00000000, 0xFFFFFFFF, .command, false, some .conn⟩,
  ⟨0x218, 1, .rs, 0x00000000, 0xFFFFFFFF, .command, false, some .conn⟩,
  ⟨0x21C, 1, .rs, 0x00000000, 0xFFFFF000, .command, false, some .conn⟩,
  ⟨0x220, 1, .rs, 0x00000000, 0xFFFFFFFF, .command, false, some .conn⟩,
  ⟨0x224, 1, .rs, 0x00000000, 0x03FFFFFF, .command, false, some .conn⟩,
  ⟨0x228, 1, .rk, 0x00000000, 0x00000003, .now, false, some .conn⟩,
  ⟨0x22C, 1, .rl, 0x00000000, 0x00000000, .now, false, some .conn⟩,
  ⟨0x230, 1, .ro, 0x00000000, 0x00000000, .now, false, some .conn⟩,
  ⟨0x300, 1, .rw, 0x00000000, 0x00000FFF, .now, false, none⟩,
  ⟨0x304, 1, .rs, 0x00000000, 0x0FFFFFFF, .natural, false, some .qbQueue⟩,
  ⟨0x308, 1, .rs, 0x00000000, 0x00000FFF, .natural, false, some .qbQueue⟩]

/-- Audio block registers (11). -/
def audioRegs : List RegDesc :=
 [
  ⟨0x0, 1, .ro, 0x41601101, 0x00000000, .now, false, none⟩,
  ⟨0x4, 1, .wo, 0x00000000, 0x00000000, .now, false, none⟩,
  ⟨0x8, 1, .rk, 0x00000000, 0x00000003, .now, false, none⟩,
  ⟨0xC, 1, .rl, 0x00000000, 0x00000000, .now, false, none⟩,
  ⟨0x10, 1, .rw, 0x00000000, 0x00000007, .now, false, none⟩,
  ⟨0x14, 1, .rs, 0x00000000, 0x00000003, .command, false, some .group⟩,
  ⟨0x18, 1, .rk, 0x00000000, 0x00000003, .now, false, some .group⟩,
  ⟨0x1C, 1, .rl, 0x00000000, 0x00000000, .now, false, some .group⟩,
  ⟨0x20, 1, .ro, 0x00000000, 0x00000000, .now, false, some .group⟩,
  ⟨0x24, 1, .ro, 0x00000000, 0x00000000, .now, false, some .group⟩,
  ⟨0x28, 1, .rl, 0x00000000, 0x00000000, .now, false, none⟩,
  ⟨0x2C, 1, .rw, 0x00000000, 0x000000FF, .now, false, none⟩,
  ⟨0x30, 1, .rl, 0x00000000, 0x00000000, .now, false, none⟩]

/-- Audio port registers (11). -/
def portRegs : List RegDesc :=
 [
  ⟨0x0, 1, .rs, 0x00000900, 0x00001FFF, .command, false, none⟩,
  ⟨0x4, 1, .rs, 0x00000000, 0x000FF1FF, .command, false, none⟩,
  ⟨0x8, 1, .rs, 0x00000008, 0x00000FFF, .command, false, none⟩,
  ⟨0xC, 1, .rs, 0x00000000, 0x00FFFFFF, .command, false, none⟩,
  ⟨0x10, 1, .rs, 0x0000FFFF, 0x0000FFFF, .natural, false, none⟩,
  ⟨0x14, 1, .rk, 0x00000000, 0x00000003, .now, false, none⟩,
  ⟨0x18, 1, .rl, 0x00000000, 0x00000000, .now, false, none⟩,
  ⟨0x1C, 1, .rs, 0x00000020, 0x00000FFF, .command, false, none⟩,
  ⟨0x20, 1, .rs, 0x00000000, 0xFFFFFFFF, .command, false, none⟩,
  ⟨0x24, 1, .ro, 0x00000000, 0x00000000, .now, false, none⟩,
  ⟨0x28, 1, .rw, 0x00C80014, 0xFFFF03FF, .now, false, none⟩,
  ⟨0x2C, 1, .ro, 0x80000000, 0x00000000, .now, false, none⟩,
  ⟨0x30, 1, .ro, 0x00000000, 0x00000000, .now, false, none⟩,
  ⟨0x34, 1, .rl, 0x00000000, 0x00000000, .now, false, none⟩,
  ⟨0x38, 1, .rs, 0x00000000, 0x00FF7FFF, .command, false, none⟩,
  ⟨0x3C, 1, .rs, 0x00000000, 0xFFFFFFC0, .command, false, none⟩,
  ⟨0x40, 1, .rs, 0x00000000, 0xFFFFFFFF, .command, false, none⟩,
  ⟨0x44, 1, .rs, 0x00000000, 0xFFFFFFFF, .command, false, none⟩,
  ⟨0x48, 1, .rs, 0x00000000, 0xFFFFFFFF, .command, false, none⟩,
  ⟨0x4C, 1, .rk, 0x00000000, 0x00000003, .now, false, none⟩,
  ⟨0x50, 1, .rl, 0x00000000, 0x00000000, .now, false, none⟩,
  ⟨0x54, 1, .rw, 0x00000000, 0x0000FFFF, .now, true, none⟩,
  ⟨0x58, 1, .ro, 0x00000000, 0x00000000, .now, false, none⟩,
  ⟨0x5C, 1, .rs, 0x00000000, 0xFFFFFFC0, .command, false, none⟩,
  ⟨0x60, 1, .rs, 0x00000000, 0xFFFFFFFF, .command, false, none⟩,
  ⟨0x64, 1, .rs, 0x00000000, 0x00001FFF, .command, false, none⟩,
  ⟨0x68, 1, .ro, 0x00000000, 0x00000000, .now, false, none⟩,
  ⟨0x6C, 1, .rw, 0x00000000, 0xFFFFFFFF, .now, false, none⟩,
  ⟨0x70, 1, .rw, 0x00000000, 0x0000FFFF, .now, true, none⟩,
  ⟨0x74, 1, .rw, 0x00000000, 0xFFFFFFFF, .now, true, none⟩,
  ⟨0x78, 1, .rw, 0x00000000, 0xFFFFFFFF, .now, true, none⟩,
  ⟨0x7C, 1, .rw, 0x00000000, 0xFFFFFFFF, .now, true, none⟩,
  ⟨0x80, 1, .rw, 0x00000000, 0xFFFFFFFF, .now, true, none⟩,
  ⟨0x84, 1, .ro, 0x00000000, 0x00000000, .now, false, none⟩,
  ⟨0x88, 1, .ro, 0x00000000, 0x00000000, .now, false, none⟩,
  ⟨0x8C, 1, .rw, 0x00000000, 0x0000003F, .now, false, none⟩,
  ⟨0x90, 1, .rl, 0x00000000, 0x00000000, .now, false, none⟩]

/-- Telemetry and repair registers (15). -/
def telRegs : List RegDesc :=
 [
  ⟨0x0, 1, .ro, 0x41601501, 0x00000000, .now, false, none⟩,
  ⟨0x4, 1, .rl, 0x00000000, 0x00000000, .now, false, none⟩,
  ⟨0x8, 1, .wo, 0x00000000, 0x00000000, .now, false, none⟩,
  ⟨0xC, 1, .rk, 0x00000001, 0x00000001, .natural, false, none⟩,
  ⟨0x10, 1, .rs, 0x00000000, 0x0000FFFF, .natural, false, none⟩,
  ⟨0x14, 1, .rs, 0x00000000, 0x0000007F, .natural, false, none⟩,
  ⟨0x18, 1, .rs, 0x0A194B32, 0xFF7F7F7F, .natural, false, none⟩,
  ⟨0x1C, 1, .rw, 0x00000010, 0x0000001F, .now, false, none⟩,
  ⟨0x20, 1, .ro, 0x00000000, 0x00000000, .now, false, some .ring⟩,
  ⟨0x24, 1, .ro, 0x00000000, 0x00000000, .now, false, some .ring⟩,
  ⟨0x28, 1, .ro, 0x00000100, 0x00000000, .now, false, some .ring⟩,
  ⟨0x2C, 1, .rl, 0x00000000, 0x00000000, .now, false, some .ring⟩,
  ⟨0x30, 1, .ro, 0x00000000, 0x00000000, .now, false, some .ring⟩,
  ⟨0x34, 1, .ro, 0x00000000, 0x00000000, .now, false, some .ring⟩,
  ⟨0x38, 1, .rw, 0x00000000, 0xFFFFFFFF, .now, true, some .ring⟩,
  ⟨0x3C, 1, .rw, 0x00000000, 0xFFFFFFFF, .now, true, some .ring⟩,
  ⟨0x40, 1, .rw, 0x00000000, 0xFFFFFFFF, .now, true, some .ring⟩,
  ⟨0x44, 1, .ro, 0x00000000, 0x00000000, .now, false, some .ring⟩,
  ⟨0x48, 1, .ro, 0x00000000, 0x00000000, .now, false, none⟩,
  ⟨0x4C, 1, .ro, 0x00000000, 0x00000000, .now, false, none⟩,
  ⟨0x50, 1, .rw, 0x00000000, 0x00000007, .now, false, none⟩,
  ⟨0x54, 1, .rl, 0x00000000, 0x00000000, .now, false, none⟩,
  ⟨0x100, 1, .rl, 0x00000000, 0x00000000, .now, false, none⟩,
  ⟨0x104, 1, .rl, 0x00000000, 0x00000000, .now, false, none⟩,
  ⟨0x108, 1, .rl, 0x00000000, 0x00000000, .now, false, none⟩,
  ⟨0x10C, 1, .rl, 0x00000040, 0x00000000, .now, false, none⟩,
  ⟨0x110, 1, .ro, 0x00000000, 0x00000000, .now, false, none⟩,
  ⟨0x114, 1, .ro, 0x00000000, 0x00000000, .now, false, none⟩,
  ⟨0x118, 1, .rk, 0x00071004, 0x0007FFFF, .natural, false, none⟩]

/-- Configuration loader and CRC monitor registers (02). -/
def cfgRegs : List RegDesc :=
 [
  ⟨0x0, 1, .ro, 0x41600002, 0x00000000, .now, false, none⟩,
  ⟨0x4, 1, .rl, 0x00000000, 0x00000000, .now, false, none⟩,
  ⟨0x8, 1, .rk, 0x00000000, 0x00007FFF, .now, false, none⟩,
  ⟨0xC, 1, .ro, 0x00000000, 0x00000000, .now, false, none⟩,
  ⟨0x10, 1, .ro, 0x00000000, 0x00000000, .now, false, none⟩,
  ⟨0x14, 1, .ro, 0x00000000, 0x00000000, .now, false, none⟩,
  ⟨0x18, 1, .ro, 0x00000000, 0x00000000, .now, false, none⟩,
  ⟨0x1C, 1, .ro, 0x0000FFFF, 0x00000000, .now, false, none⟩,
  ⟨0x20, 1, .ro, 0x00000000, 0x00000000, .now, false, none⟩,
  ⟨0x24, 1, .ro, 0x00000000, 0x00000000, .now, false, none⟩,
  ⟨0x28, 1, .rk, 0x00000000, 0xFFFFFFFF, .now, false, none⟩,
  ⟨0x2C, 1, .rk, 0x00000000, 0xFFFFFFFF, .now, false, none⟩,
  ⟨0x30, 1, .ro, 0x00000000, 0x00000000, .now, false, none⟩,
  ⟨0x34, 1, .ro, 0x00000000, 0x00000000, .now, false, none⟩,
  ⟨0x38, 1, .rk, 0x00000000, 0x0000FFFF, .now, false, none⟩,
  ⟨0x3C, 1, .rl, 0x00000000, 0x00000000, .now, false, none⟩,
  ⟨0x40, 1, .ro, 0x00000400, 0x00000000, .now, false, none⟩,
  ⟨0x44, 1, .wo, 0x00000000, 0x00000000, .now, false, none⟩,
  ⟨0x48, 1, .rw, 0x00000000, 0x0000001F, .now, false, none⟩,
  ⟨0x4C, 1, .rl, 0x00000000, 0x00000000, .now, false, none⟩,
  ⟨0x100, 1, .rk, 0x00000000, 0xFFFFFFFF, .natural, false, none⟩,
  ⟨0x104, 1, .ro, 0x00000000, 0x00000000, .now, false, none⟩,
  ⟨0x108, 1, .rl, 0x00000001, 0x00000000, .now, false, none⟩,
  ⟨0x10C, 1, .ro, 0x00000000, 0x00000000, .now, false, none⟩,
  ⟨0x110, 1, .ro, 0x00000000, 0x00000000, .now, false, none⟩,
  ⟨0x114, 1, .rw, 0x00000000, 0x0000001F, .now, false, none⟩,
  ⟨0x118, 1, .ro, 0x00000000, 0x00000000, .now, false, some .slot⟩]

/-- Security registers (14). -/
def secRegs : List RegDesc :=
 [
  ⟨0x0, 1, .ro, 0x41601401, 0x00000000, .now, false, none⟩,
  ⟨0x4, 1, .rl, 0x00000000, 0x00000000, .now, false, none⟩,
  ⟨0x8, 1, .ro, 0x00000000, 0x00000000, .now, false, none⟩,
  ⟨0xC, 1, .ro, 0x00000000, 0x00000000, .now, false, none⟩,
  ⟨0x10, 1, .ro, 0x00000000, 0x00000000, .now, false, none⟩,
  ⟨0x14, 1, .ro, 0x00000000, 0x00000000, .now, false, none⟩,
  ⟨0x18, 1, .ro, 0x00000000, 0x00000000, .now, false, none⟩,
  ⟨0x1C, 1, .ro, 0x00000000, 0x00000000, .now, false, none⟩,
  ⟨0x20, 1, .rw, 0x00000000, 0x0000FFFF, .now, true, none⟩,
  ⟨0x24, 1, .rw, 0x00000000, 0x0000FFFF, .now, true, none⟩,
  ⟨0x28, 1, .ro, 0x00000000, 0x00000000, .now, false, none⟩,
  ⟨0x2C, 1, .rw, 0x00000000, 0x0000FFFF, .now, true, none⟩,
  ⟨0x30, 1, .ro, 0x00000000, 0x00000000, .now, false, none⟩,
  ⟨0x34, 1, .rk, 0x00000040, 0x000003FF, .natural, false, none⟩,
  ⟨0x38, 1, .wo, 0x00000000, 0x00000000, .now, false, none⟩,
  ⟨0x3C, 1, .rk, 0x00000258, 0x0000FFFF, .natural, false, none⟩,
  ⟨0x40, 1, .rw, 0x00000000, 0x0000001F, .now, false, none⟩,
  ⟨0x44, 1, .rl, 0x00000000, 0x00000000, .now, false, none⟩,
  ⟨0x100, 16, .ro, 0x00000000, 0x00000000, .now, false, none⟩]

/-- Translation registers (03). -/
def trnRegs : List RegDesc :=
 [
  ⟨0x0, 1, .ro, 0x41600301, 0x00000000, .now, false, none⟩,
  ⟨0x4, 1, .rw, 0x00000000, 0xFFFF0000, .now, false, none⟩,
  ⟨0x8, 1, .rw, 0x00000000, 0x01FFFFFF, .now, false, none⟩,
  ⟨0xC, 1, .rw, 0x00000000, 0xFFFFFFFF, .now, false, none⟩,
  ⟨0x10, 1, .wo, 0x00000000, 0x00000000, .now, false, none⟩,
  ⟨0x14, 1, .rl, 0x00000000, 0x00000000, .now, false, none⟩,
  ⟨0x18, 1, .ro, 0x00000000, 0x00000000, .now, false, none⟩,
  ⟨0x1C, 1, .ro, 0x00000000, 0x00000000, .now, false, none⟩,
  ⟨0x20, 1, .ro, 0x00000000, 0x00000000, .now, false, none⟩,
  ⟨0x24, 1, .ro, 0x00000000, 0x00000000, .now, false, none⟩,
  ⟨0x28, 1, .ro, 0x00000000, 0x00000000, .now, false, none⟩,
  ⟨0x2C, 1, .rw, 0x00000000, 0x00000FFF, .now, false, none⟩,
  ⟨0x30, 1, .wo, 0x00000000, 0x00000000, .now, false, none⟩,
  ⟨0x34, 1, .ro, 0x00000000, 0x00000000, .now, false, none⟩,
  ⟨0x38, 1, .rw, 0x00000000, 0x00000007, .now, false, none⟩,
  ⟨0x3C, 1, .rl, 0x00000000, 0x00000000, .now, false, none⟩,
  ⟨0x40, 1, .rl, 0x00000000, 0x00000000, .now, false, none⟩]

/-- Core, arithmetic, scan engine and fetch engine registers (04, 05, 07, 09). -/
def coreRegs : List RegDesc :=
 [
  ⟨0x0, 1, .ro, 0x00000000, 0x00000000, .now, false, none⟩,
  ⟨0x4, 1, .rl, 0x00000000, 0x00000000, .now, false, none⟩,
  ⟨0x8, 1, .wo, 0x00000000, 0x00000000, .now, false, none⟩,
  ⟨0xC, 1, .rk, 0x00000000, 0x00000003, .natural, false, none⟩,
  ⟨0x10, 1, .rw, 0x00000000, 0x00000007, .now, false, none⟩,
  ⟨0x14, 1, .rl, 0x00000000, 0x00000000, .now, false, some .stall⟩,
  ⟨0x18, 1, .ro, 0x00000000, 0x00000000, .now, false, some .stall⟩,
  ⟨0x1C, 1, .rl, 0x00000000, 0x00000000, .now, false, none⟩,
  ⟨0x20, 1, .rl, 0x00000100, 0x00000000, .now, false, none⟩,
  ⟨0x24, 1, .ro, 0x00000000, 0x00000000, .now, false, none⟩,
  ⟨0x28, 1, .ro, 0x00000000, 0x00000000, .now, false, none⟩,
  ⟨0x2C, 1, .ro, 0x00000000, 0x00000000, .now, false, none⟩,
  ⟨0x30, 1, .ro, 0x00000000, 0x00000000, .now, false, none⟩,
  ⟨0x34, 1, .rw, 0x00000000, 0x0000FFFF, .now, true, none⟩,
  ⟨0x38, 1, .rw, 0x00000000, 0x0000FFFF, .now, true, none⟩,
  ⟨0x3C, 1, .ro, 0x00000000, 0x00000000, .now, false, none⟩,
  ⟨0x40, 1, .ro, 0x00000000, 0x00000000, .now, false, none⟩,
  ⟨0x44, 1, .ro, 0x00000000, 0x00000000, .now, false, none⟩,
  ⟨0x48, 1, .rw, 0x00000000, 0xFFFFFFFF, .now, true, none⟩,
  ⟨0x4C, 1, .rw, 0x00000000, 0x00000007, .now, false, none⟩,
  ⟨0x50, 1, .rl, 0x00000000, 0x00000000, .now, false, none⟩,
  ⟨0x100, 1, .rs, 0x00000000, 0x00000003, .natural, false, none⟩,
  ⟨0x104, 1, .rw, 0x00000000, 0xFFFFFFFF, .now, true, none⟩,
  ⟨0x108, 1, .rw, 0x00000000, 0xFFFFFFFF, .now, true, none⟩,
  ⟨0x10C, 1, .rw, 0x00000000, 0xFFFFFFFF, .now, true, none⟩,
  ⟨0x110, 1, .rw, 0x00000000, 0xFFFFFFFF, .now, true, none⟩,
  ⟨0x114, 1, .rw, 0x00000000, 0x00000003, .now, false, none⟩,
  ⟨0x118, 1, .rl, 0x00000000, 0x00000000, .now, false, none⟩,
  ⟨0x140, 1, .rl, 0x00000000, 0x00000000, .now, false, none⟩,
  ⟨0x144, 1, .ro, 0x00000000, 0x00000000, .now, false, none⟩,
  ⟨0x148, 1, .ro, 0x00000000, 0x00000000, .now, false, none⟩,
  ⟨0x14C, 1, .ro, 0x00000000, 0x00000000, .now, false, none⟩,
  ⟨0x150, 1, .ro, 0x00000000, 0x00000000, .now, false, none⟩,
  ⟨0x154, 1, .rw, 0x00000000, 0xFFFFFFFF, .now, true, none⟩,
  ⟨0x158, 1, .rw, 0x00000000, 0x0000FFFF, .now, true, none⟩,
  ⟨0x15C, 1, .rw, 0x00000000, 0xFFFFFFFF, .now, true, none⟩,
  ⟨0x160, 1, .rw, 0x00000000, 0x00000003, .now, false, none⟩,
  ⟨0x164, 1, .rl, 0x00000000, 0x00000000, .now, false, none⟩,
  ⟨0x180, 1, .rl, 0x00000000, 0x00000000, .now, false, none⟩,
  ⟨0x184, 1, .ro, 0x00000000, 0x00000000, .now, false, none⟩] ++
 [
  ⟨0x188, 1, .ro, 0x00000000, 0x00000000, .now, false, none⟩,
  ⟨0x18C, 1, .ro, 0x00000000, 0x00000000, .now, false, none⟩,
  ⟨0x190, 1, .ro, 0x00000000, 0x00000000, .now, false, none⟩,
  ⟨0x194, 1, .ro, 0x00000000, 0x00000000, .now, false, none⟩,
  ⟨0x198, 1, .ro, 0x00000000, 0x00000000, .now, false, none⟩,
  ⟨0x19C, 1, .rw, 0x00000000, 0xFFFFFFFF, .now, true, none⟩,
  ⟨0x1A0, 1, .rw, 0x00000000, 0xFFFFFFFF, .now, true, none⟩,
  ⟨0x1A4, 1, .ro, 0x00000000, 0x00000000, .now, false, none⟩,
  ⟨0x1A8, 1, .rw, 0x00000000, 0x00000003, .now, false, none⟩,
  ⟨0x1AC, 1, .rl, 0x00000000, 0x00000000, .now, false, none⟩]

/-- Bay dispatcher, batcher and swath registers (04, 06, 09). -/
def bayRegs : List RegDesc :=
 [
  ⟨0x0, 1, .rl, 0x00000000, 0x00000000, .now, false, none⟩,
  ⟨0x4, 1, .rl, 0x00000000, 0x00000000, .now, false, none⟩,
  ⟨0x8, 1, .rl, 0x00000000, 0x00000000, .now, false, none⟩,
  ⟨0xC, 1, .rw, 0x00000000, 0xFFFFFFC0, .now, false, none⟩,
  ⟨0x10, 1, .wo, 0x00000000, 0x00000000, .now, false, none⟩,
  ⟨0x14, 1, .rl, 0x00000000, 0x00000000, .now, false, none⟩,
  ⟨0x18, 1, .ro, 0x00000000, 0x00000000, .now, false, none⟩,
  ⟨0x1C, 1, .rw, 0x00000000, 0xFFFFFFFF, .now, true, none⟩,
  ⟨0x20, 1, .ro, 0x00000000, 0x00000000, .now, false, none⟩,
  ⟨0x100, 1, .rs, 0x00000000, 0xFFF00000, .condition, false, none⟩,
  ⟨0x104, 1, .rs, 0x00000000, 0xFFFFFFFF, .condition, false, none⟩,
  ⟨0x108, 1, .rl, 0x00000400, 0x00000000, .now, false, none⟩,
  ⟨0x10C, 1, .rw, 0x00000000, 0x000000FF, .now, false, none⟩,
  ⟨0x110, 1, .rs, 0x000003E8, 0x000FFFFF, .natural, false, some .graph⟩,
  ⟨0x114, 1, .rl, 0x00000000, 0x00000000, .now, false, some .graph⟩,
  ⟨0x118, 1, .rl, 0x00000000, 0x00000000, .now, false, some .graph⟩,
  ⟨0x11C, 1, .rl, 0x00000000, 0x00000000, .now, false, some .graph⟩,
  ⟨0x120, 1, .ro, 0x00000000, 0x00000000, .now, false, some .graph⟩,
  ⟨0x124, 1, .ro, 0x00000000, 0x00000000, .now, false, some .graph⟩,
  ⟨0x128, 1, .rw, 0x00000000, 0x00FFFFFF, .now, true, some .graph⟩,
  ⟨0x12C, 1, .rw, 0x00000000, 0x000003FF, .now, false, none⟩,
  ⟨0x130, 1, .rs, 0x00001388, 0x00FFFFFF, .natural, false, some .set⟩,
  ⟨0x134, 1, .rw, 0x00000000, 0xFFFFFFFF, .now, false, none⟩,
  ⟨0x138, 1, .wo, 0x00000000, 0x00000000, .now, false, some .set⟩,
  ⟨0x13C, 1, .rl, 0x00000000, 0x00000000, .now, false, some .set⟩,
  ⟨0x140, 1, .ro, 0x00000000, 0x00000000, .now, false, some .set⟩,
  ⟨0x144, 1, .rw, 0x00000000, 0x0000FFFF, .now, true, some .set⟩,
  ⟨0x148, 1, .rw, 0x00000000, 0x00000003, .now, false, none⟩,
  ⟨0x14C, 1, .rl, 0x00000000, 0x00000000, .now, false, none⟩,
  ⟨0x200, 1, .wo, 0x00000000, 0x00000000, .now, false, none⟩,
  ⟨0x204, 1, .rw, 0x00000000, 0x00000007, .now, false, none⟩,
  ⟨0x208, 1, .rs, 0x00000000, 0xFFFFFFC0, .condition, false, some .pool⟩,
  ⟨0x20C, 1, .rs, 0x00000000, 0xFFFFFFFF, .condition, false, some .pool⟩,
  ⟨0x210, 1, .rs, 0x00000000, 0xFFFF3FFF, .condition, false, some .pool⟩,
  ⟨0x214, 1, .rl, 0x00000000, 0x00000000, .now, false, some .pool⟩,
  ⟨0x218, 1, .ro, 0x00000000, 0x00000000, .now, false, some .pool⟩,
  ⟨0x21C, 1, .rw, 0x00000000, 0x0000FFFF, .now, true, some .pool⟩,
  ⟨0x220, 1, .rw, 0x00000000, 0x00000FFF, .now, false, none⟩,
  ⟨0x224, 1, .rl, 0x00000000, 0x00000000, .now, false, some .queue⟩,
  ⟨0x228, 1, .rw, 0x00000000, 0x000007FF, .now, true, some .queue⟩] ++
 [
  ⟨0x22C, 1, .ro, 0x00000000, 0x00000000, .now, false, some .queue⟩,
  ⟨0x230, 1, .rk, 0x00000000, 0x00000003, .now, false, some .queue⟩,
  ⟨0x234, 1, .rs, 0x00000000, 0x0000007F, .condition, false, none⟩,
  ⟨0x238, 1, .ro, 0x00000000, 0x00000000, .now, false, none⟩,
  ⟨0x23C, 1, .rs, 0x00000000, 0xFFFFFFF0, .natural, false, none⟩,
  ⟨0x240, 1, .rs, 0x00000000, 0xFFFFFFFF, .natural, false, none⟩,
  ⟨0x244, 1, .rw, 0x00000000, 0xFFFFFFFF, .now, false, none⟩,
  ⟨0x248, 1, .rk, 0x00000000, 0x00000001, .now, false, none⟩,
  ⟨0x24C, 1, .rl, 0x00000000, 0x00000000, .now, false, none⟩,
  ⟨0x250, 1, .ro, 0x00000000, 0x00000000, .now, false, none⟩,
  ⟨0x254, 1, .ro, 0x00000000, 0x00000000, .now, false, none⟩,
  ⟨0x258, 1, .ro, 0x00000000, 0x00000000, .now, false, none⟩,
  ⟨0x25C, 1, .rw, 0x00000000, 0x0000001F, .now, false, none⟩,
  ⟨0x260, 1, .rl, 0x00000000, 0x00000000, .now, false, none⟩]

/-- Copy channel registers (09). -/
def cchRegs : List RegDesc :=
 [
  ⟨0x0, 1, .rs, 0x00000000, 0xFFFFFFC0, .command, false, none⟩,
  ⟨0x4, 1, .rs, 0x00000000, 0xFFFFFFFF, .command, false, none⟩,
  ⟨0x8, 1, .rs, 0x00000000, 0xFFFFFFC0, .command, false, none⟩,
  ⟨0xC, 1, .rs, 0x00000000, 0xFFFFFFFF, .command, false, none⟩,
  ⟨0x10, 1, .rs, 0x00000000, 0xFFFFFFFF, .command, false, none⟩,
  ⟨0x14, 1, .rs, 0x00000000, 0x00000001, .command, false, none⟩,
  ⟨0x18, 1, .rk, 0x00000000, 0x00000003, .now, false, none⟩,
  ⟨0x1C, 1, .rl, 0x00000000, 0x00000000, .now, false, none⟩,
  ⟨0x20, 1, .ro, 0x00000000, 0x00000000, .now, false, none⟩,
  ⟨0x24, 1, .ro, 0x00000000, 0x00000000, .now, false, none⟩,
  ⟨0x28, 1, .rw, 0x00000000, 0x0000FFFF, .now, true, none⟩]

/-- Stream context registers and scan fields (06, 07). -/
def streamRegs : List RegDesc :=
 [
  ⟨0x0, 1, .rs, 0x00000000, 0x00037FFF, .command, false, none⟩,
  ⟨0x4, 1, .rl, 0x00000000, 0x00000000, .now, false, none⟩,
  ⟨0x8, 1, .wo, 0x00000000, 0x00000000, .now, false, none⟩,
  ⟨0xC, 1, .rs, 0x00000000, 0xFFFFFFFF, .command, false, none⟩,
  ⟨0x10, 1, .rs, 0x00000000, 0x00001F7F, .command, false, none⟩,
  ⟨0x14, 1, .rs, 0x00000000, 0x00FFFFFF, .natural, false, none⟩,
  ⟨0x18, 1, .rs, 0x00000000, 0xFFFFFFC0, .command, false, none⟩,
  ⟨0x1C, 1, .rs, 0x00000000, 0xFFFFFFFF, .command, false, none⟩,
  ⟨0x20, 1, .rs, 0x00000000, 0x00FFFFFF, .command, false, none⟩,
  ⟨0x24, 1, .rs, 0x00000000, 0xFFFFFFFF, .command, false, none⟩,
  ⟨0x28, 1, .rs, 0x00000000, 0xFFFFFFC0, .command, false, none⟩,
  ⟨0x2C, 1, .rs, 0x00000000, 0xFFFFFFFF, .command, false, none⟩,
  ⟨0x30, 1, .rs, 0x00000000, 0x0000FFFF, .command, false, none⟩,
  ⟨0x34, 1, .ro, 0x00000000, 0x00000000, .now, false, none⟩,
  ⟨0x38, 1, .ro, 0x00000000, 0x00000000, .now, false, none⟩,
  ⟨0x3C, 1, .rs, 0x00000000, 0xFFFFFFFF, .command, false, none⟩,
  ⟨0x40, 1, .rs, 0x00000000, 0xFFFFFFC0, .command, false, none⟩,
  ⟨0x44, 1, .rs, 0x00000000, 0xFFFFFFFF, .command, false, none⟩,
  ⟨0x48, 1, .rs, 0x00000000, 0x0FFFFFFF, .command, false, none⟩,
  ⟨0x4C, 1, .ro, 0x00000000, 0x00000000, .now, false, none⟩,
  ⟨0x50, 1, .rw, 0x00000000, 0xFFFFFFFF, .now, false, none⟩,
  ⟨0x54, 1, .rs, 0x00000000, 0x00003FFF, .command, false, none⟩,
  ⟨0x58, 1, .rs, 0x00000000, 0x000083FF, .command, false, none⟩,
  ⟨0x5C, 1, .rw, 0x00000000, 0xFFFFFFFF, .now, false, none⟩,
  ⟨0x60, 1, .ro, 0x00000000, 0x00000000, .now, false, none⟩,
  ⟨0x64, 1, .ro, 0x00000000, 0x00000000, .now, false, none⟩,
  ⟨0x68, 1, .ro, 0x00000000, 0x00000000, .now, false, none⟩,
  ⟨0x6C, 1, .ro, 0x00000000, 0x00000000, .now, false, none⟩,
  ⟨0x70, 1, .ro, 0x00000000, 0x00000000, .now, false, none⟩,
  ⟨0x74, 1, .rw, 0x00000000, 0x00FFFFFF, .now, true, none⟩,
  ⟨0x78, 1, .ro, 0x00000000, 0x00000000, .now, false, none⟩,
  ⟨0x7C, 1, .rw, 0x00000000, 0x0000FFFF, .now, true, none⟩,
  ⟨0x80, 1, .rw, 0x00000000, 0x0000FFFF, .now, true, none⟩,
  ⟨0x84, 1, .rw, 0x00000000, 0x0000FFFF, .now, true, none⟩,
  ⟨0x88, 1, .rw, 0x00000000, 0x0000FFFF, .now, true, none⟩,
  ⟨0x8C, 1, .rw, 0x00000000, 0x0000FFFF, .now, true, none⟩,
  ⟨0x90, 1, .rw, 0x00000000, 0x0000FFFF, .now, true, none⟩,
  ⟨0x94, 1, .rw, 0x00000000, 0x00FFFFFF, .now, true, none⟩,
  ⟨0x98, 1, .rw, 0x00000000, 0x0000003F, .now, false, none⟩,
  ⟨0x9C, 1, .rl, 0x00000000, 0x00000000, .now, false, none⟩] ++
 [
  ⟨0xC0, 1, .rs, 0x00000000, 0x0001FFFF, .command, false, none⟩,
  ⟨0xC4, 1, .rw, 0x00000000, 0xFFFFFFFF, .now, true, none⟩,
  ⟨0xC8, 1, .rw, 0x00000000, 0x0000FFFF, .now, true, none⟩,
  ⟨0xCC, 1, .ro, 0x00000000, 0x00000000, .now, false, none⟩,
  ⟨0xD0, 1, .rw, 0x00000000, 0x0000FFFF, .now, true, none⟩,
  ⟨0xD4, 1, .ro, 0x00000000, 0x00000000, .now, false, none⟩,
  ⟨0xD8, 1, .rw, 0x00000000, 0x0000FFFF, .now, true, none⟩,
  ⟨0xDC, 1, .rw, 0x00000000, 0x00070000, .now, false, none⟩]

/-- Memory tier controller registers (03). -/
def mtRegs : List RegDesc :=
 [
  ⟨0x0, 1, .ro, 0x41600301, 0x00000000, .now, false, none⟩,
  ⟨0x4, 1, .ro, 0x00001FC0, 0x00000000, .now, false, none⟩,
  ⟨0x8, 1, .ro, 0x00000000, 0x00000000, .now, false, none⟩,
  ⟨0xC, 1, .ro, 0x00000000, 0x00000000, .now, false, none⟩,
  ⟨0x10, 1, .rw, 0x00000000, 0x0000000F, .now, false, none⟩,
  ⟨0x14, 1, .ro, 0x00000000, 0x00000000, .now, false, some .mtBay⟩,
  ⟨0x18, 1, .ro, 0x00000000, 0x00000000, .now, false, some .mtBay⟩,
  ⟨0x1C, 1, .ro, 0x00000000, 0x00000000, .now, false, some .mtBay⟩,
  ⟨0x20, 1, .rs, 0x0000005F, 0x0000007F, .natural, false, some .mtBay⟩,
  ⟨0x24, 1, .rs, 0x0000005A, 0x0000007F, .natural, false, some .mtBay⟩,
  ⟨0x28, 1, .wo, 0x00000000, 0x00000000, .now, false, none⟩,
  ⟨0x2C, 1, .rk, 0x00000000, 0x000001FF, .now, false, none⟩,
  ⟨0x30, 1, .rw, 0x00000000, 0xFFFFFFFF, .now, false, none⟩,
  ⟨0x34, 1, .rw, 0x00000000, 0xFFFFFFFF, .now, false, none⟩,
  ⟨0x38, 1, .rw, 0x00000000, 0xFFFFFFFF, .now, false, none⟩,
  ⟨0x3C, 1, .rl, 0x00000000, 0x00000000, .now, false, none⟩,
  ⟨0x40, 1, .rl, 0x00000000, 0x00000000, .now, false, none⟩,
  ⟨0x44, 1, .rw, 0x00000000, 0x0000001F, .now, false, none⟩,
  ⟨0x48, 1, .rw, 0x00000000, 0xFFFFFFFF, .now, true, some .mtUnit⟩,
  ⟨0x4C, 1, .rw, 0x00000000, 0x0000FFFF, .now, true, some .mtUnit⟩,
  ⟨0x50, 1, .ro, 0x00000000, 0x00000000, .now, false, none⟩,
  ⟨0x54, 1, .ro, 0x00000000, 0x00000000, .now, false, none⟩,
  ⟨0x58, 1, .ro, 0x00000000, 0x00000000, .now, false, none⟩,
  ⟨0x5C, 1, .rw, 0x00000000, 0x0000003F, .now, false, none⟩,
  ⟨0x60, 1, .rl, 0x00000000, 0x00000000, .now, false, none⟩]

/-- Bank-side engine registers (05). -/
def bseRegs : List RegDesc :=
 [
  ⟨0x0, 1, .rl, 0x00000000, 0x00000000, .now, false, none⟩,
  ⟨0x4, 1, .ro, 0x00000000, 0x00000000, .now, false, none⟩,
  ⟨0x8, 1, .ro, 0x00000000, 0x00000000, .now, false, none⟩,
  ⟨0xC, 1, .ro, 0x00000000, 0x00000000, .now, false, none⟩,
  ⟨0x10, 1, .rw, 0x00000000, 0xFFFFFFFF, .now, true, none⟩,
  ⟨0x14, 1, .rw, 0x00000000, 0xFFFFFFFF, .now, true, none⟩,
  ⟨0x18, 1, .rw, 0x00000000, 0xFFFFFFFF, .now, true, none⟩,
  ⟨0x1C, 1, .rw, 0x00000000, 0x00000003, .now, false, none⟩,
  ⟨0x20, 1, .rl, 0x00000000, 0x00000000, .now, false, none⟩]

/-- Attention walker registers (08). -/
def attRegs : List RegDesc :=
 [
  ⟨0x0, 1, .ro, 0x41600801, 0x00000000, .now, false, none⟩,
  ⟨0x4, 1, .rs, 0x00401002, 0x00FF1F1F, .natural, false, none⟩,
  ⟨0x8, 1, .rl, 0x00000000, 0x00000000, .now, false, none⟩,
  ⟨0xC, 1, .ro, 0x00000000, 0x00000000, .now, false, none⟩,
  ⟨0x10, 1, .ro, 0x00000000, 0x00000000, .now, false, none⟩,
  ⟨0x14, 1, .ro, 0x00000000, 0x00000000, .now, false, none⟩,
  ⟨0x18, 1, .ro, 0x00000000, 0x00000000, .now, false, none⟩,
  ⟨0x1C, 1, .rw, 0x00000000, 0xFFFFFFFF, .now, true, none⟩,
  ⟨0x20, 1, .rw, 0x00000000, 0xFFFFFFFF, .now, true, none⟩,
  ⟨0x24, 1, .rw, 0x00000000, 0x00000007, .now, false, none⟩,
  ⟨0x28, 1, .rl, 0x00000000, 0x00000000, .now, false, none⟩]

/-- Sequence context registers (08). -/
def seqRegs : List RegDesc :=
 [
  ⟨0x0, 1, .rs, 0x00000000, 0x000317FF, .command, false, none⟩,
  ⟨0x4, 1, .rl, 0x00000000, 0x00000000, .now, false, none⟩,
  ⟨0x8, 1, .wo, 0x00000000, 0x00000000, .now, false, none⟩,
  ⟨0xC, 1, .rs, 0x00000000, 0x000FFFFF, .command, false, none⟩,
  ⟨0x10, 1, .rs, 0x00000400, 0x001FFFFF, .natural, false, none⟩,
  ⟨0x14, 1, .rs, 0x00000000, 0x00FFFFFF, .natural, false, none⟩,
  ⟨0x18, 1, .rs, 0x00000000, 0xFFFF0000, .command, false, none⟩,
  ⟨0x1C, 1, .rs, 0x00000000, 0xFFFFFFFF, .command, false, none⟩,
  ⟨0x20, 1, .rs, 0x00000000, 0xFFFFFFFF, .command, false, none⟩,
  ⟨0x24, 1, .rs, 0x00000000, 0x001FFFFF, .command, false, none⟩,
  ⟨0x28, 1, .rs, 0x00000000, 0x001FFFFF, .command, false, none⟩,
  ⟨0x2C, 1, .ro, 0x00000000, 0x00000000, .now, false, none⟩,
  ⟨0x30, 1, .rs, 0x00000000, 0xFFFFFFC0, .natural, false, none⟩,
  ⟨0x34, 1, .rs, 0x00000000, 0xFFFFFFFF, .natural, false, none⟩,
  ⟨0x38, 1, .rs, 0x00000000, 0x0000007F, .natural, false, none⟩,
  ⟨0x3C, 1, .rs, 0x00000000, 0xFFFFFFFF, .command, false, none⟩,
  ⟨0x40, 1, .rs, 0x00000000, 0xFFFFFFC0, .command, false, none⟩,
  ⟨0x44, 1, .rs, 0x00000000, 0xFFFFFFFF, .command, false, none⟩,
  ⟨0x48, 1, .rs, 0x00000000, 0x0FFFFFFF, .command, false, none⟩,
  ⟨0x4C, 1, .ro, 0x00000000, 0x00000000, .now, false, none⟩,
  ⟨0x50, 1, .rw, 0x00000000, 0xFFFFFFFF, .now, false, none⟩,
  ⟨0x54, 1, .rs, 0x00000000, 0x00003FFF, .command, false, none⟩,
  ⟨0x58, 1, .rs, 0x00000000, 0xFFFFFFC0, .natural, false, none⟩,
  ⟨0x5C, 1, .rs, 0x00000000, 0xFFFFFFFF, .natural, false, none⟩,
  ⟨0x60, 1, .rs, 0x00000000, 0x0FFFFFFF, .natural, false, none⟩,
  ⟨0x64, 1, .rs, 0x00000000, 0x80000F7F, .natural, false, none⟩,
  ⟨0x68, 1, .ro, 0x00000000, 0x00000000, .now, false, none⟩,
  ⟨0x6C, 1, .rw, 0x00000000, 0xFFFFFFFF, .now, false, none⟩,
  ⟨0x70, 1, .ro, 0x00000000, 0x00000000, .now, false, none⟩,
  ⟨0x74, 1, .ro, 0x00000000, 0x00000000, .now, false, none⟩,
  ⟨0x78, 1, .ro, 0x00000000, 0x00000000, .now, false, none⟩,
  ⟨0x7C, 1, .rw, 0x00000000, 0x00FFFFFF, .now, true, none⟩,
  ⟨0x80, 1, .ro, 0x00000000, 0x00000000, .now, false, none⟩,
  ⟨0x84, 1, .rw, 0x00000000, 0x0000FFFF, .now, true, none⟩,
  ⟨0x88, 1, .rw, 0x00000000, 0x0000FFFF, .now, true, none⟩,
  ⟨0x8C, 1, .rw, 0x00000000, 0x0000FFFF, .now, true, none⟩,
  ⟨0x90, 1, .rw, 0x00000000, 0x0000FFFF, .now, true, none⟩,
  ⟨0x94, 1, .rl, 0x00000000, 0x00000000, .now, false, none⟩,
  ⟨0x98, 1, .rw, 0x00000000, 0x0000FFFF, .now, true, none⟩,
  ⟨0x9C, 1, .rw, 0x00000000, 0x0000FFFF, .now, true, none⟩] ++
 [
  ⟨0xA0, 1, .rw, 0x00000000, 0x0000007F, .now, false, none⟩,
  ⟨0xA4, 1, .rl, 0x00000000, 0x00000000, .now, false, none⟩]

/-- The row of a register table that an offset falls in. -/
def findReg (table : List RegDesc) (off : Nat) : Option RegDesc :=
  table.find? fun d => d.off ≤ off && off < d.off + 4 * d.count && off % 4 = 0

/-- The row of a peer table word, by its offset in the entry (10 R246, R247): staged until word 0x00 of the entry is written. The mask leaves out
the reserved bits. -/
def peerTableDesc (off : Nat) : RegDesc :=
  let mask : Word := if off = 0 then 0xFFFF01FF else if off = 8 then 0x0FFFFFFF else if off = 0x1C then 0 else 0xFFFFFFFF
  ⟨0, 1, .rs, 0, mask, .command, false, none⟩

/-- The register table row of a place. -/
def descOf (key : Nat) : Option RegDesc :=
  let a := keyAddr key
  let off := a % 0x00100000
  if a < 0x00100000 then findReg hubRegs off
  else if a < 0x00200000 then findReg vaneRegs off
  else if a < 0x00300000 then findReg pmcRegs off
  else if a < 0x00400000 then if off < 0x80000 then findReg ethRegs off else if off % 4 = 0 then some (peerTableDesc (off % 32)) else none
  else if a < 0x00500000 then
    if off < 0x1000 then findReg audioRegs off else if off < 0x1600 then findReg portRegs (off % 0x100) else none
  else if a < 0x00600000 then findReg telRegs off
  else if a < 0x00700000 then findReg cfgRegs off
  else if a < 0x00800000 then findReg secRegs off
  else if a < 0x00900000 then findReg trnRegs off
  else if a < 0x01000000 then none
  else if a < 0x03400000 then if off < 0x8000 then findReg coreRegs off else none
  else if a < 0x04000000 then none
  else if a < 0x04400000 then findReg streamRegs (a % 0x100)
  else if a < 0x05000000 then none
  else if a < 0x05001000 then findReg mtRegs off
  else if a < 0x05001400 then findReg bseRegs (a % 0x100)
  else if a < 0x05002000 then none
  else if a < 0x05002100 then findReg attRegs (a % 0x100)
  else if a < 0x05200000 then none
  else if a < 0x05400000 then findReg seqRegs (a % 0x100)
  else if a < 0x06000000 then none
  else if a < 0x06004000 then
    let o := (a - 0x06000000) % 0x400
    if o < 0x300 then findReg bayRegs o else findReg cchRegs (o % 0x40)
  else none

/-- The reset value of a place, by its register table (00 R12). -/
def resetOf (key : Nat) : Word :=
  match descOf key with
  | some d => d.reset
  | none => 0

/-- The blocks that `HUB_COMMIT`'s mask bits name (12 R295). -/
def commitBit : Block → Nat
  | .hub => 0 | .vane => 1 | .pmc => 2 | .eth => 3 | .audio => 4 | .tel => 5 | .cfg => 6 | .sec => 7 | .trn => 8
  | .core _ => 9 | .bay _ => 9 | .stream => 10 | .tier => 11

/-- The block of a place. -/
def blockOf (key : Nat) : Block :=
  let a := keyAddr key
  if a < 0x00100000 then .hub else if a < 0x00200000 then .vane else if a < 0x00300000 then .pmc
  else if a < 0x00400000 then .eth else if a < 0x00500000 then .audio else if a < 0x00600000 then .tel
  else if a < 0x00700000 then .cfg else if a < 0x00800000 then .sec else if a < 0x01000000 then .trn
  else if a < 0x04000000 then .core (Fin.ofNat 36 ((a - 0x01000000) / 0x00100000))
  else if a < 0x05000000 then .stream
  else if a < 0x06000000 then .tier
  else .bay (Fin.ofNat 16 ((a - 0x06000000) / 0x400))

/-- The GUARD register of a block, where it has one (12 R301). -/
def guardReg : Block → Option Nat
  | .hub => some Reg.HUB_GUARD | .vane => none | .pmc => some Reg.PMC_GUARD | .eth => some Reg.EB_GUARD
  | .audio => some Reg.AP_GUARD | .tel => some Reg.TEL_GUARD | .cfg => some Reg.CFG_GUARD | .sec => some Reg.SEC_GUARD
  | .trn => none | .core n => some (Reg.CORE_GUARD n) | .bay b => some (Reg.SW_GUARD b) | .stream => none
  | .tier => some Reg.MT_GUARD

end Sys2Proof.Machine
end

