-- ==== Sys2Proof/Machine/TelTypes.lean ====
section
/-! DEFINITION. The state of the telemetry hub, of the control processors' roles and of in-service repair (15). -/

namespace Sys2Proof.Machine

/-- A record held in a sub-ring (15 R354, R358): its sequence, the offset it lies at, and its bytes. -/
structure TelRecord where
  seq : Word
  offset : Nat
  bytes : Bytes
  deriving DecidableEq, Repr

/-- What a GAP record counts (15 R356, R364). -/
structure GapCounts where
  sampledOut : Nat
  dropped : Nat
  coalesced : Nat
  lost : Nat
  deriving DecidableEq, Repr

def GapCounts.zero : GapCounts := ⟨0, 0, 0, 0⟩

/-- An entry of the summary table (15 R363), by code and unit. -/
structure Summary where
  code : Nat
  unit : Nat
  count : Nat
  first : W64
  latest : W64
  arg1 : W64
  deriving DecidableEq, Repr

/-- Squall levels (15 R362). -/
inductive SquallLevel where
  | calm | sample | coalesce
  deriving DecidableEq, Repr

def SquallLevel.code : SquallLevel → Nat
  | .calm => 0 | .sample => 1 | .coalesce => 2

/-- A sub-ring (15 R357 to R364). -/
structure SubRing where
  /-- Offset from the ring's base, and size, in bytes; export share in thousandths. -/
  offset : Nat
  size : Nat
  share : Nat
  /-- Where the next record goes. -/
  head : Nat
  /-- Next sequence and first sequence not acknowledged. -/
  seq : Word
  acked : Word
  /-- Sequence of the first record that export has not yet sent. -/
  sent : Word
  /-- Records not overwritten, oldest first. -/
  records : List TelRecord
  level : SquallLevel
  /-- The sample exponent (R363). -/
  k : Nat
  /-- Bytes that unacknowledged records held at the latest tick (R363). -/
  lastUsed : Nat
  /-- Consecutive ticks for which the fill has stayed below the level's lower threshold. -/
  below : Nat
  gap : GapCounts
  gapStart : W64
  /-- Traces of each code produced in turn while in SAMPLE (R362). -/
  turns : AMap Nat
  /-- Weight left in the round-robin of R359. -/
  credit : Nat
  deriving DecidableEq, Repr

def SubRing.laid (offset size share : Nat) : SubRing :=
  { offset := offset, size := size, share := share, head := 0, seq := 0, acked := 0, sent := 0, records := [], level := .calm
    k := 1, lastUsed := 0, below := 0, gap := .zero, gapStart := 0, turns := [], credit := 0 }

/-- A summary entry of a sub-ring's bay (15 R363: keyed by bay, code and unit); bay 16 is the device. -/
structure SummaryEntry where
  ring : Nat
  bay : Nat
  entry : Summary
  deriving DecidableEq, Repr

/-- A TEL_REPLAY that is queued (15 R374). -/
structure Replay where
  peer : Nat
  ring : Nat
  first : Word
  count : Nat
  deriving DecidableEq, Repr

/-- Repair operations, as `REP_STATUS.operation` numbers them (15 "Registers"). -/
inductive RepairKind where
  | siloFence | dimmRemove | dimmInsert | fwHandover | cpHandover | move | retire
  deriving DecidableEq, Repr

def RepairKind.code : RepairKind → Nat
  | .siloFence => 1 | .dimmRemove => 2 | .dimmInsert => 3 | .fwHandover => 4 | .cpHandover => 5 | .move => 6 | .retire => 7

/-- A repair in progress or waiting (15 R368 to R374): who asked, the step, the pages migrated. -/
structure Repair where
  kind : RepairKind
  target : Nat
  step : Nat
  /-- The MGMT request to answer: peer and tag. -/
  reply : Option (Nat × BitVec 16)
  pages : Nat
  /-- Control processors that run the new set, and whether a handover reverses (R369). -/
  moved : List Nat
  reverse : Bool
  /-- Local interval counter when the step began. -/
  since : W64
  deriving DecidableEq, Repr

/-- States of a control processor (`REP_CP_ROLES`, 15 R367, R368). -/
inductive CpRole where
  | active | standby | booting | held
  deriving DecidableEq, Repr

def CpRole.code : CpRole → Nat
  | .active => 0 | .standby => 1 | .booting => 2 | .held => 3

/-- A control processor: its state, the role number it holds while active, and the times of its watchdog expiries. -/
structure ControlProc where
  state : CpRole
  role : Option Nat
  expiries : List W64
  deriving DecidableEq, Repr

/-- Telemetry and repair. -/
structure Tel where
  rings : AMap SubRing
  summaries : List SummaryEntry
  replays : List Replay
  running : Option Repair
  waiting : List Repair
  /-- `REP_STATUS`: what the latest operation was, its step, target and result. -/
  lastKind : Nat
  lastStep : Nat
  lastTarget : Nat
  lastResult : Nat
  /-- Rows fenced or draining (15 R370), and whether each has finished. -/
  fenced : BitVec 32
  draining : BitVec 32
  /-- Granary channels that drain (15 R371). -/
  channelDraining : BitVec 8
  cps : AMap ControlProc
  /-- SILO uncorrectable errors of each row within the patrol pass (15 R373). -/
  rowUes : AMap Nat
  /-- Granules that go offline when they free (15 R372). -/
  retiring : List Nat
  /-- Cores for which firmware has issued a MOVE, or found that it cannot (15 R373). -/
  moveAsked : List Nat
  /-- Crib corrected errors of each core within the running hour, and when that hour began (15 R373). -/
  cribErrors : AMap Nat
  cribHour : W64
  deriving DecidableEq, Repr

/-- CP0 to CP2 hold the roles 0 to 2, CP3 is standby (15 R367). -/
def Tel.bootRoles : AMap ControlProc :=
  [(0, ⟨.active, some 0, []⟩), (1, ⟨.active, some 1, []⟩), (2, ⟨.active, some 2, []⟩), (3, ⟨.standby, none, []⟩)]

/-- The device sub-ring of an image without a TELRES entry for 0xFF: 256 MiB, share 20 (15 R357). -/
def Tel.firstRings : AMap SubRing := [(16, SubRing.laid 0 (256 * 2 ^ 20) 20)]

/-- Telemetry after power-on reset (15 R365, R377). -/
def Tel.reset : Tel :=
  { rings := Tel.firstRings, summaries := [], replays := [], running := none, waiting := [], lastKind := 0, lastStep := 0
    lastTarget := 0, lastResult := 0, fenced := 0, draining := 0, channelDraining := 0, cps := Tel.bootRoles, rowUes := [], retiring := []
    moveAsked := [], cribErrors := [], cribHour := 0 }

end Sys2Proof.Machine
end

