-- ==== Sys2Proof/Machine/State.lean ====
section
/-! DEFINITION. The state of the AB-4160, the reasons a command can stop, and the state right after power-on reset. -/

namespace Sys2Proof.Machine

/-- A register: the value in force and the staged value (12 R290, R293). -/
structure RegCell where
  value : Word
  staged : Option Word
  deriving DecidableEq, Repr

/-- Why a command stops. -/
inductive Fault where
  /-- A command names a physical address that no tier has (03 R53, R57). Raised by the commands whose operand is a physical
  address (PATROL_SCRUB, GRANULE_RETIRE). Safe: the device has no such line, so no such command reaches it. -/
  | unbackedAddress (address : Nat)
  deriving DecidableEq, Repr

/-- Why a command has no meaning. -/
inductive Refusal where
  /-- The model gives the command no meaning yet: raised by `exec`'s arms. Safe: nothing is claimed of the command. -/
  | notModelled (mnemonic : String)
  deriving DecidableEq, Repr

/-- The state of the device. -/
structure State where
  /-- Commands that wait, first in, first out: the model's own field (log 1). -/
  pending : List Instr
  /-- How many free values have been drawn: the model's own field (log 5). -/
  free : Nat
  /-- The cores present and the spares (12 R308). -/
  fuses : Fuses
  /-- The local interval counter (01 R24). -/
  lic : W64
  /-- Registers whose cell differs from their Reset value, by place. -/
  regs : AMap RegCell
  /-- Status bits that are live until a register is read, by status register (12 R291). -/
  latches : AMap Word
  /-- The open guard of each source: its block (12 R301). -/
  guards : AMap Block
  /-- `HUB_COMMIT_STATUS`: BUSY with the mask, REFUSED, COUNT (12 R295, R296). -/
  commitMask : Option Word
  commitRefused : Bool
  commitCount : Nat
  events : Events
  loader : Loader
  trans : Trans
  tiers : Tiers
  /-- Bytes of the memory tiers by physical address; an unlisted byte reads zero (16 R383). -/
  mem : AMap Byte
  /-- Chaff-marked lines by physical address / 64 (01 R13), and lines with an uncorrectable error (03 R54). -/
  chaff : List Nat
  ue : List Nat
  cores : AMap Core
  bays : AMap Bay
  batchers : AMap Batcher
  /-- Sheaf instances by number, and the next number. -/
  insts : AMap Inst
  nextInst : Nat
  /-- Handle queues by device-wide index (09 R219). -/
  queues : AMap HandleQueue
  streams : AMap Stream
  seqs : AMap SeqCtx
  engines : Engines
  net : Net
  audio : Audio
  vane : Vane
  pmc : Pmc
  power : Power
  tap : Tap
  sec : Sec
  tel : Tel
  deriving DecidableEq, Repr

/-- The power-on sequence under way with the given flash, straps and pins (16 R378): everything at its Reset value, the slot that
the boot ROM chose running; held at step 2 while RESET_N is asserted (R379), stopped at step 4 for card test (R380), or held for
want of an acceptable slot (14 R337). -/
def State.powerUp (flash : Sec) (address : Option (List Word)) (records : List (Option TrainRecord)) (erasePending : Bool) (straps : BitVec 2) (resetN refclk : Bool)
    (pending : List Instr) (free : Nat) (fuses : Fuses) : State :=
  let erased := flashOnly (if resetN && erasePending then eraseOwner flash else flash)
  let booted := boot erased
  let card := straps = 3
  { pending := pending, free := free, fuses := fuses, lic := 0, regs := [], latches := [], guards := [], commitMask := none
    commitRefused := false, commitCount := 0, events := .reset, loader := .reset, trans := .reset, tiers := .reset, mem := []
    chaff := [], ue := [], cores := [], bays := [], batchers := [], insts := [], nextInst := 0, queues := [], streams := []
    seqs := [], engines := .reset, net := .reset, audio := .reset
    vane := { Vane.reset with alarmN := false, running := true }
    pmc := .reset
    power :=
      { phase := if !resetN then .startUpHeld else if card then .cardTest
                 else if booted.running = none then .noFirmware else .startUp
        resetN := resetN, straps := straps, dpen := 0, training := 0
        address := if resetN && erasePending then none else address, erasePending := erasePending && !resetN
        records := if resetN && erasePending then List.replicate 20 none else records, fresh := [], timing := [], refclk := refclk }
    tap := .reset
    sec := if !resetN || card then erased else booted
    tel := .reset }

/-- The machine right after power-on reset, start-up under way (16 R378; log 3), with the DIMMs that are installed (log 4). -/
def State.reset : State :=
  let records := (List.range 20).map fun u => (Config.trainingRecord u).map fun r => ⟨r.1, r.2.1, r.2.2⟩
  let t := State.powerUp .shipped Config.addressRecord records Config.erasePending Config.straps true true [] 0
    ⟨Config.corePresent, Config.coreSpare⟩
  { t with tiers := { t.tiers with
      dimms := (List.range 8).map fun g => (g, (Config.dimmGiB g).val), dimmIds := (List.range 8).map fun g => (g, Config.dimmIdentity g) } }

end Sys2Proof.Machine
end

