-- ==== Sys2Proof/Machine/Ops.lean ====
section
/-! DEFINITION. The named operations over the parts of the state: parts by index, register cells and counters, free values, the
bytes and lines of physical memory, time. -/

namespace Sys2Proof.Machine

/-! ### Parts of the state by index -/

def State.core (s : State) (n : Nat) : Core := AMap.getD s.cores n .reset
def State.setCore (s : State) (n : Nat) (c : Core) : State := { s with cores := AMap.set s.cores n c }
def State.bay (s : State) (b : Nat) : Bay := AMap.getD s.bays b .empty
def State.setBay (s : State) (b : Nat) (x : Bay) : State := { s with bays := AMap.set s.bays b x }
def State.batcher (s : State) (b : Nat) : Batcher := AMap.getD s.batchers b .empty
def State.setBatcher (s : State) (b : Nat) (x : Batcher) : State := { s with batchers := AMap.set s.batchers b x }
def State.inst? (s : State) (i : Nat) : Option Inst := AMap.get? s.insts i
def State.setInst (s : State) (i : Nat) (x : Inst) : State := { s with insts := AMap.set s.insts i x }
def State.queue (s : State) (q : Nat) : HandleQueue := AMap.getD s.queues q .empty
def State.setQueue (s : State) (q : Nat) (x : HandleQueue) : State := { s with queues := AMap.set s.queues q x }
def State.stream (s : State) (i : Nat) : Stream := AMap.getD s.streams i .idle
def State.setStream (s : State) (i : Nat) (x : Stream) : State := { s with streams := AMap.set s.streams i x }
def State.seqCtx (s : State) (q : Nat) : SeqCtx := AMap.getD s.seqs q .idle
def State.setSeq (s : State) (q : Nat) (x : SeqCtx) : State := { s with seqs := AMap.set s.seqs q x }
def State.peer (s : State) (p : Nat) : Peer := AMap.getD s.net.peers p .fresh
def State.setPeer (s : State) (p : Nat) (x : Peer) : State := { s with net := { s.net with peers := AMap.set s.net.peers p x } }
def State.conn (s : State) (c : Nat) : Conn := AMap.getD s.net.conns c .idle
def State.setConn (s : State) (c : Nat) (x : Conn) : State := { s with net := { s.net with conns := AMap.set s.net.conns c x } }
def State.setPort (s : State) (x : Port) : State := { s with net := { s.net with port := x } }
def State.aport (s : State) (p : Nat) : AudioPort := AMap.getD s.audio.ports p .off
def State.setAport (s : State) (p : Nat) (x : AudioPort) : State :=
  { s with audio := { s.audio with ports := AMap.set s.audio.ports p x } }
def State.agroup (s : State) (g : Nat) : AudioGroup := AMap.getD s.audio.groups g .idle
def State.setAgroup (s : State) (g : Nat) (x : AudioGroup) : State :=
  { s with audio := { s.audio with groups := AMap.set s.audio.groups g x } }
/-- A packet or message leaves without sequence state. -/
def State.sendItem (s : State) (x : SentItem) : State := { s with net := { s.net with sent := s.net.sent ++ [x] } }
/-- What leaves in no frame, or in a MAC control frame. -/
def State.send (s : State) (x : Sent) : State := s.sendItem ⟨x, none, none⟩

/-! ### Registers -/

/-- A register's cell; a register that is not listed stands at its Reset value with nothing staged (00 R12). -/
def State.cell (s : State) (key : Nat) : RegCell := AMap.getD s.regs key ⟨resetOf key, none⟩

/-- The value in force. -/
def State.reg (s : State) (key : Nat) : Word := (s.cell key).value

/-- The latest value written, staged or in force. -/
def State.latest (s : State) (key : Nat) : Word := ((s.cell key).staged).getD (s.cell key).value

/-- A register pair's value in force (12 R300). -/
def State.reg64 (s : State) (lo hi : Nat) : W64 := pair (s.reg lo) (s.reg hi)

/-- Put a value in force; what is staged stays. -/
def State.setReg (s : State) (key : Nat) (v : Word) : State :=
  { s with regs := AMap.set s.regs key ⟨v, (s.cell key).staged⟩ }

/-- Stage a value; the last write before the boundary wins (12 R290). -/
def State.stage (s : State) (key : Nat) (v : Word) : State :=
  { s with regs := AMap.set s.regs key ⟨s.reg key, some v⟩ }

/-- Apply what is staged in one register (12 R293). -/
def State.applyStaged (s : State) (key : Nat) : State :=
  match AMap.get? s.regs key with
  | some ⟨_, some v⟩ => { s with regs := AMap.set s.regs key ⟨v, none⟩ }
  | _ => s

/-- Apply what is staged in each register of a list. -/
def State.applyAll (s : State) (keys : List Nat) : State := keys.foldl State.applyStaged s

/-- Apply every staged value whose place passes a test. -/
def State.applyWhere (s : State) (p : Nat → Bool) : State :=
  { s with regs := AMap.mapVals (fun k c => if p k then ⟨(c.staged).getD c.value, none⟩ else c) s.regs }

/-- Add to a counter of `bits` bits that stands at bit `lo` of its register and saturates (12 R305). -/
def State.countSat (s : State) (key bits lo n : Nat) : State :=
  let v := s.reg key
  let old := fld v (lo + bits - 1) lo
  let new := min (old + n) (2 ^ bits - 1)
  s.setReg key ((v &&& ~~~(at_ (2 ^ bits - 1) lo)) ||| at_ new lo)

/-- Add to a 32-bit counter that wraps. -/
def State.countWrap (s : State) (key n : Nat) : State := s.setReg key (s.reg key + w32 n)

/-- Add to a 16-bit counter that saturates. -/
def State.count16 (s : State) (key : Nat) : State := s.countSat key 16 0 1

/-- Add to a 32-bit counter that saturates. -/
def State.count32 (s : State) (key n : Nat) : State := s.countSat key 32 0 n

/-- Add to a 64-bit counter over a register pair, which wraps. -/
def State.count64 (s : State) (lo hi n : Nat) : State :=
  let v := s.reg64 lo hi + BitVec.ofNat 64 n
  (s.setReg lo (lo32 v)).setReg hi (hi32 v)

/-- Keep the larger of a register's value and a number, saturating at `bits` bits. -/
def State.keepMax (s : State) (key bits n : Nat) : State :=
  s.setReg key (w32 (max (s.reg key).toNat (min n (2 ^ bits - 1))))

/-- A status bit that is live until a register is read arises (12 R291). -/
def State.latch (s : State) (status bitNo : Nat) : State :=
  { s with latches := AMap.set s.latches status (AMap.getD s.latches status 0 ||| at_ 1 bitNo) }

/-- The read that ends a status bit's cause (12 R291). -/
def State.unlatch (s : State) (status bitNo : Nat) : State :=
  { s with latches := AMap.set s.latches status (AMap.getD s.latches status 0 &&& ~~~(at_ 1 bitNo)) }

/-- The latched bits of a status register. -/
def State.latched (s : State) (status : Nat) : Word := AMap.getD s.latches status 0

/-! ### Free values and time -/

/-- Draw a free value: the model names no value for it (log 5). -/
def State.draw (s : State) : W64 × State := (Config.freeValue s.free, { s with free := s.free + 1 })

/-- An upset of a crib word (04 R84): a lost bit is corrected and counted; a word that loses two holds an uncorrectable error, which marks its
data when it is read. The reservations of a core are taken in instance order. -/
def State.cribUpset (s : State) (u : Fin 36 × Nat × Nat × Bool) : State :=
  if u.2.2.2 then
    let t := s.count32 (Reg.CORE_CORR_ERR u.1.val) 1
    { t with tel := { t.tel with cribErrors := AMap.set t.tel.cribErrors u.1.val (AMap.getD t.tel.cribErrors u.1.val 0 + 1) } }
  else
    match (s.insts.filter fun e => e.2.core = u.1.val && e.2.state ≠ .ready)[u.2.1]? with
    | some (i, x) => s.setInst i { x with cribUe := setInsert x.cribUe (u.2.2.1 % (x.desc.cribUnits * 65536) / 8) }
    | none => s

/-- One REFCLK period passes: the local interval counter counts, unless REFCLK is lost (01 R24, 17 R403). Staged weights apply as a window
of 100 µs begins (10 "Ethernet and Bale registers"); a crib word may be upset (04 R84). -/
def tick (s : State) : State :=
  if s.power.refclk then
    let t : State := { s with lic := s.lic + 1 }
    let t1 : State :=
      if t.lic.toNat % 15625 = 0 then
        let u := t.applyStaged Reg.EB_WEIGHT
        { u with net := { u.net with telemBytes := 0 } }
      else t
    match Config.cribUpset s.lic with
    | some u => t1.cribUpset u
    | none => t1
  else s

/-- REFCLK periods since a reading of the local interval counter (01 R24: it wraps at 64 bits). -/
def State.since (s : State) (t : W64) : Nat := (s.lic - t).toNat

/-- The device is in service: commands that need running islands have their effect (13 R331, 16 R379). -/
def State.inService (s : State) : Bool := s.power.phase = .service

/-! ### Physical memory -/

/-- The byte at a physical address; what nothing has written reads zero (16 R383; log 6). -/
def State.byte (s : State) (a : Nat) : Byte := AMap.getD s.mem a 0

/-- Memory with one byte written, in canonical form: a zero byte is not listed. -/
def memPut (m : AMap Byte) (a : Nat) (b : Byte) : AMap Byte := if b = 0 then AMap.erase m a else AMap.set m a b

/-- Memory with a run of bytes written. -/
def memPutAll (m : AMap Byte) (a : Nat) : Bytes → AMap Byte
  | [] => m
  | b :: rest => memPutAll (memPut m a b) (a + 1) rest

/-- A run of bytes read from a map where an unlisted byte is zero. -/
def memGet (m : AMap Byte) (a len : Nat) : Bytes := (List.range len).map fun i => AMap.getD m (a + i) 0

/-- The canonical form of memory: addresses strictly rising, no entry equal to what an unlisted address reads as. -/
abbrev Memory.wf (m : AMap Byte) : Prop := AMap.wf m = true ∧ ∀ e ∈ m, e.2 ≠ 0

/-- The lines that a run of bytes touches (01 R13: 64 bytes). -/
def linesOf (a len : Nat) : List Nat :=
  if len = 0 then [] else (List.range ((a + len - 1) / 64 - a / 64 + 1)).map (· + a / 64)

/-- A run of physical bytes. -/
def State.physRead (s : State) (a len : Nat) : Bytes := memGet s.mem a len

/-- The 64-bit little-endian word at a physical address. -/
def State.phys64 (s : State) (a : Nat) : W64 := BitVec.ofNat 64 (leNat (s.physRead a 8))

/-- A line of a run is chaff-marked. -/
def State.physChaff (s : State) (a len : Nat) : Bool := (linesOf a len).any fun l => s.chaff.contains l

/-- The lines of a run with an uncorrectable error (03 R54). -/
def State.physUe (s : State) (a len : Nat) : List Nat := (linesOf a len).filter fun l => s.ue.contains l

/-- Lines that a run of bytes covers whole. -/
def wholeLines (a len : Nat) : List Nat := (linesOf a len).filter fun l => decide (a ≤ l * 64 ∧ l * 64 + 64 ≤ a + len)

/-- Marks after a write: a marked write marks every line that it touches; a clean write clears the marks of the lines that it
covers whole and leaves the others (01 R13, 03 R54). -/
def markLines (marks : List Nat) (a len : Nat) (chaff : Bool) : List Nat :=
  if chaff then (linesOf a len).foldl setInsert marks else (wholeLines a len).foldl setRemove marks

/-- Write a run of bytes, with its mark, at a physical address. -/
def State.physWrite (s : State) (a : Nat) (bs : Bytes) (chaff : Bool) : State :=
  { s with
    mem := memPutAll s.mem a bs
    chaff := markLines s.chaff a bs.length chaff
    ue := (wholeLines a bs.length).foldl setRemove s.ue }

/-- Write a 64-bit little-endian word: a page-table entry. -/
def State.physWrite64 (s : State) (a : Nat) (w : W64) : State :=
  { s with mem := memPutAll s.mem a (leBytes 8 w.toNat) }

/-- Clear a run of physical memory: zero, no marks (16 R383, 03 R388). -/
def State.physClear (s : State) (a len : Nat) : State :=
  { s with
    mem := AMap.keep (fun k _ => !decide (a ≤ k ∧ k < a + len)) s.mem
    chaff := s.chaff.filter fun l => !decide (a ≤ l * 64 ∧ l * 64 < a + len)
    ue := s.ue.filter fun l => !decide (a ≤ l * 64 ∧ l * 64 < a + len) }

/-- Copy a run of physical memory with its marks, line by line (03 R77). -/
def State.physCopy (s : State) (src dst len : Nat) : State :=
  let moved := (AMap.keep (fun k _ => decide (src ≤ k ∧ k < src + len)) s.mem)
  let cleared := s.physClear dst len
  { cleared with
    mem := moved.foldl (fun m e => memPut m (dst + (e.1 - src)) e.2) cleared.mem
    chaff := (s.chaff.filter fun l => decide (src ≤ l * 64 ∧ l * 64 < src + len)).foldl
      (fun c l => setInsert c (l - src / 64 + dst / 64)) cleared.chaff }

end Sys2Proof.Machine
end

