-- ==== Sys2Proof/Machine/Image.lean ====
section
/-! DEFINITION. What an image says (02 R28 to R34): the parse of its header, sections and entries, and what the applied tables
make of bays, cores, windows, queues, classes and routes. -/

namespace Sys2Proof.Machine

/-! ### Section bodies -/

/-- Section type of a slot section's table entry (02 R30). -/
def SlotSection.type (x : SlotSection) : Nat := leAt x.entry 0x00 2
/-- Bay field of a slot section's table entry (02 R30). -/
def SlotSection.slot (x : SlotSection) : Nat := leAt x.entry 0x02 1

/-- The entries of a body, `size` bytes each. -/
def entriesOf (size : Nat) (body : Bytes) : List Bytes :=
  if size = 0 then [] else (List.range (body.length / size)).map fun i => slice body (i * size) size

/-- The body of the section of a type in a slot, if it has one (02 R32). -/
def bodyOf (copy : SlotCopy) (type : Nat) : Option Bytes := (copy.find? fun x => x.type = type).map (·.body)

/-- The entries of the section of a type in a slot. -/
def sectionEntries (copy : SlotCopy) (type size : Nat) : List Bytes := entriesOf size ((bodyOf copy type).getD [])

/-- Entry size of a section type and whether it is global (02 R32). -/
def sectionShape (type : Nat) : Option (Nat × Bool) :=
  match type with
  | 0x0001 => some (64, false) | 0x0002 => some (32, false) | 0x0003 => some (8, false) | 0x0004 => some (16, false)
  | 0x0005 => some (64, false) | 0x0006 => some (256, false) | 0x0101 => some (16, true) | 0x0102 => some (16, true)
  | _ => none

/-- A BAYDEF entry (02 R33). -/
structure BayDef where
  coreMask : Nat
  relay : Bool
  dropLate : Bool
  graphs : Nat
  lcBound : Nat
  /-- Quotas of loft, Silo and Granary, in 2 MiB units. -/
  quotas : List Nat
  firstSid : Nat
  sids : Nat
  firstSeq : Nat
  seqs : Nat
  firstQueue : Nat
  queues : Nat
  handleEntries : Nat
  root : Nat
  deriving DecidableEq, Repr

def parseBayDef (e : Bytes) : BayDef :=
  { coreMask := leAt e 0x00 8, relay := leAt e 0x08 1 = 1, dropLate := leAt e 0x09 1 % 2 = 1, graphs := leAt e 0x0A 2
    lcBound := leAt e 0x0C 4, quotas := [leAt e 0x10 4, leAt e 0x14 4, leAt e 0x18 4]
    firstSid := leAt e 0x1C 2, sids := leAt e 0x1E 2, firstSeq := leAt e 0x20 2, seqs := leAt e 0x22 2
    firstQueue := leAt e 0x24 2, queues := leAt e 0x26 2, handleEntries := leAt e 0x28 4, root := leAt e 0x30 8 }

/-- A WINDOWS entry (02 R33). -/
structure Window where
  base : Nat
  len : Nat
  tier : Nat
  writable : Bool
  sheafVisible : Bool
  hostVisible : Bool
  deriving DecidableEq, Repr

def parseWindow (e : Bytes) : Window :=
  let f := leAt e 0x11 1
  { base := leAt e 0 8, len := leAt e 8 8, tier := leAt e 0x10 1, writable := f % 2 = 1, sheafVisible := f / 2 % 2 = 1
    hostVisible := f / 4 % 2 = 1 }

/-- A QUEUES entry (02 R33): producer and consumer kinds 0 core, 1 bank-side engine, 2 Bale engine, 3 audio port. -/
structure QueueDef where
  index : Nat
  depth : Nat
  producer : Nat
  consumer : Nat
  deriving DecidableEq, Repr

def parseQueue (e : Bytes) : QueueDef := ⟨leAt e 0 2, leAt e 2 2, leAt e 4 1, leAt e 5 1⟩

/-- A CLASSPOL entry (02 R33). -/
structure ClassPol where
  graph : Nat
  be : Bool
  dropLate : Bool
  deadline : Nat
  deriving DecidableEq, Repr

def parseClassPol (e : Bytes) : ClassPol := ⟨leAt e 0 2, leAt e 2 1 = 1, leAt e 3 1 = 1, leAt e 4 4⟩

/-- An AUDIOROUTE entry (02 R33). -/
structure AudioRoute where
  port : Nat
  bay : Nat
  sid : Nat
  playback : Bool
  group : Option Nat
  deriving DecidableEq, Repr

def parseRoute (e : Bytes) : AudioRoute :=
  let g := leAt e 5 1
  { port := leAt e 0 1, bay := leAt e 1 1, sid := leAt e 2 2, playback := leAt e 4 1 = 1
    group := if g = 0xFF then none else some g }

/-- A TELRES entry (02 R33): bay 16 stands for 0xFF, the device. -/
structure TelRes where
  ring : Nat
  share : Nat
  mib : Nat
  deriving DecidableEq, Repr

def parseTelRes (e : Bytes) : TelRes :=
  let b := leAt e 0 1
  ⟨if b = 0xFF then 16 else if b < 16 then b else 17, leAt e 2 2, leAt e 4 4⟩

/-! ### The commit record and the store -/

/-- The commit record that a copy spells, where its CRC is right (02 R38, R39). -/
def parseRecord (c : Bytes) : Option CommitRecord :=
  if c.length = 32 && leAt c 0x1C 4 = (crc32c (c.take 0x1C)).toNat then
    some ⟨BitVec.ofNat 32 (leAt c 0 4), BitVec.ofNat 17 (leAt c 4 4), BitVec.ofNat 17 (leAt c 8 4), BitVec.ofNat 16 (leAt c 0xC 4),
      BitVec.ofNat 64 (leAt c 0x10 8)⟩
  else none

/-- The record that a restart takes: of two copies whose CRC is right the later one, modulo 2^32 (02 R39). -/
def Loader.validRecord (l : Loader) : CommitRecord :=
  match parseRecord l.copyA, parseRecord l.copyB with
  | some a, some b => if seqLt a.seq b.seq then b else a
  | some a, none => a
  | none, some b => b
  | none, none => .empty

/-- A bank's slots. -/
def Loader.bank (l : Loader) (one : Bool) : AMap SlotCopy := if one then l.bank1 else l.bank0

/-- The loader with one slot of a bank replaced or emptied. -/
def Loader.setBank (l : Loader) (one : Bool) (slot : Nat) (c : Option SlotCopy) : Loader :=
  let upd := fun m => match c with | some x => AMap.set m slot x | none => AMap.erase m slot
  if one then { l with bank1 := upd l.bank1 } else { l with bank0 := upd l.bank0 }

/-- The contents of a slot's active bank under a record, if the slot is defined (02 R37, R38). -/
def Loader.activeCopy (l : Loader) (r : CommitRecord) (slot : Nat) : Option SlotCopy :=
  if bit r.defined slot then some (AMap.getD (l.bank (bit r.active slot)) slot []) else none

/-- The slots in the order of R49: global, B0 … B15. -/
def slotOrder : List Nat := 16 :: List.range 16

/-- What the live CRC takes for one slot (02 R49): each table entry with its offset field zero, then the body. -/
def crcBytes (c : SlotCopy) : Bytes :=
  c.flatMap fun x => x.entry.take 4 ++ [0, 0, 0, 0] ++ x.entry.drop 8 ++ x.body

/-! ### The applied tables -/

/-- The applied tables of a slot. -/
def State.applied (s : State) (slot : Nat) : Option SlotCopy := AMap.get? s.loader.applied slot

/-- The BAYDEF in force of a bay. -/
def State.bayDef (s : State) (b : Nat) : Option BayDef :=
  (s.applied b).bind fun c => ((sectionEntries c 1 64).head?).map parseBayDef

def State.windows (s : State) (b : Nat) : List Window := (sectionEntries ((s.applied b).getD []) 2 32).map parseWindow
def State.queueDefs (s : State) (b : Nat) : List QueueDef := (sectionEntries ((s.applied b).getD []) 3 8).map parseQueue
def State.classPols (s : State) (b : Nat) : List ClassPol := (sectionEntries ((s.applied b).getD []) 4 16).map parseClassPol
def State.templates (s : State) (b : Nat) : List Bytes := sectionEntries ((s.applied b).getD []) 5 64
def State.swathEntry (s : State) (b i : Nat) : Option Bytes := (sectionEntries ((s.applied b).getD []) 6 256)[i]?
def State.routes (s : State) : List AudioRoute := (sectionEntries ((s.applied 16).getD []) 0x101 16).map parseRoute

/-- The class policy of a graph, by the first entry for it (log 89); a graph without an entry is LC, processed late, with no deadline stated. -/
def State.classOf (s : State) (b g : Nat) : ClassPol :=
  ((s.classPols b).find? fun p => p.graph = g).getD ⟨g, false, false, 0⟩

/-- The QUEUES entry of a device-wide queue index, with its bay. DESIGN CHOICE: of two entries of a section for one queue, graph or port the first
is in force; the loader accepts both (log 89). -/
def State.queueDef (s : State) (q : Nat) : Option (Nat × QueueDef) :=
  (List.range 16).findSome? fun b => ((s.queueDefs b).find? fun d => d.index = q).map fun d => (b, d)

/-- The bay whose stream ID range holds a SID (01 R26, 02 R33). -/
def State.bayOfSid (s : State) (sid : Nat) : Option Nat :=
  (List.range 16).find? fun b =>
    match s.bayDef b with
    | some d => decide (d.firstSid ≤ sid ∧ sid < d.firstSid + d.sids)
    | none => false

/-- The bay whose sequence context range holds q. -/
def State.bayOfSeq (s : State) (q : Nat) : Option Nat :=
  (List.range 16).find? fun b =>
    match s.bayDef b with
    | some d => decide (d.firstSeq ≤ q ∧ q < d.firstSeq + d.seqs)
    | none => false

/-- Defined bays, by number. -/
def State.definedBays (s : State) : List Nat := (List.range 16).filter fun b => (s.bayDef b).isSome

/-- The mode of a bay: true for relay (02 R33). -/
def State.relay (s : State) (b : Nat) : Bool := match s.bayDef b with | some d => d.relay | none => false

/-! ### Cores -/

/-- A core passed manufacturing test (12 R308). -/
def State.corePresent (s : State) (n : Nat) : Bool := decide (n < 36) && s.fuses.present.getLsbD n

/-- The spare core of a die, none where the spare is active in place of a core that failed test (12 R308). -/
def State.spareOf (s : State) (die : Nat) : Option Nat :=
  let i := fld s.fuses.spare (die * 4 + 3) (die * 4)
  if i < 9 then some (die * 9 + i) else none

/-- The active cores are the present ones less the spares (12 R308). -/
def State.coreActive (s : State) (n : Nat) : Bool := s.corePresent n && decide (s.spareOf (n / 9) ≠ some n)

/-- The core whose work a die's spare carries, if it is substituted (02 R38). -/
def substituted (r : CommitRecord) (die : Nat) : Option Nat :=
  let i := fld r.spareSub (die * 4 + 3) (die * 4)
  if i < 9 then some (die * 9 + i) else none

/-- The physical core that carries the work of a core that an image names (02 R47). -/
def State.mapCore (s : State) (r : CommitRecord) (n : Nat) : Nat :=
  if substituted r (n / 9) = some n then (s.spareOf (n / 9)).getD n else n

/-- The cores that a core mask names, in number order. -/
def maskCores (mask : Nat) : List Nat := (List.range 36).filter fun n => mask.testBit n

/-- The physical cores of a bay, substitution applied, in number order (02 R47). -/
def State.bayCores (s : State) (b : Nat) : List Nat :=
  match s.bayDef b with
  | some d =>
    let named := (maskCores d.coreMask).map (s.mapCore s.loader.record)
    (List.range 36).filter fun n => named.contains n
  | none => []

/-- The bay that a physical core works for. -/
def State.coreBay (s : State) (n : Nat) : Option Nat := (List.range 16).find? fun b => (s.bayCores b).contains n

/-- `CORE_STATUS.ROLE` (04 "Core registers"; 12 R298, R308; 16 R382): 2 fenced, 3 an unused spare, 1 in a bay, 0 unassigned. -/
def State.coreRole (s : State) (n : Nat) : Nat :=
  if !s.corePresent n || (s.core n).faultFenced || (s.core n).moveFenced || bit s.tiers.loftsFailed (n / 9) then 2
  else if (s.coreBay n).isSome then 1
  else if s.spareOf (n / 9) = some n then 3
  else if substituted s.loader.record (n / 9) = some n then 2
  else 0

/-- The die of a core (00 R13). -/
def dieOf (n : Nat) : Nat := n / 9

/-- The place of a control-space register as its canonical address (12 R306, R307): a bay's registers are given in the window of the
bay's lowest-numbered core (log 13). -/
def State.canonical (s : State) (key : Nat) : Nat :=
  let a := keyAddr key
  if a < 0x06000000 then a
  else
    let b := (a - 0x06000000) / 0x400
    coreBase ((s.bayCores b).head?.getD 0) + 0x8000 + (a - 0x06000000) % 0x400

end Sys2Proof.Machine
end

