-- ==== Sys2Proof/Machine/Swath.lean ====
section
/-! DEFINITION. Swath instructions and the checks of swath programs (09 R210, R212); sheaf descriptors and their checks (04 R87,
R108); the checks of every section entry at staging (02 R410). -/

namespace Sys2Proof.Machine

/-- A swath instruction (09 R210). -/
inductive SwOp where
  | end_ (nextLayer : Bool) (round : Nat)
  | base (a : Nat) (va : Nat)
  | rowbase (a source rowLevel stepLevel : Nat) (offset : Int)
  | loop (level count : Nat)
  | step (level : Nat) (crib : Bool) (a : Nat) (stride : Int)
  | cset (area offset : Nat)
  | move (a : Nat) (toMemory : Bool) (length : Nat)
  | get (a pool : Nat)
  | wait (a queue : Nat)
  | signal (a queue : Nat) (last : Bool) (rowLevel length : Nat)
  | free (a : Nat)
  | syncPost (token count : Nat)
  | syncWait (token count : Nat)
  | endloop (level : Nat)
  | rotate (token tiles round : Nat)
  deriving DecidableEq, Repr

/-- The bits of an instruction word that its operation uses (09 R210). -/
def swMask (op : Nat) : W64 :=
  match op with
  | 0x0 => 0xF0000000FFFF0001 | 0x1 => 0xFFFFFFFFFFFFFFFF | 0x2 => 0xFFFF0000FFFFFFFF | 0x3 => 0xFE000000000FFFFF
  | 0x4 => 0xFFFFFFFFFFFFFFFF | 0x5 => 0xF300000000FFFFFF | 0x6 => 0xFF000000000FFFFF | 0x7 => 0xFFC0000000000000
  | 0x8 => 0xFF00000000000000 | 0x9 => 0xFFF00000000FFFFF | 0xA => 0xFE00000000000000 | 0xB => 0xFF0000000000FFFF
  | 0xC => 0xFE00000000000000 | 0xD => 0xFE00FFFFFFFF0000
  | _ => 0

/-- Decode an instruction word; none for a reserved operation (09 R210). -/
def decodeSw (w : W64) : Option SwOp :=
  let a := fld w 59 57
  match fld w 63 60 with
  | 0x0 => some (.end_ (bit w 0) (fld w 31 16))
  | 0x1 => some (.base a (fld w 56 0))
  | 0x2 => some (.rowbase a (fld w 56 54) (fld w 53 51) (fld w 50 48) (signedOf 32 (fld w 31 0)))
  | 0x3 => some (.loop a (fld w 19 0))
  | 0x4 => some (.step a (bit w 56) (fld w 55 53) (signedOf 53 (fld w 52 0)))
  | 0x5 => some (.cset (fld w 57 56) (fld w 23 0))
  | 0x6 => some (.move a (bit w 56) (fld w 19 0))
  | 0x7 => some (.get a (fld w 56 54))
  | 0x8 => some (.wait a (fld w 56 56))
  | 0x9 => some (.signal a (fld w 56 56) (bit w 55) (fld w 54 52) (fld w 19 0))
  | 0xA => some (.free a)
  | 0xB => some (if bit w 59 then .syncWait (fld w 58 56) (fld w 15 0) else .syncPost (fld w 58 56) (fld w 15 0))
  | 0xC => some (.endloop a)
  | 0xD => some (.rotate a (fld w 47 32) (fld w 31 16))
  | _ => none

/-- The instruction word at a slot of a SWATH entry. -/
def swWord (e : Bytes) (i : Nat) : W64 := BitVec.ofNat 64 (leAt e (i * 8) 8)

/-- The instruction at a slot of a SWATH entry. -/
def swAt (e : Bytes) (i : Nat) : Option SwOp := if i < 32 then decodeSw (swWord e i) else none

/-- The fields of an instruction lie within the limits that 09 R210 to R212 give. -/
def swFieldsOk (o : SwOp) : Bool :=
  match o with
  | .rowbase _ src r t _ => decide (src ≤ 2 ∧ r ≤ 5 ∧ t ≤ 5)
  | .loop l _ => decide (l ≤ 5)
  | .step l _ _ _ => decide (l ≤ 5)
  | .cset area _ => decide (area ≤ 1)
  | .move _ _ len => decide (1 ≤ len)
  | .signal _ _ _ r _ => decide (r ≤ 5 ∨ r = 7)
  | .endloop l => decide (l ≤ 5)
  | .rotate _ tiles _ => decide (1 ≤ tiles)
  | _ => true

/-- The loop structure of a program up to its END: the open levels innermost first, and the level whose STEPs may stand here (09
R212). -/
def swLoopsOk : List SwOp → List Nat → Option Nat → Bool
  | [], _, _ => false
  | .end_ _ _ :: _, opened, _ => opened.isEmpty
  | .loop l _ :: rest, opened, _ => !opened.contains l && swLoopsOk rest (l :: opened) (some l)
  | .step l _ _ _ :: rest, opened, at_ => decide (at_ = some l) && swLoopsOk rest opened at_
  | .endloop l :: rest, opened, _ => decide (opened.head? = some l) && swLoopsOk rest (opened.drop 1) none
  | _ :: rest, opened, _ => swLoopsOk rest opened none

/-- A SWATH entry passes the checks of 09 R212. -/
def swathOk (e : Bytes) : Bool :=
  let words := (List.range 32).map (swWord e)
  let ops := words.filterMap decodeSw
  decide (ops.length = 32) && words.all (fun w => decide (w &&& ~~~(swMask (fld w 63 60)) = 0)) && ops.all swFieldsOk &&
    swLoopsOk ops [] none

/-- The END of a SWATH entry: whether it is marked NEXT_LAYER (09 R210). -/
def swathNextLayer (e : Bytes) : Bool :=
  match ((List.range 32).filterMap (swAt e)).find? fun o => match o with | .end_ _ _ => true | _ => false with
  | some (.end_ n _) => n
  | _ => false

/-! ### Sheaf descriptors -/

def parseSheaf (e : Bytes) : SheafDesc :=
  let f := leAt e 0x01 1
  { graph := leAt e 0x00 1, be := f % 2 = 1, roundEven := f / 2 % 2 = 1, replay := f / 4 % 2 = 1, node := leAt e 0x02 2
    rowCount := leAt e 0x04 1, engines := leAt e 0x05 1, cribUnits := leAt e 0x06 2
    rowTable := BitVec.ofNat 64 (leAt e 0x08 8), inputProg := leAt e 0x10 2, weightProg := leAt e 0x12 2
    outputProg := leAt e 0x14 2, nextProg := leAt e 0x16 2, consume0 := leAt e 0x18 2, consume1 := leAt e 0x1A 2
    produce0 := leAt e 0x1C 2, produce1 := leAt e 0x1E 2, resetMasks := BitVec.ofNat 64 (leAt e 0x20 8)
    deadline := BitVec.ofNat 64 (leAt e 0x28 8), engineTime := leAt e 0x30 4, stagger := leAt e 0x34 2
    steps := leAt e 0x36 2 }

/-- No queue, no program. -/
def noField : Nat := 0xFFFF

/-- The reserved fields of a descriptor are zero (04 R87). -/
def sheafReservedOk (e : Bytes) : Bool :=
  leAt e 0x01 1 / 8 = 0 && leAt e 0x05 1 / 16 = 0 && leAt e 0x3C 4 = 0

/-- Every field of a descriptor that is not set at instantiation lies within the limits of 04 R87. `graphs` is the bay's graph
count. -/
def sheafLimitsOk (d : SheafDesc) (graphs : Nat) : Bool :=
  decide (d.graph < graphs ∧ 1 ≤ d.rowCount ∧ d.rowCount ≤ 64 ∧ d.engines < 16 ∧ 1 ≤ d.cribUnits ∧ d.cribUnits ≤ 256 ∧
    d.engineTime ≤ 20000 ∧ 1 ≤ d.steps ∧ d.steps ≤ 64 ∧ d.resetMasks.toNat % 8 = 0)

/-- A BE descriptor's deadline is all ones (04 R87). -/
def sheafDeadlineOk (d : SheafDesc) : Bool := !d.be || d.deadline = 0xFFFFFFFFFFFFFFFF#64

/-- The queue fields that name a queue. -/
def sheafQueues (d : SheafDesc) : List Nat :=
  [d.consume0, d.consume1, d.produce0, d.produce1].filter fun q => q ≠ noField

/-- The SWATH indexes that a descriptor names; input and output programs are always named (04 R87). -/
def sheafPrograms (d : SheafDesc) : List Nat :=
  [d.inputProg, d.outputProg] ++ [d.weightProg, d.nextProg].filter fun p => p ≠ noField

/-- The next-layer field names a program marked NEXT_LAYER and the other fields name unmarked ones (09 R212). -/
def sheafNextOk (d : SheafDesc) (swath : Nat → Option Bytes) : Bool :=
  let marked := fun i => match swath i with | some e => swathNextLayer e | none => false
  !marked d.inputProg && !marked d.outputProg && (d.weightProg = noField || !marked d.weightProg) &&
    (d.nextProg = noField || marked d.nextProg)

/-! ### Entry checks at staging (02 R410) -/

/-- A list has no element twice. -/
def noTwice (l : List Nat) : Bool :=
  match l with
  | [] => true
  | x :: rest => !rest.contains x && noTwice rest

/-- Ranges of a BAYDEF entry (02 R33, R410) against the image's QUEUES entries of its bay. -/
def bayDefOk (e : Bytes) (queues : List QueueDef) : Bool :=
  let d := parseBayDef e
  decide (d.coreMask < 2 ^ 36 ∧ 1 ≤ (maskCores d.coreMask).length ∧ (maskCores d.coreMask).length ≤ 32) &&
    decide (leAt e 0x08 1 ≤ 1) && decide (leAt e 0x09 1 ≤ 1) && decide (1 ≤ d.graphs ∧ d.graphs ≤ 256) &&
    decide (100 ≤ d.lcBound ∧ d.lcBound ≤ 1000000) && decide (d.sids ≤ 16384 ∧ d.firstSid + d.sids ≤ 16384) &&
    decide (d.firstSeq ≤ 8191 ∧ d.seqs ≤ 8192 ∧ d.firstSeq + d.seqs ≤ 8192) &&
    decide (d.firstQueue ≤ 4095 ∧ 1 ≤ d.queues ∧ d.queues ≤ 4096 ∧ d.firstQueue + d.queues ≤ 4096) &&
    decide (d.handleEntries = (queues.map (·.depth)).sum) && allZero (slice e 0x2C 4) && d.root % 4096 = 0 &&
    decide (d.root < 2 ^ 52) && allZero (slice e 0x38 8)

def windowOk (e : Bytes) : Bool :=
  let w := parseWindow e
  w.base % 65536 = 0 && w.len % 65536 = 0 && decide (w.tier ≤ 2) && decide (leAt e 0x11 1 < 8) && allZero (slice e 0x12 14)

/-- A QUEUES entry: within the bay's range, depth and kinds in range (02 R33). -/
def queueOk (d : BayDef) (e : Bytes) : Bool :=
  let q := parseQueue e
  decide (d.firstQueue ≤ q.index ∧ q.index < d.firstQueue + d.queues ∧ 16 ≤ q.depth ∧ q.depth ≤ 1024 ∧ q.producer ≤ 3 ∧
    q.consumer ≤ 3) && allZero (slice e 6 2)

/-- Every queue of consumer kind 1 is paired with the next index, of producer kind 1 (09 R223). -/
def pairedOk (qs : List QueueDef) (q : QueueDef) : Bool :=
  q.consumer ≠ 1 || qs.any fun x => x.index = q.index + 1 && x.producer = 1

def classPolOk (d : BayDef) (e : Bytes) : Bool :=
  decide (leAt e 0 2 < d.graphs ∧ leAt e 2 1 ≤ 1 ∧ leAt e 3 1 ≤ 1) && allZero (slice e 8 8)

/-- The template that starts a graph is the graph's first in the section (06 R151). -/
def entryTemplate (templates : List Bytes) (g : Nat) : Option Nat :=
  (List.range templates.length).find? fun i => match templates[i]? with | some t => leAt t 0 1 = g | none => false

/-- A template is triggered: its consume queue 0 is named and it is not its graph's entry template (09 R221). -/
def triggered (templates : List Bytes) (i : Nat) : Bool :=
  match templates[i]? with
  | some t => (parseSheaf t).consume0 ≠ noField && entryTemplate templates (parseSheaf t).graph ≠ some i
  | none => false

/-- A SHEAFTPL entry (02 R410): limits of 04 R87, its queues and its programs. -/
def templateOk (d : BayDef) (qs : List QueueDef) (swath : Nat → Option Bytes) (e : Bytes) : Bool :=
  let t := parseSheaf e
  sheafReservedOk e && sheafLimitsOk t d.graphs && sheafDeadlineOk t &&
    (sheafQueues t).all (fun q => decide (d.firstQueue ≤ q ∧ q < d.firstQueue + d.queues) && qs.any fun x => x.index = q) &&
    (sheafPrograms t).all (fun i => (swath i).isSome) &&
    sheafNextOk t swath

def routeOk (e : Bytes) : Bool :=
  decide (leAt e 0 1 ≤ 5 ∧ leAt e 1 1 ≤ 15 ∧ leAt e 2 2 ≤ 16383 ∧ leAt e 4 1 ≤ 1 ∧ (leAt e 5 1 ≤ 5 ∨ leAt e 5 1 = 0xFF)) &&
    allZero (slice e 6 10)

/-- One TELRES entry by itself (15 R357). -/
def telResOk (e : Bytes) : Bool :=
  let t := parseTelRes e
  decide (t.ring ≤ 16 ∧ 16 ≤ t.mib ∧ t.mib ≤ 1024) && allZero (slice e 1 1) && allZero (slice e 8 8)

/-- TELRES entries with the device's default added where the image has none for it (15 R357). -/
def telResFull (l : List TelRes) : List TelRes := if l.any (fun t => t.ring = 16) then l else l ++ [⟨16, 20, 256⟩]

/-- The limits over all TELRES entries (15 R357). -/
def telResAllOk (l : List TelRes) : Bool :=
  let f := telResFull l
  decide ((f.map (·.mib)).sum ≤ 4096 ∧ 20 ≤ (f.map (·.share)).sum ∧ (f.map (·.share)).sum ≤ 500) && noTwice (l.map (·.ring))

/-- The entries of one section pass the checks of 02 R410. `copy` holds the sections of the section's own slot. -/
def sectionOk (copy : SlotCopy) (x : SlotSection) : Bool :=
  let qs := (sectionEntries copy 3 8).map parseQueue
  let d := (((sectionEntries copy 1 64).head?).map parseBayDef).getD
    ⟨0, false, false, 0, 0, [], 0, 0, 0, 0, 0, 0, 0, 0⟩
  let swath := fun i => (sectionEntries copy 6 256)[i]?
  let templates := sectionEntries copy 5 64
  match x.type with
  | 0x0001 => (entriesOf 64 x.body).all fun e => bayDefOk e qs
  | 0x0002 => (entriesOf 32 x.body).all windowOk
  | 0x0003 => (entriesOf 8 x.body).all (queueOk d) && qs.all (pairedOk qs)
  | 0x0004 => (entriesOf 16 x.body).all (classPolOk d)
  | 0x0005 =>
    templates.all (templateOk d qs swath) &&
      noTwice (((List.range templates.length).filter (triggered templates)).map fun i =>
        (parseSheaf ((templates[i]?).getD [])).consume0)
  | 0x0006 => (entriesOf 256 x.body).all swathOk
  | 0x0101 => (entriesOf 16 x.body).all routeOk
  | 0x0102 => (entriesOf 16 x.body).all telResOk && telResAllOk ((entriesOf 16 x.body).map parseTelRes)
  | _ => false

end Sys2Proof.Machine
end

