-- ==== Sys2Proof/Machine/TelOps.lean ====
section
/-! DEFINITION. Records and sub-rings of the telemetry hub (15 R354 to R364). -/

namespace Sys2Proof.Machine

/-- A unit field: class in [15:12], index in [11:0]; 0xFFFF for none (15 R354). -/
def telUnit (cls index : Nat) : Nat := cls * 0x1000 + index % 0x1000
/-- No unit. -/
def telNone : Nat := 0xFFFF

/-- The first 16 bytes of a record: kind, length in 16-byte units, bay, reserved, sequence, time (15 R354). -/
def recordHead (kind units bay : Nat) (seq : Word) (time : W64) : Bytes :=
  leBytes 1 kind ++ leBytes 1 units ++ leBytes 1 bay ++ [0] ++ leBytes 4 seq.toNat ++ leBytes 8 time.toNat

/-- A 32-byte record (15 R354, R355). -/
def shortRecord (kind bay : Nat) (time : W64) (code unit : Nat) (arg0 : Word) (arg1 : W64) : Bytes :=
  recordHead kind 2 bay 0 time ++ leBytes 2 code ++ leBytes 2 unit ++ leBytes 4 arg0.toNat ++ leBytes 8 arg1.toNat

/-- The sub-ring that takes a bay's records: its own, or the device's (15 R357). -/
def State.ringOf (s : State) (bay : Nat) : Nat := if (AMap.get? s.tel.rings bay).isSome then bay else 16

def State.ring (s : State) (r : Nat) : SubRing := AMap.getD s.tel.rings r (SubRing.laid 0 0 0)
def State.setRing (s : State) (r : Nat) (x : SubRing) : State := { s with tel := { s.tel with rings := AMap.set s.tel.rings r x } }

/-- The records of a sub-ring that are not acknowledged (15 R358). -/
def SubRing.unacked (x : SubRing) : List TelRecord := x.records.filter fun r => !seqLt r.seq x.acked

/-- Bytes between the oldest record not acknowledged and the head, pads among them. -/
def SubRing.used (x : SubRing) : Nat :=
  match x.unacked with
  | [] => 0
  | r :: rest => if rest.isEmpty || r.offset < x.head then x.head - r.offset else x.size - r.offset + x.head

/-- The part of a sub-ring that logs and traces may fill: all but its last 1 % (15 R362). -/
def SubRing.usable (x : SubRing) : Nat := x.size - x.size / 100

/-- The fill in percent: the share of the size that unacknowledged records hold, 100 once only the kept 1 % is left (15 R362). -/
def SubRing.fill (x : SubRing) : Nat :=
  if x.size = 0 then 0 else if x.used + 32 > x.usable then 100 else x.used * 100 / x.size

/-- Where a record of `len` bytes would lie, and how many bytes it takes with the pad before it (15 R358). -/
def SubRing.place (x : SubRing) (len : Nat) : Nat × Nat :=
  if x.head + len > x.size then (0, x.size - x.head + len) else (x.head, len)

/-- Write a record with the next sequence if it fits below a limit; acknowledged records that it lies over go (15 R358). -/
def SubRing.write (x : SubRing) (limit : Nat) (bytes : Bytes) : Option SubRing :=
  let (off, need) := x.place bytes.length
  if x.used + need > limit then none
  else
    let live := x.records.filter fun r =>
      !(seqLt r.seq x.acked && decide (r.offset < off + bytes.length ∧ off < r.offset + r.bytes.length))
    let stamped := bytes.take 4 ++ leBytes 4 x.seq.toNat ++ bytes.drop 8
    some { x with head := off + bytes.length, seq := x.seq + 1, records := live ++ [⟨x.seq, off, stamped⟩] }

/-- `TEL_SQUALL_CFG` in force (15 "Registers"). -/
def State.enter1 (s : State) : Nat := fld (s.reg Reg.TEL_SQUALL_CFG) 6 0
def State.enter2 (s : State) : Nat := fld (s.reg Reg.TEL_SQUALL_CFG) 14 8
def State.squallExit (s : State) : Nat := fld (s.reg Reg.TEL_SQUALL_CFG) 22 16
def State.squallHold (s : State) : Nat := fld (s.reg Reg.TEL_SQUALL_CFG) 31 24

/-- The bay field of a sub-ring's own records. -/
def ringBay (r : Nat) : Nat := if r = 16 then 0xFF else r

/-- Change a sub-ring's level: a SQUALL log is written (15 R362), SAMPLE starts with k = 1 (R363), a squall starts its first gap
interval, and an entry from CALM counts. -/
def State.setLevel (s : State) (r : Nat) (level : SquallLevel) : State :=
  let x := s.ring r
  let log := shortRecord 1 (ringBay r) s.lic 0x000E telNone (w32 (x.level.code + level.code * 256))
    (BitVec.ofNat 64 x.fill)
  let y := (x.write x.usable log).getD { x with gap := { x.gap with lost := x.gap.lost + 1 } }
  let fromCalm := x.level = .calm
  let z := { y with level := level, below := 0, k := if level = .sample then 1 else y.k
                    gapStart := if fromCalm then s.lic else y.gapStart, lastUsed := if fromCalm then y.used else y.lastUsed }
  let s1 := s.setRing r z
  if fromCalm then s1.countWrap (Reg.TEL_SQUALLS r) 1 else s1

/-- The levels that a fill enters (15 R362): COALESCE at ENTER2, SAMPLE at ENTER1 from CALM. -/
def State.checkEnter (s : State) (r : Nat) : State :=
  let x := s.ring r
  let f := x.fill
  if x.level ≠ .coalesce ∧ f ≥ s.enter2 then s.setLevel r .coalesce
  else if x.level = .calm ∧ f ≥ s.enter1 then s.setLevel r .sample
  else s

/-- Add a log to the summary table: by bay, code and unit; a full table of 256 sends it to the catch-all entry (15 R363). -/
def addSummary (l : List SummaryEntry) (r bay code unit : Nat) (now : W64) (arg1 : W64) : List SummaryEntry :=
  let hit := fun (c u : Nat) (e : SummaryEntry) => e.bay = bay && e.entry.code = c && e.entry.unit = u
  let bump := fun (e : SummaryEntry) =>
    { e with entry := { e.entry with count := min (e.entry.count + 1) 0xFFFFFFFF, latest := now, arg1 := arg1 } }
  if l.any (hit code unit) then l.map fun e => if hit code unit e then bump e else e
  else
    let full := decide ((l.filter fun e => e.entry.code ≠ 0xFFFF).length ≥ 256)
    let c := if full then 0xFFFF else code
    let u := if full then 0xFFFF else unit
    if l.any (hit c u) then l.map fun e => if hit c u e then bump e else e
    else l ++ [⟨r, bay, ⟨c, u, 1, now, now, arg1⟩⟩]

/-- A LOG or TRACE record reaches the hub and is written, sampled, coalesced or dropped by its sub-ring's level (15 R358, R362,
R363). -/
def State.hubTake (s : State) (trace : Bool) (bay code unit : Nat) (arg1 : W64) (bytes : Bytes) : State :=
  let r := s.ringOf bay
  let x := s.ring r
  let put := fun (s : State) (x : SubRing) =>
    match x.write x.usable bytes with
    | some y => s.setRing r y
    | none => s.setRing r { x with gap := if trace then { x.gap with dropped := x.gap.dropped + 1 }
                                                                         else { x.gap with lost := x.gap.lost + 1 } }
  let s1 :=
    match x.level with
    | .calm => put s x
    | .sample =>
      if trace then
        let t := AMap.getD x.turns code 0
        let x1 := { x with turns := AMap.set x.turns code (t + 1) }
        if t % 2 ^ x.k = 0 then put s x1
        else s.setRing r { x1 with gap := { x1.gap with sampledOut := x1.gap.sampledOut + 1 } }
      else put s x
    | .coalesce =>
      if trace then s.setRing r { x with gap := { x.gap with dropped := x.gap.dropped + 1 } }
      else
        let s2 := s.setRing r { x with gap := { x.gap with coalesced := x.gap.coalesced + 1 } }
        { s2 with tel := { s2.tel with summaries := addSummary s2.tel.summaries r bay code unit s.lic arg1 } }
  s1.checkEnter r

/-- `REP_STATUS` shows an operation that has ended, and REPAIR_DONE is live until it is read (15 "Registers"). -/
def State.repairShown (s : State) (kind : RepairKind) (target step result : Nat) : State :=
  let s1 := s.latch Reg.TEL_EVENT_STATUS 2
  { s1 with tel := { s1.tel with lastKind := kind.code, lastStep := step, lastTarget := target, lastResult := result } }

/-- A LOG record of the device's own (15 R355). `bay` is 0xFF for a device record. -/
def State.log (s : State) (bay code unit : Nat) (arg0 : Word) (arg1 : Nat) : State :=
  s.hubTake false bay code unit (BitVec.ofNat 64 arg1) (shortRecord 1 bay s.lic code unit arg0 (BitVec.ofNat 64 arg1))

/-- A TRACE record, for a bay and a code that are enabled (15 R355). -/
def State.trace (s : State) (bay code unit : Nat) (arg0 : Word) (arg1 : Nat) : State :=
  if bit (s.reg Reg.TEL_TRACE_EN) bay && bit (s.reg Reg.TEL_TRACE_CODES) (code - 0x0100) then
    s.hubTake true bay code unit (BitVec.ofNat 64 arg1) (shortRecord 2 bay s.lic code unit arg0 (BitVec.ofNat 64 arg1))
  else s

end Sys2Proof.Machine
end

