-- ==== Sys2Proof/Machine/TierOps.lean ====
section
/-! DEFINITION. The physical map, frame ownership, page-table entries, walks and translation caches, translation faults and the
migration engine's parts (03). -/

namespace Sys2Proof.Machine

/-! ### The physical map (R57) -/

def loftBase : Nat := 0
def siloBase : Nat := 0x10000000000
def granaryBase : Nat := 0x100000000000
def siloRowStride : Nat := 0x400000000
def siloRowSize : Nat := 0x300000000
def channelStride : Nat := 0x4000000000

/-- The region of a physical address: 0 loft, 1 Silo, 2 Granary (R57). -/
def regionOf (a : Nat) : Option Nat :=
  if a < 0x400000000 then some 0
  else if siloBase ≤ a ∧ a < siloBase + 32 * siloRowStride then some 1
  else if granaryBase ≤ a ∧ a < granaryBase + 8 * channelStride then some 2
  else none

def siloRow (a : Nat) : Nat := (a - siloBase) / siloRowStride
def siloOffset (a : Nat) : Nat := (a - siloBase) % siloRowStride
def granaryChannel (a : Nat) : Nat := (a - granaryBase) / channelStride
/-- The stack of a Silo address: bits [14:12] of the offset in its row (R58). -/
def siloStack (a : Nat) : Nat := siloOffset a / 4096 % 8
/-- The offset of a Silo address within its channel of its stack: (w[33:15] << 12) | w[11:0] (R58). -/
def siloChannelOffset (a : Nat) : Nat := siloOffset a / 32768 * 4096 + siloOffset a % 4096

/-- Bytes of the DIMM of a channel. -/
def State.dimmBytes (s : State) (g : Nat) : Nat := AMap.getD s.tiers.dimms g 0 * 2 ^ 30

/-- A physical address is backed (R57). -/
def State.backed (s : State) (a : Nat) : Bool :=
  match regionOf a with
  | some 0 => true
  | some 1 => decide (siloOffset a < siloRowSize)
  | some 2 => decide ((a - granaryBase) % channelStride < s.dimmBytes (granaryChannel a))
  | _ => false

/-- The error unit of a physical address (`MT_ERR_SEL`): 0 to 3 lofts, 4 to 11 stacks, 12 to 19 channels. -/
def errUnit (a : Nat) : Nat :=
  match regionOf a with
  | some 0 => a / 0x100000000
  | some 1 => 4 + siloStack a
  | _ => 12 + granaryChannel a

/-- The telemetry unit of a physical address: class and index (15 R354, R355 UE: die, Silo row or Granary channel). -/
def memUnit (a : Nat) : Nat :=
  match regionOf a with
  | some 0 => telUnit 1 (a / 0x100000000)
  | some 1 => telUnit 2 (siloRow a)
  | _ => telUnit 3 (granaryChannel a)

/-! ### The granule map (R73) -/

/-- A granule is number address / 64 KiB. -/
def granuleOfAddr (a : Nat) : Nat := a / 65536

def ownerFree : Nat := 0x10
def ownerReserved : Nat := 0x11
def ownerOffline : Nat := 0x12

/-- Bytes of the telemetry ring in MiB (15 R357). -/
def State.ringMiB (s : State) : Nat := (s.tel.rings.map fun e => e.2.size / 2 ^ 20).sum

/-- A granule lies in an area of the Silo that the device reserves, given by its row, first granule and length. -/
def siloArea (g row first n : Nat) : Bool :=
  let lo := granuleOfAddr (Config.siloAddress row first)
  decide (lo ≤ g ∧ g < lo + n)

/-- A granule is a device reservation (R75): 32 MiB of each die's loft; in the Silo the staging buffer, the granule map, the spill lists with the
fault queue, and the telemetry ring. -/
def State.reserved (s : State) (g : Nat) : Bool :=
  match regionOf (g * 65536) with
  | some 0 =>
    let first := (Config.loftReserveAt (g / 65536)).val
    decide (first ≤ g % 65536 ∧ g % 65536 < first + 512)
  | some 1 =>
    siloArea g Config.stageAt.1.val Config.stageAt.2.val 1024 || siloArea g Config.granuleMapAt.1.val Config.granuleMapAt.2.val 640 ||
      siloArea g Config.spillAt.1.val Config.spillAt.2.val 288 ||
      siloArea g Config.telRingAt.1.val Config.telRingAt.2.val (s.ringMiB * 16)
  | _ => false

/-- The granule map byte of a granule (R73): what the map lists, else as after power-on; an offline row or channel is offline
whole, and in one that drains each granule goes offline as it frees (15 R370, R371). -/
def State.owner (s : State) (g : Nat) : Nat :=
  let a := g * 65536
  let off :=
    match regionOf a with
    | some 0 => bit s.tiers.loftsFailed (a / 0x100000000)
    | some 1 => bit s.tiers.rowsOffline (siloRow a)
    | some 2 => !bit s.tiers.channelsOnline (granaryChannel a)
    | _ => false
  let drains :=
    match regionOf a with
    | some 1 => bit s.tel.draining (siloRow a)
    | some 2 => bit s.tel.channelDraining (granaryChannel a)
    | _ => false
  let shown := fun (o : Nat) => if drains && o = ownerFree then ownerOffline else o
  if off || !s.backed a then ownerOffline
  else
    shown <| match AMap.get? s.tiers.granules g with
    | some o => o
    | none => if s.reserved g then ownerReserved else ownerFree

/-- The map with one granule's byte written. -/
def State.setOwner (s : State) (g o : Nat) : State := { s with tiers := { s.tiers with granules := AMap.set s.tiers.granules g o } }

/-- The map with a run of granules written. -/
def State.setOwners (s : State) (g n o : Nat) : State :=
  { s with tiers := { s.tiers with granules := (List.range n).foldl (fun m i => AMap.set m (g + i) o) s.tiers.granules } }

/-- Granules of a bay in a tier (R74). -/
def State.used (s : State) (b tier : Nat) : Nat :=
  (s.tiers.granules.filter fun e => e.2 = b && regionOf (e.1 * 65536) = some tier).length

/-- A bay's quota in a tier, in granules (R74: 2 MiB units of 32 granules). -/
def State.quota (s : State) (b tier : Nat) : Nat :=
  match s.bayDef b with
  | some d => (d.quotas[tier]?).getD 0 * 32
  | none => 0

/-- All granules of a run are owned by a bay. -/
def State.ownsRun (s : State) (b g n : Nat) : Bool :=
  decide ((s.tiers.granules.filter fun e => decide (g ≤ e.1 ∧ e.1 < g + n) && e.2 = b && s.owner e.1 = b).length = n)

/-- Some granule of a run of addresses is owned by a bay. -/
def State.anyOwned (s : State) (a len : Nat) : Bool :=
  s.tiers.granules.any fun e => decide (a ≤ e.1 * 65536 ∧ e.1 * 65536 < a + len) && decide (e.2 < 16)

/-- How many granules of a tier's online part were taken offline one by one (R372). -/
def State.retired (s : State) (tier : Nat) : Nat :=
  (s.tiers.granules.filter fun e => e.2 = ownerOffline && regionOf (e.1 * 65536) = some tier &&
    !(tier = 0 && bit s.tiers.loftsFailed (e.1 * 65536 / 0x100000000)) &&
    !(tier = 1 && bit s.tiers.rowsOffline (siloRow (e.1 * 65536))) &&
    !(tier = 2 && !bit s.tiers.channelsOnline (granaryChannel (e.1 * 65536)))).length

/-- 2 MiB units of the Silo, 384 GiB, less the staging buffer's 32, the granule map's 20 and the 9 of the spill lists and fault queue (R53, R75). -/
def siloUnits : Nat := 196608 - 32 - 20 - 9

/-- Net online capacity of a tier in 2 MiB units (R75). -/
def State.capacity (s : State) (tier : Nat) : Nat :=
  match tier with
  | 0 =>
    let lofts := ((List.range 4).filter fun d => !bit s.tiers.loftsFailed d).length
    (2032 * lofts * 32 - s.retired 0) / 32
  | 1 =>
    let rows := ((List.range 32).filter fun r => bit s.tiers.rowsOffline r).length
    ((siloUnits - s.ringMiB / 2 - rows * 6144) * 32 - s.retired 1) / 32
  | _ =>
    let gib := ((List.range 8).map fun g => if bit s.tiers.channelsOnline g then AMap.getD s.tiers.dimms g 0 else 0).sum
    (gib * 512 * 32 - s.retired 2) / 32

/-! ### Page-table entries (R61, R62) -/

def ptePresent (e : W64) : Bool := bit e 0
def pteWritable (e : W64) : Bool := bit e 1
def pteChaff (e : W64) : Bool := bit e 2
def pteTier (e : W64) : Nat := fld e 4 3
def pteSizeCode (e : W64) : Nat := fld e 7 5
def pteTag (e : W64) : Nat := fld e 11 8
def pteFrame (e : W64) : Nat := fld e 51 12
def pteGen (e : W64) : Nat := fld e 55 52
def pteState (e : W64) : Nat := fld e 57 56
def pteSpill (e : W64) : Bool := bit e 58
def pteSpillCount (e : W64) : Nat := fld e 62 59

def settled : Nat := 0
def copying : Nat := 1
def pinned : Nat := 2

/-- A field of an entry replaced. -/
def pteWith (e : W64) (hi lo v : Nat) : W64 :=
  BitVec.ofNat 64 (e.toNat - fld e hi lo * 2 ^ lo + v % 2 ^ (hi - lo + 1) * 2 ^ lo)

/-- Bytes of a leaf by its page-size code (R61). -/
def pageSize (code : Nat) : Option Nat :=
  match code with
  | 0 => some 0x10000 | 1 => some 0x200000 | 2 => some 0x40000000
  | _ => none

/-- The level that a leaf of a page-size code stands at (R60). -/
def leafLevel (code : Nat) : Option Nat :=
  match code with
  | 0 => some 4 | 1 => some 3 | 2 => some 2
  | _ => none

/-- An entry is a pointer (R61). -/
def ptePointer (e : W64) : Bool := pteSizeCode e = 7

/-- The engine holds a migration in progress of the page at `va` of a bay (R62, R76). -/
def State.migrating (s : State) (b : Nat) (va : Nat) : Bool :=
  s.tiers.migrations.any fun m => m.phase ≠ .queued && m.bay = b && m.va.toNat / m.size = va / m.size

/-- An entry is malformed at a level (R62). -/
def State.malformed (s : State) (b va level : Nat) (e : W64) : Bool :=
  if ptePointer e then
    decide (level = 4) || !pteWritable e || pteChaff e || decide (pteTier e ≥ 2) || fld e 63 56 ≠ 0 ||
      (level ≠ 3 && pteTag e ≠ 0) || regionOf (pteFrame e * 4096) ≠ some (pteTier e) || !s.backed (pteFrame e * 4096)
  else
    match pageSize (pteSizeCode e) with
    | none => true
    | some size =>
      leafLevel (pteSizeCode e) ≠ some level ||
        (if pteTier e = 3 then (pteFrame e * 4096) % min size (2 ^ 38) ≠ 0
         else pteFrame e * 4096 % size ≠ 0 || regionOf (pteFrame e * 4096) ≠ some (pteTier e) ||
           !s.backed (pteFrame e * 4096) || !s.backed (pteFrame e * 4096 + size - 1)) ||
        pteState e = 3 || (pteState e = copying && !s.migrating b va)

/-- The index of a virtual address at a level (R60). -/
def vaIndex (va level : Nat) : Nat :=
  match level with
  | 0 => va / 2 ^ 48 % 512 | 1 => va / 2 ^ 39 % 512 | 2 => va / 2 ^ 30 % 512 | 3 => va / 2 ^ 21 % 512
  | _ => va / 2 ^ 16 % 32

/-- Bytes that one entry of a level maps. -/
def levelSpan (level : Nat) : Nat :=
  match level with
  | 0 => 2 ^ 48 | 1 => 2 ^ 39 | 2 => 2 ^ 30 | 3 => 2 ^ 21
  | _ => 2 ^ 16

/-- The table that a pointer entry read at a level names (R66). -/
def nextTable (level : Nat) (e : W64) : Nat := pteFrame e * 4096 + if level = 3 then pteTag e * 256 else 0

/-! ### Walks and caches (R65, R66) -/

/-- Requester codes of a fault record (R82). -/
def reqFxe : Nat := 0
def reqBse : Nat := 1
def reqWalker : Nat := 2
def reqRdma : Nat := 3
def reqBale : Nat := 4
def reqBatcher : Nat := 5
def reqAudio : Nat := 6
/-- The dispatcher's submission read posts no record (R82). -/
def reqDispatcher : Nat := 7

/-- What a requester needs of a window (R413). -/
inductive Visibility where
  | sheaf | host | either
  deriving DecidableEq, Repr

/-- Who translates (R66, R67, R413): the requester code, its core or 0xFF, the die whose walkers it uses (4 for the hub), whether it
reads residency only, and the visibility it needs. -/
structure Engine where
  req : Nat
  core : Nat
  place : Nat
  anyTier : Bool
  vis : Visibility
  deriving DecidableEq, Repr

def fxeEngine (core : Nat) : Engine := ⟨reqFxe, core, dieOf core, true, .sheaf⟩
def bseEngine (die : Nat) : Engine := ⟨reqBse, 0xFF, die, false, .sheaf⟩
def walkerEngine (die core : Nat) : Engine := ⟨reqWalker, core, die, false, .sheaf⟩
def rdmaEngine : Engine := ⟨reqRdma, 0xFF, 4, false, .host⟩
def baleWriter : Engine := ⟨reqBale, 0xFF, 4, false, .host⟩
def baleReader : Engine := ⟨reqBale, 0xFF, 4, false, .either⟩
def batcherEngine : Engine := ⟨reqBatcher, 0xFF, 4, false, .either⟩
def batcherProbe : Engine := ⟨reqBatcher, 0xFF, 4, true, .either⟩
def audioEngine : Engine := ⟨reqAudio, 0xFF, 4, false, .either⟩
def dispatcherEngine : Engine := ⟨reqDispatcher, 0xFF, 4, false, .either⟩

/-- A window gives a requester the visibility it needs (R413). -/
def Visibility.seen (v : Visibility) (w : Window) : Bool :=
  match v with
  | .sheaf => w.sheafVisible
  | .host => w.hostVisible
  | .either => w.sheafVisible || w.hostVisible

/-- An engine can use a leaf's tier (R67): bank-side engines the loft of their own die, remote leaves for the FXE alone. -/
def Engine.canUse (en : Engine) (e : W64) : Bool :=
  if en.req = reqBse then pteTier e = 0 && decide (pteFrame e * 4096 / 0x100000000 = en.place)
  else en.anyTier || pteTier e ≠ 3

/-- The window of a bay that holds a virtual address (R66). -/
def State.windowOf (s : State) (b va : Nat) : Option Window :=
  (s.windows b).find? fun w => decide (w.base ≤ va ∧ va < w.base + w.len)

/-- What a walk answers. -/
inductive WalkResult where
  | leaf (entry : W64) (level entryAddr : Nat)
  | fault (cause : FaultCause) (level : Nat) (entry : W64)
  deriving DecidableEq, Repr

/-- Cached leaves and pointers at a place: 0 to 3 the dies, 4 the hub, 8 + n the FXE of core n (R65). -/
def State.leaves (s : State) (place : Nat) : List CachedLeaf := AMap.getD s.trans.leafCaches place []
def State.pointers (s : State) (place : Nat) : List CachedPointer := AMap.getD s.trans.walkCaches place []

/-- The cached pointer to the table at `level` that covers a page. -/
def findPointer (l : List CachedPointer) (b va level : Nat) : Option CachedPointer :=
  l.find? fun p => p.bay = b && p.level = level && p.page = va / levelSpan (level - 1)

/-- A cache with one more entry, within its capacity: the oldest entry goes (log 14). -/
def cachePut {α : Type} (cap : Nat) (l : List α) (x : α) : List α := (l ++ [x]).drop (l.length + 1 - cap)

/-- A read that meets lines with an uncorrectable error: each sets the line's flag, counts, records the address and raises UE, and
a LOG record is written (R54, 15 R355). -/
def State.meetUe (s : State) (a len : Nat) : State :=
  (s.physUe a len).foldl (fun s l =>
    let addr := l * 64
    let u := errUnit addr
    let s1 := (s.countSat (Reg.MT_ERR_UE u) 16 0 1).setReg Reg.MT_UE_ADDR_LO (w32 addr)
    let s2 := (s1.setReg Reg.MT_UE_ADDR_HI (w32 (addr / 2 ^ 32))).latch Reg.MT_EVENT_STATUS 3
    let ues := if regionOf addr = some 1 then AMap.set s2.tel.rowUes (siloRow addr) (AMap.getD s2.tel.rowUes (siloRow addr) 0 + 1)
               else s2.tel.rowUes
    let s3 : State := { s2 with chaff := setInsert s2.chaff l, tel := { s2.tel with rowUes := ues } }
    s3.log 0xFF 0x0004 (memUnit addr) (s3.reg (Reg.MT_ERR_UE u)) addr) s

/-- Read the tables from the root (R66); a table read that meets an uncorrectable error is one as any read is (R54), and the walk goes on with the
bytes read. Where the walk cache holds another table than the entry names, either may be used until an
invalidate (R69): the choice is a free value (log 14). -/
def State.walkFrom (s : State) (b va place : Nat) : Nat → Nat → Nat → State × WalkResult
  | 0, level, _ => (s, .fault .entry level 0)
  | fuel + 1, level, table =>
    let addr := table + vaIndex va level * 8
    let e := s.phys64 addr
    let cached := findPointer (s.pointers place) b va (level + 1)
    let real := ptePresent e && ptePointer e && !s.malformed b va level e
    let conflict :=
      match cached with
      | some p => !(real && p.table = nextTable level e)
      | none => false
    let (v, s0) := if conflict then s.draw else (0, s)
    match (if conflict && bit v 0 then cached else none) with
    | some p => s0.walkFrom b va place fuel (level + 1) p.table
    | none =>
      let s1 := if cached.isSome && !conflict then s0 else s0.meetUe addr 8
      if !ptePresent e then (s1, .fault .notPresent level e)
      else if s1.malformed b va level e then (s1, .fault .entry level e)
      else if ptePointer e then
        let t := nextTable level e
        let ptr := s1.pointers place
        let ptr1 := if (findPointer ptr b va (level + 1)).map (·.table) = some t then ptr
          else cachePut 1024 (ptr.filter fun p => !(p.bay = b && p.level = level + 1 && p.page = va / levelSpan level))
            ⟨b, va / levelSpan level, level + 1, t⟩
        ({ s1 with trans := { s1.trans with walkCaches := AMap.set s1.trans.walkCaches place ptr1 } }).walkFrom b va place
          fuel (level + 1) t
      else (s1, .leaf e level addr)

/-- A translation, delivered: the physical base of the page, its bytes, and the entry as used. -/
structure Translation where
  base : Nat
  size : Nat
  entry : W64
  window : Window
  deriving DecidableEq, Repr

/-- The physical address of a virtual address under its translation. -/
def Translation.phys (t : Translation) (va : Nat) : Nat := t.base + va % t.size

/-- A translation to a peer's frame (R63). -/
def Translation.remote (t : Translation) : Bool := pteTier t.entry = 3

/-- The leaf cached for a page at a place. -/
def findLeaf (l : List CachedLeaf) (b va : Nat) : Option CachedLeaf :=
  l.find? fun c => c.bay = b && c.page = va / c.size

/-- A leaf put into a cache. -/
def State.fillLeaf (s : State) (place cap b va size : Nat) (e : W64) : State :=
  let l := (s.leaves place).filter fun c => !(c.bay = b && c.page = va / c.size && c.size = size)
  { s with trans := { s.trans with leafCaches := AMap.set s.trans.leafCaches place (cachePut cap l ⟨b, va / size, size, e⟩) } }

/-- The checks of a leaf after it is found, in the order of R66: owner, write permission, tier, COPYING. `walked` is clear for a leaf
taken from a cache, whose owner was checked when it was filled. -/
def State.leafCheck (s : State) (b : Nat) (en : Engine) (w : Window) (write walked : Bool) (e : W64) : Option FaultCause :=
  let size := (pageSize (pteSizeCode e)).getD 0x10000
  if walked && pteTier e ≠ 3 && !s.ownsRun b (pteFrame e * 4096 / 65536) (size / 65536) then some .owner
  else if write && !(pteWritable e && w.writable) then some .writeRo
  else if !en.canUse e then some .wrongTier
  else if write && pteState e = copying then some .migrating
  else none

/-- Translate a virtual address for an engine (R66 to R69). A cached leaf that differs from what the tables give may still be used
until an invalidate completes: the choice is `old` where it is given, else a free value (log 14). -/
def State.translateBy (s : State) (old : Option Bool) (b va : Nat) (write : Bool) (en : Engine) :
    State × Except (FaultCause × Nat × W64) Translation :=
  if va ≥ 2 ^ 57 then (s, .error (.outside, 0, 0))
  else
    match s.windowOf b va with
    | none => (s, .error (.outside, 0, 0))
    | some w =>
      if !en.vis.seen w then (s, .error (.outside, 0, 0))
      else
        let root := ((s.bayDef b).map (·.root)).getD 0
        let cached :=
          match (if en.req = reqFxe then findLeaf (s.leaves (8 + en.core)) b va else none) with
          | some c => some c
          | none => findLeaf (s.leaves en.place) b va
        let (sw, res) := s.walkFrom b va en.place 5 0 root
        let same :=
          match cached, res with
          | some c, .leaf e _ _ => c.entry = e
          | _, _ => false
        let conflict := cached.isSome && !same
        let (v, s1) := if conflict && old.isNone then s.draw else (0, s)
        match (if same || (conflict && old.getD (bit v 0)) then cached else none) with
        | some c =>
          match s1.leafCheck b en w write false c.entry with
          | some cause => (s1, .error (cause, (leafLevel (pteSizeCode c.entry)).getD 4, c.entry))
          | none => (s1, .ok ⟨pteFrame c.entry * 4096, c.size, c.entry, w⟩)
        | none =>
          let s2 := ({ sw with free := s1.free + (sw.free - s.free) }).countWrap Reg.TRN_WALKS 1
          match res with
          | .fault cause level e => (s2, .error (cause, level, e))
          | .leaf e level _ =>
            match s2.leafCheck b en w write true e with
            | some cause => (s2, .error (cause, level, e))
            | none =>
              let size := (pageSize (pteSizeCode e)).getD 0x10000
              let s3 := s2.fillLeaf en.place 16384 b va size e
              let s4 := if en.req = reqFxe then s3.fillLeaf (8 + en.core) 512 b va size e else s3
              (s4, .ok ⟨pteFrame e * 4096, size, e, w⟩)

/-- A translation that stands alone: old or new is chosen for it by itself. -/
def State.translate (s : State) (b va : Nat) (write : Bool) (en : Engine) : State × Except (FaultCause × Nat × W64) Translation :=
  s.translateBy none b va write en

/-- The leaf entry of a page as the tables hold it now: its physical address, level and value (R77's `pte(va)`). -/
def State.pteAt (s : State) (b va : Nat) : Nat → Nat → Nat → Option (Nat × Nat × W64)
  | 0, _, _ => none
  | fuel + 1, level, table =>
    let addr := table + vaIndex va level * 8
    let e := s.phys64 addr
    if !ptePresent e then none
    else if ptePointer e then
      if s.malformed b va level e then none else s.pteAt b va fuel (level + 1) (nextTable level e)
    else if leafLevel (pteSizeCode e) = some level then some (addr, level, e) else none

def State.pte (s : State) (b va : Nat) : Option (Nat × Nat × W64) :=
  match s.bayDef b with
  | some d => s.pteAt b va 5 0 d.root
  | none => none

/-- The table reads that find a leaf entry, each of which may meet an uncorrectable error (R54). -/
def State.meetTables (s : State) (b va : Nat) : Nat → Nat → Nat → State
  | 0, _, _ => s
  | fuel + 1, level, table =>
    let addr := table + vaIndex va level * 8
    let e := s.phys64 addr
    let s1 := s.meetUe addr 8
    if ptePresent e && ptePointer e && !s.malformed b va level e then s1.meetTables b va fuel (level + 1) (nextTable level e) else s1

/-- Read the leaf entry of a page from the tables, with the errors that the reads meet. -/
def State.readPte (s : State) (b va : Nat) : State :=
  match s.bayDef b with
  | some d => s.meetTables b va 5 0 d.root
  | none => s

/-- Remove the cache entries in a scope (R70, R71). -/
def State.dropCached (s : State) (b : Nat) (whole allLevels : Bool) (start len : Nat) : State :=
  let inRange := fun lo size => whole || decide (0 < len ∧ lo < start + len ∧ start < lo + size)
  { s with
    trans := { s.trans with
      leafCaches := AMap.mapVals (fun _ l => l.filter fun c => !(c.bay = b && inRange (c.page * c.size) c.size))
        s.trans.leafCaches
      walkCaches := if allLevels then AMap.mapVals (fun _ l => l.filter fun p =>
          !(p.bay = b && inRange (p.page * levelSpan (p.level - 1)) (levelSpan (p.level - 1)))) s.trans.walkCaches
        else s.trans.walkCaches } }

/-! ### Faults (R81, R82) -/

/-- The 32-byte record of a fault (R82). -/
def faultRecord (f : OutFault) (now : W64) : Bytes :=
  leBytes 8 f.va.toNat ++ leBytes 8 f.entry.toNat ++ leBytes 8 now.toNat ++ leBytes 2 f.tag ++ leBytes 1 f.cause.code ++
    leBytes 1 (f.bay + f.level * 16) ++ leBytes 1 f.core ++ leBytes 1 (f.requester + if f.write then 8 else 0) ++ [0, 0]

/-- Post one fault's record, if the queue has room (R82). -/
def State.postRecord (s : State) (f : OutFault) : State × Bool :=
  if s.trans.fqCount ≥ 4096 then (s, false)
  else
    let head := (s.reg Reg.TRN_FQ_HEAD).toNat
    let s1 := s.physWrite (Config.faultQueueBase + head * 32) (faultRecord f s.lic) false
    let s2 := s1.setReg Reg.TRN_FQ_HEAD (w32 ((head + 1) % 4096))
    ({ s2 with trans := { s2.trans with fqCount := s2.trans.fqCount + 1 } }, true)

/-- The next tag that no outstanding fault has (R82). -/
def freeTag (used : List Nat) : Nat → Nat → Nat
  | 0, t => t % 65536
  | n + 1, t => if used.contains (t % 65536) then freeTag used n (t + 1) else t % 65536

/-- A fault holds its requester: a resumable one, and any whose record finds the queue full (R81, R82). -/
def State.faultWaits (s : State) (cause : FaultCause) : Bool := cause.resumable || decide (s.trans.fqCount ≥ 4096)

/-- A fault arises: its record is posted, or waits for room (R82). A MIGRATING fault posts no record and is held by the migration
engine (R78); a protection fault is not outstanding once its record is posted, and until then its requester waits too. Answers the tag. -/
def State.raiseFault (s : State) (b va : Nat) (write : Bool) (en : Engine) (cause : FaultCause) (level : Nat) (entry : W64)
    (holder : FaultHolder) : State × Nat :=
  if cause = .migrating then
    ({ s with trans := { s.trans with held := s.trans.held ++ [⟨b, BitVec.ofNat 64 va, holder⟩] } }, 0)
  else
    let tag := freeTag (s.trans.faults.map (·.tag)) 65536 s.trans.nextTag
    let f : OutFault :=
      { tag := tag, bay := b, va := BitVec.ofNat 64 va, entry := entry, level := level, core := en.core, requester := en.req
        write := write, cause := cause, holder := if s.faultWaits cause then holder else .none, posted := false }
    let (s1, posted) := s.postRecord f
    let keep := cause.resumable || !posted
    ({ s1 with trans := { s1.trans with
        nextTag := (tag + 1) % 65536
        faults := if keep then s1.trans.faults ++ [{ f with posted := posted }] else s1.trans.faults } }, tag)

/-- Post the records that wait for room, oldest first (R82). -/
def State.postWaiting (s : State) : State :=
  s.trans.faults.foldl (fun s f =>
    if f.posted then s
    else
      let (s1, ok) := s.postRecord f
      if ok then
        { s1 with trans := { s1.trans with
            faults := s1.trans.faults.map fun x => if x.tag = f.tag then { x with posted := true } else x } }
      else s1) s

/-! ### Reads with errors and chaff (R54) -/

/-- Read a run of bytes under a translation: the bytes, and whether any of them is chaff-marked (R54, R61 chaff bit). -/
def State.readPhys (s : State) (t : Translation) (va len : Nat) : State × Bytes × Bool :=
  let a := t.phys va
  let s1 := s.meetUe a len
  (s1, s1.physRead a len, s1.physChaff a len || pteChaff t.entry)

/-! ### Virtual runs -/

/-- The pieces of a virtual run by 64 KiB page: address and length. -/
def pageRuns (va len : Nat) : List (Nat × Nat) :=
  if len = 0 then []
  else (List.range ((va + len - 1) / 65536 - va / 65536 + 1)).map fun i =>
    let lo := max va ((va / 65536 + i) * 65536)
    (lo, min (va + len) ((va / 65536 + i + 1) * 65536) - lo)

/-- A fault met on a virtual run: where, the cause, the level and the entry. -/
structure RunFault where
  va : Nat
  cause : FaultCause
  level : Nat
  entry : W64
  deriving DecidableEq, Repr

/-- Translate each page of a virtual run, stopping at the first fault. -/
def State.translateRun (s : State) (b : Nat) (write : Bool) (en : Engine) :
    List (Nat × Nat) → State × Except RunFault (List (Nat × Nat × Translation))
  | [] => (s, .ok [])
  | (va, len) :: rest =>
    match s.translate b va write en with
    | (s1, .error (c, l, e)) => (s1, .error ⟨va, c, l, e⟩)
    | (s1, .ok t) =>
      match s1.translateRun b write en rest with
      | (s2, .error f) => (s2, .error f)
      | (s2, .ok l) => (s2, .ok ((va, len, t) :: l))

/-- Read a virtual run: the bytes and whether a line read from it is marked, or the fault it meets. -/
def State.readRun (s : State) (b va len : Nat) (en : Engine) : State × Except RunFault (Bytes × Bool) :=
  match s.translateRun b false en (pageRuns va len) with
  | (s1, .error f) => (s1, .error f)
  | (s1, .ok l) =>
    let (s2, bs, c) := l.foldl (fun (acc : State × Bytes × Bool) x =>
      let (s', bs, c) := acc.1.readPhys x.2.2 x.1 x.2.1
      (s', acc.2.1 ++ bs, acc.2.2 || c)) (s1, [], false)
    (s2, .ok (bs, c))

/-- Write bytes to a translated run. -/
def State.writePieces (s : State) (va0 : Nat) (bs : Bytes) (chaff : Bool) (l : List (Nat × Nat × Translation)) : State :=
  l.foldl (fun s x => s.physWrite (x.2.2.phys x.1) (slice bs (x.1 - va0) x.2.1) chaff) s

/-- Write a virtual run, whole or not at all: every page is translated before a byte lands (log 15). -/
def State.writeRun (s : State) (b va : Nat) (bs : Bytes) (chaff : Bool) (en : Engine) : State × Option RunFault :=
  match s.translateRun b true en (pageRuns va bs.length) with
  | (s1, .error f) => (s1, some f)
  | (s1, .ok l) => (s1.writePieces va bs chaff l, none)

/-! ### Migrations (R76 to R79) -/

/-- A row or channel from which granules may be taken: online and not draining (15 R370, R371). -/
def State.takable (s : State) (a : Nat) : Bool :=
  !s.tel.retiring.contains (granuleOfAddr a) &&
  match regionOf a with
  | some 1 => !bit s.tel.draining (siloRow a) && !bit s.tiers.rowsOffline (siloRow a)
  | some 2 => !bit s.tel.channelDraining (granaryChannel a) && bit s.tiers.channelsOnline (granaryChannel a)
  | some 0 => true
  | _ => false

/-- A run of granules is free and may be taken. -/
def State.freeRun (s : State) (g n : Nat) : Bool :=
  (List.range n).all fun i => s.owner (g + i) = ownerFree && s.takable ((g + i) * 65536)

/-- Search for a number that passes a test, counting up from a start and around a bound. -/
def searchFrom (p : Nat → Bool) (bound : Nat) : Nat → Nat → Option Nat
  | 0, _ => none
  | n + 1, i => if p (i % bound) then some (i % bound) else searchFrom p bound n (i + 1)

/-- First byte and byte length of a tier, and, for the Granary, of one channel. -/
def tierSpan (tier : Nat) (channel : Option Nat) : Nat × Nat :=
  match tier, channel with
  | 0, _ => (0, 0x400000000)
  | 1, _ => (siloBase, 32 * siloRowStride)
  | _, some g => (granaryBase + g * channelStride, channelStride)
  | _, none => (granaryBase, 8 * channelStride)

/-- A free frame of a page in a tier: which one the engine takes is not stated, so the search starts at a free value (log 16). -/
def State.takeFrame (s : State) (tier size : Nat) (channel : Option Nat) : State × Option Nat :=
  let (base, len) := tierSpan tier channel
  let (v, s1) := s.draw
  let slots := len / size
  (s1, (searchFrom (fun i => s1.freeRun ((base + i * size) / 65536) (size / 65536)) slots slots (v.toNat % slots)).map
    fun i => base + i * size)

/-- Migrations in progress. -/
def State.inProgress (s : State) : List Migration := s.tiers.migrations.filter fun m => m.phase ≠ .queued
/-- Migrations that wait. -/
def State.queuedMigs (s : State) : List Migration := s.tiers.migrations.filter fun m => m.phase = .queued

/-- The queue is full (R76). -/
def State.migQueueFull (s : State) : Bool :=
  decide (s.queuedMigs.length ≥ 4096 + (64 - s.inProgress.length))

/-- Put a migration of a page into the engine's queue. -/
def State.queueMig (s : State) (b : Nat) (va : W64) (target : Nat) (lc : Bool) (origin : MigOrigin) : State :=
  { s with tiers := { s.tiers with
      nextMigration := s.tiers.nextMigration + 1
      migrations := s.tiers.migrations ++
        [{ id := s.tiers.nextMigration, bay := b, va := va, target := target, lc := lc, origin := origin, phase := .queued
           entryAddr := 0, oldEntry := 0, newFrame := 0
           size := ((s.pte b va.toNat).bind fun x => pageSize (pteSizeCode x.2.2)).getD 0x10000 }] } }

/-- The engine already holds a migration of the page of a leaf. -/
def State.hasMig (s : State) (b va : Nat) : Bool :=
  s.tiers.migrations.any fun m => m.bay = b && m.va.toNat / m.size = va / m.size

/-- A migration issued by spill, the batcher or the walker: not queued when the queue is full, nor twice (R76, R158, R204). -/
def State.issueMig (s : State) (b va target : Nat) (lc : Bool) (origin : MigOrigin) : State :=
  if s.hasMig b va || s.migQueueFull then s else s.queueMig b (BitVec.ofNat 64 va) target lc origin

/-- A tier command completes with a result: BUSY clears, and CMD_DONE is live until the status is read (R83). -/
def State.tierResult (s : State) (r : TierResult) : State :=
  { (s.latch Reg.MT_EVENT_STATUS 0) with tiers := { s.tiers with cmdBusy := none, cmdResult := r.code } }

/-- Remove a migration; a command that waited for it completes with its result. -/
def State.dropMig (s : State) (m : Migration) (r : TierResult) : State :=
  let s1 := { s with tiers := { s.tiers with migrations := s.tiers.migrations.filter fun x => x.id ≠ m.id } }
  if s.tiers.cmdBusy = some m.id then s1.tierResult r else s1

end Sys2Proof.Machine
end

