-- ==== Sys2Proof/Machine/SheafOps.lean ====
section
/-! DEFINITION. Sheaf instances, handle queues, buffer pools, placement, pre-emption, aborts, gleaning and replay (04 R92 to R111, 09
R216 to R233). -/

namespace Sys2Proof.Machine

/-! ### Times -/

/-- Core cycles in a number of REFCLK periods, at the mean clock of 2.0916 GHz (01 R20, 04 R106: 13.38624 per period). -/
def coreCycles (periods : Nat) : Nat := periods * 1338624 / 100000

/-- REFCLK periods in a number of 10 ns units, rounded up. -/
def periodsOfTens (n : Nat) : Nat := ceilDiv (n * 25) 16

/-- 10 ns units in a number of REFCLK periods. -/
def tensOfPeriods (n : Nat) : Nat := n * 16 / 25

/-! ### Causes of protection faults (R108) -/

/-- Protection causes PROGRAM and QUEUE (04 R108), and OUTSIDE (03 R81). -/
def causeProgram : Nat := 0x11
def causeQueue : Nat := 0x10
def causeOutside : Nat := 0x8

/-! ### Queues (R219, R416) -/

/-- The depth of a queue, 0 for an index that is no queue. -/
def State.queueDepth (s : State) (q : Nat) : Nat := ((s.queueDef q).map fun d => d.2.depth).getD 0

/-- Move handles of waiting runs into a queue while it has room, each with the push count as its sequence (R216, R219). -/
def fillQueue (depth : Nat) : Nat → HandleQueue → HandleQueue
  | 0, x => x
  | n + 1, x =>
    if x.entries.length ≥ depth then x
    else
      match x.runs with
      | [] => x
      | [] :: rest => fillQueue depth n { x with runs := rest }
      | (e :: run) :: rest =>
        let e1 := { e with handle := { e.handle with seq := x.pushes.toNat % 4096 } }
        fillQueue depth n
          { x with entries := x.entries ++ [e1], runs := if run.isEmpty then rest else run :: rest, pushes := x.pushes + 1
                   high := max x.high (x.entries.length + 1) }

/-- Fill a queue from its waiting runs. -/
def State.drainRuns (s : State) (q : Nat) : State :=
  let x := s.queue q
  s.setQueue q (fillQueue (s.queueDepth q) ((x.runs.map fun r => r.length + 1).sum) x)

/-- Push a run of handles of one producer (R219): they stay together, and wait while the queue is full. -/
def State.pushRun (s : State) (q : Nat) (run : List QueueEntry) : State :=
  if run.isEmpty then s
  else
    let x := s.queue q
    (s.setQueue q { x with runs := x.runs ++ [run] }).drainRuns q

/-- Pop the head of a queue (R219). -/
def State.popQueue (s : State) (q : Nat) : State × Option QueueEntry :=
  let x := s.queue q
  match x.entries with
  | [] => (s, none)
  | e :: rest => ((s.setQueue q { x with entries := rest }).drainRuns q, some e)

/-! ### Pools (R217, R218) -/

def State.pool (s : State) (b p : Nat) : Pool := AMap.getD (s.bay b).pools p ⟨[], []⟩
def State.setPool (s : State) (b p : Nat) (x : Pool) : State :=
  let y := s.bay b
  s.setBay b { y with pools := AMap.set y.pools p x }

def State.poolCount (s : State) (b p : Nat) : Nat := fld (s.reg (Reg.SW_POOL_CFG b p)) 13 0
/-- Buffer size in bytes. -/
def State.poolSize (s : State) (b p : Nat) : Nat := fld (s.reg (Reg.SW_POOL_CFG b p)) 31 16 * 64
/-- Virtual address of a buffer (R217). -/
def State.bufferVa (s : State) (b p k : Nat) : Nat :=
  (s.reg64 (Reg.SW_POOL_BASE_LO b p) (Reg.SW_POOL_BASE_HI b p)).toNat + k * s.poolSize b p

/-- Take a free buffer of a pool: which one is the device's choice, a free value (R217; log 16). -/
def State.takeBuffer (s : State) (b p : Nat) : State × Option Nat :=
  let n := s.poolCount b p
  let (v, s1) := s.draw
  let x := s1.pool b p
  match searchFrom (fun k => !x.taken.contains k) n n (v.toNat % n) with
  | some k => (s1.setPool b p { x with taken := setInsert x.taken k }, some k)
  | none => (s1, none)

/-- The staged configuration of a pool applies once no buffer of it is taken (R236). -/
def State.poolIdle (s : State) (b p : Nat) : State :=
  if (s.pool b p).taken.isEmpty then
    s.applyAll [Reg.SW_POOL_BASE_LO b p, Reg.SW_POOL_BASE_HI b p, Reg.SW_POOL_CFG b p]
  else s

/-- Return a buffer to its pool; a buffer that is free already is counted (R218). -/
def State.releaseBuffer (s : State) (b p k : Nat) : State :=
  let x := s.pool b p
  if x.taken.contains k then (s.setPool b p { x with taken := setRemove x.taken k }).poolIdle b p
  else s.count16 (Reg.SW_POOL_DOUBLE b p)

/-- Return a buffer that its holder took: one that is free already is left (gleaning, flush, sends). -/
def State.returnBuffer (s : State) (b p k : Nat) : State :=
  if (s.pool b p).taken.contains k then s.releaseBuffer b p k else s

/-- GETs that wait are served in order of arrival, LC before BE (R217). -/
def poolBefore (a b : PoolWait) : Bool := a.lc && !b.lc

/-- A waiting GET is one of a program of an instance. -/
def PoolWait.of (w : PoolWait) (i : Nat) (k : ProgKind) : Bool := w.inst = i && w.prog = k

/-- A program's GET may take a buffer now: a buffer is free, and no GET is served before it: in order of arrival, LC before BE (R217). -/
def State.canGet (s : State) (b p i : Nat) (k : ProgKind) (lc : Bool) : Bool :=
  let x := s.pool b p
  decide (x.taken.length < s.poolCount b p) &&
    (if x.waits.any fun w => w.of i k then (match x.waits with | w :: _ => w.of i k | [] => true)
     else lc && (x.waits.all fun w => !w.lc) || x.waits.isEmpty)

/-- A GET that may go on takes a buffer of the pool, and waits no more (R217). -/
def State.getBuffer (s : State) (b p i : Nat) (k : ProgKind) : State × Option Nat :=
  let y := s.pool b p
  (s.setPool b p { y with waits := y.waits.filter fun w => !w.of i k }).takeBuffer b p

/-- A GET waits for a buffer: it joins the pool's waiting GETs and is counted, once (R217). -/
def State.awaitBuffer (s : State) (b p i : Nat) (k : ProgKind) (lc : Bool) : State :=
  let y := s.pool b p
  if y.waits.any fun w => w.of i k then s
  else (s.setPool b p { y with waits := orderedInsert poolBefore ⟨i, k, lc⟩ y.waits }).countWrap (Reg.SW_POOL_WAITS b p) 1

/-- A queue that a core may pop, or push (R220): it is of the bay, with an entry of kind 0 at that end. -/
def State.coreQueue (s : State) (b q : Nat) (push : Bool) : Bool :=
  match s.queueDef q with
  | some (c, d) => c = b && (if push then d.producer else d.consumer) = 0
  | none => false

/-! ### Instances -/

/-- The programs of an instance. -/
def Inst.prog (x : Inst) : ProgKind → Option Program
  | .input => x.input | .weight => x.weight | .output => x.output | .nextLayer => x.next

def Inst.setProg (x : Inst) (k : ProgKind) (p : Option Program) : Inst :=
  match k with
  | .input => { x with input := p }
  | .weight => { x with weight := p }
  | .output => { x with output := p }
  | .nextLayer => { x with next := p }

/-- Programs that have started and not reached END. -/
def Inst.active (x : Inst) : List Program :=
  ([x.input, x.weight, x.output, x.next].filterMap id).filter fun p => p.started && !p.ended

/-- Every program has reached END (R215). -/
def Inst.allEnded (x : Inst) : Bool := ([x.input, x.weight, x.output, x.next].filterMap id).all fun p => p.started && p.ended

/-- An outstanding fault or a held access holds an engine instruction of an instance (03 R81). -/
def State.engineFault (s : State) (i : Nat) : Bool :=
  (s.trans.faults.any fun f => f.holder = .engine i) || s.trans.held.any fun h => h.holder = .engine i

/-- Engine work of an instance is outstanding: a bank-side command, an attention pass, or an instruction held on a fault (05 R138, 08
R197, 03 R81). -/
def State.engineBusy (s : State) (i : Nat) : Bool :=
  s.engines.commands.any (fun c => c.inst = i) || (s.engines.passes.any fun p => p.inst = i) || s.engineFault i

/-- Nothing of an instance can go on: an engine operation is outstanding, or every running program waits (R92). -/
def State.waiting (s : State) (i : Nat) (x : Inst) : Bool :=
  s.engineBusy i || (!x.active.isEmpty && x.active.all fun p => p.wait ≠ .none)

/-- A wait for something from outside the stall: a token comes from the instance's own programs and engines, and holds no saved context (R107, 09
R214). -/
def ProgWait.external : ProgWait → Bool
  | .none => false | .token _ _ => false
  | .pool _ => true | .queue _ => true | .fault _ => true | .held => true | .ring _ => true | .remote _ => true

/-- The block cause of a program's wait. -/
def ProgWait.cause : ProgWait → Nat
  | .none => 0 | .pool _ => 1 | .queue _ => 1 | .token _ _ => 1 | .fault _ => 3 | .held => 4 | .ring _ => 2 | .remote _ => 2

/-- `CORE_STALL_STATE.CAUSE`: 1 queue wait, 2 fetch, 3 translation fault, 4 held write (04 "Core registers"). -/
def State.waitCause (s : State) (i : Nat) (x : Inst) : Nat :=
  if s.engineFault i then 3 else if s.engineBusy i then 2 else ((x.active.find? fun p => p.wait ≠ .none).map fun p => p.wait.cause).getD 0

/-- A saved context that can run: its queue waits, fetches, bank-side results, held writes and translation faults have all completed (R92, R104,
R107), or a protection fault waits to be taken (R111). -/
def State.runnableSaved (s : State) (i : Nat) : Bool :=
  match s.inst? i with
  | some x =>
    x.state = .saved && (x.faultOnRestore.isSome || (!s.engineBusy i && x.active.all fun p => !p.wait.external))
  | none => false

/-- The resident stalls of a core: slot, instance number, instance. -/
def State.residents (s : State) (n : Nat) : List (Nat × Nat × Inst) :=
  (s.core n).slots.filterMap fun e => (s.inst? e.2).map fun x => (e.1, e.2, x)

/-- The round-robin distance of a slot from the stall after the one that last issued. -/
def rrDistance (last k : Nat) : Nat := (k + 8 - (last + 1) % 8) % 8

/-- Better to issue next: LC before BE; LC by deadline; BE round-robin (R99). -/
def issuesBefore (last : Nat) (a c : Nat × Nat × Inst) : Bool :=
  let x := a.2.2
  let y := c.2.2
  if x.desc.be ≠ y.desc.be then y.desc.be
  else if x.desc.be then decide (rrDistance last a.1 < rrDistance last c.1)
  else decide (x.desc.deadline.toNat < y.desc.deadline.toNat)

/-- The stall that issues next among the runnable ones (R99). DESIGN CHOICE: of two LC stalls with equal deadlines the lower slot issues, and the
round-robin of a core that has issued no BE stall starts from slot 1, the slot after `lastBe` = 0 (log 79). -/
def State.nextIssue (s : State) (n : Nat) : Option (Nat × Nat × Inst) :=
  let last := (s.core n).lastBe
  ((s.residents n).filter fun r => r.2.2.state = .resident).foldl
    (fun best r => match best with
      | none => some r
      | some c => if issuesBefore last r c then some r else some c) none

/-- The sequencer chooses who issues until the next boundary (R99). -/
def State.chooseIssue (s : State) (n : Nat) : State :=
  let c := s.core n
  match s.nextIssue n with
  | some (k, _, x) => s.setCore n { c with issuing := some k, lastBe := if x.desc.be then k else c.lastBe }
  | none => s.setCore n { c with issuing := none }

/-- An instance with its number. -/
def State.instOf (s : State) (o : Option Nat) : Option (Nat × Inst) := o.bind fun i => (s.inst? i).map fun x => (i, x)

/-- The instance in a stall slot of a core. -/
def State.stall (s : State) (r : StallRef) : Option (Nat × Inst) :=
  s.instOf (AMap.get? (s.core r.core.val).slots r.slot.val)

/-- The engine instructions and program steps of a stall run while its instance is RESIDENT. -/
def State.running (s : State) (r : StallRef) : Option (Nat × Inst) :=
  match s.stall r with
  | some (i, x) => if x.state = .resident then some (i, x) else none
  | none => none

/-- The context that a queue keeps with an instance's handles (R221). -/
def Inst.ctx (x : Inst) : HandleCtx :=
  { rowTable := x.desc.rowTable, resetMasks := x.desc.resetMasks, rowCount := x.desc.rowCount, steps := x.desc.steps
    deadline := x.desc.deadline, be := x.desc.be, chain := x.chain }

/-- Crib units of a core that no reservation holds (R84, 09 R229). -/
def State.cribFree (s : State) (n : Nat) : Nat :=
  let ring := match s.coreBay n with | some b => fld (s.reg (Reg.SW_RING_CFG b)) 6 0 | none => 0
  let held := (s.insts.map fun e => if e.2.core = n ∧ e.2.state ≠ .ready then e.2.desc.cribUnits else 0).sum
  256 - ring - held

/-- The LC crib reserve of a bay's cores (R96). -/
def State.lcReserve (s : State) (b : Nat) : Nat :=
  ((s.templates b).map fun t => let d := parseSheaf t; if d.be then 0 else d.cribUnits).foldl max 0

/-- A core is held by `CORE_CMD` HOLD in force (R114). -/
def State.held (s : State) (n : Nat) : Bool := decide (s.reg (Reg.CORE_CMD n) = 1)

/-- The dispatch order (R94). -/
def State.dispatchOrder (s : State) (b : Nat) : List Nat :=
  (s.bayCores b).filter fun n => s.coreRole n = 1 && !s.held n

/-- A free stall slot of a core. -/
def Core.freeSlot (c : Core) (from_ : Nat) : Option Nat :=
  (List.range 8).find? fun k => decide (from_ ≤ k) && (AMap.get? c.slots k).isNone

/-- Where an instance of a bay would be placed (R95, R96, R101): core and slot. -/
def State.placement (s : State) (b : Nat) (x : Inst) : Option (Nat × Nat) :=
  let need := x.desc.cribUnits + if x.desc.be then s.lcReserve b else 0
  let fits := fun n => decide (s.cribFree n ≥ need)
  let order := s.dispatchOrder b
  match order.find? fun n => (s.core n).slots.isEmpty && fits n with
  | some n => some (n, 0)
  | none =>
    if s.relay b then none
    else (order.find? fun n => ((s.core n).freeSlot 0).isSome && fits n).bind fun n => ((s.core n).freeSlot 0).map fun k => (n, k)

/-- A relay bay's stagger interval is running for an instance (R101). -/
def State.staggered (s : State) (b : Nat) (x : Inst) : Bool :=
  s.relay b && (match (s.bay b).lastPlaced with | some t => decide (s.since t < periodsOfTens x.desc.stagger) | none => false)

/-- The order of the LC ready list: deadline, then readiness; of the BE ready list: readiness (R93). -/
def readyBefore (m : AMap Inst) (be : Bool) (i j : Nat) : Bool :=
  match AMap.get? m i, AMap.get? m j with
  | some x, some y =>
    if be then decide (x.ready.toNat < y.ready.toNat)
    else decide (x.desc.deadline.toNat < y.desc.deadline.toNat ∨
      (x.desc.deadline = y.desc.deadline ∧ x.ready.toNat < y.ready.toNat))
  | _, _ => false

/-- Put an instance into its ready list. -/
def State.enlistReady (s : State) (b i : Nat) (be : Bool) : State :=
  let y := s.bay b
  if be then s.setBay b { y with readyBe := orderedInsert (readyBefore s.insts true) i y.readyBe }
  else s.setBay b { y with readyLc := orderedInsert (readyBefore s.insts false) i y.readyLc }

/-- A ready list has room (R93). -/
def State.readyRoom (s : State) (b : Nat) (be : Bool) : Bool :=
  decide ((if be then (s.bay b).readyBe else (s.bay b).readyLc).length < 16384)

/-- A fresh instance of a descriptor: READY, with nothing done. -/
def freshInst (b : Nat) (d : SheafDesc) (seq : Word) (origin : InstOrigin) (chain : Option Nat) (ready : W64) (arith : Word) : Inst :=
  { bay := b, desc := d, seq := seq, state := .ready, origin := origin, chain := chain, ready := ready, faults := 0
    failCounted := false, core := 0, slot := 0, blockedAt := 0, blockCause := 0, crib := [], cribChaff := []
    cribUe := [], tokens := [], owed := none, scanHeld := none
    input := none, weight := none, output := none, next := none, popped := [], taken := [], got := [], staged := [], frees := []
    unmarked := [], chaffMode := false, gleaning := none, faultOnRestore := none, wasted := 0, wastedOut := 0, arithCtl := arith, scan := [] }

/-- Create a READY instance with the bay's next sheaf sequence (R87, R92). The replay flag is set at instantiation: it is clear, whatever the
template holds (R87). -/
def State.createInst (s : State) (b : Nat) (d : SheafDesc) (origin : InstOrigin) (chain : Option Nat)
    (popped : List (Nat × QueueEntry)) : State × Nat :=
  let y := s.bay b
  let i := s.nextInst
  let x := { freshInst b { d with replay := false } y.nextSeq origin chain s.lic 0 with popped := popped }
  let s1 := { (s.setBay b { y with nextSeq := y.nextSeq + 1, doneSeqs := setRemove y.doneSeqs y.nextSeq.toNat })
              with nextInst := i + 1 }
  ((s1.setInst i x).enlistReady b i d.be, i)

/-- The class bit and trace arguments of an instance (15 R355). -/
def Inst.traceArg (x : Inst) : Nat :=
  x.desc.graph + x.slot * 0x100 + (if x.desc.be then 0x800 else 0) + x.desc.node * 0x10000

/-- Place a ready instance on a core (R92, R95): crib units reserved, the slot taken, staged arithmetic control applied (05 R141),
input, weight and next-layer programs started. -/
def State.place (s : State) (b i n k : Nat) (x : Inst) : State :=
  let y := s.bay b
  let s0 := s.applyStaged (Reg.ARITH_CTL n)
  let start := fun p => if p = noField then none else some (Program.start p)
  let x1 := { x with
    state := .resident, core := n, slot := k, arithCtl := s0.reg (Reg.ARITH_CTL n)
    input := start x.desc.inputProg, weight := start x.desc.weightProg, next := start x.desc.nextProg
    output := some { Program.start x.desc.outputProg with started := false } }
  let c := s0.core n
  let s1 := (s0.setInst i x1).setCore n { c with slots := AMap.set c.slots k i, promised := AMap.erase c.promised k }
  let s2 := s1.setBay b { y with
    readyLc := y.readyLc.filter (· ≠ i), readyBe := y.readyBe.filter (· ≠ i), lastPlaced := some s.lic }
  let s3 :=
    if x.desc.be then s2
    else
      let late := if x.desc.deadline.toNat < s.lic.toNat then s2.countWrap (Reg.DISP_LATE_LC b) 1 else s2
      late.keepMax (Reg.DISP_LC_WAIT_MAX b) 32 (tensOfPeriods (s.since x.ready))
  let s4 := s3.trace b 0x0100 (telUnit 0 n) x.seq x1.traceArg
  if x.desc.replay then s4.trace b 0x0104 (telUnit 0 x.core) x.seq n else s4

/-- Begin the save of a resident stall (R103 step 3, R106); `taker` is the instance that takes the slot, if one does. -/
def State.beginSave (s : State) (n k : Nat) (taker : Option Nat) : State :=
  let c := s.core n
  match (AMap.get? c.slots k).bind s.inst? with
  | some x =>
    let s1 := s.setInst ((AMap.get? c.slots k).getD 0) { x with state := .saving }
    s1.setCore n { c with issuing := if c.issuing = some k then none else c.issuing, promised := match taker with | some j => AMap.set c.promised k j | none => c.promised }
  | none => s

/-- The lowest-numbered BE stall that is resident or blocked. -/
def State.beVictim (s : State) (n : Nat) : Option (Nat × Nat × Inst) :=
  (s.residents n).find? fun r => r.2.2.desc.be && (r.2.2.state = .resident || r.2.2.state = .blocked)

/-- An LC instance takes a slot once its victim is saved (R103). -/
def State.promisedLc (s : State) (b i : Nat) : Bool := (s.bayCores b).any fun n => (s.core n).promised.any fun e => e.2 = i

/-- Pre-empt a BE stall for an LC instance that cannot be placed (R102). A failure is counted once per instance. -/
def State.preemptFor (s : State) (b i : Nat) (x : Inst) : State :=
  if s.promisedLc b i then s
  else
    match (s.dispatchOrder b).find? fun n =>
      (s.beVictim n).isSome && decide ((s.core n).saved.length < 56) && decide (s.cribFree n ≥ x.desc.cribUnits) with
    | some n =>
      match s.beVictim n with
      | some (k, _, v) =>
        let s1 := (s.beginSave n k (some i)).countWrap (Reg.CORE_PREEMPTS n) 1
        s1.trace b 0x0102 (telUnit 0 n) v.seq x.seq.toNat
      | none => s
    | none =>
      if x.failCounted then s
      else (s.setInst i { x with failCounted := true }).countWrap (Reg.DISP_PREEMPT_FAIL b) 1

/-- Dispatch of a bay has stopped for lull: asked for or reached (02 R43). -/
def Bay.lullWanted (y : Bay) : Bool :=
  y.lullHost || y.lullLoad || y.lullRestart || y.lullSafe || y.lullPolicy || y.lullReset

/-- The inputs of an instance are published: each queue that it consumes has a handle for it (02 R43). -/
def State.inputsPublished (s : State) (x : Inst) : Bool :=
  [x.desc.consume0, x.desc.consume1].all fun q => q = noField || x.popped.any (fun e => e.1 = q) || !(s.queue q).entries.isEmpty

/-- The LC instance whose turn it is: the head of the list; while the bay goes to lull, the first whose inputs are published (02 R43 step 2). -/
def State.lcTurn (s : State) (b : Nat) : Option Nat :=
  let l := (s.bay b).readyLc
  if (s.bay b).lullWanted then l.find? fun i => ((s.inst? i).map s.inputsPublished).getD false else l.head?

/-- The power cap withholds BE placement in the first h sixteenths of a control interval of 1 ms (13 R323). -/
def State.beWithheld (s : State) : Bool := decide (s.since s.pmc.intervalAt * 16 < s.pmc.h * periodsOfMicros 1000)

/-- The saved contexts of a core that can run, of one class, longest saved first (R100). -/
def State.savedRunnable (s : State) (n : Nat) (be : Bool) : Option Nat :=
  (s.core n).saved.find? fun i =>
    s.runnableSaved i && (match s.inst? i with | some x => x.desc.be = be | none => false)

/-- Begin the restore of a saved context into a slot (R100). -/
def State.beginRestore (s : State) (n k i : Nat) : State :=
  match s.inst? i with
  | some x =>
    let c := s.core n
    (s.setInst i { x with state := .restoring, slot := k }).setCore n
      { c with slots := AMap.set c.slots k i, saved := c.saved.filter (· ≠ i), promised := AMap.erase c.promised k }
  | none => s

/-- The slot that a sheaf placed in a victim's stead takes: the victim's, or slot 0 in relay mode (R101, R103). -/
def State.placeSlot (s : State) (b k : Nat) : Nat := if s.relay b then 0 else k

/-- The slot that a context restored in a victim's stead takes: the victim's, or slot 1 in relay mode (R101, R104). -/
def State.restoreInto (s : State) (b k : Nat) : Nat := if s.relay b then 1 else k

/-- The slot of a core that a saved context may be restored to: any free one, or in relay mode one of slots 1 to 7 while no stall is
resident (R100, R101). -/
def State.restoreSlot (s : State) (n : Nat) : Option Nat :=
  let c := s.core n
  match s.coreBay n with
  | some b => if s.relay b then (if c.slots.isEmpty then some 1 else none) else c.freeSlot 0
  | none => c.freeSlot 0

/-- Grant a freed slot of a core (R100): a runnable saved LC context; an LC instance that the dispatcher can place there goes before
a runnable saved BE context. In lull no BE context is restored (02 R43). -/
def State.grant (s : State) (n : Nat) : State :=
  match s.restoreSlot n with
  | none => s
  | some k =>
    match s.savedRunnable n false with
    | some i => s.beginRestore n k i
    | none =>
      match s.coreBay n with
      | none => s
      | some b =>
        let y := s.bay b
        let lcHere := match (s.lcTurn b).bind s.inst? with
          | some x => decide ((s.placement b x).map (·.1) = some n)
          | none => false
        if lcHere || y.lulled || y.lullWanted then s
        else match s.savedRunnable n true with
          | some i => s.beginRestore n k i
          | none => s

/-- Grant the free slots of a core, one after another (R100). -/
def State.grantAll (s : State) (n : Nat) : State := (List.range 8).foldl (fun (s : State) _ => s.grant n) s

/-- The BE instance that the dispatcher would place: the first of the list for which a core is free. DESIGN CHOICE: one that cannot be placed does
not hold back a later one (log 80). -/
def State.beChoice (s : State) (b : Nat) : Option (Nat × Inst × Nat × Nat) :=
  (s.bay b).readyBe.foldl (fun (acc : Option (Nat × Inst × Nat × Nat)) i =>
    if acc.isSome then acc
    else (s.inst? i).bind fun x => (s.placement b x).map fun p => (i, x, p.1, p.2)) none

/-- Place the BE instance that is first in turn (R95), unless its stagger interval runs (R101) or BE placement is withheld (02 R43, 13 R323). -/
def State.dispatchBe (s : State) (b : Nat) : State :=
  if (s.bay b).lullWanted || s.beWithheld then s
  else
    match s.beChoice b with
    | some (i, x, n, k) => if s.staggered b x then s else s.place b i n k x
    | none => s

/-- One look of the dispatcher: freed slots go to runnable saved contexts first (R100); the LC instance at the head is placed if it can be; else
pre-emption is tried for it, and only where that fails too is a BE instance placed (R93, R95, R101, R102). A staged `CORE_CMD` applies at the
placement (R114). In lull nothing is placed. -/
def State.dispatch (s0 : State) (b : Nat) : State :=
  if (s0.bay b).lulled then s0.applyAll ((s0.bayCores b).map Reg.CORE_CMD)
  else
    let s := (s0.bayCores b).foldl State.grantAll (s0.applyAll ((s0.bayCores b).map Reg.CORE_CMD))
    match s.lcTurn b with
    | none => s.dispatchBe b
    | some i =>
      match s.inst? i with
      | none => s
      | some x =>
        match s.placement b x with
        | some (n, k) => if s.staggered b x then s else s.place b i n k x
        | none =>
          let t := s.preemptFor b i x
          if t.promisedLc b i then t else t.dispatchBe b

/-- A runnable saved LC context pre-empts a resident BE stall of its core when no slot is free (R104). -/
def State.preemptForSaved (s : State) (n : Nat) : State :=
  if (s.restoreSlot n).isSome || !(s.core n).promised.isEmpty then s
  else
    match s.savedRunnable n false, s.beVictim n with
    | some i, some (k, _, v) =>
      if (s.core n).saved.length ≥ 57 then s
      else
        let s1 := (s.beginSave n k (some i)).countWrap (Reg.CORE_PREEMPTS n) 1
        s1.trace v.bay 0x0102 (telUnit 0 n) v.seq (((s.inst? i).map fun x => x.seq.toNat).getD 0)
    | _, _ => s

/-! ### Waits that begin and end (R92) -/

/-- A saved context whose waits are over takes or pre-empts a slot of its core (R100, R104). -/
def State.rouse (s : State) (i : Nat) : State :=
  match s.inst? i with
  | some x => if s.runnableSaved i then (s.preemptForSaved x.core).grant x.core else s
  | none => s

/-- Bring RESIDENT and BLOCKED in line with what the instance waits for (R92). A stall that becomes blocked is at a boundary: the sequencer
chooses again (R98, R99). A saved context whose waits are over is runnable. -/
def State.refresh (s : State) (i : Nat) : State :=
  match s.inst? i with
  | none => s
  | some x =>
    if x.state = .resident ∧ s.waiting i x then
      let s1 := s.setInst i { x with state := .blocked, blockedAt := s.lic, blockCause := s.waitCause i x }
      if (s.core x.core).issuing = some x.slot then s1.chooseIssue x.core else s1
    else if x.state = .blocked then
      s.setInst i (if s.waiting i x then { x with blockCause := s.waitCause i x } else { x with state := .resident, blockCause := 0 })
    else s.rouse i

/-! ### Leaving a core -/

/-- Take an instance out of its core's slot or saved list; its crib reservation stays while its entry does. -/
def State.leaveStall (s : State) (i : Nat) (x : Inst) : State :=
  let c := s.core x.core
  s.setCore x.core { c with
    slots := c.slots.filter fun e => e.2 ≠ i, saved := c.saved.filter (· ≠ i)
    promised := c.promised.filter fun e => e.2 ≠ i
    issuing := if c.issuing = some x.slot && AMap.get? c.slots x.slot = some i then none else c.issuing }

/-- An instance's entry goes: its crib reservation is free again. -/
def State.dropInst (s : State) (i : Nat) : State := { s with insts := AMap.erase s.insts i }

/-- The stalls of a core that have joined a round. -/
def State.joinsOn (s : State) (r : Round) (core : Nat) : List RoundJoin :=
  r.joins.filter fun j => match s.inst? j.inst with | some z => decide (z.core = core) | none => false

/-- A tile of a core's buffer is still wanted: a stall of the core that has joined its round has not ended its pass over it (09 R228). -/
def State.tileWanted (s : State) (b core key : Nat) : Bool :=
  (s.bay b).rounds.any fun r => r.serial = key / 65536 && (s.joinsOn r core).any fun j => !j.had.contains (key % 65536)

/-- The slots of the tiles that no joined stall of a core wants any more are free (09 R228). -/
def State.freeTiles (s : State) (b core : Nat) : State :=
  let c := s.core core
  let left := fun (h : RingHalf) => { h with tiles := AMap.keep (fun k _ => s.tileWanted b core k) h.tiles }
  s.setCore core { c with current := left c.current, next := left c.next }

/-- Drop an instance from rotation rounds (09 R230); the slots that the remaining stalls have consumed are free (09 R228). -/
def State.leaveRounds (s : State) (i : Nat) (x : Inst) : State :=
  let y := s.bay x.bay
  (s.setBay x.bay { y with
    rounds := y.rounds.map fun r => { r with joins := r.joins.filter fun j => j.inst ≠ i }
    pools := AMap.mapVals (fun _ p => { p with waits := p.waits.filter fun w => w.inst ≠ i }) y.pools }).freeTiles x.bay x.core

/-- The fault holder belongs to an instance. -/
def FaultHolder.ofInst (h : FaultHolder) (i : Nat) : Bool :=
  match h with
  | .program j _ => j = i
  | .engine j => j = i
  | _ => false

/-- Withdraw the outstanding faults and held writes of an instance (09 R230). -/
def State.withdraw (s : State) (i : Nat) : State :=
  { s with trans := { s.trans with
      faults := s.trans.faults.filter fun f => !f.holder.ofInst i
      held := s.trans.held.filter fun h => !h.holder.ofInst i } }

/-- Discard the engine operations of an instance (09 R230). -/
def State.discardEngines (s : State) (i : Nat) : State :=
  let ids := (s.engines.commands.filter fun c => c.inst = i).map (·.id)
  { s with engines := { s.engines with
      commands := s.engines.commands.filter fun c => c.inst ≠ i
      passes := s.engines.passes.filter fun p => p.inst ≠ i
      shares := s.engines.shares.filter fun sh => match sh.work with
        | .command id => !ids.contains id
        | .pass j _ _ => j ≠ i } }

/-- Stop a program at once. -/
def Program.stop (p : Program) : Program := { p with started := true, ended := true, wait := .none }

/-! ### Publication and chaff mode -/

/-- The last handle that an instance publishes to a queue carries `last` only where its SIGNAL set it; the run of one queue keeps
SIGNAL order (R219). -/
def Inst.runFor (x : Inst) (q : Nat) : List QueueEntry :=
  (x.staged.filter fun e => e.2.1 = q).map fun e => ⟨e.2.2, x.ctx⟩

/-- Queues that an instance publishes to, in order of first SIGNAL. -/
def Inst.outQueues (x : Inst) : List Nat :=
  x.staged.foldl (fun l e => if l.contains e.2.1 then l else l ++ [e.2.1]) []

/-- The handles of an instance reach the publish buffer and go onto their queues; staged releases take effect; the buffers that the handles name
are the consumers' (R91, R218, R219). A buffer that was taken and that no handle names stays with the instance: it is not returned (R218). -/
def State.publish (s : State) (x : Inst) : State :=
  let s1 := x.outQueues.foldl (fun s q => s.pushRun q (x.runFor q)) s
  x.frees.foldl (fun s f => s.releaseBuffer x.bay f.1 f.2) s1

/-- Mark the lines of the pages of a run that translate (R108). A page that a protection fault bars is passed over; a resumable fault ends the
run and is answered. -/
def State.chaffPages (s : State) (b : Nat) (en : Engine) : List (Nat × Nat) → State × Option RunFault
  | [] => (s, none)
  | (va, len) :: rest =>
    match s.translate b va true en with
    | (s1, .ok t) => ({ s1 with chaff := (linesOf (t.phys va) len).foldl setInsert s1.chaff } : State).chaffPages b en rest
    | (s1, .error (c, l, e)) =>
      if c.resumable then (s1, some ⟨va, c, l, e⟩) else ((s1.raiseFault b va true en c l e .none).1).chaffPages b en rest

/-- Mark the buffers of an aborted instance that are not yet marked whole (R108); a translation fault holds its output program (03 R81). Answers
whether the program may go on. -/
def State.markBuffers (s : State) (i : Nat) : List (Nat × Nat) → State × Bool
  | [] => (s, true)
  | (pool, k) :: rest =>
    match s.inst? i with
    | none => (s, true)
    | some x =>
      let en := fxeEngine x.core
      match s.chaffPages x.bay en (pageRuns (s.bufferVa x.bay pool k) (s.poolSize x.bay pool)) with
      | (s1, none) => (s1.setInst i { x with unmarked := rest }).markBuffers i rest
      | (s1, some f) =>
        let (s2, tag) := s1.raiseFault x.bay f.va true en f.cause f.level f.entry (.program i .output)
        let wait := if f.cause = .migrating then ProgWait.held else .fault tag
        (s2.setInst i { x with unmarked := (pool, k) :: rest, output := x.output.map fun p => { p with wait := wait } }, false)

/-- The counter of an open loop level, 0 for a level that is not open. -/
def Program.counter (p : Program) (l : Nat) : Nat := ((p.loops.find? fun x => x.level = l).map (·.counter)).getD 0

/-- Close a loop level, or go round it (R210). -/
def Program.endLoop (p : Program) : Program :=
  match p.loops with
  | l :: rest =>
    if l.counter + 1 < l.count then { p with pc := l.body, loops := { l with counter := l.counter + 1 } :: rest }
    else { p with pc := p.pc + 1, loops := rest }
  | [] => { p with pc := p.pc + 1 }

/-- Open a level (R210). -/
def Program.openLoop (p : Program) (level count : Nat) : Program :=
  { p with pc := p.pc + 1, loops := ⟨level, count, 0, p.pc + 1, []⟩ :: p.loops }

/-- An address register replaced. -/
def Program.setReg (p : Program) (a : Nat) (r : AddrReg) : Program := { p with regs := p.regs.set a r }
def Program.areg (p : Program) (a : Nat) : AddrReg := (p.regs[a]?).getD .zero

/-- The queue index of a consume or produce field. -/
def SheafDesc.consume (d : SheafDesc) (q : Nat) : Nat := if q = 0 then d.consume0 else d.consume1
def SheafDesc.produce (d : SheafDesc) (q : Nat) : Nat := if q = 0 then d.produce0 else d.produce1

/-- The row table entry of a row: index, kind, chaff (04 R88). -/
structure RowEntry where
  index : Nat
  seq : Bool
  chaff : Bool
  deriving DecidableEq, Repr

def parseRow (v : Nat) : RowEntry := ⟨v % 16384, v / 16384 % 2 = 1, v / 32768 % 2 = 1⟩

/-- The rows of an instance: of its batch slot, or of the row table in memory, read as the bay's own data. -/
def State.rowsOf (s : State) (x : Inst) : List RowEntry :=
  match x.chain.bind fun c => AMap.get? (s.batcher x.bay).slots c with
  | some b => b.rows.map fun r => ⟨r.index, r.seq, false⟩
  | none =>
    match s.readRun x.bay x.desc.rowTable.toNat (x.desc.rowCount * 4) dispatcherEngine with
    | (_, .ok (bs, _)) => (List.range x.desc.rowCount).map fun i => parseRow (leAt bs (i * 4) 4)
    | (_, .error _) => []

/-- A row names a stream or sequence of the bay (R88). -/
def State.rowOfBay (s : State) (b : Nat) (r : RowEntry) : Bool :=
  if r.seq then s.bayOfSeq r.index = some b else s.bayOfSid r.index = some b

/-- The rows of an instance are contexts of its bay; an access to another bay's is a protection fault (01 R26). -/
def State.rowsHome (s : State) (x : Inst) : Bool := (s.rowsOf x).all fun r => s.rowOfBay x.bay r

/-- The F of an instance's graph, 0 where its rows are sequences (R211). -/
def State.lookahead (s : State) (x : Inst) : Nat :=
  if (s.rowsOf x).any (·.seq) then 0 else ((AMap.get? (s.batcher x.bay).shapes x.desc.graph).map (·.f)).getD 0

/-- A LOOP count (R211). -/
def State.loopCount (s : State) (x : Inst) (count : Nat) : Nat :=
  if count = 0 then x.desc.rowCount else if count = 0xFFFFF then x.desc.steps + s.lookahead x else count

/-- The stream tag of a SIGNAL's row level (R216). -/
def State.rowTag (s : State) (x : Inst) (p : Program) (rowLevel : Nat) : Nat :=
  if rowLevel = 7 then 0 else (((s.rowsOf x)[p.counter rowLevel]?).map (·.index)).getD 0

/-- The row that a SIGNAL's tag names belongs to a chunk completed with silence: its output handle carries chaff (06 R149). -/
def State.silentRow (s : State) (x : Inst) (p : Program) (rowLevel : Nat) : Bool :=
  if rowLevel = 7 then false
  else
    match (s.rowsOf x)[p.counter rowLevel]? with
    | some r =>
      !r.seq && x.chain.isSome && (((s.stream r.index).inflight).map (·.silence)).getD false
    | none => false

/-- The handle that a WAIT takes (R219, R221, R222): one already bound to the instance for the queue, else the head of the queue. -/
def State.nextHandle (s : State) (x : Inst) (q : Nat) : State × Option (Inst × QueueEntry) :=
  let n := AMap.getD x.taken q 0
  let y := { x with taken := AMap.set x.taken q (n + 1) }
  match (x.popped.filter fun e => e.1 = q)[n]? with
  | some e => (s, some (y, e.2))
  | none =>
    match s.popQueue q with
    | (s1, some e) => (s1, some ({ y with popped := x.popped ++ [(q, e)] }, e))
    | (s1, none) => (s1, none)

/-- The length of a SIGNAL's handle in 64-byte units: its field, or the extent written through the register where the field is 0 (R210). -/
def AddrReg.signalLength (r : AddrReg) (len : Nat) : Nat := if len = 0 then ceilDiv r.extent 64 else len

/-- Bytes of the area that the crib cursor walks: the reservation, or half the ring buffer (R209, R229). -/
def State.cursorSize (s : State) (x : Inst) (p : Program) : Nat :=
  if p.cursorArea = 0 then x.desc.cribUnits * 65536 else fld (s.reg (Reg.SW_RING_CFG x.bay)) 6 0 * 65536 / 2

/-- The stride sum of a target over the open levels: registers 0 to 7, the crib cursor 8. -/
def Program.strides (p : Program) (target : Nat) : Int :=
  (p.loops.map fun l => (l.counter : Int) * (((l.strides.find? fun e => e.1 = target).map (·.2)).getD 0)).sum

/-- The effective address of a register, modulo 2^64. -/
def Program.address (p : Program) (a : Nat) : Nat := natOfInt 64 (((p.areg a).base.toNat : Int) + p.strides a)

/-- A stride of the innermost level; a later one for the same target replaces it. The level's body starts after its STEPs, which declare
and are not repeated. -/
def Program.addStride (p : Program) (level target : Nat) (stride : Int) : Program :=
  match p.loops with
  | l :: rest =>
    if l.level = level then
      { p with
        pc := p.pc + 1
        loops := { l with body := p.pc + 1, strides := (l.strides.filter fun e => e.1 ≠ target) ++ [(target, stride)] } :: rest }
    else { p with pc := p.pc + 1 }
  | [] => { p with pc := p.pc + 1 }

/-- The extent that a MOVE to memory of chaff mode leaves: nothing is written, and the handle's length is what the program would have published
(R108, R216). -/
def State.chaffExtent (s : State) (x : Inst) (p : Program) (a len : Nat) : Program :=
  let r := p.areg a
  let buf := s.bufferVa x.bay r.pool r.buffer
  let va := p.address a
  if r.fill = .got ∧ buf ≤ va ∧ va + len ≤ buf + s.poolSize x.bay r.pool then
    p.setReg a { r with extent := max r.extent (va + len - buf) }
  else p

/-- Run an aborted instance's output program in chaff mode (R108): it takes its buffers, marks them whole, stages its handles with the
chaff bit, and moves nothing; it stops at END or where it must wait for a buffer, a handle or a page. An access to a queue that is not the core's
is passed over: that fault has been taken (R220). -/
def State.runChaff (s : State) (i : Nat) : Nat → State
  | 0 => s
  | fuel + 1 =>
    match s.inst? i with
    | none => s
    | some x =>
      match x.output with
      | none => s
      | some p =>
        if p.ended then s
        else
          let put := fun (s : State) (x : Inst) (p : Program) => s.setInst i { x with output := some p }
          let go := fun (p : Program) => { p with pc := p.pc + 1, wait := .none }
          match (s.swathEntry x.bay p.entry).bind fun e => swAt e p.pc with
          | none => put s x { p with ended := true, wait := .none }
          | some (.end_ _ _) => put s x { p with ended := true, wait := .none }
          | some (.loop l c) => (put s x (p.openLoop l (s.loopCount x c))).runChaff i fuel
          | some (.endloop _) => (put s x p.endLoop).runChaff i fuel
          | some (.step l crib a stride) => (put s x (p.addStride l (if crib then 8 else a) stride)).runChaff i fuel
          | some (.move a toMem len) => (put s x (go (if toMem then s.chaffExtent x p a len else p))).runChaff i fuel
          | some (.get a pool) =>
            if s.canGet x.bay pool i .output (!x.desc.be) then
              match s.getBuffer x.bay pool i .output with
              | (s1, some k) =>
                let reg : AddrReg :=
                  { AddrReg.zero with fill := .got, base := BitVec.ofNat 64 (s1.bufferVa x.bay pool k), pool := pool, buffer := k }
                let s2 := put s1 { x with got := x.got ++ [(.output, pool, k)] } ((go p).setReg a reg)
                match s2.markBuffers i [(pool, k)] with
                | (s3, true) => s3.runChaff i fuel
                | (s3, false) => s3
              | (s1, none) => s1
            else put (s.awaitBuffer x.bay pool i .output (!x.desc.be)) x { p with wait := .pool pool }
          | some (.wait a q) =>
            let queue := x.desc.consume q
            if !s.coreQueue x.bay queue false then (put s x (go p)).runChaff i fuel
            else
              match s.nextHandle x queue with
              | (s1, some (y, e)) =>
                (put s1 y
                  ((go p).setReg a { AddrReg.zero with fill := .waited, pool := e.handle.pool, buffer := e.handle.buffer
                                                       chaff := e.handle.chaff })).runChaff i fuel
              | (s1, none) => put s1 x { p with wait := .queue queue }
          | some (.signal a q last r len) =>
            let reg := p.areg a
            let queue := x.desc.produce q
            if reg.fill ≠ .got || !s.coreQueue x.bay queue true then (put s x (go p)).runChaff i fuel
            else
              let h : Handle := { pool := reg.pool, buffer := reg.buffer, length := reg.signalLength len, chaff := true, last := last
                                  tag := s.rowTag x p r, seq := 0 }
              (put (s.count32 (Reg.FXE_CHAFF_OUT x.core) 1) { x with staged := x.staged ++ [(.output, queue, h)] } (go p)).runChaff i fuel
          | some (.free a) =>
            let reg := p.areg a
            if reg.fill = .waited then
              (put s { x with frees := x.frees ++ [(reg.pool, reg.buffer)] } (go p)).runChaff i fuel
            else (put s x (go p)).runChaff i fuel
          | some _ => (put s x (go p)).runChaff i fuel

/-- How many instructions one go of chaff mode runs before it gives way. -/
def chaffFuel : Nat := 4096

/-- An aborted instance's output program goes on: buffers whose marking a fault held come first (R108). -/
def State.chaffOn (s : State) (i : Nat) : State :=
  match s.inst? i with
  | none => s
  | some x =>
    match s.markBuffers i x.unmarked with
    | (s1, true) => s1.runChaff i chaffFuel
    | (s1, false) => s1

/-- Abort an instance (R108): its engines stop and its stall is freed; its staged handles are marked; its output program goes on in chaff mode.
Its input, weight and next-layer programs end, and are gleaned: what they took is returned once every access of theirs that is in flight has
completed (09 R230). -/
def State.abortNow (s : State) (i : Nat) (cause : Nat) : State :=
  match s.inst? i with
  | none => s
  | some x =>
    if x.state = .aborted || x.state = .done then s
    else
      let s1 := ((s.leaveStall i x).leaveRounds i x).withdraw i
      let s2 : State := { s1 with engines := { s1.engines with passes := s1.engines.passes.filter fun p => p.inst ≠ i } }
      let out := match x.output with
        | some p => some { p with started := true, wait := .none }
        | none => some (Program.start x.desc.outputProg)
      let x1 := { x with
        state := .aborted, chaffMode := true, gleaning := some .abort, input := x.input.map Program.stop, weight := x.weight.map Program.stop
        next := x.next.map Program.stop, output := out
        staged := (x.staged.filter fun e => e.1 = .output).map fun e => (e.1, e.2.1, { e.2.2 with chaff := true })
        unmarked := (x.got.filter fun g => g.1 = .output).map fun g => (g.2.1, g.2.2) }
      let s4 := (s2.setInst i x1).count16 (Reg.CORE_ABORTS x.core)
      let s5 := s4.log x.bay 0x0001 (telUnit 0 x.core) x.seq (x.desc.graph + cause * 0x100 + x.desc.node * 0x10000)
      (s5.chaffOn i).grant x.core

/-- A protection fault of an instance: at once, or, for a context that is saved or moving to or from its save area, when it is restored
(R108, R111). -/
def State.abortInst (s : State) (i : Nat) (cause : Nat) : State :=
  match s.inst? i with
  | some x =>
    if x.state = .saved || x.state = .saving || x.state = .restoring then
      s.setInst i { x with faultOnRestore := some (x.faultOnRestore.getD cause) }
    else s.abortNow i cause
  | none => s

/-- Begin the gleaning of an instance that is cancelled or replayed (09 R230): its bank-side shares run on, and their results are
discarded. A save or restore that is under way completes first, unless the core has faulted (R111). -/
def State.beginGlean (s : State) (i : Nat) (kind : GleanKind) : State :=
  match s.inst? i with
  | none => s
  | some x =>
    let s0 := (s.leaveRounds i x).withdraw i
    let s1 : State := { s0 with engines := { s0.engines with passes := s0.engines.passes.filter fun p => p.inst ≠ i } }
    let moving := (x.state = .saving || x.state = .restoring) && kind = .cancel
    s1.setInst i { x with
      state := if moving then x.state else .aborted, gleaning := some kind, staged := [], frees := [], input := x.input.map Program.stop
      weight := x.weight.map Program.stop, output := x.output.map Program.stop, next := x.next.map Program.stop }

/-- Replay an instance, whose core faults number `faults` by now (R109, R110): a fresh READY instance with the same rows, deadline, sequence and
popped handles, its replay flag set; the old attempt is gleaned. -/
def State.replayInst (s : State) (i : Nat) (x : Inst) (faults : Nat) : State :=
  let j := s.nextInst
  let fresh := { freshInst x.bay { x.desc with replay := true } x.seq x.origin x.chain s.lic 0 with
    faults := faults, popped := x.popped, core := x.core }
  let s1 := ({ s with nextInst := j + 1 }.beginGlean i .replay)
  let s2 := s1.setInst i (((s1.inst? i).getD x) |> fun y => { y with popped := [] })
  (s2.setInst j fresh).enlistReady x.bay j x.desc.be

end Sys2Proof.Machine
end

