-- ==== Sys2Proof/Machine/Flags.lean ====
section
/-! DEFINITION. The live status bits of every block (12 R291), and events: which bits rose in a step, and what the limits of 12 R304
make of them. -/

namespace Sys2Proof.Machine

/-- A counter that any write clears is not zero: the status bit "live until it is written" (12 R291). -/
def State.live (s : State) (counter : Nat) : Bool := s.reg counter ≠ 0

/-- One live bit at its position. -/
def liveBit (b : Bool) (i : Nat) : Word := flag b i

/-- `CFG_EVENT_STATUS` (02). CFG_DONE is live until the next LOAD or MOVE is accepted (log 17). -/
def cfgEvents (s : State) : Word :=
  s.latched Reg.CFG_EVENT_STATUS ||| liveBit (s.loader.state = .rejected) 1 |||
    liveBit (s.bays.any fun e => e.2.lulled) 2 ||| liveBit (s.loader.crcState = .awaitRef && s.loader.crcWarned) 3 |||
    liveBit s.loader.crcMismatch 4

/-- `TRN_EVENT_STATUS` (03). -/
def trnEvents (s : State) : Word :=
  s.latched Reg.TRN_EVENT_STATUS ||| liveBit (s.trans.fqCount ≠ 0) 1 ||| liveBit (decide (s.trans.fqCount ≥ 3072)) 2

/-- `MT_EVENT_STATUS` (03). -/
def mtEvents (s : State) : Word :=
  s.latched Reg.MT_EVENT_STATUS ||| liveBit (s.tiers.spillActive ≠ 0) 1 ||| liveBit (s.tiers.spillStarved ≠ 0) 2 |||
    liveBit (s.tiers.doubleRefresh ≠ 0) 4 ||| liveBit (!s.tiers.spareOut.isEmpty) 5

/-- `CORE_EVENT_STATUS` (04). -/
def coreEvents (s : State) (n : Nat) : Word :=
  liveBit (s.core n).faultFenced 0 ||| liveBit (s.live (Reg.CORE_ABORTS n)) 1 |||
    liveBit (decide ((s.core n).saved.length ≥ 56)) 2

/-- `ARITH_EVENT_STATUS` (05). -/
def arithEvents (s : State) (n : Nat) : Word :=
  liveBit (s.live (Reg.ARITH_ACC_SAT n)) 0 ||| liveBit (s.live (Reg.ARITH_NONFINITE n)) 1

/-- `SCE_EVENT_STATUS` (07). -/
def sceEvents (s : State) (n : Nat) : Word :=
  liveBit (s.live (Reg.SCE_SAT n)) 0 ||| liveBit (s.live (Reg.SCE_MISMATCH n)) 1

/-- `FXE_EVENT_STATUS` (09). -/
def fxeEvents (s : State) (n : Nat) : Word :=
  liveBit (s.live (Reg.FXE_CHAFF_IN n)) 0 ||| liveBit (s.live (Reg.FXE_CHAFF_OUT n)) 1

/-- The commands queued on a die's bank-side engines (05 R139): each command of an instance with a share there, and each page of an attention
pass (08 R194), in order of arrival. -/
def State.bseQueue (s : State) (d : Nat) : List ShareWork :=
  (s.engines.shares.filter fun sh => sh.die = d).foldl (fun l sh => if l.contains sh.work then l else l ++ [sh.work]) []

def State.bseQueued (s : State) (d : Nat) : Nat := (s.bseQueue d).length

/-- `BSE_EVENT_STATUS` (05). -/
def bseEvents (s : State) (d : Nat) : Word :=
  liveBit (decide (s.bseQueued d ≥ 256)) 0 ||| liveBit (bit s.tiers.doubleRefresh d) 1

/-- `SC_EVENT_STATUS` (06). -/
def scEvents (s : State) (i : Nat) : Word :=
  let x := s.stream i
  liveBit (s.live (Reg.SC_MISSES i)) 0 ||| liveBit x.absent 1 ||| liveBit (s.live (Reg.SC_IN_OVERRUN i)) 2 |||
    liveBit x.drained 3 ||| liveBit x.stateFault 4 ||| liveBit x.outFull 5

/-- The live bits [2:0] of `SC_SCAN_EVENT` (07). -/
def scanEvents (s : State) (i : Nat) : Word :=
  liveBit (s.live (Reg.SC_DRIFT_CHUNKS i)) 0 ||| liveBit (s.live (Reg.SC_STATE_MISMATCH i)) 1 |||
    liveBit (s.stream i).stateChaff 2

/-- Free batch slots of a bay (06 R153). -/
def State.batchSlotsFree (s : State) (b : Nat) : Nat := 1024 - (s.batcher b).slots.length

/-- `BAT_EVENT_STATUS` (06). -/
def batEvents (s : State) (b : Nat) : Word :=
  liveBit (s.batchSlotsFree b = 0) 0 |||
    liveBit ((s.batcher b).sets.any fun e => s.live (Reg.BAT_ALIGN_SILENCE b e.1)) 1

/-- Records that a sequence's tap ring holds, against its capacity (08 R200). -/
def State.tapFull (s : State) (q : Nat) : Bool :=
  let cap := fld (s.seqCtx q).latch.tapCfg 11 0
  cap ≠ 0 && decide ((s.reg (Reg.SQ_TAP_HEAD q) - s.reg (Reg.SQ_TAP_TAIL q)).toNat ≥ cap)

/-- `SQ_EVENT_STATUS` (08). -/
def sqEvents (s : State) (q : Nat) : Word :=
  let x := s.seqCtx q
  liveBit (s.live (Reg.SQ_MISSES q)) 0 ||| liveBit x.absent 1 ||| liveBit (s.live (Reg.SQ_SHAPE_FAULTS q)) 2 |||
    liveBit x.drained 3 ||| liveBit x.pageFault 4 ||| liveBit x.outFull 5 ||| liveBit (s.tapFull q) 6

/-- Attention passes queued on a die's walkers. -/
def State.attQueued (s : State) (d : Nat) : Nat := (s.engines.passes.filter fun p => p.die = d && !p.queued).length

/-- `ATT_EVENT_STATUS` (08). -/
def attEvents (s : State) : Word :=
  liveBit (s.live Reg.ATT_SHAPE_FAULTS) 0 ||| liveBit (s.live Reg.ATT_TAP_DROPPED) 1 |||
    liveBit ((List.range 4).any fun d => decide (s.attQueued d ≥ 64)) 2

/-- A producer waits on a queue of a bay (09 R219). -/
def State.producerWaits (s : State) (b : Nat) : Bool := (s.queueDefs b).any fun d => !(s.queue d.index).runs.isEmpty

/-- A GET of the bay waits (09 R217). -/
def State.getWaits (s : State) (b : Nat) : Bool := (s.bay b).pools.any fun e => !e.2.waits.isEmpty

/-- `SW_EVENT_STATUS` (09). -/
def swEvents (s : State) (b : Nat) : Word :=
  (s.latched (Reg.SW_EVENT_STATUS b) &&& 0x1) ||| liveBit (s.getWaits b) 1 ||| liveBit (s.producerWaits b) 2 |||
    liveBit ((List.range 4).any fun c => s.live (Reg.CCH_LOST_REARM b c)) 3 |||
    liveBit ((List.range 4).any fun c => s.latched (Reg.CCH_STATUS b c) ≠ 0) 4

/-- A transmit association that is in use has passed 2^63 (10 R244). -/
def State.pnHigh (s : State) : Bool := s.net.port.txSas.any fun a => decide (a.pn.toNat > 2 ^ 63)

/-- `EB_EVENT_STATUS` (10). -/
def ebEvents (s : State) : Word :=
  let up := s.net.port.link = .up8 || s.net.port.link = .up4
  liveBit (!up) 0 ||| liveBit (s.net.port.link = .up4) 1 ||| liveBit (s.net.peers.any fun e => e.2.down) 2 |||
    liveBit (s.net.conns.any fun e => e.2.state = .error) 3 ||| liveBit (s.live Reg.EB_FEC_UNCORR) 4 |||
    liveBit s.pnHigh 5 ||| liveBit (s.live Reg.EB_EVENT_LOST) 6

/-- An audio PLL is enabled and not locked (11 R267). -/
def State.pllUnlocked (s : State) (i : Nat) : Bool := bit (s.reg Reg.AP_PLL_CTRL) i && !bit s.audio.locked i

/-- `AP_EVENT_STATUS` (11). -/
def apEvents (s : State) : Word :=
  liveBit (s.pllUnlocked 0) 0 ||| liveBit (s.pllUnlocked 1) 1 |||
    (List.range 6).foldl (fun w g => w ||| liveBit (!(s.agroup g).slipped.isEmpty) (2 + g)) 0

/-- `AP_PORT_EVENT_STATUS` (11). -/
def apPortEvents (s : State) (p : Nat) : Word :=
  let x := s.aport p
  liveBit x.slipped 0 ||| (s.latched (Reg.AP_PORT_EVENT_STATUS p) &&& 0x2) ||| liveBit x.clockLost 2 |||
    liveBit (s.live (Reg.AP_MARK_LOST p)) 3 ||| liveBit x.portdError 4 ||| liveBit (s.live (Reg.AP_GAP_PERIODS p)) 5

/-- `HUB_EVENT_STATUS` (12). -/
def hubEvents (s : State) : Word :=
  liveBit (s.live Reg.HUB_GUARD_REFUSED) 0 ||| (s.latched Reg.HUB_EVENT_STATUS &&& 0x2) ||| liveBit (s.live Reg.HUB_BAD_ADDR) 2

/-- CAPPING (13 R323). -/
def State.capping (s : State) : Bool := decide (s.pmc.h > 0 ∨ s.pmc.capCeil > 0)

/-- The thermal ceiling of a core (13 R327): at most P2 while the cold start lasts, from the predictor's first forecast on; before it the ceiling is as
reset leaves it (00 R12; log 88). -/
def State.thermCeil (s : State) (n : Nat) : Nat :=
  max (AMap.getD s.pmc.thermCeil n 0) (if s.pmc.cold && !s.pmc.thermCeil.isEmpty then 2 else 0)

/-- A core's ceiling, and so its operating point: the lowest of the host's, the thermal and the cap ceilings (13 R326). -/
def State.point (s : State) (n : Nat) : Nat :=
  max (fld (s.reg Reg.PMC_PSTATE_CEIL) 2 0) (max (s.thermCeil n) s.pmc.capCeil)

/-- DERATED (13 R326). -/
def State.derated (s : State) : Bool := (List.range 36).any fun n => s.coreRole n = 1 && decide (s.point n > 0)

/-- THERMAL_LIMIT (13 R327). -/
def State.thermalLimit (s : State) : Bool := (List.range 36).any fun n => decide (s.thermCeil n > 0)

/-- Disabled phases. -/
def State.phasesFailed (s : State) : Nat := ((List.range 11).filter fun i => bit s.pmc.phases i).length

/-- `PMC_EVENT_STATUS` (13). -/
def pmcEvents (s : State) : Word :=
  liveBit s.capping 0 ||| liveBit s.derated 1 ||| liveBit s.thermalLimit 2 ||| liveBit (s.pmc.phases ≠ 0) 3

/-- `SEC_EVENT_STATUS` (14). -/
def secEvents (s : State) : Word :=
  liveBit (s.live Reg.SEC_OPEN_FAIL) 0 ||| liveBit (s.live Reg.SEC_ROLE_REFUSED) 1 ||| liveBit s.sec.record.trial 2 |||
    liveBit s.sec.roots.isEmpty 3 ||| liveBit (s.live Reg.SEC_ATTEST_DROP) 4

/-- Entries of Vane's alarm table in use (15 R360). -/
def State.alarmsUsed (s : State) : Nat := s.vane.alarms.length

/-- `TEL_EVENT_STATUS` (15). -/
def telEvents (s : State) : Word :=
  liveBit (s.tel.rings.any fun e => e.2.level ≠ .calm) 0 ||| liveBit (decide (s.alarmsUsed ≥ 3584)) 1 |||
    (s.latched Reg.TEL_EVENT_STATUS &&& 0x4)

/-- For the place of an enable register: the place of the status register it enables, the enables, and the live bits (12 R303). -/
def eventSource (s : State) (key : Nat) : Option (Nat × Word × Word) :=
  let a := keyAddr key
  let off := a % 0x00100000
  let std := fun (st : Word) => some (a + 4, s.reg key, st)
  if key ≠ a then none
  else if a = Reg.HUB_EVENT_EN then std (hubEvents s)
  else if a = Reg.CFG_EVENT_EN then std (cfgEvents s)
  else if a = Reg.TRN_EVENT_EN then std (trnEvents s)
  else if a = Reg.MT_EVENT_EN then std (mtEvents s)
  else if a = Reg.ATT_EVENT_EN then std (attEvents s)
  else if a = Reg.EB_EVENT_EN then std (ebEvents s)
  else if a = Reg.AP_EVENT_EN then std (apEvents s)
  else if a = Reg.PMC_EVENT_EN then std (pmcEvents s)
  else if a = Reg.SEC_EVENT_EN then std (secEvents s)
  else if a = Reg.TEL_EVENT_EN then std (telEvents s)
  else if 0x00401000 ≤ a ∧ a < 0x00401600 ∧ a % 0x100 = 0x8C then std (apPortEvents s ((a - 0x00401000) / 0x100))
  else if 0x01000000 ≤ a ∧ a < 0x03400000 then
    let n := (a - 0x01000000) / 0x00100000
    if off = 0x4C then std (coreEvents s n) else if off = 0x114 then std (arithEvents s n)
    else if off = 0x160 then std (sceEvents s n) else if off = 0x1A8 then std (fxeEvents s n) else none
  else if 0x04000000 ≤ a ∧ a < 0x04400000 then
    let i := (a - 0x04000000) / 0x100
    if a % 0x100 = 0x98 then std (scEvents s i)
    else if a % 0x100 = 0xDC then some (a, w32 (fld (s.reg key) 18 16), scanEvents s i) else none
  else if 0x05001000 ≤ a ∧ a < 0x05001400 then
    if a % 0x100 = 0x1C then std (bseEvents s ((a - 0x05001000) / 0x100)) else none
  else if 0x05200000 ≤ a ∧ a < 0x05400000 then
    if a % 0x100 = 0xA0 then std (sqEvents s ((a - 0x05200000) / 0x100)) else none
  else if 0x06000000 ≤ a ∧ a < 0x06004000 then
    let b := (a - 0x06000000) / 0x400
    if a % 0x400 = 0x148 then std (batEvents s b) else if a % 0x400 = 0x25C then std (swEvents s b) else none
  else none

/-! ### Events (12 R303, R304, 10 R258) -/

/-- A record finds room in the queue, or is dropped and counted (10 R258). -/
def State.queueRecord (s : State) (r : EventRecord) : State :=
  let s1 := { s with events := { s.events with window := s.events.window + 1 } }
  if s.events.queue.length ≥ 1024 then
    { (s1.count16 Reg.EB_EVENT_LOST) with events := { s1.events with lost := true } }
  else { s1 with events := { s1.events with queue := s1.events.queue ++ [r] } }

/-- The holdoff of a status register in REFCLK periods, and the records of a window (12 R304). -/
def State.holdoff (s : State) : Nat := fld (s.reg Reg.HUB_EVENT_HOLDOFF) 15 0
def State.eventRate (s : State) : Nat := fld (s.reg Reg.HUB_EVENT_RATE) 10 0

/-- Bits rise in a status register: a record at once, or into the register's pending record while its holdoff runs, a record of it is
pending, or the window is full (12 R304). -/
def State.rise (s : State) (addr : Nat) (bits : Word) : State :=
  let h := AMap.getD s.events.holds addr ⟨false, none⟩
  if h.running || h.pending.isSome || decide (s.events.window ≥ s.eventRate) then
    let p := match h.pending with | some (w, t) => (w ||| bits, t) | none => (bits, s.lic)
    { s with events := { s.events with holds := AMap.set s.events.holds addr ⟨h.running, some p⟩ } }
  else
    let s1 := s.queueRecord ⟨s.canonical addr, bits, s.lic⟩
    { s1 with events := { s1.events with holds := AMap.set s1.events.holds addr ⟨s.holdoff ≠ 0, none⟩ } }

/-- The enabled bits of an enable register's status that rose between two states: a bit rises while enabled, or is enabled while
live (12 R303). -/
def risen (s s' : State) (key : Nat) : Option (Nat × Word) :=
  match eventSource s key, eventSource s' key with
  | some (_, en, st), some (addr, en', st') =>
    let r := (en' &&& st') &&& ~~~(en &&& st)
    if r = 0 then none else some (addr, r)
  | _, _ => none

/-- End of a command: every enabled status bit that rose makes its event (12 R303). -/
def settle (s s' : State) : State :=
  (AMap.keys s'.regs).foldl (fun t key => match risen s s' key with | some (addr, r) => t.rise addr r | none => t) s'

end Sys2Proof.Machine
end

