-- ==== Sys2Proof/Machine/Access.lean ====
section
/-! DEFINITION. Register accesses: from an address to the place of a register, the session's role, the source's guard, and what an
accepted or refused write does before the register's own effect (12 R290 to R302, R306, R307, 14 R342, 04 R112). -/

namespace Sys2Proof.Machine

/-- How an access ended, as a REG response reports it (10 R252). -/
inductive RegStatus where
  | ok | notPermitted | skipped | badOp | timeout
  deriving DecidableEq, Repr

/-- Status codes of a REG operation (10 R252). -/
def RegStatus.code : RegStatus → Nat
  | .ok => 0 | .notPermitted => 1 | .skipped => 2 | .badOp => 3 | .timeout => 4

/-- The end of a command: the state it leaves, with the events of the status bits that rose (12 R303). -/
def State.done (s s' : State) : Host.Outcome State Fault Refusal := .next (settle s s')

/-! ### Sources, roles and guards -/

/-- A source as a number: control processors first (12 R301). -/
def sourceId : Source → Nat
  | .cp n => n.val
  | .peer p => 4 + p.val

/-- The open session of a peer (14 R341). -/
def State.session (s : State) (p : Nat) : Option Session := s.sec.sessions.find? fun x => x.peer = p

/-- A peer's session holds a role (14 R342). -/
def State.peerRole (s : State) (p : Nat) (r : Role) : Bool :=
  match s.session p with
  | some x => x.roles.testBit r.bit
  | none => false

/-- A source holds a role: control processors hold every role and need no session (14 R342). -/
def State.hasRole (s : State) (src : Source) (r : Role) : Bool :=
  match src with
  | .cp _ => true
  | .peer p => s.peerRole p.val r

/-- A source may send register accesses at all: a peer needs an open session (10 R251). -/
def State.admitted (s : State) (src : Source) : Bool :=
  match src with
  | .cp _ => true
  | .peer p => (s.session p.val).isSome

/-- The role that a write of a place needs (14 R342). -/
def writeRole (key : Nat) : Role :=
  let a := keyAddr key
  let rk : Bool := match descOf key with | some d => decide (d.access = .rk) | none => false
  if a = Reg.HUB_COMMIT then .configure
  else if 0x00380000 ≤ a ∧ a < 0x00400000 then .configure
  else if a = keyAddr (Reg.EB_QB 0) ∨ a = keyAddr (Reg.EB_QB_CONN 0) then .configure
  else if rk then
    match blockOf key with
    | .cfg => .configure | .eth => .configure | .tier => .configure | .sec => .configure | .pmc => .configure
    | _ => .operate
  else .operate

/-- The block whose guard a source holds open. -/
def State.guard (s : State) (src : Source) : Option Block := AMap.get? s.guards (sourceId src)

/-- A source's guard closes. -/
def State.closeGuard (s : State) (src : Source) : State := { s with guards := AMap.erase s.guards (sourceId src) }

/-- A source opens the guard of a block; it holds at most one (R301). -/
def State.openGuard (s : State) (src : Source) (b : Block) : State := { s with guards := AMap.set s.guards (sourceId src) b }

/-- A write of a source to any register of a block closes the guard that it holds open there (R301). -/
def State.writeCloses (s : State) (src : Source) (b : Block) : State :=
  if s.guard src = some b then s.closeGuard src else s

/-- The guards of a block that a reset closes (R301). -/
def State.closeGuardsOf (s : State) (p : Block → Bool) : State := { s with guards := AMap.keep (fun _ b => !p b) s.guards }

/-! ### Places -/

/-- The selector register of an indexed register, and its value (12 "one place per index"). -/
def State.selected (s : State) (x : Selector) (a : Nat) : Nat :=
  let core := coreBase ((a - 0x01000000) / 0x00100000)
  let bay := bayBase ((a - 0x06000000) / 0x400)
  match x with
  | .mtBay => (s.reg Reg.MT_SEL).toNat | .mtUnit => (s.reg Reg.MT_ERR_SEL).toNat
  | .stall => (s.reg (core + 0x10)).toNat | .graph => (s.reg (bay + 0x10C)).toNat | .set => (s.reg (bay + 0x12C)).toNat
  | .pool => (s.reg (bay + 0x204)).toNat | .queue => (s.reg (bay + 0x220)).toNat
  | .lane => (s.reg Reg.EB_LANE_SEL).toNat | .peer => (s.reg Reg.EB_PEER_SEL).toNat | .conn => (s.reg Reg.EB_CONN_SEL).toNat
  | .qbQueue => (s.reg Reg.EB_QB_SEL).toNat | .group => (s.reg Reg.AP_GSEL).toNat
  | .pmcCore => (s.reg Reg.PMC_CORE_SEL).toNat | .ring => (s.reg Reg.TEL_RING_SEL).toNat
  | .slot => (s.reg Reg.CFGCRC_SLOT_SEL).toNat

/-- An address lies in a window of control space (R306). -/
def inWindow (a : Nat) : Bool :=
  decide (a < 0x00900000 ∨ (0x01000000 ≤ a ∧ a < 0x01000000 + 36 * 0x00100000) ∨ (0x04000000 ≤ a ∧ a < 0x06000000))

/-- Where an access lands: a place, an unassigned offset, or no window. -/
inductive Landing where
  | place (key : Nat)
  | unassigned
  | outside
  deriving DecidableEq, Repr

/-- The landing of an address: alignment and windows (R306), stream aliases (R307), the bay registers in a core window (04 R112),
and the selectors. -/
def State.landing (s : State) (addr : Nat) : Landing :=
  if addr % 4 ≠ 0 || !inWindow addr then .outside
  else
    let key :=
      if 0x04000000 ≤ addr ∧ addr < 0x05000000 then some (0x04000000 + (addr - 0x04000000) % 0x400000)
      else if 0x01000000 ≤ addr ∧ addr < 0x03400000 ∧ (addr % 0x00100000) / 0x400 = 0x20 then
        let n := (addr - 0x01000000) / 0x00100000
        if s.coreRole n = 1 then (s.coreBay n).map fun b => bayBase b + addr % 0x400 else none
      else some addr
    match key with
    | none => .unassigned
    | some k =>
      match descOf k with
      | none => .unassigned
      | some d => match d.selector with | some x => .place (sel (s.selected x k) k) | none => .place k

/-- A core's island is power-gated (R298), or its clock is lost. -/
def State.coreGated (s : State) (n : Nat) : Bool :=
  let role := s.coreRole n
  let c := s.core n
  c.clockLost || role = 0 || (role = 3 && !c.movePowered) || (role = 2 && (!s.corePresent n || (c.slots.isEmpty && c.saved.isEmpty)))

/-- An access to a place ends with TIMEOUT: the core's own range 0x0000 to 0x01BF (R298). -/
def State.placeGated (s : State) (key : Nat) : Bool :=
  let a := keyAddr key
  if 0x01000000 ≤ a ∧ a < 0x03400000 ∧ (a - 0x01000000) % 0x00100000 < 0x1C0 then s.coreGated ((a - 0x01000000) / 0x00100000)
  else false

/-! ### What surrounds a write -/

/-- An access refused under R306: it is counted and recorded. -/
def State.badAddress (s : State) (addr : Nat) : State :=
  (s.count16 Reg.HUB_BAD_ADDR).setReg Reg.HUB_BAD_ADDR_LAST (w32 addr)

/-- An operation that lacks its role (14 R342). -/
def State.roleRefused (s : State) : State := s.count16 Reg.SEC_ROLE_REFUSED

/-- The checks before any write of a place: the session (10 R251), the role (14 R342), a core island without power or clock (R298);
then the write's own effect. -/
def State.checkedWrite (s : State) (src : Source) (key : Nat) (op : State → State × RegStatus) : State × RegStatus :=
  if !s.admitted src then (s.count32 Reg.EB_RX_REFUSED 1, .notPermitted)
  else if !s.hasRole src (writeRole key) then (s.roleRefused, .notPermitted)
  else if s.placeGated key then (s.writeCloses src (blockOf key), .timeout)
  else op s

/-- A write of an RK register: accepted only through the source's open guard, which closes (R301, R302). -/
def State.guarded (s : State) (src : Source) (key : Nat) (op : State → State) : State × RegStatus :=
  if s.guard src = some (blockOf key) then (op (s.closeGuard src), .ok)
  else (s.count16 Reg.HUB_GUARD_REFUSED, .notPermitted)

/-- A guarded command: the effect of an accepted write of an RK register. -/
def State.rkWrite (s : State) (src : Source) (key : Nat) (op : State → State) : State :=
  (s.checkedWrite src key fun s => s.guarded src key op).1

/-- An accepted write of an RK command register that applies at once: the value is in force, and the command acts (12 R290). -/
def State.cmdWrite (s : State) (src : Source) (key : Nat) (v : Word) (op : State → State) : State :=
  s.rkWrite src key fun s => op (s.setReg key v)

/-- A write of a register that is not RK: it closes the source's guard of the block, and acts (R301). -/
def State.plainWrite (s : State) (src : Source) (key : Nat) (op : State → State) : State :=
  (s.checkedWrite src key fun s => (op (s.writeCloses src (blockOf key)), .ok)).1

end Sys2Proof.Machine
end

