-- ==== Sys2Proof/Machine/Tiers.lean ====
section
/-! DEFINITION. The memory tiers and translation (03): row repair, refresh, table walks, invalidates, the fault queue, tier commands,
the start of a migration, spill. -/

namespace Sys2Proof.Machine

/-! ### Repair and refresh (R55, R56) -/

/-- A bank of a die as a number. -/
def bankKey (die bank : Nat) : Nat := die * 65536 + bank

/-- Remap a loft row to a spare row, while its bank has one; a bank without one is live in LOFT_SPARE_OUT (R55). -/
def State.remapRow (s : State) (die bank row : Nat) : State :=
  let k := bankKey die bank
  let used := AMap.getD s.tiers.spareUsed k 0
  let spares := Config.spareRows k
  let out := fun (t : Tiers) (n : Nat) => { t with spareOut := if n ≥ spares then setInsert t.spareOut k else t.spareOut }
  if used ≥ spares then { s with tiers := out s.tiers used }
  else
    { s with tiers := out { s.tiers with
        spareUsed := AMap.set s.tiers.spareUsed k (used + 1), remapped := s.tiers.remapped ++ [(die, bank, row)] } (used + 1) }

/-- LOFT_ROW_REMAP (R55). -/
def execLoftRowRemap (die : Fin 4) (bank row : Nat) (s : State) : Host.Outcome State Fault Refusal :=
  s.done (s.remapRow die.val bank row)

/-- The refresh rate of a die's loft (R56). -/
def State.setRefresh (s : State) (die : Nat) (double : Bool) : State :=
  { s with tiers := { s.tiers with
      doubleRefresh := if double then s.tiers.doubleRefresh ||| (1#4 <<< die) else s.tiers.doubleRefresh &&& ~~~(1#4 <<< die) } }

/-- DOUBLE_REFRESH (R56). -/
def execDoubleRefresh (die : Fin 4) (s : State) : Host.Outcome State Fault Refusal := s.done (s.setRefresh die.val true)

/-- REFRESH_NORMAL (R56). -/
def execRefreshNormal (die : Fin 4) (s : State) : Host.Outcome State Fault Refusal := s.done (s.setRefresh die.val false)

/-! ### A walk on its own (R66, R81, R82) -/

/-- The engine that a requester translates with; `holder` is its instance, connection, peer, stream or port. -/
def State.engineOf (s : State) (who : Requester) (holder : Nat) : Engine :=
  let core := ((s.inst? holder).map (·.core)).getD 0
  match who with
  | .fxe => fxeEngine core
  | .bse => bseEngine (dieOf core)
  | .walker => walkerEngine (dieOf core) core
  | .rdma => rdmaEngine
  | .bale => baleWriter
  | .batcher => batcherEngine
  | .audio => audioEngine
  | .dispatcher => dispatcherEngine

/-- The program of an instance that can be held at its element: the first that runs. -/
def Inst.holdable (x : Inst) : Option ProgKind :=
  [ProgKind.input, .weight, .output, .nextLayer].find? fun k =>
    match x.prog k with | some p => p.started && !p.ended && p.wait = .none | none => false

/-- Who waits for a requester's fault. -/
def State.holderOf (s : State) (who : Requester) (holder : Nat) : FaultHolder :=
  match who with
  | .fxe => match (s.inst? holder).bind Inst.holdable with | some k => .program holder k | none => .none
  | .bse => .engine holder
  | .walker => .engine holder
  | .rdma => .rdma holder
  | .bale => .peer holder
  | .batcher => .stream holder
  | .audio => .audio holder
  | .dispatcher => .none

/-- Hold the program that a fault names at its element (R81). -/
def State.holdProgram (s : State) (h : FaultHolder) (w : ProgWait) : State :=
  match h with
  | .program i k =>
    match s.inst? i with
    | some x => (s.setInst i (x.setProg k ((x.prog k).map fun p => { p with wait := w }))).refresh i
    | none => s
  | _ => s

/-- A translation fault of a requester takes its effect: a resumable one, or one whose record finds the queue full, holds the requester; a
protection fault aborts the sheaf (R81, R82, 04 R108). -/
def State.takeFault (s : State) (b va : Nat) (write : Bool) (en : Engine) (cause : FaultCause) (level : Nat) (entry : W64)
    (h : FaultHolder) : State :=
  let (s1, tag) := s.raiseFault b va write en cause level entry h
  if s.faultWaits cause then
    match h with
    | .engine i => s1.refresh i
    | _ => s1.holdProgram h (if cause = .migrating then .held else .fault tag)
  else
    match h with
    | .program i _ => s1.abortInst i cause.code
    | .engine i => s1.abortInst i cause.code
    | _ => s1

/-- One table walk: it fills the caches, or yields a fault. The dispatcher's read posts no record (R82). -/
def State.tableWalk (s : State) (b va : Nat) (write : Bool) (who : Requester) (holder : Nat) : State :=
  let en := s.engineOf who holder
  match s.translate b va write en with
  | (s1, .ok _) => s1
  | (s1, .error (cause, level, entry)) =>
    if who = .dispatcher then s1 else s1.takeFault b va write en cause level entry (s.holderOf who holder)

/-- TABLE_WALK (R66). -/
def execTableWalk (bay : Fin 16) (va : W64) (write : Bool) (who : Requester) (holder : Nat) (s : State) :
    Host.Outcome State Fault Refusal :=
  s.done (s.tableWalk bay.val va.toNat write who holder)

/-! ### Invalidates (R69 to R72) -/

/-- A write of `TRN_INV_CMD` (R72). -/
def State.trnInvOp (s : State) (v : Word) : State :=
  if s.trans.invs.length ≥ 64 then
    { (s.count16 Reg.TRN_INV_REFUSED) with trans := { s.trans with invFull := true } }
  else
    let cmd : InvCmd :=
      { bay := fld v 3 0, whole := bit v 4, allLevels := bit v 5, tag := fld v 23 8
        start := (s.reg64 Reg.TRN_INV_VA_LO Reg.TRN_INV_VA_HI).toNat, len := (s.reg Reg.TRN_INV_LEN).toNat }
    { s with trans := { s.trans with invs := s.trans.invs ++ [cmd], invFull := false } }

/-- TRN_INV (R72). -/
def execTrnInv (src : Source) (value : Word) (s : State) : Host.Outcome State Fault Refusal :=
  s.done (s.plainWrite src Reg.TRN_INV_CMD fun s => s.trnInvOp value)

/-- The bay of a bank-side share. -/
def State.shareBay (s : State) (sh : BseShare) : Option Nat :=
  match sh.work with
  | .command id => ((s.engines.commands.find? fun c => c.id = id).bind fun c => s.inst? c.inst).map (·.bay)
  | .pass i _ _ => (s.inst? i).map (·.bay)

/-- The bay, first byte and length of the memory that a request in flight was translated for (R63); a SEND reads no page of a peer. -/
def State.requestSpan (s : State) (r : ConnRequest) : Option (Nat × Nat × Nat) :=
  match r with
  | .read i _ _ len _ va => (s.inst? i).map fun x => (x.bay, va, len)
  | .write i _ len va => (s.inst? i).map fun x => (x.bay, va, len)
  | .copyRead b _ src _ len => some (b, src, len)
  | .copyWrite b _ dst len => some (b, dst, len)
  | .gleaned b _ va len _ => some (b, va, len)
  | .send _ _ _ => none

/-- Accesses issued under a translation of a range of a bay are still under way: a bank-side share works on a page of it, an attention
pass holds a page of it, or a connection has an access to a page of it in flight (R70, third condition; 08 R206). -/
def State.rangeBusy (s : State) (b : Nat) (whole : Bool) (start len : Nat) : Bool :=
  let hit := fun (va n : Nat) => whole || decide (va < start + len ∧ start < va + n ∧ 0 < len)
  (s.engines.shares.any fun sh => s.shareBay sh = some b && hit sh.pageVa.toNat sh.pageLen) ||
    (s.engines.passes.any fun p => ((s.inst? p.inst).map (·.bay)) = some b &&
      p.rows.any fun r => r.pages.any fun g => hit g.va (g.leaves.length * 65536)) ||
    s.net.conns.any fun e => (e.2.requests.map (·.2) ++ e.2.waits.map (·.1)).any fun r =>
      match s.requestSpan r with
      | some (c, va, n) => c = b && hit va n
      | none => false

/-- Accesses in the scope of an invalidate are still under way. -/
def State.scopeBusy (s : State) (c : InvCmd) : Bool := s.rangeBusy c.bay c.whole c.start (c.len * 65536)

/-- The oldest TRN_INV completes (R70 to R72). -/
def State.trnInvDone (s : State) : State :=
  match s.trans.invs with
  | [] => s
  | c :: rest =>
    if s.scopeBusy c then s
    else
      let s1 := { s with trans := { s.trans with invs := rest } }
      let s2 := s1.dropCached c.bay c.whole c.allLevels c.start (c.len * 65536)
      (s2.setReg Reg.TRN_INV_DONE_TAG (w32 c.tag)).latch Reg.TRN_EVENT_STATUS 0

/-- TRN_INV_DONE (R70). -/
def execTrnInvDone (s : State) : Host.Outcome State Fault Refusal := s.done s.trnInvDone

/-! ### Spill (R80) -/

/-- Granules of a bay's spill migrations that are queued or in progress. -/
def State.spillPending (s : State) (b : Nat) : Nat :=
  ((s.tiers.migrations.filter fun m => m.bay = b && m.origin = .spill).map fun m => m.size / 65536).sum

/-- Granules on their way to a bay's Granary quota. -/
def State.granaryPending (s : State) (b : Nat) : Nat :=
  ((s.tiers.migrations.filter fun m => m.bay = b && m.target = 2 && m.phase = .queued).map fun m => m.size / 65536).sum

/-- A bay's spill list. -/
def State.spillList (s : State) (b : Nat) : List W64 := AMap.getD s.tiers.spill b []

def State.setSpillList (s : State) (b : Nat) (l : List W64) : State :=
  { s with tiers := { s.tiers with spill := AMap.set s.tiers.spill b l } }

def State.setStarved (s : State) (b : Nat) (v : Bool) : State :=
  { s with tiers := { s.tiers with
      spillStarved := if v then s.tiers.spillStarved ||| (1#16 <<< b) else s.tiers.spillStarved &&& ~~~(1#16 <<< b) } }

def State.setSpilling (s : State) (b : Nat) (v : Bool) : State :=
  { s with tiers := { s.tiers with
      spillActive := if v then s.tiers.spillActive ||| (1#16 <<< b) else s.tiers.spillActive &&& ~~~(1#16 <<< b) } }

/-- A bay's Silo use, less what its spill has under way, stands at or above `MT_SPILL_LO` (R80; log 18). -/
def State.spillHigh (s : State) (b : Nat) : Bool :=
  decide ((s.used b 1 - s.spillPending b) * 100 ≥ (s.reg (Reg.MT_SPILL_LO b)).toNat * s.quota b 1)

/-- Take pages from the head of a bay's spill list while its use is high (R80). -/
def State.spillPages (s : State) (b : Nat) : Nat → State
  | 0 => s
  | n + 1 =>
    if !s.spillHigh b then s
    else
      match s.spillList b with
      | [] => s.setStarved b true
      | va :: rest =>
        let t := s.readPte b va.toNat
        let skip := (t.setSpillList b rest).spillPages b n
        match s.pte b va.toNat with
        | none => skip
        | some (_, _, e) =>
          if !pteSpill e || pteState e ≠ settled || pteTier e ≠ 1 then skip
          else
            let size := (pageSize (pteSizeCode e)).getD 0x10000
            if s.used b 2 + s.granaryPending b + size / 65536 > s.quota b 2 then t.setStarved b true
            else if s.migQueueFull then t
            else
              ((t.queueMig b va 2 false .spill).setSpillList b rest).spillPages b n

/-- The spill engine looks at a bay (R80): it becomes active above `MT_SPILL_HI`, takes pages, and ends below `MT_SPILL_LO`. -/
def State.spillRun (s : State) (b : Nat) : State :=
  let active := bit s.tiers.spillActive b ||
    decide (s.used b 1 * 100 > (s.reg (Reg.MT_SPILL_HI b)).toNat * s.quota b 1)
  if !active then s
  else
    let s1 := (s.setSpilling b true).spillPages b ((s.spillList b).length + 1)
    if s1.used b 1 * 100 < (s1.reg (Reg.MT_SPILL_LO b)).toNat * s1.quota b 1 && s1.spillPending b = 0 then s1.setSpilling b false
    else s1

/-- A check: staged limits apply, and the look of R80. -/
def State.spillCheck (s : State) (b : Nat) : State :=
  ((s.applyAll [Reg.MT_SPILL_HI b, Reg.MT_SPILL_LO b]).setStarved b false).spillRun b

/-- SPILL_STARVED ends at the next ASSIGN, ENLIST or RELEASE of the bay, and the engine tries again (R80). -/
def State.spillRetry (s : State) (b : Nat) : State :=
  if bit s.tiers.spillStarved b then (s.setStarved b false).spillRun b else s

/-- SPILL_CHECK (R80). -/
def execSpillCheck (bay : Fin 16) (s : State) : Host.Outcome State Fault Refusal := s.done (s.spillCheck bay.val)

/-! ### Tier commands (R83) -/

/-- `MT_CMD` accepts a command unless one runs; a write while one runs is ignored, and REFUSED is set (R83). -/
def State.mtCommand (s : State) (v : Word) (body : State → State) : State :=
  if s.tiers.cmdBusy.isSome then { s with tiers := { s.tiers with cmdRefused := true } }
  else
    let t := s.setReg Reg.MT_CMD v
    body { t with tiers := { t.tiers with cmdRefused := false } }

/-- The address argument of a tier command. -/
def State.mtArg0 (s : State) : Nat := (s.reg64 Reg.MT_ARG0_LO Reg.MT_ARG0_HI).toNat

/-- A granule range that ASSIGN or RELEASE may name: aligned, at least one granule, backed, within one region. -/
def State.rangeOk (s : State) (a n : Nat) : Bool :=
  a % 65536 = 0 && decide (1 ≤ n) && (regionOf a).isSome && regionOf a = regionOf (a + n * 65536 - 1) &&
    (List.range n).all fun i => s.backed (a + i * 65536)

/-- The tier of a physical address. -/
def tierOf (a : Nat) : Nat := (regionOf a).getD 0

def State.mtAssignOp (s : State) (b : Nat) : State :=
  let a := s.mtArg0
  let n := (s.reg Reg.MT_ARG1).toNat
  let s1 :=
    if !s.rangeOk a n then s.tierResult .argument
    else if !s.freeRun (a / 65536) n then s.tierResult .owner
    else if s.used b (tierOf a) + n > s.quota b (tierOf a) then s.tierResult .quota
    else (s.setOwners (a / 65536) n b).tierResult .ok
  s1.spillRetry b

/-- RELEASE (R74). -/
def State.mtReleaseOp (s : State) (b : Nat) : State :=
  let a := s.mtArg0
  let n := (s.reg Reg.MT_ARG1).toNat
  let s1 :=
    if !s.rangeOk a n then s.tierResult .argument
    else if !s.ownsRun b (a / 65536) n then s.tierResult .owner
    else (s.setOwners (a / 65536) n ownerFree).tierResult .ok
  s1.spillRetry b

/-- A virtual leaf address that a tier command may name. -/
def vaOk (va : Nat) : Bool := decide (va < 2 ^ 57) && va % 65536 = 0

/-- The tables are read for the leaf that a tier command names. -/
def State.argPte (s : State) (b : Nat) : State := if vaOk s.mtArg0 then s.readPte b s.mtArg0 else s

/-- MIGRATE (R76, R77, R83): queued, with BUSY set until it ends. A leaf in a peer's memory is no page of this device's tiers. -/
def State.mtMigrateOp (s : State) (b : Nat) (lc : Bool) : State :=
  let va := s.mtArg0
  let t := fld (s.reg Reg.MT_ARG1) 2 0
  let target := if t = 7 then (s.windowOf b va).map (·.tier) else if t ≤ 2 then some t else none
  if !vaOk va then s.tierResult .argument
  else
    match target with
    | none => s.tierResult .argument
    | some target =>
      match s.pte b va with
      | none => s.tierResult .absent
      | some (_, _, e) =>
        if pteTier e = 3 then s.tierResult .argument
        else if pteState e ≠ settled || s.hasMig b va || s.migQueueFull then s.tierResult .busy
        else
          let s1 := s.queueMig b (BitVec.ofNat 64 va) target lc .command
          { s1 with tiers := { s1.tiers with cmdBusy := some s.tiers.nextMigration } }

/-- ENLIST (R80). -/
def State.mtEnlistOp (s : State) (b : Nat) : State :=
  let va := s.mtArg0
  let s1 :=
    if !vaOk va then s.tierResult .argument
    else if (s.pte b va).isNone then s.tierResult .absent
    else if (s.spillList b).length ≥ 65536 then s.tierResult .busy
    else (s.setSpillList b (s.spillList b ++ [BitVec.ofNat 64 va])).tierResult .ok
  s1.spillRetry b

/-- A Silo row or a populated Granary channel, by its base address. -/
def State.unitAt (s : State) (a : Nat) : Option (Nat × Nat) :=
  match regionOf a with
  | some 1 => if siloOffset a = 0 then some (1, siloRow a) else none
  | some 2 => if (a - granaryBase) % channelStride = 0 ∧ s.dimmBytes (granaryChannel a) ≠ 0 then some (2, granaryChannel a) else none
  | _ => none

/-- Take a row or channel offline, or bring it back (R83). -/
def State.setOffline (s : State) (u : Nat × Nat) (off : Bool) : State :=
  if u.1 = 1 then
    { s with tiers := { s.tiers with
        rowsOffline := if off then s.tiers.rowsOffline ||| (1#32 <<< u.2) else s.tiers.rowsOffline &&& ~~~(1#32 <<< u.2) } }
  else
    { s with tiers := { s.tiers with
        channelsOnline := if off then s.tiers.channelsOnline &&& ~~~(1#8 <<< u.2) else s.tiers.channelsOnline ||| (1#8 <<< u.2) } }

/-- Bytes of a row's or a channel's part of the address map. -/
def unitSpan (u : Nat × Nat) : Nat × Nat :=
  if u.1 = 1 then (siloBase + u.2 * siloRowStride, siloRowStride) else (granaryBase + u.2 * channelStride, channelStride)

/-- OFFLINE and ONLINE (R83). -/
def State.mtLineOp (s : State) (off : Bool) : State :=
  match s.unitAt s.mtArg0 with
  | none => s.tierResult .argument
  | some u =>
    if s.anyOwned (unitSpan u).1 (unitSpan u).2 then s.tierResult .busy else (s.setOffline u off).tierResult .ok

/-- ASSIGN (R74). -/
def execMtAssign (src : Source) (bay : Fin 16) (s : State) : Host.Outcome State Fault Refusal :=
  s.done (s.rkWrite src Reg.MT_CMD fun s => s.mtCommand (w32 (1 + bay.val * 16)) fun s => s.mtAssignOp bay.val)

/-- MT_RELEASE (R74). -/
def execMtRelease (src : Source) (bay : Fin 16) (s : State) : Host.Outcome State Fault Refusal :=
  s.done (s.rkWrite src Reg.MT_CMD fun s => s.mtCommand (w32 (2 + bay.val * 16)) fun s => s.mtReleaseOp bay.val)

/-- MIGRATE (R77). -/
def execMtMigrate (src : Source) (bay : Fin 16) (lc : Bool) (s : State) : Host.Outcome State Fault Refusal :=
  s.done (s.rkWrite src Reg.MT_CMD fun s => s.mtCommand (w32 (3 + bay.val * 16 + if lc then 256 else 0)) fun s => (s.argPte bay.val).mtMigrateOp bay.val lc)

/-- ENLIST (R80). -/
def execMtEnlist (src : Source) (bay : Fin 16) (s : State) : Host.Outcome State Fault Refusal :=
  s.done (s.rkWrite src Reg.MT_CMD fun s => s.mtCommand (w32 (4 + bay.val * 16)) fun s => (s.argPte bay.val).mtEnlistOp bay.val)

/-- OFFLINE (R83). -/
def execMtOffline (src : Source) (s : State) : Host.Outcome State Fault Refusal :=
  s.done (s.rkWrite src Reg.MT_CMD fun s => s.mtCommand 6 fun s => s.mtLineOp true)

/-- ONLINE (R83). -/
def execMtOnline (src : Source) (s : State) : Host.Outcome State Fault Refusal :=
  s.done (s.rkWrite src Reg.MT_CMD fun s => s.mtCommand 7 fun s => s.mtLineOp false)

/-! ### The start of a migration (R76, R77) -/

/-- The waiting migration that starts next: LC before BE, in order of arrival (R76). -/
def State.nextMig (s : State) : Option Migration :=
  match s.queuedMigs.find? fun m => m.lc with
  | some m => some m
  | none => s.queuedMigs.head?

/-- A frame for a migration: spilled pages go over the online Granary channels in turn (R80). -/
def State.frameFor (s : State) (m : Migration) (size : Nat) : State × Option Nat :=
  if m.target = 2 ∧ m.origin = .spill then
    let order := (List.range 8).map fun i => (s.tiers.spillChannel + i) % 8
    order.foldl (fun (acc : State × Option Nat) g =>
      match acc.2 with
      | some f => (acc.1, some f)
      | none =>
        if bit acc.1.tiers.channelsOnline g then
          match acc.1.takeFrame 2 size (some g) with
          | (s1, some f) => ({ s1 with tiers := { s1.tiers with spillChannel := (g + 1) % 8 } }, some f)
          | (s1, none) => (s1, none)
        else acc) (s, none)
  else s.takeFrame m.target size none

/-- Replace a migration of the list. -/
def State.setMig (s : State) (m : Migration) : State :=
  { s with tiers := { s.tiers with migrations := s.tiers.migrations.map fun x => if x.id = m.id then m else x } }

/-- A page that spill took goes back to the head of its bay's list (R80, R412). -/
def State.spillBack (s : State) (m : Migration) : State :=
  if m.origin = .spill then s.setSpillList m.bay (m.va :: s.spillList m.bay) else s

/-- The first migration that waits starts (R77): granules are taken, the entry is swapped to COPYING, the internal invalidate is
issued. One that cannot start ends with its result; a spill page that finds the quota spent goes back to the head of its list and leaves its bay
starved. -/
def State.migrationStart (s0 : State) : State :=
  match s0.nextMig with
  | none => s0
  | some m =>
    let s := s0.readPte m.bay m.va.toNat
    if s0.inProgress.length ≥ 64 then s0
    else
      match s.pte m.bay m.va.toNat with
      | none => s.dropMig m .absent
      | some (addr, _, e) =>
        let size := (pageSize (pteSizeCode e)).getD 0x10000
        let n := size / 65536
        let starved := fun (t : State) => if m.origin = .spill then (t.spillBack m).setStarved m.bay true else t
        if pteState e ≠ settled then s.dropMig m .busy
        else if pteTier e = 3 then s.dropMig m .argument
        else if s.used m.bay m.target + n > s.quota m.bay m.target then starved (s.dropMig m .quota)
        else
          match s.frameFor m size with
          | (s1, none) => starved (s1.dropMig m .quota)
          | (s1, some f) =>
            let s2 := (s1.setOwners (f / 65536) n m.bay).physWrite64 addr (pteWith e 57 56 copying)
            s2.setMig { m with phase := .firstInv, entryAddr := addr, oldEntry := e, newFrame := f, size := size }

/-- MIGRATION_START (R76). -/
def execMigrationStart (s : State) : Host.Outcome State Fault Refusal := s.done s.migrationStart

/-- The first internal invalidate of a migration completes: nothing cached of the page is left, and the copy begins (R77). -/
def State.migrationFirstInv (s : State) (id : Nat) : State :=
  match s.tiers.migrations.find? fun m => m.id = id with
  | some m =>
    let page := m.va.toNat / m.size * m.size
    if m.phase = .firstInv ∧ !s.rangeBusy m.bay false page m.size then
      (s.dropCached m.bay false false page m.size).setMig { m with phase := .copying }
    else s
  | none => s

/-- MIGRATION_FIRST_INV_DONE (R77). -/
def execMigrationFirstInvDone (migration : Nat) (s : State) : Host.Outcome State Fault Refusal :=
  s.done (s.migrationFirstInv migration)

end Sys2Proof.Machine
end

