-- ==== Sys2Proof/Machine/NetOps.lean ====
section
/-! DEFINITION. Sending Bale messages to a peer, and the end of a session (10 R239, R241, R248 to R251, 14 R346). -/

namespace Sys2Proof.Machine

/-- The link is up (10 R238). -/
def State.linkUp (s : State) : Bool := s.net.port.link = .up8 || s.net.port.link = .up4

/-- Kind of a peer entry: 0 unused, 1 host, 2 device (10 R246). -/
def State.peerKind (s : State) (p : Nat) : Nat := fld (s.reg (peerWord p 0)) 7 0

/-- The priority of a message (10 R241). -/
def TxBody.priority : TxBody → Nat
  | .regResponse _ _ => 6
  | .slotPiece _ _ _ _ _ _ _ _ lc => if lc then 6 else 3
  | .queuePiece _ _ _ _ _ _ _ _ _ _ lc => if lc then 6 else 3
  | .event _ _ => 7
  | .telem _ _ _ _ => 5
  | .reply _ _ _ _ => 7

/-- The class of a message (10 R245). -/
def TxBody.cls : TxBody → Nat
  | .regResponse _ _ => 1
  | .slotPiece _ _ _ _ _ _ _ _ _ => 3
  | .queuePiece _ _ _ _ _ _ _ _ _ _ _ => 3
  | .event _ _ => 4
  | .telem _ _ _ _ => 5
  | .reply op _ _ _ => if op = 0 then 6 else 7

/-- Bytes of a reply's payload: a MGMT payload has its header of 8 bytes, a quote none (14 R347, R348). -/
def replyBytes (op : Nat) (body : Bytes) : Nat := if op = 0 then body.length else 8 + body.length

/-- Bytes of a message's payload (10 R252, R254, R258, 15 R359). -/
def TxBody.bytes : TxBody → Nat
  | .regResponse _ ops => 8 + 16 * ops.length
  | .slotPiece _ _ _ _ _ data _ _ _ => 16 + data.length
  | .queuePiece _ _ _ _ _ _ _ data _ _ _ => 16 + data.length
  | .event _ records => 8 + 16 * records.length
  | .telem header _ _ records => header.length + (records.map List.length).sum
  | .reply op _ _ body => replyBytes op body

/-- The fields that apply at the next frame (10 "Ethernet and Bale registers"). -/
def frameFields : List Nat :=
  [Reg.EB_TX_DSCP_LO, Reg.EB_TX_DSCP_HI, Reg.EB_PFC, Reg.EB_VLAN, Reg.EB_MACSEC_CTRL, Reg.EB_MACSEC_WINDOW]

/-! ### Peer entries (10 R246) -/

/-- The IP address that the words of an entry hold, in wire order: 16 bytes. -/
def State.entryAddress (s : State) (p : Nat) : Bytes := [3, 4, 5, 6].flatMap fun w => leBytes 4 (s.reg (peerWord p w)).toNat

/-- A frame's source address as an entry holds it: 16 bytes, an IPv4 address in the first four. -/
def wireAddress (address : Bytes) : Bytes := (address ++ List.replicate 16 0).take 16

/-- The Bale port of an entry: 0 means 47,520. -/
def State.entryPort (s : State) (p : Nat) : Nat :=
  let n := fld (s.reg (peerWord p 0)) 31 16
  if n = 0 then 47520 else n

/-- An entry names an address and a port. -/
def State.entryNames (s : State) (p : Nat) (address : Bytes) (port : BitVec 16) (ipv6 : Bool) : Bool :=
  bit (s.reg (peerWord p 0)) 8 == ipv6 && s.entryPort p = port.toNat && s.entryAddress p = wireAddress address

/-- The far end that an entry names: next-hop MAC address, IP address, Bale port, VLAN identifier. -/
def State.entryEnd (s : State) (p : Nat) : NetEnd :=
  let ipv6 := bit (s.reg (peerWord p 0)) 8
  { address := (s.entryAddress p).take (if ipv6 then 16 else 4), port := BitVec.ofNat 16 (s.entryPort p)
    mac := leBytes 4 (s.reg (peerWord p 1)).toNat ++ leBytes 2 (fld (s.reg (peerWord p 2)) 15 0)
    vlan := BitVec.ofNat 12 (fld (s.reg (peerWord p 2)) 27 16), ipv6 := ipv6 }

/-- The entry that a source address and port match: the lowest in use (10 R246; log 99). -/
def State.peerOf (s : State) (e : NetEnd) : Option Nat :=
  (AMap.keys s.regs).findSome? fun k =>
    let p := (k - peerWord 0 0) / 32
    if k = peerWord p 0 && decide (p < 16384) && s.peerKind p ≠ 0 && s.entryNames p e.address e.port e.ipv6 then some p else none

/-! ### Sessions on what is sent (10 R251) -/

/-- A session closes: its keys go at once; what is queued to its peer is held for the next session, and a SESSION log
is written (10 R251, 14 R346, 15 R355). -/
def State.closeSession (s : State) (id : Word) : State :=
  match s.sec.sessions.find? fun x => x.id = id with
  | none => s
  | some x =>
    let p := s.peer x.peer
    let s1 : State := { s with sec := { s.sec with sessions := s.sec.sessions.filter fun y => y.id ≠ id } }
    (s1.setPeer x.peer { p with awaitSession := p.awaitSession || !p.waiting.isEmpty || !p.unacked.isEmpty }).log 0xFF 0x000C telNone
      x.id (x.peer * 65536)

/-- A protected transmission to a peer counts on its session, which closes at the counter's end (10 R251). -/
def State.sessionSent (s : State) (p : Nat) : State :=
  match s.session p with
  | none => s
  | some x =>
    let y := { x with tx := x.tx + 1 }
    let s1 : State := { s with sec := { s.sec with sessions := s.sec.sessions.map fun z => if z.id = x.id then y else z } }
    if y.tx = 0xFFFFFFFF#32 then s1.closeSession x.id else s1

/-! ### Egress (10 R239 to R244) -/

/-- The priority of a connection's frames (10 R241). -/
def State.connPriority (s : State) (c : Nat) : Nat := if bit (s.reg (Reg.EB_CONN_CTRL c)) 18 then 2 else 4

/-- The connection whose frame it is. -/
def Sent.conn : Sent → Option Nat
  | .rdmaRead c _ _ _ _ => some c
  | .rdmaWrite c _ _ _ _ => some c
  | .rdmaSend c _ _ => some c
  | .rdmaRetry c _ => some c
  | .roceAck c _ => some c
  | .roceNak c _ _ => some c
  | .roceReadResponse c _ _ _ => some c
  | .cnp c => some c
  | .bale _ _ _ => none
  | .unboundReply _ _ _ _ _ => none
  | .pause _ _ => none
  | .mailbox _ _ _ _ => none

/-- The peer whose Bale message it is. -/
def Sent.peer : Sent → Option Nat
  | .bale p _ _ => some p
  | _ => none

/-- The priority of what leaves (10 R241): ACKs and replies have priority 7. -/
def State.sentPriority (s : State) (x : Sent) : Nat :=
  match x.conn, x with
  | some c, _ => s.connPriority c
  | none, .bale _ _ (some m) => m.body.priority
  | none, _ => 7

/-- The bay that traffic belongs to, 16 for the device's own (01 R26). -/
def State.sentBay (s : State) (x : Sent) : Nat :=
  match x.conn, x with
  | some c, _ => fld (s.reg (Reg.EB_CONN_CTRL c)) 17 14
  | none, .bale _ _ (some m) =>
    match m.body with
    | .slotPiece seq i _ _ _ _ _ _ _ => ((if seq then s.bayOfSeq i else s.bayOfSid i)).getD 16
    | .queuePiece b _ _ _ _ _ _ _ _ _ _ => b
    | _ => 16
  | none, _ => 16

/-- MACsec protects what is sent, from the next frame on (10 R244). -/
def State.macsecOn (s : State) : Bool := bit (s.latest Reg.EB_MACSEC_CTRL) 0

/-- A frame may leave: the link is up, its priority is not paused, an association protects it where MACsec is enabled, and its peer waits for no
session (10 R239, R242, R244, R251). -/
def State.frameOpen (s : State) (e : Nat × Sent) : Bool :=
  s.linkUp && (AMap.get? s.net.port.paused e.1).isNone && (!s.macsecOn || !s.net.port.txSas.isEmpty) &&
    match e.2.peer with | some p => !(s.peer p).awaitSession | none => true

/-- Packets that the requests of a connection from a number on take: a read is one, any other as many as the numbers it holds. -/
def retryPackets (next : Nat) : List (Nat × ConnRequest) → Nat
  | [] => 0
  | (psn, r) :: rest =>
    let after := match rest with | [] => next | e :: _ => e.1
    (match r with
      | .read _ _ _ _ _ _ => 1
      | .copyRead _ _ _ _ _ => 1
      | .gleaned _ _ _ _ true => 1
      | _ => (after + 2 ^ 24 - psn) % 2 ^ 24) + retryPackets next rest

/-- Frames that a packet takes: one for each path MTU of a WRITE, a SEND or a READ response (10 R260). -/
def State.frameCount (s : State) (x : Sent) : Nat :=
  let packets := fun (c len : Nat) => max 1 (ceilDiv len (1024 * 2 ^ fld (s.reg (Reg.EB_CONN_CTRL c)) 21 20))
  match x with
  | .rdmaWrite c _ _ _ data => packets c data.length
  | .rdmaSend c _ data => packets c data.length
  | .roceReadResponse c _ data _ => packets c data.length
  | .rdmaRetry c psn => retryPackets (s.conn c).sendPsn ((s.conn c).requests.dropWhile fun r => r.1 ≠ psn)
  | _ => 1

/-- The far end of what leaves. A connection's packets go to UDP port 4791 of its peer (10 R260). -/
def State.sentEnd (s : State) (x : Sent) : NetEnd :=
  match x.conn, x with
  | some c, _ => { s.entryEnd (fld (s.reg (Reg.EB_CONN_CTRL c)) 13 0) with port := 4791 }
  | none, .bale p _ _ => s.entryEnd p
  | none, .unboundReply e _ _ _ _ => e
  | none, _ => ⟨[], 0, [], 0, false⟩

/-- The VLAN identifier of a frame's tag, 0 for none: `EB_VLAN` decides on the tag; the far end's own identifier stands in it where it has one (10
R240, R246; log 100). -/
def State.sentVlan (s : State) (e : NetEnd) : Nat :=
  let own := fld (s.reg Reg.EB_VLAN) 11 0
  if own = 0 then 0 else if e.vlan = 0 then own else e.vlan.toNat

/-- The DSCP of a priority (10 R241). -/
def State.sentDscp (s : State) (priority : Nat) : Nat :=
  let w := s.reg (if priority < 4 then Reg.EB_TX_DSCP_LO else Reg.EB_TX_DSCP_HI)
  fld w (priority % 4 * 8 + 5) (priority % 4 * 8)

/-- The association in use protects frames: the latest installed; those before it are erased (10 R244, 14 R350). Its SecTAG, with the next
packet number. -/
def State.protect (s : State) (frames : Nat) : State × Option (Nat × W64 × W64) :=
  if !bit (s.reg Reg.EB_MACSEC_CTRL) 0 then (s, none)
  else
    match s.net.port.txSas.reverse with
    | a :: _ => (s.setPort { s.net.port with txSas := [{ a with pn := a.pn + BitVec.ofNat 64 frames }] }, some (a.an, a.pn, a.sci))
    | [] => (s, none)

/-- Sequences received beyond the cumulative acknowledgement (10 R245). -/
def Peer.sack (x : Peer) : Word :=
  x.rxBeyond.foldl (fun (w : Word) q =>
    let d := (q - x.rxNext - 1).toNat
    if d < 32 then setBit w d true else w) 0

/-- The header of a message to a peer as it leaves: its acknowledgements, and the session with the counter that it takes (10 R245, R249, R251). -/
def State.baleHeader (s : State) (p : Nat) (retx : Bool) (m : Option TxMsg) : BaleHeader :=
  let x := s.peer p
  let y := s.session p
  let flags := (if m.isSome then 1 else 0) + (if retx then 2 else 0) + (if (m.map (·.start)).getD false then 4 else 0) +
    (if y.isSome then 8 else 0) + (if x.ece then 16 else 0)
  { cls := (m.map fun k => k.body.cls).getD 8, flags := BitVec.ofNat 8 flags, seq := (m.map (·.seq)).getD 0, cum := x.rxNext
    sack := x.sack, session := (y.map (·.id)).getD 0, counter := (y.map fun k => k.tx + 1).getD 0
    length := (m.map fun k => k.body.bytes).getD 0 }

/-- The header of a reply to a source without an entry. -/
def replyHeader (op : Nat) (body : Bytes) : BaleHeader := ⟨if op = 0 then 6 else 7, 0, 0, 0, 0, 0, 0, replyBytes op body⟩

/-- Bytes of a frame that count against the share of priority 5: the Bale header and the payload (log 98). -/
def Sent.shareBytes : Sent → Nat
  | .bale _ _ (some m) => 32 + m.body.bytes
  | _ => 0

/-- A message to a peer has left: it carried the acknowledgements, the congestion mark and a session's counter. -/
def State.baleLeft (s : State) (p : Nat) : State := (s.setPeer p { s.peer p with ece := false, unackedEffects := 0 }).sessionSent p

/-- A frame leaves the port: fields that apply at the next frame do, it is counted and protected, and what it says is recorded. -/
def State.leave (s : State) (priority : Nat) (x : Sent) : State :=
  let s1 := s.applyAll frameFields
  let n := s1.frameCount x
  let (s2, tag) := (s1.count64 Reg.EB_TX_FRAMES_LO Reg.EB_TX_FRAMES_HI n).protect n
  let e := s2.sentEnd x
  let head : FrameHead := ⟨e, x.conn.map fun c => fld (s2.reg (Reg.EB_CONN_RQPN c)) 23 0, s2.sentVlan e, priority, s2.sentDscp priority, tag⟩
  let s3 : State := { s2 with net := { s2.net with telemBytes := s2.net.telemBytes + if priority = 5 then x.shareBytes else 0 } }
  match x with
  | .bale p retx m => (s3.sendItem ⟨x, some head, some (s2.baleHeader p retx m)⟩).baleLeft p
  | .unboundReply _ op _ _ body => s3.sendItem ⟨x, some head, some (replyHeader op body)⟩
  | _ => s3.sendItem ⟨x, some head, none⟩

/-- Line rate in bit/s: 400 Gb/s in UP4, else 800 Gb/s. -/
def State.lineRate (s : State) : Nat := if s.net.port.link = .up4 then 400000000000 else 800000000000

/-- Bytes of the reserved share of priority 5 in a window of 100 µs: the export shares together, at least 2 % of line rate (10 R241). -/
def State.telemShare (s : State) : Nat := s.lineRate / 80000000 * max 20 ((s.tel.rings.map fun e => e.2.share).sum)

/-- The frames that wait and may leave, oldest first. -/
def State.openFrames (s : State) : List (Nat × Sent) := s.net.egress.filter s.frameOpen

/-- The weighted priorities, with their weights (10 R241; log 98: a weight counts frames). -/
def State.weights (s : State) : List (Nat × Nat) :=
  let w := s.reg Reg.EB_WEIGHT
  [(5, fld w 7 0), (4, fld w 15 8), (3, fld w 23 16), (2, fld w 31 24)]

/-- The frame of a priority that is served next: the bays take turns, each in its own order (01 R26). -/
def State.turnOf (s : State) (l : List (Nat × Sent)) (pr : Nat) : Option (Nat × Sent) :=
  let mine := l.filter fun e => e.1 = pr
  let last := AMap.getD s.net.lastBay pr 16
  (List.range 17).findSome? fun k => mine.find? fun e => s.sentBay e.2 = (last + 1 + k) % 17

/-- The frame that is served next (10 R241): priority 7, the reserved share of priority 5, priority 6, then the others by weight. -/
def State.nextFrame (s : State) : Option (Nat × Sent) :=
  let l := s.openFrames
  let first := s.turnOf l
  let share := (first 5).filter fun e => decide (s.net.telemBytes + e.2.shareBytes ≤ s.telemShare)
  (first 7).or (share.or ((first 6).or ((s.weights.findSome? fun w =>
    if AMap.getD s.net.credit w.1 0 = 0 then none else first w.1).or (s.weights.findSome? fun w => first w.1))))

/-- A frame is served: its bay has had its turn, and the share of a weighted priority in the round shrinks; where no waiting priority has any left, a
new round begins. -/
def State.served (s0 : State) (e : Nat × Sent) : State :=
  let pr := e.1
  let s : State := { s0 with net := { s0.net with lastBay := AMap.set s0.net.lastBay pr (s0.sentBay e.2) } }
  if pr = 7 || pr = 6 then s
  else
    let l := s.openFrames
    let fresh := s.weights.all fun w => AMap.getD s.net.credit w.1 0 = 0 || l.all fun e => e.1 ≠ w.1
    let c : AMap Nat := if fresh then s.weights.foldl (fun m w => AMap.set m w.1 w.2) [] else s.net.credit
    { s with net := { s.net with credit := AMap.set c pr (AMap.getD c pr 0 - 1) } }

/-- Frames that may leave do. -/
def State.drainN (s : State) : Nat → State
  | 0 => s
  | n + 1 =>
    match s.nextFrame with
    | none => s
    | some e =>
      let s1 := s.served e
      ({ s1 with net := { s1.net with egress := s1.net.egress.erase e } }.leave e.1 e.2).drainN n

def State.drainEgress (s : State) : State := s.drainN s.net.egress.length

/-- A frame is given to the port (10 R239): it leaves at once or waits; on a priority without PFC whose queue is full it is dropped and counted. -/
def State.emit (s : State) (x : Sent) : State :=
  let pr := s.sentPriority x
  let ahead := (s.net.egress.filter fun e => e.1 = pr).length
  if !(s.frameOpen (pr, x) && ahead = 0) && !bit (s.latest Reg.EB_PFC) pr && decide (ahead ≥ Config.egressRoom pr) then
    s.count32 Reg.EB_TX_DROP 1
  else ({ s with net := { s.net with egress := s.net.egress ++ [(pr, x)] } }).drainEgress

/-- The waiting frames that pass a test are given up. -/
def State.dropFrames (s : State) (f : Sent → Bool) : State :=
  { s with net := { s.net with egress := s.net.egress.filter fun e => !f e.2 } }

/-- A message may be built for a peer now: the entry is in use and up, it is not held for a session, and fewer than 1,024 messages are
unacknowledged (10 R248, R249, R251). -/
def State.canSend (s : State) (p : Nat) : Bool :=
  let x := s.peer p
  s.peerKind p ≠ 0 && !x.down && !x.awaitSession && decide (x.unacked.length < 1024)

/-- Send what waits for a peer, as far as it may be sent (10 R248). -/
def State.pumpN (s : State) (p : Nat) : Nat → State
  | 0 => s
  | n + 1 =>
    let x := s.peer p
    match x.waiting with
    | [] => s
    | b :: rest =>
      if s.canSend p then
        let m : TxMsg := ⟨x.txSeq, b, x.start, 0, false⟩
        ((s.setPeer p { x with waiting := rest, unacked := x.unacked ++ [m], txSeq := x.txSeq + 1, start := false }).emit
          (.bale p false (some m))).pumpN p n
      else s

def State.pump (s : State) (p : Nat) : State := s.pumpN p (s.peer p).waiting.length

/-- Queue messages to a peer. -/
def State.post (s : State) (p : Nat) (bs : List TxBody) : State :=
  let x := s.peer p
  (s.setPeer p { x with waiting := x.waiting ++ bs }).pump p

/-- Send an ACK (10 R249). -/
def State.sendAck (s : State) (p : Nat) : State := (s.setPeer p { s.peer p with unackedEffects := 0 }).emit (.bale p false none)

/-- Move the cumulative acknowledgement past what has taken effect. -/
def absorb (beyond : List Word) : Nat → Word → Word
  | 0, n => n
  | k + 1, n => if beyond.contains n then absorb beyond k (n + 1) else n

/-- The message of a sequence has taken effect. -/
def Peer.effected (x : Peer) (q : Word) : Peer :=
  let beyond := if x.rxBeyond.contains q then x.rxBeyond else x.rxBeyond ++ [q]
  let next := absorb beyond beyond.length x.rxNext
  { x with rxNext := next, rxBeyond := beyond.filter fun k => !seqLt k next }

/-- Classes whose messages take effect in sequence order (10 R250). -/
def orderedClass (cls : Nat) : Bool := cls = 1 || cls = 2 || cls = 7

/-- The message that takes effect with a class's command: of an ordered class the earliest received, of any other the first that came (10
R250). -/
def Peer.nextOf (x : Peer) (cls : Nat) : Option Word :=
  let mine := (x.arrived.filter fun e => e.1 = cls).map (·.2)
  if orderedClass cls then mine.foldl (fun (m : Option Word) q => match m with | some k => some (if seqLt q k then q else k) | none => some q) none
  else mine.head?

/-- A class's command takes the message that it carries out; none where it came in no frame (log 76). -/
def State.takeMsg (s : State) (p cls : Nat) : State × Option Word :=
  let x := s.peer p
  match x.nextOf cls with
  | some q => (s.setPeer p { x with arrived := x.arrived.filter fun e => e.2 ≠ q }, some q)
  | none => (s, none)

/-- A message of a peer has taken effect, or was refused: it is acknowledged after 16 effects, or by the timer (10 R249). -/
def State.effect (s : State) (p : Nat) (q : Option Word) : State :=
  let x := match q with | some k => (s.peer p).effected k | none => s.peer p
  let s1 := s.setPeer p { x with unackedEffects := x.unackedEffects + 1 }
  if x.unackedEffects + 1 ≥ 16 then s1.sendAck p else s1

/-- The command of a class takes effect at once. -/
def State.effectOf (s : State) (p cls : Nat) : State :=
  let (s1, q) := s.takeMsg p cls
  s1.effect p q

/-- A message is refused: counted, and it has taken effect (10 R249). Until start-up is complete the device drops it, and counts nothing (16
R379). -/
def State.refuseMsg (s : State) (p cls : Nat) : State := if s.inService then (s.count32 Reg.EB_RX_REFUSED 1).effectOf p cls else s

/-- Bytes of payload that a message may carry: `EB_BALE_MAX`, applied at the next message built (10 R245). -/
def State.baleMax (s : State) : Nat := fld (s.reg Reg.EB_BALE_MAX) 7 0 * 64

/-- The offsets and lengths of the pieces of a buffer (10 R254): each carries the 16-byte header. -/
def pieceRuns (max total : Nat) : List (Nat × Nat) :=
  let step := if max ≤ 16 then 1 else max - 16
  (List.range (ceilDiv total step)).map fun i => (i * step, min step (total - i * step))

end Sys2Proof.Machine
end

