-- ==== Sys2Proof/Machine/StreamOps.lean ====
section
/-! DEFINITION. What streams and sequences share (06, 08 R184 to R190): policies and deadlines, output rings and slots, header writes,
batches, their slots, and the end of a row. -/

namespace Sys2Proof.Machine

/-! ### Contexts as the batcher sees them -/

/-- A register of a stream or sequence context by its offset; both kinds have `CTRL` at 0x00 and the output fields at 0x40 to 0x54
(06 R143, 08 R185). -/
def ctxReg (seq : Bool) (i off : Nat) : Nat := (if seq then seqBase i else streamBase i) + off

def State.ctxBay (s : State) (seq : Bool) (i : Nat) : Option Nat := if seq then s.bayOfSeq i else s.bayOfSid i

/-- The graph of a context (`CTRL.GRAPH`). -/
def State.ctxGraph (s : State) (seq : Bool) (i : Nat) : Nat := fld (s.reg (ctxReg seq i 0)) 7 0
def State.ctxRealtime (s : State) (seq : Bool) (i : Nat) : Bool := bit (s.reg (ctxReg seq i 0)) 8
/-- Where the output goes: 0 Bale, 1 playback, 2 memory (`CTRL.SINK`). -/
def State.ctxSink (s : State) (seq : Bool) (i : Nat) : Nat := fld (s.reg (ctxReg seq i 0)) 17 16
def State.ctxBe (s : State) (seq : Bool) (i : Nat) : Bool := if seq then (s.seqCtx i).be else (s.stream i).be
def State.ctxInflight (s : State) (seq : Bool) (i : Nat) : Option InFlight :=
  if seq then (s.seqCtx i).inflight else (s.stream i).inflight
def State.ctxState (s : State) (seq : Bool) (i : Nat) : CtxState := if seq then (s.seqCtx i).state else (s.stream i).state

/-- Replace what is in flight. -/
def State.setInflight (s : State) (seq : Bool) (i : Nat) (f : Option InFlight) : State :=
  if seq then s.setSeq i { s.seqCtx i with inflight := f } else s.setStream i { s.stream i with inflight := f }

/-- The late policy of a context is drop-late: of `CTRL.LATE`, or of its graph (06 R143, R157). -/
def State.dropLate (s : State) (b ctrl : Nat) : Bool :=
  let late := ctrl / 512 % 4
  if late = 0 then (s.classOf b (ctrl % 256)).dropLate else late = 2

/-- The deadline of a graph in µs: of its CLASSPOL entry, else the bay's LC service bound (06 R156). -/
def State.classDeadline (s : State) (b g : Nat) : Nat :=
  match (s.classPols b).find? fun p => p.graph = g with
  | some p => p.deadline
  | none => ((s.bayDef b).map (·.lcBound)).getD 0

/-- A row's deadline (06 R156, R160): all ones for BE; else its readiness plus `micros`, or plus the graph's deadline where that is 0. -/
def State.deadlineOf (s : State) (b g : Nat) (be : Bool) (micros : Nat) (ready : W64) : W64 :=
  if be then 0xFFFFFFFFFFFFFFFF#64
  else ready + BitVec.ofNat 64 (periodsOfMicros (if micros ≠ 0 then micros else s.classDeadline b g))

/-! ### Output rings (06 R150) -/

def State.outSlots (s : State) (seq : Bool) (i : Nat) : Nat := fld (s.reg (ctxReg seq i 0x48)) 11 0
/-- Slot length in bytes. -/
def State.outLen (s : State) (seq : Bool) (i : Nat) : Nat := fld (s.reg (ctxReg seq i 0x48)) 27 12 * 64
/-- Virtual address of slot k. -/
def State.outVa (s : State) (seq : Bool) (i : Nat) (k : Word) : Nat :=
  (s.reg64 (ctxReg seq i 0x40) (ctxReg seq i 0x44)).toNat + k.toNat % s.outSlots seq i * s.outLen seq i
def State.outHead (s : State) (seq : Bool) (i : Nat) : Word := s.reg (ctxReg seq i 0x4C)
def State.outTail (s : State) (seq : Bool) (i : Nat) : Word := s.reg (ctxReg seq i 0x50)
/-- The ring has a free slot. -/
def State.outRoom (s : State) (seq : Bool) (i : Nat) : Bool :=
  decide ((s.outHead seq i - s.outTail seq i).toNat < s.outSlots seq i)

/-- Mark that the next chunk or step waits for a slot, or no longer does. -/
def State.setOutFull (s : State) (seq : Bool) (i : Nat) (v : Bool) : State :=
  if seq then s.setSeq i { s.seqCtx i with outFull := v } else s.setStream i { s.stream i with outFull := v }

/-- Slots have been consumed: a context that waited for room waits no more. -/
def State.tailMoved (s : State) (seq : Bool) (i : Nat) : State :=
  if s.outRoom seq i then s.setOutFull seq i false else s

/-- The device advances the tail of a SINK 0 or SINK 1 ring by one slot. -/
def State.slotReleased (s : State) (seq : Bool) (i : Nat) : State :=
  (s.setReg (ctxReg seq i 0x50) (s.outTail seq i + 1)).tailMoved seq i

/-- A read of a context's slot to be sent waits on a fault. -/
def State.sendHeld (s : State) (seq : Bool) (i : Nat) : Bool :=
  (s.trans.faults.any fun f => f.holder = .send seq i) || s.trans.held.any fun h => h.holder = .send seq i

/-- Slots published and not sent. -/
def State.unsent (s : State) (seq : Bool) (i : Nat) : List Word := if seq then (s.seqCtx i).unsent else (s.stream i).unsent
def State.setUnsent (s : State) (seq : Bool) (i : Nat) (l : List Word) : State :=
  if seq then s.setSeq i { s.seqCtx i with unsent := l } else s.setStream i { s.stream i with unsent := l }

/-- The pieces of one slot (10 R254, R256). -/
def slotPieces (max : Nat) (seq : Bool) (i : Nat) (k : Word) (bytes : Bytes) (chaff lc : Bool) : List TxBody :=
  let runs := pieceRuns max bytes.length
  runs.map fun r => .slotPiece seq i k r.1 bytes.length (slice bytes r.1 r.2) chaff (decide (r.1 + r.2 ≥ bytes.length)) lc

/-- Send published slots of a SINK 0 context in slot order (10 R256). A slot whose read faults holds those behind it. -/
def State.sendSlotsN (s : State) (seq : Bool) (i : Nat) : Nat → State
  | 0 => s
  | n + 1 =>
    match s.unsent seq i, s.ctxBay seq i with
    | k :: rest, some b =>
      if s.sendHeld seq i then s
      else
        let s0 := s.applyStaged Reg.EB_BALE_MAX
        match s0.readRun b (s0.outVa seq i k) (s0.outLen seq i) baleReader with
        | (s1, .error f) => (s1.raiseFault b f.va false baleReader f.cause f.level f.entry (.send seq i)).1
        | (s1, .ok (bytes, marked)) =>
          let chaff := marked || leAt bytes 9 1 % 2 = 1
          ((s1.setUnsent seq i rest).post (fld (s1.reg (ctxReg seq i 0x54)) 13 0)
            (slotPieces s1.baleMax seq i k bytes chaff (!s1.ctxBe seq i))).sendSlotsN seq i n
    | _, _ => s

def State.sendSlots (s : State) (seq : Bool) (i : Nat) : State := s.sendSlotsN seq i (s.unsent seq i).length

/-! ### Headers (06 R150, 07 R173) -/

/-- The flags byte of a slot header. -/
def slotFlags (chaff late dropped silence last reset : Bool) : Nat :=
  (if chaff then 1 else 0) + (if late then 2 else 0) + (if dropped then 4 else 0) + (if silence then 8 else 0) +
    (if last then 16 else 0) + if reset then 32 else 0

/-- The 64-byte header of an output slot (06 R150). -/
def slotHeader (seq first : Word) (valid flags payload : Nat) (ready published : W64) (gen : Word) : Bytes :=
  leBytes 4 seq.toNat ++ leBytes 4 first.toNat ++ leBytes 1 valid ++ leBytes 1 flags ++ [0, 0] ++ leBytes 4 payload ++
    leBytes 8 ready.toNat ++ leBytes 8 published.toNat ++ leBytes 4 gen.toNat ++ List.replicate 28 0

/-- The 64-byte header of a carried-state copy, with its CRC (07 R173). -/
def stateHeader (gen : Word) (sid : Nat) (chaff thawing : Bool) (bodyUnits : Nat) (chunk : Word) (steps : Nat) (now : W64) : Bytes :=
  let h := leBytes 4 0x58533438 ++ leBytes 4 gen.toNat ++ leBytes 2 sid ++
    leBytes 1 ((if chaff then 1 else 0) + if thawing then 2 else 0) ++ [0] ++ leBytes 4 bodyUnits ++ leBytes 4 chunk.toNat ++
    leBytes 4 steps ++ leBytes 8 now.toNat ++ List.replicate 28 0
  h ++ leBytes 4 (crc32c h).toNat

/-- Write several runs of the batcher, all or none: every page is translated before a byte lands (06 R415; log 15). -/
def State.batcherWrites (s : State) (b : Nat) (ws : List (Nat × Bytes)) : State × Option RunFault :=
  let step := fun (acc : State × Option RunFault) (w : Nat × Bytes) =>
    match acc.2 with
    | some f => (acc.1, some f)
    | none =>
      match acc.1.translateRun b true batcherEngine (pageRuns w.1 w.2.length) with
      | (s1, .ok _) => (s1, none)
      | (s1, .error f) => (s1, some f)
  match ws.foldl step (s, none) with
  | (s1, some f) => (s1, some f)
  | (s1, none) => (ws.foldl (fun (t : State) w => (t.writeRun b w.1 w.2 false batcherEngine).1) s1, none)

/-- A line of a virtual run is marked, by the tables as they stand. -/
def State.runMarked (s : State) (b va len : Nat) : Bool :=
  (pageRuns va len).any fun r =>
    match s.pte b r.1 with
    | some (_, _, e) =>
      pteChaff e || s.physChaff (pteFrame e * 4096 + r.1 % (pageSize (pteSizeCode e)).getD 0x10000) r.2
    | none => false

/-! ### Batches (06 R151 to R154) -/

/-- A graph's batch of a bay that is open. -/
def State.openBatch (s : State) (b g : Nat) : Option Batch := AMap.get? (s.batcher b).openBatches g

/-- The batch slots that are free, and one of them: which is the device's choice, a free value (log 16). -/
def State.takeSlot (s : State) (b : Nat) : State × Option Nat :=
  let (v, s1) := s.draw
  (s1, searchFrom (fun k => (AMap.get? (s1.batcher b).slots k).isNone) 1024 1024 (v.toNat % 1024))

/-- `BAT_AREA` of a bay. -/
def State.batArea (s : State) (b : Nat) : Nat := (s.reg64 (Reg.BAT_AREA_LO b) (Reg.BAT_AREA_HI b)).toNat

/-- A batch slot's bytes: the row table, and a mask word for each step (06 R153, 04 R88). -/
def batchBytes (x : Batch) (steps : Nat) : Bytes × Bytes :=
  (x.rows.flatMap fun r => leBytes 4 (r.index + if r.seq then 16384 else 0),
    (List.range steps).flatMap fun t =>
      leBytes 8 (((List.range x.rows.length).map fun i =>
        match x.rows[i]? with | some r => if r.resets.contains t then 2 ^ i else 0 | none => 0).sum))

/-- Steps of a batch: the shape's L, 1 for sequences (06 R151, 08 R188). -/
def State.batchSteps (s : State) (b : Nat) (x : Batch) : Nat :=
  if x.seq then 1 else ((AMap.get? (s.batcher b).shapes x.graph).map (·.l)).getD 1

/-- A closed batch in its slot becomes a READY instance of its graph's entry template (06 R152, 04 R89). -/
def State.batchInstance (s : State) (b slot : Nat) (x : Batch) : State :=
  match (entryTemplate (s.templates b) x.graph).bind fun i => (s.templates b)[i]? with
  | none => s
  | some t =>
    let d := parseSheaf t
    let va := s.batArea b + slot * 1024
    let rowsAt := (x.rows.map (·.deadline.toNat)).foldl min (2 ^ 64 - 1)
    let own := if d.be then 2 ^ 64 - 1 else (s.lic + d.deadline).toNat
    let d1 := { d with
      rowCount := x.rows.length, steps := s.batchSteps b x, rowTable := BitVec.ofNat 64 va
      resetMasks := if x.rows.any fun r => !r.resets.isEmpty then BitVec.ofNat 64 (va + 256) else 0
      deadline := BitVec.ofNat 64 (if d.be then own else min own rowsAt) }
    (s.createInst b d1 (.batch slot) (some slot) []).1

/-- The row of a context in a batch, not finished. -/
def rowIs (seq : Bool) (i : Nat) (r : Row) : Bool := r.seq = seq && r.index = i && !r.finished

/-- The batch slot that holds a context's row in flight. -/
def State.slotOf (s : State) (b : Nat) (seq : Bool) (i : Nat) : Option (Nat × Batch) :=
  (s.batcher b).slots.find? fun e => e.2.rows.any (rowIs seq i)

def State.setSlot (s : State) (b slot : Nat) (x : Batch) : State :=
  let y := s.batcher b
  s.setBatcher b { y with slots := AMap.set y.slots slot x }

def State.freeSlot (s : State) (b slot : Nat) : State :=
  let y := s.batcher b
  s.setBatcher b { y with slots := AMap.erase y.slots slot }

/-! ### Rows that go back (06 R162, R415) -/

/-- The first frame of a stream's next chunk (06 R148). -/
def State.chunkBase (s : State) (sid : Nat) (n : Word) : Word :=
  s.reg (Reg.SC_START_FRAME sid) + n * w32 (fld (s.reg (Reg.SC_CHUNK sid)) 6 0)

/-- What becomes of the state when a chunk or step comes back: a draining one stays so, the others are PAUSED (06 R162). -/
def backTo (st : CtxState) (pause : Bool) : CtxState := if st = .draining && !pause then .draining else .paused

/-- An idle stream, with what outlives its run: DRAINED, refusal, class, STATE_FAULT (cleared by ABORT or ARM, R143), the stored header's
conditions, slots to send. -/
def Stream.toIdle (x : Stream) : Stream :=
  { Stream.idle with
    be := x.be, stateFault := x.stateFault, refused := x.refused, reason := x.reason, drained := x.drained, stateChaff := x.stateChaff
    thawing := x.thawing, unsent := x.unsent }

/-- An idle sequence, with what outlives its run; PAGE_FAULT is cleared by ABORT or ARM (08 R185). -/
def SeqCtx.toIdle (x : SeqCtx) : SeqCtx :=
  { SeqCtx.idle with
    be := x.be, pageFault := x.pageFault, refused := x.refused, reason := x.reason, drained := x.drained, unsent := x.unsent
    latch := x.latch, window := x.window, quiet := x.quiet, calm := x.calm, fc := x.fc }

/-- Streams of a graph that are not IDLE, or sequences. -/
def State.activeOn (s : State) (b g : Nat) (seq : Bool) : List Nat :=
  if seq then (s.seqs.filter fun e => e.2.state ≠ .idle && s.bayOfSeq e.1 = some b && s.ctxGraph true e.1 = g).map (·.1)
  else (s.streams.filter fun e => e.2.state ≠ .idle && s.bayOfSid e.1 = some b && s.ctxGraph false e.1 = g).map (·.1)

/-- Every context of a bay is IDLE. -/
def State.allIdle (s : State) (b : Nat) : Bool :=
  !(s.streams.any fun e => e.2.state ≠ .idle && s.bayOfSid e.1 = some b) &&
    !s.seqs.any fun e => e.2.state ≠ .idle && s.bayOfSeq e.1 = some b

/-- The aligned set that a stream is a member of (`SC_SET`). -/
def State.setOf (s : State) (sid : Nat) : Option Nat :=
  let v := s.reg (Reg.SC_SET sid)
  if bit v 15 then some (fld v 9 0) else none

/-- Members of a set: streams of the bay that are not IDLE and name it (06 R159). -/
def State.members (s : State) (b k : Nat) : List Nat :=
  (s.streams.filter fun e => e.2.state ≠ .idle && s.bayOfSid e.1 = some b && s.setOf e.1 = some k).map (·.1)

def State.alignSet (s : State) (b k : Nat) : AlignSet := AMap.getD (s.batcher b).sets k ⟨false, none, 0, [], false⟩
def State.setAlign (s : State) (b k : Nat) (x : AlignSet) : State :=
  let y := s.batcher b
  s.setBatcher b { y with sets := AMap.set y.sets k x }

/-- A context has become IDLE: its graph's shape is free once no context of it is left (06 R151, 08 R188), a set without members ends
(log 20), and `BAT_AREA` may apply (06 "Batcher registers"). -/
def State.afterIdle (s : State) (b : Nat) (seq : Bool) (i : Nat) : State :=
  let g := s.ctxGraph seq i
  let s1 : State :=
    if !(s.activeOn b g seq).isEmpty then s
    else if seq then { s with engines := { s.engines with seqShapes := AMap.erase s.engines.seqShapes (b * 256 + g) } }
    else s.setBatcher b { s.batcher b with shapes := AMap.erase (s.batcher b).shapes g }
  let s2 : State :=
    match (if seq then none else s.setOf i) with
    | some k =>
      if (s1.members b k).isEmpty then s1.setBatcher b { s1.batcher b with sets := AMap.erase (s1.batcher b).sets k } else s1
    | none => s1
  if s2.allIdle b then s2.applyAll [Reg.BAT_AREA_LO b, Reg.BAT_AREA_HI b] else s2

/-- A context becomes IDLE. -/
def State.goIdle (s : State) (seq : Bool) (i : Nat) : State :=
  let s1 := if seq then s.setSeq i (s.seqCtx i).toIdle else s.setStream i (s.stream i).toIdle
  match s.ctxBay seq i with
  | some b => s1.afterIdle b seq i
  | none => s1

/-- A chunk comes back to its stream: it stays in the ring, its resets go back with it, and the stream is PAUSED, or DRAINING still;
a pending ABORT ends it (06 R162, R415). -/
def State.returnStream (s : State) (sid : Nat) (pause : Bool) : State :=
  let x := s.stream sid
  match x.inflight with
  | none => s
  | some f =>
    if x.pending = some .abort then (s.setStream sid { x with inflight := none, stateFault := false }).goIdle false sid
    else
      let st := backTo x.state pause
      let normal := f.kind ≠ .empty
      let y := { x with
        inflight := none, pending := none, state := st, absent := false, absentCounted := false, outFull := false
        alignWait := false, resetFrames := if normal then f.named ++ x.resetFrames else x.resetFrames
        resetNext := x.resetNext || (normal && f.resetNext)
        silenced := if normal then f.silence else x.silenced
        returned := x.returned || normal
        readies := if normal then (if st = .draining then AMap.set x.readies f.seq.toNat (f.ready, f.deadline)
                                   else AMap.erase x.readies f.seq.toNat) else x.readies }
      let s1 := s.setStream sid y
      if normal then s1.setReg (Reg.SC_CHUNK_SEQ sid) f.seq else s1

/-- A step comes back to its sequence (06 R162). -/
def State.returnSeq (s : State) (q : Nat) (pause : Bool) : State :=
  let x := s.seqCtx q
  match x.inflight with
  | none => s
  | some f =>
    if x.pending = some .abort then (s.setSeq q { x with inflight := none, pageFault := false }).goIdle true q
    else
      let st := backTo x.state pause
      s.setSeq q { x with
        inflight := none, pending := none, state := st, absent := false, absentCounted := false, outFull := false
        readyAt := if st = .draining then some f.ready else none, due := f.deadline, probed := decide (st = .draining) }

/-- Return every row of a batch that has not finished (06 R162). -/
def State.returnRows (s : State) (x : Batch) : State :=
  (x.rows.filter fun r => !r.finished).foldl
    (fun s r => if r.seq then s.returnSeq r.index false else s.returnStream r.index false) s

/-! ### Closing (06 R152) -/

/-- A closed batch takes a slot: its table and masks are written; a resumable fault holds them, a protection fault returns the rows
(06 R153, R415). -/
def State.startBatch (s : State) (b slot : Nat) (x : Batch) : State :=
  let va := s.batArea b + slot * 1024
  let bytes := batchBytes x (s.batchSteps b x)
  match s.batcherWrites b [(va, bytes.1), (va + 256, bytes.2)] with
  | (s1, none) => (s1.setSlot b slot { x with held := false }).batchInstance b slot { x with held := false }
  | (s1, some f) =>
    let s2 := (s1.raiseFault b f.va true batcherEngine f.cause f.level f.entry (.batch b slot)).1
    if s1.faultWaits f.cause then s2.setSlot b slot { x with held := true } else (s2.freeSlot b slot).returnRows x

/-- A closed batch may leave the waiting ones: it has no row left, or its sheaf's ready list has room (06 R152, 04 R93). -/
def State.mayStart (s : State) (b : Nat) (x : Batch) : Bool :=
  x.rows.isEmpty || s.readyRoom b (match (entryTemplate (s.templates b) x.graph).bind fun i => (s.templates b)[i]? with
    | some t => (parseSheaf t).be
    | none => false)

/-- Start the closed batches that wait, oldest first, while a slot is free; one whose ready list is full holds back none of the other list (06
R152, 04 R93). -/
def State.drainClosing (s : State) (b : Nat) : Nat → State
  | 0 => s
  | n + 1 =>
    let y := s.batcher b
    match y.waiting.find? (s.mayStart b) with
    | none => s
    | some x =>
      let rest := y.waiting.erase x
      if x.rows.isEmpty then (s.setBatcher b { y with waiting := rest }).drainClosing b n
      else
        match s.takeSlot b with
        | (s1, none) => s1
        | (s1, some slot) => ((s1.setBatcher b { s1.batcher b with waiting := rest }).startBatch b slot x).drainClosing b n

/-- Close a graph's open batch (06 R152). -/
def State.closeBatch (s : State) (b g : Nat) : State :=
  match s.openBatch b g with
  | none => s
  | some x =>
    let y := s.batcher b
    let s1 := (s.setBatcher b { y with openBatches := AMap.erase y.openBatches g, waiting := y.waiting ++ [x] }).countWrap
      (Reg.BAT_BATCHES b g) 1
    s1.drainClosing b (y.waiting.length + 1)

/-- A lull request closes every open batch of the bay (06 R152, 02 R43). -/
def State.closeAll (s : State) (b : Nat) : State := (AMap.keys (s.batcher b).openBatches).foldl (fun s g => s.closeBatch b g) s

/-- Add rows to a graph's open batch, consecutively: one that lacks room closes first; a new one takes the staged window (06 R152). -/
def State.joinBatch (s : State) (b g : Nat) (seq : Bool) (rows : List Row) : State :=
  let s1 := match s.openBatch b g with
    | some x => if x.seq ≠ seq || x.rows.length + rows.length > 64 then s.closeBatch b g else s
    | none => s
  match s1.openBatch b g with
  | some x =>
    let y := s1.batcher b
    s1.setBatcher b { y with openBatches := AMap.set y.openBatches g { x with rows := x.rows ++ rows } }
  | none =>
    let s2 := s1.applyStaged (Reg.BAT_WINDOW b g)
    let y := s2.batcher b
    let x := Batch.mk g seq rows s2.lic (fld (s2.reg (Reg.BAT_WINDOW b g)) 19 0) false false
    s2.setBatcher b { y with openBatches := AMap.set y.openBatches g x }

/-- A context's row in a slot is finished, and the slot stays its chain's until that ends: its context has gone (06 R161). -/
def State.abandonRow (s : State) (b : Nat) (seq : Bool) (i : Nat) : State :=
  match s.slotOf b seq i with
  | none => s
  | some (slot, x) => s.setSlot b slot { x with rows := x.rows.map fun r => if rowIs seq i r then { r with finished := true } else r }

/-- A row of a batch slot is finished; the slot is free once every row is (06 R153), and closed batches that wait may take it. -/
def State.finishRow (s : State) (b : Nat) (seq : Bool) (i : Nat) : State :=
  match s.slotOf b seq i with
  | none => s
  | some (slot, x) =>
    let rows := x.rows.map fun r => if rowIs seq i r then { r with finished := true } else r
    if rows.all (·.finished) then (s.freeSlot b slot).drainClosing b ((s.batcher b).waiting.length)
    else s.setSlot b slot { x with rows := rows }

/-- Take a row out of an open batch or of a closed one that waits (06 R144 ABORT). -/
def State.withdrawRow (s : State) (b : Nat) (seq : Bool) (i : Nat) : Option State :=
  let y := s.batcher b
  let without := fun (x : Batch) => { x with rows := x.rows.filter fun r => !rowIs seq i r }
  if (y.openBatches.any fun e => e.2.rows.any (rowIs seq i)) || y.waiting.any fun x => x.rows.any (rowIs seq i) then
    let opened := (AMap.mapVals (fun _ x => without x) y.openBatches).filter fun e => !e.2.rows.isEmpty
    some (s.setBatcher b { y with openBatches := opened, waiting := (y.waiting.map without).filter fun x => !x.rows.isEmpty })
  else none

end Sys2Proof.Machine
end

