-- ==== Sys2Proof/Machine/Cores.lean ====
section
/-! DEFINITION. Dispatch and cores (04): submission, placement, pass boundaries, pre-emption and eviction, saves and restores, wakes,
overruns, core faults, HOLD and RELEASE, the relay stagger. -/

namespace Sys2Proof.Machine

/-! ### Submission (R113) -/

/-- A submission is refused with a reason. -/
def State.refuseSubmit (s : State) (b reason : Nat) : State :=
  let y := s.bay b
  s.setBay b { y with submitRefused := true, submitReason := reason }

/-- The checks of R108, R87 and R88 on a submitted descriptor and its row table. -/
def State.submitOk (s : State) (b : Nat) (def_ : BayDef) (e : Bytes) (rows : Bytes) : Bool :=
  let d := parseSheaf e
  let swath := s.swathEntry b
  sheafReservedOk e && sheafLimitsOk d def_.graphs && sheafDeadlineOk d && d.rowTable.toNat % 256 = 0 &&
    d.resetMasks.toNat % 8 = 0 && (sheafQueues d).all (fun q => (s.queueDefs b).any fun x => x.index = q) &&
    (sheafPrograms d).all (fun i => (swath i).isSome) && sheafNextOk d swath &&
    (List.range d.rowCount).all fun i => s.rowOfBay b (parseRow (leAt rows (i * 4) 4))

/-- A submission is accepted: a READY instance, with its deadline counted from now (R113). -/
def State.acceptSubmit (s : State) (b : Nat) (d : SheafDesc) : State :=
  let deadline := if d.be then d.deadline else s.lic + d.deadline
  let (s1, _) := s.createInst b { d with deadline := deadline } .submit none []
  let y := s1.bay b
  s1.setBay b { y with submitWait := none, submitRefused := false, submitReason := 0 }

/-- A write of `DISP_SUBMIT_HI`: copy the descriptor through the bay's translation, check it, and create a READY instance; where its ready list is
full, the submission waits, with BUSY set (R93, R113). A write while BUSY is set is refused with reason 1. -/
def State.submitOp (s : State) (b : Nat) (hi : Word) : State :=
  match s.bayDef b with
  | none => s
  | some def_ =>
    if (s.bay b).submitWait.isSome then s.refuseSubmit b 1
    else
      let va := (pair (s.reg (Reg.DISP_SUBMIT_LO b) &&& 0xFFFFFFC0#32) hi).toNat
      match s.readRun b va 64 dispatcherEngine with
      | (s1, .error _) => s1.refuseSubmit b 2
      | (s1, .ok (e, _)) =>
        let d := parseSheaf e
        match s1.readRun b d.rowTable.toNat (d.rowCount * 4) dispatcherEngine with
        | (s2, .error _) => s2.refuseSubmit b 2
        | (s2, .ok (rows, _)) =>
          if !s2.submitOk b def_ e rows then s2.refuseSubmit b 3
          else if s2.readyRoom b d.be then s2.acceptSubmit b d
          else s2.setBay b { s2.bay b with submitWait := some d }

/-- DISP_SUBMIT (R113). -/
def execDispSubmit (src : Source) (bay : Fin 16) (hi : Word) (s : State) : Host.Outcome State Fault Refusal :=
  s.done (s.plainWrite src (Reg.DISP_SUBMIT_HI bay.val) fun s => s.submitOp bay.val hi)

/-! ### Placement -/

/-- A ready list may have room again: a submission that waits for it is accepted, and closed batches that wait for it become READY (R93, 06
R152). -/
def State.listRoom (s : State) (b : Nat) : State :=
  let s1 := match (s.bay b).submitWait with
    | some d => if s.readyRoom b d.be then s.acceptSubmit b d else s
    | none => s
  s1.drainClosing b ((s1.batcher b).waiting.length)

/-- The dispatcher looks at a bay while its cores run. -/
def State.place? (s : State) (b : Nat) : State := if s.inService && !s.vane.safe then (s.dispatch b).listRoom b else s

/-- SHEAF_PLACE (R95). -/
def execSheafPlace (bay : Fin 16) (s : State) : Host.Outcome State Fault Refusal := s.done (s.place? bay.val)

/-- The stagger interval of a relay bay ends (R101). -/
def State.staggerEnd (s : State) (b : Nat) : State :=
  let y := s.bay b
  (s.setBay b { y with lastPlaced := none }).place? b

/-- STAGGER_END (R101). -/
def execStaggerEnd (bay : Fin 16) (s : State) : Host.Outcome State Fault Refusal := s.done (s.staggerEnd bay.val)

/-- The LC instance at the head of a bay's list tries pre-emption again (R102: at each placement, release and save). -/
def State.retryPreempt (s : State) (b : Nat) : State :=
  match s.lcTurn b with
  | none => s
  | some i =>
    match s.inst? i with
    | some x => if (s.placement b x).isSome || (s.bay b).lulled then s else s.preemptFor b i x
    | none => s

/-! ### Pass boundaries (R98, R99, R104) -/

/-- A pass boundary of a core: a runnable saved LC context may pre-empt (R104), and the sequencer chooses who issues (R99). -/
def State.passBoundary (s : State) (n : Nat) : State := (s.preemptForSaved n).chooseIssue n

/-- PASS_BOUNDARY (R99). -/
def execPassBoundary (core : Fin 36) (s : State) : Host.Outcome State Fault Refusal := s.done (s.passBoundary core.val)

/-! ### Eviction (R106, R107) -/

/-- How long a stall has been blocked, in core cycles. -/
def State.blockedCycles (s : State) (x : Inst) : Nat := if x.state = .blocked then coreCycles (s.since x.blockedAt) else 0

/-- Every stall slot that the core uses is occupied by a stall that has been blocked for at least 2,048 core cycles (R106). -/
def State.allBlocked (s : State) (n : Nat) : Bool :=
  let r := s.residents n
  let limit := match s.coreBay n with | some b => if s.relay b then 1 else 8 | none => 8
  decide (r.length ≥ limit) && r.all fun e => e.2.2.state = .blocked && decide (s.blockedCycles e.2.2 ≥ 2048)

/-- The victim: the longest blocked of the lowest class. -/
def State.evictionVictim (s : State) (n : Nat) : Option (Nat × Nat × Inst) :=
  let r := s.residents n
  let be := r.any fun e => e.2.2.desc.be
  (r.filter fun e => e.2.2.desc.be = be).foldl (fun best e => match best with
    | none => some e
    | some c => if s.since e.2.2.blockedAt > s.since c.2.2.blockedAt then some e else some c) none

/-- One check of R106: at most one stall is evicted, for a runnable saved context of its class or a higher one. -/
def State.evictionCheck (s : State) (n : Nat) : State :=
  if !s.allBlocked n || !(s.core n).promised.isEmpty then s
  else
    let lull := match s.coreBay n with | some b => (s.bay b).lullWanted || (s.bay b).lulled | none => false
    let saved := match s.savedRunnable n false with
      | some i => some (i, false)
      | none => if lull then none else (s.savedRunnable n true).map fun i => (i, true)
    match saved, s.evictionVictim n with
    | some (i, be), some (k, _, v) =>
      if be && !v.desc.be then s
      else
        let s1 := (s.beginSave n k (some i)).countWrap (Reg.CORE_EVICTIONS n) 1
        s1.trace v.bay 0x0103 (telUnit 0 n) v.seq (((s.inst? i).map fun x => x.seq.toNat).getD 0)
    | _, _ => s

/-- EVICTION_CHECK (R106). -/
def execEvictionCheck (core : Fin 36) (s : State) : Host.Outcome State Fault Refusal := s.done (s.evictionCheck core.val)

/-! ### Saves, restores and wakes -/

/-- The instance that a slot was freed for takes it (R103): an LC instance that can be placed there now, by the conditions of every placement, or
a saved context; else the slot is granted (R100). -/
def State.fillSlot (s0 : State) (n k j : Nat) (y : Inst) : State :=
  let s := s0.applyStaged (Reg.CORE_CMD n)
  if y.state = .ready then
    if (s.dispatchOrder y.bay).contains n && decide (s.cribFree n ≥ y.desc.cribUnits) && !(s.bay y.bay).lulled && !s.staggered y.bay y then
      s.place y.bay j n (s.placeSlot y.bay k) y
    else s.grant n
  else if y.state = .saved then s.beginRestore n (s.restoreInto y.bay k) j
  else s.grant n

/-- A stall image is in the save area (R103 step 3): the slot goes to the instance that it was freed for, or is granted (R100). An instance that is
being cancelled keeps its entry until its gleaning ends (09 R230). -/
def State.saveDone (s : State) (n k : Nat) : State :=
  let c := s.core n
  match s.instOf (AMap.get? c.slots k) with
  | none => s
  | some (i, x) =>
    if x.state ≠ .saving then s
    else
      let s1 : State := (s.setInst i { x with state := if x.gleaning.isSome then .aborted else .saved }).setCore n
        { c with slots := AMap.erase c.slots k, saved := c.saved ++ [i], promised := AMap.erase c.promised k }
      let s2 : State := match s1.instOf (AMap.get? c.promised k) with | some (j, y) => s1.fillSlot n k j y | none => s1.grant n
      (s2.retryPreempt x.bay).listRoom x.bay

/-- STALL_SAVE_DONE (R103). -/
def execStallSaveDone (core : Fin 36) (slot : Fin 8) (s : State) : Host.Outcome State Fault Refusal :=
  s.done (s.saveDone core.val slot.val)

/-- A restore completes (R92, R100): the context is resident; a protection fault met while it was saved is taken now (R111). -/
def State.restoreDone (s : State) (n k : Nat) : State :=
  match s.instOf (AMap.get? (s.core n).slots k) with
  | none => s
  | some (i, x) =>
    if x.state ≠ .restoring then s
    else
      if x.gleaning.isSome then s.setInst i { x with state := .aborted }
      else
        let s1 := s.setInst i { x with state := .resident, faultOnRestore := none }
        match x.faultOnRestore with
        | some cause => s1.abortNow i cause
        | none => s1.refresh i

/-- STALL_RESTORE_DONE (R100). -/
def execStallRestoreDone (core : Fin 36) (slot : Fin 8) (s : State) : Host.Outcome State Fault Refusal :=
  s.done (s.restoreDone core.val slot.val)

/-- A ROTATE of a round may go on: the round is in progress, or fewer than four of the bay are (09 R228). -/
def State.roundJoinable (s : State) (b round : Nat) : Bool :=
  let live := (s.bay b).rounds.filter fun r => !r.ended
  (live.any fun r => r.round = round) || decide (live.length < 4)

/-- A program's wait is over. -/
def State.waitOver (s : State) (i : Nat) (x : Inst) (k : ProgKind) (p : Program) : Bool :=
  match p.wait with
  | .pool pool => s.canGet x.bay pool i k (!x.desc.be)
  | .queue q => decide (AMap.getD x.taken q 0 < (x.popped.filter fun e => e.1 = q).length) || !(s.queue q).entries.isEmpty
  | .ring r => s.roundJoinable x.bay r
  | .token t c => decide (AMap.getD x.tokens t 0 ≥ c)
  | _ => false

/-- Clear the waits that are over. -/
def State.clearWaits (s : State) (i : Nat) (x : Inst) : Inst :=
  [ProgKind.input, .weight, .output, .nextLayer].foldl (fun y k =>
    match x.prog k with
    | some p => if s.waitOver i x k p then y.setProg k (some { p with wait := .none }) else y
    | none => y) x

/-- The wait of a blocked or saved stall is satisfied (R92): a resident one runs; a saved one is runnable, and takes or pre-empts a slot
(R100, R104). An output program in chaff mode goes on. -/
def State.wake (s : State) (i : Nat) : State :=
  match s.inst? i with
  | none => s
  | some x => if x.chaffMode then s.chaffOn i else (s.setInst i (s.clearWaits i x)).refresh i

/-- STALL_WAKE (R92). -/
def execStallWake (inst : Nat) (s : State) : Host.Outcome State Fault Refusal := s.done (s.wake inst)

/-! ### Overruns and core faults -/

/-- Protection cause OVERRUN (R90; 15 R355). -/
def causeOverrun : Nat := 0x12
/-- Protection cause REPLAY_LIMIT (R110). -/
def causeReplayLimit : Nat := 0x13

/-- A sheaf's engine time reaches 800 µs (R90). -/
def State.overrun (s : State) (i : Nat) : State :=
  match s.inst? i with
  | some x => if x.state = .resident then s.abortInst i causeOverrun else s
  | none => s

/-- SHEAF_OVERRUN (R90). -/
def execSheafOverrun (inst : Nat) (s : State) : Host.Outcome State Fault Refusal := s.done (s.overrun inst)

/-- Cause codes of `CORE_FAULT` (04 "Core registers"). -/
def coreCauseCode : CoreCause → Nat
  | .regfileUe => 1 | .engineCheck => 2 | .clockLoss => 3 | .seqHang => 4 | .reset => 5

/-- An instance is resident on a core or saved from it, and not done. -/
def Inst.onCore (x : Inst) (n : Nat) : Bool :=
  x.core = n && (x.state = .resident || x.state = .blocked || x.state = .saving || x.state = .saved || x.state = .restoring)

/-- A core fault (R109, R110): the core is fenced, its unfinished sheaves are replayed, or aborted at their third fault; a move of the
core goes on without the copy (02 R48). -/
def State.coreFaulted (s : State) (n : Nat) (cause : CoreCause) : State :=
  let old := s.reg (Reg.CORE_FAULT n)
  let s0 := s.setReg (Reg.CORE_FAULT n) (w32 (coreCauseCode cause + min (fld old 7 4 + 1) 15 * 16))
  let mine := s0.insts.filter fun e => e.2.onCore n
  let again := mine.filter fun e => e.2.faults < 2
  let last := mine.filter fun e => e.2.faults ≥ 2
  let s1 := last.foldl (fun s e => s.abortNow e.1 causeReplayLimit) s0
  let s2 := again.foldl (fun s e =>
    match s.inst? e.1 with
    | some x => (s.replayInst e.1 x (x.faults + 1)).count16 (Reg.CORE_REPLAYS n)
    | none => s) s1
  let c := s2.core n
  let s3 := s2.setCore n { c with
    faultFenced := true, clockLost := c.clockLost || decide (cause = .clockLoss), slots := [], saved := [], issuing := none, mxeLast := none
    promised := [], current := .empty, next := .empty }
  let skip : MoveOp → MoveOp := fun m => if m.core = n ∧ m.step = .copy then { m with step := .weights } else m
  let s4 : State := { s3 with loader := { s3.loader with move := s3.loader.move.map skip } }
  s4.log (((s.coreBay n)).getD 0xFF) 0x0002 (telUnit 0 n) (w32 (coreCauseCode cause)) again.length

/-- CORE_FAULT (R109). -/
def execCoreFault (core : Fin 36) (cause : CoreCause) (s : State) : Host.Outcome State Fault Refusal :=
  s.done (s.coreFaulted core.val cause)

/-- SEQ_HANG (R109). -/
def execSeqHang (core : Fin 36) (s : State) : Host.Outcome State Fault Refusal := s.done (s.coreFaulted core.val .seqHang)

/-! ### HOLD and RELEASE (R114) -/

/-- HOLD: staged, in force at the next placement (R114, 12 R293). -/
def execCoreHold (src : Source) (core : Fin 36) (s : State) : Host.Outcome State Fault Refusal :=
  s.done (s.rkWrite src (Reg.CORE_CMD core.val) fun s => s.stage (Reg.CORE_CMD core.val) 1)

/-- RELEASE (R114). -/
def execCoreRelease (src : Source) (core : Fin 36) (s : State) : Host.Outcome State Fault Refusal :=
  s.done (s.rkWrite src (Reg.CORE_CMD core.val) fun s => s.stage (Reg.CORE_CMD core.val) 2)

end Sys2Proof.Machine
end

