-- ==== Sys2Proof/Machine/Float.lean ====
section
/-! DEFINITION. Numbers of the engines (05 R115 to R117, R120, R123, R132): values of the formats, conversions with rounding to nearest
even, FP32 arithmetic, sums in an open order, and the functions that the manual bounds in units in the last place. -/

namespace Sys2Proof.Machine

/-- A number: ±man · 2^exp, an infinity or a NaN, each with its sign. -/
inductive FVal where
  | fin (neg : Bool) (man : Nat) (exp : Int)
  | inf (neg : Bool)
  | nan (neg : Bool)
  deriving DecidableEq, Repr

/-- Shape of a floating-point format: exponent bits, fraction bits, bias (R115). -/
structure FShape where
  ebits : Nat
  fbits : Nat
  bias : Nat
  deriving DecidableEq, Repr

/-- The shape of a floating-point format; none for an integer format. -/
def fshape : Fmt → Option FShape
  | .e4m3 => some ⟨4, 3, 7⟩ | .e5m2 => some ⟨5, 2, 15⟩ | .fp16 => some ⟨5, 10, 15⟩ | .bf16 => some ⟨8, 7, 127⟩
  | .fp32 => some ⟨8, 23, 127⟩
  | .int4 => none | .int8 => none | .int16 => none | .int32 => none

/-- Bits of an element. -/
def fmtBits : Fmt → Nat
  | .int4 => 4 | .int8 => 8 | .int16 => 16 | .int32 => 32 | .e4m3 => 8 | .e5m2 => 8 | .fp16 => 16 | .bf16 => 16 | .fp32 => 32

/-- Bytes of a vector of `n` elements: INT4 packs two to a byte, an odd count padded (R116). -/
def vecBytes (f : Fmt) (n : Nat) : Nat := if f = .int4 then (n + 1) / 2 else n * (fmtBits f / 8)

/-- Range of an integer format (R129). -/
def intRange (f : Fmt) : Int × Int := (-(2 ^ (fmtBits f - 1) : Nat), (2 ^ (fmtBits f - 1) : Nat) - 1)

/-- An integer format. -/
def isInt : Fmt → Bool
  | .int4 => true | .int8 => true | .int16 => true | .int32 => true
  | .e4m3 => false | .e5m2 => false | .fp16 => false | .bf16 => false | .fp32 => false

/-- The raw bits of element i of a vector (R116). -/
def elemBits (f : Fmt) (bs : Bytes) (i : Nat) : Nat :=
  if f = .int4 then leAt bs (i / 2) 1 / (if i % 2 = 0 then 1 else 16) % 16
  else leAt bs (i * (fmtBits f / 8)) (fmtBits f / 8)

/-- Pack raw elements into a vector (R116). -/
def packInt4 : List Nat → Bytes
  | [] => []
  | [a] => [BitVec.ofNat 8 (a % 16)]
  | a :: b :: rest => BitVec.ofNat 8 (a % 16 + b % 16 * 16) :: packInt4 rest

def packElems (f : Fmt) (l : List Nat) : Bytes :=
  if f = .int4 then packInt4 l else l.flatMap fun v => leBytes (fmtBits f / 8) v

/-- A floating-point number from its bits (R115, R117: an FP32 subnormal reads as zero of its sign; E4M3 has no infinity). -/
def decodeFloat (sh : FShape) (e4m3 fp32 : Bool) (v : Nat) : FVal :=
  let neg := v.testBit (sh.ebits + sh.fbits)
  let e := v / 2 ^ sh.fbits % 2 ^ sh.ebits
  let f := v % 2 ^ sh.fbits
  let top := 2 ^ sh.ebits - 1
  if e = top ∧ !e4m3 then (if f = 0 then .inf neg else .nan neg)
  else if e = top ∧ e4m3 ∧ f = 7 then .nan neg
  else if e = 0 then (if fp32 then .fin neg 0 0 else .fin neg f (1 - (sh.bias : Int) - sh.fbits))
  else .fin neg (f + 2 ^ sh.fbits) ((e : Int) - sh.bias - sh.fbits)

/-- An integer as a number. -/
def ofInt (i : Int) : FVal := .fin (decide (i < 0)) i.natAbs 0

/-- An element as a number. -/
def decodeElem (f : Fmt) (v : Nat) : FVal :=
  match fshape f with
  | some sh => decodeFloat sh (decide (f = .e4m3)) (decide (f = .fp32)) v
  | none => ofInt (signedOf (fmtBits f) v)

/-- A natural number divided by a power of two, to nearest, ties to even. -/
def shiftRNE (m s : Nat) : Nat :=
  let q := m / 2 ^ s
  let r := m % 2 ^ s
  if 2 * r > 2 ^ s ∨ (2 * r = 2 ^ s ∧ q % 2 = 1) then q + 1 else q

/-- The last-place exponent of a number with `p` significant bits whose last place is at least `low`, and its significand rounded to
nearest even. -/
def roundMan (p : Nat) (low : Option Int) (man : Nat) (exp : Int) : Nat × Int :=
  let len := man.log2 + 1
  let natural := exp + (len : Int) - p
  let lsb := match low with | some l => max natural l | none => natural
  if lsb ≤ exp then (man * 2 ^ (exp - lsb).toNat, lsb) else (shiftRNE man (lsb - exp).toNat, lsb)

/-- The last-place exponent of a format's subnormals. -/
def lowest (sh : FShape) : Int := 1 - (sh.bias : Int) - sh.fbits

/-- A finite number is larger than a format's largest finite value. -/
def tooLarge (sh : FShape) (e4m3 : Bool) (man : Nat) (exp : Int) : Bool :=
  let top : Int := (2 ^ sh.ebits - 1 : Nat) - (if e4m3 then 0 else 1) - sh.bias - sh.fbits
  let maxMan := if e4m3 then 14 else 2 ^ (sh.fbits + 1) - 1
  decide (exp > top ∧ man ≠ 0 ∧ man * 2 ^ (exp - top).toNat > maxMan) || decide (exp ≤ top ∧ man > maxMan * 2 ^ (top - exp).toNat)

/-- The bits of a finite number that a format holds exactly. -/
def encodeFinite (sh : FShape) (neg : Bool) (man : Nat) (exp : Int) : Nat :=
  let sign := if neg then 2 ^ (sh.ebits + sh.fbits) else 0
  if man = 0 then sign
  else
    let len := man.log2 + 1
    -- significand of fbits + 1 bits, or a subnormal at the lowest place
    let lsb := max (exp + (len : Int) - (sh.fbits + 1)) (lowest sh)
    let m := if lsb ≤ exp then man * 2 ^ (exp - lsb).toNat else man / 2 ^ (lsb - exp).toNat
    if m < 2 ^ sh.fbits then sign + m
    else sign + (lsb + sh.fbits + sh.bias).toNat * 2 ^ sh.fbits + (m - 2 ^ sh.fbits)

/-- Bits of an infinity. -/
def encodeInf (sh : FShape) (neg : Bool) : Nat :=
  (if neg then 2 ^ (sh.ebits + sh.fbits) else 0) + (2 ^ sh.ebits - 1) * 2 ^ sh.fbits

/-- Bits of a quiet NaN with its sign; E4M3's NaN is S.1111.111 (R132). -/
def encodeNan (sh : FShape) (e4m3 neg : Bool) : Nat :=
  encodeInf sh neg + (if e4m3 then 7 else 2 ^ (sh.fbits - 1) + Config.nanPayload (sh.ebits + sh.fbits + 1) % 2 ^ (sh.fbits - 1))

/-- What a conversion gives: the bits, whether a finite value or an infinity was clamped or overflowed (`ARITH_OUT_SAT`), and
whether it counts as non-finite (`ARITH_NONFINITE`). -/
structure Conv where
  bits : Nat
  sat : Bool
  nonfinite : Bool
  deriving DecidableEq, Repr

/-- Round a finite number to FP32; a subnormal result is zero of its sign, an overflow an infinity (R117, R132). -/
def round32 (v : FVal) : FVal :=
  match v with
  | .fin neg man exp =>
    let (m, e) := roundMan 24 none man exp
    if m = 0 then .fin neg 0 0
    else if e + (m.log2 : Int) < -126 then .fin neg 0 0
    else if tooLarge ⟨8, 23, 127⟩ false m e then .inf neg
    else .fin neg m e
  | x => x

/-- Convert a number to a floating-point format (R117, R132): a BF16 or FP32 result overflows once it is rounded; a finite value beyond the largest
one of FP8 or FP16 saturates as it stands. `toInf` is the selection of `ARITH_CTL` for E5M2 and FP16. -/
def convFloat (sh : FShape) (f : Fmt) (toInf : Bool) (v : FVal) : Conv :=
  let e4 := decide (f = .e4m3)
  let wide := decide (f = .bf16 ∨ f = .fp32)
  match v with
  | .nan neg => ⟨encodeNan sh e4 neg, false, false⟩
  | .inf neg =>
    if e4 then ⟨encodeFinite sh neg 14 5, true, false⟩ else ⟨encodeInf sh neg, false, false⟩
  | .fin neg man exp =>
    if f = .fp32 then
      match round32 v with
      | .fin n m e => ⟨encodeFinite sh n m e, false, false⟩
      | _ => ⟨encodeInf sh neg, false, true⟩
    else
      let (m, e) := roundMan (sh.fbits + 1) (some (lowest sh)) man exp
      if wide && tooLarge sh e4 m e then ⟨encodeInf sh neg, false, true⟩
      else if !wide && tooLarge sh e4 man exp then
        if e4 then ⟨encodeFinite sh neg 14 5, true, false⟩
        else if toInf then ⟨encodeInf sh neg, true, false⟩
        else ⟨encodeFinite sh neg (2 ^ (sh.fbits + 1) - 1) ((2 ^ sh.ebits - 2 : Nat) - (sh.bias : Int) - sh.fbits), true, false⟩
      else ⟨encodeFinite sh neg m e, false, false⟩

/-- The nearest integer of a finite number, ties to even. -/
def nearestInt (neg : Bool) (man : Nat) (exp : Int) : Int :=
  let n := if 0 ≤ exp then man * 2 ^ exp.toNat else shiftRNE man (-exp).toNat
  if neg then -(n : Int) else n

/-- Convert a number to an integer format (R132; a finite value beyond the range is clamped and counted, log 9). -/
def convInt (f : Fmt) (v : FVal) : Conv :=
  let (lo, hi) := intRange f
  match v with
  | .nan _ => ⟨0, false, true⟩
  | .inf neg => ⟨natOfInt (fmtBits f) (if neg then lo else hi), false, true⟩
  | .fin neg man exp =>
    let i := nearestInt neg man exp
    let c := clampInt lo hi i
    ⟨natOfInt (fmtBits f) c, decide (c ≠ i), false⟩

/-- Convert a number to a format. `ctl` is `ARITH_CTL`: [0] E5M2_INF, [1] FP16_INF. -/
def convert (f : Fmt) (ctl : Word) (v : FVal) : Conv :=
  match fshape f with
  | some sh => convFloat sh f (if f = .e5m2 then bit ctl 0 else bit ctl 1) v
  | none => convInt f v

/-! ### FP32 arithmetic (R117, R120, R123, R132) -/

def FVal.neg : FVal → Bool
  | .fin n _ _ => n | .inf n => n | .nan n => n

def FVal.isNan : FVal → Bool
  | .nan _ => true | _ => false

def FVal.isInf : FVal → Bool
  | .inf _ => true | _ => false

def FVal.isFinite : FVal → Bool
  | .fin _ _ _ => true | _ => false

/-- Negate. -/
def FVal.negate : FVal → FVal
  | .fin n m e => .fin (!n) m e | .inf n => .inf (!n) | .nan n => .nan (!n)

/-- Absolute value. -/
def FVal.abs : FVal → FVal
  | .fin _ m e => .fin false m e | .inf _ => .inf false | .nan n => .nan n

/-- The NaN of an operation without a NaN operand. -/
def freshNan : FVal := .nan Config.nanSign

/-- The signed significand of a finite number at a given place that is not above its own. -/
def atPlace (neg : Bool) (man : Nat) (exp place : Int) : Int :=
  let m : Int := (man * 2 ^ (exp - place).toNat : Nat)
  if neg then -m else m

/-- The exact sum of two numbers; two zeros of unlike sign, and a sum of zero, give +0. -/
def addExact (a b : FVal) : FVal :=
  match a, b with
  | .nan n, _ => .nan n
  | _, .nan n => .nan n
  | .inf n, .inf m => if n = m then .inf n else freshNan
  | .inf n, _ => .inf n
  | _, .inf m => .inf m
  | .fin n1 m1 e1, .fin n2 m2 e2 =>
    let p := min e1 e2
    let i := atPlace n1 m1 e1 p + atPlace n2 m2 e2 p
    if i = 0 then .fin (n1 && n2) 0 0 else .fin (decide (i < 0)) i.natAbs p

/-- The exact product of two numbers. -/
def mulExact (a b : FVal) : FVal :=
  match a, b with
  | .nan n, _ => .nan n
  | _, .nan n => .nan n
  | .inf n, .inf m => .inf (n != m)
  | .inf n, .fin m k _ => if k = 0 then freshNan else .inf (n != m)
  | .fin m k _, .inf n => if k = 0 then freshNan else .inf (n != m)
  | .fin n1 m1 e1, .fin n2 m2 e2 => .fin (n1 != n2) (m1 * m2) (e1 + e2)

def fadd (a b : FVal) : FVal := round32 (addExact a b)
def fsub (a b : FVal) : FVal := round32 (addExact a b.negate)
def fmul (a b : FVal) : FVal := round32 (mulExact a b)
def ffma (a b c : FVal) : FVal := round32 (addExact (mulExact a b) c)

/-- a < b for numbers that are no NaN; -0 lies below +0. -/
def fless (a b : FVal) : Bool :=
  match a, b with
  | .inf n, .inf m => n && !m
  | .inf n, _ => n
  | _, .inf m => !m
  | .fin n1 m1 e1, .fin n2 m2 e2 =>
    let p := min e1 e2
    let x := atPlace n1 m1 e1 p
    let y := atPlace n2 m2 e2 p
    decide (x < y) || (decide (x = y) && n1 && !n2)
  | _, _ => false

def fmax (a b : FVal) : FVal := if a.isNan then a else if b.isNan then b else if fless a b then b else a
def fmin (a b : FVal) : FVal := if a.isNan then a else if b.isNan then b else if fless b a then b else a

/-- The quotient of two finite numbers, b not zero, cut to `k` bits beyond the binary point of its significand. -/
def divCut (k : Nat) (n1 : Bool) (m1 : Nat) (e1 : Int) (n2 : Bool) (m2 : Nat) (e2 : Int) : FVal :=
  let extra := k + m2.log2 + 1
  let q := m1 * 2 ^ extra / m2
  -- a sticky bit keeps the rounding of a quotient that does not end
  let sticky := if m1 * 2 ^ extra % m2 = 0 then 0 else 1
  .fin (n1 != n2) (q * 2 + sticky) (e1 - e2 - extra - 1)

/-- The quotient of two numbers before rounding to FP32. -/
def divExact (a b : FVal) : FVal :=
  match a, b with
  | .nan n, _ => .nan n
  | _, .nan n => .nan n
  | .inf _, .inf _ => freshNan
  | .inf n, .fin m _ _ => .inf (n != m)
  | .fin n _ _, .inf m => .fin (n != m) 0 0
  | .fin n1 m1 e1, .fin n2 m2 e2 =>
    if m2 = 0 then (if m1 = 0 then freshNan else .inf (n1 != n2)) else divCut 100 n1 m1 e1 n2 m2 e2

/-- The integer square root, by bits from the top. -/
def natSqrt (n : Nat) : Nat → Nat → Nat
  | 0, r => r
  | k + 1, r => let t := r + 2 ^ k; if t * t ≤ n then natSqrt n k t else natSqrt n k r

/-- The square root of a number before rounding to FP32. -/
def sqrtExact (a : FVal) : FVal :=
  match a with
  | .nan n => .nan n
  | .inf n => if n then freshNan else .inf false
  | .fin neg man exp =>
    if man = 0 then .fin neg 0 0
    else if neg then freshNan
    else
      let shift : Nat := 160 + (exp % 2).toNat
      let m := man * 2 ^ shift
      let r := natSqrt m (m.log2 / 2 + 1) 0
      .fin false (r * 2 + if r * r = m then 0 else 1) ((exp - shift) / 2 - 1)

/-! ### Sums in an open order (R120, R124) -/

/-- Take element i of a list out. -/
def takeAt {α : Type} (l : List α) (i : Nat) (d : α) : α × List α := ((l[i]?).getD d, l.take i ++ l.drop (i + 1))

/-- Add a list of terms in an order that free values choose: two terms are taken and their sum put back, until one is left (log 8). -/
def sumOpen {α : Type} (add : State → α → α → State × α) (zero : α) : Nat → State → List α → State × α
  | 0, s, l => (s, (l.head?).getD zero)
  | n + 1, s, l =>
    match l with
    | [] => (s, zero)
    | [x] => (s, x)
    | _ =>
      let (v, s1) := s.draw
      let (a, l1) := takeAt l (v.toNat % l.length) zero
      let (b, l2) := takeAt l1 (v.toNat / l.length % l1.length) zero
      let (s2, c) := add s1 a b
      sumOpen add zero n s2 (c :: l2)

/-- An FP32 sum in an open order. -/
def fsum (s : State) (l : List FVal) : State × FVal :=
  sumOpen (fun s a b => (s, fadd a b)) (.fin false 0 0) l.length s l

/-- INT32 addition that saturates; the flag stays set once a sum has saturated (R121). -/
def satAdd (a b : Int × Bool) : Int × Bool :=
  let t := a.1 + b.1
  let c := clampInt (-(2 ^ 31 : Nat)) ((2 ^ 31 : Nat) - 1) t
  (c, a.2 || b.2 || decide (c ≠ t))

/-! ### Functions with a bound in units in the last place (R123) -/

/-- Fraction bits of the fixed-point numbers below. -/
def fixBits : Nat := 160

/-- ln 2 and 1 / ln 2 with 160 fraction bits. -/
def ln2Fix : Nat := 1013035739299659071135698605846798551586536899366
def log2eFix : Nat := 2108501164428393954197770173035669514763056903505

/-- e^x for a fixed-point x in [0, 1): the series to a term that is zero. -/
def expSeries (x : Nat) : Nat → Nat → Nat → Nat
  | 0, _, _ => 0
  | n + 1, k, term => term + expSeries x n (k + 1) (term * x / 2 ^ fixBits / (k + 1))

/-- 2^t for a signed fixed-point t. -/
def exp2Fix (t : Int) : FVal :=
  let k := t / (2 ^ fixBits : Nat)
  let f := (t % (2 ^ fixBits : Nat)).toNat
  .fin false (expSeries (f * ln2Fix / 2 ^ fixBits) 48 0 (2 ^ fixBits)) (k - fixBits)

/-- A finite number as signed fixed point, cut to the fraction bits. -/
def toFix (neg : Bool) (man : Nat) (exp : Int) : Int :=
  let e := exp + fixBits
  let m : Int := if 0 ≤ e then (man * 2 ^ e.toNat : Nat) else (man / 2 ^ (-e).toNat : Nat)
  if neg then -m else m

/-- e^v. An argument beyond 2^10 in magnitude has left FP32's range. -/
def expReal (base2 : Bool) (v : FVal) : FVal :=
  match v with
  | .nan n => .nan n
  | .inf n => if n then .fin false 0 0 else .inf false
  | .fin neg man exp =>
    if man = 0 then .fin false 1 0
    else if exp + (man.log2 : Int) > 10 then (if neg then .fin false 1 (-2000) else .fin false 1 2000)
    else
      let x := toFix neg man exp
      exp2Fix (if base2 then x else x * log2eFix / (2 ^ fixBits : Nat))

/-- Fraction bits of log2 of a significand in [1, 2), by repeated squaring. -/
def log2Bits (m : Nat) : Nat → Nat → Nat
  | 0, acc => acc
  | n + 1, acc =>
    let q := m * m / 2 ^ fixBits
    if q ≥ 2 ^ (fixBits + 1) then log2Bits (q / 2) n (acc * 2 + 1) else log2Bits q n (acc * 2)

/-- log2 v, or ln v. -/
def logReal (base2 : Bool) (v : FVal) : FVal :=
  match v with
  | .nan n => .nan n
  | .inf n => if n then freshNan else .inf false
  | .fin neg man exp =>
    if man = 0 then .inf true
    else if neg then freshNan
    else
      let len := man.log2
      let m := man * 2 ^ fixBits / 2 ^ len
      let l : Int := (exp + len) * (2 ^ 120 : Nat) + (log2Bits m 120 0 : Nat)
      let r := if base2 then l * (2 ^ fixBits : Nat) else l * ln2Fix
      .fin (decide (r < 0)) r.natAbs (-120 - fixBits)

/-- 1 / (1 + e^-v). -/
def sigmoidReal (v : FVal) : FVal :=
  match v with
  | .nan n => .nan n
  | .inf n => if n then .fin false 0 0 else .fin false 1 0
  | _ => divExact (.fin false 1 0) (addExact (.fin false 1 0) (expReal false v.negate))

/-- tanh v: for a small argument v - v^3 / 3, else 2 / (1 + e^-2v) - 1. -/
def tanhReal (v : FVal) : FVal :=
  match v with
  | .nan n => .nan n
  | .inf n => .fin n 1 0
  | .fin neg man exp =>
    if man ≠ 0 ∧ exp + (man.log2 : Int) < -20 then
      addExact v (divExact (mulExact (mulExact v v) v).negate (.fin false 3 0))
    else addExact (mulExact (.fin false 2 0) (sigmoidReal (.fin neg man (exp + 1)))) (.fin true 1 0)

/-- v times the sigmoid of u. -/
def gated (v u : FVal) : FVal :=
  match v with
  | .inf n => if n then .fin true 0 0 else .inf false
  | _ => mulExact v (sigmoidReal u)

/-- 2 sqrt(2 / π) (v + 0.044715 v^3) of the tanh form of GELU, the first factor with 160 fraction bits. -/
def geluInner (v : FVal) : FVal :=
  let cube := mulExact (mulExact v v) v
  mulExact (addExact v (divExact (mulExact cube (.fin false 44715 0)) (.fin false 1000000 0)))
    (.fin false 2332219184028872162936766921774799528781383630017 (-160))

/-- Where a point of the grid of half places may stand: below the power of two (2^24 half places) anywhere, from there on at whole places, and
from the next power at double places; a point between is moved towards the exact value, which lies at half place `q` or just above it. -/
def onGrid (q p : Nat) : Nat :=
  if p ≥ 2 ^ 25 then p / 4 * 4 else if p < 2 ^ 24 ∨ p % 2 = 0 then p else if p > q then p - 1 else p + 1

/-- The FP32 number that `k` picks among those within `n` ulp of a finite value other than zero. The exact value lies `q` half places of its last
place up, or between that and the next half place; every point at most `2 * n` half places away is a candidate. -/
def ulpPoint (n k : Nat) (neg : Bool) (man : Nat) (exp : Int) : FVal :=
  let half := exp + (man.log2 : Int) - 24
  let q := if half ≤ exp then man * 2 ^ (exp - half).toNat else man / 2 ^ (half - exp).toNat
  let exact_ := decide (half ≤ exp ∨ man % 2 ^ (half - exp).toNat = 0)
  let low := if exact_ then q - 2 * n else q + 1 - 2 * n
  round32 (.fin neg (onGrid q (low + k % (q + 2 * n + 1 - low))) half)

/-- An FP32 number whose distance from the exact value is at most `n` units in its last place, picked by a free value (log 9). -/
def withinUlp (s : State) (n : Nat) (v : FVal) : State × FVal :=
  let (d, s1) := s.draw
  (s1, match v with | .fin neg man exp => if man = 0 then v else ulpPoint n d.toNat neg man exp | x => x)

end Sys2Proof.Machine
end

