-- ==== Sys2Proof/Machine/Vector.lean ====
section
/-! DEFINITION. The matrix and vector engines (05 R118 to R134): MXE passes with their epilogues, VXE operations over rows, scales and
quantisation, the integer rescale, their counters, and chaff by row. Operands lie in the stall's crib reservation; the manual gives the
engines' instructions no encoding, so each operation takes its operands as fields (log 10). -/

namespace Sys2Proof.Machine

/-! ### The crib reservation -/

/-- Bytes of an instance's reservation (04 R84). -/
def Inst.cribSize (x : Inst) : Nat := x.desc.cribUnits * 65536

/-- A run of bytes lies in the reservation. -/
def Inst.inCrib (x : Inst) (off len : Nat) : Bool := decide (off + len ≤ x.cribSize)

def Inst.cribRead (x : Inst) (off len : Nat) : Bytes := memGet x.crib off len

/-- A line of a run is marked (09 R225), or a word of it holds an uncorrectable error (04 R84). -/
def Inst.cribMarked (x : Inst) (off len : Nat) : Bool :=
  (linesOf off len).any (fun l => x.cribChaff.contains l) || x.cribUe.any fun w => decide (off < w * 8 + 8 ∧ w * 8 < off + len)

/-- Write a run of bytes, marked or clean; the words that it covers whole hold no error any more (04 R84). -/
def Inst.cribWrite (x : Inst) (off : Nat) (bs : Bytes) (chaff : Bool) : Inst :=
  { x with
    crib := memPutAll x.crib off bs, cribChaff := markLines x.cribChaff off bs.length chaff
    cribUe := x.cribUe.filter fun w => !decide (off ≤ w * 8 ∧ w * 8 + 8 ≤ off + bs.length) }

/-! ### Which instance runs an engine instruction -/

/-- Engine bits of a descriptor (04 R87). -/
def engineMxe : Nat := 0
def engineSce : Nat := 1
def engineVxe : Nat := 2
def engineBse : Nat := 3

/-- The stall that issues on a core: the chosen one, or, while none is, the one that R99 chooses now. -/
def State.issuer (s : State) (n : Nat) : Option Nat :=
  match (s.core n).issuing with
  | some k => some k
  | none => (s.nextIssue n).map (·.1)

/-- The instance in a stall slot, if its sheaf may use an engine, no operation of its engines is under way, and it issues (04 R87, R99). -/
def State.engineRun (s : State) (r : StallRef) (engine : Nat) : Option (Nat × Inst) :=
  match s.running r with
  | some (i, x) =>
    if x.desc.engines.testBit engine && !s.engineBusy i &&
        s.issuer r.core.val = some r.slot.val then some (i, x)
    else none
  | none => none

/-! ### Tokens (09 R214) -/

/-- A post to a token of a stall; one that would take it above 65,535 is a protection fault of cause PROGRAM (R212). -/
def State.postToken (s : State) (i token count : Nat) : State :=
  match s.inst? i with
  | none => s
  | some x =>
    let n := AMap.getD x.tokens token 0 + count
    if n > 65535 then s.abortInst i causeProgram else s.setInst i { x with tokens := AMap.set x.tokens token n }

/-- A token that an engine instruction waits on holds its count. -/
def Inst.awaited (x : Inst) (use : Option TokenUse) : Bool :=
  match use with
  | none => true
  | some u => decide (u.count.val ≤ AMap.getD x.tokens u.token.val 0)

/-- The wait is over: its count is subtracted. -/
def Inst.spend (x : Inst) (use : Option TokenUse) : Inst :=
  match use with
  | none => x
  | some u => { x with tokens := AMap.set x.tokens u.token.val (AMap.getD x.tokens u.token.val 0 - u.count.val) }

/-- A completed engine instruction posts. -/
def State.postUse (s : State) (i : Nat) (use : Option TokenUse) : State :=
  match use with
  | none => s
  | some u => s.postToken i u.token.val u.count.val

/-- The tokens of an engine instruction that has run: the wait's count is spent, and the post is made, or owed while the instruction is still
under way or held on a fault. One of a gleaned instance posts nothing. -/
def State.engineEnds (s : State) (i : Nat) (r : EngineRef) : State :=
  if r.await = none ∧ r.post = none then s
  else
    match s.inst? i with
    | none => s
    | some x =>
      if x.gleaning.isSome then s
      else if s.engineBusy i then s.setInst i { x.spend r.await with owed := r.post }
      else (s.setInst i (x.spend r.await)).postUse i r.post

/-- The post that is owed, when the instruction under way has completed. -/
def State.postOwed (s : State) (i : Nat) : State :=
  match s.inst? i with
  | none => s
  | some x =>
    match x.owed with
    | none => s
    | some u => if s.engineBusy i || x.gleaning.isSome then s else (s.setInst i { x with owed := none }).postUse i (some u)

/-- An engine instruction that its stall may run and that its descriptor fits; until its token holds its count it waits, with no effect
(R214). -/
def State.tokened (s : State) (r : EngineRef) (engine : Nat) (fits : Nat → Inst → Bool) (body : State → State) : State :=
  match s.engineRun r.stall engine with
  | none => s
  | some (i, x) => if x.awaited r.await && fits i x then (body s).engineEnds i r else s

/-- What an engine instruction adds to the core's arithmetic counters. -/
structure Tally where
  accSat : Nat
  outSat : Nat
  nonfinite : Nat
  degenerate : Nat
  deriving DecidableEq, Repr

def Tally.zero : Tally := ⟨0, 0, 0, 0⟩

/-- Add to a core's arithmetic counters (05 "Core arithmetic registers"). -/
def State.tally (s : State) (n : Nat) (t : Tally) : State :=
  (((s.count32 (Reg.ARITH_ACC_SAT n) t.accSat).count32 (Reg.ARITH_OUT_SAT n) t.outSat).count32 (Reg.ARITH_NONFINITE n)
    t.nonfinite).count32 (Reg.ARITH_DEGENERATE_ROWS n) t.degenerate

/-- A result counts as non-finite: a NaN, or an infinity that finite operands gave (R132; log 9). -/
def flagged (v : FVal) (finite : Bool) : Bool := v.isNan || (v.isInf && finite)

/-- An operand as the engines use it: a floating-point element at its exact value, subnormals of FP8, FP16 and BF16 among them (R117), and an
integer converted to FP32. -/
def operandOf (f : Fmt) (v : Nat) : FVal := if isInt f then round32 (decodeElem f v) else decodeElem f v

/-- The elements of a vector as operands. -/
def fpRow (f : Fmt) (bs : Bytes) (n : Nat) : List FVal := (List.range n).map fun i => operandOf f (elemBits f bs i)

/-- An FP32 number as its bits. -/
def bits32 (v : FVal) : Nat := (convFloat ⟨8, 23, 127⟩ .fp32 false v).bits

/-- An FP32 number from its bits. -/
def of32 (n : Nat) : FVal := decodeElem .fp32 n

/-! ### The integer rescale (R129 to R131) -/

/-- An entry of a rescale table (R131). -/
structure RescaleEntry where
  mult : Int
  shift : Nat
  zp : Int
  deriving DecidableEq, Repr

def parseRescale (b : Bytes) : RescaleEntry :=
  let v := leNat b
  ⟨signedOf 32 v, v / 2 ^ 32 % 64, signedOf 24 (v / 2 ^ 40)⟩

/-- Multiply and rounding shift (R130). -/
def rescaleShift (acc : Int) (e : RescaleEntry) (even : Bool) : Int :=
  let p := acc * e.mult
  let d : Int := (2 ^ e.shift : Nat)
  if e.shift = 0 then p
  else if !even then (p + d / 2) / d
  else
    let t := p / d
    let r := p - t * d
    if r > d / 2 ∨ (r = d / 2 ∧ t % 2 = 1) then t + 1 else t

/-- One output of RESCALE and whether the clamp changed it (R129). -/
def rescaleOut (acc : Int) (e : RescaleEntry) (even : Bool) (out : Fmt) : Int × Bool :=
  let (lo, hi) := intRange out
  let t := rescaleShift acc e even
  let c := clampInt (lo - e.zp) (hi - e.zp) t
  (c + e.zp, decide (c ≠ t))

/-- The zero point of an entry lies in the output range (R131). -/
def RescaleEntry.ok (e : RescaleEntry) (out : Fmt) : Bool := decide ((intRange out).1 ≤ e.zp ∧ e.zp ≤ (intRange out).2)

/-- The entry index of a channel and a token by the instruction's mode (R131). -/
def rescaleIndex (mode channel token : Nat) : Nat := if mode = 0 then 0 else if mode = 1 then channel else token

/-- Entries that a mode names, by the channels and tokens of the instruction. -/
def rescaleCount (mode channels tokens : Nat) : Nat := if mode = 0 then 1 else if mode = 1 then channels else tokens

/-- Integer formats that RESCALE gives (R121): all four. -/
def rescaleOk (x : Inst) (out : Fmt) (mode table channels tokens : Nat) : Bool :=
  let n := rescaleCount mode channels tokens
  isInt out && decide (mode ≤ 2) && x.inCrib table (n * 8) &&
    (List.range n).all fun i => (parseRescale (x.cribRead (table + i * 8) 8)).ok out

/-! ### The MXE (R118 to R122) -/

/-- K, channels and integer accumulation of an operand pair (R118). -/
def mxeShape (w c : Fmt) : Option (Nat × Nat × Bool) :=
  let fp8 := fun f => decide (f = .e4m3 ∨ f = .e5m2)
  if w = .int4 ∧ c = .int4 then some (512, 256, true)
  else if w = .int4 ∧ c = .int8 ∨ w = .int8 ∧ c = .int8 then some (256, 256, true)
  else if fp8 w && fp8 c then some (256, 256, false)
  else if w = .bf16 ∧ c = .bf16 ∨ w = .fp16 ∧ c = .fp16 then some (128, 128, false)
  else none

/-- The round that a stall's ring tile belongs to (09 R228): of the rounds of that number that it has joined, the earliest one whose tile it has not
had. -/
def State.roundOf (s : State) (i : Nat) (x : Inst) (round tile : Nat) : Option Round :=
  (s.bay x.bay).rounds.find? fun r => r.round = round && r.joins.any fun j => j.inst = i && !j.had.contains tile

/-- The bytes of a tile in a half, and whether a line of them is marked. -/
def RingHalf.tile? (h : RingHalf) (key len : Nat) : Option (Bytes × Bool) :=
  (AMap.get? h.tiles key).map fun slot =>
    (memGet h.bytes (slot * 65536) len, (linesOf (slot * 65536) len).any fun l => h.chaff.contains l)

/-- The bytes of a pass's weight tile, with its mark; none while a ring tile has not been delivered (09 R228). -/
def State.tileOf (s : State) (i : Nat) (x : Inst) (p : MxePass) : Option (Bytes × Bool) :=
  let len := vecBytes p.weights (p.depth * p.channels)
  match p.tile with
  | .crib off => some (x.cribRead off len, x.cribMarked off len)
  | .ring round tile =>
    let c := s.core x.core
    (s.roundOf i x round tile).bind fun r =>
      (c.current.tile? (r.serial * 65536 + tile) len).or (c.next.tile? (r.serial * 65536 + tile) len)

/-- An accumulator after a pass: its bits, and whether it counts as non-finite or saturated. -/
structure AccEl where
  bits : Nat
  flag : Bool
  sat : Bool
  deriving DecidableEq, Repr

/-- One accumulator: the sum of the products of a column and a channel (R120). DESIGN CHOICE: the tile lies channel by channel, element
`channel * depth + k`, packed as one vector, and the outputs lie column by column (log 83). -/
def mxeDot (s : State) (int : Bool) (p : MxePass) (tile col : Bytes) (ch : Nat) : State × AccEl :=
  let pairs := (List.range p.depth).map fun k =>
    (elemBits p.weights tile (ch * p.depth + k), elemBits p.columns col k)
  if int then
    let sum := pairs.foldl (fun (a : Int) e =>
      a + signedOf (fmtBits p.weights) e.1 * signedOf (fmtBits p.columns) e.2) 0
    (s, ⟨natOfInt 32 sum, false, false⟩)
  else
    let vals := pairs.map fun e => (decodeElem p.weights e.1, decodeElem p.columns e.2)
    let (s1, v) := fsum s (vals.map fun e => fmul e.1 e.2)
    (s1, ⟨bits32 v, flagged v (vals.all fun e => e.1.isFinite && e.2.isFinite), false⟩)

/-- The accumulators of one column. -/
def mxeColumn (s : State) (int : Bool) (p : MxePass) (tile col : Bytes) : State × List AccEl :=
  (List.range p.channels).foldl (fun (a : State × List AccEl) ch =>
    let (s1, e) := mxeDot a.1 int p tile col ch
    (s1, a.2 ++ [e])) (s, [])

/-- ACCUMULATE: add the partial-sum buffer's element (R121, R122). -/
def accumulate (int : Bool) (a : AccEl) (old : Nat) : AccEl :=
  if int then
    let (v, sat) := satAdd (signedOf 32 a.bits, false) (signedOf 32 old, false)
    ⟨natOfInt 32 v, false, sat⟩
  else
    let v := fadd (of32 a.bits) (of32 old)
    ⟨bits32 v, a.flag || flagged v ((of32 a.bits).isFinite && (of32 old).isFinite), false⟩

/-- The partial-sum buffer's elements of a column. -/
def Inst.partialAt (x : Inst) (off channels c ch : Nat) : Nat := leNat (x.cribRead (off + (c * channels + ch) * 4) 4)

/-- The output of one accumulator under an epilogue, and what it counts. DESIGN CHOICE: RESCALE after an ACCUMULATE writes its own outputs only; the sum
does not go back to the partial-sum buffer (log 84). -/
def epilogueOut (x : Inst) (p : MxePass) (int : Bool) (c ch : Nat) (a : AccEl) : Conv × Tally :=
  let n := fun (b : Bool) => if b then 1 else 0
  match p.epilogue with
  | .partialSum _ => (⟨a.bits, false, a.flag⟩, ⟨0, 0, n a.flag, 0⟩)
  | .accumulate off =>
    let b := accumulate int a (x.partialAt off p.channels c ch)
    (⟨b.bits, false, b.flag⟩, ⟨n b.sat, 0, n b.flag, 0⟩)
  | .rescale from_ out mode table _ =>
    let b := match from_ with | some off => accumulate int a (x.partialAt off p.channels c ch) | none => a
    let e := parseRescale (x.cribRead (table + rescaleIndex mode ch c * 8) 8)
    let (v, clamped) := rescaleOut (signedOf 32 b.bits) e x.desc.roundEven out
    (⟨natOfInt (fmtBits out) v, clamped, false⟩, ⟨n b.sat, n clamped, 0, 0⟩)
  | .scaleConvert tok chan out _ =>
    let v0 := if int then round32 (ofInt (signedOf 32 a.bits)) else of32 a.bits
    let get := fun (o : Option Nat) (i : Nat) => o.map fun off => of32 (leNat (x.cribRead (off + i * 4) 4))
    let scales := [get tok c, get chan ch].filterMap id
    let v := scales.foldl fmul v0
    let flag := a.flag || flagged v (v0.isFinite && scales.all FVal.isFinite)
    let r := convert out x.arithCtl v
    (r, ⟨0, n r.sat, n (flag || r.nonfinite), 0⟩)

/-- The format, destination, other operand areas and validity of an epilogue. -/
def epilogueArea (x : Inst) (p : MxePass) (int : Bool) : Option (Fmt × Nat × List (Nat × Nat)) :=
  let acc := if int then Fmt.int32 else Fmt.fp32
  let buf := fun off => (off, p.columnCount * p.channels * 4)
  match p.epilogue with
  | .partialSum off => some (acc, off, [])
  | .accumulate off => some (acc, off, [buf off])
  | .rescale from_ out mode table dst =>
    if int && rescaleOk x out mode table p.channels p.columnCount then
      some (out, dst, (from_.map buf).toList ++ [(table, rescaleCount mode p.channels p.columnCount * 8)])
    else none
  | .scaleConvert tok chan out dst =>
    if out = .fp32 ∨ out = .bf16 ∨ out = .fp16 ∨ out = .e4m3 ∨ out = .e5m2 then
      some (out, dst, (tok.map fun o => (o, p.columnCount * 4)).toList ++ (chan.map fun o => (o, p.channels * 4)).toList)
    else none

/-- The operands of a pass lie within the limits of R118, R119 and in the reservation. DESIGN CHOICE: a pass of more than 3,584 columns is a protection
fault of cause PROGRAM; R98 says only that the MXE ends every pass by then (log 82). -/
def passOk (p : MxePass) (x : Inst) (k channels : Nat) (area : Fmt × Nat × List (Nat × Nat)) : Bool :=
  decide (1 ≤ p.depth ∧ p.depth ≤ k ∧ 1 ≤ p.channels ∧ p.channels ≤ channels ∧ 1 ≤ p.columnCount ∧ p.columnCount ≤ 3584) &&
    (match p.tile with | .crib off => x.inCrib off (vecBytes p.weights (p.depth * p.channels)) | .ring _ _ => true) &&
    x.inCrib (p.columnOffset + (p.columnCount - 1) * p.columnStride) (vecBytes p.columns p.depth) &&
    x.inCrib area.2.1 (p.columnCount * vecBytes area.1 p.channels) && area.2.2.all fun a => x.inCrib a.1 a.2

/-- The outputs of one column: packed bytes and what they count. -/
def columnOut (x : Inst) (p : MxePass) (int : Bool) (out : Fmt) (c : Nat) (accs : List AccEl) : Bytes × List Tally :=
  let l := (List.range accs.length).map fun ch => epilogueOut x p int c ch ((accs[ch]?).getD ⟨0, false, false⟩)
  (packElems out (l.map fun e => e.1.bits), l.map (·.2))

def Tally.add (a b : Tally) : Tally := ⟨a.accSat + b.accSat, a.outSat + b.outSat, a.nonfinite + b.nonfinite, a.degenerate + b.degenerate⟩

/-- A pass over a ring tile has ended: its slot is free once every joined stall of the core has passed over it (09 R228). -/
def State.ringPassed (s : State) (i : Nat) (x : Inst) (round tile : Nat) : State :=
  match s.roundOf i x round tile with
  | none => s
  | some r =>
    let y := s.bay x.bay
    let had := fun (j : RoundJoin) => if j.inst = i then { j with had := setInsert j.had tile } else j
    (s.setBay x.bay { y with rounds := y.rounds.map fun q => if q.serial = r.serial then { q with joins := q.joins.map had } else q }).freeTiles
      x.bay x.core

/-- The cycles that a pass takes beside its columns, and the core's note of whose pass was last: 512 for a pass that does not follow one of the same
stall; 32 or 512 for one that does, by whether its tile was loaded in time into the shadow tile buffer, which a free value says (R119; log 27). -/
def State.passOverhead (s : State) (i n : Nat) : Nat × State :=
  let follows := decide ((s.core n).mxeLast = some i)
  let (v, s1) := s.draw
  (if follows && !bit v 0 then 32 else 512, s1.setCore n { s1.core n with mxeLast := some i })

/-- MXE_PASS (R119): stream the columns through the tile and drain the accumulators. -/
def State.mxePass (s : State) (r : StallRef) (p : MxePass) : State :=
  match s.engineRun r engineMxe with
  | none => s
  | some (i, x) =>
    match mxeShape p.weights p.columns with
    | none => s.abortInst i causeProgram
    | some (k, channels, int) =>
      match epilogueArea x p int with
      | none => s.abortInst i causeProgram
      | some area =>
        if !passOk p x k channels area then s.abortInst i causeProgram
        else
          match s.tileOf i x p with
          | none => s
          | some (tile, tileMark) =>
            let colLen := vecBytes p.columns p.depth
            let shared := tileMark || area.2.2.any fun a => x.cribMarked a.1 a.2
            let outLen := vecBytes area.1 p.channels
            let step := fun (a : State × Inst × Tally) (c : Nat) =>
              let off := p.columnOffset + c * p.columnStride
              let (s1, accs) := mxeColumn a.1 int p tile (x.cribRead off colLen)
              let (bytes, ts) := columnOut x p int area.1 c accs
              (s1, a.2.1.cribWrite (area.2.1 + c * outLen) bytes (shared || x.cribMarked off colLen), ts.foldl Tally.add a.2.2)
            let (s1, y, t) := (List.range p.columnCount).foldl step (s, x, Tally.zero)
            let (overhead, s2) := s1.passOverhead i x.core
            let s3 := ((s2.setInst i y).tally x.core t).count64 (Reg.CORE_MXE_BUSY_LO x.core) (Reg.CORE_MXE_BUSY_HI x.core)
              (p.columnCount + overhead)
            match p.tile with
            | .ring round tile => s3.ringPassed i x round tile
            | .crib _ => s3

/-- A legal pass waits, with no effect, until its ring tile has been delivered (09 R228). -/
def State.tileLate (s : State) (p : MxePass) (i : Nat) (x : Inst) : Bool :=
  match mxeShape p.weights p.columns with
  | none => false
  | some (k, channels, int) =>
    match epilogueArea x p int with
    | none => false
    | some area => passOk p x k channels area && (s.tileOf i x p).isNone

/-- MXE_PASS (R119). -/
def execMxePass (at_ : EngineRef) (pass : MxePass) (s : State) : Host.Outcome State Fault Refusal :=
  s.done (s.tokened at_ engineMxe (fun i x => !s.tileLate pass i x) fun s => s.mxePass at_.stall pass)

/-! ### The VXE (R123 to R128) -/

/-- Where a row operation reads and writes: areas read, and the area written. -/
def rowOk (x : Inst) (row : VxeRow) (reads : List (Nat × Nat)) (write : Nat × Nat) : Bool :=
  decide (1 ≤ row.count ∧ row.count ≤ 65536) && (write :: reads).all fun a => x.inCrib a.1 a.2

/-- Run a row operation of the VXE: check its areas, compute, write the packed result marked by its operands (R134), and count. -/
def State.vxeRun (s : State) (r : StallRef) (row : VxeRow) (legal : Bool) (reads : Inst → List (Nat × Nat)) (outLen : Nat)
    (compute : State → Inst → State × Bytes × Tally) : State :=
  match s.engineRun r engineVxe with
  | none => s
  | some (i, x) =>
    if !legal || !rowOk x row (reads x) (row.dst, outLen) then s.abortInst i causeProgram
    else
      let mark := (reads x).any fun a => x.cribMarked a.1 a.2
      let (s1, bytes, t) := compute s x
      (s1.setInst i (x.cribWrite row.dst bytes mark)).tally x.core t

/-- The area of an operand row. -/
def rowArea (row : VxeRow) (off : Nat) : Nat × Nat := (off, vecBytes row.inFmt row.count)

/-- Operand rows that an element-wise operation reads. -/
def opReads (op : VxeOp) (row : VxeRow) : List (Nat × Nat) :=
  match op with
  | .fma => [rowArea row row.a, rowArea row row.b, rowArea row row.c]
  | .select => [rowArea row row.a, rowArea row row.b, rowArea row row.c]
  | .add => [rowArea row row.a, rowArea row row.b] | .sub => [rowArea row row.a, rowArea row row.b]
  | .mul => [rowArea row row.a, rowArea row row.b] | .min => [rowArea row row.a, rowArea row row.b]
  | .max => [rowArea row row.a, rowArea row row.b] | .compare => [rowArea row row.a, rowArea row row.b]
  | .abs => [rowArea row row.a] | .neg => [rowArea row row.a] | .convert => [rowArea row row.a] | .recip => [rowArea row row.a]
  | .rsqrt => [rowArea row row.a] | .sqrt => [rowArea row row.a] | .exp => [rowArea row row.a] | .exp2 => [rowArea row row.a]
  | .log => [rowArea row row.a] | .log2 => [rowArea row row.a] | .tanh => [rowArea row row.a] | .sigmoid => [rowArea row row.a]
  | .silu => [rowArea row row.a] | .gelu => [rowArea row row.a]

def oneF : FVal := .fin false 1 0

/-- One element of an element-wise operation in FP32 (R123). -/
def opApply (op : VxeOp) (s : State) (a b c : FVal) : State × FVal :=
  match op with
  | .add => (s, fadd a b)
  | .sub => (s, fsub a b)
  | .mul => (s, fmul a b)
  | .fma => (s, ffma a b c)
  | .min => (s, fmin a b)
  | .max => (s, fmax a b)
  | .compare => if a.isNan then (s, a) else if b.isNan then (s, b)
      else (s, of32 (Config.compareResult (w32 (bits32 a)) (w32 (bits32 b))).toNat)
  | .select => (s, if c.isNan then c else if a.isNan then a else if b.isNan then b else if Config.selectsFirst (w32 (bits32 c)) then a else b)
  | .abs => (s, a.abs)
  | .neg => (s, a.negate)
  | .convert => (s, a)
  | .recip => withinUlp s 1 (divExact oneF a)
  | .rsqrt => withinUlp s 1 (divExact oneF (sqrtExact a))
  | .sqrt => withinUlp s 1 (sqrtExact a)
  | .exp => withinUlp s 2 (expReal false a)
  | .exp2 => withinUlp s 2 (expReal true a)
  | .log => withinUlp s 2 (logReal false a)
  | .log2 => withinUlp s 2 (logReal true a)
  | .tanh => withinUlp s 4 (tanhReal a)
  | .sigmoid => withinUlp s 4 (sigmoidReal a)
  | .silu => withinUlp s 4 (gated a a)
  | .gelu => withinUlp s 4 (gated a (geluInner a))

/-- Operands of an operation are finite. -/
def opFinite (op : VxeOp) (a b c : FVal) : Bool := match (opReads op ⟨0, .int4, .int4, 0, 0, 0, 0⟩).length with
  | 1 => a.isFinite | 2 => a.isFinite && b.isFinite | _ => a.isFinite && b.isFinite && c.isFinite

/-- One output element: its bits and what it counts. A conversion counts by R132's rows for conversions alone. -/
def vxeElement (s : State) (op : VxeOp) (ctl : Word) (row : VxeRow) (a b c : Nat) : State × Nat × Tally :=
  let n := fun (x : Bool) => if x then 1 else 0
  if op = .convert then
    let r := convert row.outFmt ctl (decodeElem row.inFmt a)
    (s, r.bits, ⟨0, n r.sat, n r.nonfinite, 0⟩)
  else
    let f := operandOf row.inFmt
    let (s1, v) := opApply op s (f a) (f b) (f c)
    let r := convert row.outFmt ctl v
    (s1, r.bits, ⟨0, n r.sat, n (flagged v (opFinite op (f a) (f b) (f c)) || r.nonfinite), 0⟩)

/-- A row of outputs from a function of the element's index. -/
def rowOut (s : State) (n : Nat) (f : Fmt) (el : State → Nat → State × Nat × Tally) : State × Bytes × Tally :=
  let (s1, l, t) := (List.range n).foldl (fun (a : State × List Nat × Tally) i =>
    let (s1, v, t) := el a.1 i
    (s1, a.2.1 ++ [v], a.2.2.add t)) (s, [], Tally.zero)
  (s1, packElems f l, t)

/-- VXE_ELEMENTWISE (R123). -/
def State.vxeElementwise (s : State) (r : StallRef) (op : VxeOp) (row : VxeRow) : State :=
  s.vxeRun r row true (fun _ => opReads op row) (vecBytes row.outFmt row.count) fun s x =>
    let get := fun off => x.cribRead off (vecBytes row.inFmt row.count)
    let (ba, bb, bc) := (get row.a, get row.b, get row.c)
    rowOut s row.count row.outFmt fun s i =>
      vxeElement s op x.arithCtl row (elemBits row.inFmt ba i) (elemBits row.inFmt bb i) (elemBits row.inFmt bc i)

/-- VXE_ELEMENTWISE (R123). -/
def execVxeElementwise (at_ : EngineRef) (op : VxeOp) (row : VxeRow) (s : State) : Host.Outcome State Fault Refusal :=
  s.done (s.tokened at_ engineVxe (fun _ _ => true) fun s => s.vxeElementwise at_.stall op row)

/-- The first operand row as FP32 numbers. -/
def rowValues (row : VxeRow) (x : Inst) (off : Nat) : List FVal :=
  fpRow row.inFmt (x.cribRead off (vecBytes row.inFmt row.count)) row.count

/-- One result from a row: converted and counted. -/
def oneOut (s : State) (x : Inst) (f : Fmt) (v : FVal) (finite : Bool) (degenerate : Nat) : State × Bytes × Tally :=
  let r := convert f x.arithCtl v
  (s, packElems f [r.bits], ⟨0, if r.sat then 1 else 0, if flagged v finite || r.nonfinite then 1 else 0, degenerate⟩)

/-- ROW_REDUCTION (R123, R124): a sum in an open order, or an exact maximum. -/
def State.rowReduction (s : State) (r : StallRef) (kind : Reduction) (row : VxeRow) : State :=
  s.vxeRun r row true (fun _ => [rowArea row row.a]) (vecBytes row.outFmt 1) fun s x =>
    let vs := rowValues row x row.a
    let finite := vs.all FVal.isFinite
    match kind with
    | .sum => let (s1, v) := fsum s vs; oneOut s1 x row.outFmt v finite 0
    | .max => oneOut s x row.outFmt ((vs.drop 1).foldl fmax ((vs.head?).getD (.fin false 0 0))) finite 0
    | .absMax =>
      let as := vs.map FVal.abs
      oneOut s x row.outFmt ((as.drop 1).foldl fmax ((as.head?).getD (.fin false 0 0))) finite 0

/-- ROW_REDUCTION (R124). -/
def execRowReduction (at_ : EngineRef) (kind : Reduction) (row : VxeRow) (s : State) : Host.Outcome State Fault Refusal :=
  s.done (s.tokened at_ engineVxe (fun _ _ => true) fun s => s.rowReduction at_.stall kind row)

/-- A number of zero magnitude. -/
def isZero : FVal → Bool
  | .fin _ m _ => m = 0 | _ => false

/-- Write a row of FP32 results in a format. -/
def fpOut (s : State) (x : Inst) (f : Fmt) (finite : Bool) (vs : List FVal) (degenerate : Nat) : State × Bytes × Tally :=
  let cs := vs.map fun v => (convert f x.arithCtl v, v)
  let n := fun (p : Conv × FVal → Bool) => (cs.filter p).length
  (s, packElems f (cs.map fun c => c.1.bits), ⟨0, n fun c => c.1.sat, n fun c => flagged c.2 finite || c.1.nonfinite, degenerate⟩)

/-- The mean of a list of FP32 numbers, its sum taken in an open order. -/
def fmean (s : State) (vs : List FVal) : State × FVal :=
  let (s1, t) := fsum s vs
  (s1, round32 (divExact t (ofInt vs.length)))

/-- The variance over a row: the mean of the squared deviations, or the mean square less the squared mean; the manual gives neither
form, and a free value takes one (R124; log 8). -/
def fvariance (s : State) (vs : List FVal) (mean : FVal) : State × FVal :=
  let (v, s1) := s.draw
  if bit v 0 then fmean s1 (vs.map fun x => let d := fsub x mean; fmul d d)
  else
    let (s2, m) := fmean s1 (vs.map fun x => fmul x x)
    (s2, fsub m (fmul mean mean))

/-- LAYER_NORM (R124): γ is operand row b, β operand row c. -/
def State.layerNorm (s : State) (r : StallRef) (row : VxeRow) (epsilon : Word) : State :=
  s.vxeRun r row true (fun _ => [rowArea row row.a, rowArea row row.b, rowArea row row.c]) (vecBytes row.outFmt row.count) fun s x =>
    let vs := rowValues row x row.a
    let gs := rowValues row x row.b
    let bs := rowValues row x row.c
    let (s1, mean) := fmean s vs
    let (s2, var) := fvariance s1 vs mean
    let d := fadd var (of32 epsilon.toNat)
    if isZero d then fpOut s2 x row.outFmt true (vs.map fun _ => .fin false 0 0) 1
    else
      let (s3, k) := withinUlp s2 1 (divExact oneF (sqrtExact d))
      fpOut s3 x row.outFmt ((vs ++ gs ++ bs).all FVal.isFinite)
        ((vs.zip (gs.zip bs)).map fun e => fadd (fmul (fmul (fsub e.1 mean) k) e.2.1) e.2.2) 0

/-- LAYER_NORM (R124). -/
def execLayerNorm (at_ : EngineRef) (row : VxeRow) (epsilon : Word) (s : State) : Host.Outcome State Fault Refusal :=
  s.done (s.tokened at_ engineVxe (fun _ _ => true) fun s => s.layerNorm at_.stall row epsilon)

/-- RMS_NORM (R124): γ is operand row b. -/
def State.rmsNorm (s : State) (r : StallRef) (row : VxeRow) (epsilon : Word) : State :=
  s.vxeRun r row true (fun _ => [rowArea row row.a, rowArea row row.b]) (vecBytes row.outFmt row.count) fun s x =>
    let vs := rowValues row x row.a
    let gs := rowValues row x row.b
    let (s1, ms) := fmean s (vs.map fun v => fmul v v)
    let d := fadd ms (of32 epsilon.toNat)
    if isZero d then fpOut s1 x row.outFmt true (vs.map fun _ => .fin false 0 0) 1
    else
      let (s2, k) := withinUlp s1 1 (divExact oneF (sqrtExact d))
      fpOut s2 x row.outFmt ((vs ++ gs).all FVal.isFinite) ((vs.zip gs).map fun e => fmul (fmul e.1 k) e.2) 0

/-- RMS_NORM (R124). -/
def execRmsNorm (at_ : EngineRef) (row : VxeRow) (epsilon : Word) (s : State) : Host.Outcome State Fault Refusal :=
  s.done (s.tokened at_ engineVxe (fun _ _ => true) fun s => s.rmsNorm at_.stall row epsilon)

/-- Two running maxima and rescaled sums joined (R125). -/
def softJoin (s : State) (a b : FVal × FVal) : State × (FVal × FVal) :=
  let m := fmax a.1 b.1
  let (s1, ka) := withinUlp s 2 (expReal false (fsub a.1 m))
  let (s2, kb) := withinUlp s1 2 (expReal false (fsub b.1 m))
  (s2, (m, fadd (fmul a.2 ka) (fmul b.2 kb)))

/-- SOFTMAX over a row of FP32 numbers: the outputs, and whether the row holds no finite element (R125). DESIGN CHOICE: a row that holds no finite
element but a NaN or +∞ gives NaN and counts as no degenerate row (log 85). -/
def softmaxOf (s : State) (vs : List FVal) : State × List FVal × Bool :=
  if vs.any fun v => v.isNan || (v.isInf && !v.neg) then
    (s, vs.map fun _ => ((vs.find? FVal.isNan).getD freshNan), false)
  else
    let fs := vs.filter FVal.isFinite
    match fs with
    | [] => (s, vs.map fun _ => .fin false 0 0, true)
    | _ =>
      let (s1, m, sum) := sumOpen softJoin (.fin false 0 0, .fin false 0 0) fs.length s (fs.map fun v => (v, oneF))
      let (s2, out) := vs.foldl (fun (a : State × List FVal) v =>
        if v.isFinite then
          let (s', e) := withinUlp a.1 2 (expReal false (fsub v m))
          (s', a.2 ++ [round32 (divExact e sum)])
        else (a.1, a.2 ++ [.fin false 0 0])) (s1, [])
      (s2, out, false)

/-- SOFTMAX (R125). -/
def State.softmax (s : State) (r : StallRef) (row : VxeRow) : State :=
  s.vxeRun r row true (fun _ => [rowArea row row.a]) (vecBytes row.outFmt row.count) fun s x =>
    let vs := rowValues row x row.a
    let (s1, out, none_) := softmaxOf s vs
    fpOut s1 x row.outFmt true out (if none_ then 1 else 0)

/-- SOFTMAX (R125). -/
def execSoftmax (at_ : EngineRef) (row : VxeRow) (s : State) : Host.Outcome State Fault Refusal :=
  s.done (s.tokened at_ engineVxe (fun _ _ => true) fun s => s.softmax at_.stall row)

/-- qmax of a target format (R126). -/
def qmax : Fmt → Option Nat
  | .int4 => some 7 | .int8 => some 127 | .e4m3 => some 448 | .e5m2 => some 57344
  | .int16 => none | .int32 => none | .fp16 => none | .bf16 => none | .fp32 => none

/-- The scale of a row (R127), and whether its absolute maximum is zero. -/
def scaleOf (vs : List FVal) (q : Nat) : FVal × Bool :=
  let a := (vs.filter FVal.isFinite).foldl (fun m v => fmax m v.abs) (.fin false 0 0)
  if isZero a then (oneF, true) else (fmax (round32 (divExact a (ofInt q))) (.fin false 1 (-126)), false)

/-- SCALE (R127): one FP32 scale. -/
def State.scaleRow (s : State) (r : StallRef) (row : VxeRow) (target : Fmt) : State :=
  s.vxeRun r row (qmax target).isSome (fun _ => [rowArea row row.a]) 4 fun s x =>
    let (v, zero) := scaleOf (rowValues row x row.a) ((qmax target).getD 1)
    oneOut s x .fp32 v true (if zero then 1 else 0)

/-- SCALE (R127). -/
def execScale (at_ : EngineRef) (row : VxeRow) (target : Fmt) (s : State) : Host.Outcome State Fault Refusal :=
  s.done (s.tokened at_ engineVxe (fun _ _ => true) fun s => s.scaleRow at_.stall row target)

/-- One element of QUANT (R127). A product that is NaN, which only a scale of zero, infinity or NaN gives, is converted as R132 has it: NaN, or 0 in an
integer format, counted once. -/
def quantElement (target : Fmt) (q : Nat) (recip x : FVal) : Nat × Tally :=
  let clampAt := fun (neg : Bool) =>
    match fshape target with
    | some sh => (convFloat sh target false (ofInt (if neg then -(q : Int) else q))).bits
    | none => natOfInt (fmtBits target) (if neg then -(q : Int) else q)
  match x with
  | .nan neg => (match fshape target with | some sh => encodeNan sh (decide (target = .e4m3)) neg | none => 0, ⟨0, 0, 1, 0⟩)
  | .inf neg => (clampAt neg, ⟨0, 0, 1, 0⟩)
  | _ =>
    match fmul x recip with
    | .fin neg man exp =>
      match fshape target with
      | some sh => let c := convFloat sh target false (.fin neg man exp); (c.bits, ⟨0, if c.sat then 1 else 0, 0, 0⟩)
      | none =>
        let i := nearestInt neg man exp
        let c := clampInt (-(q : Int)) q i
        (natOfInt (fmtBits target) c, ⟨0, if c ≠ i then 1 else 0, 0, 0⟩)
    | .inf neg => (clampAt neg, ⟨0, 1, 0, 0⟩)
    | .nan neg => (match fshape target with | some sh => encodeNan sh (decide (target = .e4m3)) neg | none => 0, ⟨0, 0, 1, 0⟩)

/-- QUANT (R127): the scale is an FP32 number at operand b. -/
def State.quantRow (s : State) (r : StallRef) (row : VxeRow) (target : Fmt) : State :=
  s.vxeRun r row (qmax target).isSome (fun _ => [rowArea row row.a, (row.b, 4)]) (vecBytes target row.count) fun s x =>
    let vs := rowValues row x row.a
    let (s1, recip) := withinUlp s 1 (divExact oneF (of32 (leNat (x.cribRead row.b 4))))
    rowOut s1 row.count target fun s i =>
      let (v, t) := quantElement target ((qmax target).getD 1) recip ((vs[i]?).getD (.fin false 0 0))
      (s, v, t)

/-- QUANT (R127). -/
def execQuant (at_ : EngineRef) (row : VxeRow) (target : Fmt) (s : State) : Host.Outcome State Fault Refusal :=
  s.done (s.tokened at_ engineVxe (fun _ _ => true) fun s => s.quantRow at_.stall row target)

/-- DEQUANT (R126): each element times the scale at operand b, to FP32 or BF16. -/
def State.dequantRow (s : State) (r : StallRef) (row : VxeRow) : State :=
  s.vxeRun r row (row.outFmt = .fp32 || row.outFmt = .bf16) (fun _ => [rowArea row row.a, (row.b, 4)])
    (vecBytes row.outFmt row.count) fun s x =>
      let vs := rowValues row x row.a
      let k := of32 (leNat (x.cribRead row.b 4))
      fpOut s x row.outFmt (k.isFinite && vs.all FVal.isFinite) (vs.map fun v => fmul v k) 0

/-- DEQUANT (R126). -/
def execDequant (at_ : EngineRef) (row : VxeRow) (s : State) : Host.Outcome State Fault Refusal :=
  s.done (s.tokened at_ engineVxe (fun _ _ => true) fun s => s.dequantRow at_.stall row)

/-- RESCALE (R129 to R131): INT32 elements, by a table in the crib. -/
def State.rescaleRow (s : State) (r : StallRef) (o : RescaleOp) : State :=
  let row : VxeRow := ⟨o.count, .int32, o.out, o.src, 0, 0, o.dst⟩
  let tokens := ceilDiv o.count (max o.channels 1)
  let tableLen := rescaleCount o.mode o.channels tokens * 8
  let legal := match s.engineRun r engineVxe with
    | some (_, x) => decide (1 ≤ o.channels) && rescaleOk x o.out o.mode o.table o.channels tokens
    | none => true
  s.vxeRun r row legal (fun _ => [rowArea row o.src, (o.table, tableLen)]) (vecBytes o.out o.count) fun s x =>
    let src := x.cribRead o.src (o.count * 4)
    rowOut s o.count o.out fun s i =>
      let e := parseRescale (x.cribRead (o.table + rescaleIndex o.mode (i % o.channels) (i / o.channels) * 8) 8)
      let (v, clamped) := rescaleOut (signedOf 32 (leAt src (i * 4) 4)) e x.desc.roundEven o.out
      (s, natOfInt (fmtBits o.out) v, ⟨0, if clamped then 1 else 0, 0, 0⟩)

/-- RESCALE (R129). -/
def execRescale (at_ : EngineRef) (op : RescaleOp) (s : State) : Host.Outcome State Fault Refusal :=
  s.done (s.tokened at_ engineVxe (fun _ _ => true) fun s => s.rescaleRow at_.stall op)

end Sys2Proof.Machine
end

