-- ==== Sys2Proof/Machine/BankSide.lean ====
section
/-! DEFINITION. Bank-side engine commands (05 R135 to R139): issue, the split into page shares, and the results. -/

namespace Sys2Proof.Machine

/-- Matrix and vector formats of a command by their codes (R136). -/
def fmtOfMatrix (c : Nat) : Option Fmt :=
  match c with
  | 0 => some .int8 | 1 => some .int4 | 2 => some .e4m3 | 3 => some .e5m2 | 4 => some .bf16
  | _ => none

def fmtOfVector (c : Nat) : Option Fmt :=
  match c with
  | 0 => some .int8 | 2 => some .e4m3 | 3 => some .e5m2 | 4 => some .bf16 | 5 => some .fp32
  | _ => none

/-- A command as its 32 bytes give it (R136); reserved bits are ignored (00 R10). -/
def parseBse (e : Bytes) (i : Nat) (lc : Bool) (id : Nat) : BseCommand :=
  { id := id, inst := i, lc := lc, wsum := leAt e 0 1 = 2, matrixFmt := leAt e 1 1 % 16, vectorFmt := leAt e 1 1 / 16
    vectors := leAt e 2 1, accumulate := leAt e 3 1 % 2 = 1, rows := leAt e 4 4, cols := leAt e 8 4, stride := leAt e 0xC 4
    matrix := BitVec.ofNat 64 (leAt e 0x10 8), vecOff := leAt e 0x18 3, resOff := leAt e 0x1C 3, next := leAt e 0x10 8
    stop := 0, partials := [], chaff := [], waitRoom := false }

/-- Length of a vector and of a result (R137). -/
def BseCommand.vecLen (c : BseCommand) : Nat := if c.wsum then c.rows else c.cols
def BseCommand.resLen (c : BseCommand) : Nat := if c.wsum then c.cols else c.rows
/-- Bytes of a matrix row, of one vector, of all results. -/
def BseCommand.rowBytes (c : BseCommand) : Nat := vecBytes ((fmtOfMatrix c.matrixFmt).getD .int8) c.cols
def BseCommand.vecSize (c : BseCommand) : Nat := vecBytes ((fmtOfVector c.vectorFmt).getD .int8) c.vecLen
def BseCommand.resSize (c : BseCommand) : Nat := c.vectors * c.resLen * 4

/-- Integer accumulation. -/
def BseCommand.int (c : BseCommand) : Bool := decide (c.matrixFmt ≤ 1)

/-- A command meets R136 and R137 in an area of a size. -/
def BseCommand.ok (c : BseCommand) (size : Nat) : Bool :=
  (fmtOfMatrix c.matrixFmt).isSome && (fmtOfVector c.vectorFmt).isSome && decide (1 ≤ c.vectors ∧ c.vectors ≤ 16) &&
    decide (1 ≤ c.rows ∧ c.rows ≤ 1048576 ∧ 1 ≤ c.cols ∧ c.cols ≤ 1048576) &&
    (c.matrixFmt ≠ 1 || c.cols % 2 = 0) && c.stride % 64 = 0 && decide (c.rowBytes ≤ c.stride) && c.matrix.toNat % 64 = 0 &&
    c.vecOff % 64 = 0 && c.resOff % 64 = 0 &&
    (c.int == decide (c.vectorFmt = 0)) && decide (c.vectors * c.vecSize ≤ 65536) &&
    decide (c.vecOff + c.vectors * c.vecSize ≤ size ∧ c.resOff + c.resSize ≤ size) &&
    decide (c.vecOff + c.vectors * c.vecSize ≤ c.resOff ∨ c.resOff + c.resSize ≤ c.vecOff)

/-- The parts of a run of addresses that matrix rows cover: what a share reads of its page (R134, R136). -/
def BseCommand.rowRuns (c : BseCommand) (va len : Nat) : List (Nat × Nat) :=
  let lo := (va - c.matrix.toNat) / c.stride
  (List.range (len / c.stride + 2)).filterMap fun k =>
    let start := c.matrix.toNat + (lo + k) * c.stride
    let from_ := max va start
    let stop := min (va + len) (start + c.rowBytes)
    if lo + k < c.rows ∧ from_ < stop then some (from_, stop - from_) else none

/-- Some matrix row has a byte in a run of addresses. -/
def BseCommand.touches (c : BseCommand) (va len : Nat) : Bool := !(c.rowRuns va len).isEmpty

/-- A command replaced in the list. -/
def State.setBse (s : State) (c : BseCommand) : State :=
  { s with engines := { s.engines with commands := s.engines.commands.map fun x => if x.id = c.id then c else x } }

def State.bse? (s : State) (id : Nat) : Option BseCommand := s.engines.commands.find? fun c => c.id = id

/-- A die that works on no command takes the next one: LC before BE, and in order of arrival within a class (R139, 01 R26). -/
def State.takeNext (s : State) (die : Nat) : State :=
  let mine := s.engines.shares.filter fun sh => sh.die = die
  if mine.any (·.taken) then s
  else
    match (mine.find? (·.lc)).or mine.head? with
    | none => s
    | some h =>
      { s with engines := { s.engines with
          shares := s.engines.shares.map fun sh => if sh.die = die ∧ sh.work = h.work then { sh with taken := true } else sh } }

/-- Queue a share on a die; one of the command that the die works on is taken with it. -/
def State.queueShare (s : State) (die : Nat) (lc : Bool) (work : ShareWork) (va len phys : Nat) : State :=
  let taken := s.engines.shares.any fun sh => sh.die = die && sh.work = work && sh.taken
  let s1 : State := { s with engines := { s.engines with
      nextShare := s.engines.nextShare + 1
      shares := s.engines.shares ++ [⟨s.engines.nextShare, die, lc, work, BitVec.ofNat 64 va, len, phys, taken⟩] } }
  s1.takeNext die

/-- A die has room for a share: it holds its command already, or fewer than 256 (R139). -/
def State.shareRoom (s : State) (die : Nat) (work : ShareWork) : Bool :=
  (s.bseQueue die).contains work || decide (s.bseQueued die < 256)

/-- A share leaves its die's queue, and the die takes the next command. -/
def State.dropShare (s : State) (sh : BseShare) : State :=
  let s1 : State := { s with engines := { s.engines with shares := s.engines.shares.filter fun q => q.id ≠ sh.id } }
  s1.takeNext sh.die

/-- The die whose loft holds the page of an address, by its leaf; the core's own die where the leaf is not in a loft (R138). -/
def State.loftDie (s : State) (b va core : Nat) : Nat :=
  match s.pte b va with
  | some (_, _, e) => if pteTier e = 0 then (pteFrame e * 4096 + va % (pageSize (pteSizeCode e)).getD 0x10000) / 0x100000000 else dieOf core
  | none => dieOf core

/-- Translate a command's pages in turn, a share for each, until the matrix ends, a page faults (R138), or a die has no room for the command: it
then waits, and nothing is lost (R139, 01 R22). -/
def State.bseAdvance (s : State) (id : Nat) : Nat → State
  | 0 => s
  | n + 1 =>
    match s.bse? id with
    | none => s
    | some c =>
      match s.inst? c.inst with
      | none => s
      | some x =>
        if c.next ≥ c.stop || s.engineFault c.inst then s
        else
          let pageEnd := min c.stop ((c.next / 65536 + 1) * 65536)
          if !c.touches c.next (pageEnd - c.next) then (s.setBse { c with next := pageEnd }).bseAdvance id n
          else
            let en := bseEngine (s.loftDie x.bay c.next x.core)
            match s.translate x.bay c.next false en with
            | (s1, .error (cause, level, e)) => s1.takeFault x.bay c.next false en cause level e (.engine c.inst)
            | (s1, .ok t) =>
              let leafEnd := min c.stop ((c.next / t.size + 1) * t.size)
              let phys := t.phys c.next
              if !s1.shareRoom (phys / 0x100000000) (.command id) then s1.setBse { c with waitRoom := true }
              else
              let s2 : State := s1.queueShare (phys / 0x100000000) c.lc (.command id) c.next (leafEnd - c.next) phys
              (s2.setBse { c with
                next := leafEnd, chaff := if pteChaff t.entry then List.range c.vectors else c.chaff }).bseAdvance id n

/-- Pages of 64 KiB that a command's matrix spans. -/
def BseCommand.pages (c : BseCommand) : Nat := (c.stop - c.matrix.toNat) / 65536 + 2

/-- Commands that wait for room on a die go on, in order of issue (R139, 01 R22). -/
def State.bseRoom (s : State) : State :=
  (s.engines.commands.filter (·.waitRoom)).foldl (fun (s : State) c => (s.setBse { c with waitRoom := false }).bseAdvance c.id c.pages) s

/-- Issue a command that lies in the crib (R136): it is checked, queued on the dies of its pages, and the stall blocks. -/
def State.bseIssue (s : State) (r : StallRef) (off : Nat) (wsum : Bool) : State :=
  match s.engineRun r engineBse with
  | none => s
  | some (i, x) =>
    if !x.inCrib off 32 then s.abortInst i causeProgram
    else
      let e := x.cribRead off 32
      let op := leAt e 0 1
      if op ≠ 1 ∧ op ≠ 2 then s.abortInst i causeProgram
      else if (op = 2) ≠ wsum then s
      else
        let c0 := parseBse e i (!x.desc.be) s.engines.nextCommand
        if !c0.ok x.cribSize then s.abortInst i causeProgram
        else
          let c := { c0 with stop := c0.matrix.toNat + (c0.rows - 1) * c0.stride + c0.rowBytes }
          let s1 : State := { s with engines := { s.engines with
            nextCommand := s.engines.nextCommand + 1, commands := s.engines.commands ++ [c] } }
          (s1.bseAdvance c.id c.pages).refresh i

/-- A command in the crib is not of the other kind. -/
def bseFits (off : Nat) (wsum : Bool) (x : Inst) : Bool := decide (leAt (x.cribRead off 32) 0 1 ≠ if wsum then 1 else 2)

/-- BSE_DOT (R136). -/
def execBseDot (at_ : EngineRef) (command : Nat) (s : State) : Host.Outcome State Fault Refusal :=
  s.done (s.tokened at_ engineBse (fun _ => bseFits command false) fun s => s.bseIssue at_.stall command false)

/-- BSE_WSUM (R136). -/
def execBseWsum (at_ : EngineRef) (command : Nat) (s : State) : Host.Outcome State Fault Refusal :=
  s.done (s.tokened at_ engineBse (fun _ => bseFits command true) fun s => s.bseIssue at_.stall command true)

/-- The matrix elements of a share: row, column and raw bits of each whose bytes lie in the share's run. -/
def shareElements (c : BseCommand) (f : Fmt) (va : Nat) (bytes : Bytes) : List (Nat × Nat × Nat) :=
  let lo := (va - c.matrix.toNat) / c.stride
  (List.range (bytes.length / c.stride + 2)).flatMap fun k =>
    let r := lo + k
    if r ≥ c.rows then []
    else
      let start := c.matrix.toNat + r * c.stride
      (List.range c.cols).filterMap fun j =>
        let at_ := start + j * fmtBits f / 8
        if va ≤ at_ ∧ at_ < va + bytes.length then
          let raw := leAt bytes (at_ - va) (max 1 (fmtBits f / 8))
          some (r, j, if f = .int4 then raw / (if j % 2 = 0 then 1 else 16) % 16 else raw)
        else none

/-- The products that a share makes for a command's results: result element and product. A product of integers is exact; one of floating-point
operands is exact in FP32 (R120). -/
def shareTerms (c : BseCommand) (x : Inst) (els : List (Nat × Nat × Nat)) : List (Nat × Int × FVal) :=
  let mf := (fmtOfMatrix c.matrixFmt).getD .int8
  let vf := (fmtOfVector c.vectorFmt).getD .int8
  (List.range c.vectors).flatMap fun v =>
    let vec := x.cribRead (c.vecOff + v * c.vecSize) c.vecSize
    els.map fun e =>
      let xi := elemBits vf vec (if c.wsum then e.1 else e.2.1)
      let out := v * c.resLen + if c.wsum then e.2.1 else e.1
      if c.int then (out, signedOf (fmtBits mf) e.2.2 * signedOf (fmtBits vf) xi, .fin false 0 0)
      else (out, 0, fmul (decodeElem mf e.2.2) (decodeElem vf xi))

/-- The partial result that a share gives one result element, and whether it saturated: an exact integer sum held in INT32, or an FP32 sum in an
open order (R120, R137, R138, R140). -/
def sharePartial (s : State) (c : BseCommand) (terms : List (Int × FVal)) : State × Word × Bool :=
  if c.int then
    let t := satAdd ((terms.map (·.1)).sum, false) (0, false)
    (s, w32 (natOfInt 32 t.1), t.2)
  else
    let (s1, t) := fsum s (terms.map (·.2))
    (s1, w32 (bits32 t), false)

/-- A share's partial results join those of its command. -/
def State.gather (s : State) (c : BseCommand) (terms : List (Nat × Int × FVal)) : State × BseCommand :=
  (terms.foldl (fun l t => setInsert l t.1) []).foldl (fun (a : State × BseCommand) k =>
    let (s1, w, sat) := sharePartial a.1 c ((terms.filter fun t => t.1 = k).map (·.2))
    (s1, { a.2 with partials := AMap.set a.2.partials k (AMap.getD a.2.partials k [] ++ [(w, sat)]) })) (s, c)

/-- Results of a finished command: the shares' partial results, and the buffer's element where ACCUMULATE is set, added in an open order,
saturating for integers (R137, R138). Answers the bytes of one vector, the saturated elements and the non-finite ones. -/
def bseVector (s : State) (c : BseCommand) (x : Inst) (v : Nat) : State × Bytes × Nat × Nat :=
  (List.range c.resLen).foldl (fun (a : State × Bytes × Nat × Nat) k =>
    let idx := v * c.resLen + k
    let old := if c.accumulate then [(w32 (leNat (x.cribRead (c.resOff + idx * 4) 4)), false)] else []
    let terms := old ++ AMap.getD c.partials idx []
    if c.int then
      let (s1, t) := sumOpen (fun s p q => (s, satAdd p q)) (0, false) terms.length a.1
        (terms.map fun w => (signedOf 32 w.1.toNat, w.2))
      (s1, a.2.1 ++ leBytes 4 (natOfInt 32 t.1), a.2.2.1 + (if t.2 then 1 else 0), a.2.2.2)
    else
      let (s1, t) := fsum a.1 (terms.map fun w => of32 w.1.toNat)
      (s1, a.2.1 ++ leBytes 4 (bits32 t), a.2.2.1, a.2.2.2 + if t.isNan || t.isInf then 1 else 0)) (s, [], 0, 0)

/-- The results of a command whose shares are all done: written to the area that holds its buffers, marked by vector, and counted on a
die (R134, R136, R138). -/
def State.bseResults (s : State) (c : BseCommand) (x : Inst) (die : Nat) : State × Inst :=
  (List.range c.vectors).foldl (fun (a : State × Inst) (v : Nat) =>
    let (s1, bytes, sat, nonf) := bseVector a.1 c x v
    let mark := c.chaff.contains v || x.cribMarked (c.vecOff + v * c.vecSize) c.vecSize ||
      (c.accumulate && x.cribMarked (c.resOff + v * c.resLen * 4) (c.resLen * 4))
    let s2 := ((s1.count32 (Reg.BSE_ACC_SAT die) sat).count32 (Reg.BSE_NONFINITE die) nonf).count32 (Reg.BSE_CHAFF die)
      (if mark then 1 else 0)
    (s2, a.2.cribWrite (c.resOff + v * c.resLen * 4) bytes mark)) (s, x)

/-- A command whose last share is done writes its results to the crib, counts on the die of that share, and lets its stall go on (R134,
R136, R138). The results of a gleaned instance are discarded (09 R230). -/
def State.bseFinish (s : State) (id die : Nat) : State :=
  match s.bse? id with
  | none => s
  | some c =>
    if c.next < c.stop || s.engines.shares.any fun sh => sh.work = .command id then s
    else
      match s.inst? c.inst with
      | none => s
      | some x =>
        let gone := fun (s : State) => { s with engines := { s.engines with
            commands := s.engines.commands.filter fun k => k.id ≠ id } }
        if x.gleaning.isSome then gone s
        else
          let (s1, y) := s.bseResults c x die
          ((gone (s1.setInst c.inst y)).refresh c.inst).postOwed c.inst

/-- A share's work: the matrix lines that it reads, their products, and what they mark (R134, R138). -/
def State.shareWork (s : State) (c : BseCommand) (area : Inst) (va len phys die : Nat) (leafMarked : Bool) : State × BseCommand :=
  let runs := (c.rowRuns va len).map fun r => (phys + (r.1 - va), r.2)
  let s1 := runs.foldl (fun (s : State) r => s.meetUe r.1 r.2) s
  let els := shareElements c ((fmtOfMatrix c.matrixFmt).getD .int8) va (s1.physRead phys len)
  let marked := leafMarked || runs.any fun r => s1.physChaff r.1 r.2
  let (s2, c1) := s1.gather c (shareTerms c area els)
  ((s2.countWrap (Reg.BSE_CMDS die) 1).count64 (Reg.BSE_MAC_LO die) (Reg.BSE_MAC_HI die) (els.length * c.vectors),
    { c1 with chaff := if marked then List.range c.vectors else c1.chaff })

/-- A page share of a command is done (R138); commands that wait for room on a die go on. -/
def State.commandShareDone (s : State) (sh : BseShare) (id : Nat) : State :=
  match s.bse? id with
  | none => s
  | some c =>
    match s.inst? c.inst with
    | none => s
    | some x =>
      let (s1, c1) := s.shareWork c x sh.pageVa.toNat sh.pageLen sh.phys sh.die false
      (((s1.setBse c1).dropShare sh).bseRoom).bseFinish id sh.die

end Sys2Proof.Machine
end

