-- ==== Sys2Proof/Machine/Publish.lean ====
section
/-! DEFINITION. Output slots and carried-state headers: their writes, and the one context write that completes a chunk or a step
(06 R150, R155 to R157, R414, R415, 07 R174, 08 R186, R190). -/

namespace Sys2Proof.Machine

/-- Steps of a chunk: L (06 R148). -/
def State.chunkLen (s : State) (sid : Nat) : Nat := fld (s.reg (Reg.SC_CHUNK sid)) 6 0
/-- Look-ahead frames: F. -/
def State.chunkAhead (s : State) (sid : Nat) : Nat := fld (s.reg (Reg.SC_CHUNK sid)) 12 8

/-- The virtual address of the carried-state copy of a generation (07 R173). -/
def State.copyVa (s : State) (sid : Nat) (gen : Word) : Nat :=
  (s.reg64 (Reg.SC_STATE_PTR_LO sid) (Reg.SC_STATE_PTR_HI sid)).toNat +
    gen.toNat % 2 * (fld (s.reg (Reg.SC_STATE_LEN sid)) 23 0 * 32)

/-- Steps since the latest reset after a chunk (07 R173). -/
def stepsAfter (old len : Nat) (resets : List Nat) : Nat :=
  match resets with
  | [] => min (old + len) 0xFFFFFFFF
  | _ => len - resets.foldl max 0

/-- The generation field of a slot: what the carried state, or the position, is after the chunk or step (06 R150, R414, 08 R186,
R190). -/
def State.genField (s : State) (seq : Bool) (i : Nat) (f : InFlight) : Word :=
  let now := if seq then s.reg (Reg.SQ_POS i) else s.reg (Reg.SC_STATE_GEN i)
  if f.kind = .normal then now + 1 else now

/-- What the headers of a chunk or step say of it at the write: chaff, LATE, the publication time (06 R149, R150, R157). -/
def State.settleFlags (s : State) (b : Nat) (seq : Bool) (i : Nat) (f : InFlight) : InFlight :=
  let payload := (Config.graphOutput b f.graph).val
  let marked := f.kind = .normal &&
    (f.cut || s.runMarked b (s.outVa seq i (s.outHead seq i) + 64) payload)
  { f with
    chaff := f.kind = .dropped || f.silence || marked
    late := f.kind = .normal && s.ctxRealtime seq i && !s.ctxBe seq i && decide (f.deadline.toNat < s.lic.toNat)
    published := s.lic }

/-- The header writes of a chunk or step: its slot's, and, for a chunk that ran, the new carried-state copy's (07 R174 step 4). -/
def State.headerWrites (s : State) (b : Nat) (seq : Bool) (i : Nat) (f : InFlight) : List (Nat × Bytes) :=
  let flags := slotFlags f.chaff f.late (decide (f.kind = .dropped)) f.silence f.last (!f.resets.isEmpty && f.kind = .normal)
  let payload := if f.kind = .normal then (Config.graphOutput b f.graph).val else 0
  let gen := s.genField seq i f
  let slot := (s.outVa seq i (s.outHead seq i),
    slotHeader f.seq f.firstFrame f.valid flags payload f.ready f.published gen)
  if seq || f.kind ≠ .normal then [slot]
  else
    [(s.copyVa i gen, stateHeader gen i (f.scan.storeChaff || f.torn) f.scan.thawing (f.scan.bodyEnd / 64) (f.seq + 1)
        (stepsAfter (s.reg (Reg.SC_STEPS i)).toNat (s.chunkLen i) f.resets) s.lic), slot]

/-- Frames of a stream's ring, the head moved past what is contiguous. -/
def extendHead (frames : List Nat) : Nat → Word → Word
  | 0, h => h
  | n + 1, h => if frames.contains h.toNat then extendHead frames n (h + 1) else h

/-- Release a stream's frames before a sequence: the tail stands there, and the head no earlier (06 R148). -/
def State.releaseFrames (s : State) (sid : Nat) (tail : Word) : State :=
  let x := s.stream sid
  let frames := x.frames.filter fun q => !seqLt (w32 q) tail
  let head := s.reg (Reg.SC_IN_HEAD sid)
  let head1 := if seqLt head tail then tail else head
  ((s.setStream sid { x with frames := frames }).setReg (Reg.SC_IN_TAIL sid) tail).setReg (Reg.SC_IN_HEAD sid)
    (extendHead frames frames.length head1)

/-- No frame remains for a further chunk of a draining stream (06 R414). -/
def State.drainedOut (s : State) (sid : Nat) (x : Stream) : Bool :=
  match x.closed with
  | some c => !seqLt (s.chunkBase sid (s.reg (Reg.SC_CHUNK_SEQ sid))) c
  | none => false

/-- The service time of a chunk whose slot is published, one that ran or a dropped one (06 R155). -/
def State.chunkService (s : State) (b sid : Nat) (f : InFlight) : State :=
  let svc := min (microsOfPeriods (f.published - f.ready).toNat) 0xFFFFFF
  ((s.setReg (Reg.SC_SVC_LAST sid) (w32 svc)).keepMax (Reg.SC_SVC_MAX sid) 24 svc).keepMax (Reg.BAT_SVC_MAX b f.graph) 24 svc

/-- The counters that a completed chunk adds to its stream (06 R155, R157, 07 R179, R181). -/
def State.chunkCounts (s : State) (b sid : Nat) (f : InFlight) : State :=
  let s1 := s.chunkService b sid f
  let s2 := if f.late then (s1.count16 (Reg.SC_MISSES sid)).countWrap (Reg.BAT_MISSES b f.graph) 1 else s1
  let s3 := ((s2.count32 (Reg.SC_DRIFT_SAT sid) f.scan.sat).countSat (Reg.SC_DRIFT_OVER sid) 16 0 f.scan.overs).setReg
    (Reg.SC_DRIFT_LAST sid) (w32 (min f.scan.sat 0xFFFF))
  let s4 := if f.scan.sat > fld (s.reg (Reg.SC_SCAN_CTRL sid)) 15 0 then s3.count16 (Reg.SC_DRIFT_CHUNKS sid) else s3
  s4.countSat (Reg.SC_STATE_MISMATCH sid) 16 0 f.scan.mismatches

/-- The registers of the one context write (07 R174 step 5, 06 R148, R414). -/
def State.chunkRegs (s : State) (b sid : Nat) (f : InFlight) : State :=
  let s0 := s.setReg (Reg.SC_OUT_HEAD sid) (s.outHead false sid + 1)
  let tail := s.reg (Reg.SC_IN_TAIL sid) + w32 (s.chunkLen sid)
  match f.kind with
  | .normal =>
    let s1 := (s0.setReg (Reg.SC_STATE_GEN sid) (s.reg (Reg.SC_STATE_GEN sid) + 1)).countWrap (Reg.SC_CHUNKS sid) 1
    let s2 := s1.setReg (Reg.SC_STEPS sid) (w32 (stepsAfter (s.reg (Reg.SC_STEPS sid)).toNat (s.chunkLen sid) f.resets))
    (s2.chunkCounts b sid f).releaseFrames sid tail
  | .dropped => ((s0.countWrap (Reg.SC_CHUNKS sid) 1).chunkService b sid f).releaseFrames sid tail
  | .empty => s0

/-- The context after the one write: nothing in flight, the resets of a dropped chunk kept for the next one (06 R154). -/
def Stream.afterChunk (x : Stream) (f : InFlight) : Stream :=
  let y := { x with
    inflight := none, absentCounted := false
    readies := AMap.erase x.readies f.seq.toNat }
  match f.kind with
  | .normal => { y with stateChaff := f.scan.storeChaff || f.torn, thawing := f.scan.thawing }
  | .dropped => { y with resetNext := x.resetNext || f.resetNext || !f.named.isEmpty }
  | .empty => y

/-- The service time of a step whose slot is published (06 R155, R160). -/
def State.stepService (s : State) (b q : Nat) (f : InFlight) : State :=
  let svc := min (microsOfPeriods (f.published - f.ready).toNat) 0xFFFFFF
  (s.keepMax (Reg.SQ_SVC_MAX q) 24 svc).keepMax (Reg.BAT_SVC_MAX b f.graph) 24 svc

/-- The counters that a completed step adds to its sequence (08 R190). -/
def State.stepCounts (s : State) (b q : Nat) (f : InFlight) : State :=
  let s1 := s.stepService b q f
  if f.late then (s1.count16 (Reg.SQ_MISSES q)).countWrap (Reg.BAT_MISSES b f.graph) 1 else s1

/-- The registers of a step's context write (08 R190). -/
def State.stepRegs (s : State) (b q : Nat) (f : InFlight) : State :=
  let s0 := s.setReg (Reg.SQ_OUT_HEAD q) (s.outHead true q + 1)
  match f.kind with
  | .normal => ((s0.setReg (Reg.SQ_POS q) (s.reg (Reg.SQ_POS q) + 1)).countWrap (Reg.SQ_STEPS q) 1).stepCounts b q f
  | .dropped => (s0.countWrap (Reg.SQ_STEPS q) 1).stepService b q f
  | .empty => s0

/-- A published slot of a SINK 0 context is sent (10 R256). -/
def State.sinkSlot (s : State) (seq : Bool) (i : Nat) (k : Word) : State :=
  if s.ctxSink seq i = 0 then (s.setUnsent seq i (s.unsent seq i ++ [k])).sendSlots seq i else s

/-- A context has published the slot with LAST: it is IDLE and DRAINED is raised (06 R144, 08 R186). -/
def State.drainEnd (s : State) (seq : Bool) (i : Nat) : State :=
  let s1 := s.goIdle seq i
  if seq then s1.setSeq i { s1.seqCtx i with drained := true } else s1.setStream i { s1.stream i with drained := true }

/-- The context write of a slot whose headers have been written: for a chunk or step that ran, a dropped one, or the empty one; and its
trace (15 R355). -/
def State.contextWrite (s : State) (b : Nat) (seq : Bool) (i : Nat) (f : InFlight) : State :=
  let k := s.outHead seq i
  let s1 := if seq then s.stepRegs b i f else s.chunkRegs b i f
  let s2 : State :=
    if seq then
      s1.setSeq i { s1.seqCtx i with inflight := none }
    else s1.setStream i ((s1.stream i).afterChunk f)
  let svc := min (microsOfPeriods (f.published - f.ready).toNat) 0xFFFFFF
  let s3 := if f.kind = .empty then s2
    else s2.trace b (if seq then 0x0106 else 0x0105) telNone (w32 i) (f.seq.toNat + svc * 2 ^ 32)
  (s3.finishRow b seq i).sinkSlot seq i k

/-- Write the headers that are due, and whether they were (07 R174 step 4, 06 R415). A resumable fault holds them; a protection fault
pauses the context, and the chunk or step comes back to it. -/
def State.writeHeaders (s : State) (b : Nat) (seq : Bool) (i : Nat) (f0 : InFlight) : State × Bool :=
  let f := s.settleFlags b seq i f0
  match s.batcherWrites b (s.headerWrites b seq i f) with
  | (s1, none) => (s1.setInflight seq i (some { f with stage := .written }), true)
  | (s1, some flt) =>
    let holder := if seq then FaultHolder.seq i else .stream i
    let s2 := (s1.raiseFault b flt.va true batcherEngine flt.cause flt.level flt.entry holder).1
    if s1.faultWaits flt.cause then (s2, false)
    else
      let s3 : State :=
        if seq then (s2.setSeq i { s2.seqCtx i with pageFault := true }).returnSeq i true
        else (s2.setStream i { s2.stream i with stateFault := true }).returnStream i true
      (s3.finishRow b seq i, false)

/-- The pending command of a context. -/
def State.ctxPending (s : State) (seq : Bool) (i : Nat) : Option PendingCmd :=
  if seq then (s.seqCtx i).pending else (s.stream i).pending

def State.clearPending (s : State) (seq : Bool) (i : Nat) : State :=
  if seq then s.setSeq i { s.seqCtx i with pending := none } else s.setStream i { s.stream i with pending := none }

/-- End a slot whose headers are written: the one context write, and IDLE after LAST or a pending ABORT (06 R144, 08 R186). -/
def State.endSlot (s : State) (b : Nat) (seq : Bool) (i : Nat) (f : InFlight) : State :=
  let pend := s.ctxPending seq i
  let s1 := s.contextWrite b seq i f
  if pend = some .abort then s1.goIdle seq i
  else if f.last then s1.drainEnd seq i
  else s1.clearPending seq i

/-- Publish the empty slot with LAST, once the ring has room (06 R414, 08 R186). -/
def State.publishEmpty (s : State) (b : Nat) (seq : Bool) (i : Nat) : State :=
  if !s.outRoom seq i then s.setOutFull seq i true
  else
    let f : InFlight :=
      { kind := .empty, seq := if seq then s.reg (Reg.SQ_STEPS i) else s.reg (Reg.SC_CHUNK_SEQ i)
        firstFrame := if seq then s.reg (Reg.SQ_POS i) else ((s.stream i).closed).getD (s.reg (Reg.SC_IN_HEAD i))
        valid := 0, silence := false, last := true, resets := [], named := [], resetNext := false, ready := s.lic
        deadline := 0xFFFFFFFFFFFFFFFF#64, graph := s.ctxGraph seq i, stage := .due, late := false, chaff := false
        published := 0, cut := false, torn := false, scan := .zero }
    match ((s.setOutFull seq i false).setInflight seq i (some f)).writeHeaders b seq i f with
    | (s1, true) =>
      match s1.ctxInflight seq i with
      | some f1 => s1.endSlot b seq i f1
      | none => s1
    | (s1, false) => s1

/-- A draining context owes the empty slot: nothing is in flight, and nothing remains to be posted (06 R414, 08 R186). -/
def State.owesEmpty (s : State) (seq : Bool) (i : Nat) : Bool :=
  s.ctxState seq i = .draining && (s.ctxInflight seq i).isNone && (if seq then (s.seqCtx i).readyAt.isNone else s.drainedOut i (s.stream i))

/-- Complete a slot whose headers are written (07 R174 step 5, 08 R190), and publish the empty slot where it is owed. -/
def State.completeSlot (s : State) (seq : Bool) (i : Nat) : State :=
  match s.ctxBay seq i, s.ctxInflight seq i with
  | some b, some f =>
    if f.stage ≠ .written then s
    else
      let s1 := s.endSlot b seq i f
      if s1.owesEmpty seq i then s1.publishEmpty b seq i else s1
  | _, _ => s

/-- Write the headers that are due; a dropped chunk's slot and the empty slot complete with the write. -/
def State.tryHeaders (s : State) (seq : Bool) (i : Nat) : State :=
  match s.ctxBay seq i, s.ctxInflight seq i with
  | some b, some f =>
    if f.stage ≠ .due then s
    else
      match s.writeHeaders b seq i f with
      | (s1, true) => if f.kind = .normal then s1 else s1.completeSlot seq i
      | (s1, false) => s1
  | _, _ => s

end Sys2Proof.Machine
end

