-- ==== Sys2Proof/Machine/Streams.lean ====
section
/-! DEFINITION. Stream contexts and the batcher (06): commands, input frames and readiness, residency, posting, aligned sets, closing,
the end of a chain, completion. -/

namespace Sys2Proof.Machine

/-! ### Readiness (R147 to R149) -/

/-- The chunk after `k` others. -/
def chunkAfter (n : Word) (k : Nat) : Word := n + w32 k

/-- A chunk's frames and look-ahead are all present (R148). -/
def State.chunkReady (s : State) (sid : Nat) (n : Word) : Bool :=
  let base := s.chunkBase sid n
  let frames := (s.stream sid).frames
  (List.range (s.chunkLen sid + s.chunkAhead sid)).all fun k => frames.contains (base + w32 k).toNat

/-- The deadline of a chunk of a stream that becomes ready at a time, by the fields in force (R156). -/
def State.deadlineFrom (s : State) (sid : Nat) (ready : W64) : W64 :=
  s.deadlineOf ((s.bayOfSid sid).getD 0) (s.ctxGraph false sid) (s.stream sid).be (fld (s.reg (Reg.SC_DEADLINE sid)) 23 0) ready

/-- Record a chunk's readiness: the staged deadline applies, and the chunk keeps its deadline (R148, R156, 12 R293). -/
def State.noteReady (s : State) (sid : Nat) (n : Word) : State :=
  if (AMap.get? (s.stream sid).readies n.toNat).isSome then s
  else
    let s1 := s.applyStaged (Reg.SC_DEADLINE sid)
    let x := s1.stream sid
    let s2 := s1.setStream sid { x with readies := AMap.set x.readies n.toNat (s1.lic, s1.deadlineFrom sid s1.lic) }
    (s2.setReg (Reg.SC_READY_LO sid) (lo32 s2.lic)).setReg (Reg.SC_READY_HI sid) (hi32 s2.lic)

/-- The chunks, counted from the next one, of which a frame is present (R148). -/
def State.chunksHeld (s : State) (sid : Nat) : List Nat :=
  let base := s.chunkBase sid (s.reg (Reg.SC_CHUNK_SEQ sid))
  (((s.stream sid).frames.filter fun q => !seqLt (w32 q) base).map fun q => (w32 q - base).toNat / max 1 (s.chunkLen sid)).eraseDups

/-- Record the readiness of every chunk that is ready and not recorded; not while the stream is PAUSED (R144, R148). With AUTOSTART an
ARMED stream whose first chunk is ready runs. -/
def State.noteAll (s : State) (sid : Nat) : State :=
  let x := s.stream sid
  if x.state = .paused || x.state = .idle then s
  else
    let n := s.reg (Reg.SC_CHUNK_SEQ sid)
    let s1 := (s.chunksHeld sid).foldl (fun s k =>
      if s.chunkReady sid (chunkAfter n k) then s.noteReady sid (chunkAfter n k) else s) s
    let y := s1.stream sid
    if y.state = .armed && bit (s1.reg (Reg.SC_CTRL sid)) 12 && (AMap.get? y.readies 0).isSome then
      s1.setStream sid { y with state := .running }
    else s1

/-! ### Residency of the carried state (R158) -/

/-- What the batcher finds in the carried-state range. -/
inductive Residency where
  | ok
  | fault
  /-- Pages to migrate back, and whether only RECHECK ends the wait. -/
  | wait (migrate : List Nat) (hard : Bool)
  deriving DecidableEq, Repr

/-- The finding of one leaf: 0 in place, 1 in the Granary, 2 COPYING, 3 not present, 4 a protection fault or a remote leaf. -/
def State.leafFinding (s : State) (b va : Nat) : State × Nat :=
  match s.translate b va false batcherProbe with
  | (s1, .error (cause, _, _)) => (s1, if cause = .notPresent then 3 else 4)
  | (s1, .ok t) =>
    (s1, if t.remote then 4 else if pteState t.entry = copying then 2 else if pteTier t.entry = 2 then 1 else 0)

/-- Probe the leaves of a virtual range. -/
def State.probeRange (s : State) (b va len : Nat) : State × List (Nat × Nat) :=
  (pageRuns va len).foldl (fun (a : State × List (Nat × Nat)) r =>
    let (s1, k) := a.1.leafFinding b r.1
    (s1, a.2 ++ [(r.1, k)])) (s, [])

/-- The carried-state range of a stream (07 R173). -/
def State.stateRange (s : State) (sid : Nat) : Nat × Nat :=
  ((s.reg64 (Reg.SC_STATE_PTR_LO sid) (Reg.SC_STATE_PTR_HI sid)).toNat, fld (s.reg (Reg.SC_STATE_LEN sid)) 23 0 * 64)

def State.residency (s : State) (b sid : Nat) : State × Residency :=
  let r := s.stateRange sid
  let (s1, l) := s.probeRange b r.1 r.2
  let has := fun (k : Nat) => l.any fun e => e.2 = k
  (s1,
    if has 4 then .fault
    else if has 1 || has 2 || has 3 then
      .wait ((l.filter fun e => e.2 = 1).map (·.1)) (!(has 1 || has 2))
    else .ok)

/-- Ask for the migration of pages to the Silo, LC for an LC stream. -/
def State.bringBack (s : State) (b : Nat) (lc : Bool) (pages : List Nat) : State :=
  pages.foldl (fun s va => s.issueMig b va 1 lc .batcher) s

/-- The check at a chunk's first frame with PREFETCH: it only asks for the migration of each page in the Granary (R158). -/
def State.prefetch (s : State) (b sid : Nat) : State :=
  let r := s.stateRange sid
  let (s1, l) := s.probeRange b r.1 r.2
  s1.bringBack b (!(s1.stream sid).be) ((l.filter fun e => e.2 = 1).map (·.1))

/-- A wait for the carried state ends: its length enters `SC_ABSENT_MAX` (R158). -/
def State.absentEnds (s : State) (sid : Nat) : State :=
  let x := s.stream sid
  if x.absent then
    (s.setStream sid { x with absent := false, needRecheck := false }).keepMax (Reg.SC_ABSENT_MAX sid) 24
      (microsOfPeriods (s.since x.absentSince))
  else s

/-- A wait for the carried state: counted once for the chunk (R158). -/
def State.absentWaits (s : State) (b sid : Nat) (pages : List Nat) (hard : Bool) : State :=
  let s1 := s.bringBack b (!(s.stream sid).be) pages
  let x := s1.stream sid
  let y := { x with
    absent := true, absentSince := if x.absent then x.absentSince else s1.lic, absentCounted := true, needRecheck := hard }
  let s2 := s1.setStream sid y
  if x.absentCounted then s2 else s2.count16 (Reg.SC_ABSENT_WAITS sid)

/-! ### Posting (R148 to R152, R154, R157, R159) -/

/-- The reset steps of a chunk: a named frame in it at its step, one behind it at step 0, and a posted reset at step 0 (R154). Answers the
steps, the named frames taken, and the stream without them. -/
def State.takeResets (s : State) (sid : Nat) (n : Word) : List Nat × List Word × Bool × Stream :=
  let x := s.stream sid
  let base := s.chunkBase sid n
  let len := s.chunkLen sid
  let mine := x.resetFrames.filter fun f => (f - base).toNat < len || seqLt f base
  let steps := mine.map fun f => if (f - base).toNat < len then (f - base).toNat else 0
  let all := if x.resetNext then 0 :: steps else steps
  (all.foldl setInsert [], mine, x.resetNext,
    { x with resetFrames := x.resetFrames.filter fun f => !mine.contains f, resetNext := false })

/-- Put a stream's next chunk in flight (R148, R149): its frames, flags and resets; the next chunk's sequence follows. -/
def State.launch (s : State) (sid : Nat) (kind : SlotKind) (silence : Bool) (deadline : W64) : State :=
  let n := s.reg (Reg.SC_CHUNK_SEQ sid)
  let (resets, named, next, x) := s.takeResets sid n
  let base := s.chunkBase sid n
  let len := s.chunkLen sid
  let left := match x.closed with | some c => (c - base).toNat | none => len
  let f : InFlight :=
    { kind := kind, seq := n, firstFrame := base, valid := min len left, silence := silence || x.silenced
      last := x.state = .draining && decide (left ≤ len), resets := resets, named := named, resetNext := next
      ready := (AMap.getD x.readies n.toNat (s.lic, 0)).1, deadline := deadline, graph := s.ctxGraph false sid
      stage := if kind = .normal then .running else .due, late := false, chaff := false, published := 0, cut := false
      torn := false, scan := .zero }
  let y := { x with
    inflight := some f, outFull := false, alignWait := false, silenced := false, returned := false
    dropTo := if x.dropTo = some (n + 1) then none else x.dropTo }
  ((s.setStream sid y).setReg (Reg.SC_CHUNK_SEQ sid) (n + 1)).absentEnds sid

/-- A stream's row of the chunk in flight. -/
def State.rowOf (s : State) (sid : Nat) : Row :=
  match (s.stream sid).inflight with
  | some f => ⟨false, sid, f.deadline, f.resets, false, false, .zero⟩
  | none => ⟨false, sid, 0, [], false, false, .zero⟩

/-- The deadline of a stream's next chunk: what its readiness gave it (R156). -/
def State.chunkDeadline (s : State) (sid : Nat) : W64 :=
  match AMap.get? (s.stream sid).readies (s.reg (Reg.SC_CHUNK_SEQ sid)).toNat with
  | some r => r.2
  | none => s.deadlineFrom sid s.lic

/-- Drop-late governs a stream, and the deadline of its next chunk has passed (R157). -/
def State.pastDeadline (s : State) (b sid : Nat) : Bool :=
  s.dropLate b (s.reg (Reg.SC_CTRL sid)).toNat && decide ((s.chunkDeadline sid).toNat < s.lic.toNat)

/-- Publish the next chunk as DROPPED, once the ring has room (R157, R159); `late` counts it in `SC_DROPPED`. -/
def State.dropChunk (s : State) (sid : Nat) (late : Bool) : State :=
  if !s.outRoom false sid then s.setOutFull false sid true
  else
    let s1 := (s.noteReady sid (s.reg (Reg.SC_CHUNK_SEQ sid)))
    let s2 := if late then s1.count16 (Reg.SC_DROPPED sid) else s1
    (s2.launch sid .dropped false (s2.chunkDeadline sid)).tryHeaders false sid

/-- Start a member at a chunk sequence: earlier frames are released (R159). -/
def State.jumpTo (s : State) (sid : Nat) (n : Word) : State :=
  let old := s.reg (Reg.SC_CHUNK_SEQ sid)
  if !seqLt old n then s
  else
    let x := s.stream sid
    let s1 := (s.setStream sid { x with readies := x.readies.filter (fun e => !seqLt (w32 e.1) n), silenced := false }).setReg
      (Reg.SC_CHUNK_SEQ sid) n
    (s1.releaseFrames sid (s1.chunkBase sid n)).noteAll sid

/-- Running members of a set (R159). -/
def State.runningMembers (s : State) (b k : Nat) : List Nat :=
  (s.members b k).filter fun i => (s.stream i).state = .running

/-- `BAT_ALIGN_CFG.SLACK` in force, in REFCLK periods. -/
def State.slack (s : State) (b k : Nat) : Nat := periodsOfMicros (fld (s.reg (Reg.BAT_ALIGN_CFG b k)) 23 0)

/-- A bay's rows are not posted: it is in lull, or is to be (02 R43, 06 R161). -/
def State.noPosts (s : State) (b : Nat) : Bool := (s.bay b).lullWanted || (s.bay b).lulled

/-- A member's chunks up to that of a sequence are published as DROPPED, counted for the set (R159). -/
def State.dropMember (s : State) (b k sid : Nat) (n : Word) : State :=
  (s.setStream sid { s.stream sid with dropTo := some (n + 1) }).count16 (Reg.BAT_ALIGN_SILENCE b k)

/-- A member that has not offered chunk n at the expiry (R159): it is posted, with silence where the chunk is not ready, if its state is in place and its
ring has room, and else chunk n is dropped. One whose chunk n - 1 is still in flight cannot be posted: its chunk n is published as DROPPED after it (DESIGN
CHOICE, log 96). One whose returned chunk goes first, or is in flight, joins at the set's next sequence. Answers whether it is posted now. -/
def State.lateMember (s : State) (b k sid : Nat) (n : Word) : State × Bool :=
  let x := s.stream sid
  if x.dropTo.isSome then (s.dropMember b k sid n, false)
  else if x.returned then (s, false)
  else if x.inflight.isSome then (if s.reg (Reg.SC_CHUNK_SEQ sid) = n then s.dropMember b k sid n else s, false)
  else
    let s0 := s.jumpTo sid n
    if (s0.stream sid).absent || !s0.outRoom false sid then (s0.dropMember b k sid n, false)
    else
      match s0.residency b sid with
      | (s1, .ok) => ((if s1.chunkReady sid n then s1 else s1.count16 (Reg.BAT_ALIGN_SILENCE b k)).noteReady sid n, true)
      | (s1, _) => (s1.dropMember b k sid n, false)

/-- Post a set's group (R159): the offered members, and at the expiry the late ones; every row takes the deadline of the member that
became ready first; a member under drop-late whose own deadline has passed is dropped (R157). The set goes on to the next sequence with its staged
slack. -/
def State.postGroup (s : State) (b k : Nat) (expired : Bool) : State :=
  let a := s.alignSet b k
  let n := s.reg (Reg.BAT_ALIGN_NEXT b k)
  let late := if expired then (s.runningMembers b k).filter fun i => !a.offered.contains i else []
  let (s1, joined) := late.foldl (fun (acc : State × List Nat) i =>
    match acc.1.lateMember b k i n with
    | (t, true) => (t, acc.2 ++ [i])
    | (t, false) => (t, acc.2)) (s, [])
  let readyOf := fun (i : Nat) => (AMap.getD (s1.stream i).readies n.toNat (s1.lic, 0)).1.toNat
  let first := (a.offered ++ joined).foldl (fun (best : Option Nat) i => match best with
    | none => some i
    | some j => if readyOf i < readyOf j then some i else some j) none
  let deadline := match first with | some i => s1.chunkDeadline i | none => 0xFFFFFFFFFFFFFFFF#64
  let passed := a.offered.filter fun i => s1.pastDeadline b i
  let all := (a.offered.filter fun i => !passed.contains i) ++ joined
  let s2 := all.foldl (fun s i => s.launch i .normal (!s.chunkReady i n) deadline) s1
  let s3 := ((s2.setAlign b k { a with timing := none, offered := [], expired := false }).setReg (Reg.BAT_ALIGN_NEXT b k) (n + 1)).applyStaged
    (Reg.BAT_ALIGN_CFG b k)
  let s4 := match all with
    | i :: _ => s3.joinBatch b (s3.ctxGraph false i) false (all.map s3.rowOf)
    | [] => s3
  let s5 := passed.foldl (fun s i => (s.setStream i { s.stream i with alignWait := false }).dropChunk i true) s4
  (late.filter fun i => !joined.contains i && (s5.stream i).dropTo.isSome && (s5.stream i).inflight.isNone).foldl (fun s i => s.dropChunk i false) s5

/-- Post a set's group where it is due (R159): every running member has offered, or the timer has expired; not in lull. -/
def State.postDue (s : State) (b k : Nat) : State :=
  let a := s.alignSet b k
  if !a.running || a.offered.isEmpty || s.noPosts b then s
  else if a.expired then s.postGroup b k true
  else if (s.runningMembers b k).all fun i => a.offered.contains i then s.postGroup b k false
  else s

/-- A member offers its chunk: the first offer starts the slack timer, the last one posts the group (R159). -/
def State.offer (s : State) (b k sid : Nat) : State :=
  let a := s.alignSet b k
  let a1 := { a with
    offered := if a.offered.contains sid then a.offered else a.offered ++ [sid]
    timing := match a.timing with | some t => some t | none => some s.lic
    slack := match a.timing with | some _ => a.slack | none => s.slack b k }
  ((s.setAlign b k a1).setStream sid { s.stream sid with alignWait := true, outFull := false }).postDue b k

/-- A member leaves its set's sequence: PAUSED, DRAINING or IDLE, it is not waited for (R159). -/
def State.leaveSet (s : State) (b sid : Nat) : State :=
  match s.setOf sid with
  | none => s
  | some k =>
    let a := s.alignSet b k
    let left := a.offered.filter (· ≠ sid)
    let s1 := (s.setAlign b k { a with
        offered := left, timing := if left.isEmpty then none else a.timing, expired := a.expired && !left.isEmpty }).setStream sid
      { s.stream sid with alignWait := false }
    s1.postDue b k

/-- The carried state gave a protection fault or lies with a peer: the stream is PAUSED, and its set does not wait for it (R158). -/
def State.stateFaults (s : State) (b sid : Nat) : State :=
  let s1 := s.absentEnds sid
  (s1.setStream sid { s1.stream sid with stateFault := true, state := .paused }).leaveSet b sid

/-- Check the carried state again (R144, R158): a wait ends, goes on, or ends in STATE_FAULT; where no chunk waits, only migrations are asked for. -/
def State.recheck (s : State) (b sid : Nat) : State :=
  if !(s.stream sid).absent then s.prefetch b sid
  else
    match s.residency b sid with
    | (s1, .ok) => s1.absentEnds sid
    | (s1, .wait pages hard) => s1.absentWaits b sid pages hard
    | (s1, .fault) => s1.stateFaults b sid

/-- The chunk is in order to be posted: residency, room and the late policy (R152, R157, R158); then it is offered to its set, or joins the
open batch. A chunk that a gap completes with silence is counted once (R149). -/
def State.postReady (s : State) (b sid : Nat) (silence gap : Bool) (set : Option Nat) : State :=
  let s1 := s.noteReady sid (s.reg (Reg.SC_CHUNK_SEQ sid))
  let late := s1.pastDeadline b sid
  match s1.residency b sid with
  | (s2, .fault) => s2.stateFaults b sid
  | (s2, .wait pages hard) =>
    let s3 := s2.absentWaits b sid pages hard
    if late then s3.dropChunk sid true else s3
  | (s2, .ok) =>
    let s3 := s2.absentEnds sid
    if !s3.outRoom false sid then s3.setOutFull false sid true
    else if late then s3.dropChunk sid true
    else
      let s4 := if gap && !(s3.stream sid).silenced then
          (s3.setStream sid { s3.stream sid with silenced := true }).count16 (Reg.SC_GAPS sid)
        else s3
      match set with
      | some k => s4.offer b k sid
      | none =>
        let s5 := s4.launch sid .normal silence (s4.chunkDeadline sid)
        s5.joinBatch b (s5.ctxGraph false sid) false [s5.rowOf sid]

/-- A stream's next chunk stands: ready, completed with silence as the chunk after the next is ready, or, draining, padded (R149, R152). -/
def State.chunkLook (s : State) (b sid : Nat) (set : Option Nat) : State :=
  let x := s.stream sid
  let n := s.reg (Reg.SC_CHUNK_SEQ sid)
  let ready := s.chunkReady sid n
  let gap := x.state = .running && !ready && s.chunkReady sid (n + 2)
  if !(ready || gap || x.silenced || x.state = .draining) then s
  else if x.absent then (if s.pastDeadline b sid then s.dropChunk sid true else s)
  else s.postReady b sid (!ready) gap set

/-- The batcher looks at a stream (R152): nothing is posted in lull (02 R43), while a chunk is in flight, a command is pending, or the chunk
waits. A returned chunk of a set's member is posted again on its own, as its set has gone on (R162, R415; log 96). -/
def State.tryPost (s : State) (sid : Nat) : State :=
  match s.bayOfSid sid with
  | none => s
  | some b =>
    let x := s.stream sid
    if !(x.state = .running || x.state = .draining) || x.inflight.isSome || x.pending = some .pause || x.pending = some .abort
      then s
    else if s.owesEmpty false sid then s.publishEmpty b false sid
    else if s.noPosts b then s
    else if x.dropTo.isSome then s.dropChunk sid false
    else
      match (if x.state = .running && !x.returned then s.setOf sid else none) with
      | some k =>
        let a := s.alignSet b k
        if !a.running then s.setStream sid { x with alignWait := true }
        else if a.offered.contains sid then s.postDue b k
        else
          let s1 := s.jumpTo sid (s.reg (Reg.BAT_ALIGN_NEXT b k))
          if s1.reg (Reg.SC_CHUNK_SEQ sid) ≠ s1.reg (Reg.BAT_ALIGN_NEXT b k) then s1 else s1.chunkLook b sid (some k)
      | none => s.chunkLook b sid none

/-- CHUNK_POST (R152). -/
def execChunkPost (sid : Fin 16384) (s : State) : Host.Outcome State Fault Refusal := s.done (s.tryPost sid.val)

/-! ### Stream commands (R144 to R146, R154, R414) -/

/-- A command of a stream is refused with a reason. -/
def State.scRefuse (s : State) (sid reason : Nat) : State :=
  s.setStream sid { s.stream sid with refused := true, reason := reason }

/-- A command of a stream: refused while one is pending (8), or in a state that R144 does not list (1); else it is accepted (R146). -/
def State.scCommand (s : State) (sid : Nat) (allowed : List CtxState) (body : State → State) : State :=
  let x := s.stream sid
  if x.pending.isSome then s.scRefuse sid 8
  else if !allowed.contains x.state then s.scRefuse sid 1
  else body (s.setStream sid { x with refused := false, reason := 0 })

/-- The fields of a stream context that apply at ARM (R143). -/
def armRegs (sid : Nat) : List Nat :=
  [Reg.SC_CTRL sid, Reg.SC_FRAME sid, Reg.SC_CHUNK sid, Reg.SC_STATE_PTR_LO sid, Reg.SC_STATE_PTR_HI sid, Reg.SC_STATE_LEN sid,
   Reg.SC_STATE_GEN sid, Reg.SC_IN_BASE_LO sid, Reg.SC_IN_BASE_HI sid, Reg.SC_IN_CAP sid, Reg.SC_START_FRAME sid,
   Reg.SC_OUT_BASE_LO sid, Reg.SC_OUT_BASE_HI sid, Reg.SC_OUT_CFG sid, Reg.SC_PEER sid, Reg.SC_SET sid, Reg.SC_SCAN_CTRL sid]

/-- The staged fields of a stream are in range (R143, R145 reason 2, 07 R173). -/
def State.armRanges (s : State) (sid : Nat) : Bool :=
  let ctrl := s.latest (Reg.SC_CTRL sid)
  let frame := s.latest (Reg.SC_FRAME sid)
  let chunk := s.latest (Reg.SC_CHUNK sid)
  let len := fld (s.latest (Reg.SC_STATE_LEN sid)) 23 0
  let out := s.latest (Reg.SC_OUT_CFG sid)
  decide (1 ≤ fld frame 15 0 ∧ fld frame 15 0 ≤ 16384 ∧ 1 ≤ fld frame 31 16 ∧ 1 ≤ fld chunk 6 0 ∧ fld chunk 6 0 ≤ 64 ∧
    fld chunk 12 8 ≤ 16 ∧ 1 ≤ len ∧ len ≤ 262144 ∧ len % 2 = 0 ∧ 2 ≤ fld out 11 0 ∧ fld out 11 0 ≤ 4095 ∧
    2 ≤ fld out 27 12 ∧ fld ctrl 10 9 ≠ 3 ∧ fld ctrl 17 16 ≠ 3)

/-- A graph is within the bay's count and has an entry template (R145 reason 9, R151). -/
def State.graphOk (s : State) (b g : Nat) : Bool :=
  decide (g < ((s.bayDef b).map (·.graphs)).getD 0) && (entryTemplate (s.templates b) g).isSome

/-- The shape that the staged fields give (R151). -/
def State.stagedShape (s : State) (sid : Nat) : Shape :=
  ⟨fld (s.latest (Reg.SC_FRAME sid)) 15 0, fld (s.latest (Reg.SC_CHUNK sid)) 6 0, fld (s.latest (Reg.SC_CHUNK sid)) 12 8⟩

/-- Why ARM is refused, in the order of R145 (log 19). -/
def State.armReason (s : State) (b sid : Nat) : Option Nat :=
  let ctrl := (s.latest (Reg.SC_CTRL sid)).toNat
  let g := ctrl % 256
  let shape := s.stagedShape sid
  let slot := fld (s.latest (Reg.SC_OUT_CFG sid)) 27 12 * 64
  if !s.armRanges sid then some 2
  else if !s.graphOk b g then some 9
  else if fld (s.latest (Reg.SC_IN_CAP sid)) 15 0 < 3 * shape.l + shape.f || slot < 64 + (Config.graphOutput b g).val then some 4
  else if s.dropLate b ctrl && !((s.bayDef b).map (·.dropLate)).getD false then some 5
  else if s.batArea b = 0 then some 7
  else if (match AMap.get? (s.batcher b).shapes g with | some x => decide (x ≠ shape) | none => false) then some 3
  else none

/-- The stated delay bound in µs (R155): all ones for BE. -/
def State.delayBound (s : State) (b sid : Nat) : Word :=
  if (s.stream sid).be then 0xFFFFFFFF#32
  else w32 ((s.chunkLen sid + s.chunkAhead sid) * (fld (s.reg (Reg.SC_FRAME sid)) 31 16 * 10) +
    ((s.bayDef b).map (·.lcBound)).getD 0)

/-- An accepted ARM (R144, R151, R154, R155). -/
def State.armStream (s : State) (b sid : Nat) : State :=
  let s1 := s.applyAll (armRegs sid)
  let g := s1.ctxGraph false sid
  let x := s1.stream sid
  let keep := bit (s1.reg (Reg.SC_CTRL sid)) 14
  let y := { x.toIdle with
    state := .armed, be := (s1.classOf b g).be, stateFault := false, drained := false, refused := false, reason := 0, resetNext := !keep }
  let z := s1.batcher b
  let shape : Shape := ⟨fld (s1.reg (Reg.SC_FRAME sid)) 15 0, s1.chunkLen sid, s1.chunkAhead sid⟩
  let start := s1.reg (Reg.SC_START_FRAME sid)
  let s2 := (s1.setStream sid y).setBatcher b { z with shapes := AMap.set z.shapes g shape }
  let s3 := ((s2.setReg (Reg.SC_IN_HEAD sid) start).setReg (Reg.SC_IN_TAIL sid) start).setReg (Reg.SC_CHUNK_SEQ sid) 0
  s3.setReg (Reg.SC_DELAY_BOUND sid) (s3.delayBound b sid)

/-- The command SC_ARM (R145). -/
def State.scArmOp (s : State) (sid : Nat) : State :=
  s.scCommand sid [.idle] fun s =>
    match s.bayOfSid sid with
    | none => s.scRefuse sid 6
    | some b =>
      match s.armReason b sid with
      | some r => s.scRefuse sid r
      | none => s.armStream b sid

/-- SC_ARM (R145). -/
def execScArm (src : Source) (sid : Fin 16384) (s : State) : Host.Outcome State Fault Refusal :=
  s.done (s.plainWrite src (Reg.SC_CMD sid.val) fun s => s.scArmOp sid.val)

/-- The command SC_START (R144). -/
def State.scStartOp (s : State) (sid : Nat) : State :=
  s.scCommand sid [.armed] fun s => s.setStream sid { s.stream sid with state := .running }

/-- SC_START (R144). -/
def execScStart (src : Source) (sid : Fin 16384) (s : State) : Host.Outcome State Fault Refusal :=
  s.done (s.plainWrite src (Reg.SC_CMD sid.val) fun s => s.scStartOp sid.val)

/-- PAUSE: no further posts; the chunk in flight completes (R144, R146). -/
def State.pauseStream (s : State) (sid : Nat) : State :=
  let x := s.stream sid
  let s1 := s.setStream sid { x with state := .paused, pending := if x.inflight.isSome then some .pause else none }
  match s.bayOfSid sid with
  | some b => s1.leaveSet b sid
  | none => s1

/-- The command SC_PAUSE (R144). -/
def State.scPauseOp (s : State) (sid : Nat) : State :=
  s.scCommand sid [.armed, .running] fun s => s.pauseStream sid

/-- SC_PAUSE (R144). -/
def execScPause (src : Source) (sid : Fin 16384) (s : State) : Host.Outcome State Fault Refusal :=
  s.done (s.plainWrite src (Reg.SC_CMD sid.val) fun s => s.scPauseOp sid.val)

/-- RESUME: posting resumes; a chunk that became ready during the pause, or that came back, takes this time as its readiness (R144, R162).
A stream whose input is closed drains on (log 20). -/
def State.resumeStream (s : State) (sid : Nat) : State :=
  let x := s.stream sid
  (s.setStream sid { x with state := if x.closed.isSome then .draining else .running }).noteAll sid

/-- The command SC_RESUME (R144). -/
def State.scResumeOp (s : State) (sid : Nat) : State :=
  s.scCommand sid [.paused] fun s => s.resumeStream sid

/-- SC_RESUME (R144). -/
def execScResume (src : Source) (sid : Fin 16384) (s : State) : Host.Outcome State Fault Refusal :=
  s.done (s.plainWrite src (Reg.SC_CMD sid.val) fun s => s.scResumeOp sid.val)

/-- DRAIN: input is closed at `SC_IN_HEAD` (R144); a chunk in flight that leaves no frame carries LAST where its header is unwritten; where
nothing is in flight and nothing remains the empty slot is published. A DRAIN that waits on the chunk in flight holds PENDING (R146, R414). -/
def State.drainStream (s : State) (b sid : Nat) : State :=
  let x := s.stream sid
  let head := s.reg (Reg.SC_IN_HEAD sid)
  let s1 := s.setStream sid { x with
    state := .draining, closed := some head, frames := x.frames.filter fun q => seqLt (w32 q) head }
  let s2 := s1.leaveSet b sid
  let y := s2.stream sid
  match y.inflight with
  | some f =>
    if s2.drainedOut sid y then
      s2.setStream sid { y with
        inflight := some (if f.stage ≠ .written then { f with last := true } else f), pending := some .drain }
    else s2
  | none => if s2.owesEmpty false sid then s2.publishEmpty b false sid else s2

/-- The command SC_DRAIN (R414). -/
def State.scDrainOp (s : State) (sid : Nat) : State :=
  s.scCommand sid [.armed, .running, .paused] fun s =>
    match s.bayOfSid sid with
    | some b => s.drainStream b sid
    | none => s

/-- SC_DRAIN (R414). -/
def execScDrain (src : Source) (sid : Fin 16384) (s : State) : Host.Outcome State Fault Refusal :=
  s.done (s.plainWrite src (Reg.SC_CMD sid.val) fun s => s.scDrainOp sid.val)

/-- ABORT: a row that no sheaf carries yet is withdrawn; a chunk in an instantiated sheaf completes first (R144, R146). -/
def State.abortStream (s : State) (b sid : Nat) : State :=
  let s0 := (s.setStream sid { s.stream sid with stateFault := false }).leaveSet b sid
  let x := s0.stream sid
  match x.inflight with
  | none => (s0.absentEnds sid).goIdle false sid
  | some f =>
    match s0.withdrawRow b false sid with
    | some s1 => s1.goIdle false sid
    | none =>
      if f.kind ≠ .normal then s0.goIdle false sid else s0.setStream sid { x with pending := some .abort }

/-- The command SC_ABORT (R144). -/
def State.scAbortOp (s : State) (sid : Nat) : State :=
  s.scCommand sid [.armed, .running, .paused, .draining] fun s =>
    match s.bayOfSid sid with
    | some b => s.abortStream b sid
    | none => s.goIdle false sid

/-- SC_ABORT (R144). -/
def execScAbort (src : Source) (sid : Fin 16384) (s : State) : Host.Outcome State Fault Refusal :=
  s.done (s.plainWrite src (Reg.SC_CMD sid.val) fun s => s.scAbortOp sid.val)

/-- RESET_STATE: at the step of the named frame, or, where that is posted already, at the next chunk (R154). -/
def State.resetState (s : State) (sid : Nat) : State :=
  let x := s.stream sid
  let f := s.reg (Reg.SC_RESET_FRAME sid)
  if seqLt f (s.chunkBase sid (s.reg (Reg.SC_CHUNK_SEQ sid))) then s.setStream sid { x with resetNext := true }
  else s.setStream sid { x with resetFrames := x.resetFrames ++ [f] }

/-- The command RESET_STATE (R154). -/
def State.scResetStateOp (s : State) (sid : Nat) : State :=
  s.scCommand sid [.armed, .running, .paused] fun s => s.resetState sid

/-- RESET_STATE (R154). -/
def execScResetState (src : Source) (sid : Fin 16384) (s : State) : Host.Outcome State Fault Refusal :=
  s.done (s.plainWrite src (Reg.SC_CMD sid.val) fun s => s.scResetStateOp sid.val)

/-- The command SC_RECHECK (R158). -/
def State.scRecheckOp (s : State) (sid : Nat) : State :=
  s.scCommand sid [.armed, .running, .paused, .draining] fun s =>
    match s.bayOfSid sid with
    | some b => (s.recheck b sid).tryPost sid
    | none => s

/-- SC_RECHECK (R158). -/
def execScRecheck (src : Source) (sid : Fin 16384) (s : State) : Host.Outcome State Fault Refusal :=
  s.done (s.plainWrite src (Reg.SC_CMD sid.val) fun s => s.scRecheckOp sid.val)

/-! ### Input frames (R147, 10 R255) -/

/-- Bytes of a frame, and of its slot in the ring (R147). -/
def State.frameLen (s : State) (sid : Nat) : Nat := fld (s.reg (Reg.SC_FRAME sid)) 15 0 * 4
def State.frameSlot (s : State) (sid : Nat) : Nat := ceilDiv (s.frameLen sid) 64 * 64

/-- Virtual address of a frame's slot (R147). -/
def State.frameVa (s : State) (sid : Nat) (q : Word) : Nat :=
  (s.reg64 (Reg.SC_IN_BASE_LO sid) (Reg.SC_IN_BASE_HI sid)).toNat +
    (q - s.reg (Reg.SC_START_FRAME sid)).toNat % max 1 (fld (s.reg (Reg.SC_IN_CAP sid)) 15 0) * s.frameSlot sid

/-- A frame is behind the stream: below the tail, of a chunk already posted or completed with silence, or past the closing head (R144, R147). -/
def State.frameLate (s : State) (sid : Nat) (q : Word) : Bool :=
  let n := s.reg (Reg.SC_CHUNK_SEQ sid)
  seqLt q (s.reg (Reg.SC_IN_TAIL sid)) || seqLt q (s.chunkBase sid (if (s.stream sid).silenced then n + 1 else n)) ||
    match (s.stream sid).closed with
    | some c => !seqLt q c
    | none => false

/-- A frame has been written: it is present, the head moves past what is contiguous (R147); the check of PREFETCH runs at a chunk's first
frame (R158). -/
def State.frameLanded (s : State) (b sid : Nat) (q : Word) : State :=
  let x := s.stream sid
  let frames := setInsert x.frames q.toNat
  let s1 := (s.setStream sid { x with frames := frames }).setReg (Reg.SC_IN_HEAD sid)
    (extendHead frames frames.length (s.reg (Reg.SC_IN_HEAD sid)))
  let s2 := s1.noteAll sid
  if bit (s2.reg (Reg.SC_CTRL sid)) 13 && (q - s2.reg (Reg.SC_START_FRAME sid)).toNat % max 1 (s2.chunkLen sid) = 0 then
    s2.prefetch b sid
  else s2

/-- Write one frame into the ring, or discard it and count (R147). Answers the fault that the write meets. -/
def State.writeFrame (s : State) (b sid : Nat) (q : Word) (bytes : Bytes) (chaff : Bool) (en : Engine) : State × Option RunFault :=
  if s.frameLate sid q then (s.count16 (Reg.SC_LATE_DISCARD sid), none)
  else if (q - s.reg (Reg.SC_IN_TAIL sid)).toNat ≥ fld (s.reg (Reg.SC_IN_CAP sid)) 15 0 then
    (s.count16 (Reg.SC_IN_OVERRUN sid), none)
  else if (s.stream sid).frames.contains q.toNat then (s, none)
  else
    match s.writeRun b (s.frameVa sid q) bytes chaff en with
    | (s1, none) => (s1.frameLanded b sid q, none)
    | (s1, some f) => (s1, some f)

/-- Keep a message that meets a resumable fault (10 R255). -/
def State.holdMsg (s : State) (m : HeldMsg) : State × Nat :=
  let id := s.net.nextHeld
  ({ s with net := { s.net with heldMsgs := AMap.set s.net.heldMsgs id m, nextHeld := id + 1 } }, id)

/-- Write the frames of a message in order; a resumable fault holds the rest of the message, a protection fault discards it and refuses the
message; in the end the message has taken effect (10 R249, R255). -/
def State.takeFrames (s : State) (peer : Nat) (msg : Option Word) (b sid : Nat) (chaff : Bool) (first : Word) : List Bytes → State
  | [] => s.effect peer msg
  | bytes :: rest =>
    match s.writeFrame b sid first bytes chaff baleWriter with
    | (s1, none) => s1.takeFrames peer msg b sid chaff (first + 1) rest
    | (s1, some f) =>
      if s1.faultWaits f.cause then
        let (s2, id) := s1.holdMsg (.frames peer msg sid chaff first (bytes :: rest))
        (s2.raiseFault b f.va true baleWriter f.cause f.level f.entry (.message id)).1
      else
        (((s1.raiseFault b f.va true baleWriter f.cause f.level f.entry .none).1).count32 Reg.EB_RX_REFUSED 1).effect peer msg

/-- STREAM kind 0: accepted for a stream whose source is Bale, whose peer sends it and which is not IDLE, with a length that fits
(10 R255). -/
def State.inputFrames (s0 : State) (peer sid : Nat) (chaff : Bool) (first : Word) (count : Nat) (data : Bytes) : State :=
  let (s, msg) := s0.takeMsg peer 3
  let refuse := if s.inService then (s.count32 Reg.EB_RX_REFUSED 1).effect peer msg else s
  let len := s.frameLen sid
  let ok := !bit (s.reg (Reg.SC_CTRL sid)) 11 && decide (fld (s.reg (Reg.SC_PEER sid)) 13 0 = peer) &&
    (s.stream sid).state ≠ .idle && decide (data.length = count * len)
  match s.bayOfSid sid with
  | some b =>
    if ok then s.takeFrames peer msg b sid chaff first ((List.range count).map fun k => slice data (k * len) len)
    else refuse
  | none => refuse

/-- STREAM_INPUT_FRAMES (10 R255). -/
def execStreamInputFrames (peer : Fin 16384) (sid : Fin 16384) (chaff : Bool) (first : Word) (count : Nat) (data : List Byte)
    (s : State) : Host.Outcome State Fault Refusal :=
  s.done (s.inputFrames peer.val sid.val chaff first count data)

/-! ### Batches and chains (R151, R152) -/

/-- A batch that holds 64 rows closes, and closed batches that wait start (R152). -/
def State.batchClose (s : State) (b g : Nat) : State :=
  let s1 := match s.openBatch b g with
    | some x => if x.rows.length ≥ 64 then s.closeBatch b g else s
    | none => s
  s1.drainClosing b (s1.batcher b).waiting.length

/-- BATCH_CLOSE (R152). -/
def execBatchClose (bay : Fin 16) (graph : Fin 256) (s : State) : Host.Outcome State Fault Refusal :=
  s.done (s.batchClose bay.val graph.val)

/-- BATCH_WINDOW_EXPIRE (R152). -/
def execBatchWindowExpire (bay : Fin 16) (graph : Fin 256) (s : State) : Host.Outcome State Fault Refusal :=
  s.done (s.closeBatch bay.val graph.val)

/-- A batch's chain has ended (R151): no instance carries its context, and no handle with it waits at the consume queue 0 of a triggered
template of the bay. -/
def State.chainEnded (s : State) (b slot : Nat) : Bool :=
  let ts := s.templates b
  let heads := ((List.range ts.length).filter (triggered ts)).filterMap fun i => (ts[i]?).map fun t => (parseSheaf t).consume0
  !(s.insts.any fun e => e.2.bay = b && e.2.chain = some slot) &&
    !heads.any fun q =>
      let x := s.queue q
      (x.entries.any fun e => e.ctx.chain = some slot) || x.runs.any fun r => r.any fun e => e.ctx.chain = some slot

/-- The chain of a slot has ended: each row's headers are written (07 R174 step 4, 08 R190); one whose rows' contexts have gone is free (R153, R161). -/
def State.endChain (s : State) (b slot : Nat) : State :=
  match AMap.get? (s.batcher b).slots slot with
  | none => s
  | some x =>
    if x.held || !s.chainEnded b slot then s
    else if x.rows.all (·.finished) then (s.freeSlot b slot).drainClosing b (s.batcher b).waiting.length
    else
      (x.rows.filter fun r => !r.finished).foldl (fun s r =>
        match s.ctxInflight r.seq r.index with
        | some f =>
          if f.stage = .running then
            (s.setInflight r.seq r.index (some { f with stage := .due, cut := x.cut, torn := r.torn, scan := r.scan })).tryHeaders
              r.seq r.index
          else s
        | none => s) s

/-- CHAIN_END (R151). -/
def execChainEnd (bay : Fin 16) (slot : Fin 1024) (s : State) : Host.Outcome State Fault Refusal :=
  s.done (s.endChain bay.val slot.val)

/-- CHUNK_COMPLETE (07 R174). -/
def execChunkComplete (sid : Fin 16384) (s : State) : Host.Outcome State Fault Refusal := s.done (s.completeSlot false sid.val)

/-! ### Output tails and aligned sets -/

/-- Room has come into a ring: what waits for it goes on. -/
def State.outFreed (s : State) (seq : Bool) (i : Nat) : State :=
  let s1 := s.tailMoved seq i
  match s1.ctxBay seq i with
  | some b => if s1.outRoom seq i && s1.owesEmpty seq i then s1.publishEmpty b seq i else s1
  | none => s1

/-- A host write of an output tail takes effect only for SINK 2 (R150). -/
def State.outTailOp (s : State) (seq : Bool) (i : Nat) (v : Word) : State :=
  if s.ctxSink seq i = 2 then (s.setReg (ctxReg seq i 0x50) v).outFreed seq i else s

/-- OUT_TAIL_WRITE (R150). -/
def execOutTailWrite (src : Source) (sequence : Bool) (index : Fin 16384) (value : Word) (s : State) :
    Host.Outcome State Fault Refusal :=
  let i := if sequence then index.val % 8192 else index.val
  s.done (s.plainWrite src (ctxReg sequence i 0x50) fun s => s.outTailOp sequence i value)

/-- `BAT_ALIGN_CMD` START (R159): ignored while the set runs; the ARMED members run, and every running member starts at the sequence. -/
def State.alignStart (s : State) (b k : Nat) : State :=
  let a := s.alignSet b k
  if a.running then s
  else
    let n := s.reg (Reg.BAT_ALIGN_SEQ b)
    let s1 := (((s.setAlign b k ⟨true, none, 0, [], false⟩).setReg (Reg.BAT_ALIGN_NEXT b k) n)).applyStaged (Reg.BAT_ALIGN_CFG b k)
    (s1.members b k).foldl (fun s i =>
      let x := s.stream i
      let s2 := if x.state = .armed then s.setStream i { x with state := .running } else s
      if (s2.stream i).state = .running then
        (s2.setStream i { s2.stream i with alignWait := false }).jumpTo i n
      else s2) s1

/-- ALIGN_START (R159): the set that `BAT_ASEL` selects. -/
def execAlignStart (src : Source) (bay : Fin 16) (s : State) : Host.Outcome State Fault Refusal :=
  let k := fld (s.reg (Reg.BAT_ASEL bay.val)) 9 0
  s.done (s.plainWrite src (Reg.BAT_ALIGN_CMD bay.val k) fun s => s.alignStart bay.val k)

/-- A set's slack timer expires (R159); in lull the group is posted once the bay resumes (R161, 02 R43). -/
def State.slackExpire (s : State) (b k : Nat) : State :=
  let a := s.alignSet b k
  if a.timing.isNone then s else (s.setAlign b k { a with expired := true }).postDue b k

/-- ALIGN_SLACK_EXPIRE (R159). -/
def execAlignSlackExpire (bay : Fin 16) (set : Fin 1024) (s : State) : Host.Outcome State Fault Refusal :=
  s.done (s.slackExpire bay.val set.val)

end Sys2Proof.Machine
end

