-- ==== Sys2Proof/Machine/Sequences.lean ====
section
/-! DEFINITION. Sequence contexts (08 R182 to R190, R204): commands, readiness with its probe, the forecast window, posting and the
completion of a step. -/

namespace Sys2Proof.Machine

/-! ### Key-value pages (R182, R183) -/

/-- A key-value format (R182): latent width, latent format, record size in bytes, leaves of a page. -/
structure KvFormat where
  width : Nat
  fmt : Fmt
  record : Nat
  leaves : Nat
  deriving DecidableEq, Repr

/-- The format of a tag (R182): tag 0 and tags 9 to 15 have none. -/
def kvFormat (tag : Nat) : Option KvFormat :=
  match tag with
  | 1 => some ⟨512, .e4m3, 640, 3⟩ | 2 => some ⟨512, .e5m2, 640, 3⟩ | 3 => some ⟨512, .bf16, 1152, 5⟩
  | 4 => some ⟨256, .e4m3, 384, 2⟩ | 5 => some ⟨256, .e5m2, 384, 2⟩ | 6 => some ⟨256, .bf16, 640, 3⟩
  | 7 => some ⟨1024, .e4m3, 1152, 5⟩ | 8 => some ⟨1024, .e5m2, 1152, 5⟩
  | _ => none

/-- `SQ_SHAPE` fields (R185). -/
def shapeWidth (w : Word) : Nat := 256 * 2 ^ fld w 1 0
def shapeQfmt (w : Word) : Nat := fld w 3 2
def shapeLayers (w : Word) : Nat := fld w 11 4
def shapeStride (w : Word) : Nat := fld w 15 12
def shapeTag (w : Word) : Nat := fld w 19 16

/-- The virtual address of page k of layer l of a sequence (R183). -/
def State.kvPage (s : State) (q l k : Nat) : Nat :=
  (s.reg64 (Reg.SQ_KV_BASE_LO q) (Reg.SQ_KV_BASE_HI q)).toNat + l * (s.reg (Reg.SQ_LAYER_STRIDE q)).toNat * 65536 +
    k * shapeStride (s.reg (Reg.SQ_SHAPE q)) * 65536

/-- Position and VALID of a global list entry (R193). -/
def globalPos (w : Word) : Nat := fld w 19 0
def globalValid (w : Word) : Bool := bit w 31

/-- First position of the window of a step at p (R193). -/
def windowStart (p w : Nat) : Nat := p + 1 - w

/-- Pages of 256 positions that the probe of a step at p covers: the window's and those of valid global entries (R189). -/
def stepPages (p w : Nat) (globals : List Word) : List Nat :=
  let lo := windowStart p w
  let win := (List.range (p / 256 - lo / 256 + 1)).map (· + lo / 256)
  (globals.filter globalValid).foldl (fun l e => setInsert l (globalPos e / 256)) win

/-! ### Slots (R193) -/

/-- The unmasked slots of a row that pages hold: slot and position. The current token's slot is not among them. -/
def pageSlots (p w : Nat) (globals : List Word) : List (Nat × Nat) :=
  let g := globals.length
  ((List.range g).filterMap fun j =>
      match globals[j]? with
      | some e => if globalValid e && decide (globalPos e + w ≤ p) then some (j, globalPos e) else none
      | none => none) ++
    ((List.range (w - 1)).filterMap fun j => if p + 1 + j ≥ w then some (g + j, p + 1 + j - w) else none)

/-- The pages of a row's unmasked slots, rising. -/
def slotPages (l : List (Nat × Nat)) : List Nat := l.foldl (fun a x => setInsert a (x.2 / 256)) []

/-! ### The probe (R189) -/

/-- What the probe finds of one leaf: 0 in place, 1 not present, 2 a fault, a remote leaf, or an append leaf that is not writable; with
its tag and whether it lies in the Granary, SETTLED. -/
def State.kvLeaf (s : State) (b va : Nat) (append : Bool) : State × Nat × Nat × Bool :=
  match s.translate b va false batcherProbe with
  | (s1, .error (cause, _, _)) => (s1, if cause = .notPresent then 1 else 2, 0, false)
  | (s1, .ok t) =>
    let bad := t.remote || (append && !(pteWritable t.entry && t.window.writable))
    (s1, if bad then 2 else 0, pteTag t.entry, pteTier t.entry = 2 && pteState t.entry = settled)

/-- The leaf of a page that holds bytes of the record at a slot, in a record size (R182): what the append of a step writes. -/
def recordIn (slot record leaf : Nat) : Bool := decide (leaf * 65536 < (slot + 1) * record ∧ slot * record < (leaf + 1) * 65536)

/-- Probe the leaves of one page; for the page of `SQ_POS`, `append` gives the position's slot in it: the leaves that hold its record must be writable
(R189, R201). Answers the worst finding. -/
def State.probePage (s : State) (b q l k : Nat) (append : Option Nat) : State × Nat :=
  let va := s.kvPage q l k
  let f := (kvFormat (shapeTag (s.reg (Reg.SQ_SHAPE q)))).getD ⟨0, .bf16, 0, 1⟩
  let writes := fun i => match append with | some j => recordIn j f.record i | none => false
  let (s1, found, tag, _) := s.kvLeaf b va (writes 0)
  let own := ((kvFormat tag).map (·.leaves)).getD 1
  let n := if append.isSome then max own f.leaves else own
  (List.range (n - 1)).foldl (fun (a : State × Nat) i =>
    let (t, g, _, _) := a.1.kvLeaf b (va + (i + 1) * 65536) (writes (i + 1))
    (t, max a.2 g)) (s1, found)

/-- Probe every leaf that a step at p touches in every layer: 0 in place, 1 a leaf not present, 2 a fault (R189). -/
def State.probeStep (s : State) (b q p : Nat) (latch : StepLatch) : State × Nat :=
  let pages := setInsert (stepPages p latch.window latch.globals) (p / 256)
  (List.range (shapeLayers (s.reg (Reg.SQ_SHAPE q)))).foldl (fun (a : State × Nat) l =>
    pages.foldl (fun (a : State × Nat) k =>
      let (t, g) := a.1.probePage b q l k (if k = p / 256 then some (p % 256) else none)
      (t, max a.2 g)) a) (s, 0)

/-! ### The forecast window (R204) -/

/-- The limits that a sequence took at its latest ARM or readiness (R208). -/
def SeqCtx.fcMin (x : SeqCtx) : Nat := fld x.fc 4 0
def SeqCtx.fcMax (x : SeqCtx) : Nat := fld x.fc 12 8
def SeqCtx.fcQuiet (x : SeqCtx) : Nat := fld x.fc 23 16

/-- The walker asks for a leaf's migration to the Silo: counted where it is queued (R76, R204). -/
def State.walkerMigrate (s : State) (b va : Nat) (lc : Bool) : State :=
  if s.hasMig b va || s.migQueueFull then s
  else (s.issueMig b va 1 lc .walker).countWrap Reg.ATT_FC_MIGRATES 1

/-- Look at the leaves of one page: those in the Granary and SETTLED are asked back. -/
def State.forecastPage (s : State) (b q l k : Nat) : State :=
  let va := s.kvPage q l k
  let lc := !(s.seqCtx q).be
  let tag := match s.pte b va with | some (_, _, e) => pteTag e | none => 0
  (List.range (((kvFormat tag).map (·.leaves)).getD 1)).foldl (fun s i =>
    match s.pte b (va + i * 65536) with
    | some (_, _, e) => if pteTier e = 2 && pteState e = settled then s.walkerMigrate b (va + i * 65536) lc else s
    | none => s) s

/-- Look at the pages that the step at p reads in the next D layers from a layer, going on into the next step's layers (R204). -/
def State.forecast (s : State) (b q p layer : Nat) : State :=
  let x := s.seqCtx q
  let n := shapeLayers (s.reg (Reg.SQ_SHAPE q))
  if n = 0 then s
  else
    (List.range x.window).foldl (fun s i =>
      let l := layer + i
      (slotPages (pageSlots (p + l / n) x.latch.window x.latch.globals)).foldl (fun s k => s.forecastPage b q (l % n) k) s) s

/-- A share was read from the Granary: D doubles, up to MAX (R204, R205). -/
def State.forecastMiss (s : State) (q : Nat) : State :=
  let x := s.seqCtx q
  ((s.setSeq q { x with window := min (x.window * 2) x.fcMax, quiet := 0, calm := 0, missed := true }).count16 (Reg.SQ_FC_MISSES q)).countWrap
    Reg.ATT_FC_MISSES 1

/-! ### Readiness and posting (R160, R186, R189) -/

/-- The registers that apply at a step's readiness (R185, R208). -/
def readyRegs (q : Nat) : List Nat :=
  [Reg.SQ_WINDOW q, Reg.SQ_DEADLINE q, Reg.SQ_GLOBAL_LO q, Reg.SQ_GLOBAL_HI q, Reg.SQ_GLOBAL_COUNT q, Reg.SQ_TAP_BASE_LO q,
   Reg.SQ_TAP_BASE_HI q, Reg.SQ_TAP_CFG q, Reg.SQ_TAP_SEL q, Reg.ATT_FC_CFG]

/-- The entries of the global list: 4 bytes each (R193). -/
def State.readGlobals (s : State) (b q : Nat) : State × Except RunFault (List Word) :=
  let n := fld (s.reg (Reg.SQ_GLOBAL_COUNT q)) 6 0
  match s.readRun b (s.reg64 (Reg.SQ_GLOBAL_LO q) (Reg.SQ_GLOBAL_HI q)).toNat (n * 4) batcherProbe with
  | (s1, .ok (bs, _)) => (s1, .ok ((List.range n).map fun i => w32 (leAt bs (i * 4) 4)))
  | (s1, .error f) => (s1, .error f)

/-- The probe's outcome is taken: the step may be posted and the forecast starts; or it waits for RECHECK, counted once; or the sequence
is PAUSED (R189). -/
def State.probeTaken (s : State) (b q p finding : Nat) : State :=
  let x := s.seqCtx q
  match finding with
  | 0 => (s.setSeq q { x with probed := true, absent := false }).forecast b q p 0
  | 1 =>
    let s1 := s.setSeq q { x with probed := false, absent := true, absentCounted := true }
    if x.absentCounted then s1 else s1.count16 (Reg.SQ_ABSENT_WAITS q)
  | _ => s.setSeq q { x with probed := false, absent := false, pageFault := true, state := .paused }

/-- The global list is latched: read once for a step; answers the finding where it cannot be read (R189). -/
def State.latchGlobals (s : State) (b q : Nat) : State × Option Nat :=
  if (s.seqCtx q).latch.held then (s, none)
  else
    match s.readGlobals b q with
    | (s1, .error f) => (s1, some (if f.cause = .notPresent then 1 else 2))
    | (s1, .ok g) =>
      let x := s1.seqCtx q
      (s1.setSeq q { x with latch := { x.latch with globals := g, held := true } }, none)

/-- Probe the step at p with the latch that it holds. -/
def State.probe (s : State) (b q p : Nat) : State :=
  match s.latchGlobals b q with
  | (s1, some finding) => s1.probeTaken b q p finding
  | (s1, none) =>
    let (s2, finding) := s1.probeStep b q p (s1.seqCtx q).latch
    s2.probeTaken b q p finding

/-- The step at p is ready (R189): staged fields apply and are latched, the sequence takes the forecast limits, and a window above the new MAX falls
to it (R208); the time and the deadline are recorded, and the probe runs. -/
def State.seqReady (s : State) (b q p : Nat) : State :=
  let s1 := s.applyAll (readyRegs q)
  let x := s1.seqCtx q
  let latch : StepLatch :=
    { window := fld (s1.reg (Reg.SQ_WINDOW q)) 20 0, globals := [], held := false
      tapBase := s1.reg64 (Reg.SQ_TAP_BASE_LO q) (Reg.SQ_TAP_BASE_HI q), tapCfg := s1.reg (Reg.SQ_TAP_CFG q)
      tapSel := s1.reg (Reg.SQ_TAP_SEL q) }
  let fc := s1.reg Reg.ATT_FC_CFG
  let s2 := s1.setSeq q { x with
    latch := latch, readyAt := some s1.lic, absentCounted := false, fc := fc, window := min x.window (fld fc 12 8)
    due := s1.deadlineOf b (s1.ctxGraph true q) x.be (fld (s1.reg (Reg.SQ_DEADLINE q)) 23 0) s1.lic }
  let s3 := (s2.setReg (Reg.SQ_READY_LO q) (lo32 s2.lic)).setReg (Reg.SQ_READY_HI q) (hi32 s2.lic)
  s3.probe b q p

/-- Put a step in flight (R160, R186): the last one at the position limit, or while the sequence drains. -/
def State.seqLaunch (s : State) (q : Nat) (kind : SlotKind) (ready deadline : W64) : State :=
  let x := s.seqCtx q
  let p := s.reg (Reg.SQ_POS q)
  let f : InFlight :=
    { kind := kind, seq := s.reg (Reg.SQ_STEPS q), firstFrame := p, valid := 1, silence := false
      last := x.state = .draining || (kind = .normal && decide (p.toNat + 1 ≥ fld (s.reg (Reg.SQ_POS_LIMIT q)) 20 0))
      resets := [], named := [], resetNext := false, ready := ready, deadline := deadline, graph := s.ctxGraph true q
      stage := if kind = .normal then .running else .due, late := false, chaff := false, published := 0, cut := false
      torn := false, scan := .zero }
  s.setSeq q { x with inflight := some f, outFull := false, readyAt := none, probed := false, absent := false }

/-- The sequence may post: it runs, or drains with a step that came back; nothing is in flight or pending, and its bay takes rows. -/
def State.seqMayPost (s : State) (b q : Nat) : Bool :=
  let x := s.seqCtx q
  let y := s.bay b
  (x.state = .running || x.state = .draining) && x.inflight.isNone && x.pending.isNone && !y.lullWanted && !y.lulled

/-- Post the step that is ready and probed, once its ring has room (R189, R150). -/
def State.seqPost (s : State) (b q : Nat) : State :=
  let x := s.seqCtx q
  match x.readyAt with
  | none => s
  | some t =>
    if !s.seqMayPost b q || !x.probed then s
    else if !s.outRoom true q then s.setOutFull true q true
    else
      (s.seqLaunch q .normal t x.due).joinBatch b (s.ctxGraph true q) true [⟨true, q, x.due, [], false, false, .zero⟩]

/-- After a dropped step's slot is published, the next step is ready (R157, R160; log 20). -/
def State.seqNext (s : State) (b q : Nat) : State :=
  let x := s.seqCtx q
  if x.inflight.isNone && x.state = .running && x.readyAt.isNone then
    (s.seqReady b q (s.reg (Reg.SQ_POS q)).toNat).seqPost b q
  else s

/-- Write the headers that are due of a sequence. -/
def State.seqHeaders (s : State) (q : Nat) : State :=
  match s.bayOfSeq q with
  | some b => (s.tryHeaders true q).seqNext b q
  | none => s

/-- The batcher looks at a sequence: a step whose deadline has passed under drop-late is dropped, counted in `SQ_DROPPED` only
(R157); else it is posted. -/
def State.seqTry (s : State) (q : Nat) : State :=
  match s.bayOfSeq q with
  | none => s
  | some b =>
    let x := s.seqCtx q
    match x.readyAt with
    | none => if s.owesEmpty true q && s.outRoom true q then s.publishEmpty b true q else s
    | some t =>
      if s.dropLate b (s.reg (Reg.SQ_CTRL q)).toNat && decide (x.due.toNat < s.lic.toNat) && s.seqMayPost b q then
        if s.outRoom true q then ((s.seqLaunch q .dropped t x.due).count16 (Reg.SQ_DROPPED q)).seqHeaders q
        else s.setOutFull true q true
      else s.seqPost b q

/-! ### Sequence commands (R186, R187) -/

/-- A command of a sequence is refused with a reason. -/
def State.sqRefuse (s : State) (q reason : Nat) : State :=
  s.setSeq q { s.seqCtx q with refused := true, reason := reason }

/-- A command of a sequence, accepted as R146 gives for streams. -/
def State.sqCommand (s : State) (q : Nat) (allowed : List CtxState) (body : State → State) : State :=
  let x := s.seqCtx q
  if x.pending.isSome then s.sqRefuse q 8
  else if !allowed.contains x.state then s.sqRefuse q 1
  else body (s.setSeq q { x with refused := false, reason := 0 })

/-- The fields of a sequence context that apply at ARM (R185). -/
def sqArmRegs (q : Nat) : List Nat :=
  [Reg.SQ_CTRL q, Reg.SQ_SHAPE q, Reg.SQ_KV_BASE_LO q, Reg.SQ_KV_BASE_HI q, Reg.SQ_LAYER_STRIDE q, Reg.SQ_START_POS q,
   Reg.SQ_POS_LIMIT q, Reg.SQ_SEED q, Reg.SQ_OUT_BASE_LO q, Reg.SQ_OUT_BASE_HI q, Reg.SQ_OUT_CFG q, Reg.SQ_PEER q]

/-- The staged fields of a sequence are in range (R187 reason 2). -/
def State.sqRanges (s : State) (q : Nat) : Bool :=
  let sh := s.latest (Reg.SQ_SHAPE q)
  let ctrl := s.latest (Reg.SQ_CTRL q)
  let out := s.latest (Reg.SQ_OUT_CFG q)
  let limit := fld (s.latest (Reg.SQ_POS_LIMIT q)) 20 0
  let sink := fld ctrl 17 16
  decide (fld sh 1 0 ≠ 3 ∧ shapeQfmt sh ≠ 3 ∧ 1 ≤ shapeLayers sh ∧ shapeLayers sh ≤ 128 ∧ 2 ≤ shapeStride sh ∧
    shapeStride sh ≤ 8 ∧ 1 ≤ shapeTag sh ∧ shapeTag sh ≤ 8 ∧ (sink = 0 ∨ sink = 2) ∧ fld ctrl 10 9 ≠ 3 ∧ 1 ≤ limit ∧
    limit ≤ 1048576 ∧ fld (s.latest (Reg.SQ_START_POS q)) 20 0 < limit ∧ 2 ≤ fld out 11 0 ∧ fld out 11 0 ≤ 4095 ∧
    2 ≤ fld out 27 12)

/-- Why ARM of a sequence is refused, in the order of R187, then R145's and R188's (log 19). -/
def State.sqArmReason (s : State) (b q : Nat) : Option Nat :=
  let sh := s.latest (Reg.SQ_SHAPE q)
  let ctrl := (s.latest (Reg.SQ_CTRL q)).toNat
  let g := ctrl % 256
  let limit := fld (s.latest (Reg.SQ_POS_LIMIT q)) 20 0
  let f := (kvFormat (shapeTag sh)).getD ⟨0, .bf16, 0, 0⟩
  if !s.sqRanges q then some 2
  else if f.width ≠ shapeWidth sh then some 3
  else if shapeStride sh < f.leaves || (s.latest (Reg.SQ_LAYER_STRIDE q)).toNat < ceilDiv limit 256 * shapeStride sh then some 4
  else if fld (s.latest (Reg.SQ_OUT_CFG q)) 27 12 * 64 < 64 + (Config.graphOutput b g).val then some 4
  else if s.dropLate b ctrl && !((s.bayDef b).map (·.dropLate)).getD false then some 5
  else if s.batArea b = 0 then some 7
  else if !s.graphOk b g then some 9
  else if ((AMap.get? s.engines.seqShapes (b * 256 + g)).map fun x =>
      decide (x ≠ ⟨fld sh 1 0, shapeQfmt sh, shapeLayers sh⟩)).getD false then some 3
  else none

/-- START, or AUTOSTART at the end of ARM: the sequence runs, and step 0 is ready (R186). -/
def State.startSeq (s : State) (b q : Nat) : State :=
  ((s.setSeq q { s.seqCtx q with state := .running }).seqReady b q (s.reg (Reg.SQ_POS q)).toNat).seqTry q

/-- An accepted ARM (R186, R188, R204). -/
def State.armSeq (s : State) (b q : Nat) : State :=
  let s1 := s.applyAll (sqArmRegs q)
  let g := s1.ctxGraph true q
  let sh := s1.reg (Reg.SQ_SHAPE q)
  let x := s1.seqCtx q
  let be := (s1.classOf b g).be
  let y := { x.toIdle with
    state := .armed, be := be, pageFault := false, drained := false, refused := false, reason := 0
    fc := s1.reg Reg.ATT_FC_CFG, window := fld (s1.reg Reg.ATT_FC_CFG) 4 0, quiet := 0, calm := 0 }
  let shape : SeqShape := ⟨fld sh 1 0, shapeQfmt sh, shapeLayers sh⟩
  let s2 : State := { (s1.setSeq q y) with engines := { s1.engines with
    seqShapes := AMap.set s1.engines.seqShapes (b * 256 + g) shape } }
  let bound := if be then 0xFFFFFFFF#32 else w32 (((s.bayDef b).map (·.lcBound)).getD 0)
  let s3 := (s2.setReg (Reg.SQ_POS q) (w32 (fld (s2.reg (Reg.SQ_START_POS q)) 20 0))).setReg (Reg.SQ_DELAY_BOUND q) bound
  if bit (s3.reg (Reg.SQ_CTRL q)) 12 then s3.startSeq b q else s3

/-- The command SQ_ARM (R187). -/
def State.sqArmOp (s : State) (q : Nat) : State :=
  s.sqCommand q [.idle] fun s =>
    match s.bayOfSeq q with
    | none => s.sqRefuse q 6
    | some b =>
      match s.sqArmReason b q with
      | some r => s.sqRefuse q r
      | none => s.armSeq b q

/-- SQ_ARM (R187). -/
def execSqArm (src : Source) (q : Fin 8192) (s : State) : Host.Outcome State Fault Refusal :=
  s.done (s.plainWrite src (Reg.SQ_CMD q.val) fun s => s.sqArmOp q.val)

/-- The command SQ_START (R186). -/
def State.sqStartOp (s : State) (q : Nat) : State :=
  s.sqCommand q [.armed] fun s =>
    match s.bayOfSeq q with
    | some b => s.startSeq b q
    | none => s

/-- SQ_START (R186). -/
def execSqStart (src : Source) (q : Fin 8192) (s : State) : Host.Outcome State Fault Refusal :=
  s.done (s.plainWrite src (Reg.SQ_CMD q.val) fun s => s.sqStartOp q.val)

/-- PAUSE: the step in flight publishes, the next one is not posted (R186, R206); a step that is ready already keeps its readiness (R144). -/
def State.pauseSeq (s : State) (q : Nat) : State :=
  let x := s.seqCtx q
  s.setSeq q { x with state := .paused, pending := if x.inflight.isSome then some .pause else none }

/-- The command SQ_PAUSE (R186). -/
def State.sqPauseOp (s : State) (q : Nat) : State :=
  s.sqCommand q [.armed, .running] fun s => s.pauseSeq q

/-- SQ_PAUSE (R186). -/
def execSqPause (src : Source) (q : Fin 8192) (s : State) : Host.Outcome State Fault Refusal :=
  s.done (s.plainWrite src (Reg.SQ_CMD q.val) fun s => s.sqPauseOp q.val)

/-- RESUME: a step that was ready before the pause goes on, probed again where its probe met a fault; else the step at `SQ_POS` is ready now (R144,
R162, R186). -/
def State.resumeSeq (s : State) (b q : Nat) : State :=
  let x := s.seqCtx q
  if x.readyAt.isNone then s.startSeq b q
  else
    let s1 := s.setSeq q { x with state := .running }
    (if x.probed || x.absent then s1 else s1.probe b q (s.reg (Reg.SQ_POS q)).toNat).seqTry q

/-- The command SQ_RESUME (R144, R162, R186). -/
def State.sqResumeOp (s : State) (q : Nat) : State :=
  s.sqCommand q [.paused] fun s =>
    match s.bayOfSeq q with
    | some b => s.resumeSeq b q
    | none => s

/-- SQ_RESUME (R144, R162, R186). -/
def execSqResume (src : Source) (q : Fin 8192) (s : State) : Host.Outcome State Fault Refusal :=
  s.done (s.plainWrite src (Reg.SQ_CMD q.val) fun s => s.sqResumeOp q.val)

/-- DRAIN: no further step is posted; the step in flight carries LAST where its header is unwritten; else the empty slot follows
(R186, R414). A step in flight holds PENDING (R146). -/
def State.drainSeq (s : State) (b q : Nat) : State :=
  let x := { s.seqCtx q with state := .draining, readyAt := none, probed := false, absent := false }
  match x.inflight with
  | some f => s.setSeq q { x with inflight := some (if f.stage ≠ .written then { f with last := true } else f), pending := some .drain }
  | none => (s.setSeq q x).publishEmpty b true q

/-- The command SQ_DRAIN (R186). -/
def State.sqDrainOp (s : State) (q : Nat) : State :=
  s.sqCommand q [.armed, .running, .paused] fun s =>
    match s.bayOfSeq q with
    | some b => s.drainSeq b q
    | none => s

/-- SQ_DRAIN (R186). -/
def execSqDrain (src : Source) (q : Fin 8192) (s : State) : Host.Outcome State Fault Refusal :=
  s.done (s.plainWrite src (Reg.SQ_CMD q.val) fun s => s.sqDrainOp q.val)

/-- ABORT: after any instantiated step completes (R186). -/
def State.abortSeq (s : State) (b q : Nat) : State :=
  let x := { s.seqCtx q with pageFault := false }
  let s0 := s.setSeq q x
  match x.inflight with
  | none => s0.goIdle true q
  | some f =>
    match s0.withdrawRow b true q with
    | some s1 => s1.goIdle true q
    | none => if f.kind ≠ .normal then s0.goIdle true q else s0.setSeq q { x with pending := some .abort }

/-- The command SQ_ABORT (R186). -/
def State.sqAbortOp (s : State) (q : Nat) : State :=
  s.sqCommand q [.armed, .running, .paused, .draining] fun s =>
    match s.bayOfSeq q with
    | some b => s.abortSeq b q
    | none => s.goIdle true q

/-- SQ_ABORT (R186). -/
def execSqAbort (src : Source) (q : Fin 8192) (s : State) : Host.Outcome State Fault Refusal :=
  s.done (s.plainWrite src (Reg.SQ_CMD q.val) fun s => s.sqAbortOp q.val)

/-- RECHECK repeats the probe of a step that is ready, and posts it (R186, R189). -/
def State.recheckSeq (s : State) (b q : Nat) : State :=
  let x := s.seqCtx q
  if x.readyAt.isSome && x.inflight.isNone then
    (s.probe b q (s.reg (Reg.SQ_POS q)).toNat).seqTry q
  else s

/-- The command SQ_RECHECK (R189). -/
def State.sqRecheckOp (s : State) (q : Nat) : State :=
  s.sqCommand q [.armed, .running, .paused, .draining] fun s =>
    match s.bayOfSeq q with
    | some b => s.recheckSeq b q
    | none => s

/-- SQ_RECHECK (R189). -/
def execSqRecheck (src : Source) (q : Fin 8192) (s : State) : Host.Outcome State Fault Refusal :=
  s.done (s.plainWrite src (Reg.SQ_CMD q.val) fun s => s.sqRecheckOp q.val)

/-- A step without a miss is counted; after QUIET consecutive ones the forecast window falls by one, down to MIN (R204). The step that had a miss is
none of them. -/
def State.stepQuiet (s : State) (q : Nat) : State :=
  let x := s.seqCtx q
  if x.missed then s.setSeq q { x with missed := false }
  else
    let y := { x with quiet := min (x.quiet + 1) 255 }
    if x.calm + 1 ≥ x.fcQuiet then s.setSeq q { y with calm := 0, window := max (x.window - 1) x.fcMin }
    else s.setSeq q { y with calm := x.calm + 1 }

/-- A step's context write (R190); the next step, ready since its predecessor's token handle was published, is posted. -/
def State.completeStep (s : State) (q : Nat) : State :=
  match (s.seqCtx q).inflight with
  | some f => if f.stage = .written then ((s.completeSlot true q).stepQuiet q).seqTry q else s
  | none => s

/-- STEP_COMPLETE (R190). -/
def execStepComplete (q : Fin 8192) (s : State) : Host.Outcome State Fault Refusal := s.done (s.completeStep q.val)

end Sys2Proof.Machine
end

