-- ==== Sys2Proof/Machine/Attention.lean ====
section
/-! DEFINITION. Attention passes (08 R191 to R206) and the end of a bank-side share (05 R138). -/

namespace Sys2Proof.Machine

/-- An attention descriptor beyond what `AttPass` keeps (R191). -/
structure AttDesc where
  op : Nat
  flags : Nat
  heads : Nat
  selfTag : Nat
  layer : Nat
  scale : Word
  qLat : Nat
  qTally : Nat
  selfOff : Nat
  scoreArea : Nat
  slots : Nat
  valueOff : Nat
  work : Nat
  deriving DecidableEq, Repr

/-- A descriptor's fields (R191); bits that it reserves without a stated value are ignored (00 R10). -/
def parseAtt (e : Bytes) : AttDesc :=
  { op := leAt e 0 1, flags := leAt e 1 1 % 4, heads := leAt e 2 1, selfTag := leAt e 3 1, layer := leAt e 4 2
    scale := w32 (leAt e 8 4), qLat := leAt e 0xC 3, qTally := leAt e 0x10 3, selfOff := leAt e 0x14 3
    scoreArea := leAt e 0x18 8, slots := leAt e 0x20 4, valueOff := leAt e 0x24 3, work := leAt e 0x28 3 }

/-- Bytes of the staging area of the MXE path (R191). -/
def workSize : Nat := 0x100000

/-- The query format of a shape (R185 QFMT). -/
def queryFmt (q : Nat) : Fmt := if q = 0 then .e4m3 else if q = 1 then .e5m2 else .bf16

/-- The width of a shape in elements. -/
def SeqShape.elems (h : SeqShape) : Nat := 256 * 2 ^ h.width

/-- A crib offset of a descriptor is 64-byte aligned (R191). -/
def cribOffOk (o : Nat) : Bool := o % 64 = 0

/-- The areas of a descriptor for a number of rows: offset and length. -/
def AttDesc.areas (d : AttDesc) (h : SeqShape) (rows : Nat) : List (Nat × Nat) :=
  let self := ((kvFormat d.selfTag).map (·.record)).getD 0
  [(d.qLat, rows * d.heads * vecBytes (queryFmt h.qfmt) h.elems), (d.qTally, rows * d.heads * 128), (d.selfOff, rows * self),
   (d.valueOff, if d.op = 2 then rows * d.heads * h.elems * 4 else 0), (d.work, workSize)]

/-- A descriptor meets R191 and R192. -/
def State.attOk (s : State) (x : Inst) (e : Bytes) (h : SeqShape) : Bool :=
  let d := parseAtt e
  decide (1 ≤ d.heads ∧ d.heads ≤ 16 ∧ d.layer < h.layers) && leAt e 6 2 = 0 && allZero (slice e 0x2C 20) &&
    ((kvFormat d.selfTag).map (·.width)) = some h.elems && (d.areas h x.desc.rowCount).all (fun a => cribOffOk a.1 && x.inCrib a.1 a.2) &&
    d.scoreArea % 64 = 0 &&
    (match s.windowOf x.bay d.scoreArea with | some w => decide (w.tier = 0) && w.writable | none => false) &&
    decide (16 ≤ d.slots ∧ d.slots ≤ 65536) && d.slots % 16 = 0 && (s.rowsOf x).all (·.seq)

/-! ### Slots (R193) -/

/-- The slot of the current token (R193). -/
def selfSlot (w : Nat) (globals : List Word) : Nat := globals.length + w - 1

/-- The row of a pass for a sequence: its position, what was latched, and its pages still to translate (R193). -/
def State.passRow (s : State) (i q slots : Nat) : PassRow :=
  let x := s.seqCtx q
  let pos := ((x.inflight.map (·.firstFrame)).getD (s.reg (Reg.SQ_POS q))).toNat
  let g := x.latch.globals
  let fault := decide (g.length + x.latch.window > slots)
  { row := i, q := q, pos := pos, globals := g, window := x.latch.window, shapeFault := fault
    todo := if fault then [] else slotPages (pageSlots pos x.latch.window g), pages := [] }

/-- A row-layer pass with a shape fault (R196). -/
def State.countShapeFault (s : State) (q : Nat) : State := (s.count16 (Reg.SQ_SHAPE_FAULTS q)).count32 Reg.ATT_SHAPE_FAULTS 1

/-! ### Translation and routing (R194, R196, R205) -/

/-- What the walker's look at a page gives. -/
inductive PageLook where
  | good (tag : Nat) (leaves : List Translation)
  | shape
  | fault (va : Nat) (cause : FaultCause) (level : Nat) (entry : W64)
  deriving DecidableEq, Repr

/-- Translate the further leaves of a page: a leaf that is not present or carries another tag is a shape fault (R196). All of a page uses the old
translations, or the new ones (R202). -/
def State.lookLeaves (s : State) (old : Bool) (b : Nat) (en : Engine) (tag : Nat) (got : List Translation) : List Nat → State × PageLook
  | [] => (s, .good tag got)
  | va :: rest =>
    match s.translateBy (some old) b va false en with
    | (s1, .error (.notPresent, _, _)) => (s1, .shape)
    | (s1, .error (c, l, e)) => (s1, .fault va c l e)
    | (s1, .ok t) => if pteTag t.entry = tag then s1.lookLeaves old b en tag (got ++ [t]) rest else (s1, .shape)

/-- Translate a page, once (R194, R196): by the old translations or by the new ones, as a free value says (R202). -/
def State.lookPage (s0 : State) (b : Nat) (en : Engine) (va width stride : Nat) : State × PageLook :=
  let (v, s) := s0.draw
  match s.translateBy (some (bit v 0)) b va false en with
  | (s1, .error (c, l, e)) => (s1, .fault va c l e)
  | (s1, .ok t) =>
    match kvFormat (pteTag t.entry) with
    | none => (s1, .shape)
    | some f =>
      if f.width ≠ width || f.leaves > stride then (s1, .shape)
      else s1.lookLeaves (bit v 0) b en (pteTag t.entry) [t] ((List.range (f.leaves - 1)).map fun i => va + (i + 1) * 65536)

def State.setPass (s : State) (p : AttPass) : State :=
  { s with engines := { s.engines with passes := s.engines.passes.map fun x => if x.inst = p.inst then p else x } }

def State.pass? (s : State) (i : Nat) : Option AttPass := s.engines.passes.find? fun p => p.inst = i

def AttPass.setRow (p : AttPass) (r : PassRow) : AttPass :=
  { p with rows := p.rows.map fun x => if x.row = r.row then r else x }

/-- Physical address of a leaf under its translation. -/
def leafPhys (va : Nat) (i : Nat) (t : Translation) : Nat := t.phys (va + i * 65536)

/-- The bank-side shares of a loft page: one for each die that holds a leaf of it (R194). -/
def State.pageShares (s : State) (p : AttPass) (row page va : Nat) (phys : List Nat) : State :=
  (List.range 4).foldl (fun s d =>
    match (List.range phys.length).find? fun i => ((phys[i]?).getD 0) / 0x100000000 = d with
    | some i =>
      (s.queueShare d p.lc (.pass p.inst row page) (va + i * 65536) 65536 ((phys[i]?).getD 0)).countWrap Reg.ATT_SHARES_BSE 1
    | none => s) s

/-- Route a translated page: bank-side shares for a loft page unless ALL_MXE is set, else the MXE path; a leaf in the Granary is a
forecast miss, and its migration is asked for (R194, R205). -/
def State.routePage (s : State) (b : Nat) (p : AttPass) (r : PassRow) (k va tag : Nat) (ts : List Translation) : State :=
  let loft := ts.all fun t => pteTier t.entry = 0
  let mxe := p.allMxe || !loft
  let phys := (List.range ts.length).filterMap fun i => (ts[i]?).map (leafPhys va i)
  let s1 : State :=
    if ts.any fun t => pteTier t.entry = 2 then
      (List.range ts.length).foldl (fun s i =>
        match ts[i]? with
        | some t =>
          if pteTier t.entry = 2 && pteState t.entry = settled then s.walkerMigrate b (va + i * 65536) (!(s.seqCtx r.q).be) else s
        | none => s) (s.forecastMiss r.q)
    else s
  let page : PassPage :=
    { page := k, va := va, tag := tag, leaves := phys, mxe := mxe, pageChaff := ts.any fun t => pteChaff t.entry }
  let s2 := if mxe then s1.countWrap Reg.ATT_SHARES_MXE 1 else s1.pageShares p r.row k va phys
  s2.setPass (p.setRow { r with todo := r.todo.drop 1, pages := r.pages ++ [page] })

/-- The dies that the shares of a page go to have room for it (05 R139); a page on the MXE path needs none. -/
def State.pageRoom (s : State) (p : AttPass) (row page va : Nat) (ts : List Translation) : Bool :=
  p.allMxe || (ts.any fun t => pteTier t.entry ≠ 0) || (List.range ts.length).all fun i =>
    match ts[i]? with
    | some t => s.shareRoom (leafPhys va i t / 0x100000000) (.pass p.inst row page)
    | none => true

/-- Go on with a pass's translations, until every page is routed, one faults (R194, R203), or a die has no room for a share: the pass then
waits (05 R139, 01 R22). -/
def State.passAdvance (s : State) (i : Nat) : Nat → State
  | 0 => s
  | n + 1 =>
    match s.pass? i, s.inst? i with
    | some p, some x =>
      match (if p.queued then none else p.rows.find? fun r => !r.todo.isEmpty) with
      | none => s
      | some r =>
        let k := (r.todo.head?).getD 0
        let h := s.reg (Reg.SQ_SHAPE r.q)
        let va := s.kvPage r.q p.layer k
        match s.lookPage x.bay (walkerEngine p.die p.core) va (shapeWidth h) (shapeStride h) with
        | (s1, .fault fva c l e) => s1.takeFault x.bay fva false (walkerEngine p.die p.core) c l e (.engine i)
        | (s1, .shape) => ((s1.setPass (p.setRow { r with todo := [], shapeFault := true })).countShapeFault r.q).passAdvance i n
        | (s1, .good tag ts) =>
          if s1.pageRoom p r.row k va ts then (s1.routePage x.bay p r k va tag ts).passAdvance i n
          else s1.setPass { p with waitRoom := true }
    | _, _ => s

/-- Pages that a pass has still to look at. -/
def AttPass.work (p : AttPass) : Nat := (p.rows.map fun r => r.todo.length).sum

/-- A pass begins on its die's walker: shape faults are counted, a SCORE pass looks ahead (R204), and its pages are translated. -/
def State.passStart (s : State) (b : Nat) (p : AttPass) : State :=
  let s1 := (p.rows.filter (·.shapeFault)).foldl (fun s r => s.countShapeFault r.q) s
  let s2 := if p.value then s1 else p.rows.foldl (fun s r => s.forecast b r.q r.pos p.layer) s1
  s2.passAdvance p.inst (p.work + 1)

/-- A die's walker has a place: the pass that waits for one begins, LC before BE and in order of arrival (01 R22, R26). -/
def State.nextPass (s : State) (die : Nat) : State :=
  let waiting := s.engines.passes.filter fun p => p.die = die && p.queued
  if s.attQueued die ≥ 64 then s
  else
    match (waiting.find? (·.lc)).or waiting.head? with
    | none => s
    | some p =>
      match s.inst? p.inst with
      | some x => (s.setPass { p with queued := false }).passStart x.bay { p with queued := false }
      | none => s

/-- Passes whose next share waits for room on a die go on (05 R139, 01 R22). -/
def State.passRoom (s : State) : State :=
  (s.engines.passes.filter (·.waitRoom)).foldl (fun (s : State) p => (s.setPass { p with waitRoom := false }).passAdvance p.inst (p.work + 1)) s

/-- Issue an attention pass (R191 to R194): its descriptor is checked, its rows are latched, its pages translated and routed, and the
stall blocks. A pass that finds 64 queued on its die waits for a place. A row of another bay is a protection fault (01 R26). -/
def State.attIssue (s : State) (r : StallRef) (off : Nat) (value : Bool) : State :=
  match s.engineRun r engineMxe with
  | none => s
  | some (i, x) =>
    if !x.desc.engines.testBit engineBse then s
    else if !x.inCrib off 64 then s.abortInst i causeProgram
    else
      let e := x.cribRead off 64
      let d := parseAtt e
      let die := dieOf x.core
      if d.op ≠ 1 ∧ d.op ≠ 2 then s.abortInst i causeProgram
      else if (d.op = 2) ≠ value then s
      else
        match AMap.get? s.engines.seqShapes (x.bay * 256 + x.desc.graph) with
        | none => s.abortInst i causeProgram
        | some h =>
          if !s.attOk x e h then s.abortInst i causeProgram
          else if !s.rowsHome x then s.abortInst i causeOutside
          else
            let list := s.rowsOf x
            let rows := (List.range list.length).filterMap fun n => (list[n]?).map fun w => s.passRow n w.index d.slots
            let p : AttPass :=
              { inst := i, die := die, core := x.core, lc := !x.desc.be, value := value, tap := d.flags % 2 = 1, allMxe := d.flags / 2 % 2 = 1
                heads := d.heads, selfTag := d.selfTag, layer := d.layer, scale := d.scale, qLat := d.qLat, qTally := d.qTally
                selfOff := d.selfOff, scoreArea := BitVec.ofNat 64 d.scoreArea, slots := d.slots, valueOff := d.valueOff
                workOff := d.work, rows := rows, queued := decide (s.attQueued die ≥ 64), waitRoom := false }
            let s1 : State := { s with engines := { s.engines with passes := s.engines.passes ++ [p] } }
            (if p.queued then s1 else s1.passStart x.bay p).refresh i

/-- A sheaf may use the bank-side engines, and a descriptor in its crib is not of the other kind. -/
def attFits (off : Nat) (value : Bool) (x : Inst) : Bool :=
  x.desc.engines.testBit engineBse && decide ((parseAtt (x.cribRead off 64)).op ≠ if value then 1 else 2)

/-- ATT_SCORE (R194). -/
def execAttScore (at_ : EngineRef) (descriptor : Nat) (s : State) : Host.Outcome State Fault Refusal :=
  s.done (s.tokened at_ engineMxe (fun _ => attFits descriptor false) fun s => s.attIssue at_.stall descriptor false)

/-- ATT_VALUE (R198). -/
def execAttValue (at_ : EngineRef) (descriptor : Nat) (s : State) : Host.Outcome State Fault Refusal :=
  s.done (s.tokened at_ engineMxe (fun _ => attFits descriptor true) fun s => s.attIssue at_.stall descriptor true)

/-! ### Records (R182) -/

/-- Bytes of the record of slot j of a page, with the physical pieces that hold it. -/
def recordPieces (g : PassPage) (record j : Nat) : List (Nat × Nat) :=
  (pageRuns (j * record) record).map fun r => ((g.leaves[r.1 / 65536]?).getD 0 + r.1 % 65536, r.2)

/-- The used records of a page for a row's slots, and whether a line read from them is marked. -/
def State.recordMarked (s : State) (g : PassPage) (record j : Nat) : Bool :=
  g.pageChaff || (recordPieces g record j).any fun a => s.physChaff a.1 a.2

def State.recordBytes (s : State) (g : PassPage) (record j : Nat) : Bytes :=
  (recordPieces g record j).flatMap fun a => s.physRead a.1 a.2

/-- Errors met while a page's used records are read, in the part of physical memory that the reader reads (R54, R206). -/
def State.meetRecords (s : State) (g : PassPage) (reads : Nat → Bool) (slots : List (Nat × Nat)) : State :=
  let record := ((kvFormat g.tag).map (·.record)).getD 64
  (slots.filter fun x => x.2 / 256 = g.page).foldl (fun s x =>
    ((recordPieces g record (x.2 % 256)).filter fun a => reads a.1).foldl (fun s a => s.meetUe a.1 a.2) s) s

/-- A record as the engines read it: its latent and its tally, widened (R182, R195), and whether it is marked. -/
structure KeyRecord where
  slot : Nat
  pos : Nat
  latent : List FVal
  tally : List FVal
  marked : Bool

/-- A record from its bytes. -/
def keyRecord (tag slot pos : Nat) (bs : Bytes) (marked : Bool) : KeyRecord :=
  match kvFormat tag with
  | none => ⟨slot, pos, [], [], marked⟩
  | some f =>
    let lat := vecBytes f.fmt f.width
    ⟨slot, pos, (List.range f.width).map fun i => decodeElem f.fmt (elemBits f.fmt bs i),
      (List.range 64).map fun i => decodeElem .bf16 (elemBits .bf16 (bs.drop lat) i), marked⟩

/-- The records of a row's unmasked slots, in slot order: of its pages, and the self record (R193). -/
def State.rowRecords (s : State) (x : Inst) (p : AttPass) (r : PassRow) : List KeyRecord :=
  let own := ((kvFormat p.selfTag).map (·.record)).getD 64
  let selfAt := p.selfOff + r.row * own
  ((pageSlots r.pos r.window r.globals).filterMap fun e =>
      (r.pages.find? fun g => g.page = e.2 / 256).map fun g =>
        let record := ((kvFormat g.tag).map (·.record)).getD 64
        keyRecord g.tag e.1 e.2 (s.recordBytes g record (e.2 % 256)) (s.recordMarked g record (e.2 % 256))) ++
    [keyRecord p.selfTag (selfSlot r.window r.globals) r.pos (x.cribRead selfAt own) (x.cribMarked selfAt own)]

/-! ### Results (R195, R197, R198) -/

/-- A score (R195): the products are exact, their sum is FP32 in an open order, and the scale multiplies it. -/
def scoreOf (s : State) (scale : FVal) (lat tally : List FVal) (k : KeyRecord) : State × FVal :=
  let terms := (lat.zip k.latent).map (fun a => mulExact a.1 a.2) ++ (tally.zip k.tally).map fun a => mulExact a.1 a.2
  let (s1, t) := fsum s terms
  (s1, fmul scale t)

/-- The slots of one row and head: a score in each unmasked slot, minus infinity in the others (R193). -/
def scoreSlots (s : State) (p : AttPass) (lat tally : List FVal) (ks : List KeyRecord) : State × Bytes :=
  (List.range p.slots).foldl (fun (a : State × Bytes) k =>
    match ks.find? fun r => r.slot = k with
    | some r =>
      let (s1, v) := scoreOf a.1 (of32 p.scale.toNat) lat tally r
      (s1, a.2 ++ leBytes 4 (bits32 v))
    | none => (a.1, a.2 ++ leBytes 4 0xFF800000)) (s, [])

/-- `n` bytes that the manual leaves open (log 5). -/
def State.drawBytes (s : State) (n : Nat) : State × Bytes :=
  ({ s with free := s.free + n }, (List.range n).map fun i => BitVec.setWidth 8 (Config.freeValue (s.free + i)))

/-- The score rows of a pass: address, bytes and mark of each row and head. The slots of a row with a shape fault are marked; their
contents are open (R196). -/
def State.scoreRows (s : State) (x : Inst) (p : AttPass) (h : SeqShape) : State × List (Nat × Bytes × Bool) :=
  let qf := queryFmt h.qfmt
  let qb := vecBytes qf h.elems
  p.rows.foldl (fun (a : State × List (Nat × Bytes × Bool)) r =>
    let ks := a.1.rowRecords x p r
    (List.range p.heads).foldl (fun (a : State × List (Nat × Bytes × Bool)) hd =>
      let n := r.row * p.heads + hd
      let va := p.scoreArea.toNat + n * p.slots * 4
      if r.shapeFault then
        let (s1, bs) := a.1.drawBytes (p.slots * 4)
        (s1, a.2 ++ [(va, bs, true)])
      else
        let lat := fpRow qf (x.cribRead (p.qLat + n * qb) qb) h.elems
        let tally := fpRow .bf16 (x.cribRead (p.qTally + n * 128) 128) 64
        let mark := ks.any (·.marked) || x.cribMarked (p.qLat + n * qb) qb || x.cribMarked (p.qTally + n * 128) 128
        let (s1, bs) := scoreSlots a.1 p lat tally ks
        (s1, a.2 ++ [(va, bs, mark)])) a) (s, [])

/-- The value result of one row and head: the sum of weight times latent over the unmasked slots (R198). -/
def valueOf (s : State) (weights : List FVal) (ks : List KeyRecord) (j : Nat) : State × FVal :=
  fsum s (ks.filterMap fun k => (k.latent[j]?).bind fun l => (weights[k.slot]?).map fun w => fmul w l)

/-- A row and head of the normalised scores: its weights and whether a line of it is marked, or the fault of reading it. -/
def State.readScores (s : State) (b : Nat) (p : AttPass) (n : Nat) : State × Except RunFault (List FVal × Bool) :=
  match s.readRun b (p.scoreArea.toNat + n * p.slots * 4) (p.slots * 4) (walkerEngine p.die p.core) with
  | (s1, .ok (bs, c)) => (s1, .ok ((List.range p.slots).map fun k => of32 (leAt bs (k * 4) 4), c))
  | (s1, .error f) => (s1, .error f)

/-! ### Tap records (R200) -/

/-- `SQ_TAP_CFG` and `SQ_TAP_SEL` fields as latched (R185, R200). -/
def StepLatch.tapSlots (l : StepLatch) : Nat := fld l.tapCfg 11 0
def StepLatch.tapLen (l : StepLatch) : Nat := fld l.tapCfg 27 12 * 64

/-- The bytes of a tap record: header, then as many entries as the slot holds. -/
def tapRecord (len : Nat) (steps : Word) (pos layer head : Nat) (chaff : Bool) (now : W64) (entries : List (Nat × Nat)) : Bytes :=
  let room := (len - 64) / 8
  let es := entries.take room
  let flags := (if chaff then 1 else 0) + if entries.length > room then 2 else 0
  leBytes 4 steps.toNat ++ leBytes 4 pos ++ leBytes 2 layer ++ leBytes 1 head ++ leBytes 1 flags ++ leBytes 4 es.length ++
    leBytes 8 now.toNat ++ List.replicate 40 0 ++ es.flatMap fun e => leBytes 4 e.1 ++ leBytes 4 e.2

/-- Write a tap record, or drop it and count it. One whose write faults is dropped: nothing waits for it. -/
def State.writeTap (s : State) (b : Nat) (p : AttPass) (r : PassRow) (head : Nat) (chaff : Bool) (entries : List (Nat × Nat)) : State :=
  let x := s.seqCtx r.q
  let l := x.latch
  let drop := fun (s : State) => (s.count16 (Reg.SQ_TAP_DROPPED r.q)).count32 Reg.ATT_TAP_DROPPED 1
  if s.tapFull r.q then drop s
  else
    let at_ := s.reg (Reg.SQ_TAP_HEAD r.q)
    let steps := (x.inflight.map (·.seq)).getD (s.reg (Reg.SQ_STEPS r.q))
    let bytes := tapRecord l.tapLen steps r.pos p.layer head chaff s.lic entries
    let va := l.tapBase.toNat + at_.toNat % l.tapSlots * l.tapLen
    match s.writeRun b va bytes chaff (walkerEngine p.die p.core) with
    | (s1, none) => s1.setReg (Reg.SQ_TAP_HEAD r.q) (at_ + 1)
    | (s1, some f) => drop (s1.raiseFault b f.va true (walkerEngine p.die p.core) f.cause f.level f.entry .none).1

/-- The head whose record the pass copies for a row, if the row's sequence taps this layer. -/
def State.tapHead (s : State) (p : AttPass) (r : PassRow) : Option Nat :=
  let v := (s.seqCtx r.q).latch.tapSel
  if p.tap && bit v 31 && fld v 6 0 = p.layer && decide (fld v 11 8 < p.heads) then some (fld v 11 8) else none

/-! ### The end of a pass -/

/-- Every share of a pass is done: nothing is left to translate, on the engines, or held on a fault. -/
def State.passReady (s : State) (p : AttPass) : Bool :=
  p.work = 0 && !p.queued && !s.engineFault p.inst &&
    !s.engines.shares.any fun sh => match sh.work with | .pass j _ _ => decide (j = p.inst) | .command _ => false

/-- The MXE path's fetches: errors are met, and the staging area holds what the fetches left there (R194; its layout is open). -/
def State.mxeFetch (s : State) (i : Nat) (p : AttPass) : State :=
  let pages := p.rows.flatMap fun r => (r.pages.filter (·.mxe)).map fun g => (r, g)
  if pages.isEmpty then s
  else
    let s1 := pages.foldl (fun (s : State) x => s.meetRecords x.2 (fun _ => true) (pageSlots x.1.pos x.1.window x.1.globals)) s
    let marked := pages.any fun x =>
      (pageSlots x.1.pos x.1.window x.1.globals).any fun e => e.2 / 256 = x.2.page &&
        s1.recordMarked x.2 (((kvFormat x.2.tag).map (·.record)).getD 64) (e.2 % 256)
    let (s2, bs) := s1.drawBytes workSize
    match s2.inst? i with
    | some x => s2.setInst i (x.cribWrite p.workOff bs marked)
    | none => s2

/-- The pass leaves its die's walker; its stall goes on. -/
def State.dropPass (s : State) (i : Nat) : State :=
  let die := ((s.pass? i).map (·.die)).getD 0
  let s1 : State := { s with engines := { s.engines with passes := s.engines.passes.filter fun p => p.inst ≠ i } }
  ((s1.refresh i).nextPass die).postOwed i

/-- Write the score rows to the loft (R192, R197): every page of the area is translated before a byte lands (log 15). -/
def State.scoreOut (s : State) (i : Nat) (p : AttPass) (x : Inst) (h : SeqShape) : State :=
  let en := walkerEngine p.die p.core
  match s.translateRun x.bay true en (pageRuns p.scoreArea.toNat (p.rows.length * p.heads * p.slots * 4)) with
  | (s1, .error f) => s1.takeFault x.bay f.va true en f.cause f.level f.entry (.engine i)
  | (s1, .ok l) =>
    match l.find? fun t => pteTier t.2.2.entry ≠ 0 with
    | some t => s1.takeFault x.bay t.1 true en .wrongTier ((leafLevel (pteSizeCode t.2.2.entry)).getD 4) t.2.2.entry (.engine i)
    | none =>
      let (s2, rows) := (s1.mxeFetch i p).scoreRows x p h
      (rows.foldl (fun (s : State) r => (s.writeRun x.bay r.1 r.2.1 r.2.2 en).1) s2).dropPass i

/-- The value results of one row and head, written to the crib, and its tap record (R198, R200). The record of a row with a shape fault is marked,
as the row's results are; it has the slots that the row holds. -/
def State.valueRow (s : State) (i : Nat) (p : AttPass) (h : SeqShape) (x : Inst) (r : PassRow) (hd : Nat)
    (scores : List FVal × Bool) : State :=
  let n := r.row * p.heads + hd
  let off := p.valueOff + n * h.elems * 4
  let put := fun (s : State) (bs : Bytes) (c : Bool) =>
    match s.inst? i with | some y => s.setInst i (y.cribWrite off bs c) | none => s
  if r.shapeFault then
    let (s1, bs) := s.drawBytes (h.elems * 4)
    let s2 := put s1 bs true
    if s2.tapHead p r = some hd then
      s2.writeTap x.bay p r hd true (((pageSlots r.pos r.window r.globals ++ [(selfSlot r.window r.globals, r.pos)]).filter fun k =>
        decide (k.1 < p.slots)).map fun k => (k.2, bits32 ((scores.1[k.1]?).getD (.fin false 0 0))))
    else s2
  else
    let ks := s.rowRecords x p r
    let mark := scores.2 || ks.any (·.marked)
    let (s1, bs) := (List.range h.elems).foldl (fun (a : State × Bytes) j =>
      let (t, v) := valueOf a.1 scores.1 ks j
      (t, a.2 ++ leBytes 4 (bits32 v))) (s, [])
    let s2 := put s1 bs mark
    if s2.tapHead p r = some hd then
      s2.writeTap x.bay p r hd mark (ks.map fun k => (k.pos, bits32 ((scores.1[k.slot]?).getD (.fin false 0 0))))
    else s2

/-- Read every row and head of the normalised scores, in order. -/
def State.readAllScores (s : State) (b : Nat) (p : AttPass) : List Nat → State × Except RunFault (List (List FVal × Bool))
  | [] => (s, .ok [])
  | n :: rest =>
    match s.readScores b p n with
    | (s1, .error f) => (s1, .error f)
    | (s1, .ok v) =>
      match s1.readAllScores b p rest with
      | (s2, .ok l) => (s2, .ok (v :: l))
      | (s2, .error f) => (s2, .error f)

/-- The results of a VALUE pass (R198). -/
def State.valueOut (s : State) (i : Nat) (p : AttPass) (x : Inst) (h : SeqShape) : State :=
  match s.readAllScores x.bay p (List.range (p.rows.length * p.heads)) with
  | (s1, .error f) => s1.takeFault x.bay f.va false (walkerEngine p.die p.core) f.cause f.level f.entry (.engine i)
  | (s1, .ok scores) =>
    let s2 := s1.mxeFetch i p
    (p.rows.foldl (fun (s : State) r =>
      (List.range p.heads).foldl (fun (s : State) hd =>
        s.valueRow i p h x r hd ((scores[r.row * p.heads + hd]?).getD ([], false))) s) s2).dropPass i

/-- A pass whose shares are all done writes its results, and its stall goes on (R197, R198). -/
def State.passDone (s : State) (i : Nat) : State :=
  match s.pass? i, s.inst? i with
  | some p, some x =>
    match AMap.get? s.engines.seqShapes (x.bay * 256 + x.desc.graph) with
    | none => s
    | some h => if !s.passReady p then s else if p.value then s.valueOut i p x h else s.scoreOut i p x h
  | _, _ => s

/-- ATTENTION_PASS_DONE (R197). -/
def execAttentionPassDone (inst : Nat) (s : State) : Host.Outcome State Fault Refusal := s.done (s.passDone inst)

/-! ### The end of a bank-side share (05 R138) -/

/-- A page share of an attention pass is done: its used records have been read, and its products count on its die (05 R141). -/
def State.passShareDone (s : State) (sh : BseShare) (i row page : Nat) : State :=
  let s1 := (s.dropShare sh).bseRoom
  match s1.pass? i with
  | none => s1
  | some p =>
    match p.rows.find? fun r => r.row = row with
    | none => s1
    | some r =>
      match r.pages.find? fun g => g.page = page with
      | none => s1
      | some g =>
        let slots := pageSlots r.pos r.window r.globals
        let record := ((kvFormat g.tag).map (·.record)).getD 64
        let width := ((kvFormat g.tag).map (·.width)).getD 0
        let used := (slots.filter fun e => e.2 / 256 = page &&
          ((g.leaves[e.2 % 256 * record / 65536]?).getD 0) / 0x100000000 = sh.die)
        let macs := used.length * p.heads * (width + if p.value then 0 else 64)
        ((s1.meetRecords g (fun a => decide (a / 0x100000000 = sh.die)) slots).countWrap (Reg.BSE_CMDS sh.die) 1).count64 (Reg.BSE_MAC_LO sh.die)
          (Reg.BSE_MAC_HI sh.die) macs

/-- A bank-side share is done. Only a share of the command that its die has taken can be (05 R139). -/
def State.shareDone (s : State) (id : Nat) : State :=
  match s.engines.shares.find? fun sh => sh.id = id && sh.taken with
  | none => s
  | some sh =>
    match sh.work with
    | .command c => (s.commandShareDone sh c).passRoom
    | .pass i row page => (s.passShareDone sh i row page).passRoom

/-- BSE_SHARE_DONE (05 R138). -/
def execBseShareDone (share : Nat) (s : State) : Host.Outcome State Fault Refusal := s.done (s.shareDone share)

end Sys2Proof.Machine
end

