-- ==== Sys2Proof/Machine/RoceOps.lean ====
section
/-! DEFINITION. RoCEv2 connections as the fetch engines, the copy channels and the Bale engine use them (10 R260 to R263, 03 R63). -/

namespace Sys2Proof.Machine

/-! ### Fields of a connection (10 R266) -/

def State.connPeer (s : State) (c : Nat) : Nat := fld (s.reg (Reg.EB_CONN_CTRL c)) 13 0
def State.connBay (s : State) (c : Nat) : Nat := fld (s.reg (Reg.EB_CONN_CTRL c)) 17 14
def State.connBe (s : State) (c : Nat) : Bool := bit (s.reg (Reg.EB_CONN_CTRL c)) 18
def State.connOffset (s : State) (c : Nat) : Bool := bit (s.reg (Reg.EB_CONN_CTRL c)) 19
/-- Path MTU in bytes. -/
def State.connMtu (s : State) (c : Nat) : Nat := 1024 * 2 ^ fld (s.reg (Reg.EB_CONN_CTRL c)) 21 20
def State.connRetry (s : State) (c : Nat) : Nat := fld (s.reg (Reg.EB_CONN_CTRL c)) 29 27

/-- A connection in RTS that sends: its error is not under way (R263). -/
def State.connReady (s : State) (c : Nat) : Bool := (s.conn c).state = .rts && (s.conn c).failing.isNone

/-- The connection that a remote access takes: in RTS with the peer and bay, of the instance's class if there is one (R262). -/
def State.remoteConn (s : State) (b peer : Nat) (be : Bool) : Option Nat :=
  let fits := fun (c : Nat) => s.connReady c && s.connPeer c = peer && s.connBay c = b
  match s.net.conns.find? fun e => fits e.1 && s.connBe e.1 = be with
  | some e => some e.1
  | none => (s.net.conns.find? fun e => fits e.1).map (·.1)

/-- Peer device and address within its export window of a remote leaf (03 R63, R262). -/
def remotePeer (e : W64) : Nat := pteFrame e / 2 ^ 26
def remoteAddr (t : Translation) (va : Nat) : Nat := pteFrame t.entry % 2 ^ 26 * 4096 + va % t.size

/-- Packets of a message of a length. -/
def State.packets (s : State) (c len : Nat) : Nat := max 1 (ceilDiv len (s.connMtu c))

/-- Packet sequence numbers that a request takes: those of its own packets, or of the response to a READ (R260). -/
def State.wirePackets (s : State) (c : Nat) : WireRequest → Nat
  | .read _ len => s.packets c len
  | .write _ data => s.packets c data.length
  | .send data => s.packets c data.length

/-- The packets of a request, with the connection's outbound key. -/
def State.wire (s : State) (c psn : Nat) : WireRequest → Sent
  | .read addr len => .rdmaRead c psn (s.reg (Reg.EB_CONN_RKEY_OUT c)) (BitVec.ofNat 64 addr) len
  | .write addr data => .rdmaWrite c psn (s.reg (Reg.EB_CONN_RKEY_OUT c)) (BitVec.ofNat 64 addr) data
  | .send data => .rdmaSend c psn data

/-- A request leaves, with the packet sequence numbers that its message takes. -/
def State.sendRequest (s : State) (c : Nat) (r : ConnRequest) (w : WireRequest) : State :=
  let x := s.conn c
  (s.setConn c { x with sendPsn := (x.sendPsn + s.wirePackets c w) % 2 ^ 24, requests := x.requests ++ [(x.sendPsn, r)] }).emit
    (s.wire c x.sendPsn w)

/-- The length that a read asked for, none for a request that is no read. -/
def ConnRequest.wants (r : ConnRequest) : Option Nat :=
  match r with
  | .read _ _ _ len _ _ => some len
  | .copyRead _ _ _ _ len => some len
  | .gleaned _ _ _ len true => some len
  | _ => none

/-- A request must wait: 16 READs are outstanding, and it is another (R260). -/
def Conn.mustWait (x : Conn) (w : WireRequest) : Bool :=
  match w with
  | .read _ _ => decide ((x.requests.filter fun r => r.2.wants.isSome).length ≥ 16)
  | _ => false

/-- A request goes onto a connection: it leaves, or waits behind others in order (01 R22). -/
def State.postRequest (s : State) (c : Nat) (r : ConnRequest) (w : WireRequest) : State :=
  let x := s.conn c
  if x.waits.isEmpty && !x.mustWait w then s.sendRequest c r w else s.setConn c { x with waits := x.waits ++ [(r, w)] }

/-- Requests that waited leave, as far as they may. -/
def State.releaseWaits (s : State) (c : Nat) : Nat → State
  | 0 => s
  | n + 1 =>
    let x := s.conn c
    match x.waits with
    | [] => s
    | e :: rest => if x.mustWait e.2 then s else ((s.setConn c { x with waits := rest }).sendRequest c e.1 e.2).releaseWaits c n

def State.postRead (s : State) (c : Nat) (r : ConnRequest) (addr len : Nat) : State := s.postRequest c r (.read addr len)

def State.postWrite (s : State) (c : Nat) (r : ConnRequest) (addr : Nat) (bs : Bytes) : State := s.postRequest c r (.write addr bs)

/-- Requests in flight of an instance, and of one of its programs. -/
def ConnRequest.ofInst (r : ConnRequest) (i : Nat) : Bool :=
  match r with
  | .read j _ _ _ _ _ => j = i
  | .write j _ _ _ => j = i
  | _ => false

def ConnRequest.ofProg (r : ConnRequest) (i : Nat) (k : ProgKind) : Bool :=
  match r with
  | .read j p _ _ _ _ => j = i && p = k
  | .write j p _ _ => j = i && p = k
  | _ => false

def ConnRequest.ofChannel (r : ConnRequest) (b ch : Nat) : Bool :=
  match r with
  | .copyRead c d _ _ _ => c = b && d = ch
  | .copyWrite c d _ _ => c = b && d = ch
  | _ => false

/-- A request of a copy transfer that is given up: nothing of it lands any more. -/
def ConnRequest.glean (r : ConnRequest) (serial : Option Nat) : ConnRequest :=
  match r with
  | .copyRead b _ src _ len => .gleaned b serial src len true
  | .copyWrite b _ dst len => .gleaned b serial dst len false
  | _ => r

/-- A request belongs to the gleaning of a number in a bay. -/
def ConnRequest.ofGlean (r : ConnRequest) (b serial : Nat) : Bool :=
  match r with
  | .gleaned c n _ _ _ => c = b && n = some serial
  | _ => false

/-- The requests in flight that pass a test are given up; those that have not left never do. -/
def State.gleanRequests (s : State) (p : ConnRequest → Bool) (serial : Option Nat) : State :=
  { s with net := { s.net with conns := AMap.mapVals (fun _ k =>
      { k with
        requests := k.requests.map fun r => if p r.2 then (r.1, r.2.glean serial) else r
        waits := k.waits.filter fun r => !p r.1 }) s.net.conns } }

/-- Some connection has a request that passes a test, in flight or waiting to leave. -/
def State.anyRequest (s : State) (p : ConnRequest → Bool) : Bool :=
  s.net.conns.any fun e => (e.2.requests.any fun r => p r.2) || e.2.waits.any fun r => p r.1

/-- A frame that a failing connection no longer sends: any but the NAK that names the error. -/
def Sent.stopped (c : Nat) (x : Sent) : Bool :=
  x.conn = some c && match x with | .roceNak _ _ _ => false | _ => true

/-- A cause moves a connection towards ERROR: it sends nothing further, and waits for the packet lifetime (R263). -/
def State.startError (s : State) (c cause : Nat) : State :=
  let x := s.conn c
  if x.state = .rts && x.failing.isNone then (s.setConn c { x with failing := some cause }).dropFrames (Sent.stopped c) else s

end Sys2Proof.Machine
end

