-- ==== Sys2Proof/Machine/Scan.lean ====
section
/-! DEFINITION. The scan engine (07): XS48 numbers, the prefix scan of a chunk, thaw, the state mover and the SCAN instruction. -/

namespace Sys2Proof.Machine

/-! ### XS48 and FP32 state numbers (R171) -/

/-- A state number: its FP32 value, and its residual in units of 2^-16 ulp, 0 for an FP32 block. -/
structure Num where
  v : FVal
  r : Int
  deriving DecidableEq, Repr

/-- Saturations of one kind of operation: all of them, and OVER and NONFINITE among them (R179). -/
structure Sats where
  all : Nat
  overs : Nat
  deriving DecidableEq, Repr

def Sats.none : Sats := ⟨0, 0⟩
def Sats.add (a b : Sats) : Sats := ⟨a.all + b.all, a.overs + b.overs⟩

/-- The exponent of ulp(v) (R171). -/
def ulpExp (v : FVal) : Int := (fld (w32 (bits32 v)) 30 23 : Nat) - 127 - 23

/-- The value that a state number represents. -/
def Num.value (n : Num) : FVal :=
  if n.r = 0 then n.v else addExact n.v (.fin (decide (n.r < 0)) n.r.natAbs (ulpExp n.v - 16))

/-- FP32 of an exact result of XS48: zero of its sign for every magnitude below 2^-126, before any rounding (R171). -/
def flush32 (x : FVal) : FVal :=
  match x with
  | .fin neg man exp => if man = 0 ∨ exp + (man.log2 : Int) < -126 then .fin neg 0 0 else round32 x
  | v => v

/-- Round an exact result to a state number, with what saturates (R171; an FP32 block rounds under R117). -/
def toNum (xs : Bool) (x : FVal) : Num × Sats :=
  match if xs then flush32 x else round32 x with
  | .fin neg man exp =>
    let v := FVal.fin neg man exp
    if !xs || man = 0 then (⟨v, 0⟩, .none)
    else
      match addExact x v.negate with
      | .fin n m e =>
        let r := nearestInt n m (e - (ulpExp v - 16))
        if r > 32767 then (⟨v, 32767⟩, ⟨1, 0⟩) else (⟨v, max r (-32768)⟩, .none)
      | _ => (⟨v, 0⟩, .none)
  | v => (⟨v, 0⟩, ⟨1, 1⟩)

/-- A term on its way to a sum: its value, the number if it has been rounded, and the saturations so far. -/
structure Term where
  x : FVal
  num : Option Num
  sats : Sats
  deriving DecidableEq, Repr

/-- A term rounded. -/
def Term.round (xs : Bool) (t : Term) : Term :=
  match t.num with
  | some _ => t
  | none => let (n, c) := toNum xs t.x; ⟨n.value, some n, t.sats.add c⟩

def Term.ofNum (n : Num) : Term := ⟨n.value, some n, .none⟩

/-- A sum of products and addends (R169 to R171; log 21). The products are exact. An XS48 block rounds the exact sum once; in an FP32 block each
addition rounds, in an open order (05 R120). -/
def sumProducts (xs : Bool) (s : State) (prods : List (FVal × FVal)) (adds : List Num) : State × Num × Sats :=
  let all := (prods.map fun p => (⟨mulExact p.1 p.2, none, .none⟩ : Term)) ++ adds.map Term.ofNum
  let add := fun (a b : Term) => ({ x := addExact a.x b.x, num := none, sats := a.sats.add b.sats } : Term)
  let (s2, t) : State × Term :=
    if xs then (s, match all with | [] => ⟨.fin false 0 0, none, .none⟩ | t :: rest => rest.foldl add t)
    else sumOpen (fun s a b => (s, (add a b).round false)) ⟨.fin false 0 0, none, .none⟩ all.length s all
  let out := t.round xs
  (s2, (out.num).getD ⟨out.x, 0⟩, out.sats)

/-! ### Composition (R164, R169) -/

/-- A coefficient of a scan element: the exact zero of a reset, the one of the padding, or numbers: one, a complex pair, or a matrix. -/
inductive Coef where
  | zero
  | one
  | val (l : List Num)
  deriving DecidableEq, Repr

/-- The products of each component of a·v: a number, a complex product, a matrix and a vector. -/
def applyProducts (kind : Nat) (a v : List FVal) : List (List (FVal × FVal)) :=
  let g := fun (l : List FVal) i => (l[i]?).getD (.fin false 0 0)
  if kind = 2 then
    [[(g a 0, g v 0), ((g a 1).negate, g v 1)], [(g a 0, g v 1), (g a 1, g v 0)]]
  else if kind = 3 then
    [[(g a 0, g v 0), (g a 1, g v 1)], [(g a 2, g v 0), (g a 3, g v 1)]]
  else [[(g a 0, g v 0)]]

/-- The products of each component of a2·a1. -/
def composeProducts (kind : Nat) (a2 a1 : List FVal) : List (List (FVal × FVal)) :=
  if kind = 3 then
    let g := fun (l : List FVal) i => (l[i]?).getD (.fin false 0 0)
    [[(g a2 0, g a1 0), (g a2 1, g a1 2)], [(g a2 0, g a1 1), (g a2 1, g a1 3)],
     [(g a2 2, g a1 0), (g a2 3, g a1 2)], [(g a2 2, g a1 1), (g a2 3, g a1 3)]]
  else applyProducts kind a2 a1

/-- Each component's sum of products, with its addend. -/
def components (xs : Bool) (s : State) (ps : List (List (FVal × FVal))) (adds : List Num) : State × List Num × Sats :=
  (List.range ps.length).foldl (fun (a : State × List Num × Sats) i =>
    let (s1, n, c) := sumProducts xs a.1 ((ps[i]?).getD []) ((adds[i]?).toList)
    (s1, a.2.1 ++ [n], a.2.2.add c)) (s, [], .none)

def values (l : List Num) : List FVal := l.map Num.value

/-- An element of the scan: coefficient and addend. -/
structure ScanEl where
  a : Coef
  b : List Num
  deriving DecidableEq, Repr

/-- a·h + b, the exact zero and the one aside (R165). -/
def applyCoef (xs : Bool) (kind : Nat) (s : State) (a : Coef) (h b : List Num) : State × List Num × Sats :=
  match a with
  | .zero => (s, b, .none)
  | .one => components xs s (h.map fun n => [(n.value, FVal.fin false 1 0)]) b
  | .val l => components xs s (applyProducts kind (values l) (values h)) b

/-- compose((a2, b2), (a1, b1)) (R169). The one of the padding passes the other element through. -/
def compose (xs : Bool) (kind : Nat) (s : State) (e2 e1 : ScanEl) : State × ScanEl × Sats :=
  match e2.a with
  | .one => (s, e1, .none)
  | .zero => (s, e2, .none)
  | .val l2 =>
    let (s1, a, c1) : State × Coef × Sats :=
      match e1.a with
      | .zero => (s, .zero, .none)
      | .one => (s, e2.a, .none)
      | .val l1 => let (t, l, c) := components xs s (composeProducts kind (values l2) (values l1)) []; (t, .val l, c)
    let (s2, b, c2) := applyCoef xs kind s1 e2.a e1.b e2.b
    (s2, ⟨a, b⟩, c1.add c2)

/-- One level of the scan at a distance: every composition reads the previous level's values. -/
def scanLevel (xs : Bool) (kind d : Nat) (acc : State × List ScanEl × Sats) : State × List ScanEl × Sats :=
  let e := acc.2.1
  let zero : ScanEl := ⟨.one, []⟩
  (List.range e.length).foldl (fun (a : State × List ScanEl × Sats) t =>
    if t < d then (a.1, a.2.1 ++ [(e[t]?).getD zero], a.2.2)
    else
      let (s1, n, c) := compose xs kind a.1 ((e[t]?).getD zero) ((e[t - d]?).getD zero)
      (s1, a.2.1 ++ [n], a.2.2.add c)) (acc.1, [], acc.2.2)

/-- Levels of a chunk of l steps: the power of two that reaches it. -/
def levelsOf (l : Nat) : Nat := if l ≤ 1 then 0 else (l - 1).log2 + 1

/-- The composites of a chunk: its elements padded with the identity, then scanned by levels (R169). -/
def scanComposites (xs : Bool) (kind : Nat) (s : State) (els : List ScanEl) : State × List ScanEl × Sats :=
  let n := levelsOf els.length
  let padded := els ++ List.replicate (2 ^ n - els.length) ⟨.one, []⟩
  let (s1, e, c) := (List.range n).foldl (fun a k => scanLevel xs kind (2 ^ k) a) (s, padded, .none)
  (s1, e.take els.length, c)

/-- The states of a chunk of one element of the state: its composites applied to the carried state (R169). -/
def scanChunk (xs : Bool) (kind : Nat) (s : State) (els : List ScanEl) (h0 : List Num) : State × List (List Num) × Sats :=
  let (s1, e, c) := scanComposites xs kind s els
  e.foldl (fun (a : State × List (List Num) × Sats) x =>
    let (s2, h, c2) := applyCoef xs kind a.1 x.a h0 x.b
    (s2, a.2.1 ++ [h], a.2.2.add c2)) (s1, [], c)

/-! ### The descriptor (R166, R167) -/

structure ScanDesc where
  kind : Nat
  flags : Nat
  n : Nat
  block : Nat
  first : Nat
  count : Nat
  stateOff : Nat
  a : Nat
  b : Nat
  c : Nat
  d : Nat
  x : Nat
  y : Nat
  work : Nat
  formats : Nat
  deriving DecidableEq, Repr

def parseScan (e : Bytes) : ScanDesc :=
  { kind := leAt e 0 1, flags := leAt e 1 1, n := leAt e 2 2, block := leAt e 4 2, first := leAt e 6 2, count := leAt e 8 2
    stateOff := leAt e 0xC 4, a := leAt e 0x10 4, b := leAt e 0x14 4, c := leAt e 0x18 4, d := leAt e 0x1C 4, x := leAt e 0x20 4
    y := leAt e 0x24 4, work := leAt e 0x28 4, formats := leAt e 0x2C 1 }

def ScanDesc.flag (d : ScanDesc) (i : Nat) : Bool := d.flags.testBit i
def ScanDesc.xs (d : ScanDesc) : Bool := d.flag 0
def ScanDesc.aStep (d : ScanDesc) : Bool := d.flag 1
def ScanDesc.cStep (d : ScanDesc) : Bool := d.flag 2
def ScanDesc.hasD (d : ScanDesc) : Bool := d.flag 3
def ScanDesc.thaw (d : ScanDesc) : Bool := d.flag 4
def ScanDesc.load (d : ScanDesc) : Bool := d.flag 5
def ScanDesc.store (d : ScanDesc) : Bool := d.flag 6
/-- Numbers of a state, and of a coefficient a. -/
def ScanDesc.parts (d : ScanDesc) : Nat := if d.kind ≥ 2 then 2 else 1
def ScanDesc.aParts (d : ScanDesc) : Nat := if d.kind = 3 then 4 else d.parts
/-- Real state elements of one channel, of a row's range, of the whole block. -/
def ScanDesc.perChannel (d : ScanDesc) : Nat := d.n * d.parts
def ScanDesc.rowEls (d : ScanDesc) : Nat := d.count * d.perChannel
def ScanDesc.blockEls (d : ScanDesc) : Nat := d.block * d.perChannel
/-- Bytes of an element of b, c and x, and of y. -/
def ScanDesc.inSize (d : ScanDesc) : Nat := if d.formats.testBit 0 then 2 else 4
def ScanDesc.inFmt (d : ScanDesc) : Fmt := if d.formats.testBit 0 then .bf16 else .fp32
def ScanDesc.outFmt (d : ScanDesc) : Fmt := if d.formats.testBit 1 then .bf16 else .fp32
def ScanDesc.outSize (d : ScanDesc) : Nat := if d.formats.testBit 1 then 2 else 4
/-- An EMA has no b, c and d; x is used by an EMA and by the d term. -/
def ScanDesc.ema (d : ScanDesc) : Bool := d.kind = 0
def ScanDesc.usesX (d : ScanDesc) : Bool := d.ema || d.hasD
/-- Bytes of the working state of one row (R166). -/
def ScanDesc.workRow (d : ScanDesc) : Nat := d.rowEls * 8 + if d.thaw then d.count * 4 else 0

/-- No operand. -/
def noOperand : Nat := 0xFFFFFFFF

def pad64 (n : Nat) : Nat := ceilDiv n 64 * 64

/-- Planes of a block in a copy body: offsets of the residual and thaw planes, and the block's length (R172). -/
def ScanDesc.residualAt (d : ScanDesc) : Nat := pad64 (d.blockEls * 4)
def ScanDesc.thawAt (d : ScanDesc) : Nat := d.residualAt + if d.xs then pad64 (d.blockEls * 2) else 0
def ScanDesc.blockLen (d : ScanDesc) : Nat := d.thawAt + if d.thaw then pad64 (d.block * 4) else 0

/-- The operand areas of an instruction for R rows and L steps: offset, length, whether it is used. -/
def ScanDesc.areas (d : ScanDesc) (rows steps : Nat) : List (Nat × Nat × Bool) :=
  let ch := d.count * d.n
  [(d.a, ch * d.aParts * 4 * (if d.aStep then rows * steps else 1), true),
   (d.b, ch * d.parts * d.inSize * (rows * steps), !d.ema),
   (d.c, ch * d.parts * d.inSize * (if d.cStep then rows * steps else 1), !d.ema),
   (d.d, d.count * 4, d.hasD && !d.ema),
   (d.x, d.count * d.inSize * (rows * steps), d.usesX),
   (d.y, d.count * d.outSize * (rows * steps), true),
   (d.work, rows * d.workRow, true)]

/-- A descriptor meets R164, R166 and R167 for a sheaf; flags [7] and formats [7:2] are reserved, and ignored (00 R10). -/
def scanOk (x : Inst) (e : Bytes) (streams : Bool) : Bool :=
  let d := parseScan e
  let nMax := if d.kind = 0 then 1 else if d.kind = 1 then 256 else 128
  decide (d.kind ≤ 3 ∧ 1 ≤ d.n ∧ d.n ≤ nMax ∧ 1 ≤ d.block ∧ d.block ≤ 16384 ∧ 1 ≤ d.count ∧
    d.first + d.count ≤ d.block ∧ d.stateOff % 64 = 0 ∧ d.rowEls ≤ 65536) &&
    (!d.thaw || d.ema) && !(d.hasD && d.ema) && leAt e 0xA 2 = 0 && allZero (slice e 0x2D 19) &&
    (d.areas x.desc.rowCount x.desc.steps).all (fun a =>
      if a.2.2 then cribOffOk a.1 && x.inCrib a.1 a.2.1 else decide (a.1 = noOperand)) &&
    (streams || !(d.load || d.store))

/-- Lane operations of an instruction (R168). -/
def ScanDesc.laneOps (d : ScanDesc) (rows steps : Nat) : Nat :=
  let k := levelsOf steps
  let comps := 2 ^ k * k - (2 ^ k - 1)
  let m := if d.xs then 4 else 1
  let costs : Nat × Nat × Nat := match d.kind with | 0 => (2, 2, 0) | 1 => (2, 1, 1) | 2 => (8, 4, 2) | _ => (12, 6, 2)
  let per := d.n * (m * (costs.1 * comps + costs.2.1 * steps) + costs.2.2 * steps)
  rows * d.count * (per + (if d.hasD then steps else 0) + if d.thaw then 2 * comps + 3 * steps else 0)

/-! ### Operands in the crib -/

/-- One number of an operand area. -/
def Inst.operand (x : Inst) (f : Fmt) (base i : Nat) : FVal :=
  let sz := vecBytes f 1
  decodeElem f (leNat (x.cribRead (base + i * sz) sz))

/-- Numbers `i` to `i + k - 1` of an operand area. -/
def Inst.operands (x : Inst) (f : Fmt) (base i k : Nat) : List FVal := (List.range k).map fun j => x.operand f base (i + j)

/-- The first number of an operand at row, step, channel and state, `per` numbers a state (R167). -/
def opIndex (step : Bool) (steps count n per row t ch k : Nat) : Nat :=
  (((if step then row * steps + t else 0) * count + ch) * n + k) * per

/-- A state number in the working state: an FP32 word, then the residual (log 21). -/
def Inst.workNum (x : Inst) (xs : Bool) (off : Nat) : Num :=
  ⟨of32 (leNat (x.cribRead off 4)), if xs then signedOf 16 (leNat (x.cribRead (off + 4) 2)) else 0⟩

def numBytes (n : Num) : Bytes := leBytes 4 (bits32 n.v) ++ leBytes 2 (natOfInt 16 n.r) ++ [0, 0]

/-! ### The rows of an instruction -/

/-- What a row brings to an instruction: its stream, its reset steps, its state and thaw products as loaded or as the working state
holds them, the mark on them, and what the header's check and the load found. -/
structure ScanRow where
  row : Nat
  sid : Option Nat
  resets : List Nat
  state : List Num
  thaw : List FVal
  marked : Bool
  scan : RowScan
  mismatch : Bool
  bytes : Nat
  deriving DecidableEq, Repr

/-- The reset steps of each row: of its batch, or of the mask words in memory (R154, 04 R88). -/
def State.rowResets (s : State) (x : Inst) : State × Except RunFault (List (List Nat)) :=
  match x.chain.bind fun c => AMap.get? (s.batcher x.bay).slots c with
  | some b => (s, .ok (b.rows.map (·.resets)))
  | none =>
    if x.desc.resetMasks = 0 then (s, .ok (List.replicate x.desc.rowCount []))
    else
      match s.readRun x.bay x.desc.resetMasks.toNat (x.desc.steps * 8) (fxeEngine x.core) with
      | (s1, .error f) => (s1, .error f)
      | (s1, .ok (bs, _)) =>
        (s1, .ok ((List.range x.desc.rowCount).map fun i =>
          (List.range x.desc.steps).filter fun t => (leAt bs (t * 8) 8).testBit i))

/-- The header of a copy passes the checks of R174 step 1 for a row and a block. -/
def headerOk (h : Bytes) (gen : Word) (sid endAt : Nat) : Bool :=
  leAt h 0 4 = 0x58533438 && leAt h 0x3C 4 = (crc32c (h.take 0x3C)).toNat && leAt h 4 4 = gen.toNat &&
    leAt h 8 2 % 16384 = sid && decide (endAt ≤ leAt h 0xC 4 * 64)

/-- What an earlier instruction of the chunk found for a row: in this attempt, or in an earlier sheaf of the chain. -/
def State.rowScanOf (s : State) (x : Inst) (row : Nat) : RowScan :=
  let here := AMap.getD x.scan row .zero
  match (x.chain.bind fun c => AMap.get? (s.batcher x.bay).slots c).bind fun b => b.rows[row]? with
  | some r => { here with
      checked := here.checked || r.scan.checked, badHeader := here.badHeader || r.scan.badHeader
      loadChaff := here.loadChaff || r.scan.loadChaff }
  | none => here

/-- The planes of a range in a copy body: offset within the block and length (R172). -/
def ScanDesc.ranges (d : ScanDesc) : List (Nat × Nat) :=
  [(d.first * d.perChannel * 4, d.rowEls * 4)] ++ (if d.xs then [(d.residualAt + d.first * d.perChannel * 2, d.rowEls * 2)] else []) ++
    if d.thaw then [(d.thawAt + d.first * 4, d.count * 4)] else []

/-- The state numbers and thaw products that the planes of a range spell. -/
def ScanDesc.ofPlanes (d : ScanDesc) (bs : List Bytes) : List Num × List FVal :=
  let plane := fun i => (bs[i]?).getD []
  ((List.range d.rowEls).map fun i =>
      ⟨of32 (leAt (plane 0) (i * 4) 4), if d.xs then signedOf 16 (leAt (plane 1) (i * 2) 2) else 0⟩,
    if d.thaw then (List.range d.count).map fun i => of32 (leAt (plane (if d.xs then 2 else 1)) (i * 4) 4) else [])

/-- The planes of a range from state numbers and thaw products. -/
def ScanDesc.toPlanes (d : ScanDesc) (st : List Num) (th : List FVal) : List Bytes :=
  [st.flatMap fun n => leBytes 4 (bits32 n.v)] ++ (if d.xs then [st.flatMap fun n => leBytes 2 (natOfInt 16 n.r)] else []) ++
    if d.thaw then [th.flatMap fun p => leBytes 4 (bits32 p)] else []

/-- Read several virtual runs in turn, with the marks met. -/
def State.readRuns (s : State) (b : Nat) (en : Engine) : List (Nat × Nat) → State × Except RunFault (List Bytes × Bool)
  | [] => (s, .ok ([], false))
  | (va, len) :: rest =>
    match s.readRun b va len en with
    | (s1, .error f) => (s1, .error f)
    | (s1, .ok (bs, c)) =>
      match s1.readRuns b en rest with
      | (s2, .error f) => (s2, .error f)
      | (s2, .ok (l, c2)) => (s2, .ok (bs :: l, c || c2))

/-- Load a row's range from its copy (R174 steps 1 and 2): the header is read and checked at the chunk's first LOAD. -/
def State.loadRow (s : State) (x : Inst) (d : ScanDesc) (sid : Nat) (sc : RowScan) :
    State × Except RunFault (List Num × List FVal × Bool × RowScan × Bool) :=
  let gen := s.reg (Reg.SC_STATE_GEN sid)
  let va := s.copyVa sid gen
  let en := fxeEngine x.core
  let head : State × Except RunFault (RowScan × Bool) :=
    if sc.checked then (s, .ok (sc, false))
    else
      match s.readRun x.bay va 64 en with
      | (s1, .error f) => (s1, .error f)
      | (s1, .ok (h, _)) =>
        if headerOk h gen sid (d.stateOff + d.blockLen) then
          (s1, .ok ({ sc with checked := true, loadChaff := leAt h 0xA 1 % 2 = 1 }, false))
        else (s1, .ok ({ sc with checked := true, badHeader := true, mismatches := sc.mismatches + 1 }, true))
  match head with
  | (s1, .error f) => (s1, .error f)
  | (s1, .ok (sc1, bad)) =>
    match s1.readRuns x.bay en (d.ranges.map fun r => (va + 64 + d.stateOff + r.1, r.2)) with
    | (s2, .error f) => (s2, .error f)
    | (s2, .ok (bs, c)) =>
      let (st, th) := d.ofPlanes bs
      (s2, .ok (st, th, c || sc1.badHeader || sc1.loadChaff, sc1, bad))

/-- A row's working state as the crib holds it. -/
def Inst.workState (x : Inst) (d : ScanDesc) (row : Nat) : List Num × List FVal × Bool :=
  let at_ := d.work + row * d.workRow
  ((List.range d.rowEls).map fun i => x.workNum d.xs (at_ + i * 8),
    (if d.thaw then (List.range d.count).map fun i => of32 (leNat (x.cribRead (at_ + d.rowEls * 8 + i * 4) 4)) else []),
    x.cribMarked at_ d.workRow)

/-- The thaw products of a row that reads no body: they are carried unchanged from a copy that is not read, so what they are is open
where thaw is off; where thaw runs, the reset at step 0 replaces them (R174, R180). -/
def drawThaw (s : State) (n : Nat) : State × List FVal :=
  (List.range n).foldl (fun (a : State × List FVal) _ => let (v, t) := a.1.draw; (t, a.2 ++ [of32 (v.toNat % 2 ^ 32)])) (s, [])

/-- What each row brings. -/
def State.scanRows (s : State) (x : Inst) (d : ScanDesc) (resets : List (List Nat)) :
    List (Nat × RowEntry) → State × Except RunFault (List ScanRow)
  | [] => (s, .ok [])
  | (i, r) :: rest =>
    let rs := (resets[i]?).getD []
    let sc := s.rowScanOf x i
    let sid := if r.seq then none else some r.index
    let one : State × Except RunFault ScanRow :=
      if !d.load then
        let w := x.workState d i
        (s, .ok ⟨i, sid, rs, w.1, w.2.1, w.2.2, sc, false, 0⟩)
      else if rs.contains 0 then
        let (s1, th) := drawThaw s (if d.thaw then d.count else 0)
        (s1, .ok ⟨i, sid, rs, List.replicate d.rowEls ⟨.fin false 0 0, 0⟩, th, false, sc, false, 0⟩)
      else
        match s.loadRow x d r.index sc with
        | (s1, .error f) => (s1, .error f)
        | (s1, .ok (st, th, c, sc1, bad)) => (s1, .ok ⟨i, sid, rs, st, th, c, sc1, bad, (d.ranges.map (·.2)).sum⟩)
    match one with
    | (s1, .error f) => (s1, .error f)
    | (s1, .ok o) =>
      match s1.scanRows x d resets rest with
      | (s2, .error f) => (s2, .error f)
      | (s2, .ok l) => (s2, .ok (o :: l))

/-! ### A row's scan -/

/-- The addend of one state at one step: b, or (1 - α)·x for an EMA, formed in the block's arithmetic (R164). -/
def scanAddend (s : State) (x : Inst) (d : ScanDesc) (steps row t ch k : Nat) (a : List FVal) : State × List Num × Sats :=
  if d.ema then
    let one := FVal.fin false 1 0
    let alpha := (a.head?).getD one
    let xv := x.operand d.inFmt d.x (opIndex true steps d.count 1 1 row t ch 0)
    let (v, s1) := s.draw
    let gap : Term := ⟨addExact one alpha.negate, none, .none⟩
    let g := if bit v 0 then gap.round d.xs else gap
    let out := ({ x := mulExact g.x xv, num := none, sats := g.sats } : Term).round d.xs
    (s1, [(out.num).getD ⟨out.x, 0⟩], out.sats)
  else
    (s, (x.operands d.inFmt d.b (opIndex true steps d.count d.n d.parts row t ch k) d.parts).map fun v => ⟨v, 0⟩, .none)

/-- The states of one state element over the chunk. -/
def scanElement (s : State) (x : Inst) (d : ScanDesc) (steps : Nat) (r : ScanRow) (ch k : Nat) : State × List (List Num) × Sats :=
  let base := (ch * d.n + k) * d.parts
  let h0 := (r.state.drop base).take d.parts
  let (s1, els, c1) := (List.range steps).foldl (fun (acc : State × List ScanEl × Sats) t =>
    let a := x.operands .fp32 d.a (opIndex d.aStep steps d.count d.n d.aParts r.row t ch k) d.aParts
    let (s2, b, c) := scanAddend acc.1 x d steps r.row t ch k a
    let el : ScanEl := ⟨if r.resets.contains t then .zero else .val (a.map fun v => ⟨v, 0⟩), b⟩
    (s2, acc.2.1 ++ [el], acc.2.2.add c)) (s, [], .none)
  let (s3, hs, c2) := scanChunk d.xs d.kind s1 els h0
  (s3, hs, c1.add c2)

/-- The thaw products of one channel over the chunk: the scan of (α, 0), ended once a product falls below 2^-24 (R180). -/
def thawSteps (s : State) (x : Inst) (d : ScanDesc) (steps : Nat) (r : ScanRow) (ch : Nat) (p0 : FVal) : State × List FVal :=
  let els := (List.range steps).map fun t =>
    let a := x.operand .fp32 d.a (opIndex d.aStep steps d.count 1 1 r.row t ch 0)
    if r.resets.contains t then (⟨.zero, [⟨a, 0⟩]⟩ : ScanEl) else ⟨.val [⟨a, 0⟩], [⟨.fin false 0 0, 0⟩]⟩
  let (s1, hs, _) := scanChunk false 0 s els [⟨p0, 0⟩]
  let low := FVal.fin false 1 (-24)
  let out := (List.range steps).foldl (fun (acc : List FVal × Bool) t =>
    let p := ((((hs[t]?).getD []).head?).map (·.v)).getD (.fin false 0 0)
    let overs := (acc.2 && !r.resets.contains t) || fless p low
    (acc.1 ++ [if overs then .fin false 0 0 else p], overs)) ([], isZero p0)
  (s1, out.1)

/-- The output of one channel at one step (R164, R170, R180). -/
def scanOutput (s : State) (x : Inst) (d : ScanDesc) (steps : Nat) (r : ScanRow) (t ch : Nat) (hs : List (List (List Num)))
    (p : Option FVal) : State × FVal :=
  let stateAt := fun k => (((hs[k]?).getD [])[t]?).getD []
  let h32 := fun k => (stateAt k).map fun n => round32 n.value
  if d.ema then
    let h := ((h32 0).head?).getD (.fin false 0 0)
    match p with
    | none => (s, h)
    | some pt =>
      let gap := addExact (.fin false 1 0) pt.negate
      if isZero pt || isZero gap then (s, h)
      else
        let (s1, r) := withinUlp s 1 (divExact (.fin false 1 0) gap)
        (s1, fmul h r)
  else
    let prods := (List.range d.n).flatMap fun k =>
      let c := x.operands d.inFmt d.c (opIndex d.cStep steps d.count d.n d.parts r.row t ch k) d.parts
      let g := fun (l : List FVal) i => (l[i]?).getD (.fin false 0 0)
      let h := h32 k
      if d.kind = 2 then [(g c 0, g h 0), ((g c 1).negate, g h 1)]
      else if d.kind = 3 then [(g c 0, g h 0), (g c 1, g h 1)] else [(g c 0, g h 0)]
    let (s1, sum, _) := sumProducts false s prods []
    let core := if d.kind = 2 then fmul (.fin false 2 0) sum.v else sum.v
    if d.hasD then
      let xv := x.operand d.inFmt d.x (opIndex true steps d.count 1 1 r.row t ch 0)
      let dv := x.operand .fp32 d.d ch
      let (s2, y, _) := sumProducts false s1 [(dv, xv)] [⟨core, 0⟩]
      (s2, y.v)
    else (s1, core)

/-- What a row's scan gives: the outputs, the new state and thaw products, and the saturations. -/
structure ScanOut where
  y : List FVal
  state : List Num
  thaw : List FVal
  sats : Sats
  deriving DecidableEq, Repr

/-- Scan one row over the channels of the range. `correct` is whether thaw runs for it. Outputs come in the order [channel][step]. -/
def scanRow (s : State) (x : Inst) (d : ScanDesc) (steps : Nat) (correct : Bool) (r : ScanRow) : State × ScanOut :=
  (List.range d.count).foldl (fun (acc : State × ScanOut) ch =>
    let o := acc.2
    let (s1, hs, c) := (List.range d.n).foldl (fun (a : State × List (List (List Num)) × Sats) k =>
      let (s2, h, c2) := scanElement a.1 x d steps r ch k
      (s2, a.2.1 ++ [h], a.2.2.add c2)) (acc.1, [], .none)
    let p0 := (r.thaw[ch]?).getD (.fin false 0 0)
    let (s3, ps) : State × List FVal := if correct then thawSteps s1 x d steps r ch p0 else (s1, [])
    let (s4, ys) := (List.range steps).foldl (fun (a : State × List FVal) t =>
      let (s5, y) := scanOutput a.1 x d steps r t ch hs (if correct then ps[t]? else none)
      (s5, a.2 ++ [y])) (s3, [])
    let last := hs.flatMap fun l => (l.getLast?).getD []
    let thaw := if d.thaw then [if correct then (ps.getLast?).getD p0 else p0] else []
    (s4, ⟨o.y ++ ys, o.state ++ last, o.thaw ++ thaw, o.sats.add c⟩)) (s, ⟨[], [], [], .none⟩)

/-! ### Chaff by row (R170) -/

/-- The crib runs that a row reads at a step and that mark its new state too: a, b and x (R170). -/
def ScanDesc.stateReads (d : ScanDesc) (steps row t : Nat) : List (Nat × Nat) :=
  let ch := d.count * d.n
  [(d.a + (if d.aStep then (row * steps + t) * ch * d.aParts * 4 else 0), ch * d.aParts * 4)] ++
    (if d.ema then [] else [(d.b + (row * steps + t) * ch * d.parts * d.inSize, ch * d.parts * d.inSize)]) ++
    if d.usesX then [(d.x + (row * steps + t) * d.count * d.inSize, d.count * d.inSize)] else []

/-- Those that mark its output alone: c and d. -/
def ScanDesc.outReads (d : ScanDesc) (steps row t : Nat) : List (Nat × Nat) :=
  let ch := d.count * d.n
  (if d.ema then [] else
    [(d.c + (if d.cStep then (row * steps + t) * ch * d.parts * d.inSize else 0), ch * d.parts * d.inSize)]) ++
    if d.hasD then [(d.d, d.count * 4)] else []

/-- Steps at which a marked line comes in. -/
def Inst.chaffSteps (x : Inst) (reads : Nat → List (Nat × Nat)) (steps : Nat) : List Nat :=
  (List.range steps).filter fun t => (reads t).any fun a => x.cribMarked a.1 a.2

/-- The new state is marked: chaff came in, and no reset step lies after the last of it. -/
def stateMark (loaded : Bool) (chaff resets : List Nat) : Bool :=
  match chaff.foldl max 0, chaff with
  | _, [] => loaded && resets.isEmpty
  | last, _ => !resets.any fun t => decide (t > last)

/-! ### The instruction -/

/-- The writes of a row's STORE: address, bytes. The range that ends a plane writes the plane's padding of zeros too (R172), so that no line of an
earlier copy stays marked (R177; log 86). -/
def State.storeWrites (s : State) (d : ScanDesc) (sid : Nat) (o : ScanOut) : List (Nat × Bytes) :=
  let va := s.copyVa sid (s.reg (Reg.SC_STATE_GEN sid) + 1) + 64 + d.stateOff
  let planes := d.toPlanes o.state o.thaw
  let last := decide (d.first + d.count = d.block)
  (List.range d.ranges.length).filterMap fun i => (d.ranges[i]?).map fun r =>
    (va + r.1, (planes[i]?).getD [] ++ if last then List.replicate (pad64 (r.1 + r.2) - (r.1 + r.2)) 0 else [])

/-- Translate the runs of several writes, stopping at the first fault (log 15). -/
def State.translateWrites (s : State) (b : Nat) (en : Engine) : List (Nat × Bytes) → State × Option RunFault
  | [] => (s, none)
  | w :: rest =>
    match s.translateRun b true en (pageRuns w.1 w.2.length) with
    | (s1, .error f) => (s1, some f)
    | (s1, .ok _) => s1.translateWrites b en rest

/-- A row's results land: y, the working state, and its scan results (R170, R174, R179). -/
def Inst.scanLand (x : Inst) (d : ScanDesc) (steps : Nat) (r : ScanRow) (o : ScanOut) (yMark stMark : Bool) : Inst :=
  let f := d.outFmt
  let enc := fun v => if f = .bf16 then (convFloat ⟨8, 7, 127⟩ .bf16 false v).bits else bits32 v
  -- y lies as [row][step][channel]
  let y := (List.range steps).flatMap fun t => (List.range d.count).map fun ch =>
    enc ((o.y[ch * steps + t]?).getD (.fin false 0 0))
  let x1 := x.cribWrite (d.y + r.row * steps * d.count * d.outSize) (packElems f y) yMark
  let work := o.state.flatMap numBytes ++ o.thaw.flatMap fun p => leBytes 4 (bits32 p)
  let x2 := x1.cribWrite (d.work + r.row * d.workRow) work stMark
  let sc := r.scan
  let counted := if r.sid.isSome then o.sats else .none
  let sc1 := { sc with sat := sc.sat + counted.all, overs := sc.overs + counted.overs }
  let sc1 := { sc1 with storeChaff := sc1.storeChaff || ((d.load || d.store) && stMark) }
  let sc2 := if d.store then
      { sc1 with stored := true, bodyEnd := max sc1.bodyEnd (d.stateOff + d.blockLen)
                 thawing := sc1.thawing || o.thaw.any fun p => !isZero p }
    else sc1
  { x2 with scan := AMap.set x2.scan r.row sc2 }

/-- The marks of a row's output and of its new state. An earlier state that a reset at step 0 replaces reaches neither (R165). -/
def Inst.scanMarks (x : Inst) (d : ScanDesc) (steps : Nat) (r : ScanRow) : Bool × Bool :=
  let state := x.chaffSteps (d.stateReads steps r.row) steps
  let out := x.chaffSteps (d.outReads steps r.row) steps
  (!state.isEmpty || !out.isEmpty || (r.marked && !r.resets.contains 0), stateMark r.marked state r.resets)

/-- Scan every row, in order: results and marks. -/
def State.scanAll (s : State) (x : Inst) (d : ScanDesc) (rows : List ScanRow) : State × List (ScanRow × ScanOut × Bool × Bool) :=
  rows.foldl (fun (a : State × List (ScanRow × ScanOut × Bool × Bool)) r =>
    let off := match r.sid with | some i => bit (a.1.reg (Reg.SC_SCAN_CTRL i)) 16 | none => false
    let (s1, o) := scanRow a.1 x d x.desc.steps (d.thaw && d.load && !off) r
    let m := x.scanMarks d x.desc.steps r
    (s1, a.2 ++ [(r, o, m.1, m.2)])) (s, [])

/-- The counters of a core's scan engine (07 "Core scan engine registers"). -/
def State.scanCounts (s : State) (n : Nat) (ops bytes sat mismatch chaff : Nat) : State :=
  let s1 := (s.count64 (Reg.SCE_LANE_OPS_LO n) (Reg.SCE_LANE_OPS_HI n) ops).count64 (Reg.SCE_STATE_BYTES_LO n)
    (Reg.SCE_STATE_BYTES_HI n) bytes
  ((s1.count32 (Reg.SCE_SAT n) sat).countSat (Reg.SCE_MISMATCH n) 16 0 mismatch).count32 (Reg.SCE_CHAFF_ROWS n) chaff

/-- A fault of the state mover or of a mask read, or a store to a page under migration, holds the instruction, which runs again from its start (03
R78, R81). -/
def State.scanFault (s : State) (i : Nat) (x : Inst) (off : Nat) (write : Bool) (f : RunFault) : State :=
  (s.setInst i { x with scanHeld := some off }).takeFault x.bay f.va write (fxeEngine x.core) f.cause f.level f.entry (.engine i)

/-- The rows' results land together, once every store has been translated. -/
def State.scanFinish (s : State) (i : Nat) (x : Inst) (off : Nat) (d : ScanDesc) (rs : List (ScanRow × ScanOut × Bool × Bool)) : State :=
  let en := fxeEngine x.core
  let stores := fun (r : ScanRow × ScanOut × Bool × Bool) =>
    match d.store, r.1.sid with
    | true, some sid => s.storeWrites d sid r.2.1
    | _, _ => []
  match s.translateWrites x.bay en (rs.flatMap stores) with
  | (s1, some f) => s1.scanFault i x off true f
  | (s1, none) =>
    let s2 := rs.foldl (fun (s : State) r =>
      (stores r).foldl (fun (s : State) w => (s.writeRun x.bay w.1 w.2 r.2.2.2 en).1) s) s1
    let y := rs.foldl (fun (y : Inst) r => y.scanLand d x.desc.steps r.1 r.2.1 r.2.2.1 r.2.2.2) x
    let loaded := (rs.map fun r => r.1.bytes).sum
    let stored := ((rs.flatMap stores).map fun w => w.2.length).sum
    (s2.setInst i y).scanCounts x.core (d.laneOps rs.length x.desc.steps) (loaded + stored)
      ((rs.map fun r => r.2.1.sats.all).sum) (rs.filter fun r => r.1.mismatch).length (rs.filter fun r => r.2.2.1).length

/-- A SCAN of an instance (R169): the descriptor is checked, each row's state is loaded or taken from the working state, scanned, and stored. A row of
another bay is a protection fault (01 R26). -/
def State.scanRun (s : State) (i : Nat) (x : Inst) (off : Nat) : State :=
  if !x.inCrib off 64 then s.abortInst i causeProgram
  else
    let e := x.cribRead off 64
    let list := s.rowsOf x
    if !scanOk x e (list.all fun w => !w.seq) then s.abortInst i causeProgram
    else if !s.rowsHome x then s.abortInst i causeOutside
    else
      let d := parseScan e
      match s.rowResets x with
      | (s1, .error f) => s1.scanFault i x off false f
      | (s1, .ok resets) =>
        match s1.scanRows x d resets ((List.range list.length).filterMap fun n => (list[n]?).map fun w => (n, w)) with
        | (s2, .error f) => s2.scanFault i x off false f
        | (s2, .ok rows) =>
          let (s3, rs) := s2.scanAll x d rows
          s3.scanFinish i x off d rs

/-- SCAN (R169). -/
def State.scanOp (s : State) (r : StallRef) (off : Nat) : State :=
  match s.engineRun r engineSce with
  | none => s
  | some (i, x) => s.scanRun i x off

/-- A SCAN that a fault or a held store kept from running runs again, and makes the post that it owes (R175, 09 R214). -/
def State.scanAgain (s : State) (i : Nat) : State :=
  match s.inst? i with
  | none => s
  | some x =>
    match x.scanHeld with
    | none => s
    | some off =>
      if x.gleaning.isSome || s.engineFault i then s
      else ((s.setInst i { x with scanHeld := none }).scanRun i { x with scanHeld := none } off).postOwed i

/-- SCAN (R169). -/
def execScan (at_ : EngineRef) (descriptor : Nat) (s : State) : Host.Outcome State Fault Refusal :=
  s.done (s.tokened at_ engineSce (fun _ _ => true) fun s => s.scanOp at_.stall descriptor)

end Sys2Proof.Machine
end

