-- ==== Sys2Proof/Machine/Programs.lean ====
section
/-! DEFINITION. Swath programs (09 R209 to R219, R225 to R229): each row is the operation at a program's restart point. -/

namespace Sys2Proof.Machine

/-! ### The program at its restart point -/

/-- A program that starts is the kind of program that its field names: a next-layer field's is marked NEXT_LAYER, any other field's is not (R212). -/
def State.rightlyNamed (s : State) (x : Inst) (k : ProgKind) (p : Program) : Bool :=
  p.pc ≠ 0 || match s.swathEntry x.bay p.entry with | some e => swathNextLayer e == decide (k = .nextLayer) | none => true

/-- The instance of a program that starts and that its field names wrongly. -/
def State.misnamed (s : State) (r : ProgRef) : Option Nat :=
  match s.running r.stall with
  | none => none
  | some (i, x) =>
    match x.prog r.prog with
    | none => none
    | some p => if p.started && !p.ended && p.wait = .none && !s.rightlyNamed x r.prog p then some i else none

/-- A running program of a resident stall that does not wait: its instance, itself, and the instruction at its restart point. -/
def State.swHere (s : State) (r : ProgRef) : Option (Nat × Inst × Program × SwOp) :=
  match s.running r.stall with
  | none => none
  | some (i, x) =>
    match x.prog r.prog with
    | none => none
    | some p =>
      if p.started && !p.ended && p.wait = .none && s.rightlyNamed x r.prog p then
        ((s.swathEntry x.bay p.entry).bind fun e => swAt e p.pc).map fun o => (i, x, p, o)
      else none

/-- A program of an instance replaced; RESIDENT and BLOCKED follow (04 R92). -/
def State.putProg (s : State) (i : Nat) (x : Inst) (k : ProgKind) (p : Program) : State :=
  (s.setInst i (x.setProg k (some p))).refresh i

/-- A program waits at its restart point. -/
def State.progWaits (s : State) (i : Nat) (x : Inst) (k : ProgKind) (p : Program) (w : ProgWait) : State :=
  s.putProg i x k { p with wait := w }

/-- The next instruction. -/
def Program.next (p : Program) : Program := { p with pc := p.pc + 1 }

/-! ### Addresses (R209 to R211) -/

/-- The crib cursor. -/
def Program.cursor (p : Program) : Int := (p.cursorBase : Int) + p.strides 8

/-- The chunk in flight of a row's stream, or the next one (R211): its first frame. -/
def State.rowFrame (s : State) (sid : Nat) : Word :=
  match (s.stream sid).inflight with
  | some f => f.firstFrame
  | none => s.chunkBase sid (s.reg (Reg.SC_CHUNK_SEQ sid))

/-- The address of a ROWBASE source for row i and step t (R211); none where the source does not match the row's kind, or the row level
counter is at or above the row count (R212). -/
def State.rowSource (s : State) (x : Inst) (source i t : Nat) : Option Nat :=
  match (s.rowsOf x)[i]? with
  | none => none
  | some r =>
    if source = 0 then if r.seq then none else some (s.frameVa r.index (s.rowFrame r.index + w32 t))
    else if source = 1 then some (s.outVa r.seq r.index (s.outHead r.seq r.index) + 64)
    else if r.seq then
      let q := r.index
      let pos := (((s.seqCtx q).inflight.map (·.firstFrame)).getD (s.reg (Reg.SQ_POS q))).toNat
      let record := ((kvFormat (shapeTag (s.reg (Reg.SQ_SHAPE q)))).map (·.record)).getD 0
      some (s.kvPage q t (pos / 256) + pos % 256 * record)
    else none

/-- A register with its ROWBASE address recomputed, or the cause of a protection fault: OUTSIDE for a row of another bay (01 R26), PROGRAM for a
source that the row does not have (R212). -/
def State.rowReg (s : State) (x : Inst) (p : Program) (r : AddrReg) : Except Nat AddrReg :=
  match r.row with
  | none => .ok r
  | some (source, rl, tl, off) =>
    match (s.rowsOf x)[p.counter rl]?, s.rowSource x source (p.counter rl) (p.counter tl) with
    | some w, some a =>
      if s.rowOfBay x.bay w then .ok { r with base := BitVec.ofNat 64 (natOfInt 64 ((a : Int) + off)) } else .error causeOutside
    | _, _ => .error causeProgram

/-- Recompute the ROWBASE registers that follow a level whose counter has changed (R210). -/
def State.rowRegs (s : State) (x : Inst) (p : Program) (level : Nat) : Except Nat Program :=
  (List.range 8).foldl (fun (acc : Except Nat Program) a =>
    acc.bind fun q =>
      match (q.areg a).row with
      | some (_, rl, tl, _) => if rl = level ∨ tl = level then (s.rowReg x q (q.areg a)).map fun r => q.setReg a r else .ok q
      | none => .ok q) (.ok p)

/-- A program goes on after a counter has changed, or its sheaf meets a protection fault. -/
def State.loopMoved (s : State) (i : Nat) (x : Inst) (k : ProgKind) (p : Program) (level : Nat) : State :=
  match s.rowRegs x p level with
  | .ok q => s.putProg i x k q
  | .error cause => s.abortInst i cause

/-! ### END, BASE, ROWBASE, LOOP, STEP, CSET, ENDLOOP -/

/-- Run the operation at a program's restart point where it is the row's. A program that its field names wrongly is a protection fault of cause PROGRAM
(R212). -/
def State.swStep (s : State) (r : ProgRef) (act : State → Nat → Inst → Program → SwOp → Option State) : State :=
  match s.misnamed r, s.swHere r with
  | some i, _ => s.abortInst i causeProgram
  | none, some (i, x, p, o) => (act s i x p o).getD s
  | none, none => s

/-- The end of a program (R215, R229): the input program's starts the output program; a NEXT_LAYER program tags the next half. -/
def State.swEnd (s : State) (i : Nat) (x : Inst) (k : ProgKind) (p : Program) (nextLayer : Bool) (round : Nat) : State :=
  let x1 := x.setProg k (some { p with ended := true, wait := .none })
  let x2 := if k = .input then { x1 with output := x1.output.map fun q => { q with started := true } } else x1
  let s1 : State :=
    if nextLayer then
      let c := s.core x.core
      s.setCore x.core { c with next := { c.next with tag := some round } }
    else s
  (s1.setInst i x2).refresh i

/-- END (R215). -/
def execSwEnd (p : ProgRef) (s : State) : Host.Outcome State Fault Refusal :=
  s.done (s.swStep p fun s i x q o => match o with
    | .end_ n round => some (s.swEnd i x p.prog q n round)
    | _ => none)

/-- BASE (R210). -/
def execSwBase (p : ProgRef) (s : State) : Host.Outcome State Fault Refusal :=
  s.done (s.swStep p fun s i x q o => match o with
    | .base a va =>
      some (s.putProg i x p.prog (q.next.setReg a { AddrReg.zero with fill := .address, base := BitVec.ofNat 64 va }))
    | _ => none)

/-- ROWBASE (R211): the register follows the counters from here on. -/
def State.swRowbase (s : State) (i : Nat) (x : Inst) (k : ProgKind) (p : Program) (a source rl tl : Nat) (off : Int) : State :=
  match s.rowReg x p { AddrReg.zero with fill := .address, row := some (source, rl, tl, off) } with
  | .ok r => s.putProg i x k (p.next.setReg a r)
  | .error cause => s.abortInst i cause

/-- ROWBASE (R211). -/
def execSwRowbase (p : ProgRef) (s : State) : Host.Outcome State Fault Refusal :=
  s.done (s.swStep p fun s i x q o => match o with
    | .rowbase a source rl tl off => some (s.swRowbase i x p.prog q a source rl tl off)
    | _ => none)

/-- LOOP (R210). -/
def execSwLoop (p : ProgRef) (s : State) : Host.Outcome State Fault Refusal :=
  s.done (s.swStep p fun s i x q o => match o with
    | .loop l c => some (s.loopMoved i x p.prog (q.openLoop l (s.loopCount x c)) l)
    | _ => none)

/-- STEP (R210). -/
def execSwStep (p : ProgRef) (s : State) : Host.Outcome State Fault Refusal :=
  s.done (s.swStep p fun s i x q o => match o with
    | .step l crib a stride => some (s.putProg i x p.prog (q.addStride l (if crib then 8 else a) stride))
    | _ => none)

/-- CSET (R210). -/
def execSwCset (p : ProgRef) (s : State) : Host.Outcome State Fault Refusal :=
  s.done (s.swStep p fun s i x q o => match o with
    | .cset area off => some (s.putProg i x p.prog { q.next with cursorBase := off, cursorArea := area })
    | _ => none)

/-- The level that an ENDLOOP goes round. -/
def Program.innermost (p : Program) : Nat := (p.loops.head?.map (·.level)).getD 0

/-- ENDLOOP (R212). -/
def execSwEndloop (p : ProgRef) (s : State) : Host.Outcome State Fault Refusal :=
  s.done (s.swStep p fun s i x q o => match o with
    | .endloop _ => some (s.loopMoved i x p.prog q.endLoop q.innermost)
    | _ => none)

/-! ### MOVE (R213, R225) -/

/-- A half of a ring buffer written, marked by line. -/
def RingHalf.write (h : RingHalf) (off : Nat) (bs : Bytes) (chaff : Bool) : RingHalf :=
  { h with bytes := memPutAll h.bytes off bs, chaff := markLines h.chaff off bs.length chaff }

/-- Tiles of an earlier round that drain from a core's next half and that a write covers are lost: their stalls read them directly (R228, R229). -/
def State.loseTiles (s : State) (b core off len : Nat) : State :=
  let c := s.core core
  let hit := fun (slot : Nat) => decide (slot * 65536 < off + len ∧ off < slot * 65536 + 65536)
  let lost := (AMap.keep (fun _ slot => hit slot) c.next.tiles).map (·.1)
  if lost.isEmpty then s
  else
    let mine := fun (r : Round) => lost.filterMap fun k => if k / 65536 = r.serial then some (k % 65536) else none
    let here := fun (j : RoundJoin) => match s.inst? j.inst with | some z => decide (z.core = core) | none => false
    let note := fun (r : Round) (j : RoundJoin) =>
      if here j then { j with missed := j.missed ++ (mine r).filter fun t => !j.had.contains t } else j
    let y := s.bay b
    (s.setBay b { y with rounds := y.rounds.map fun r => { r with joins := r.joins.map (note r) } }).setCore core
      { c with next := { c.next with tiles := AMap.keep (fun _ slot => !hit slot) c.next.tiles } }

/-- Write bytes at the crib cursor's area, clean, and mark the runs that were read marked. A next half that is overwritten before its round
starts counts what it held in `FXE_NEXT_WASTE` (R229). -/
def State.cursorWrite (s : State) (i : Nat) (area off : Nat) (bs : Bytes) (marked : List (Nat × Nat)) : State :=
  match s.inst? i with
  | none => s
  | some x =>
    if area = 0 then
      let y := x.cribWrite off bs false
      s.setInst i { y with cribChaff := marked.foldl (fun c m => markLines c m.1 m.2 true) y.cribChaff }
    else
      let s0 := s.loseTiles x.bay x.core off bs.length
      let c := s0.core x.core
      let s1 := if c.next.tag.isSome then s0.countWrap (Reg.FXE_NEXT_WASTE x.core) (c.next.filled / 64) else s0
      let h0 := if c.next.tag.isSome then { c.next with tag := none, filled := 0 } else c.next
      let h := h0.write off bs false
      s1.setCore x.core { c with next := { h with
        filled := h.filled + bs.length, chaff := marked.foldl (fun m r => markLines m r.1 r.2 true) h.chaff } }

/-- Bytes at the crib cursor's area, and whether a run of it is marked. -/
def State.cursorRead (s : State) (x : Inst) (area off len : Nat) : Bytes :=
  if area = 0 then x.cribRead off len else memGet (s.core x.core).next.bytes off len

def State.cursorMarked (s : State) (x : Inst) (area off len : Nat) : Bool :=
  if area = 0 then x.cribMarked off len
  else (linesOf off len).any fun l => (s.core x.core).next.chaff.contains l

/-- The 64-byte lines of a run: address and length within the run. -/
def lineRuns (a len : Nat) : List (Nat × Nat) :=
  (linesOf a len).map fun l => (max a (l * 64), min (a + len) (l * 64 + 64) - max a (l * 64))

/-- A row's input is marked (04 R88), for a ROWBASE source 0 element. -/
def State.rowInputChaff (s : State) (x : Inst) (p : Program) (r : AddrReg) : Bool :=
  match r.row with
  | some (0, rl, _, _) => ((s.rowsOf x)[p.counter rl]?).map (·.chaff) |>.getD false
  | _ => false

/-- The frame that a ROWBASE source 0 element reads is missing from its ring: it reads as zeros, clean (06 R149). -/
def State.frameMissing (s : State) (x : Inst) (p : Program) (r : AddrReg) : Bool :=
  match r.row with
  | some (0, rl, tl, _) =>
    match (s.rowsOf x)[p.counter rl]? with
    | some w => !w.seq && !(s.stream w.index).frames.contains (s.rowFrame w.index + w32 (p.counter tl)).toNat
    | none => false
  | _ => false

/-- An element has completed: it is counted, and the program goes on. -/
def State.elementDone (s : State) (i : Nat) (k : ProgKind) (len : Nat) : State :=
  match s.inst? i with
  | none => s
  | some x =>
    match x.prog k with
    | none => s
    | some p =>
      let s1 := (s.count64 (Reg.FXE_ELEMENTS_LO x.core) (Reg.FXE_ELEMENTS_HI x.core) 1).count64 (Reg.FXE_BYTES_LO x.core)
        (Reg.FXE_BYTES_HI x.core) len
      s1.putProg i x k { p.next with wait := .none }

/-- Read the local pieces of an element: bytes land at the cursor, marks pass by line, marked lines are counted (R225). -/
def State.readPieces (s : State) (i : Nat) (area off va : Nat) (all : Bool) (l : List (Nat × Nat × Translation)) : State :=
  l.foldl (fun (s : State) e =>
    if e.2.2.remote then s
    else
      match s.inst? i with
      | none => s
      | some x =>
        let (s1, bs, _) := s.readPhys e.2.2 e.1 e.2.1
        let at_ := off + (e.1 - va)
        let a := e.2.2.phys e.1
        let hit := (lineRuns a e.2.1).filter fun r => all || pteChaff e.2.2.entry || s1.physChaff r.1 r.2
        let s2 := s1.cursorWrite i area at_ bs (hit.map fun r => (at_ + (r.1 - a), r.2))
        s2.count32 (Reg.FXE_CHAFF_IN x.core) hit.length) s

/-- The remote pieces of an element become requests of connections (10 R262); none where a piece has no connection. -/
def State.remotePieces (s : State) (i : Nat) (k : ProgKind) (x : Inst) (toMem : Bool) (area off va : Nat)
    (l : List (Nat × Nat × Translation)) : Option State :=
  l.foldl (fun (acc : Option State) e =>
    acc.bind fun s =>
      if !e.2.2.remote then some s
      else
        (s.remoteConn x.bay (remotePeer e.2.2.entry) x.desc.be).map fun c =>
          let at_ := off + (e.1 - va)
          if toMem then s.postWrite c (.write i k e.2.1 e.1) (remoteAddr e.2.2 e.1) (s.cursorRead x area at_ e.2.1)
          else s.postRead c (.read i k at_ e.2.1 area e.1) (remoteAddr e.2.2 e.1) e.2.1) (some s)

/-- A remote piece whose peer has no connection in RTS is a WRONG_TIER fault (10 R262). -/
def State.noConnection (s : State) (x : Inst) (l : List (Nat × Nat × Translation)) : Option (Nat × W64) :=
  (l.find? fun e => e.2.2.remote && (s.remoteConn x.bay (remotePeer e.2.2.entry) x.desc.be).isNone).map fun e => (e.1, e.2.2.entry)

/-- After the local pieces: the element is done, or waits for its remote pieces. -/
def State.elementRest (s : State) (i : Nat) (k : ProgKind) (x : Inst) (toMem : Bool) (area off va len : Nat)
    (l : List (Nat × Nat × Translation)) : State :=
  if l.any fun e => e.2.2.remote then
    match s.remotePieces i k x toMem area off va l with
    | none => s
    | some s1 =>
      match s1.inst? i with
      | some y =>
        match y.prog k with
        | some p => s1.progWaits i y k p (.remote len)
        | none => s1
      | none => s1
  else s.elementDone i k len

/-- An element from memory to crib. -/
def State.moveIn (s : State) (i : Nat) (x : Inst) (k : ProgKind) (p : Program) (r : AddrReg) (va off len : Nat) : State :=
  let en := fxeEngine x.core
  if s.frameMissing x p r then
    let marked := if s.rowInputChaff x p r then lineRuns off len else []
    ((s.cursorWrite i p.cursorArea off (List.replicate len 0) marked).count32 (Reg.FXE_CHAFF_IN x.core) marked.length).elementDone i k len
  else
    match s.translateRun x.bay false en (pageRuns va len) with
    | (s1, .error f) => s1.takeFault x.bay f.va false en f.cause f.level f.entry (.program i k)
    | (s1, .ok l) =>
      match s1.noConnection x l with
      | some (a, e) => s1.takeFault x.bay a false en .wrongTier ((leafLevel (pteSizeCode e)).getD 4) e (.program i k)
      | none =>
        let all := (r.fill = .waited && r.chaff) || s1.rowInputChaff x p r
        (s1.readPieces i p.cursorArea off va all l).elementRest i k x false p.cursorArea off va len l

/-- Write the local pieces of an element, each line marked as the crib lines that it comes from are (R225). Answers whether any was. -/
def State.writeLines (s : State) (x : Inst) (area off va : Nat) (l : List (Nat × Nat × Translation)) : State × Bool :=
  l.foldl (fun (acc : State × Bool) e =>
    (lineRuns e.1 e.2.1).foldl (fun (acc : State × Bool) r =>
      let at_ := off + (r.1 - va)
      let mark := acc.1.cursorMarked x area at_ r.2
      (if e.2.2.remote then acc.1 else acc.1.physWrite (e.2.2.phys r.1) (acc.1.cursorRead x area at_ r.2) mark, acc.2 || mark)) acc)
    (s, false)

/-- What an element written through a buffer register leaves in it: the extent, and whether a marked line went in (R216, R225); and
the bytes written into buffers, for the wasted-byte count (R231). -/
def Inst.wroteBuffer (x : Inst) (k : ProgKind) (p : Program) (a : Nat) (stop len : Nat) (mark : Bool) : Inst :=
  let r := p.areg a
  if r.fill = .got then
    let y := x.setProg k (some (p.setReg a { r with extent := max r.extent stop, wroteChaff := r.wroteChaff || mark }))
    if k = .output then { y with wastedOut := y.wastedOut + len } else { y with wasted := y.wasted + len }
  else x

/-- An element from crib to memory. A write through a buffer register stays inside the buffer (R213). -/
def State.moveOut (s : State) (i : Nat) (x : Inst) (k : ProgKind) (p : Program) (a va off len : Nat) : State :=
  let en := fxeEngine x.core
  let r := p.areg a
  let buf := s.bufferVa x.bay r.pool r.buffer
  let inside := decide (buf ≤ va ∧ va + len ≤ buf + s.poolSize x.bay r.pool)
  if (r.fill = .got ∨ r.fill = .waited) ∧ !inside then s.abortInst i causeOutside
  else
    match s.translateRun x.bay true en (pageRuns va len) with
    | (s1, .error f) => s1.takeFault x.bay f.va true en f.cause f.level f.entry (.program i k)
    | (s1, .ok l) =>
      match s1.noConnection x l with
      | some (b, e) => s1.takeFault x.bay b true en .wrongTier ((leafLevel (pteSizeCode e)).getD 4) e (.program i k)
      | none =>
        let (s2, mark) := s1.writeLines x p.cursorArea off va l
        let y := x.wroteBuffer k p a (va + len - buf) len mark
        (s2.setInst i y).elementRest i k y true p.cursorArea off va len l

/-- MOVE: one element (R213). -/
def State.swMove (s : State) (i : Nat) (x : Inst) (k : ProgKind) (p : Program) (a : Nat) (toMem : Bool) (len : Nat) : State :=
  let r := p.areg a
  let cur := p.cursor
  if r.fill = .unset then s.abortInst i causeProgram
  else if cur < 0 || cur.toNat + len > s.cursorSize x p then s.abortInst i causeProgram
  else if toMem then s.moveOut i x k p a (p.address a) cur.toNat len
  else s.moveIn i x k p r (p.address a) cur.toNat len

/-- MOVE (R213). -/
def execSwMove (p : ProgRef) (s : State) : Host.Outcome State Fault Refusal :=
  s.done (s.swStep p fun s i x q o => match o with
    | .move a toMem len => some (s.swMove i x p.prog q a toMem len)
    | _ => none)

/-! ### GET, WAIT, SIGNAL, FREE (R216 to R220) -/

/-- GET (R217): a buffer, or a wait that is counted once. -/
def State.swGet (s : State) (i : Nat) (x : Inst) (k : ProgKind) (p : Program) (a pool : Nat) : State :=
  let b := x.bay
  if s.canGet b pool i k (!x.desc.be) then
    match s.getBuffer b pool i k with
    | (s2, some n) =>
      let reg : AddrReg :=
        { AddrReg.zero with fill := .got, base := BitVec.ofNat 64 (s2.bufferVa b pool n), pool := pool, buffer := n }
      s2.putProg i { x with got := x.got ++ [(k, pool, n)] } k (p.next.setReg a reg)
    | (s2, none) => s2
  else (s.awaitBuffer b pool i k (!x.desc.be)).progWaits i x k p (.pool pool)

/-- GET (R217). -/
def execSwGet (p : ProgRef) (s : State) : Host.Outcome State Fault Refusal :=
  s.done (s.swStep p fun s i x q o => match o with
    | .get a pool => some (s.swGet i x p.prog q a pool)
    | _ => none)

/-- WAIT (R219, R222). -/
def State.swWait (s : State) (i : Nat) (x : Inst) (k : ProgKind) (p : Program) (a q : Nat) : State :=
  let queue := x.desc.consume q
  if queue = noField then s.abortInst i causeProgram
  else if !s.coreQueue x.bay queue false then s.abortInst i causeQueue
  else
    match s.nextHandle x queue with
    | (s1, some (y, e)) =>
      let h := e.handle
      let reg : AddrReg :=
        { AddrReg.zero with fill := .waited, base := BitVec.ofNat 64 (s1.bufferVa x.bay h.pool h.buffer), pool := h.pool
                            buffer := h.buffer, chaff := h.chaff }
      s1.putProg i y k (p.next.setReg a reg)
    | (s1, none) => s1.progWaits i x k p (.queue queue)

/-- WAIT (R219). -/
def execSwWait (p : ProgRef) (s : State) : Host.Outcome State Fault Refusal :=
  s.done (s.swStep p fun s i x q o => match o with
    | .wait a q' => some (s.swWait i x p.prog q a q')
    | _ => none)

/-- SIGNAL (R216): a handle is staged; one with chaff is counted (R225). -/
def State.swSignal (s : State) (i : Nat) (x : Inst) (k : ProgKind) (p : Program) (a q : Nat) (last : Bool) (rl len : Nat) : State :=
  let reg := p.areg a
  let queue := x.desc.produce q
  if queue = noField || reg.fill ≠ .got || (rl ≠ 7 && decide (p.counter rl ≥ x.desc.rowCount)) then s.abortInst i causeProgram
  else if !s.coreQueue x.bay queue true then s.abortInst i causeQueue
  else
    let h : Handle :=
      { pool := reg.pool, buffer := reg.buffer, length := reg.signalLength len, chaff := reg.wroteChaff || s.silentRow x p rl
        last := last, tag := s.rowTag x p rl, seq := 0 }
    let s1 := s.count32 (Reg.FXE_CHAFF_OUT x.core) (if h.chaff then 1 else 0)
    s1.putProg i { x with staged := x.staged ++ [(k, queue, h)] } k p.next

/-- SIGNAL (R216). -/
def execSwSignal (p : ProgRef) (s : State) : Host.Outcome State Fault Refusal :=
  s.done (s.swStep p fun s i x q o => match o with
    | .signal a q' last rl len => some (s.swSignal i x p.prog q a q' last rl len)
    | _ => none)

/-- FREE (R218): the release is staged. -/
def State.swFree (s : State) (i : Nat) (x : Inst) (k : ProgKind) (p : Program) (a : Nat) : State :=
  let reg := p.areg a
  if reg.fill ≠ .waited then s.abortInst i causeProgram
  else s.putProg i { x with frees := x.frees ++ [(reg.pool, reg.buffer)] } k p.next

/-- FREE (R218). -/
def execSwFree (p : ProgRef) (s : State) : Host.Outcome State Fault Refusal :=
  s.done (s.swStep p fun s i x q o => match o with
    | .free a => some (s.swFree i x p.prog q a)
    | _ => none)

/-! ### SYNC (R214) -/

/-- SYNC post: every earlier element of the program has completed, as elements complete in turn. -/
def State.swPost (s : State) (i : Nat) (x : Inst) (k : ProgKind) (p : Program) (token count : Nat) : State :=
  (s.putProg i x k p.next).postToken i token count

/-- SYNC_POST (R214). -/
def execSwSyncPost (p : ProgRef) (s : State) : Host.Outcome State Fault Refusal :=
  s.done (s.swStep p fun s i x q o => match o with
    | .syncPost token count => some (s.swPost i x p.prog q token count)
    | _ => none)

/-- SYNC wait. -/
def State.swSyncWait (s : State) (i : Nat) (x : Inst) (k : ProgKind) (p : Program) (token count : Nat) : State :=
  let n := AMap.getD x.tokens token 0
  if count ≤ n then s.putProg i { x with tokens := AMap.set x.tokens token (n - count) } k p.next
  else s.progWaits i x k p (.token token count)

/-- SYNC_WAIT (R214). -/
def execSwSyncWait (p : ProgRef) (s : State) : Host.Outcome State Fault Refusal :=
  s.done (s.swStep p fun s i x q o => match o with
    | .syncWait token count => some (s.swSyncWait i x p.prog q token count)
    | _ => none)

/-! ### Rotation rounds (R226 to R229) -/

/-- The shard of ring core k: its tiles, ascending (R227). -/
def shardTiles (n tiles k : Nat) : List Nat :=
  (List.range ((k + 1) * tiles / n - k * tiles / n)).map (· + k * tiles / n)

/-- The order in which ring core k receives the tiles of a round (R227). -/
def deliveryOrder (n tiles k : Nat) : List Nat := (List.range n).flatMap fun j => shardTiles n tiles ((k + n - j) % n)

/-- A core's place in a round's ring. -/
def Round.place (r : Round) (core : Nat) : Option Nat := (List.range r.ring.length).find? fun k => r.ring[k]? = some core

/-- The tiles of a round in the order in which they pass a core. -/
def Round.order (r : Round) (core : Nat) : List Nat :=
  match r.place core with
  | some k => deliveryOrder r.ring.length r.tiles k
  | none => []

/-- The key of a tile in a half. -/
def tileKey (serial tile : Nat) : Nat := serial * 65536 + tile

/-- A tile lies in a half of a core's buffer. -/
def Core.hasTile (c : Core) (key : Nat) : Bool := (AMap.get? c.current.tiles key).isSome || (AMap.get? c.next.tiles key).isSome

/-- A core swaps its halves at the start of the round that its next half is tagged with: the tiles fetched ahead are the first of its
order, one to each 64 KiB. The tiles of the former current half drain from the half that the next fetch will write (R229). -/
def swapHalves (c : Core) (r : Round) (order : List Nat) : Core :=
  if c.next.tag = some r.round then
    let got := order.take (c.next.filled / 65536)
    let tiles := (List.range got.length).foldl (fun (m : AMap Nat) j =>
      match got[j]? with | some t => AMap.set m (tileKey r.serial t) j | none => m) c.next.tiles
    { c with current := { c.next with tiles := tiles, tag := none, filled := 0 }, next := { c.current with tag := none, filled := 0 } }
  else c

/-- A stall's join (R228): tiles present in the buffer count as delivered; tiles that have passed by are read directly, in their place. -/
def joinTiles (c : Core) (serial : Nat) (order : List Nat) (passed : Nat) : Nat × List Nat :=
  let has := fun t => c.hasTile (tileKey serial t)
  ((order.filter has).length, (order.take passed).filter fun t => !has t)

/-- The round of a bay that is in progress. -/
def State.liveRound (s : State) (b round : Nat) : Option Round := (s.bay b).rounds.find? fun r => r.round = round && !r.ended

def State.setRound (s : State) (b : Nat) (r : Round) : State :=
  let y := s.bay b
  s.setBay b { y with rounds := y.rounds.map fun q => if q.serial = r.serial then r else q }

/-- A new round (R226 to R228): staged `SW_WSET_BASE` applies; the weight-set entry gives the first tile's address and T; the ring is the bay's
active cores. DESIGN CHOICE: a ROTATE of more tiles than the set has goes over the T that it has (log 87). -/
def State.startRound (s : State) (x : Inst) (round tiles : Nat) : State × Except RunFault Round :=
  let b := x.bay
  let s0 := s.applyAll [Reg.SW_WSET_BASE_LO b, Reg.SW_WSET_BASE_HI b]
  let va := (s0.reg64 (Reg.SW_WSET_BASE_LO b) (Reg.SW_WSET_BASE_HI b)).toNat + round * 16
  match s0.readRun b va 16 (fxeEngine x.core) with
  | (s1, .error f) => (s1, .error f)
  | (s1, .ok (e, _)) =>
    let y := s1.bay b
    let ring := (s1.bayCores b).filter fun n => s1.coreRole n = 1
    let r : Round :=
      { round := round, serial := y.roundSerial, base := BitVec.ofNat 64 (leAt e 0 8), tiles := min tiles (leAt e 8 4), ring := ring
        passed := [], flying := [], joins := [], ended := false }
    (s1.setBay b { y with rounds := y.rounds ++ [r], roundSerial := y.roundSerial + 1 }, .ok r)

/-- A stall joins a round: the half that is tagged with it swaps in, tiles present post the token, missed ones are noted. -/
def State.joinRound (s : State) (i : Nat) (x : Inst) (k : ProgKind) (p : Program) (r : Round) (token : Nat) : State :=
  if r.joins.any fun j => j.inst = i then s.putProg i x k p.next
  else
    let order := r.order x.core
    let c := if (s.joinsOn r x.core).isEmpty then swapHalves (s.core x.core) r order else s.core x.core
    let got := joinTiles c r.serial order (AMap.getD r.passed x.core 0)
    let s1 := (s.setCore x.core c).setRound x.bay { r with joins := r.joins ++ [⟨i, token, [], got.2⟩] }
    (s1.putProg i x k p.next).postToken i token got.1

/-- ROTATE (R228): joins the round in progress, or starts it; a fifth round waits. -/
def State.swRotate (s : State) (i : Nat) (x : Inst) (k : ProgKind) (p : Program) (token tiles round : Nat) : State :=
  match s.liveRound x.bay round with
  | some r => s.joinRound i x k p r token
  | none =>
    if !s.roundJoinable x.bay round then s.progWaits i x k p (.ring round)
    else
      match s.startRound x round tiles with
      | (s1, .error f) => s1.takeFault x.bay f.va false (fxeEngine x.core) f.cause f.level f.entry (.program i k)
      | (s1, .ok r) => s1.joinRound i x k p r token

/-- ROTATE (R228). -/
def execSwRotate (p : ProgRef) (s : State) : Host.Outcome State Fault Refusal :=
  s.done (s.swStep p fun s i x q o => match o with
    | .rotate token tiles round => some (s.swRotate i x p.prog q token tiles round)
    | _ => none)

/-- Tile slots of the current half (R229). -/
def State.halfSlots (s : State) (b : Nat) : Nat := fld (s.reg (Reg.SW_RING_CFG b)) 6 0 / 2

/-- Put a tile into a slot of the current half; `marked` are its marked lines. -/
def State.putTile (s : State) (core key slot : Nat) (bs : Bytes) (marked : List Nat) : State :=
  let c := s.core core
  let h := c.current.write (slot * 65536) bs false
  s.setCore core { c with current := { h with
    tiles := AMap.set h.tiles key slot, chaff := marked.foldl (fun l m => markLines l (slot * 65536 + m * 64) 64 true) h.chaff } }

/-- A slot of a half that no tile takes, from a number on. -/
def freeTileSlot (h : RingHalf) (from_ : Nat) : Nat :=
  ((List.range (h.tiles.length + 1)).map (· + from_)).find? (fun k => !(AMap.vals h.tiles).contains k) |>.getD from_

/-- Every tile has passed every ring core: the round ends (R228). -/
def State.roundEnd (s : State) (b round : Nat) : State :=
  match s.liveRound b round with
  | none => s
  | some r =>
    if r.ring.all fun n => decide (AMap.getD r.passed n 0 ≥ r.tiles) then
      (s.setRound b { r with ended := true }).countWrap (Reg.SW_RING_ROUNDS b) 1
    else s

/-- Read a tile of 64 KiB: its bytes and the numbers of its marked lines. -/
def State.readTile (s : State) (b va : Nat) (en : Engine) : State × Except RunFault (Bytes × List Nat) :=
  match s.translateRun b false en (pageRuns va 65536) with
  | (s1, .error f) => (s1, .error f)
  | (s1, .ok l) =>
    let (s2, bs, marks) := l.foldl (fun (acc : State × Bytes × List Nat) e =>
      let (s', bs, _) := acc.1.readPhys e.2.2 e.1 e.2.1
      let a := e.2.2.phys e.1
      let hit := (lineRuns a e.2.1).filter fun r => pteChaff e.2.2.entry || s'.physChaff r.1 r.2
      (s', acc.2.1 ++ bs, acc.2.2 ++ hit.map fun r => (e.1 - va + (r.1 - a)) / 64)) (s1, [], [])
    (s2, .ok (bs, marks))

/-- A late stall's FXE reads a tile that passed it by, directly from its home, as an element (R228). A directly read tile takes no slot of the half
(log 22). -/
def State.directTile (s : State) (b : Nat) (r : Round) (core : Nat) (j : RoundJoin) (tile : Nat) : State :=
  let en := fxeEngine core
  let va := r.base.toNat + tile * 65536
  match s.readTile b va en with
  | (s1, .error f) => s1.takeFault b f.va false en f.cause f.level f.entry (.engine j.inst)
  | (s1, .ok (bs, marks)) =>
    let slot := freeTileSlot (s1.core core).current (s1.halfSlots b)
    let s2 := ((((s1.putTile core (tileKey r.serial tile) slot bs marks).countWrap (Reg.FXE_RING_MISSES core) 1).count64
      (Reg.FXE_ELEMENTS_LO core) (Reg.FXE_ELEMENTS_HI core) 1).count64 (Reg.FXE_BYTES_LO core) (Reg.FXE_BYTES_HI core) 65536).count32
      (Reg.FXE_CHAFF_IN core) marks.length
    let waiting := (s2.joinsOn r core).filter fun q => q.missed.contains tile
    let drop := fun (q : RoundJoin) => if waiting.any (fun w => w.inst = q.inst) then { q with missed := q.missed.filter (· ≠ tile) } else q
    waiting.foldl (fun (s : State) w => s.postToken w.inst w.token 1) (s2.setRound b { r with joins := r.joins.map drop })

/-- The ring core whose shard holds a tile (R227). -/
def Round.home (r : Round) (tile : Nat) : Nat :=
  (((List.range r.ring.length).find? fun k => (shardTiles r.ring.length r.tiles k).contains tile).bind fun k => r.ring[k]?).getD 0

/-- A tile on the ring: its home segment reads it once, through the bay's translation, when it injects it, and the same data goes round (R227).
A fault on that read holds the tile, and is posted once. -/
def State.injectTile (s : State) (b : Nat) (r : Round) (tile : Nat) : State × Option (Round × Bytes × List Nat) :=
  match AMap.get? r.flying tile with
  | some d => (s, some (r, d))
  | none =>
    let en := fxeEngine (r.home tile)
    match s.readTile b (r.base.toNat + tile * 65536) en with
    | (s1, .error f) =>
      let held := s1.trans.faults.any fun q => q.bay = b && q.va.toNat = f.va && q.holder = .none
      (if held then s1 else (s1.raiseFault b f.va false en f.cause f.level f.entry .none).1, none)
    | (s1, .ok d) => (s1, some ({ r with flying := AMap.set r.flying tile d }, d))

/-- A tile has passed a core; one that has passed every ring core is on its way no longer. -/
def Round.passes (r : Round) (core tile : Nat) : Round :=
  let passed := AMap.set r.passed core (AMap.getD r.passed core 0 + 1)
  let by_ := r.ring.all fun n => ((r.order n).take (AMap.getD passed n 0)).contains tile
  { r with passed := passed, flying := if by_ then AMap.erase r.flying tile else r.flying }

/-- The next tile passes a core: delivered, skipped, or left for direct reads (R227 to R229). -/
def State.passTile (s : State) (b : Nat) (r0 : Round) (core tile : Nat) : State :=
  match s.injectTile b r0 tile with
  | (s1, none) => s1
  | (s1, some (r1, bs, marks)) =>
    let r := r1.passes core tile
    let joins := s1.joinsOn r core
    let c := s1.core core
    if s1.coreRole core ≠ 1 || c.hasTile (tileKey r.serial tile) || joins.isEmpty then (s1.setRound b r).roundEnd b r.round
    else if ((AMap.vals c.current.tiles).filter fun k => decide (k < s1.halfSlots b)).length < s1.halfSlots b then
      let s2 := (s1.putTile core (tileKey r.serial tile) (freeTileSlot c.current 0) bs marks).countWrap (Reg.FXE_RING_TILES core) 1
      joins.foldl (fun (s : State) w => s.postToken w.inst w.token 1) ((s2.setRound b r).roundEnd b r.round)
    else
      let miss := fun (q : RoundJoin) => if joins.any (fun w => w.inst = q.inst) then { q with missed := q.missed ++ [tile] } else q
      (s1.setRound b { r with joins := r.joins.map miss }).roundEnd b r.round

/-- A tile reaches a ring core, or a late stall of it reads one directly: of the rounds of that number, the earliest that has one to read or is in
progress. -/
def State.ringDelivery (s : State) (b round core : Nat) : State :=
  let late := fun (r : Round) => (s.joinsOn r core).find? fun j => !j.missed.isEmpty && !s.engineFault j.inst
  match (s.bay b).rounds.find? fun r => r.round = round && ((late r).isSome || !r.ended) with
  | none => s
  | some r =>
    match late r with
    | some j => s.directTile b r core j ((j.missed.head?).getD 0)
    | none =>
      match (r.order core)[AMap.getD r.passed core 0]? with
      | some t => s.passTile b r core t
      | none => s

/-- RING_TILE_DELIVERY (R228). -/
def execRingTileDelivery (bay : Fin 16) (round : BitVec 16) (core : Fin 36) (s : State) : Host.Outcome State Fault Refusal :=
  s.done (s.ringDelivery bay.val round.toNat core.val)

end Sys2Proof.Machine
end

