-- ==== Sys2Proof/Machine/Chains.lean ====
section
/-! DEFINITION. What passes between sheaves and ends them (04 R91, R92, 09 R218 to R224, R230 to R236): a sheaf's end, triggered
instances, bank-side queue service, flushes, cancels and gleaning, copy channels. -/

namespace Sys2Proof.Machine

/-! ### The end of a sheaf (04 R91, R92, 06 R151, 08 R190) -/

/-- What two sheaves of a chain have done to one row's carried state (07 R174, R179). -/
def RowScan.merge (a b : RowScan) : RowScan :=
  { checked := a.checked || b.checked, badHeader := a.badHeader || b.badHeader, loadChaff := a.loadChaff || b.loadChaff
    sat := a.sat + b.sat, overs := a.overs + b.overs, stored := a.stored || b.stored, storeChaff := a.storeChaff || b.storeChaff
    bodyEnd := max a.bodyEnd b.bodyEnd, thawing := a.thawing || b.thawing, mismatches := a.mismatches + b.mismatches }

/-- A batch learns what a sheaf of its chain did: scan results by row; and an aborted sheaf marks rows that it may have stored in part
(07 R170). -/
def Batch.learn (y : Batch) (x : Inst) (maybe : Bool) : Batch :=
  { y with
    cut := x.chaffMode
    rows := (List.range y.rows.length).filterMap fun j => (y.rows[j]?).map fun r =>
      let m := AMap.getD x.scan j .zero
      { r with scan := r.scan.merge m, torn := r.torn || (x.chaffMode && (m.stored || maybe)) } }

/-- The end of a sheaf as its chain sees it. Whether an aborted sheaf that uses the scan engine carried a STORE is not told by its descriptor:
a free value. -/
def State.chainLearn (s : State) (x : Inst) : State :=
  match x.chain with
  | none => s
  | some c =>
    match AMap.get? (s.batcher x.bay).slots c with
    | none => s
    | some y =>
      let (v, s1) := if x.chaffMode && x.desc.engines.testBit engineSce then s.draw else (0, s)
      s1.setSlot x.bay c (y.learn x (bit v 0))

/-- An instance's entry and what it holds on its core go; ended rounds that nobody reads go; the core and the bay look again. -/
def State.vacate (s : State) (i : Nat) (x : Inst) : State :=
  let s1 := ((s.leaveStall i x).leaveRounds i x).dropInst i
  let y := s1.bay x.bay
  let s2 := s1.setBay x.bay { y with rounds := y.rounds.filter fun r => !r.ended || !r.joins.isEmpty }
  ((s2.grant x.core).retryPreempt x.bay).listRoom x.bay

/-- The token handle of a step is published with its chain's end: the next step of each of its sequences is ready (08 R189, R190). -/
def State.stepsReady (s : State) (b : Nat) (chain : Option Nat) : State :=
  match chain.bind fun c => (AMap.get? (s.batcher b).slots c).map fun y => (c, y) with
  | none => s
  | some (c, y) =>
    if !y.seq || y.held || !s.chainEnded b c then s
    else
      (y.rows.filter fun r => !r.finished).foldl (fun s r =>
        let q := s.seqCtx r.index
        match q.inflight with
        | some f =>
          if q.state = .running && !f.last && q.pending.isNone && q.readyAt.isNone then
            s.seqReady b r.index ((s.reg (Reg.SQ_POS r.index)).toNat + 1)
          else s
        | none => s) s

/-- Every program of an instance has ended and nothing of it is under way; of an aborted one, its output program has. -/
def State.sheafEnded (s : State) (i : Nat) (x : Inst) : Bool :=
  x.gleaning.isNone && !(s.anyRequest fun r => r.ofInst i) &&
    (if x.chaffMode then (x.output.map (·.ended)).getD true && x.unmarked.isEmpty
     else x.state = .resident && x.allEnded && !s.engineBusy i)

/-- A sheaf is DONE (R91, R92), or an aborted one has published its marked handles (R108). -/
def State.sheafDone (s : State) (i : Nat) : State :=
  match s.inst? i with
  | none => s
  | some x =>
    if !s.sheafEnded i x then s
    else
      let s1 := (s.publish x).chainLearn x
      let y := s1.bay x.bay
      let s2 : State :=
        if x.chaffMode then s1
        else
          let t := (s1.setBay x.bay { y with doneSeqs := setInsert y.doneSeqs x.seq.toNat }).countWrap (Reg.CORE_SHEAVES x.core) 1
          t.trace x.bay 0x0101 (telUnit 0 x.core) x.seq x.traceArg
      (s2.vacate i x).stepsReady x.bay x.chain

/-- SHEAF_DONE (R92). -/
def execSheafDone (inst : Nat) (s : State) : Host.Outcome State Fault Refusal := s.done (s.sheafDone inst)

/-! ### Triggered instances (R221) -/

/-- The triggered template that a queue feeds. -/
def State.triggerOf (s : State) (q : Nat) : Option (Nat × SheafDesc) :=
  match s.queueDef q with
  | some (b, d) =>
    if d.consumer ≠ 0 then none
    else
      let ts := s.templates b
      ((List.range ts.length).find? fun i => triggered ts i && ((ts[i]?).map fun t => decide ((parseSheaf t).consume0 = q)).getD false).bind
        fun i => (ts[i]?).map fun t => (b, parseSheaf t)
  | none => none

/-- The descriptor of a triggered instance: the template with its handle's context; a handle of an external producer carries none, and the
template's own values stand. -/
def State.triggerDesc (s : State) (d : SheafDesc) (c : HandleCtx) : SheafDesc :=
  if c.rowCount = 0 then { d with deadline := if d.be then d.deadline else s.lic + d.deadline }
  else
    { d with rowTable := c.rowTable, resetMasks := c.resetMasks, rowCount := c.rowCount, steps := c.steps, deadline := c.deadline }

/-- The handle at the head of a triggered template's queue is popped and bound to a new instance; a BE template's waits in lull. -/
def State.triggerRun (s : State) (q : Nat) : State :=
  match s.triggerOf q with
  | none => s
  | some (b, d) =>
    let y := s.bay b
    if (d.be && (y.lullWanted || y.lulled)) || !s.readyRoom b d.be then s
    else
      match s.popQueue q with
      | (s1, some e) => (s1.createInst b (s1.triggerDesc d e.ctx) .trigger e.ctx.chain [(q, e)]).1
      | (s1, none) => s1

/-- TRIGGERED_INSTANCE (R221). -/
def execTriggeredInstance (queue : Fin 4096) (s : State) : Host.Outcome State Fault Refusal := s.done (s.triggerRun queue.val)

/-! ### Bank-side queue service (R223) -/

/-- The progress of a queue's service kept, or dropped. -/
def State.setService (s : State) (q : Nat) (z : Option Service) : State :=
  { s with engines := { s.engines with services := match z with
      | some z => AMap.set s.engines.services q z
      | none => AMap.erase s.engines.services q } }

/-- A service is held on a translation fault. -/
def State.serviceHeld (s : State) (q : Nat) : Bool :=
  (s.trans.faults.any fun f => f.holder = .service q) || s.trans.held.any fun h => h.holder = .service q

/-- One step of a service (R223): the next page run of the command under way, its end, or the start of the next command. A broken command, and every
one after it, has its results marked; an empty command slot ends the commands. A page already read is not read again after a fault (05 R138). -/
def State.serviceStep (s : State) (b : Nat) (lc : Bool) (size : Nat) (z : Service) :
    State × Service × Option (RunFault × Engine) :=
  match z.current with
  | some (c, (va, len) :: rest) =>
    let on := fun (c : BseCommand) => { z with current := some (c, rest) }
    if !c.touches va len then (s, on c, none)
    else
      let en := bseEngine (s.loftDie b va 0)
      match s.translate b va false en with
      | (s1, .error (cause, level, e)) => (s1, z, some (⟨va, cause, level, e⟩, en))
      | (s1, .ok t) =>
        let (s2, c1) := s1.shareWork c z.area va len (t.phys va) en.place (pteChaff t.entry)
        (s2, on c1, none)
  | some (c, []) =>
    let (s1, area) := s.bseResults c z.area (s.loftDie b (c.stop - 1) 0)
    (s1, { z with area := area, current := none, results := z.results ++ [(c.resOff, c.resSize)] }, none)
  | none =>
    match z.slots with
    | [] => (s, z, none)
    | off :: rest =>
      let e := z.area.cribRead off 32
      let op := leAt e 0 1
      let c0 := parseBse e 0 lc 0
      if allZero e then (s, { z with slots := [] }, none)
      else if z.broken || !((op = 1 || op = 2) && c0.ok size) then
        let run := (c0.resOff, min c0.resSize (size - c0.resOff))
        let area := { z.area with cribChaff := markLines z.area.cribChaff run.1 run.2 true }
        (s, { z with area := area, slots := rest, broken := true, results := z.results ++ [run] }, none)
      else
        let c := { c0 with stop := c0.matrix.toNat + (c0.rows - 1) * c0.stride + c0.rowBytes }
        (s, { z with slots := rest, current := some (c, pageRuns c.matrix.toNat (c.stop - c.matrix.toNat)) }, none)

/-- Nothing of a service is left to run. -/
def Service.ran (z : Service) : Bool := z.slots.isEmpty && z.current.isNone

/-- Run a service until its commands have run or a page faults. -/
def State.serviceRun (s : State) (b : Nat) (lc : Bool) (size : Nat) (z : Service) : Nat → State × Service × Option (RunFault × Engine)
  | 0 => (s, z, none)
  | n + 1 =>
    if z.ran then (s, z, none)
    else
      match s.serviceStep b lc size z with
      | (s1, z1, none) => s1.serviceRun b lc size z1 n
      | (s1, z1, some f) => (s1, z1, some f)

/-- More steps than the commands of a buffer have: 2^26 bytes hold 2^21 commands, each of at most 2^21 pages. -/
def serviceFuel : Nat := 2 ^ 43

/-- Write one run of a buffer's bytes back, by line, each with its mark. -/
def State.putLines (s : State) (va : Nat) (area : Inst) (l : List (Nat × Nat × Translation)) (run : Nat × Nat) : State :=
  (lineRuns (va + run.1) run.2).foldl (fun s r =>
    match l.find? fun e => decide (e.1 ≤ r.1 ∧ r.1 < e.1 + e.2.1) with
    | some e => s.physWrite (e.2.2.phys r.1) (area.cribRead (r.1 - va) r.2) (area.cribMarked (r.1 - va) r.2)
    | none => s) s

/-- The handle goes on to the paired queue. -/
def State.serviceDone (s : State) (q : Nat) (e : QueueEntry) (chaff : Bool) : State :=
  (s.popQueue q).1.pushRun (q + 1) [{ e with handle := { e.handle with chaff := e.handle.chaff || chaff } }]

/-- A fault of a service: a resumable one holds it where it stands, and it goes on from there; a protection fault ends the buffer's run. -/
def State.serviceFault (s : State) (b q : Nat) (e : QueueEntry) (write : Bool) (f : RunFault) (en : Engine) : State :=
  let s1 := (s.raiseFault b f.va write en f.cause f.level f.entry (.service q)).1
  if s.faultWaits f.cause then s1 else (s1.setService q none).serviceDone q e true

/-- The service of a buffer starts: the buffer is read, with its marks. -/
def State.serviceStart (s : State) (b : Nat) (h : Handle) : State × Except RunFault Service :=
  let va := s.bufferVa b h.pool h.buffer
  let size := s.poolSize b h.pool
  match s.translateRun b true (bseEngine (s.loftDie b va 0)) (pageRuns va size) with
  | (s1, .error f) => (s1, .error f)
  | (s1, .ok l) =>
    let read := l.foldl (fun (a : State × Bytes) x => let (s', bs, _) := a.1.readPhys x.2.2 x.1 x.2.1; (s', a.2 ++ bs)) (s1, [])
    let marked := (lineRuns va size).filter fun r => h.chaff ||
      l.any fun x => decide (x.1 ≤ r.1 ∧ r.1 < x.1 + x.2.1) && (pteChaff x.2.2.entry || read.1.physChaff (x.2.2.phys r.1) r.2)
    let area := (freshInst b (parseSheaf []) 0 .submit none 0 0).cribWrite 0 read.2 false
    let area1 := { area with cribChaff := marked.foldl (fun m r => markLines m (r.1 - va) r.2 true) area.cribChaff }
    (read.1, .ok ⟨area1, (List.range (min size (h.length * 64) / 32)).map (· * 32), none, false, []⟩)

/-- The results of a service go into the buffer, whole or not at all, and its handle goes on. -/
def State.serviceWrite (s : State) (b q : Nat) (e : QueueEntry) (z : Service) : State :=
  let h := e.handle
  let va := s.bufferVa b h.pool h.buffer
  let en := bseEngine (s.loftDie b va 0)
  match s.translateRun b true en (pageRuns va (s.poolSize b h.pool)) with
  | (s1, .error f) => (s1.setService q (some z)).serviceFault b q e true f en
  | (s1, .ok l) =>
    ((z.results.foldl (fun s r => s.putLines va z.area l r) s1).setService q none).serviceDone q e
      (z.broken || z.results.any fun r => z.area.cribMarked r.1 r.2)

/-- Run a service from where it stands. -/
def State.serviceOn (s : State) (b q : Nat) (e : QueueEntry) (z : Service) : State :=
  match s.serviceRun b (!e.ctx.be) (s.poolSize b e.handle.pool) z serviceFuel with
  | (s1, z1, some (f, en)) => (s1.setService q (some z1)).serviceFault b q e false f en
  | (s1, z1, none) => s1.serviceWrite b q e z1

/-- The bank-side engines serve the handle at the head of a queue of consumer kind 1. -/
def State.serve (s : State) (q : Nat) : State :=
  match s.queueDef q with
  | none => s
  | some (b, d) =>
    match (s.queue q).entries with
    | [] => s
    | e :: _ =>
      if d.consumer ≠ 1 || s.serviceHeld q then s
      else
        match AMap.get? s.engines.services q with
        | some z => s.serviceOn b q e z
        | none =>
          match s.serviceStart b e.handle with
          | (s1, .error f) => s1.serviceFault b q e true f (bseEngine (s.loftDie b f.va 0))
          | (s1, .ok z) => s1.serviceOn b q e z

/-- BSE_QUEUE_SERVICE (R223). -/
def execBseQueueService (queue : Fin 4096) (s : State) : Host.Outcome State Fault Refusal := s.done (s.serve queue.val)

/-! ### FLUSH (R224) -/

/-- Empty a queue of a bay in lull; its buffers return, its push count runs on. -/
def State.flushQueue (s : State) (b q : Nat) : State :=
  match s.queueDef q with
  | some (c, _) =>
    if c ≠ b || !(s.bay b).lulled then s
    else
      let x := s.queue q
      let s1 := (s.setQueue q { x with entries := [] }).setService q none
      (x.entries.foldl (fun s e => s.returnBuffer b e.handle.pool e.handle.buffer) s1).drainRuns q
  | none => s

/-- FLUSH (R224). -/
def execQueueFlush (src : Source) (bay : Fin 16) (s : State) : Host.Outcome State Fault Refusal :=
  let q := fld (s.reg (Reg.SW_Q_SEL bay.val)) 11 0
  s.done (s.cmdWrite src (Reg.SW_Q_CMD bay.val q) 1 fun s => s.flushQueue bay.val q)

/-! ### Cancellation and gleaning (R230 to R233, R236) -/

/-- Other instances and handles of a cancelled batch no longer belong to its chain; its slot is free. -/
def State.dissolve (s : State) (b c : Nat) : State :=
  let handle := fun (e : QueueEntry) => if e.ctx.chain = some c then { e with ctx := { e.ctx with chain := none } } else e
  let mine := fun q => ((s.queueDef q).map fun d => decide (d.1 = b)).getD false
  let s1 : State := { s with
    insts := AMap.mapVals (fun _ x => if x.bay = b && x.chain = some c then { x with chain := none } else x) s.insts
    queues := AMap.mapVals (fun q x => if mine q then { x with entries := x.entries.map handle, runs := x.runs.map (·.map handle) } else x)
      s.queues }
  (s1.freeSlot b c).drainClosing b (s1.batcher b).waiting.length

/-- A cancel completes (R230, R233): popped buffers are released, the rows of the batch go back, CANCEL_DONE arises. -/
def State.cancelEnd (s : State) (i : Nat) (x : Inst) : State :=
  let s1 := x.popped.foldl (fun s e => s.returnBuffer x.bay e.2.handle.pool e.2.handle.buffer) s
  let s2 :=
    match x.chain.bind fun c => (AMap.get? (s1.batcher x.bay).slots c).map fun y => (c, y) with
    | some (c, y) => (s1.returnRows y).dissolve x.bay c
    | none => s1
  let z := s2.bay x.bay
  (s2.setBay x.bay { z with cancelBusy := if z.cancelBusy = some i then none else z.cancelBusy }).latch (Reg.SW_EVENT_STATUS x.bay) 0

/-- Count a completed gleaning with its wasted bytes (R231). -/
def State.countGlean (s : State) (b bytes : Nat) : State :=
  (s.count64 (Reg.SW_GLEAN_LO b) (Reg.SW_GLEAN_HI b) bytes).countWrap (Reg.SW_GLEANS b) 1

/-- A cancel is refused with a reason. -/
def State.refuseCancel (s : State) (b reason : Nat) : State :=
  let y := s.bay b
  s.setBay b { y with cancelRefused := true, cancelReason := reason }

/-- `SW_CANCEL_CMD` GO. -/
def State.cancelOp (s : State) (b : Nat) : State :=
  let seq := s.reg (Reg.SW_CANCEL_SEQ b)
  let y := s.bay b
  if y.cancelBusy.isSome then s.refuseCancel b 3
  else
    match s.insts.find? fun e => e.2.bay = b && e.2.seq = seq && e.2.gleaning ≠ some .replay with
    | none => s.refuseCancel b (if y.doneSeqs.contains seq.toNat then 2 else 1)
    | some (i, x) =>
      if x.chaffMode || x.gleaning.isSome then s.refuseCancel b 3
      else
        let s1 := s.setBay b { y with
          cancelRefused := false, cancelReason := 0, readyLc := y.readyLc.filter (· ≠ i), readyBe := y.readyBe.filter (· ≠ i) }
        if x.state = .ready then ((s1.dropInst i).countGlean b 0).cancelEnd i x
        else
          let z := s1.bay b
          (s1.setBay b { z with cancelBusy := some i }).beginGlean i .cancel

/-- SW_CANCEL (R230). -/
def execSwCancel (src : Source) (bay : Fin 16) (s : State) : Host.Outcome State Fault Refusal :=
  s.done (s.cmdWrite src (Reg.SW_CANCEL_CMD bay.val) 1 fun s => s.cancelOp bay.val)

/-- Bank-side shares of an instance are still under way. -/
def State.sharesOf (s : State) (i : Nat) : Bool :=
  let ids := (s.engines.commands.filter fun c => c.inst = i).map (·.id)
  s.engines.shares.any fun sh => match sh.work with
    | .command id => ids.contains id
    | .pass j _ _ => j = i

/-- Gleaning completes once every access of the instance has (R230, R231). That of an aborted instance's input, weight and next-layer programs leaves
its output program in chaff mode (04 R108). -/
def State.gleanEnd (s : State) (i : Nat) : State :=
  match s.inst? i with
  | none => s
  | some x =>
    match x.gleaning with
    | none => s
    | some kind =>
      if s.sharesOf i || (s.anyRequest fun r => r.ofInst i) || x.state = .saving || x.state = .restoring then s
      else
        let s1 := (List.range 4).foldl State.nextPass (s.discardEngines i)
        if kind = .abort then
          let s2 := (x.got.filter fun g => g.1 ≠ .output).foldl (fun s g => s.returnBuffer x.bay g.2.1 g.2.2) s1
          (s2.setInst i { x with gleaning := none, got := x.got.filter fun g => g.1 = .output, wasted := 0 }).countGlean x.bay x.wasted
        else
          let s2 := x.got.foldl (fun s g => s.returnBuffer x.bay g.2.1 g.2.2) s1
          let s3 := (s2.countGlean x.bay (x.wasted + x.wastedOut)).vacate i x
          if kind = .cancel then s3.cancelEnd i x else s3

/-- GLEAN_DONE (R231). -/
def execGleanDone (inst : Nat) (s : State) : Host.Outcome State Fault Refusal := s.done (s.gleanEnd inst)

/-! ### Copy channels (R234, R235) -/

def State.channel (s : State) (b c : Nat) : CopyChannel := AMap.getD (s.bay b).channels c .idle
def State.setChannel (s : State) (b c : Nat) (x : CopyChannel) : State :=
  let y := s.bay b
  s.setBay b { y with channels := AMap.set y.channels c x }

/-- The fetch engine that a copy channel uses: no core's own. -/
def copyEngine : Engine := ⟨reqFxe, 0xFF, 4, true, .sheaf⟩

/-- The staged descriptor, as ARM copies it. -/
def State.copyDesc (s : State) (b c : Nat) : CopyDesc :=
  { src := s.reg64 (Reg.CCH_SRC_LO b c) (Reg.CCH_SRC_HI b c), dst := s.reg64 (Reg.CCH_DST_LO b c) (Reg.CCH_DST_HI b c)
    len := (s.reg (Reg.CCH_LEN b c)).toNat, be := bit (s.reg (Reg.CCH_CTRL b c)) 0 }

/-- A descriptor becomes active (R234): ERROR clears, and nothing of it has moved. -/
def State.copyStart (s : State) (b c : Nat) (d : CopyDesc) : State :=
  (s.setChannel b c { CopyChannel.idle with active := some d }).setReg (Reg.CCH_PROGRESS b c) 0

/-- The transfer ends, and the pending copy becomes active (R234); a transfer of length zero completes at once (R235). -/
def State.copyEnd (s : State) (b c : Nat) (error : Option Nat) : Nat → State
  | 0 => s
  | n + 1 =>
    let x := s.channel b c
    let s1 := (s.countWrap (Reg.CCH_COMPLETIONS b c) 1).latch (Reg.CCH_STATUS b c) 0
    match x.pending with
    | some d =>
      let s2 := s1.copyStart b c d
      if d.len = 0 then s2.copyEnd b c none n else s2
    | none => s1.setChannel b c { CopyChannel.idle with error := error.isSome, cause := error.getD 0 }

/-- Faults and held writes of a channel's transfer are withdrawn. -/
def State.withdrawCopy (s : State) (b c : Nat) : State :=
  { s with trans := { s.trans with
      faults := s.trans.faults.filter fun f => f.holder ≠ .copy b c, held := s.trans.held.filter fun h => h.holder ≠ .copy b c } }

/-- A protection fault ends the transfer with ERROR (R234): what is still in flight lands nowhere. -/
def State.copyFail (s : State) (b c : Nat) (cause : FaultCause) : State :=
  ((s.gleanRequests (fun r => r.ofChannel b c) none).withdrawCopy b c).copyEnd b c (some cause.code) 2

/-- A fault of a transfer (R234, R235): a resumable one holds it at its element and sets BLOCKED. -/
def State.copyFault (s : State) (b c : Nat) (f : RunFault) (write : Bool) : State :=
  let s1 := (s.raiseFault b f.va write copyEngine f.cause f.level f.entry (.copy b c)).1
  if s.faultWaits f.cause then s1.setChannel b c { s1.channel b c with blocked := true, cause := f.cause.code } else s1.copyFail b c f.cause

/-- 64-byte units of the active transfer have completed. -/
def State.copyProgress (s : State) (b c len : Nat) : State := s.countWrap (Reg.CCH_PROGRESS b c) (len / 64)

/-- ARM (R234). -/
def State.copyArm (s : State) (b c : Nat) : State :=
  let s1 := s.applyAll [Reg.CCH_SRC_LO b c, Reg.CCH_SRC_HI b c, Reg.CCH_DST_LO b c, Reg.CCH_DST_HI b c, Reg.CCH_LEN b c, Reg.CCH_CTRL b c]
  let d := s1.copyDesc b c
  let x := s1.channel b c
  match x.active, x.pending with
  | none, _ =>
    let s2 := s1.copyStart b c d
    if d.len = 0 then s2.copyEnd b c none 2 else s2
  | some _, none => s1.setChannel b c { x with pending := some d }
  | some _, some _ => (s1.setChannel b c { x with pending := some d }).count16 (Reg.CCH_LOST_REARM b c)

/-- CCH_ARM (R234). -/
def execCchArm (src : Source) (bay : Fin 16) (ch : Fin 4) (s : State) : Host.Outcome State Fault Refusal :=
  s.done (s.cmdWrite src (Reg.CCH_CMD bay.val ch.val) 1 fun s => s.copyArm bay.val ch.val)

/-- The next piece of a transfer that has `done` bytes moved: at most to the end of a 64 KiB page of the source or of the destination. -/
def copyPiece (d : CopyDesc) (done : Nat) : Nat × Nat × Nat :=
  let src := d.src.toNat + done
  let dst := d.dst.toNat + done
  (src, dst, min (d.len * 64 - done) (min (65536 - src % 65536) (65536 - dst % 65536)))

/-- Move one local piece, with its marks line by line (03 R77). -/
def State.copyLocal (s : State) (src dst len : Nat) (from_ dest : Translation) : State :=
  let (s1, _, _) := s.readPhys from_ src len
  (lineRuns src len).foldl (fun s r =>
    let a := from_.phys r.1
    s.physWrite (dest.phys (dst + (r.1 - src))) (s.physRead a r.2) (pteChaff from_.entry || s.physChaff a r.2)) s1

/-- How a transfer stands after a run: all of its pieces moved or asked for, or stopped at a fault. -/
inductive CopyStop where
  | issued
  | fault (f : RunFault) (write : Bool)
  | atEnd

/-- Move one piece, or ask a peer for it: its translations are made; a piece that no connection takes is a WRONG_TIER fault (10 R262). -/
def State.copyMove (s : State) (b c : Nat) (be : Bool) (src dst len : Nat) : State × Option (RunFault × Bool) :=
  match s.translate b src false copyEngine with
  | (s1, .error (cause, level, e)) => (s1, some (⟨src, cause, level, e⟩, false))
  | (s1, .ok t) =>
    match s1.translate b dst true copyEngine with
    | (s2, .error (cause, level, e)) => (s2, some (⟨dst, cause, level, e⟩, true))
    | (s2, .ok u) =>
      if !t.remote && !u.remote then ((s2.copyLocal src dst len t u).copyProgress b c len, none)
      else
        let far := if t.remote then t else u
        match s2.remoteConn b (remotePeer far.entry) be with
        | none => (s2, some (⟨if t.remote then src else dst, .wrongTier, (leafLevel (pteSizeCode far.entry)).getD 4, far.entry⟩, !t.remote))
        | some k =>
          if t.remote then (s2.postRead k (.copyRead b c src dst len) (remoteAddr t src) len, none)
          else
            let (s3, bs, _) := s2.readPhys t src len
            (s3.postWrite k (.copyWrite b c dst len) (remoteAddr u dst) bs, none)

/-- Ask again for the pieces that a fault at their destination held. -/
def State.copyAgain (s : State) (b c : Nat) (be : Bool) : List (Nat × Nat × Nat) → State × Option (RunFault × Bool)
  | [] => (s, none)
  | x :: rest =>
    match s.copyMove b c be x.1 x.2.1 x.2.2 with
    | (s1, none) => (s1.setChannel b c { s1.channel b c with again := rest }).copyAgain b c be rest
    | r => r

/-- Move pieces of a transfer up to a bound in bytes, in order (R235). -/
def State.copyRun (s : State) (b c : Nat) (d : CopyDesc) (bound : Nat) : Nat → State × CopyStop
  | 0 => (s, .atEnd)
  | n + 1 =>
    let done := (s.channel b c).asked * 64
    if done ≥ d.len * 64 then (s, .issued)
    else if done ≥ bound then (s, .atEnd)
    else
      let (src, dst, len0) := copyPiece d done
      let len := min len0 (bound - done)
      match s.copyMove b c d.be src dst len with
      | (s1, some (f, write)) => (s1, .fault f write)
      | (s1, none) => (s1.setChannel b c { s1.channel b c with asked := (done + len) / 64 }).copyRun b c d bound n

/-- Pieces that a transfer may have. -/
def copyFuel (d : CopyDesc) : Nat := d.len / 512 + 4

/-- CANCEL (R234): the active transfer stops at an element boundary, which one is a free value, and is gleaned: it is complete once no access of it
is in flight, and nothing of it lands after that (R231). A pending copy is discarded. -/
def State.copyCancel (s : State) (b c : Nat) : State :=
  let x := s.channel b c
  match x.active with
  | none => s
  | some d =>
    let (v, s1) := s.draw
    let bound := (v.toNat % (d.len + 1)) * 64
    let s2 := if x.issued || x.blocked then s1 else (s1.copyRun b c d bound (copyFuel d)).1
    let n := (s2.bay b).gleanSerial
    let waits := s2.anyRequest fun r => r.ofChannel b c
    let s3 := ((s2.gleanRequests (fun r => r.ofChannel b c) (some n)).withdrawCopy b c).setChannel b c .idle
    if waits then s3.setBay b { s3.bay b with gleanSerial := n + 1 } else s3.countGlean b 0

/-- CCH_CANCEL (R234). -/
def execCchCancel (src : Source) (bay : Fin 16) (ch : Fin 4) (s : State) : Host.Outcome State Fault Refusal :=
  s.done (s.cmdWrite src (Reg.CCH_CMD bay.val ch.val) 2 fun s => s.copyCancel bay.val ch.val)

/-- A transfer completes, once its remote pieces have; or a fault holds or ends it (R234, R235). -/
def State.copyDone (s : State) (b c : Nat) : State :=
  let x := s.channel b c
  match x.active with
  | none => s
  | some d =>
    if x.blocked then s
    else
      match s.copyAgain b c d.be x.again with
      | (s0, some (f, write)) => s0.copyFault b c f write
      | (s0, none) =>
        match (if x.issued then (s0, CopyStop.issued) else s0.copyRun b c d (d.len * 64) (copyFuel d)) with
        | (s1, .issued) =>
          if s1.anyRequest fun r => r.ofChannel b c then s1.setChannel b c { s1.channel b c with issued := true } else s1.copyEnd b c none 2
        | (s1, .fault f write) => s1.copyFault b c f write
        | (s1, .atEnd) => s1

/-- CCH_TRANSFER_DONE (R234). -/
def execCchTransferDone (bay : Fin 16) (ch : Fin 4) (s : State) : Host.Outcome State Fault Refusal :=
  s.done (s.copyDone bay.val ch.val)

end Sys2Proof.Machine
end

