-- ==== Sys2Proof/Machine/Bale.lean ====
section
/-! DEFINITION. Bale (10 R245 to R259): sequence state and acknowledgements, retransmission, peer resets and entries, queue pieces and bound
queues, event messages. -/

namespace Sys2Proof.Machine

/-! ### What an acknowledged or discarded message releases (R247, R256, R257, 15 R359 to R361) -/

/-- Room has come into a ring whose slot was sent: the context looks again. -/
def State.slotSent (s : State) (seq : Bool) (i : Nat) : State :=
  let s1 := (s.slotReleased seq i).outFreed seq i
  if seq then s1.seqTry i else s1.tryPost i

/-- An exported alarm record is delivered: an entry that was acknowledged and has not changed since is free (15 R360). -/
def State.alarmDelivered (s : State) (r : Bytes) : State :=
  let i := leAt r 0x2A 2
  match AMap.get? s.vane.alarms i with
  | some e =>
    if leAt r 0x29 1 % 2 = 1 && e.acked && !e.mark then { s with vane := { s.vane with alarms := AMap.erase s.vane.alarms i } } else s
  | none => s

/-- A TELEM message is delivered: the records of its sub-ring up to it are acknowledged, and its alarms exported (15 R359, R361). -/
def State.telemDelivered (s : State) (ring : Nat) (first : Word) (records : List Bytes) : State :=
  let own := records.filter fun r => leAt r 0 1 ≠ 3
  let x := s.ring ring
  let upTo := first + w32 own.length
  let y := if seqLt x.acked upTo && seqLe first x.acked then { x with acked := upTo } else x
  (records.filter fun r => leAt r 0 1 = 3).foldl State.alarmDelivered (s.setRing ring y)

/-- A TELEM message is discarded: its alarms are marked again, and export goes on from the first record not acknowledged (15 R359,
R361). -/
def State.telemLost (s : State) (ring : Nat) (records : List Bytes) : State :=
  let named := (records.filter fun r => leAt r 0 1 = 3).map fun r => leAt r 0x2A 2
  let s1 : State := { s with vane := { s.vane with
      alarms := AMap.mapVals (fun i (e : AlarmEntry) => if named.contains i then { e with mark := true } else e) s.vane.alarms } }
  let x := s1.ring ring
  s1.setRing ring { x with sent := if seqLt x.acked x.sent then x.acked else x.sent }

/-- A message is done with: delivered, or discarded. -/
def State.bodyDone (s : State) (delivered : Bool) (b : TxBody) : State :=
  match b with
  | .slotPiece seq i _ _ _ _ _ final _ => if final then s.slotSent seq i else s
  | .queuePiece bay pool buffer _ _ _ _ _ _ final _ => if final then s.returnBuffer bay pool buffer else s
  | .telem _ ring first records => if delivered then s.telemDelivered ring first records else s.telemLost ring records
  | .regResponse _ _ => s
  | .event _ _ => s
  | .reply _ _ _ _ => s

/-! ### Send-rate limits (R243) -/

/-- A moment lies within 50 µs. -/
def State.recent (s : State) (t : Option W64) : Bool := match t with | some w => decide (s.since w < periodsOfMicros 50) | none => false

/-- A limit after one notice. -/
def State.cutRate (s : State) (r : Option Nat) : Nat :=
  let l := r.getD s.lineRate
  l - l / 2 ^ fld (s.reg Reg.EB_ECN_CFG) 3 0

/-- A congestion notice lowers the limit of a peer, at most once per 50 µs. -/
def State.congestedPeer (s : State) (p : Nat) : State :=
  let x := s.peer p
  if s.recent x.cutAt then s else s.setPeer p { x with rate := some (s.cutRate x.rate), cutAt := some s.lic }

/-! ### Acknowledgements and retransmission (R239, R248, R249) -/

/-- A message is sent again, and counted (R249). -/
def State.resend (s : State) (p : Nat) (seq : Word) : State :=
  match (s.peer p).unacked.find? fun m => m.seq = seq with
  | some m => (s.countWrap Reg.EB_RETX 1).emit (.bale p true (some m))
  | none => s

/-- A frame of a message still waits to leave: its timer does not run. -/
def State.frameWaits (s : State) (p : Nat) (seq : Word) : Bool :=
  s.net.egress.any fun e => match e.2 with | .bale q _ (some m) => decide (q = p ∧ m.seq = seq) | _ => false

/-- Unacknowledged messages that a message has behind it, selectively acknowledged. -/
def sackedAfter (l : List TxMsg) (m : TxMsg) : Nat := (l.filter fun x => x.sacked && seqLt m.seq x.seq).length

/-- Messages that an acknowledgement shows lost: three later ones are acknowledged now, and were not before (R249). -/
def newlyLost (before after : List TxMsg) : List Word :=
  (after.filter fun m => !m.sacked && decide (sackedAfter after m ≥ 3) && decide (sackedAfter before m < 3)).map (·.seq)

/-- A received acknowledgement (R249): it releases what it names, revives a DOWN peer, and lets waiting messages leave. The weights of the
smoothed round-trip time are not stated: a free value. -/
def State.ackRx (s : State) (p : Nat) (cum sack : Word) : State :=
  let x := s.peer p
  if s.peerKind p = 0 || !seqLe cum x.txSeq then s
  else
    let gone := x.unacked.filter fun m => seqLt m.seq cum
    let left := (x.unacked.filter fun m => !seqLt m.seq cum).map fun m =>
      let d := (m.seq - cum - 1).toNat
      { m with sacked := m.sacked || (decide (d < 32) && bit sack d) }
    let (v, s0) := if gone.isEmpty then (0, s) else s.draw
    let lost := newlyLost x.unacked left
    let left1 := left.map fun m => if lost.contains m.seq then { m with retries := m.retries + 1 } else m
    let y := { x with
      unacked := left1, down := false, backoff := 0, rtt := if gone.isEmpty then x.rtt else fld v 23 0 }
    let s1 := gone.foldl (fun s m => s.bodyDone true m.body) (s0.setPeer p y)
    (lost.foldl (fun s q => s.resend p q) s1).pump p

/-- BALE_ACK_RX (R249). -/
def execBaleAckRx (peer : Fin 16384) (cum sack : Word) (s : State) : Host.Outcome State Fault Refusal :=
  s.done (s.ackRx peer.val cum sack)

/-- BALE_ACK_TIMER (R249). -/
def execBaleAckTimer (peer : Fin 16384) (s : State) : Host.Outcome State Fault Refusal :=
  s.done (if (s.peer peer.val).unackedEffects > 0 then s.sendAck peer.val else s)

/-- The timeout of a message (R249): it leaves again with the timeout doubled, or its peer is DOWN. Timers stand while the link is down
(R239), while the message waits to leave, and while its peer waits for a session (R251). -/
def State.retransmit (s : State) (p : Nat) (seq : Word) : State :=
  let x := s.peer p
  match x.unacked.find? fun m => m.seq = seq && !m.sacked with
  | none => s
  | some m =>
    if !s.linkUp || x.down || x.awaitSession || s.frameWaits p seq then s
    else if m.retries ≥ fld (s.reg Reg.EB_RTO) 19 16 then s.setPeer p { x with down := true }
    else
      (s.setPeer p { x with
        backoff := x.backoff + 1
        unacked := x.unacked.map fun k => if k.seq = seq then { k with retries := k.retries + 1 } else k }).resend p seq

/-- BALE_RETRANSMIT (R249). -/
def execBaleRetransmit (peer : Fin 16384) (seq : Word) (s : State) : Host.Outcome State Fault Refusal :=
  s.done (s.retransmit peer.val seq)

/-- The probe of a DOWN peer (R249). -/
def State.probePeer (s : State) (p : Nat) : State :=
  let x := s.peer p
  match x.unacked with
  | m :: _ => if x.down && s.linkUp && !x.awaitSession && !s.frameWaits p m.seq then s.resend p m.seq else s
  | [] => s

/-- BALE_PROBE (R249). -/
def execBaleProbe (peer : Fin 16384) (s : State) : Host.Outcome State Fault Refusal := s.done (s.probePeer peer.val)

/-! ### Peer resets and entries (R247, R248, 14 R346) -/

/-- A peer's sequence state begins anew: its unacknowledged messages are discarded and counted, with what they hold. -/
def State.resetPeer0 (s0 : State) (p : Nat) : State :=
  let x := s0.peer p
  let y := { x with
    txSeq := 0, start := true, unacked := [], rxNext := 0, rxBeyond := [], arrived := [], unackedEffects := 0, down := false
    backoff := 0, ece := false }
  let s1 := ((s0.setPeer p y).dropFrames fun f => f.peer = some p).count32 Reg.EB_PEER_DISCARD x.unacked.length
  x.unacked.foldl (fun s m => s.bodyDone false m.body) s1

/-- Reset a peer: its session closes too (14 R346). -/
def State.resetPeer (s : State) (p : Nat) : State :=
  let s0 := match s.session p with | some x => s.closeSession x.id | none => s
  (s0.resetPeer0 p).pump p

/-- PEER_RESET (R247). -/
def execPeerReset (src : Source) (peer : Fin 16384) (s : State) : Host.Outcome State Fault Refusal :=
  s.done (s.cmdWrite src Reg.EB_CMD (w32 (3 + peer.val * 16)) fun s => s.resetPeer peer.val)

/-- A write of word 0x00 of an entry (R247): the entry's other words apply with it. -/
def State.peerEntry (s : State) (p : Nat) (v : Word) : State :=
  if fld v 7 0 > 2 then s
  else
    let s1 := (s.applyAll ((List.range 7).map fun w => peerWord p (w + 1))).setReg (peerWord p 0) (v &&& 0xFFFF01FF#32)
    s1.resetPeer p

/-- PEER_ENTRY_WRITE (R247). -/
def execPeerEntryWrite (src : Source) (peer : Fin 16384) (value : Word) (s : State) : Host.Outcome State Fault Refusal :=
  s.done (s.plainWrite src (peerWord peer.val 0) fun s => s.peerEntry peer.val value)

/-! ### Sequence state at the receiver (R248 to R251) -/

/-- A message's sequence arrives (R248): START resets the receiver's state; one at or beyond the window is dropped; a duplicate is discarded, and
one of a message that has taken effect counts as received again. -/
def State.takeSeq (s : State) (p : Nat) (cls : Nat) (start : Bool) (seq : Word) : State :=
  let x0 := s.peer p
  let x := if start && seq = 0 then { x0 with rxNext := 0, rxBeyond := [], arrived := [] } else x0
  if start && seq ≠ 0 then s
  else
    let d := (seq - x.rxNext).toNat
    if d < 2 ^ 31 && decide (d ≥ 1024) then s
    else if seqLt seq x.rxNext || x.rxBeyond.contains seq then (s.setPeer p x).effect p none
    else if x.arrived.any fun e => e.2 = seq then s.setPeer p x
    else s.setPeer p { x with arrived := x.arrived ++ [(cls, seq)] }

/-- The session checks of a message from a peer (R251): none passes where it is dropped. A refused one counts as having taken effect (R249). -/
def State.sessionTake (s : State) (p : Nat) (flagged authentic : Bool) (id counter : Word) : State × Bool :=
  match s.session p with
  | some x =>
    if !flagged then (s.count32 Reg.EB_RX_REFUSED 1, false)
    else if x.id ≠ id || !authentic || decide (counter.toNat ≤ x.rxHigh.toNat) then (s.count32 Reg.EB_RX_REFUSED 1, false)
    else
      let y := { x with rxHigh := counter, last := s.lic }
      let s1 : State := { s with sec := { s.sec with sessions := s.sec.sessions.map fun z => if z.id = x.id then y else z } }
      let s2 := s1.applyStaged Reg.SEC_SESSION_IDLE
      (if counter = 0xFFFFFFFF#32 then s2.closeSession x.id else s2, true)
  | none => if flagged then (s.count32 Reg.EB_RX_REFUSED 1, false) else (s, true)

/-- An unbound message that the device accepts: ATTEST, the messages of the session-opening exchange, and CLAIM (R246, 14 R340, R347). -/
def unboundOk (d : BaleDatagram) : Bool := d.cls = 6 || (d.cls = 7 && (d.op = 1 || d.op = 3 || d.op = 5))

/-- A Bale datagram reaches the device's port (R245, R246, R248 to R251): its source finds its entry; its acknowledgements, its mark of
congestion and its sequence are taken; its class has its effect on its own
(log 76); EVENT and TELEM of a peer have none on the device. -/
def State.baleRx (s : State) (src : NetEnd) (d : BaleDatagram) (ce : Bool) : State :=
  let flagged := bit d.flags 3
  let start := bit d.flags 2
  if d.udpPayload ≠ 32 + d.headerLength + (if flagged then 16 else 0) || decide (d.headerLength > s.baleMax) then
    s.count32 Reg.EB_RX_REFUSED 1
  else if d.version ≠ 1 || d.cls = 0 || decide (d.cls.toNat > 8) then s
  else
    match s.peerOf src with
    | none => if unboundOk d then s else s.count32 Reg.EB_RX_UNBOUND 1
    | some p =>
      match s.sessionTake p flagged d.authentic d.session d.counter with
      | (s1, false) => if flagged then s1 else (s1.takeSeq p d.cls.toNat start d.seq).effectOf p d.cls.toNat
      | (s1, true) =>
        let s2 := if ce then s1.setPeer p { s1.peer p with ece := true } else s1
        let s3 := if bit d.flags 4 then s2.congestedPeer p else s2
        let s4 := s3.ackRx p d.cum d.sack
        if d.cls = 8 then s4
        else
          let s5 := s4.takeSeq p d.cls.toNat start d.seq
          if d.cls = 4 || d.cls = 5 then s5.effectOf p d.cls.toNat else s5

/-! ### Queue pieces (R254, R257) -/

/-- The binding of a queue, with its staged fields applied: they apply at the next handle. -/
def State.bindQueue (s : State) (q : Nat) : State := s.applyAll [Reg.EB_QB q, Reg.EB_QB_CONN q]
def State.boundPeer (s : State) (q : Nat) : Nat := fld (s.reg (Reg.EB_QB q)) 13 0
def State.boundRemote (s : State) (q : Nat) : Nat := fld (s.reg (Reg.EB_QB q)) 25 14
def State.boundRoce (s : State) (q : Nat) : Bool := bit (s.reg (Reg.EB_QB q)) 26
def State.boundValid (s : State) (q : Nat) : Bool := bit (s.reg (Reg.EB_QB q)) 27
def State.boundConn (s : State) (q : Nat) : Nat := fld (s.reg (Reg.EB_QB_CONN q)) 11 0

/-- Every byte up to a length has landed. -/
def landedAll (total : Nat) (runs : List (Nat × Nat)) : Bool :=
  let sorted := runs.foldl (fun l r => orderedInsert (fun a b => decide (a.1 < b.1)) r l) []
  decide (sorted.foldl (fun reach r => if r.1 ≤ reach then max reach (r.1 + r.2) else reach) 0 ≥ total)

/-- A piece belongs to a buffer that is being assembled: of its queue, length and tag, with its range not landed (log 24). -/
def pieceOf (queue total tag offset : Nat) (a : Assembly) : Bool :=
  a.queue = queue && a.total = total && a.tag = tag && a.landed.all fun r => r.1 ≠ offset

/-- Replace the assembly that a buffer belongs to. -/
def State.setAssembly (s : State) (p : Nat) (a : Assembly) : State :=
  let x := s.peer p
  s.setPeer p { x with assemblies := x.assemblies.map fun y => if y.queue = a.queue && y.buffer = a.buffer then a else y }

/-- The context of a handle that an external producer pushes: none (09 R221). -/
def externalCtx : HandleCtx := ⟨0, 0, 0, 0, 0xFFFFFFFFFFFFFFFF#64, false, none⟩

/-- A buffer is whole: its handle is pushed (R257). -/
def State.assembled (s : State) (p : Nat) (a : Assembly) : State :=
  let x := s.peer p
  let s1 := s.setPeer p { x with assemblies := x.assemblies.filter fun y => !(y.queue = a.queue && y.buffer = a.buffer) }
  let h : Handle := { pool := 7, buffer := a.buffer, length := ceilDiv a.total 64, chaff := a.chaff, last := false, tag := a.tag, seq := 0 }
  s1.pushRun a.queue [⟨h, externalCtx⟩]

/-- A piece has landed, or was refused by a protection fault, which marks its buffer. -/
def State.pieceLanded (s : State) (p : Nat) (msg : Option Word) (a : Assembly) (offset len : Nat) (chaff : Bool) : State :=
  let b := { a with landed := a.landed ++ [(offset, len)], chaff := a.chaff || chaff }
  let s1 := s.setAssembly p b
  let s2 := if landedAll b.total b.landed then s1.assembled p b else s1
  s2.effect p msg

/-- Write a piece into its buffer: bytes beyond the buffer's size are discarded and mark it (R257). -/
def State.writePiece (s : State) (b p : Nat) (msg : Option Word) (a : Assembly) (chaff : Bool) (offset : Nat) (data : Bytes) : State :=
  let size := s.poolSize b 7
  let fit := data.take (size - offset)
  let overs := decide (fit.length < data.length)
  match s.writeRun b (s.bufferVa b 7 a.buffer + offset) fit chaff baleWriter with
  | (s1, none) => s1.pieceLanded p msg a offset data.length (chaff || overs)
  | (s1, some f) =>
    if s1.faultWaits f.cause then
      let (s2, id) := s1.holdMsg (.piece p msg a.queue chaff offset a.total a.tag data)
      (s2.raiseFault b f.va true baleWriter f.cause f.level f.entry (.message id)).1
    else
      let s2 := (s1.raiseFault b f.va true baleWriter f.cause f.level f.entry .none).1
      (s2.count32 Reg.EB_RX_REFUSED 1).pieceLanded p msg a offset data.length true

/-- A queue accepts pieces from a peer: its producer kind is 2, and its binding is VALID and names the sender (R257). -/
def State.pieceQueue (s : State) (p q : Nat) : Option Nat :=
  match s.queueDef q with
  | some (b, d) => if d.producer = 2 && s.boundValid q && s.boundPeer q = p then some b else none
  | none => none

/-- The pool of received buffers finds no room: none is free, or the peer has 64 buffers being assembled (R257). -/
def State.startAssembly (s : State) (p q total tag : Nat) : State × Option Assembly :=
  match s.queueDef q with
  | none => (s, none)
  | some (b, _) =>
    if (s.peer p).assemblies.length ≥ 64 then (s, none)
    else
      match s.takeBuffer b 7 with
      | (s1, none) => (s1, none)
      | (s1, some k) =>
        let a : Assembly := { queue := q, buffer := k, total := total, landed := [], chaff := false, tag := tag, conn := none }
        let x := s1.peer p
        (s1.setPeer p { x with assemblies := x.assemblies ++ [a] }, some a)

/-- A STREAM kind 2 piece (R257). -/
def State.queuePiece (s : State) (p q : Nat) (chaff : Bool) (offset total tag : Nat) (data : Bytes) : State :=
  let (s0, msg) := (s.bindQueue q).takeMsg p 3
  match s0.pieceQueue p q with
  | none => (s0.count32 Reg.EB_RX_REFUSED 1).effect p msg
  | some b =>
    match (s0.peer p).assemblies.find? (pieceOf q total tag offset) with
    | some a => s0.writePiece b p msg a chaff offset data
    | none =>
      match s0.startAssembly p q total tag with
      | (s1, some a) => s1.writePiece b p msg a chaff offset data
      | (s1, none) => s1.count32 Reg.EB_RX_NOBUF 1

/-- STREAM_QUEUE_PIECE (R257). -/
def execStreamQueuePiece (peer : Fin 16384) (queue : Fin 4096) (chaff : Bool) (offset length : Nat) (streamTag : BitVec 14)
    (data : List Byte) (s : State) : Host.Outcome State Fault Refusal :=
  s.done (if s.peerKind peer.val = 0 then s else s.queuePiece peer.val queue.val chaff offset length streamTag.toNat data)

/-! ### Bound queues (R257) -/

/-- The pieces of one buffer (R254). -/
def bufferPieces (max b pool buffer remote tag : Nat) (bytes : Bytes) (chaff lc : Bool) : List TxBody :=
  (pieceRuns max bytes.length).map fun r =>
    .queuePiece b pool buffer remote r.1 bytes.length tag (slice bytes r.1 r.2) chaff (decide (r.1 + r.2 ≥ bytes.length)) lc

/-- The handle at the head of a bound queue of consumer kind 2 is sent: as pieces, or as a SEND on its connection. -/
def State.sendBound (s : State) (q : Nat) : State :=
  let s0 := s.bindQueue q
  match s0.queueDef q, (s0.queue q).entries with
  | some (b, d), e :: _ =>
    let h := e.handle
    if d.consumer ≠ 2 || !s0.boundValid q || s0.serviceHeld q || (s0.boundRoce q && !s0.connReady (s0.boundConn q)) then s0
    else
      let len := min (h.length * 64) (s0.poolSize b h.pool)
      match s0.readRun b (s0.bufferVa b h.pool h.buffer) len baleReader with
      | (s1, .error f) => (s1.raiseFault b f.va false baleReader f.cause f.level f.entry (.service q)).1
      | (s1, .ok (bytes, marked)) =>
        let s2 := (s1.popQueue q).1
        if s0.boundRoce q then
          let c := s0.boundConn q
          s2.postRequest c (.send b h.pool h.buffer) (.send bytes)
        else if bytes.isEmpty then s2.returnBuffer b h.pool h.buffer
        else
          let s3 := s2.applyStaged Reg.EB_BALE_MAX
          s3.post (s3.boundPeer q)
            (bufferPieces s3.baleMax b h.pool h.buffer (s3.boundRemote q) h.tag bytes (h.chaff || marked) (!e.ctx.be))
  | _, _ => s0

/-- QUEUE_BOUND_SEND (R257). -/
def execQueueBoundSend (queue : Fin 4096) (s : State) : Host.Outcome State Fault Refusal := s.done (s.sendBound queue.val)

/-! ### Event messages (R258) -/

/-- Send queued event records to `EB_EVENT_PEER`, as many as a message holds; they wait while no message may leave. -/
def State.sendEvents (s : State) : State :=
  let s0 := s.applyAll [Reg.EB_EVENT_PEER, Reg.EB_BALE_MAX]
  let p := fld (s0.reg Reg.EB_EVENT_PEER) 13 0
  let n := (s0.baleMax - 8) / 16
  if !bit (s0.reg Reg.EB_EVENT_PEER) 31 || s0.events.queue.isEmpty || !s0.canSend p then s
  else
    let s1 : State := { s0 with events := { s0.events with queue := s0.events.queue.drop n, lost := false } }
    s1.post p [.event s0.events.lost (s0.events.queue.take n)]

/-- EVENT_MESSAGE_SEND (R258). -/
def execEventMessageSend (s : State) : Host.Outcome State Fault Refusal := s.done s.sendEvents

/-! ### REG reads that do not return (R252) -/

/-- A read that has not returned 1 ms after issue: its operation, in a response that has not left, ends with TIMEOUT and data zero, and the operations
after it are SKIPPED. -/
def State.regTimeout (s : State) (p : Nat) (tag : BitVec 16) (op : Nat) : State :=
  let x := s.peer p
  let change := fun (b : TxBody) => match b with
    | .regResponse t ops =>
      if t = tag then
        TxBody.regResponse t ((List.range ops.length).filterMap fun i => (ops[i]?).map fun o =>
          if i < op then o else if i = op then (4, 0, 0) else (2, o.2.1, 0))
      else b
    | _ => b
  s.setPeer p { x with waiting := x.waiting.map change }

/-- REG_READ_TIMEOUT (R252). -/
def execRegReadTimeout (peer : Fin 16384) (tag : BitVec 16) (op : Nat) (s : State) : Host.Outcome State Fault Refusal :=
  s.done (s.regTimeout peer.val tag op)

end Sys2Proof.Machine
end

