-- ==== Sys2Proof/Machine/Audio.lean ====
section
/-! DEFINITION. Audio ports (11): clocks, formats and packing, starts, stops and rejoins, frames, slips, periods and their targets, port
descriptors, markers, rate measurement. -/

namespace Sys2Proof.Machine

/-! ### Fields of a port -/

def State.apMode (s : State) (p : Nat) : Nat := fld (s.reg (Reg.AP_CTRL p)) 2 0
def State.apFollower (s : State) (p : Nat) : Bool := bit (s.reg (Reg.AP_CTRL p)) 3
def State.apPll (s : State) (p : Nat) : Nat := fld (s.reg (Reg.AP_CTRL p)) 4 4
def State.apMute (s : State) (p : Nat) : Bool := bit (s.reg (Reg.AP_CTRL p)) 11
def State.apTristate (s : State) (p : Nat) : Bool := bit (s.reg (Reg.AP_CTRL p)) 10

/-- The AUDIOROUTE entry of a port (02 R33). -/
def State.routeOf (s : State) (p : Nat) : Option AudioRoute := s.routes.find? fun r => r.port = p
def State.groupOf (s : State) (p : Nat) : Option Nat := (s.routeOf p).bind (·.group)
def State.apPlayback (s : State) (p : Nat) : Bool := ((s.routeOf p).map (·.playback)).getD false

/-- Width of a slot in bits (R271). -/
def slotWidth (fmt : Word) : Nat := match fld fmt 6 5 with | 0 => 16 | 1 => 24 | _ => 32

/-- Slots of a frame: two to a line, or TDM slots (R270, R277). -/
def slotCount (ctrl fmt : Word) : Nat :=
  if fld ctrl 2 0 = 3 then fld fmt 4 0 else 2 * (fld ctrl 6 5 + 1)

/-- Bit clocks of a frame: 2W, S × W, or the PDM clocks of one output sample (R269, R271). -/
def frameClocks (ctrl fmt : Word) : Nat :=
  match fld ctrl 2 0 with
  | 3 => fld fmt 4 0 * slotWidth fmt
  | 4 => 4 * fld fmt 19 12
  | _ => 2 * slotWidth fmt

/-- The frequency of a PLL in Hz (R267). -/
def pllHz (i : Nat) : Nat := if i = 0 then 196608000 else 180633600

/-! ### Packing (R279) -/

/-- Bytes and bits of a packed sample. -/
def packBytes (pack : Nat) : Nat := match pack with | 0 => 2 | 1 => 3 | _ => 4
def packBits (pack : Nat) : Nat := match pack with | 0 => 16 | 4 => 32 | _ => 24

/-- A sample, left-justified in 32 bits, as its packed bytes. -/
def packSample (pack : Nat) (w : Word) : Bytes :=
  let v := w.toNat / 2 ^ (32 - packBits pack)
  match pack with
  | 0 => leBytes 2 v
  | 1 => leBytes 3 v
  | 2 => leBytes 4 (v * 256)
  | 3 => leBytes 4 (natOfInt 32 (signedOf 24 v))
  | _ => leBytes 4 v

/-- A packed sample, left-justified in 32 bits. -/
def unpackSample (pack : Nat) (bs : Bytes) : Word :=
  let v := leNat bs
  match pack with
  | 0 => w32 (v * 65536)
  | 1 => w32 (v * 256)
  | 2 => w32 (v / 256 * 256)
  | 3 => w32 (v % 2 ^ 24 * 256)
  | _ => w32 v

/-- Bytes of a period. -/
def PortDesc.bytes (d : PortDesc) : Nat := d.p * d.c * packBytes d.pack

/-- The bytes of a captured period: a frame or channel not captured is zero. -/
def Period.packed (x : Period) (d : PortDesc) : Bytes :=
  (List.range d.p).flatMap fun f =>
    let row := AMap.getD x.frames f []
    (List.range d.c).flatMap fun c => packSample d.pack ((row[c]?).getD 0)

/-! ### Clocks (R267, R289) -/

/-- PLL_LOCK (R267): an enabled PLL with its reference. -/
def State.pllLocks (s : State) (i : Nat) : State :=
  if bit (s.reg Reg.AP_PLL_CTRL) i then
    { s with audio := { s.audio with locked := s.audio.locked ||| (1#2 <<< i), present := s.audio.present ||| (1#2 <<< i) } }
  else s

/-- PLL_LOCK (R267). -/
def execPllLock (pll : Fin 2) (s : State) : Host.Outcome State Fault Refusal := s.done (s.pllLocks pll.val)

/-- PLL_UNLOCK (R267): holdover; whether the reference is gone is not told: a free value. -/
def State.pllUnlocks (s : State) (i : Nat) : State :=
  let (v, s1) := s.draw
  let gone := bit v 0
  { s1 with audio := { s1.audio with
      locked := s1.audio.locked &&& ~~~(1#2 <<< i), present := if gone then s1.audio.present &&& ~~~(1#2 <<< i) else s1.audio.present } }

/-- PLL_UNLOCK (R267). -/
def execPllUnlock (pll : Fin 2) (s : State) : Host.Outcome State Fault Refusal := s.done (s.pllUnlocks pll.val)

/-- A PLL is used by a port that is not OFF. -/
def State.pllUsed (s : State) (i : Nat) : Bool :=
  (List.range 6).any fun p => (s.aport p).state ≠ .off && !s.apFollower p && s.apPll p = i

/-- A write of `AP_PLL_CTRL` (R289). -/
def State.pllCtrl (s : State) (v : Word) : State :=
  let n := w32 (fld v 1 0)
  if (List.range 2).any fun i => !bit n i && s.pllUsed i then s
  else
    let s1 := s.setReg Reg.AP_PLL_CTRL n
    { s1 with audio := { s1.audio with locked := s1.audio.locked &&& BitVec.ofNat 2 n.toNat } }

/-- AP_PLL_CTRL_WRITE (R289). -/
def execApPllCtrlWrite (src : Source) (value : Word) (s : State) : Host.Outcome State Fault Refusal :=
  s.done (s.rkWrite src Reg.AP_PLL_CTRL fun s => s.pllCtrl value)

/-! ### Groups (R284) -/

/-- The members of a group. -/
def State.groupMembers (s : State) (g : Nat) : List Nat := (List.range 6).filter fun p => s.groupOf p = some g

/-- The leading port: the lowest-numbered member whose clocks have run without a stop since the release. -/
def State.leader (s : State) (g : Nat) : Option Nat :=
  (s.groupMembers g).find? fun p =>
    let x := s.aport p
    x.steady && (x.state = .leadIn || x.state = .running || (x.state = .leadOut && !x.rejoin))

/-- A group with no member left in use is IDLE. -/
def State.groupRest (s : State) (p : Nat) : State :=
  match s.groupOf p with
  | none => s
  | some g =>
    if (s.groupMembers g).all fun m => (s.aport m).state = .off then s.setAgroup g { s.agroup g with state := .idle, armed := none } else s

/-- A port is OFF: its clocks have stopped. -/
def State.portOff (s : State) (p : Nat) : State :=
  (s.setAport p { s.aport p with state := .off, steady := false, stopping := false, rejoin := false, rejoining := false, out := [] }).groupRest p

/-- LEAD frames (R280). -/
def State.leadFrames (s : State) (p : Nat) : Nat := fld (s.reg (Reg.AP_LEAD p)) 11 0

/-- Two numbers of a divider setting, with 2^24 as the unit. -/
def dividerUnits (n f : Word) : Nat := fld n 11 0 * 2 ^ 24 + fld f 23 0

/-- Frames of a lead-in: LEAD, and for a PDM port those of 10 ms at least, at its divider's rate, or at the rate measured where it is a follower
(R274, R280). -/
def State.leadInFrames (s : State) (p : Nat) : Nat :=
  if s.apMode p ≠ 4 then s.leadFrames p
  else
    let d := dividerUnits (s.reg (Reg.AP_DIV_INT p)) (s.reg (Reg.AP_DIV_FRAC p)) * frameClocks (s.reg (Reg.AP_CTRL p)) (s.reg (Reg.AP_FMT p))
    let ten := if s.apFollower p then ceilDiv (fld (s.reg (Reg.AP_RATE p)) 24 0) 10000 else ceilDiv (pllHz (s.apPll p) * 2 ^ 24) (100 * d)
    max (s.leadFrames p) ten

/-- Data has ended: lead-out begins, with the clocks of a restart counting as stopped. -/
def State.leadOut (s : State) (p : Nat) : State :=
  s.setAport p { s.aport p with state := .leadOut, stopping := false, left := s.leadFrames p }

/-- Enter LEAD_IN with a divider accumulator and the frames of the lead-in. -/
def AudioPort.toLeadIn (x : AudioPort) (left acc : Nat) (steady rejoining : Bool) : AudioPort :=
  { x with state := .leadIn, left := left, acc := acc, steady := steady, rejoining := rejoining, rejoin := false, stopping := false }

/-- Release every PRIMED member on one PLL cycle (R284). -/
def State.releaseGroup (s : State) (g : Nat) : State :=
  let primed := (s.groupMembers g).filter fun p => (s.aport p).state = .primed
  if primed.isEmpty then s.setAgroup g { s.agroup g with armed := none }
  else
    let s1 := primed.foldl (fun s p => s.setAport p ((s.aport p).toLeadIn (s.leadInFrames p) 0 true false)) s
    ((s1.setAgroup g { s1.agroup g with state := .running, armed := none }).setReg (Reg.AP_GROUP_FRAMES_LO g) 0).setReg
      (Reg.AP_GROUP_FRAMES_HI g) 0

/-- The group that `AP_GSEL` selects. -/
def State.gsel (s : State) : Nat := fld (s.reg Reg.AP_GSEL) 2 0

/-- `AP_GROUP_CMD` START: the release now, or at an edge of ASTART. -/
def State.groupStart (s : State) (g : Nat) : State :=
  let s1 := s.applyStaged (Reg.AP_GROUP_CTRL g)
  match fld (s1.reg (Reg.AP_GROUP_CTRL g)) 1 0 with
  | 0 => s1.releaseGroup g
  | 1 => s1.setAgroup g { s1.agroup g with armed := some true }
  | _ => s1.setAgroup g { s1.agroup g with armed := some false }

/-- GROUP_START (R284). -/
def execGroupStart (src : Source) (s : State) : Host.Outcome State Fault Refusal :=
  let g := s.gsel
  s.done (s.cmdWrite src (Reg.AP_GROUP_CMD g) 1 fun s => if g < 6 then s.groupStart g else s)

/-- A filtered edge of ASTART. -/
def State.astartMoves (s : State) (rising : Bool) : State :=
  let s1 : State := { s with audio := { s.audio with astart := rising } }
  ((List.range 6).filter fun g => (s1.agroup g).armed = some rising).foldl State.releaseGroup s1

/-- ASTART_EDGE (R284). -/
def execAstartEdge (rising : Bool) (s : State) : Host.Outcome State Fault Refusal := s.done (s.astartMoves rising)

/-! ### Markers (R286) -/

/-- Write a marker, or drop it and count; a marker whose write faults is dropped and counted. -/
def State.marker (s : State) (p kind : Nat) (seq : Word) (off arg : Nat) : State :=
  let n := fld (s.reg (Reg.AP_MARK_CFG p)) 12 0
  let head := s.reg (Reg.AP_MARK_HEAD p)
  if n = 0 then s
  else if (head - s.reg (Reg.AP_MARK_TAIL p)).toNat ≥ n then s.count16 (Reg.AP_MARK_LOST p)
  else
    match s.routeOf p with
    | none => s
    | some r =>
      let va := (s.reg64 (Reg.AP_MARK_BASE_LO p) (Reg.AP_MARK_BASE_HI p)).toNat + head.toNat % n * 16
      let bytes := leBytes 1 kind ++ [0] ++ leBytes 2 (fld (s.reg (Reg.AP_SLOTS p)) 15 0) ++ leBytes 4 seq.toNat ++ leBytes 4 off ++ leBytes 4 arg
      match s.writeRun r.bay va bytes false audioEngine with
      | (s1, none) => s1.countWrap (Reg.AP_MARK_HEAD p) 1
      | (s1, some f) => ((s1.raiseFault r.bay f.va true audioEngine f.cause f.level f.entry .none).1).count16 (Reg.AP_MARK_LOST p)

/-! ### Descriptors (R283) -/

/-- Why a descriptor cannot be active: 1 length, 2 queue kind, 3 queue outside the bay, 4 range. -/
def State.descFault (s : State) (p : Nat) (d : PortDesc) : Option Nat :=
  if d.mode = 0 || !decide (1 ≤ d.p ∧ d.p ≤ 4096 ∧ 1 ≤ d.c ∧ d.c ≤ 16 ∧ d.pack ≤ 4) || (d.mode = 2 && decide (d.target < 2)) then some 4
  else
    match s.routeOf p with
    | none => none
    | some r =>
      if d.mode = 1 && !r.playback && d.bytes ≠ s.frameLen r.sid then some 1
      else if d.mode = 3 then
        match s.queueDef (d.target % 4096) with
        | some (b, q) => if b ≠ r.bay then some 3 else if (if r.playback then q.consumer else q.producer) ≠ 3 then some 2 else none
        | none => some 3
      else none

/-- A descriptor becomes active, if it passes its checks; a failed one counts as completed (R283). -/
def State.activate (s : State) (p : Nat) (d : PortDesc) : State :=
  let x := s.aport p
  match s.descFault p d with
  | none => s.setAport p { x with active := some d, portdError := false, portdCause := 0 }
  | some c => s.setAport p { x with active := none, portdError := true, portdCause := c }

/-- The staged descriptor, as ARM copies it. -/
def State.stagedDesc (s : State) (p : Nat) : PortDesc :=
  let v := s.reg (Reg.AP_PORTD_CTRL p)
  { mode := fld v 1 0, p := fld v 14 2, c := fld v 20 16, pack := fld v 23 21
    base := s.reg64 (Reg.AP_PORTD_BASE_LO p) (Reg.AP_PORTD_BASE_HI p), target := fld (s.reg (Reg.AP_PORTD_TARGET p)) 15 0
    run := (s.reg (Reg.AP_PORTD_RUN p)).toNat, done := 0 }

/-- ARM (R283). -/
def State.portdArm (s : State) (p : Nat) : State :=
  let s1 := s.applyAll [Reg.AP_PORTD_CTRL p, Reg.AP_PORTD_BASE_LO p, Reg.AP_PORTD_BASE_HI p, Reg.AP_PORTD_TARGET p, Reg.AP_PORTD_RUN p]
  let d := s1.stagedDesc p
  let x := s1.aport p
  match x.active, x.pending with
  | none, _ => s1.activate p d
  | some _, none => s1.setAport p { x with pending := some d }
  | some _, some _ => (s1.setAport p { x with pending := some d }).count16 (Reg.AP_PORTD_LOST_REARM p)

/-- PORTD_ARM (R283). -/
def execPortdArm (src : Source) (port : Fin 6) (s : State) : Host.Outcome State Fault Refusal :=
  s.done (s.cmdWrite src (Reg.AP_PORTD_CMD port.val) 1 fun s => s.portdArm port.val)

/-- What was fetched under a descriptor that no longer is: slots stay published, buffers return. -/
def State.dropFetched (s : State) (p : Nat) : State :=
  let x := s.aport p
  let s1 := x.fetched.foldl (fun s f => match f.buffer with
    | some (b, k) => s.returnBuffer b (k / 8192) (k % 8192)
    | none => s) s
  let y := s1.aport p
  s1.setAport p { y with fetched := [], slotTaken := if x.fetched.isEmpty then y.slotTaken else 0 }

/-- Both descriptors go. -/
def State.dropDescs (s : State) (p : Nat) : State :=
  let s1 := s.dropFetched p
  s1.setAport p { s1.aport p with active := none, pending := none, cancelling := false }

/-- CANCEL: the open period ends under the active descriptor; then both go (R283). -/
def State.portdCancel (s : State) (p : Nat) : State :=
  let x := s.aport p
  match x.open_ with
  | some o => if o.desc.isSome && x.active.isSome then s.setAport p { x with cancelling := true } else s.dropDescs p
  | none => s.dropDescs p

/-- PORTD_CANCEL (R283). -/
def execPortdCancel (src : Source) (port : Fin 6) (s : State) : Host.Outcome State Fault Refusal :=
  s.done (s.cmdWrite src (Reg.AP_PORTD_CMD port.val) 2 fun s => s.portdCancel port.val)

/-- A period boundary as the descriptors see it. -/
def State.descBoundary (s : State) (p : Nat) (under : Option PortDesc) : State :=
  let x := s.aport p
  if x.cancelling then s.dropDescs p
  else
    match x.active with
    | none => s
    | some d =>
      let e := { d with done := d.done + if under.isSome then 1 else 0 }
      let overs := if d.run = 0 then x.pending.isSome else decide (e.done ≥ d.run)
      if overs then
        let s1 := s.dropFetched p
        let s2 := s1.setAport p { s1.aport p with active := none, pending := none }
        match x.pending with
        | some n => s2.activate p n
        | none => s2
      else s.setAport p { x with active := some e }

/-! ### Start and stop (R280, R281, R285) -/

/-- The staged fields that START applies. -/
def startFields (p : Nat) : List Nat :=
  [Reg.AP_CTRL p, Reg.AP_FMT p, Reg.AP_DIV_INT p, Reg.AP_DIV_FRAC p, Reg.AP_SLOTS p, Reg.AP_LEAD p, Reg.AP_PERIOD_BASE p,
   Reg.AP_MARK_BASE_LO p, Reg.AP_MARK_BASE_HI p, Reg.AP_MARK_CFG p]

/-- R269 holds of a master port. -/
def rateOk (ctrl fmt n f : Word) : Bool :=
  let clk := pllHz (fld ctrl 4 4) * 2 ^ 24
  let d := dividerUnits n f
  let b := frameClocks ctrl fmt
  let band := decide (8000 * b * d ≤ clk ∧ clk ≤ 192000 * b * d)
  if fld ctrl 2 0 = 4 then decide (1024000 * d ≤ clk ∧ clk ≤ 6144000 * d) && band
  else decide (clk ≤ 25000000 * d) && band

/-- The frame period of a port, as R281 compares it; all followers are equal. -/
def framePeriod (ctrl fmt n f : Word) : Option (Nat × Nat × Nat) :=
  if bit ctrl 3 then none else some (fld ctrl 4 4, dividerUnits n f, frameClocks ctrl fmt)

/-- Why START is refused (R281). -/
def State.startReason (s : State) (p : Nat) : Option Nat :=
  let ctrl := s.latest (Reg.AP_CTRL p)
  let fmt := s.latest (Reg.AP_FMT p)
  let n := s.latest (Reg.AP_DIV_INT p)
  let f := s.latest (Reg.AP_DIV_FRAC p)
  let mode := fld ctrl 2 0
  let master := !bit ctrl 3
  let group := s.groupOf p
  let formats := decide (1 ≤ mode ∧ mode ≤ 4) && fld fmt 6 5 ≠ 3 && (mode ≠ 3 || decide (1 ≤ fld fmt 4 0 ∧ fld fmt 4 0 ≤ 16)) &&
    (mode ≠ 4 || decide (8 ≤ fld fmt 19 12 ∧ fld fmt 19 12 ≤ 192)) && decide (2 ≤ fld n 11 0)
  let mates := (group.map fun g => (s.groupMembers g).filter fun m => m ≠ p && (s.aport m).state ≠ .off).getD []
  if (s.aport p).state ≠ .off then some 1
  else if !formats then some 2
  else if master && !bit s.audio.locked (fld ctrl 4 4) then some 3
  else if (group.map fun g => (s.agroup g).state = .running && (s.leader g).isNone).getD false then some 4
  else if (s.routeOf p).isNone then some 5
  else if mode = 4 && s.apPlayback p then some 6
  else if master && !rateOk ctrl fmt n f then some 7
  else if mates.any fun m =>
      framePeriod (s.reg (Reg.AP_CTRL m)) (s.reg (Reg.AP_FMT m)) (s.reg (Reg.AP_DIV_INT m)) (s.reg (Reg.AP_DIV_FRAC m)) ≠
        framePeriod ctrl fmt n f then some 8
  else none

/-- A command of a port is refused with a reason. -/
def State.portRefuse (s : State) (p reason : Nat) : State := s.setAport p { s.aport p with refused := true, reason := reason }

/-- A held period goes to delivery, completed with zeros (R285). -/
def AudioPort.releaseHeld (x : AudioPort) : AudioPort :=
  match x.held with
  | some h => { x with held := none, full := x.full ++ [{ h with chaff := true }] }
  | none => x

/-- START (R280, R281). -/
def State.portStart (s : State) (p : Nat) : State :=
  match s.startReason p with
  | some r => s.portRefuse p r
  | none =>
    let s1 := ((s.applyAll (startFields p)).setReg (Reg.AP_FRAMES_LO p) 0).setReg (Reg.AP_FRAMES_HI p) 0
    let x := { (s1.aport p).releaseHeld with refused := false, reason := 0, slip := 0, slipped := false, clockLost := false }
    match s1.groupOf p with
    | none => s1.setAport p (x.toLeadIn (s1.leadInFrames p) 0 true false)
    | some g =>
      if (s1.agroup g).state = .running then
        let acc := ((s1.leader g).map fun l => (s1.aport l).acc).getD 0
        s1.setAport p (x.toLeadIn (s1.leadInFrames p) acc false true)
      else (s1.setAport p { x with state := .primed }).setAgroup g { s1.agroup g with state := .primed }

/-- AP_START (R281). -/
def execApStart (src : Source) (port : Fin 6) (s : State) : Host.Outcome State Fault Refusal :=
  s.done (s.cmdWrite src (Reg.AP_CMD port.val) 1 fun s => s.portStart port.val)

/-- STOP (R280): data ends at the period boundary; where no period is open, that is now. -/
def State.portStop (s : State) (p : Nat) : State :=
  let x := { s.aport p with refused := false, reason := 0 }
  match x.state with
  | .primed => (s.setAport p x).portOff p
  | .leadIn => (s.setAport p x).leadOut p
  | .running =>
    if x.stopping || x.rejoin then s.portRefuse p 1
    else if x.open_.isNone then (s.setAport p x).leadOut p
    else s.setAport p { x with stopping := true }
  | .off => s.portRefuse p 1
  | .leadOut => s.portRefuse p 1

/-- AP_STOP (R280). -/
def execApStop (src : Source) (port : Fin 6) (s : State) : Host.Outcome State Fault Refusal :=
  s.done (s.cmdWrite src (Reg.AP_CMD port.val) 2 fun s => s.portStop port.val)

/-- RESTART (R285): data ends with the frame in progress, and a rejoin follows the lead-out. -/
def State.portRestart (s : State) (p : Nat) : State :=
  let x := s.aport p
  if x.state ≠ .running || x.stopping || x.rejoin then s.portRefuse p 1
  else s.setAport p { x with refused := false, reason := 0, rejoin := true }

/-- AP_RESTART (R285). -/
def execApRestart (src : Source) (port : Fin 6) (s : State) : Host.Outcome State Fault Refusal :=
  s.done (s.cmdWrite src (Reg.AP_CMD port.val) 3 fun s => s.portRestart port.val)

/-- GROUP_STOP (R284). -/
def execGroupStop (src : Source) (s : State) : Host.Outcome State Fault Refusal :=
  let g := s.gsel
  s.done (s.cmdWrite src (Reg.AP_GROUP_CMD g) 2 fun s => (s.groupMembers g).foldl State.portStop s)

/-! ### Periods (R282, R284, R285) -/

/-- A fresh period of a port. -/
def State.freshPeriod (s : State) (p : Nat) (seq : Word) (from_ : Nat) (chaff : Bool) : Period :=
  let r := s.routeOf p
  { seq := seq, desc := (s.aport p).active, bay := (r.map (·.bay)).getD 0, sid := (r.map (·.sid)).getD 0, at_ := from_, frames := []
    bytes := [], chaff := chaff, slot := none, buffer := none }

/-- A period opens (R282). A playback period takes what was fetched ahead, or plays as silence with a GAP marker; a chaff-marked one is muted where
the port says so (R287). -/
def State.openPeriod (s : State) (p : Nat) (seq : Word) (from_ : Nat) (chaff : Bool) : State :=
  let o := s.freshPeriod p seq from_ (chaff || (s.aport p).slipped)
  let s1 := s.setReg (Reg.AP_PERIOD_SEQ p) seq
  let x := s1.aport p
  if !s1.apPlayback p then s1.setAport p { x with open_ := some o }
  else
    match x.fetched with
    | f :: rest =>
      let mute := f.chaff && s1.apMute p
      let s2 := s1.setAport p { x with
        open_ := some { o with bytes := if mute then [] else f.bytes, slot := f.slot, buffer := f.buffer }, fetched := rest }
      s2.count32 (Reg.AP_CHAFF_MUTED p) (if mute then 1 else 0)
    | [] =>
      ((s1.setAport p { x with open_ := some o }).marker p 4 seq (from_ * ((o.desc.map (·.c)).getD 0)) 1).count32 (Reg.AP_GAP_PERIODS p) 1

/-- What a playback period held is released after it has played (R150, R282). -/
def State.playedOut (s : State) (o : Period) : State :=
  let s1 := match o.slot with | some _ => s.slotSent false o.sid | none => s
  match o.buffer with
  | some (b, k) => s1.returnBuffer b (k / 8192) (k % 8192)
  | none => s1

/-- The open period ends: a capture period waits for its delivery, a playback period releases what it held; descriptors see the boundary. -/
def State.endPeriod (s : State) (p : Nat) : State :=
  let x := s.aport p
  match x.open_ with
  | none => s
  | some o =>
    let s1 : State :=
      if s.apPlayback p then
        let ring := (o.desc.map fun d => decide (d.mode = 2)).getD false
        let t := (s.setAport p { x with open_ := none }).playedOut o
        if ring then t.countWrap (Reg.AP_RING_HEAD p) 1 else t
      else s.setAport p { x with open_ := none, full := x.full ++ [o] }
    let s2 := s1.descBoundary p o.desc
    if x.stopping then s2.leadOut p else s2

/-- The frame index of a port's group. -/
def State.groupFrame (s : State) (g : Nat) : Nat := (s.reg64 (Reg.AP_GROUP_FRAMES_LO g) (Reg.AP_GROUP_FRAMES_HI g)).toNat

/-- Zero periods of a capture port between two sequences, each chaff-marked and counted (R282, R285). -/
def State.zeroPeriods (s : State) (p : Nat) (from_ dest : Word) : Nat → State
  | 0 => s
  | n + 1 =>
    if !seqLt from_ dest then s
    else
      let x := s.aport p
      let s1 := s.setAport p { x with full := x.full ++ [s.freshPeriod p from_ 0 true] }
      (s1.count32 (Reg.AP_GAP_PERIODS p) 1).zeroPeriods p (from_ + 1) dest n

/-- The first period of a rejoin (R284, R285): it completes the held period of its sequence; an earlier held one is completed with zeros, with
every period between. -/
def State.rejoinPeriod (s : State) (p : Nat) (seq : Word) (from_ : Nat) : State :=
  let x := s.aport p
  match x.held with
  | some h =>
    if h.seq = seq then
      (s.setReg (Reg.AP_PERIOD_SEQ p) seq).setAport p { x with held := none, open_ := some { h with at_ := from_, chaff := true } }
    else
      let s1 := s.setAport p x.releaseHeld
      (s1.zeroPeriods p (h.seq + 1) seq (seq - h.seq).toNat).openPeriod p seq from_ true
  | none => s.openPeriod p seq from_ true

/-- The lead-in ends, once its frames are done: the first period opens (R280, R282, R284). -/
def State.leadInEnds (s : State) (p : Nat) : State :=
  let x := s.aport p
  if x.state ≠ .leadIn || x.left ≠ 0 then s
  else
    let s1 := s.setAport p { x with state := .running, rejoining := false }
    let base := s1.reg (Reg.AP_PERIOD_BASE p)
    let shape := (x.active.map (·.p)).getD ((x.held.bind fun h => h.desc.map (·.p)).getD 1)
    match s1.groupOf p with
    | some g =>
      let y := s1.agroup g
      let s2 := s1.setAgroup g { y with slipped := setRemove y.slipped p }
      if x.rejoining then
        let f := s2.groupFrame g
        s2.rejoinPeriod p (base + w32 (f / shape)) (f % shape)
      else s2.openPeriod p base 0 false
    | none =>
      if x.rejoining then
        let seq := s1.reg (Reg.AP_PERIOD_SEQ p) + 1
        (s1.setAport p { (s1.aport p).releaseHeld with state := .running }).openPeriod p seq 0 true
      else s1.openPeriod p base 0 false

/-- LEAD_IN_DONE (R280). -/
def execLeadInDone (port : Fin 6) (s : State) : Host.Outcome State Fault Refusal := s.done (s.leadInEnds port.val)

/-- The lead-out ends, once its frames are done (R280): rotation and SLIPPED are cleared; a rejoin follows a restart, where the group still has a leader. -/
def State.leadOutEnds (s : State) (p : Nat) : State :=
  let x := s.aport p
  if x.state ≠ .leadOut || x.left ≠ 0 then s
  else
    let s0 := match x.open_ with | some o => (s.setAport p { x with open_ := none }).playedOut o | none => s
    let y := { s0.aport p with slip := 0, slipped := false }
    let s1 := s0.setAport p y
    if !x.rejoin then s1.portOff p
    else
      match s1.groupOf p with
      | none => s1.setAport p (y.toLeadIn (s1.leadInFrames p) 0 true true)
      | some g =>
        match s1.leader g with
        | some l => s1.setAport p (y.toLeadIn (s1.leadInFrames p) (s1.aport l).acc false true)
        | none => s1.portOff p

/-- LEAD_OUT_DONE (R280). -/
def execLeadOutDone (port : Fin 6) (s : State) : Host.Outcome State Fault Refusal := s.done (s.leadOutEnds port.val)

/-! ### Frames (R271, R272, R277, R278, R285) -/

/-- The enabled slots that a format has, ascending (R277). -/
def State.enabledSlots (s : State) (p : Nat) : List Nat :=
  (List.range (slotCount (s.reg (Reg.AP_CTRL p)) (s.reg (Reg.AP_FMT p)))).filter fun k => bit (s.reg (Reg.AP_SLOTS p)) k

/-- A staged slot mask applies at a frame boundary; a change while RUNNING writes a MAP marker (R278). -/
def State.frameBoundary (s : State) (p : Nat) : State :=
  let old := s.reg (Reg.AP_SLOTS p)
  let s1 := s.applyStaged (Reg.AP_SLOTS p)
  let x := s1.aport p
  if x.state = .running && s1.reg (Reg.AP_SLOTS p) ≠ old then
    let c := (((x.open_.bind (·.desc)).orElse fun _ => x.active).map (·.c)).getD 0
    s1.marker p 1 (s1.reg (Reg.AP_PERIOD_SEQ p)) (((x.open_.map (·.at_)).getD 0) * c) c
  else s1

/-- A sample slips (R285): it is counted, SLIPPED arises, and its marker is written. -/
def State.slipOne (s : State) (p f c pos : Nat) : State :=
  let x := s.aport p
  let s1 := s.setAport p { x with slip := x.slip + 1, slipped := true, open_ := x.open_.map fun o => { o with chaff := true } }
  let s2 := match s1.groupOf p with
    | some g => let y := s1.agroup g; s1.setAgroup g { y with slipped := setInsert y.slipped p }
    | none => s1
  s2.marker p 2 (s2.reg (Reg.AP_PERIOD_SEQ p)) (f * c + pos) (x.slip + 1)

/-- One frame's samples by channel position, as the slips before and in it rotate them: channel k goes to position (k - s) mod C. -/
def captureRow (c slip : Nat) (lost : List Nat) (chans : List Word) : List Word :=
  let place := fun (acc : AMap Word × Nat) (k : Nat) =>
    if lost.contains k then (acc.1, acc.2 + 1)
    else (AMap.set acc.1 ((k + c * (acc.2 / c + 1) - acc.2) % c) ((chans[k]?).getD 0), acc.2)
  let m := ((List.range c).foldl place ([], slip)).1
  (List.range c).map fun i => AMap.getD m i 0

/-- A capture frame joins the open period. -/
def State.captureFrame (s : State) (p : Nat) (samples : List Word) (bad : Bool) (lost : List Nat) : State :=
  let x := s.aport p
  match x.open_ with
  | none => s
  | some o =>
    let c := (o.desc.map (·.c)).getD 1
    let slots := (s.enabledSlots p).take c
    let width := if s.apMode p = 4 then 24 else slotWidth (s.reg (Reg.AP_FMT p))
    let keep := fun (w : Word) => w32 (w.toNat / 2 ^ (32 - width) * 2 ^ (32 - width))
    let chans := slots.map fun k => if bad then 0 else keep ((samples[k]?).getD 0)
    let drops := lost.filter fun k => decide (k < c)
    let row := captureRow c x.slip drops chans
    let o1 := { o with at_ := o.at_ + 1, frames := AMap.set o.frames o.at_ row, chaff := o.chaff || bad || x.slipped }
    drops.foldl (fun s k => s.slipOne p o.at_ c k) (s.setAport p { x with open_ := some o1 })

/-- The words that a playback frame drives by slot: channel k in slot position (k + s) mod C; an underrun plays zero in its slot, and its sample in the
next. Answers the sample left over. -/
def playRow (c slip : Nat) (lost : List Nat) (chans : List Word) : AMap Word :=
  let place := fun (acc : AMap Word × Nat) (k : Nat) =>
    let s1 := if lost.contains k then acc.2 + 1 else acc.2
    (AMap.set acc.1 ((k + s1) % c) ((chans[k]?).getD 0), s1)
  ((List.range c).foldl place ([], slip)).1

/-- A playback frame leaves (R271, R279). -/
def State.playFrame (s : State) (p : Nat) (lost : List Nat) : State :=
  let x := s.aport p
  match x.open_ with
  | none => s
  | some o =>
    let d := o.desc.getD ⟨0, 1, 1, 0, 0, 0, 0, 0⟩
    let b := packBytes d.pack
    let chan := fun k => if o.bytes.isEmpty then 0 else unpackSample d.pack (slice o.bytes ((o.at_ * d.c + k) * b) b)
    let drops := lost.filter fun k => decide (k < d.c)
    let row := playRow d.c x.slip drops ((List.range d.c).map chan)
    let width := slotWidth (s.reg (Reg.AP_FMT p))
    let cut := fun (w : Word) => w32 (w.toNat / 2 ^ (32 - width) * 2 ^ (32 - width))
    let slots := (s.enabledSlots p).take d.c
    let n := slotCount (s.reg (Reg.AP_CTRL p)) (s.reg (Reg.AP_FMT p))
    let out := (List.range n).map fun k =>
      match slots.findIdx? (· = k) with
      | some i => some (cut (AMap.getD row i 0))
      | none => if s.apTristate p && s.apMode p = 3 then none else some 0
    let o1 := { o with at_ := o.at_ + 1, chaff := o.chaff || x.slipped }
    drops.foldl (fun s k => s.slipOne p o.at_ d.c k) (s.setAport p { x with open_ := some o1, out := out })

/-- The group frame index counts on the leading port, from the first frame after lead-in (R284). -/
def State.groupCount (s : State) (p : Nat) : State :=
  match s.groupOf p with
  | some g => if s.leader g = some p then s.count64 (Reg.AP_GROUP_FRAMES_LO g) (Reg.AP_GROUP_FRAMES_HI g) 1 else s
  | none => s

/-- After a frame: the period ends with its last frame; a restart ends data with the frame, a capture port keeping its open period (R285). -/
def State.frameEnds (s : State) (p : Nat) : State :=
  let x := s.aport p
  match x.open_ with
  | none => s
  | some o =>
    if x.rejoin then
      let s1 := s.leadOut p
      let y := s1.aport p
      if s.apPlayback p then s1.setAport p { y with steady := false }
      else if (o.desc.map (·.p)).getD 1 ≤ o.at_ then ((s1.setAport p { y with steady := false }).endPeriod p).leadOut p
      else s1.setAport p { y with steady := false, held := some o, open_ := none }
    else if (o.desc.map (·.p)).getD 1 ≤ o.at_ then s.endPeriod p
    else s

/-- One audio frame (R271, R272). -/
def State.audioFrame (s : State) (p bitClocks : Nat) (samples : List Word) (lost : List Nat) : State :=
  let x0 := s.aport p
  if x0.state = .off || x0.state = .primed then s
  else
    let s0 := s.setAport p { x0 with clockLost := false }
    let b := frameClocks (s.reg (Reg.AP_CTRL p)) (s.reg (Reg.AP_FMT p))
    let bad := s.apFollower p && decide (bitClocks ≠ b)
    let s1 := (s0.frameBoundary p).count64 (Reg.AP_FRAMES_LO p) (Reg.AP_FRAMES_HI p) 1
    let s2 := s1.count32 (Reg.AP_FRAME_ERR p) (if bad then 1 else 0)
    let x1 := s2.aport p
    let acc := (x1.acc + b * fld (s2.reg (Reg.AP_DIV_FRAC p)) 23 0) % 2 ^ 24
    let s3 := s2.setAport p { x1 with
      acc := if s.apFollower p then x1.acc else acc, left := if x1.state = .running then x1.left else x1.left - 1 }
    if x1.state ≠ .running then
      if s.apPlayback p then s3.setAport p { s3.aport p with out := (List.range (slotCount (s.reg (Reg.AP_CTRL p)) (s.reg (Reg.AP_FMT p)))).map fun _ => some 0 }
      else s3
    else
      let s4 := if (s3.aport p).open_.isNone then s3.openPeriod p (s3.reg (Reg.AP_PERIOD_SEQ p) + 1) 0 false else s3
      let s5 := if s.apPlayback p then s4.playFrame p lost else s4.captureFrame p samples bad lost
      (s5.groupCount p).frameEnds p

/-- AUDIO_FRAME (R271). -/
def execAudioFrame (port : Fin 6) (bitClocks : Nat) (samples : List Word) (lost : List Nat) (s : State) :
    Host.Outcome State Fault Refusal :=
  s.done (s.audioFrame port.val bitClocks samples lost)

/-- CLOCK_LOST (R272). -/
def execClockLost (port : Fin 6) (s : State) : Host.Outcome State Fault Refusal :=
  let x := s.aport port.val
  s.done (if s.apFollower port.val && x.state ≠ .off && x.state ≠ .primed then s.setAport port.val { x with clockLost := true } else s)

/-! ### Delivery and fetch (R282) -/

/-- A port's access waits on a fault. -/
def State.audioHeld (s : State) (p : Nat) : Bool :=
  (s.trans.faults.any fun f => f.holder = .audio p) || s.trans.held.any fun h => h.holder = .audio p

/-- The oldest waiting capture period leaves the port. -/
def State.delivered (s : State) (p : Nat) : State := s.setAport p { s.aport p with full := (s.aport p).full.drop 1 }

/-- A capture period with no place to go is discarded whole. -/
def State.discardPeriod (s : State) (p : Nat) : State := (s.delivered p).count32 (Reg.AP_DISCARD p) 1

/-- A fault on the target: a resumable one holds the period, a protection fault discards it. -/
def State.targetFault (s : State) (b p : Nat) (f : RunFault) : State :=
  let s1 := (s.raiseFault b f.va true audioEngine f.cause f.level f.entry (.audio p)).1
  if s.faultWaits f.cause then s1 else s1.discardPeriod p

/-- Deliver the oldest capture period to its target. -/
def State.deliver (s : State) (p : Nat) : State :=
  match (s.aport p).full with
  | [] => s
  | o :: _ =>
    if s.audioHeld p then s
    else
      match o.desc with
      | none => s.discardPeriod p
      | some d =>
        let bytes := o.packed d
        match d.mode with
        | 1 =>
          if (s.stream o.sid).state = .idle then s.discardPeriod p
          else
            match s.writeFrame o.bay o.sid o.seq bytes o.chaff audioEngine with
            | (s1, none) => s1.delivered p
            | (s1, some f) => s1.targetFault o.bay p f
        | 2 =>
          match s.writeRun o.bay (d.base.toNat + o.seq.toNat % d.target * d.bytes) bytes o.chaff audioEngine with
          | (s1, none) => (s1.delivered p).countWrap (Reg.AP_RING_HEAD p) 1
          | (s1, some f) => s1.targetFault o.bay p f
        | _ =>
          match s.takeBuffer o.bay 7 with
          | (s1, none) => s1.discardPeriod p
          | (s1, some k) =>
            let fit := bytes.take (s1.poolSize o.bay 7)
            match s1.writeRun o.bay (s1.bufferVa o.bay 7 k) fit o.chaff audioEngine with
            | (s2, some f) => (s2.returnBuffer o.bay 7 k).targetFault o.bay p f
            | (s2, none) =>
              let h : Handle :=
                { pool := 7, buffer := k, length := ceilDiv fit.length 64, chaff := o.chaff || decide (fit.length < bytes.length), last := false
                  tag := o.sid, seq := 0 }
              (s2.pushRun (d.target % 4096) [⟨h, externalCtx⟩]).delivered p

/-- CAPTURE_PERIOD_END (R282). -/
def execCapturePeriodEnd (port : Fin 6) (s : State) : Host.Outcome State Fault Refusal := s.done (s.deliver port.val)

/-- A fetched period joins those ahead. -/
def State.addFetched (s : State) (p : Nat) (f : Fetched) : State := s.setAport p { s.aport p with fetched := (s.aport p).fetched ++ [f] }

/-- Bytes cut to a period, padded with zeros. -/
def padTo (n : Nat) (bs : Bytes) : Bytes := bs.take n ++ List.replicate (n - bs.length) 0

/-- A fault on the source holds the fetch. -/
def State.sourceFault (s : State) (b p : Nat) (f : RunFault) : State :=
  (s.raiseFault b f.va false audioEngine f.cause f.level f.entry (.audio p)).1

/-- The next period of the routed stream's output slots (SINK 1): a slot's payload holds whole periods, and one without payload is released. -/
def State.fetchSlot (s : State) (b sid p : Nat) (d : PortDesc) : State :=
  let x := s.aport p
  let playing := if ((x.open_.bind (·.slot)).isSome) then 1 else 0
  let k := s.outTail false sid + w32 ((x.fetched.filter fun f => f.slot.isSome).length + playing)
  if s.ctxSink false sid ≠ 1 || !seqLt k (s.outHead false sid) then s
  else
    match s.readRun b (s.outVa false sid k) (s.outLen false sid) audioEngine with
    | (s1, .error f) => s1.sourceFault b p f
    | (s1, .ok (bytes, marked)) =>
      let payload := leAt bytes 12 4
      let chaff := marked || leAt bytes 9 1 % 2 = 1
      let n := ceilDiv payload d.bytes
      if n = 0 then
        if playing = 0 && x.fetched.isEmpty then s1.slotSent false sid else s1
      else
        let part := slice (slice bytes 64 payload) (x.slotTaken * d.bytes) d.bytes
        let last := decide (x.slotTaken + 1 ≥ n)
        (s1.setAport p { x with slotTaken := if last then 0 else x.slotTaken + 1 }).addFetched p
          ⟨padTo d.bytes part, chaff, if last then some k else none, none⟩

/-- Fetch a playback period ahead: at most two, and no more than the active descriptor still runs. -/
def State.fetchPeriod (s : State) (p : Nat) : State :=
  let x := s.aport p
  match x.active, s.routeOf p with
  | some d, some r =>
    let used := d.done + x.fetched.length + (if (x.open_.bind (·.desc)).isSome then 1 else 0)
    if !r.playback || x.fetched.length ≥ 2 || s.audioHeld p || (d.run ≠ 0 && decide (used ≥ d.run)) || x.cancelling then s
    else
      match d.mode with
      | 1 => s.fetchSlot r.bay r.sid p d
      | 2 =>
        let ahead := w32 (x.fetched.length + if x.open_.isSome then 1 else 0)
        let base := if x.state = .running then s.reg (Reg.AP_PERIOD_SEQ p) + (if x.open_.isSome then 0 else 1) else s.latest (Reg.AP_PERIOD_BASE p)
        match s.readRun r.bay (d.base.toNat + (base + ahead).toNat % d.target * d.bytes) d.bytes audioEngine with
        | (s1, .ok (bytes, marked)) => s1.addFetched p ⟨bytes, marked, none, none⟩
        | (s1, .error f) => s1.sourceFault r.bay p f
      | _ =>
        match (s.queue (d.target % 4096)).entries with
        | [] => s
        | e :: _ =>
          let h := e.handle
          match s.readRun r.bay (s.bufferVa r.bay h.pool h.buffer) (min (h.length * 64) (s.poolSize r.bay h.pool)) audioEngine with
          | (s1, .error f) => s1.sourceFault r.bay p f
          | (s1, .ok (bytes, marked)) =>
            ((s1.popQueue (d.target % 4096)).1).addFetched p
              ⟨padTo d.bytes bytes, marked || h.chaff, none, some (r.bay, h.pool * 8192 + h.buffer)⟩
  | _, _ => s

/-- PLAYBACK_PERIOD_FETCH (R282). -/
def execPlaybackPeriodFetch (port : Fin 6) (s : State) : Host.Outcome State Fault Refusal := s.done (s.fetchPeriod port.val)

/-! ### Rate measurement (R275, R276) -/

/-- Standard rates in Hz, by nominal code from 1. -/
def nominalRates : List Nat := [8000, 11025, 16000, 22050, 24000, 32000, 44100, 48000, 88200, 96000, 176400, 192000]

/-- The code of the standard rate within 1,000 ppm of a measurement in 0.01 Hz, 0 for none. -/
def nominalCode (m : Nat) : Nat :=
  (((List.range 12).find? fun i =>
    let r := (nominalRates[i]?).getD 0 * 100
    decide ((if m ≥ r then m - r else r - m) * 1000 ≤ r)).map (· + 1)).getD 0

/-- Two measurements agree within a tolerance in ppm. -/
def agrees (tol a b : Nat) : Bool := decide ((if a ≥ b then a - b else b - a) * 1000000 ≤ tol * b)

/-- A window ends (R275): two windows that agree give the rate; one that disagrees with the reported rate makes it unknown. A change of the nominal code
raises RATE_CHANGE and writes its marker (R276). -/
def State.rateWindow (s : State) (p frames periods : Nat) : State :=
  let x := s.aport p
  let tol := fld (s.reg (Reg.AP_MEAS_CFG p)) 31 16
  let old := s.reg (Reg.AP_RATE p)
  let unknown := fun (v : Word) => w32 (fld v 24 0 + 2 ^ 31)
  let known := fun (m : Nat) => w32 (m % 2 ^ 25 + nominalCode m * 2 ^ 25)
  let m := if periods = 0 then none else some (frames * 15625000000 / periods)
  let new : Word :=
    match m, x.lastRate with
    | none, _ => unknown old
    | some v, some prev => if agrees tol v prev then known v else if !bit old 31 && agrees tol v (fld old 24 0) then old else unknown old
    | some v, none => if !bit old 31 && agrees tol v (fld old 24 0) then old else unknown old
  let s1 := (s.setAport p { x with lastRate := m }).setReg (Reg.AP_RATE p) new
  if fld new 28 25 = fld old 28 25 then s1
  else
    let c := (((x.open_.bind (·.desc)).orElse fun _ => x.active).map (·.c)).getD 0
    (s1.latch (Reg.AP_PORT_EVENT_STATUS p) 1).marker p 3 (s1.reg (Reg.AP_PERIOD_SEQ p)) (((x.open_.map (·.at_)).getD 0) * c) (fld new 28 25)

/-- RATE_WINDOW_END (R275). -/
def execRateWindowEnd (port : Fin 6) (frames periods : Nat) (s : State) : Host.Outcome State Fault Refusal :=
  s.done (s.rateWindow port.val frames periods)

/-- A commit has changed a port's AUDIOROUTE entry: its open period is completed under the old route with zeros and chaff; the next frame opens a new
one under the new route (R287, 02 R35). What a playback port fetched ahead under the old route goes. -/
def State.reroute (s : State) (p : Nat) (old : Option AudioRoute) : State :=
  if s.routeOf p = old then s
  else
    let x := s.aport p
    let s1 := match x.open_ with
      | some o =>
        if (match old with | some r => r.playback | none => false) then (s.setAport p { x with open_ := none }).playedOut o
        else s.setAport p { x with open_ := none, full := x.full ++ [{ o with chaff := true }] }
      | none => s
    let s2 := s1.dropFetched p
    s2.setAport p { s2.aport p with slotTaken := 0 }

end Sys2Proof.Machine
end

