-- ==== Sys2Proof/Machine/Port.lean ====
section
/-! DEFINITION. The Ethernet port (10 R237 to R244): link states and training, received frames, pauses, send-rate limits. -/

namespace Sys2Proof.Machine

/-! ### Link states (R238, 16 R386) -/

/-- Bits of `EB_PORT_CTRL` in force. -/
def State.portEnabled (s : State) : Bool := bit (s.reg Reg.EB_PORT_CTRL) 0
def State.portDegrade (s : State) : Bool := bit (s.reg Reg.EB_PORT_CTRL) 2
/-- The port auto-negotiates: by its control register, or after the fallback of 16 R386. -/
def State.portAn (s : State) : Bool := bit (s.reg Reg.EB_PORT_CTRL) 3 || s.net.port.fallback

/-- Lanes 0 to 3, or 4 to 7, hold no failed lane. -/
def lowGood (failed : BitVec 8) : Bool := fld failed 3 0 = 0
def highGood (failed : BitVec 8) : Bool := fld failed 7 4 = 0

/-- The lanes that a lane record lets the port train on: all while none has failed; with DEGRADE a whole group, the lower first (R238). With
no such choice the retries go on with all lanes (log 23). -/
def trainChoice (failed : BitVec 8) (degrade : Bool) : TrainLanes :=
  if failed = 0 || !degrade then .all else if lowGood failed then .low else if highGood failed then .high else .all

/-- Four-lane operation is possible with a lane record. -/
def canDegrade (failed : BitVec 8) (degrade : Bool) : Bool := degrade && (lowGood failed || highGood failed)

/-- Training begins: `EB_PORT_CTRL` applies; a port that is not enabled stays DOWN. -/
def State.train (s : State) : State :=
  let s1 := s.applyStaged Reg.EB_PORT_CTRL
  let x := s1.net.port
  if s1.portEnabled then s1.setPort { x with link := .training, train := trainChoice x.failed s1.portDegrade }
  else s1.setPort { x with link := .down }

/-- `EB_PORT_STATUS.STATE`. -/
def linkCode (l : LinkState) : Nat :=
  match l with
  | .down => 0 | .training => 1 | .up8 => 2 | .up4 => 3

/-- The LANE log of a lane (15 R355). -/
def State.laneLog (s : State) (lane : Nat) : State :=
  s.log 0xFF 0x0008 (telUnit 4 lane) (w32 (linkCode s.net.port.link)) s.net.port.failed.toNat

/-- A lane fails while the link is up (R238): the link drops, and retrains on four lanes where it may. -/
def State.laneFailed (s : State) (lane : Nat) : State :=
  let x := s.net.port
  let failed := x.failed ||| (1#8 <<< lane)
  let go := fun (s : State) =>
    let t := s.applyStaged Reg.EB_PORT_CTRL
    if canDegrade failed t.portDegrade then t.train else t.setPort { t.net.port with link := .down }
  match x.link with
  | .up8 => (go ((s.setPort { x with failed := failed }).countSat Reg.EB_DEGRADES 16 0 1)).laneLog lane
  | .up4 => if decide (lane ≥ 4) = x.group then (go (s.setPort { x with failed := failed })).laneLog lane else s
  | .down => s
  | .training => s

/-- LANE_FAIL (R238). -/
def execLaneFail (lane : Fin 8) (s : State) : Host.Outcome State Fault Refusal := s.done (s.laneFailed lane.val)

/-- A width that a training can end with: on all lanes, auto-negotiation may resolve a four-lane PMD, which the port advertises with DEGRADE set
(R237). -/
def trainEnds (t : TrainLanes) (degrade an : Bool) (w : LinkWidth) : Bool :=
  match t, w with
  | .all, .eight => true
  | .all, _ => degrade && an
  | .low, .lanes03 => true
  | .high, .lanes47 => true
  | _, _ => false

/-- Training completes: the link is up on eight or four lanes, with the PMD that is forced or resolved (R237); what waited leaves. -/
def State.trained (s : State) (w : LinkWidth) (copper : Bool) : State :=
  let x := s.net.port
  if x.link ≠ .training || !trainEnds x.train s.portDegrade s.portAn w then s
  else
    let cr := if s.portAn then copper else bit (s.reg Reg.EB_PORT_CTRL) 1
    let y := match w with
      | .eight => { x with link := .up8, group := false, cr := cr }
      | .lanes03 => { x with link := .up4, group := false, cr := cr }
      | .lanes47 => { x with link := .up4, group := true, cr := cr }
    (s.setPort y).drainEgress

/-- TRAINING_DONE (R238). -/
def execTrainingDone (width : LinkWidth) (copper : Bool) (s : State) : Host.Outcome State Fault Refusal :=
  s.done (s.trained width copper)

/-- Training fails: the failed lanes are recorded, each with its log, and the link is DOWN. -/
def State.trainFailed (s : State) (failed : BitVec 8) : State :=
  let x := s.net.port
  if x.link ≠ .training then s
  else
    let s1 := s.setPort { x with link := .down, failed := x.failed ||| failed }
    ((List.range 8).filter fun i => bit failed i).foldl State.laneLog s1

/-- TRAINING_FAIL (R238). -/
def execTrainingFail (failed : BitVec 8) (s : State) : Host.Outcome State Fault Refusal := s.done (s.trainFailed failed)

/-- LINK_RETRY (R238). -/
def execLinkRetry (s : State) : Host.Outcome State Fault Refusal := s.done (if s.net.port.link = .down then s.train else s)

/-- RETRAIN (R238). -/
def execRetrain (src : Source) (s : State) : Host.Outcome State Fault Refusal := s.done (s.cmdWrite src Reg.EB_CMD 1 State.train)

/-- RESTORE of a degraded link (R238): the record is cleared, and all eight lanes train. -/
def State.restoreLanes (s : State) : State :=
  let x := s.net.port
  if x.link = .up4 then (s.setPort { x with failed := 0 }).train else s

/-- RESTORE (R238). -/
def execRestore (src : Source) (s : State) : Host.Outcome State Fault Refusal := s.done (s.cmdWrite src Reg.EB_CMD 2 State.restoreLanes)

/-- 10 s without link-up under a forced PMD: the port trains with auto-negotiation (16 R386). -/
def State.anFallback (s : State) : State :=
  let x := s.net.port
  if s.linkUp || s.portAn then s else (s.setPort { x with fallback := true }).train

/-- LINK_AN_FALLBACK (16 R386). -/
def execLinkAnFallback (s : State) : Host.Outcome State Fault Refusal := s.done s.anFallback

/-! ### Send-rate limits (R243) -/

/-- A congestion notice lowers the limit of its peer or connection, at most once per 50 µs. -/
def State.congested (s : State) (t : RateTarget) : State :=
  match t with
  | .peer p => s.congestedPeer p.val
  | .conn c =>
    let x := s.conn c.val
    if s.recent x.cutAt then s else s.setConn c.val { x with rate := some (s.cutRate x.rate), cutAt := some s.lic }

/-- CNP_RX (R243). -/
def execCnpRx (target : RateTarget) (s : State) : Host.Outcome State Fault Refusal :=
  s.done (match target with
    | .peer p => s.congested (.peer p)
    | .conn c => (s.countWrap Reg.EB_CNP_RX 1).congested (.conn c))

/-- A limit 50 µs later: up by RAISE × 0.1 % of line rate, up to line rate. -/
def State.raiseRate (s : State) (r : Option Nat) : Option Nat :=
  r.bind fun l =>
    let n := l + s.lineRate / 1000 * fld (s.reg Reg.EB_ECN_CFG) 15 8
    if n ≥ s.lineRate then none else some n

/-- The limit of a peer or connection rises. -/
def State.rateRaise (s : State) (t : RateTarget) : State :=
  match t with
  | .peer p => s.setPeer p.val { s.peer p.val with rate := s.raiseRate (s.peer p.val).rate }
  | .conn c => s.setConn c.val { s.conn c.val with rate := s.raiseRate (s.conn c.val).rate }

/-- ECN_RATE_RAISE (R243). -/
def execEcnRateRaise (target : RateTarget) (s : State) : Host.Outcome State Fault Refusal := s.done (s.rateRaise target)

/-! ### Pauses (R242) -/

/-- A received pause: counted; on a priority with PFC it stops the egress queue, or with zero quanta lets it go. -/
def State.pauseRx (s : State) (priority quanta : Nat) : State :=
  let s1 := s.countWrap Reg.EB_PFC_PAUSE_RX 1
  let x := s1.net.port
  if !bit (s1.reg Reg.EB_PFC) priority then s1
  else if quanta = 0 then (s1.setPort { x with paused := AMap.erase x.paused priority }).drainEgress
  else s1.setPort { x with paused := AMap.set x.paused priority quanta }

/-- PFC_PAUSE_RX (R242). -/
def execPfcPauseRx (priority : Fin 8) (quanta : BitVec 16) (s : State) : Host.Outcome State Fault Refusal :=
  s.done (s.pauseRx priority.val quanta.toNat)

/-- The time of a pause ends. -/
def State.pauseEnd (s : State) (priority : Nat) : State :=
  let x := s.net.port
  (s.setPort { x with paused := AMap.erase x.paused priority }).drainEgress

/-- PFC_PAUSE_END (R242). -/
def execPfcPauseEnd (priority : Fin 8) (s : State) : Host.Outcome State Fault Refusal := s.done (s.pauseEnd priority.val)

/-- The fill of a priority's receive buffer changes (R242): a pause leaves at 75 %, again while it stays above 50 %, and one of zero quanta when
it falls below 50 %. -/
def State.rxFill (s : State) (priority percent : Nat) : State :=
  let x := s.net.port
  let s1 := s.setPort { x with rxLevel := AMap.set x.rxLevel priority (min percent 100 * 1048576 / 100) }
  let pausing := bit x.pausing priority
  if !bit (s.reg Reg.EB_PFC) priority then s1
  else if percent ≥ 75 || (pausing && decide (percent > 50)) then
    ((s1.setPort { s1.net.port with pausing := x.pausing ||| (1#8 <<< priority) }).send (.pause priority true)).countWrap
      Reg.EB_PFC_PAUSE_TX 1
  else if pausing && decide (percent < 50) then
    ((s1.setPort { s1.net.port with pausing := x.pausing &&& ~~~(1#8 <<< priority) }).send (.pause priority false)).countWrap
      Reg.EB_PFC_PAUSE_TX 1
  else s1

/-- PFC_PAUSE_REFRESH (R242). -/
def execPfcPauseRefresh (priority : Fin 8) (fillPercent : Nat) (s : State) : Host.Outcome State Fault Refusal :=
  s.done (s.rxFill priority.val fillPercent)

/-! ### Received frames (R240, R241, R243, R244) -/

/-- The priority of a received frame (R241). -/
def framePriority (f : EthFrame) : Nat := match f.vlanPcp with | some p => p % 8 | none => f.dscp / 8 % 8

/-- What the MACsec checks make of a frame. -/
inductive MacsecTake where
  | pass (s : State)
  /-- Dropped under R244, and counted in `EB_MACSEC_DROP`. -/
  | dropped
  /-- A protected frame that the port does not accept, as MACsec is not enabled (R240). -/
  | refused

/-- The checks of R244: protection, the association and its check value, and the replay window. -/
def State.macsecTake (s : State) (f : EthFrame) : MacsecTake :=
  let ctrl := s.reg Reg.EB_MACSEC_CTRL
  match f.macsec with
  | none => if bit ctrl 0 && bit ctrl 1 && f.body ≠ .macControl then .dropped else .pass s
  | some (an, pn, good) =>
    if !bit ctrl 0 then .refused
    else
      match s.net.port.rxSas.find? fun a => a.an = an with
      | none => .dropped
      | some a =>
        if !good || (bit ctrl 2 && decide (pn + fld (s.reg Reg.EB_MACSEC_WINDOW) 29 0 < a.pn.toNat)) then .dropped
        else
          let x := s.net.port
          let b := { a with pn := BitVec.ofNat 64 (min (max a.pn.toNat (pn + 1)) (2 ^ 64 - 1)) }
          .pass (s.setPort { x with rxSas := x.rxSas.map fun y => if y.an = an then b else y })

/-- Opcodes that the device receives (R260). -/
def roceOpcodes : List Nat := [0x00, 0x01, 0x02, 0x04, 0x06, 0x07, 0x08, 0x0A, 0x0C, 0x0D, 0x0E, 0x0F, 0x10, 0x11, 0x81]

/-- A RoCEv2 packet on a connection: an opcode outside the table moves it to ERROR (R260); a congestion notice lowers its limit; a mark of congestion is
answered with one, at most once per 50 µs (R243). -/
def State.roceRx (s : State) (c : Fin 4096) (opcode : Nat) (ce : Bool) : State :=
  let x := s.conn c.val
  if x.state ≠ .rts then s
  else
    let s1 : State :=
      if ce && !s.recent x.cnpAt && x.failing.isNone then
        ((s.setConn c.val { x with cnpAt := some s.lic }).emit (.cnp c.val)).countWrap Reg.EB_CNP_TX 1
      else s
    if opcode = 0x81 then (s1.countWrap Reg.EB_CNP_RX 1).congested (.conn c)
    else if roceOpcodes.contains opcode then s1
    else (s1.emit (.roceNak c.val x.recvPsn 1)).startError c.val 3

/-- The device's MAC address, octet 0 in the top byte. -/
def State.ownMac (s : State) : BitVec 48 := BitVec.ofNat 48 (fld (s.reg Reg.EB_MAC_HI) 15 0 * 2 ^ 32 + (s.reg Reg.EB_MAC_LO).toNat)

/-- The device's IP address of a version, in wire order: an address of zeros disables the version (10 "Ethernet and Bale registers"). -/
def State.ownIp (s : State) (ipv6 : Bool) : Bytes :=
  if ipv6 then [0, 1, 2, 3].flatMap fun i => beBytes 4 (s.reg (Reg.EB_IP6_OF i)).toNat else beBytes 4 (s.reg Reg.EB_IP4).toNat

/-- A datagram reaches the device: at its address of the datagram's IP version, which is enabled, and the port that takes it (log 99). -/
def State.udpForUs (s : State) (u : UdpHead) (port : Nat) : Bool :=
  let own := s.ownIp u.src.ipv6
  own.any (· ≠ 0) && u.dstAddress = own && u.dstPort.toNat = port

/-- A frame that the port accepts (R240): MAC control, or IP to the device's addresses. -/
def State.frameOk (s : State) (f : EthFrame) : Bool :=
  match f.body with
  | .macControl => true
  | .bale u _ => f.dstMac = s.ownMac && s.udpForUs u (fld (s.reg Reg.EB_BALE_PORT) 15 0)
  | .roce u _ _ _ => f.dstMac = s.ownMac && s.udpForUs u 4791
  | .other => false

/-- A received frame (R240 to R244). -/
def State.frameRx (s0 : State) (f : EthFrame) : State :=
  let s := (s0.applyAll frameFields).count64 Reg.EB_RX_FRAMES_LO Reg.EB_RX_FRAMES_HI 1
  let drop := s.count32 Reg.EB_RX_DROP 1
  let pr := framePriority f
  let full := !bit (s.reg Reg.EB_PFC) pr && decide (AMap.getD s.net.port.rxLevel pr 0 + f.length > 1048576)
  if !s0.linkUp then s0
  else if f.length < 64 ∨ f.length > 9216 then drop
  else if !s.frameOk f then drop
  else
    match s.macsecTake f with
    | .dropped => s.count32 Reg.EB_MACSEC_DROP 1
    | .refused => drop
    | .pass s1 =>
      if f.body ≠ .macControl && full then drop
      else
        match f.body with
        | .macControl => s1
        | .other => s1
        | .bale u d => if u.checksum = some false then s1 else s1.baleRx u.src d f.ecnCe
        | .roce _ c opcode icrc => if icrc then s1.roceRx c opcode.toNat f.ecnCe else s1

/-- ETHERNET_FRAME_RX (R240). -/
def execEthernetFrameRx (frame : EthFrame) (s : State) : Host.Outcome State Fault Refusal := s.done (s.frameRx frame)

end Sys2Proof.Machine
end

