-- ==== Sys2Proof/Machine/Roce.lean ====
section
/-! DEFINITION. RoCEv2 (10 R260 to R263, R266): connection commands and errors, inbound requests, answers and timeouts. -/

namespace Sys2Proof.Machine

/-! ### The end of a request (R262, R263, 09 R213, R235) -/

/-- A remote element goes on once no piece of it is outstanding. -/
def State.pieceAnswered (s : State) (i : Nat) (k : ProgKind) : State :=
  if s.anyRequest fun r => r.ofProg i k then s
  else
    match (s.inst? i).bind fun x => x.prog k with
    | some p => match p.wait with | .remote len => s.elementDone i k len | _ => s
    | none => s

/-- Bytes of a remote read land in the crib (09 R225); what lands for gleaned work is wasted (09 R231). -/
def State.readLands (s : State) (i area off : Nat) (bs : Bytes) (chaff : Bool) : State :=
  match s.inst? i with
  | none => s
  | some x =>
    if x.gleaning.isSome then s.setInst i { x with wasted := x.wasted + bs.length }
    else if x.chaffMode then s.count64 (Reg.SW_GLEAN_LO x.bay) (Reg.SW_GLEAN_HI x.bay) bs.length
    else
      let s1 := s.cursorWrite i area off bs (if chaff then [(off, bs.length)] else [])
      if chaff then s1.count32 (Reg.FXE_CHAFF_IN x.core) (linesOf off bs.length).length else s1

/-- A piece that came from a peer meets a fault at its destination (R235): a resumable one holds the transfer, and the piece is asked for again
in full; a protection fault ends it. -/
def State.copyHeld (s : State) (b c src len : Nat) (f : RunFault) : State :=
  let s1 := if s.faultWaits f.cause then s.setChannel b c { s.channel b c with again := (s.channel b c).again ++ [(src, f.va, len)] } else s
  s1.copyFault b c f true

/-- Bytes of a remote read of a copy channel land in the bay's memory, or go on to a peer. -/
def State.copyLands (s : State) (b c src dst : Nat) (bs : Bytes) (chaff : Bool) : State :=
  match s.translate b dst true copyEngine with
  | (s1, .ok t) =>
    if t.remote then
      match s1.remoteConn b (remotePeer t.entry) (((s.channel b c).active.map (·.be)).getD false) with
      | some k => s1.postWrite k (.copyWrite b c dst bs.length) (remoteAddr t dst) bs
      | none => s1.copyHeld b c src bs.length ⟨dst, .wrongTier, (leafLevel (pteSizeCode t.entry)).getD 4, t.entry⟩
    else (s1.physWrite (t.phys dst) bs chaff).copyProgress b c bs.length
  | (s1, .error (cause, level, e)) => s1.copyHeld b c src bs.length ⟨dst, cause, level, e⟩

/-- An access of a gleaned copy transfer has ended: with the last of them the gleaning is complete (09 R231). -/
def State.gleanedDone (s : State) (b : Nat) (serial : Option Nat) : State :=
  match serial with
  | some n => if s.anyRequest fun r => r.ofGlean b n then s else s.countGlean b 0
  | none => s

/-- One request of a connection has completed: with data for a read. -/
def State.requestDone (s : State) (r : ConnRequest) (data : Bytes) (chaff : Bool) : State :=
  match r with
  | .read i k off _ area _ => (s.readLands i area off data chaff).pieceAnswered i k
  | .write i k _ _ => s.pieceAnswered i k
  | .copyRead b c src dst _ => (s.copyLands b c src dst data chaff).copyDone b c
  | .copyWrite b c _ len => (s.copyProgress b c len).copyDone b c
  | .gleaned b serial _ _ _ => s.gleanedDone b serial
  | .send b pool buffer => s.returnBuffer b pool buffer

/-! ### Answers (R260, R263) -/

/-- Packet sequence numbers are 24 bits: a is before or at b. -/
def psnLe (a b : Nat) : Bool := decide ((b + 2 ^ 24 - a % 2 ^ 24) % 2 ^ 24 < 2 ^ 23)

/-- Requests of a connection go, and complete. -/
def State.completeRequests (s : State) (c : Nat) (p : Nat × ConnRequest → Bool) (data : Bytes) (chaff : Bool) : State :=
  let x := s.conn c
  let gone := x.requests.filter p
  let s1 := s.setConn c { x with requests := x.requests.filter (fun r => !p r), tries := if gone.isEmpty then x.tries else 0 }
  (gone.foldl (fun s r => s.requestDone r.2 data chaff) s1).releaseWaits c x.waits.length

/-- The requests of a connection from a number on leave again, counted (R260). -/
def State.roceRetry (s : State) (c psn : Nat) : State :=
  (s.countSat (Reg.EB_CONN_RETRIES c) 16 0 1).emit (.rdmaRetry c psn)

/-- An answer on a connection: it completes what it names, asks for a retry, or moves the connection to ERROR. -/
def State.answerRx (s : State) (c psn : Nat) (a : RoceAnswer) : State :=
  let x := s.conn c
  if x.state ≠ .rts || x.failing.isSome then s
  else
    match a with
    | .ack => s.completeRequests c (fun r => psnLe r.1 psn && r.2.wants.isNone) [] false
    | .readResponse data chaff =>
      match x.requests.find? fun r => r.1 = psn && r.2.wants = some data.length with
      | some _ =>
        (s.completeRequests c (fun r => psnLe r.1 psn && r.2.wants.isNone) [] false).completeRequests c
          (fun r => r.1 = psn && r.2.wants.isSome) data chaff
      | none => s
    | .rnrNak => if x.requests.any fun r => r.1 = psn then s.roceRetry c psn else s
    | .remoteAccessNak => s.startError c 2
    | .invalidRequestNak => s.startError c 3
    | .remoteOperationalNak => s.startError c 4

/-- ROCE_ACK_RX (R260). -/
def execRoceAckRx (conn : Fin 4096) (psn : Nat) (answer : RoceAnswer) (s : State) : Host.Outcome State Fault Refusal :=
  s.done (s.answerRx conn.val psn answer)

/-- The local acknowledgement timeout (R260, R263): a retry, or the end of retries. Timers stand while the link is down (R239). -/
def State.answerTimeout (s : State) (c : Nat) : State :=
  let x := s.conn c
  match x.requests with
  | [] => s
  | r :: _ =>
    if !s.linkUp || x.state ≠ .rts || x.failing.isSome then s
    else if x.tries ≥ s.connRetry c then s.startError c 1
    else (s.setConn c { x with tries := x.tries + 1 }).roceRetry c r.1

/-- ROCE_ACK_TIMEOUT (R260). -/
def execRoceAckTimeout (conn : Fin 4096) (s : State) : Host.Outcome State Fault Refusal := s.done (s.answerTimeout conn.val)

/-! ### Errors and commands (R263, R266) -/

/-- ERROR is reported once the packet lifetime has passed: requests in flight complete, reads with chaff-marked data that the model leaves free, writes
as not landed. -/
def State.reportError (s : State) (c : Nat) : State :=
  let x := s.conn c
  match x.failing with
  | none => s
  | some cause =>
    let s1 := s.setConn c { x with state := .error, failing := none, cause := cause, requests := [], waits := [], tries := 0, heldReq := none }
    (x.requests.map (·.2) ++ x.waits.map (·.1)).foldl (fun s r =>
      let (s2, bs) := s.drawBytes (r.wants.getD 0)
      s2.requestDone r bs true) s1

/-- CONN_ERROR_REPORT (R263). -/
def execConnErrorReport (conn : Fin 4096) (s : State) : Host.Outcome State Fault Refusal := s.done (s.reportError conn.val)

/-- The connection that `EB_CONN_SEL` selects. -/
def State.connSelected (s : State) : Nat := fld (s.reg Reg.EB_CONN_SEL) 11 0

/-- A command of a connection is refused. -/
def State.connRefuse (s : State) (c : Nat) : State := s.setConn c { s.conn c with refused := true }

/-- The fields that OPEN applies. -/
def connFields (c : Nat) : List Nat :=
  [Reg.EB_CONN_CTRL c, Reg.EB_CONN_RQPN c, Reg.EB_CONN_SPSN c, Reg.EB_CONN_RPSN c, Reg.EB_CONN_RKEY_IN c, Reg.EB_CONN_RKEY_OUT c,
   Reg.EB_CONN_EXP_LO c, Reg.EB_CONN_EXP_HI c, Reg.EB_CONN_EXP_LEN c]

/-- OPEN (R266). -/
def State.openConn (s : State) (c : Nat) : State :=
  let v := s.latest (Reg.EB_CONN_CTRL c)
  if (s.conn c).state ≠ .idle || fld v 21 20 = 3 || fld v 26 22 = 0 || s.peerKind (fld v 13 0) = 0 then s.connRefuse c
  else
    let s1 := (s.applyAll (connFields c)).setReg (Reg.EB_CONN_RETRIES c) 0
    s1.setConn c { Conn.idle with
      state := .rts, sendPsn := fld (s1.reg (Reg.EB_CONN_SPSN c)) 23 0, recvPsn := fld (s1.reg (Reg.EB_CONN_RPSN c)) 23 0 }

/-- CONN_OPEN (R266). -/
def execConnOpen (src : Source) (s : State) : Host.Outcome State Fault Refusal :=
  let c := s.connSelected
  s.done (s.cmdWrite src (Reg.EB_CONN_CMD c) 1 fun s => s.openConn c)

/-- ERROR (R263): accepted in RTS. -/
def State.forceError (s : State) (c : Nat) : State :=
  let x := s.conn c
  if x.state ≠ .rts then s.connRefuse c else (s.setConn c { x with refused := false }).startError c 5

/-- CONN_ERROR (R263). -/
def execConnError (src : Source) (s : State) : Host.Outcome State Fault Refusal :=
  let c := s.connSelected
  s.done (s.cmdWrite src (Reg.EB_CONN_CMD c) 2 fun s => s.forceError c)

/-- RESET (R263): accepted in ERROR; counters are cleared. -/
def State.resetConn (s : State) (c : Nat) : State :=
  if (s.conn c).state ≠ .error then s.connRefuse c else (s.setConn c .idle).setReg (Reg.EB_CONN_RETRIES c) 0

/-- CONN_RESET (R263). -/
def execConnReset (src : Source) (s : State) : Host.Outcome State Fault Refusal :=
  let c := s.connSelected
  s.done (s.cmdWrite src (Reg.EB_CONN_CMD c) 3 fun s => s.resetConn c)

/-! ### Inbound requests (R257, R261) -/

/-- An answer leaves. -/
def State.answer (s : State) (x : Sent) : State := s.emit x

/-- The next packet sequence number expected moves on. -/
def State.advancePsn (s : State) (c n : Nat) : State :=
  let x := s.conn c
  s.setConn c { x with recvPsn := (x.recvPsn + n) % 2 ^ 24, heldReq := none }

/-- A request may be served: the connection is in RTS and not failing, nothing is held, and the number is the one expected (R261, R263). -/
def State.mayServe (s : State) (c psn : Nat) : Bool :=
  s.connReady c && (s.conn c).heldReq.isNone && (s.conn c).recvPsn = psn % 2 ^ 24

/-- The bay address of a request: as it stands in host mode, or inside the export window; none outside it (R261). -/
def State.requestVa (s : State) (c : Nat) (va : Nat) (len : Nat) : Option Nat :=
  if s.connOffset c then
    if va + len ≤ fld (s.reg (Reg.EB_CONN_EXP_LEN c)) 25 0 * 4096 then
      some ((s.reg64 (Reg.EB_CONN_EXP_LO c) (Reg.EB_CONN_EXP_HI c)).toNat + va)
    else none
  else some va

/-- A fault on an inbound request: a resumable one holds the connection's requests; a protection fault is answered and is an error (R261). A
remote access error found by the responder moves it to ERROR with that cause. -/
def State.requestFault (s : State) (c : Nat) (write : Bool) (f : RunFault) (h : RdmaHeld) (psn : Nat) : State :=
  let s1 := (s.raiseFault (s.connBay c) f.va write rdmaEngine f.cause f.level f.entry (.rdma c)).1
  if s.faultWaits f.cause then s1.setConn c { s1.conn c with heldReq := some h }
  else (s1.answer (.roceNak c psn 2)).startError c 2

/-- Carry out a WRITE at a bay address. -/
def State.serveWrite (s : State) (c psn va : Nat) (data : Bytes) : State :=
  match s.writeRun (s.connBay c) va data false rdmaEngine with
  | (s1, some f) => s1.requestFault c true f (.write psn va data) psn
  | (s1, none) => (s1.advancePsn c (s1.packets c data.length)).answer (.roceAck c psn)

/-- Carry out a READ at a bay address. -/
def State.serveRead (s : State) (c psn va len : Nat) : State :=
  match s.readRun (s.connBay c) va len rdmaEngine with
  | (s1, .error f) => s1.requestFault c false f (.read psn va len) psn
  | (s1, .ok (bs, chaff)) => (s1.advancePsn c (s1.packets c len)).answer (.roceReadResponse c psn bs chaff)

/-- The checks of an inbound request: its key and its address (R261). -/
def State.serve? (s : State) (req : RoceRequest) (len : Nat) (go : Nat → State) : State :=
  let c := req.conn.val
  if !s.mayServe c req.psn then s
  else if req.rkey ≠ s.reg (Reg.EB_CONN_RKEY_IN c) then s.answer (.roceNak c req.psn 2)
  else
    match s.requestVa c req.va.toNat len with
    | none => s.answer (.roceNak c req.psn 2)
    | some va => go va

/-- ROCE_RDMA_WRITE (R261). -/
def execRoceRdmaWrite (req : RoceRequest) (data : List Byte) (s : State) : Host.Outcome State Fault Refusal :=
  s.done (s.serve? req data.length fun va => s.serveWrite req.conn.val (req.psn % 2 ^ 24) va data)

/-- ROCE_RDMA_READ (R261). -/
def execRoceRdmaRead (req : RoceRequest) (length : Nat) (s : State) : Host.Outcome State Fault Refusal :=
  s.done (s.serve? req length fun va => s.serveRead req.conn.val (req.psn % 2 ^ 24) va length)

/-- The queue that a connection's SENDs go to: bound to it, of producer kind 2 (R257); staged bindings apply at the next handle. -/
def State.sendQueue (s : State) (c : Nat) : Option (Nat × Nat) :=
  (List.range 4096).findSome? fun q =>
    let w := s.latest (Reg.EB_QB q)
    if bit w 27 && bit w 26 && fld (s.latest (Reg.EB_QB_CONN q)) 11 0 = c then
      match s.queueDef q with
      | some (b, d) => if d.producer = 2 then some (b, q) else none
      | none => none
    else none

/-- Deliver an inbound SEND into a pool 7 buffer: with none free, or 64 buffers of its peer being assembled, RNR NAK. A SEND on a connection that no queue
is bound to is no supported request. -/
def State.serveSend (s0 : State) (c psn : Nat) (data : Bytes) : State :=
  match s0.sendQueue c with
  | none => (s0.answer (.roceNak c psn 1)).startError c 3
  | some (b, q) =>
    let s := s0.bindQueue q
    if (s.peer (s.connPeer c)).assemblies.length ≥ 64 then s.answer (.roceNak c psn 0)
    else
      match s.takeBuffer b 7 with
      | (s1, none) => s1.answer (.roceNak c psn 0)
      | (s1, some k) =>
        let fit := data.take (s1.poolSize b 7)
        match s1.writeRun b (s1.bufferVa b 7 k) fit false baleWriter with
        | (s2, some f) => (s2.returnBuffer b 7 k).requestFault c true f (.send psn data) psn
        | (s2, none) =>
          let h : Handle :=
            { pool := 7, buffer := k, length := ceilDiv data.length 64, chaff := decide (fit.length < data.length), last := false, tag := 0, seq := 0 }
          ((s2.pushRun q [⟨h, externalCtx⟩]).advancePsn c (s2.packets c data.length)).answer (.roceAck c psn)

/-- ROCE_SEND (R257). -/
def execRoceSend (conn : Fin 4096) (psn : Nat) (data : List Byte) (s : State) : Host.Outcome State Fault Refusal :=
  s.done (if s.mayServe conn.val psn then s.serveSend conn.val (psn % 2 ^ 24) data else s)

/-- A held request runs again, or is refused with its error (R261). -/
def State.resumeRdma (s : State) (c : Nat) (abort : Bool) : State :=
  let x := s.conn c
  match x.heldReq with
  | none => s
  | some h =>
    let s1 := s.setConn c { x with heldReq := none }
    if x.state ≠ .rts || x.failing.isSome then s1
    else
      match h with
      | .write psn va data => if abort then (s1.answer (.roceNak c psn 2)).startError c 2 else s1.serveWrite c psn va data
      | .read psn va len => if abort then (s1.answer (.roceNak c psn 2)).startError c 2 else s1.serveRead c psn va len
      | .send psn data => if abort then (s1.answer (.roceNak c psn 2)).startError c 2 else s1.serveSend c psn data

end Sys2Proof.Machine
end

