-- ==== Sys2Proof/Machine/Faults.lean ====
section
/-! DEFINITION. Resumes of held requesters, and the end of migrations (03 R77 to R82, R412). -/

namespace Sys2Proof.Machine

/-! ### Requesters that go on (R78, R81) -/

/-- The bank-side commands and the attention pass of an instance translate on. -/
def State.resumeEngine (s : State) (i : Nat) : State :=
  let s1 := (s.engines.commands.filter fun c => c.inst = i).foldl (fun (s : State) c => s.bseAdvance c.id c.pages) s
  let s2 := match s1.pass? i with
    | some p => s1.passAdvance i (p.work + 1)
    | none => s1
  (s2.scanAgain i).refresh i

/-- A held message, taken out of those that wait. -/
def State.takeHeld (s : State) (id : Nat) : State × Option HeldMsg :=
  ({ s with net := { s.net with heldMsgs := AMap.erase s.net.heldMsgs id } }, AMap.get? s.net.heldMsgs id)

/-- The assembly that a held piece belongs to. -/
def State.heldAssembly (s : State) (p q length tag offset : Nat) : Option (Nat × Assembly) :=
  match s.queueDef q, (s.peer p).assemblies.find? (pieceOf q length tag offset) with
  | some (b, _), some a => some (b, a)
  | _, _ => none

/-- A held message lands from where it stopped (10 R255, R257). -/
def State.resumeMessage (s : State) (id : Nat) : State :=
  match s.takeHeld id with
  | (s1, some (.frames p msg sid chaff first data)) =>
    match s1.bayOfSid sid with
    | some b => s1.takeFrames p msg b sid chaff first data
    | none => s1.effect p msg
  | (s1, some (.piece p msg q chaff offset length tag data)) =>
    match s1.heldAssembly p q length tag offset with
    | some (b, a) => s1.writePiece b p msg a chaff offset data
    | none => s1.effect p msg
  | (s1, none) => s1

/-- A held message meets a protection fault: what is left of it is discarded and the message is refused (10 R255, R257). -/
def State.abortMessage (s : State) (id : Nat) : State :=
  match s.takeHeld id with
  | (s1, some (.frames p msg _ _ _ _)) => (s1.count32 Reg.EB_RX_REFUSED 1).effect p msg
  | (s1, some (.piece p msg q _ offset length tag data)) =>
    let s2 := s1.count32 Reg.EB_RX_REFUSED 1
    match s2.heldAssembly p q length tag offset with
    | some (_, a) => s2.pieceLanded p msg a offset data.length true
    | none => s2.effect p msg
  | (s1, none) => s1

/-- An audio port's held access runs again. -/
def State.resumeAudio (s : State) (p : Nat) : State := if (s.aport p).full.isEmpty then s.fetchPeriod p else s.deliver p

/-- A requester that a fault or a COPYING page held goes on: it walks again (R78, R81). A bank-side service is allowed again, and runs in
full at its next command. -/
def State.resumeHolder (s : State) (h : FaultHolder) : State :=
  match h with
  | .program i _ => if ((s.inst? i).map (·.chaffMode)).getD false then s.chaffOn i else (s.holdProgram h .none).rouse i
  | .engine i => s.resumeEngine i
  | .copy b c => (s.setChannel b c { s.channel b c with blocked := false, cause := 0 }).copyDone b c
  | .stream sid => s.tryHeaders false sid
  | .seq q => s.seqHeaders q
  | .batch b slot =>
    match AMap.get? (s.batcher b).slots slot with
    | some x => if x.held then s.startBatch b slot x else s
    | none => s
  | .send seq i => s.sendSlots seq i
  | .message id => s.resumeMessage id
  | .rdma c => s.resumeRdma c false
  | .audio p => s.resumeAudio p
  | .service _ => s
  | .peer _ => s
  | .none => s

/-- A requester that a fault held meets a protection fault of the same cause in its place (R82). -/
def State.abortHolder (s : State) (b : Nat) (h : FaultHolder) (cause : FaultCause) : State :=
  match h with
  | .program i _ => (s.holdProgram h .none).abortInst i cause.code
  | .engine i => (s.refresh i).abortInst i cause.code
  | .copy b c => s.copyFail b c cause
  | .stream sid =>
    if (s.stream sid).inflight.isNone then s
    else ((s.setStream sid { s.stream sid with stateFault := true }).returnStream sid true).finishRow b false sid
  | .seq q =>
    if (s.seqCtx q).inflight.isNone then s
    else ((s.setSeq q { s.seqCtx q with pageFault := true }).returnSeq q true).finishRow b true q
  | .batch b slot =>
    match AMap.get? (s.batcher b).slots slot with
    | some x => if x.held then (s.freeSlot b slot).returnRows x else s
    | none => s
  | .send _ _ => s
  | .message id => s.abortMessage id
  | .rdma c => s.resumeRdma c true
  | .audio p => if (s.aport p).full.isEmpty then s else s.discardPeriod p
  | .service q =>
    match (s.queue q).entries.head? with
    | some e => s.serviceDone q e true
    | none => s
  | .peer _ => s
  | .none => s

/-- A requester whose protection fault waited for room in the queue meets it once its record is posted (R82). -/
def State.endProtected (s : State) : State :=
  (s.trans.faults.filter fun f => f.posted && !f.cause.resumable).foldl (fun (s : State) f =>
    ({ s with trans := { s.trans with faults := s.trans.faults.filter fun x => x.tag ≠ f.tag } } : State).abortHolder f.bay f.holder f.cause) s

/-! ### The fault queue (R82) -/

/-- A write of `TRN_FQ_TAIL`. -/
def State.fqTailOp (s : State) (v : Word) : State :=
  let tail := (s.reg Reg.TRN_FQ_TAIL).toNat
  let n := (fld v 11 0 + 4096 - tail) % 4096
  if n > s.trans.fqCount then s
  else
    let s1 := s.setReg Reg.TRN_FQ_TAIL (w32 (fld v 11 0))
    ({ s1 with trans := { s1.trans with fqCount := s1.trans.fqCount - n } }).postWaiting.endProtected

/-- FQ_TAIL_WRITE (R82). -/
def execFqTailWrite (src : Source) (value : Word) (s : State) : Host.Outcome State Fault Refusal :=
  s.done (s.plainWrite src Reg.TRN_FQ_TAIL fun s => s.fqTailOp value)

/-- A write of `TRN_FAULT_RESUME` (R82): a tag that no outstanding fault has is ignored. -/
def State.faultResumeOp (s : State) (tag : Nat) (abort : Bool) : State :=
  match s.trans.faults.find? fun f => f.tag = tag && f.posted with
  | none => s
  | some f =>
    let s1 : State := { s with trans := { s.trans with faults := s.trans.faults.filter fun x => x.tag ≠ tag } }
    if abort then s1.abortHolder f.bay f.holder f.cause else s1.resumeHolder f.holder

/-- FAULT_RESUME (R82). -/
def execFaultResume (src : Source) (tag : BitVec 16) (abort : Bool) (s : State) : Host.Outcome State Fault Refusal :=
  s.done (s.plainWrite src Reg.TRN_FAULT_RESUME fun s => s.faultResumeOp tag.toNat abort)

/-! ### The end of a migration (R77 to R79) -/

/-- The page of a migration. -/
def Migration.page (m : Migration) : Nat := m.va.toNat / m.size * m.size

/-- Free the granules of a frame that a bay owns; one that is being retired goes offline (15 R372). -/
def State.freeFrame (s : State) (b frame size : Nat) : State :=
  (List.range (size / 65536)).foldl (fun (s : State) i =>
    let g := frame / 65536 + i
    if s.owner g = b then s.setOwner g (if s.tel.retiring.contains g then ownerOffline else ownerFree) else s) s

/-- Writes held on the page of a migration resume against the entry that now stands (R78). -/
def State.releaseHeld (s : State) (m : Migration) : State :=
  let mine := fun (h : HeldWrite) => decide (h.bay = m.bay ∧ m.page ≤ h.va.toNat ∧ h.va.toNat < m.page + m.size)
  let waiting := s.trans.held.filter mine
  let s1 : State := { s with trans := { s.trans with held := s.trans.held.filter fun h => !mine h } }
  waiting.foldl (fun (s : State) h => s.resumeHolder h.holder) s1

/-- The streams of a bay that wait for pages to settle are checked again as at readiness, whatever their state and in lull too (06 R158). -/
def State.recheckAbsent (s : State) (b : Nat) : State :=
  let waiting := s.streams.filter fun e => e.2.absent && !e.2.needRecheck && s.bayOfSid e.1 = some b
  waiting.foldl (fun (s : State) e => (s.recheck b e.1).tryPost e.1) s

/-- A migration has ended with a result: no cache keeps its entry as COPYING (R62, R65), its command completes, held writes go on, spill looks again,
and waiting streams are checked. -/
def State.endMigration (s : State) (m : Migration) (r : TierResult) : State :=
  let s0 := if m.phase = .queued then s else s.dropCached m.bay false false m.page m.size
  let s1 := (s0.dropMig m r).releaseHeld m
  let s2 := if bit s1.tiers.spillActive m.bay && !bit s1.tiers.spillStarved m.bay then s1.spillRun m.bay else s1
  s2.recheckAbsent m.bay

/-- The entry that the migration swapped in still stands. -/
def State.stillCopying (s : State) (m : Migration) : Bool := s.phys64 m.entryAddr = pteWith m.oldEntry 57 56 copying

/-- The entry of a moved page: new frame and tier, generation plus one, SETTLED, and one more spill when it goes to a Granary (R77). -/
def movedEntry (m : Migration) : W64 :=
  let e1 := pteWith (pteWith m.oldEntry 51 12 (m.newFrame / 4096)) 4 3 m.target
  let e2 := pteWith (pteWith e1 55 52 ((pteGen m.oldEntry + 1) % 16)) 57 56 settled
  if m.target = 2 then pteWith e2 62 59 (min 15 (pteSpillCount m.oldEntry + 1)) else e2

/-- Copy a frame: bytes and marks line by line; a line that meets an uncorrectable error arrives marked (R54, R77). -/
def State.moveBytes (s : State) (old new len : Nat) : State :=
  let broken := s.physUe old len
  let s1 := (s.meetUe old len).physCopy old new len
  { s1 with chaff := broken.foldl (fun c l => setInsert c (l - old / 64 + new / 64)) s1.chaff }

/-- The copy finishes (R77): bytes and marks move to the new frame, and the entry is swapped; an edit of the entry stands, and the migration
is abandoned (R79). -/
def State.migrationCopied (s : State) (id : Nat) : State :=
  match s.tiers.migrations.find? fun m => m.id = id with
  | some m =>
    if m.phase ≠ .copying then s
    else if s.stillCopying m then
      let s2 := (s.meetUe m.entryAddr 8).moveBytes (pteFrame m.oldEntry * 4096) m.newFrame m.size
      (s2.physWrite64 m.entryAddr (movedEntry m)).setMig { m with phase := .secondInv }
    else
      (((s.meetUe m.entryAddr 8).freeFrame m.bay m.newFrame m.size).count16 Reg.MT_MIG_ABANDONED).endMigration m .abandoned
  | none => s

/-- MIGRATION_COPY_DONE (R77). -/
def execMigrationCopyDone (migration : Nat) (s : State) : Host.Outcome State Fault Refusal := s.done (s.migrationCopied migration)

/-- A repair's page has moved (15 R355: pages migrated). -/
def State.repairPage (s : State) : State :=
  { s with tel := { s.tel with running := s.tel.running.map fun x => { x with pages := x.pages + 1 } } }

/-- The second invalidate completes (R77): no access reaches the old frame, its granules are free, and held writes go on. A leaf that the
walker brought back is appended to the spill list again (08 R204). -/
def State.migrationEnd (s : State) (id : Nat) : State :=
  match s.tiers.migrations.find? fun m => m.id = id with
  | some m =>
    if m.phase ≠ .secondInv || s.rangeBusy m.bay false m.page m.size then s
    else
      let s1 := (s.dropCached m.bay false false m.page m.size).freeFrame m.bay (pteFrame m.oldEntry * 4096) m.size
      let l := s1.spillList m.bay
      let s2 := if m.origin = .repair then s1.repairPage else if m.origin = .walker && decide (l.length < 65536) then s1.setSpillList m.bay (l ++ [m.va]) else s1
      s2.endMigration m .ok
  | none => s

/-- MIGRATION_END (R77). -/
def execMigrationEnd (migration : Nat) (s : State) : Host.Outcome State Fault Refusal := s.done (s.migrationEnd migration)

/-- The entry of a migration returns to SETTLED with its old frame, and the new granules are free (R79). -/
def State.restoreEntry (s : State) (m : Migration) : State :=
  (if s.stillCopying m then s.physWrite64 m.entryAddr m.oldEntry else s).freeFrame m.bay m.newFrame m.size

/-- CANCEL (R79): a migration that waits is removed, one whose page is COPYING is undone, and any other page gives ABSENT. -/
def State.mtCancelOp (s : State) (b : Nat) : State :=
  let va := s.mtArg0
  if !vaOk va then s.tierResult .argument
  else
    match s.tiers.migrations.find? fun m => m.bay = b && m.va.toNat / m.size = va / m.size with
    | none => s.tierResult .absent
    | some m =>
      if m.phase = .queued then (s.endMigration m .ok).tierResult .ok
      else if m.phase ≠ .secondInv && s.stillCopying m then ((s.restoreEntry m).endMigration m .ok).tierResult .ok
      else s.tierResult .absent

/-- MT_CANCEL (R79). -/
def execMtCancel (src : Source) (bay : Fin 16) (s : State) : Host.Outcome State Fault Refusal :=
  s.done (s.rkWrite src Reg.MT_CMD fun s => s.mtCommand (w32 (5 + bay.val * 16)) fun s => s.mtCancelOp bay.val)

/-- Every migration ends at RESET_N and at a chip reset; the pages that spill had taken stand at the head of their lists again, in their order, so
that its first check issues their migrations again (R412). -/
def State.endMigrations (s : State) : State :=
  let s1 := s.tiers.migrations.reverse.foldl (fun (s : State) m =>
    match m.phase with
    | .queued => s.spillBack m
    | .firstInv => (s.restoreEntry m).spillBack m
    | .copying => (s.restoreEntry m).spillBack m
    | .secondInv => s.freeFrame m.bay (pteFrame m.oldEntry * 4096) m.size) s
  { s1 with tiers := { s1.tiers with migrations := [], cmdBusy := none } }

end Sys2Proof.Machine
end

