-- ==== Sys2Proof/Machine/Lull.lean ====
section
/-! DEFINITION. Lull, and the tables of a commit record as the blocks take them (02 R43, R45; 03 R71; 06 R161; 09 R416; 15 R357;
16 R388). -/

namespace Sys2Proof.Machine

/-! ### Into lull and out of it (02 R43) -/

/-- Dispatch of a bay stops: open batches close, and resident BE stalls are saved at their next pass boundary. -/
def State.enterLull (s : State) (b : Nat) : State :=
  let s1 := ((s.batcher b).openBatches.map (·.1)).foldl (fun (s : State) g => s.closeBatch b g) s
  (s1.bayCores b).foldl (fun (s : State) n =>
    (s.residents n).foldl (fun (s : State) r =>
      if r.2.2.desc.be && (r.2.2.state = .resident || r.2.2.state = .blocked) then s.beginSave n r.1 none else s) s) s1

/-- A reason for lull arises. -/
def State.askLull (s : State) (b : Nat) (f : Bay → Bay) : State :=
  let was := (s.bay b).lullWanted
  let s1 := s.setBay b (f (s.bay b))
  if was || !(s1.bay b).lullWanted then s1 else s1.enterLull b

/-- A bay resumes: its ring configuration applies (09 R229), its batches, streams and sequences go on, and its runnable saved
contexts take the free slots (04 R100). -/
def State.resumeBay (s : State) (b : Nat) : State :=
  let s1 := (s.setBay b { s.bay b with lulled := false }).applyStaged (Reg.SW_RING_CFG b)
  let s2 := s1.drainClosing b (s1.batcher b).waiting.length
  let s3 := (s2.streams.filter fun e => s2.bayOfSid e.1 = some b).foldl (fun (s : State) e => s.tryPost e.1) s2
  let s4 := (s3.seqs.filter fun e => s3.bayOfSeq e.1 = some b).foldl (fun (s : State) e => s.seqTry e.1) s3
  (s4.bayCores b).foldl (fun (s : State) n => s.grantAll n) s4

/-- A reason for lull ends; with none left, the bay resumes. -/
def State.liftLull (s : State) (b : Nat) (f : Bay → Bay) : State :=
  let s1 := s.setBay b (f (s.bay b))
  if (s1.bay b).lullWanted || !(s.bay b).lullWanted then s1 else s1.resumeBay b

/-- LC work that the bay still has to end (R43 step 2): an instance that is dispatched, or whose inputs are published, a closed batch that waits, or a handle at the head of an LC triggered
template's consume queue 0. -/
def State.lcWork (s : State) (b : Nat) : Bool :=
  let ts := s.templates b
  (s.insts.any fun e => e.2.bay = b && !e.2.desc.be && (e.2.state ≠ .ready || s.inputsPublished e.2)) ||
    ((s.batcher b).waiting.any fun x => !x.rows.isEmpty && !(s.classOf b x.graph).be) ||
    (List.range ts.length).any fun i =>
      triggered ts i && match ts[i]? with
        | some t => !(parseSheaf t).be && !(s.queue (parseSheaf t).consume0).entries.isEmpty
        | none => false

/-- A BE instance of the bay still holds a stall slot, or is being saved or restored (R43 step 3). -/
def State.beOnCore (s : State) (b : Nat) : Bool :=
  s.insts.any fun e => e.2.bay = b && e.2.desc.be &&
    (e.2.state = .resident || e.2.state = .blocked || e.2.state = .saving || e.2.state = .restoring)

/-- A header of the bay's streams and sequences is due (R43 step 4): a state store in flight has not completed. -/
def State.storeDue (s : State) (b : Nat) : Bool :=
  let due := fun (f : Option InFlight) => (f.map fun x => decide (x.stage ≠ .running)).getD false
  (s.streams.any fun e => due e.2.inflight && s.bayOfSid e.1 = some b) ||
    s.seqs.any fun e => due e.2.inflight && s.bayOfSeq e.1 = some b

/-- A bay reports lull, once its LC work has ended, its BE work is saved and its stores are complete (R43). -/
def State.reachLull (s : State) (b : Nat) : State :=
  let y := s.bay b
  if !y.lullWanted || y.lulled || (s.bayDef b).isNone then s
  else
    let s1 := s.enterLull b
    if s1.lcWork b || s1.beOnCore b || s1.storeDue b then s1 else s1.setBay b { s1.bay b with lulled := true }

/-! ### Queues and contexts under new tables (09 R416; 06 R161) -/

/-- Empty a queue: its handles and waiting runs go, and their buffers return to the pools of the bay that held them. -/
def State.emptyQueue (s : State) (b q : Nat) : State :=
  let x := s.queue q
  let all := x.entries ++ x.runs.flatMap id
  all.foldl (fun (s : State) e => s.returnBuffer b e.handle.pool e.handle.buffer) (s.setQueue q { x with entries := [], runs := [] })

/-- The queues of a bay as new tables leave them: `owner` gives the bay of each queue before. -/
def State.settleQueues (s : State) (owner : Nat → Option Nat) (b : Nat) : State :=
  (s.queues.filter fun e => owner e.1 = some b).foldl (fun (s : State) e =>
    if ((s.queueDef e.1).map (·.1)) = some b then s.drainRuns e.1 else s.emptyQueue b e.1) s

/-- A context whose graph has gone moves to IDLE: a row of it that waits in a batch is withdrawn, and one that a saved instance carries is finished, its
slot free with its chain (06 R161). -/
def State.endContext (s : State) (b : Nat) (seq : Bool) (i : Nat) : State :=
  ((s.withdrawRow b seq i).getD (s.abandonRow b seq i)).goIdle seq i

/-- A context whose graph its bay no longer has moves to IDLE (06 R161, 08 R190). -/
def State.settleStream (s : State) (sid : Nat) : State :=
  if (s.stream sid).state = .idle then s
  else
    match s.bayOfSid sid with
    | some b => if s.graphOk b (s.ctxGraph false sid) then s.setReg (Reg.SC_DELAY_BOUND sid) (s.delayBound b sid) else s.endContext b false sid
    | none => s.goIdle false sid

def State.settleSeq (s : State) (q : Nat) : State :=
  if (s.seqCtx q).state = .idle then s
  else
    match s.bayOfSeq q with
    | some b =>
      if s.graphOk b (s.ctxGraph true q) then
        s.setReg (Reg.SQ_DELAY_BOUND q)
          (if (s.seqCtx q).be then 0xFFFFFFFF#32 else w32 (((s.bayDef b).map (·.lcBound)).getD 0))
      else s.endContext b true q
    | none => s.goIdle true q

/-! ### The initial mapping of a new bay (16 R388) -/

/-- A pointer entry (03 R61) to a table in the Silo. -/
def pointerEntry (table : Nat) : W64 := BitVec.ofNat 64 (3 + 8 + 7 * 32 + table / 4096 * 4096)

/-- A leaf entry of a 64 KiB Silo page: present, writable, SETTLED, generation and tag zero. -/
def firstLeaf (granule : Nat) : W64 := BitVec.ofNat 64 (3 + 8 + granule * 65536)

/-- The table window: the first WINDOWS entry in the Silo that is writable, host-visible and not sheaf-visible. -/
def State.tableWindow (s : State) (b : Nat) : Option Window :=
  (s.windows b).find? fun w => w.tier = 1 && w.writable && w.hostVisible && !w.sheafVisible

/-- Build the first tables of a bay that a commit has newly defined. -/
def State.firstMapping (s : State) (b : Nat) : State :=
  match s.bayDef b, s.tableWindow b with
  | some d, some w =>
    let g := d.root / 65536
    if regionOf d.root ≠ some 1 || s.owner g ≠ ownerFree || s.quota b 1 = 0 then s
    else
      let table := fun (i : Nat) => g * 65536 + (d.root / 4096 % 16 + i) % 16 * 4096
      let put := fun (s : State) (level : Nat) (e : W64) => s.physWrite64 (table level + vaIndex w.base level * 8) e
      let s1 := (s.setOwner g b).physClear (g * 65536) 65536
      let s2 := [0, 1, 2, 3].foldl (fun (s : State) l => put s l (pointerEntry (table (l + 1)))) s1
      put s2 4 (firstLeaf g)
  | _, _ => s

/-! ### Sub-rings (15 R357) -/

/-- The sub-rings of a telemetry layout, in its order. -/
def ringLayout : List TelRes → Nat → List (Nat × Nat × Nat × Nat)
  | [], _ => []
  | t :: rest, off => (t.ring, off, t.mib * 2 ^ 20, t.share) :: ringLayout rest (off + t.mib * 2 ^ 20)

/-- A sub-ring under a layout: one that keeps its place and size keeps its records; another starts empty and CALM, with what was not
acknowledged counted as lost. -/
def placeRing (old : Option SubRing) (off size share : Nat) (now : W64) : SubRing :=
  match old with
  | some x =>
    if x.offset = off && x.size = size then { x with share := share, level := .calm, k := 1, below := 0 }
    else
      { SubRing.laid off size share with
        seq := x.seq, acked := x.seq, sent := x.seq, gap := { x.gap with lost := x.gap.lost + x.unacked.length }, gapStart := now }
  | none => SubRing.laid off size share

/-- The telemetry layout of the applied global slot. -/
def State.layRings (s : State) : State :=
  let l := telResFull ((sectionEntries ((s.applied 16).getD []) 0x102 16).map parseTelRes)
  let rings := (ringLayout l 0).foldl (fun (m : AMap SubRing) e =>
    AMap.set m e.1 (placeRing (AMap.get? s.tel.rings e.1) e.2.1 e.2.2.1 e.2.2.2 s.lic)) []
  { s with tel := { s.tel with rings := rings, summaries := s.tel.summaries.filter fun e => (AMap.get? rings e.ring).isSome } }

/-! ### New tables in the blocks (02 R43) -/

/-- No buffer of a bay's pools is taken any more: their staged configuration applies (09 R236). -/
def State.poolsIdle (s : State) (b : Nat) : State := (List.range 8).foldl (fun (s : State) p => s.poolIdle b p) s

/-- A bay is left undefined: its instances, queues, batches, faults, copy channels and dispatcher state go. -/
def State.dropBay (s : State) (b : Nat) : State :=
  let mine := (s.insts.filter fun e => e.2.bay = b)
  let s1 := mine.foldl (fun (s : State) e => (((s.withdraw e.1).discardEngines e.1).leaveStall e.1 e.2).dropInst e.1) s
  { s1 with
    bays := AMap.erase s1.bays b, batchers := AMap.erase s1.batchers b
    trans := { s1.trans with faults := s1.trans.faults.filter fun f => f.bay ≠ b, held := s1.trans.held.filter fun h => h.bay ≠ b } }.gleanRequests
      (fun r => (List.range 4).any fun c => r.ofChannel b c) none

/-- A saved context on a core that has left its bay is created afresh, and runs on another core. -/
def State.leaveCores (s : State) (b : Nat) : State :=
  let cores := s.bayCores b
  (s.insts.filter fun e => e.2.bay = b && e.2.state = .saved && !cores.contains e.2.core).foldl (fun (s : State) e =>
    match s.inst? e.1 with
    | some x => s.replayInst e.1 x x.faults
    | none => s) s

/-- Cores that belong to no bay are power-gated: they hold nothing (01 R25). -/
def State.gateCores (s : State) : State :=
  let free := (AMap.keys s.cores).filter fun n => (s.coreBay n).isNone
  { s with cores := AMap.mapVals (fun n c =>
      if free.contains n then
        { Core.reset with faultFenced := c.faultFenced, moveFenced := c.moveFenced, movePowered := c.movePowered, clockLost := c.clockLost }
      else c) s.cores }

/-- The tables of the slots in `carried` go to the blocks from their active banks, and undefined slots leave them; what belongs to them
follows. -/
def State.applyTables (s : State) (carried : Nat → Bool) : State :=
  let r := s.loader.record
  let old := s.loader.applied
  let owner := fun q => (s.queueDef q).map (·.1)
  let routes := (List.range 6).map fun p => s.routeOf p
  let tables := (List.range 17).foldl (fun (m : AMap SlotCopy) slot =>
    if !bit r.defined slot then AMap.erase m slot
    else if carried slot then AMap.set m slot (AMap.getD (s.loader.bank (bit r.active slot)) slot [])
    else m) old
  let gone := (List.range 16).filter fun b => (AMap.get? old b).isSome && (AMap.get? tables b).isNone
  let bays := (List.range 16).filter fun b => (AMap.get? tables b).isSome && carried b
  let fresh := bays.filter fun b => (AMap.get? old b).isNone
  let s1 : State := { s with loader := { s.loader with applied := tables } }
  let s2 := (gone ++ bays).foldl (fun (s : State) b => s.dropCached b true true 0 0) s1
  let s3 := (gone ++ bays).foldl (fun (s : State) b => s.settleQueues owner b) s2
  let s4 := gone.foldl (fun (s : State) b => s.dropBay b) s3
  let s5 := (AMap.keys s4.streams).foldl (fun (s : State) sid => s.settleStream sid) s4
  let s6 := (AMap.keys s5.seqs).foldl (fun (s : State) q => s.settleSeq q) s5
  let s7 := bays.foldl (fun (s : State) b => s.leaveCores b) s6
  let s8 := (fresh.foldl (fun (s : State) b => s.firstMapping b) s7).gateCores
  if carried 16 then
    ((List.range 6).zip routes).foldl (fun (s : State) x => s.reroute x.1 x.2) s8.layRings
  else s8

end Sys2Proof.Machine
end

