-- ==== Sys2Proof/Machine/Resets.lean ====
section
/-! DEFINITION. What each reset kind leaves (13 R328 to R333, 02 R45, 06 R161, 10 R248, 12 R310, 15 R365). -/

namespace Sys2Proof.Machine

/-! ### Registers (R330) -/

/-- A register that its table gives as a counter or a result, not as configuration. -/
def isCounter (key : Nat) : Bool :=
  match descOf key with
  | some d => d.clears || d.access = .ro || d.access = .rc
  | none => false

/-- Ethernet registers that RESET_N and a chip reset keep (R330; `EB_DEGRADES` is cleared by power-on reset only). -/
def ethKept (key : Nat) : Bool :=
  let a := keyAddr key
  decide (a ≥ 0x00380000) ||
    ([Reg.EB_MAC_LO, Reg.EB_MAC_HI, Reg.EB_IP4, Reg.EB_IP6_OF 0, Reg.EB_IP6_OF 1, Reg.EB_IP6_OF 2, Reg.EB_IP6_OF 3, Reg.EB_VLAN, Reg.EB_BALE_PORT,
      Reg.EB_PORT_CTRL, Reg.EB_TX_DSCP_LO, Reg.EB_TX_DSCP_HI, Reg.EB_PFC, Reg.EB_WEIGHT, Reg.EB_ECN_CFG, Reg.EB_DEGRADES,
      keyAddr (Reg.EB_QB 0)].contains a)

/-- Audio registers that they keep: every staged (RS) field, and the PLL control (R330). -/
def audioKept (key : Nat) : Bool :=
  match descOf key with
  | some d => d.access = .rs || key = Reg.AP_PLL_CTRL
  | none => false

/-- Telemetry registers that they keep (15 R377, and the two counters that power-on reset alone clears). -/
def telKept (key : Nat) : Bool :=
  [Reg.TEL_TRACE_EN, Reg.TEL_TRACE_CODES, Reg.TEL_SQUALL_CFG, Reg.REP_POLICY, Reg.REP_HANDOVERS, Reg.REP_RETIRED].contains key

/-- Core registers that every reset but power-on keeps (R330). -/
def coreRegKept (key : Nat) : Bool :=
  let off := keyAddr key % 0x00100000
  off = 0x3C || off = 0x100 || (decide (0x100 < off) && !isCounter key)

/-- Bay registers that a reset keeps (R330): `contexts` for the kinds that keep the contexts. -/
def bayRegKept (contexts : Bool) (key : Nat) : Bool :=
  let off := (keyAddr key - 0x06000000) % 0x400
  if off < 0x100 then false
  else if off < 0x200 then contexts || off = 0x148
  else !isCounter key

/-- Sequence contexts' registers. -/
def isSeqReg (key : Nat) : Bool := decide (0x05200000 ≤ keyAddr key ∧ keyAddr key < 0x05400000)

/-- A register that RESET_N (`contexts` false) or a chip reset (`contexts` true) keeps (R329, R330). -/
def warmKept (contexts : Bool) (key : Nat) : Bool :=
  match blockOf key with
  | .eth => ethKept key
  | .audio => audioKept key
  | .tel => telKept key
  | .core _ => coreRegKept key
  | .bay _ => bayRegKept contexts key
  | .stream => contexts
  | .tier => contexts || !isSeqReg key
  | .trn => key ≠ Reg.TRN_FQ_HEAD && key ≠ Reg.TRN_FQ_TAIL
  | .hub => true
  | .vane => true
  | .pmc => true
  | .cfg => true
  | .sec => true

/-- Give the registers that a predicate does not keep their Reset values, and drop their latched conditions. -/
def State.keepRegs (s : State) (kept : Nat → Bool) : State :=
  { s with regs := AMap.keep (fun k _ => kept k) s.regs, latches := AMap.keep (fun k _ => kept k) s.latches }

/-! ### Contexts (06 R161, 08 R190) -/

/-- A stream after a reset that keeps the contexts: PAUSED, its chunk in flight to be posted again; a pending ABORT makes it IDLE. -/
def State.restStream (s : State) (sid : Nat) : State :=
  let x := s.stream sid
  if x.state = .idle then s.setStream sid { x with pending := none }
  else if x.pending = some .abort then (s.setStream sid { x with inflight := none, drained := false }).goIdle false sid
  else
    let s1 := s.returnStream sid true
    s1.setStream sid { s1.stream sid with
      state := .paused, pending := none, closed := none, lastOwed := false, absent := false, absentCounted := false, outFull := false
      alignWait := false }

def State.restSeq (s : State) (q : Nat) : State :=
  let x := s.seqCtx q
  if x.state = .idle then s.setSeq q { x with pending := none }
  else if x.pending = some .abort then (s.setSeq q { x with inflight := none, drained := false }).goIdle true q
  else
    let s1 := s.returnSeq q true
    s1.setSeq q { s1.seqCtx q with
      state := .paused, pending := none, absent := false, absentCounted := false, outFull := false }

/-- The batcher of a bay after a reset: nothing open, waiting or running, and no set aligning; shapes stay while contexts use them. -/
def Batcher.afterReset (x : Batcher) : Batcher :=
  { x with openBatches := [], waiting := [], slots := [], sets := AMap.mapVals (fun _ a => { a with offered := [], timing := none, expired := false }) x.sets }

/-- A queue after a reset: empty, its push count kept (09 R416). -/
def HandleQueue.afterReset (x : HandleQueue) : HandleQueue := { x with entries := [], runs := [], high := 0 }

/-! ### The loader (02 R45) -/

/-- The store without what a load has put into inactive banks. -/
def Loader.freeInactive (l : Loader) : Loader :=
  let r := l.record
  (List.range 17).foldl (fun (l : Loader) slot =>
    if bit r.defined slot then l.setBank (!bit r.active slot) slot none
    else (l.setBank false slot none).setBank true slot none) l

/-- A load ends with a code. -/
def Loader.fail (l : Loader) (code sect bay : Nat) : Loader :=
  { l.freeInactive with state := .idle, op := .none, phase := .none, move := none, errCode := code, errSection := sect, errBay := bay }

/-- The loader at a restart (R45): a load that has not committed ends with code 0x11; a copy A half written fails its CRC; copy B, until it is
whole, stays what it was; the valid copy's record governs. DESIGN CHOICE: a high half of the serial floor that is held when a restart comes is
dropped (log 90). -/
def Loader.restart (l : Loader) : Loader :=
  let l1 := { l with floorHi := none }
  match l.state with
  | .receiving => l1.fail 0x11 0 0
  | .verifying => l1.fail 0x11 0 0
  | .staged => l1.fail 0x11 0 0
  | .lulling => l1.fail 0x11 0 0
  | .applying =>
    let l2 := match l.phase with
      | .copyA => { l1 with copyA := l.newRecord.torn }
      | _ => l1
    let l3 := { l2 with record := l2.validRecord }
    { l3.freeInactive with state := .idle, op := .none, phase := .none, move := none }
  | .idle => { l1 with op := .none, phase := .none, move := none }
  | .rejected => { l1 with state := .idle, op := .none, phase := .none, move := none }

/-! ### The end of a load (02 R41, R44, R45) -/

/-- Contexts and crib of a core go over to another core of its die (R47): what was saved there is saved here. -/
def State.carryCore (s : State) (from_ dest : Nat) : State :=
  let c := s.core from_
  let d := s.core dest
  let s1 : State := { s with insts := AMap.mapVals (fun _ x => if x.onCore from_ then { x with core := dest } else x) s.insts }
  (s1.setCore dest { c with faultFenced := d.faultFenced, moveFenced := d.moveFenced, movePowered := d.movePowered, clockLost := d.clockLost }).setCore
    from_ { Core.reset with faultFenced := c.faultFenced, moveFenced := c.moveFenced, clockLost := c.clockLost }

/-- A move is given up: what was carried over goes back, the core is no longer fenced by it, the spare's power goes. -/
def State.dropMove (s : State) : State :=
  match s.loader.move with
  | none => s
  | some m =>
    match s.spareOf (m.core / 9) with
    | none => { s with loader := { s.loader with move := none } }
    | some sp =>
      let s1 := if m.step = .weights && !(s.core m.core).faultFenced then s.carryCore sp m.core else s
      let s2 := s1.setCore m.core { s1.core m.core with moveFenced := false }
      let s3 := s2.setCore sp { s2.core sp with movePowered := false }
      { s3 with loader := { s3.loader with move := none } }

/-- The bays of an operation that ends resume. -/
def State.releaseLulls (s : State) : State :=
  ((List.range 16).filter fun b => (s.bay b).lullLoad).foldl (fun (s : State) b => s.liftLull b fun y => { y with lullLoad := false }) s

/-- A load that has not committed ends with a code: its staged space is freed, a joined move is given up, and the bays that it lulled resume on their
old banks. -/
def State.endLoad (s : State) (code bay : Nat) : State :=
  let stop := fun (s : State) => { s with loader := s.loader.fail code 0 bay }
  match s.loader.state with
  | .staged => stop s.dropMove
  | .lulling => (stop s.dropMove).releaseLulls
  | _ => stop s

/-- A bay is in a load that has not committed (R45). -/
def State.inLoad (s : State) (b : Nat) : Bool :=
  let l := s.loader
  bit l.op.mask b && (l.state = .receiving || l.state = .verifying || l.state = .staged || l.state = .lulling)

/-! ### RESET_N and the chip reset (R329, R331) -/

/-- A bay after a restart: in lull, awaiting RESUME, with nothing in it. -/
def Bay.afterRestart (y : Bay) : Bay :=
  { Bay.empty with lullHost := y.lullHost, lullPolicy := y.lullPolicy, lullReset := y.lullReset, lullRestart := true, lulled := true }

/-- Rows and channels that a repair was draining: firmware resumes the drains after the restart (15 R375). -/
def State.resumedDrains (s : State) : List Repair :=
  let drain := fun (k : RepairKind) (n : Nat) => (⟨k, n, 1, none, 0, [], false, s.lic⟩ : Repair)
  ((List.range 32).filter fun r => bit s.tel.draining r && !bit s.tiers.rowsOffline r).map (drain .siloFence) ++
    ((List.range 8).filter fun g => bit s.tel.channelDraining g && bit s.tiers.channelsOnline g).map (drain .dimmRemove)

/-- Steps 1 to 3 of a warm restart: what the halted islands lose (R329). -/
def State.haltChip (s0 : State) (contexts : Bool) : State :=
  let s := (s0.endMigrations).keepRegs (warmKept contexts)
  let s1 : State := { s with
    insts := [], cores := []
    bays := (s.definedBays).foldl (fun (m : AMap Bay) b => AMap.set m b (s.bay b).afterRestart) []
    batchers := if contexts then AMap.mapVals (fun _ x => x.afterReset) s.batchers else []
    queues := AMap.mapVals (fun _ x => x.afterReset) s.queues
    trans := .reset
    engines := { Engines.reset with seqShapes := if contexts then s.engines.seqShapes else [] }
    guards := [], commitMask := none
    net := { Net.reset with port := { Port.reset with txSas := s.net.port.txSas, rxSas := s.net.port.rxSas } }
    audio := { s.audio with ports := [], groups := [] }
    tiers := { s.tiers with cmdBusy := none, cmdRefused := false, cmdResult := 0 }
    sec := { s.sec with sessions := [], openings := [], staging := none, verified := false }
    loader := s.loader.restart
    tel := { s.tel with
      summaries := [], replays := [], running := none, waiting := s.resumedDrains, moveAsked := [], cribErrors := [], cribHour := s.lic, lastKind := 0, lastStep := 0, lastTarget := 0, lastResult := 0
      cps := Tel.bootRoles
      rings := AMap.mapVals (fun _ x =>
        { x with level := .calm, k := 1, below := 0, gap := .zero, gapStart := s.lic, turns := [], credit := 0, sent := x.seq, acked := x.seq }) s.tel.rings } }
  let s1 := (AMap.keys s1.bays).foldl (fun (s : State) b => s.poolsIdle b) s1
  if contexts then
    let s2 := (AMap.keys s1.streams).foldl (fun (s : State) i => s.restStream i) s1
    (AMap.keys s2.seqs).foldl (fun (s : State) q => s.restSeq q) s2
  else { s1 with streams := [], seqs := [] }

/-- Step 4: the boot ROM tries the slots (14 R337), and the restart goes on, or is held for want of an acceptable one. -/
def State.bootAgain (s : State) : State :=
  let sec := boot s.sec
  { s with sec := sec, power := { s.power with phase := if sec.running = none then .noFirmware else .restart } }

/-! ### What a reset leaves of the safe state (13 R318) -/

/-- A cause of the safe state is a sensor's: it clears with the reading. Any other has passed at once. -/
def sensorCause (code : Nat) : Bool := [0x01, 0x02, 0x04, 0x05].contains code

/-- A sensor cause still holds: a temperature counts as clear 20 °C below its trip. -/
def State.causeHolds (s : State) (code : Nat) : Bool :=
  match code with
  | 0x01 => s.pmc.junction.any fun e => decide (e.2 + 20 > (s.reg Reg.VANE_TRIP_JUNCTION).toNat)
  | 0x02 => s.pmc.loft.any fun e => decide (e.2 + 20 > (s.reg Reg.VANE_TRIP_LOFT).toNat)
  | 0x04 => decide (s.pmc.vin < (s.reg Reg.VANE_TRIP_VIN_LO).toNat)
  | 0x05 => decide (s.pmc.vin > (s.reg Reg.VANE_TRIP_VIN_HI).toNat)
  | _ => false

/-- The causes that still hold, with which the safe state is entered again after a reset has ended it. -/
def State.causesLeft (s : State) : List SafeCause :=
  (s.vane.causes.filter fun c => s.causeHolds c.code).map fun c => { c with cleared := none }

/-- A warm restart with its cause (`VANE_RESET_CAUSE`): RESET_N and glitch resets give the contexts their Reset values, chip resets keep
them. With RESET_N held, it stays at step 3. -/
def State.warmRestart (s : State) (contexts : Bool) (cause : Nat) (strength : Nat) : State :=
  let s1 := ((s.haltChip contexts).setReg Reg.VANE_RESET_CAUSE (w32 cause)).setReg Reg.VANE_RESETS (s.reg Reg.VANE_RESETS + 1)
  let left := s1.causesLeft
  let s2 : State := { s1 with vane := { s1.vane with safe := !left.isEmpty, leavePending := false, causes := left, underWay := strength } }
  if s2.power.resetN then s2.bootAgain else { s2 with power := { s2.power with phase := .restartHeld } }

/-! ### Bay and core reset (R329, R332) -/

/-- An instance of a bay under reset is gone: its faults are withdrawn, its engine work discarded. -/
def State.removeInst (s : State) (i : Nat) (x : Inst) : State := (((s.withdraw i).discardEngines i).leaveStall i x).dropInst i

/-- A translation fault, a held write or a held access belongs to a bay's own requesters. -/
def State.withdrawBay (s : State) (b : Nat) : State :=
  { s with trans := { s.trans with faults := s.trans.faults.filter fun f => f.bay ≠ b, held := s.trans.held.filter fun h => h.bay ≠ b } }

/-- A core reset in place: its stalls and ring buffer are empty, its fence as it was. -/
def Core.inPlace (c : Core) : Core :=
  { Core.reset with faultFenced := c.faultFenced, moveFenced := c.moveFenced, movePowered := c.movePowered, clockLost := c.clockLost }

/-- A bay reset (R332): its instances are gleaned, its queues, pools, batches and ready lists emptied, its cores reset in place, its
translations invalidated, its contexts paused; it stands in lull with its `CFG_LULL_REQ` bit set. A load of the bay ends (02 R45). -/
def State.bayReset (s : State) (b : Nat) : State :=
  let cores := s.bayCores b
  let keep := fun key => match blockOf key with
    | .bay c => c.val ≠ b || bayRegKept true key
    | .core n => !cores.contains n.val || coreRegKept key
    | _ => true
  let s1 := (s.insts.filter fun e => e.2.bay = b).foldl (fun (s : State) e => s.removeInst e.1 e.2) s
  let s2 := ((s1.keepRegs keep).withdrawBay b).dropCached b true true 0 0
  let mine := fun q => ((s2.queueDef q).map fun d => decide (d.1 = b)).getD false
  let s3 : State := { s2 with
    queues := AMap.mapVals (fun q x => if mine q then x.afterReset else x) s2.queues
    batchers := AMap.mapVals (fun c x => if c = b then x.afterReset else x) s2.batchers
    cores := AMap.mapVals (fun n c => if cores.contains n then c.inPlace else c) s2.cores }
  let y := s3.bay b
  let s4 := (s3.gleanRequests (fun r => (List.range 4).any fun c => r.ofChannel b c) none).setBay b { Bay.empty with
    gleanSerial := y.gleanSerial
    lullHost := true, lullLoad := y.lullLoad && s3.loader.state = .applying, lullRestart := y.lullRestart, lullSafe := y.lullSafe
    lullPolicy := y.lullPolicy, lulled := true }
  let s5 := (s4.streams.filter fun e => s4.bayOfSid e.1 = some b).foldl (fun (s : State) e => s.restStream e.1) s4
  let s6 := (s5.seqs.filter fun e => s5.bayOfSeq e.1 = some b).foldl (fun (s : State) e => s.restSeq e.1) s5
  let s7 := ((s6.net.conns.filter fun e => s6.connBay e.1 = b).foldl (fun (s : State) e => s.startError e.1 5) s6).poolsIdle b
  if s7.inLoad b then s7.endLoad 0x11 b else s7

/-- A core reset (R329): a core fault of cause RESET, the core's own registers at their Reset values, and its micro-cache empty. -/
def State.coreReset (s : State) (n : Nat) : State :=
  let s1 := s.keepRegs fun key => match blockOf key with | .core m => m.val ≠ n || coreRegKept key | _ => true
  let s2 : State := { s1 with trans := { s1.trans with leafCaches := AMap.erase s1.trans.leafCaches (8 + n) } }
  s2.coreFaulted n .reset

end Sys2Proof.Machine
end

