-- ==== Sys2Proof/Machine/Vane.lean ====
section
/-! DEFINITION. Vane: alarms, actions, the safe state, the mailbox and resets (13 R311 to R319, R328 to R333; 15 R356 to R361, R367,
R368). -/

namespace Sys2Proof.Machine

/-! ### The alarm table (15 R360) -/

/-- Alarms of severity B or C, whose unacknowledged entries drive ALARM_N (R317, R319). -/
def alarmSevere (code : Nat) : Bool := !([0x08, 0x09, 0x0B, 0x0C].contains code)

/-- Default action of an alarm (R317); a rail of a core island takes a core reset. -/
def defaultAction (code unit : Nat) : Nat :=
  match code with
  | 0x01 => 6 | 0x02 => 6 | 0x03 => 7 | 0x04 => 6 | 0x05 => 6 | 0x06 => 7
  | 0x07 => if unit = telNone then 4 else 3
  | 0x09 => 2 | 0x0A => 1 | 0x0D => 4 | 0x0E => 5
  | _ => 0

/-- The action of an alarm: its default, or what SET_ACTION raised it to. -/
def State.actionOf (s : State) (code unit : Nat) : Nat := max (defaultAction code unit) (AMap.getD s.vane.actions code 0)

/-- Start-up has not passed step 5, so that Vane runs its ROM program (14 R337, 16 R378 to R380). A warm restart that finds no acceptable slot
leaves Vane on the section that it loaded at power-on. -/
def State.romRuns (s : State) : Bool :=
  s.power.phase = .startUpHeld || s.power.phase = .cardTest || (s.power.phase = .noFirmware && s.vane.underWay = 0)

/-- Drive ALARM_N (R319): low, written false, in the safe state, while an alarm of severity B or C is not acknowledged, while the
microcontroller does not run, before step 5 of start-up, and while no firmware slot is acceptable (14 R337). -/
def State.driveAlarmN (s : State) : State :=
  let hot := s.vane.safe || !s.vane.running || s.romRuns || s.power.phase = .noFirmware || s.vane.alarms.any fun e => alarmSevere e.2.code && !e.2.acked
  { s with vane := { s.vane with alarmN := !hot } }

/-- Enter an alarm in the table: the unacknowledged general entry of its code and unit, a free general entry, or its code's reserved
entry. -/
def State.enterAlarm (s : State) (code unit action : Nat) : State :=
  let put := fun (s : State) (i : Nat) (e : AlarmEntry) => { s with vane := { s.vane with alarms := AMap.set s.vane.alarms i e } }
  let bump := fun (e : AlarmEntry) =>
    { e with count := min (e.count + 1) 0xFFFFFFFF, latest := s.lic, action := action, acked := false, mark := true }
  match s.vane.alarms.find? fun e => decide (16 ≤ e.1) && e.2.code = code && e.2.unit = unit && !e.2.acked with
  | some (i, e) => put s i (bump e)
  | none =>
    let fresh : AlarmEntry := ⟨code, unit, 1, s.lic, s.lic, action, false, false, true⟩
    match (List.range 4080).find? fun k => (AMap.get? s.vane.alarms (16 + k)).isNone with
    | some k => put s (16 + k) fresh
    | none =>
      let e := match AMap.get? s.vane.alarms code with
        | some e => { bump e with shared := true }
        | none => { fresh with shared := true }
      (put s code e).countWrap Reg.TEL_ALARM_SHARED 1

/-- Latch an alarm: the table, the counters and ALARM_N. -/
def State.latchAlarm (s : State) (code unit : Nat) : State :=
  let action := s.actionOf code unit
  let s1 := (s.enterAlarm code unit action).setReg Reg.VANE_LAST_ALARM (w32 (code + action * 256))
  ({ s1 with vane := { s1.vane with alarmCount := s1.vane.alarmCount + 1 } }).driveAlarmN

/-! ### Strength of what is under way (R328) -/

/-- The strength of the reset under way: 5 power-on, 4 RESET_N, 3 chip, 0 none. -/
def State.resetUnderWay (s : State) : Nat :=
  match s.power.phase with
  | .service => 0
  | .restart => s.vane.underWay
  | .restartHeld => 4
  | _ => 5

/-! ### The safe state (R318) -/

/-- Every bay is held in lull by a reason. -/
def State.holdBays (s : State) (f : Bay → Bay) : State :=
  { s with bays := s.definedBays.foldl (fun (m : AMap Bay) b => AMap.set m b { f (s.bay b) with lulled := true }) s.bays }

/-- Enter the safe state for a cause. -/
def State.enterSafe (s : State) (code : Nat) : State :=
  let cause : SafeCause := ⟨code, if sensorCause code then none else some s.lic⟩
  let s1 : State := { s with vane := { s.vane with safe := true, causes := (s.vane.causes.filter fun c => c.code ≠ code) ++ [cause] } }
  (s1.holdBays fun y => { y with lullSafe := true }).driveAlarmN

/-- Bring the causes of the safe state in line with the sensors. -/
def State.reviewCauses (s : State) : State :=
  let look := fun (c : SafeCause) =>
    if !sensorCause c.code then c
    else if s.causeHolds c.code then { c with cleared := none }
    else if c.cleared.isSome then c
    else { c with cleared := some s.lic }
  { s with vane := { s.vane with causes := s.vane.causes.map look } }

/-- Every cause has been clear for 10 s. -/
def State.causesClear (s : State) : Bool :=
  s.vane.causes.all fun c => match c.cleared with | some t => decide (s.since t ≥ periodsOfMicros 10000000) | none => false

/-! ### Control processors (15 R367, R368) -/

def State.cp (s : State) (p : Nat) : ControlProc := AMap.getD s.tel.cps p ⟨.booting, none, []⟩
def State.setCp (s : State) (p : Nat) (x : ControlProc) : State := { s with tel := { s.tel with cps := AMap.set s.tel.cps p x } }

/-- The processor that stands by. -/
def State.standby (s : State) : Option Nat := (s.tel.cps.find? fun e => e.2.state = .standby).map (·.1)

/-- Vane resets a processor: the standby takes its role; the processor boots, or is held once its watchdog has expired three times
within 24 h. A firmware handover under way reverses (R369). -/
def State.cpReset (s : State) (p : Nat) : State :=
  let x := s.cp p
  let recent := x.expiries.filter fun t => decide (s.since t < periodsOfMicros 86400000000)
  let held := decide (recent.length ≥ 3)
  let s0 : State := { s with tel := { s.tel with running := s.tel.running.map fun y =>
      if y.kind = .fwHandover then { y with reverse := true, moved := y.moved.filter (· ≠ p) } else y } }
  let s1 := s0.setCp p { x with state := if held then .held else .booting, role := none, expiries := recent }
  match x.role, s1.standby with
  | some r, some q =>
    let s2 := (s1.setCp q { s1.cp q with state := .active, role := some r }).countSat Reg.REP_HANDOVERS 16 0 1
    (s2.log 0xFF 0x0009 (telUnit 5 p) (w32 r) q).repairShown .cpHandover q 1 0
  | _, _ => s1

/-! ### Actions (R317, R333) -/

/-- Loss of input, or the PMC's removal of every rail: flash alone is left (R322). -/
def State.losePower (s : State) : State :=
  let off := State.powerUp (flashOnly s.sec) s.power.address s.power.records (s.power.erasePending || s.sec.erasing) s.power.straps false s.power.refclk
    s.pending s.free s.fuses
  { off with
    vane := { Vane.reset with running := false }
    tiers := { off.tiers with dimms := s.tiers.dimms, dimmIds := s.tiers.dimmIds }
    power := { off.power with phase := .unpowered, resetN := s.power.resetN, erasePending := s.power.erasePending || s.sec.erasing } }

/-- BAY_REAPPLY (R317): the named slot's tables are loaded again from its active bank; a bay passes through lull for it. When the sweep
still differs after that, the bay goes to lull and stays there. -/
def State.bayReapply (s : State) (slot : Nat) : State :=
  if slot ≥ 16 then s.applyTables fun k => k = 16
  else if (s.bay slot).lullPolicy then s
  else
    let again := decide (s.vane.reapplied = some slot)
    let s1 : State := { s with vane := { s.vane with
        reapplied := some slot, stay := if again then s.vane.stay ||| (1#16 <<< slot) else s.vane.stay } }
    s1.askLull slot fun y => { y with lullPolicy := true }

/-- A bay that BAY_REAPPLY has brought to lull takes its tables again and resumes, unless it is to stay (R317). -/
def State.reapplyAtLull (s : State) (b : Nat) : State :=
  if !(s.bay b).lullPolicy || !(s.bay b).lulled || bit s.vane.stay b then s
  else (s.applyTables fun k => k = b).liftLull b fun y => { y with lullPolicy := false }

/-- The core that a unit names, the slot that the monitor named, and the processor. -/
def unitIndex (cls unit : Nat) : Option Nat := if unit ≠ telNone && unit / 0x1000 = cls then some (unit % 0x1000) else none

/-- Perform an action for an alarm code and unit. -/
def State.perform (s : State) (action code unit : Nat) : State :=
  match action with
  | 1 => if code = 0x0A then s.bayReapply s.loader.crcSlot else s
  | 2 => match unitIndex 5 unit with | some p => s.cpReset p | none => s
  | 3 => match unitIndex 0 unit with | some n => s.coreReset n | none => s
  | 4 => s.warmRestart true (4 + code * 256) 3
  | 5 => s.warmRestart false 3 4
  | 6 => s.enterSafe code
  | 7 => s.losePower
  | _ => s

/-- Before step 5 of start-up the ROM acts on temperature and input trips by SHUTDOWN, and leaves other alarms latched (16 R390). -/
def romAction (code : Nat) : Nat := if [0x01, 0x02, 0x03, 0x06].contains code then 7 else 0

/-- An action for an alarm as the moment allows (R318, R333, 16 R390): at once; or deferred to the end of the restart or of the safe
state. Until Vane's section starts, an action that its ROM does not take waits for that. A reset that is not stronger than the one under way
is discarded (R328). -/
def State.act (s : State) (action code unit : Nat) : State :=
  let defer := { s with vane := { s.vane with deferred := s.vane.deferred ++ [⟨action, code, unit⟩] } }
  if s.power.phase = .unpowered then s
  else if s.romRuns && romAction code ≠ 0 then s.perform (romAction code) code unit
  else if action = 0 then s
  else if s.romRuns then defer
  else if s.power.phase = .service then if s.vane.safe && action ≤ 4 then defer else s.perform action code unit
  else if action ≥ 6 then s.perform action code unit
  else if action = 5 && s.resetUnderWay < 4 then s.perform 5 code unit
  else defer

/-- An alarm: latched, then acted on (R317). Without power there is no Vane (R322). -/
def State.alarm (s : State) (code unit : Nat) : State :=
  if s.power.phase = .unpowered then s else (s.latchAlarm code unit).act (s.actionOf code unit) code unit

/-- Actions deferred until now are performed in order (R318, R333). -/
def State.actDeferred (s : State) : State :=
  let l := s.vane.deferred
  l.foldl (fun (s : State) d => s.act d.action d.code d.source) { s with vane := { s.vane with deferred := [] } }

/-! ### The mailbox (R313 to R315) -/

/-- Results of a request. -/
def mboxDone : Nat := 0
def mboxPolicy : Nat := 1
def mboxBadOp : Nat := 2
def mboxSuperseded : Nat := 4
def mboxCause : Nat := 5

/-- A word of an in-box slot is written. -/
def State.setInbox (s : State) (k : Nat) (v : Word) : State :=
  { s with vane := { s.vane with inbox := AMap.set s.vane.inbox k v } }

/-- Vane evaluates the request of a slot and writes its response. -/
def State.mailboxEval (s : State) (slot : Nat) (seq : Word) (op : Nat) (body : State → State × Nat) : State :=
  let (s1, result) := if s.resetUnderWay ≥ 3 then (s, mboxSuperseded) else body s
  s1.setReg (Reg.VANE_MBOX_RESP_OF slot) (w32 (result + op * 256 + seq.toNat % 65536 * 65536))

/-- A request stands in a slot: a changed sequence word starts its evaluation, and its response is written. -/
def State.mailbox (s : State) (slot : Fin 5) (seq : Word) (op target : Nat) (arg : Word) (body : State → State × Nat) : State :=
  let at0 := slot.val * 16
  if AMap.getD s.vane.inbox at0 0 = seq || !s.vane.running then s
  else
    (((s.setInbox at0 seq).setInbox (at0 + 1) (w32 (op + target * 65536))).setInbox (at0 + 2) arg).mailboxEval slot.val seq op body

/-- KICK restarts the watchdog of the slot's processor: the running time of 100 ms begins anew. Slot 4 is no processor's. -/
def State.kickOp (s : State) (slot : Nat) : State × Nat :=
  if slot = 4 then (s, mboxBadOp)
  else ({ s with vane := { s.vane with expiredAt := AMap.erase s.vane.expiredAt slot } }, mboxDone)

/-- KICK (R316). -/
def execKick (slot : Fin 5) (seq : Word) (s : State) : Host.Outcome State Fault Refusal :=
  s.done (s.mailbox slot seq 1 0 0 fun s => s.kickOp slot.val)

/-- Acknowledge every latched alarm of a code. -/
def State.ackAlarms (s : State) (code : Nat) : State :=
  ({ s with vane := { s.vane with alarms := AMap.mapVals (fun _ (e : AlarmEntry) =>
      if e.code = code && !e.acked then { e with acked := true, mark := true } else e) s.vane.alarms } }).driveAlarmN

def State.ackOp (s : State) (code : Nat) : State × Nat :=
  if code = 0 || code > 0x0E then (s, mboxBadOp) else (s.ackAlarms code, mboxDone)

/-- ACK_ALARM (R314). -/
def execAckAlarm (slot : Fin 5) (seq : Word) (code : BitVec 16) (s : State) : Host.Outcome State Fault Refusal :=
  s.done (s.mailbox slot seq 2 code.toNat 0 fun s => s.ackOp code.toNat)

/-- The register of a trip or limit, and whether a value is stricter than another for it (R314). -/
def tripReg (trip : Nat) : Option Nat :=
  match trip with
  | 0 => some Reg.VANE_TRIP_JUNCTION | 1 => some Reg.VANE_TRIP_LOFT | 2 => some Reg.VANE_TRIP_VIN_LO | 3 => some Reg.VANE_TRIP_VIN_HI
  | 4 => some Reg.VANE_LIMIT_JUNCTION | 5 => some Reg.VANE_LIMIT_LOFT
  | _ => none

def stricter (trip value old : Nat) : Bool := if trip = 2 then decide (value > old) else decide (value < old)

/-- A trip or limit is set only to a stricter value. -/
def State.setTripOp (s : State) (trip value : Nat) : State × Nat :=
  match tripReg trip with
  | none => (s, mboxBadOp)
  | some r => if stricter trip value (s.reg r).toNat then (s.setReg r (w32 value), mboxDone) else (s, mboxPolicy)

/-- SET_TRIP (R314). -/
def execSetTrip (slot : Fin 5) (seq : Word) (trip : Byte) (value : BitVec 16) (s : State) : Host.Outcome State Fault Refusal :=
  s.done (s.mailbox slot seq 4 0 (w32 (trip.toNat + value.toNat * 65536)) fun s => s.setTripOp trip.toNat value.toNat)

/-- The action of an alarm code is set only to a more severe one. -/
def State.setActionOp (s : State) (code action : Nat) : State × Nat :=
  if code = 0 || code > 0x0E || action > 7 then (s, mboxBadOp)
  else if action ≤ s.actionOf code telNone then (s, mboxPolicy)
  else ({ s with vane := { s.vane with actions := AMap.set s.vane.actions code action } }, mboxDone)

/-- SET_ACTION (R314). -/
def execSetAction (slot : Fin 5) (seq : Word) (code : BitVec 16) (action : Byte) (s : State) : Host.Outcome State Fault Refusal :=
  s.done (s.mailbox slot seq 5 code.toNat (w32 action.toNat) fun s => s.setActionOp code.toNat action.toNat)

/-- `VANE_RESET_CAUSE` of a chip reset that a slot asked for. -/
def mboxCauseCode (slot : Nat) : Nat := if slot = 4 then 6 else 5

/-- The safe state is left by a chip reset once every cause has been clear for 10 s. -/
def State.leaveSafeOp (s : State) (slot : Nat) : State × Nat :=
  if !s.vane.safe then (s, mboxPolicy)
  else if !s.reviewCauses.causesClear then (s.reviewCauses, mboxCause)
  else
    let s1 := s.warmRestart true (mboxCauseCode slot) 3
    (({ s1 with vane := { s1.vane with leavePending := true } }).driveAlarmN, mboxDone)

/-- LEAVE_SAFE (R318). -/
def execLeaveSafe (slot : Fin 5) (seq : Word) (s : State) : Host.Outcome State Fault Refusal :=
  s.done (s.mailbox slot seq 6 0 0 fun s => s.leaveSafeOp slot.val)

/-! ### Resets by request and by policy (R314, R315, R328) -/

/-- A chip restart ended less than 10 s ago. -/
def State.restartRecent (s : State) : Bool :=
  match s.vane.lastRestart with | some t => decide (s.since t < periodsOfMicros 10000000) | none => false

/-- A slot asks for a chip reset. -/
def State.chipOp (s : State) (slot : Nat) : State × Nat :=
  if s.restartRecent || s.vane.safe then (s, mboxPolicy) else (s.warmRestart true (mboxCauseCode slot) 3, mboxDone)

/-- A slot asks for the reset of a bay, of a core. -/
def State.bayResetOp (s : State) (bay : Nat) : State × Nat :=
  if bay > 15 then (s, mboxBadOp)
  else if (s.bayDef bay).isNone || s.vane.safe then (s, mboxPolicy)
  else (s.bayReset bay, mboxDone)

def State.coreResetOp (s : State) (core : Nat) : State × Nat :=
  if core > 35 then (s, mboxBadOp)
  else if (s.coreBay core).isNone || s.vane.safe then (s, mboxPolicy)
  else (s.coreReset core, mboxDone)

/-- CHIP_RESET (R331): asked for by a slot, or by Vane for its latest alarm. In the safe state a request is refused by policy, and an
action waits (R318). -/
def execChipReset (slot : Option (Fin 5)) (seq : Word) (s : State) : Host.Outcome State Fault Refusal :=
  s.done (match slot with
    | some k =>
      s.mailbox k seq 3 0 3 fun s => s.chipOp k.val
    | none => s.act 4 (fld (s.reg Reg.VANE_LAST_ALARM) 7 0) telNone)

/-- BAY_RESET (R332). -/
def execBayReset (slot : Fin 5) (seq : Word) (bay : BitVec 16) (s : State) : Host.Outcome State Fault Refusal :=
  s.done (s.mailbox slot seq 3 bay.toNat 2 fun s => s.bayResetOp bay.toNat)

/-- CORE_RESET (R329): asked for by a slot, or a Vane action, which names its core. -/
def execCoreReset (slot : Option (Fin 5)) (seq : Word) (core : BitVec 16) (s : State) : Host.Outcome State Fault Refusal :=
  s.done (match slot with
    | some k =>
      s.mailbox k seq 3 core.toNat 1 fun s => s.coreResetOp core.toNat
    | none => if core.toNat > 35 then s else s.act 3 (fld (s.reg Reg.VANE_LAST_ALARM) 7 0) (telUnit 0 core.toNat))

/-- The request that a slot's words spell (R313, R314). -/
def State.requestOp (s : State) (slot : Nat) : State × Nat :=
  let word := fun k => AMap.getD s.vane.inbox (slot * 16 + k) 0
  let target := fld (word 1) 31 16
  let arg := word 2
  match fld (word 1) 7 0 with
  | 1 => s.kickOp slot
  | 2 => s.ackOp target
  | 3 =>
    match fld arg 2 0 with
    | 1 => s.coreResetOp target
    | 2 => s.bayResetOp target
    | 3 => s.chipOp slot
    | _ => (s, mboxBadOp)
  | 4 => s.setTripOp (fld arg 7 0) (fld arg 31 16)
  | 5 => s.setActionOp target (fld arg 7 0)
  | 6 => s.leaveSafeOp slot
  | _ => (s, mboxBadOp)

/-- A write of an in-box word by the slot's own source (R313): a changed sequence word starts the evaluation. -/
def State.inboxWrite (s : State) (slot word : Nat) (v : Word) : State :=
  let k := slot * 16 + word
  let s1 := s.setInbox k v
  if word = 0 && AMap.getD s.vane.inbox k 0 ≠ v && s.vane.running then
    s1.mailboxEval slot v (fld (AMap.getD s.vane.inbox (k + 1) 0) 7 0) fun s => s.requestOp slot
  else s1

/-! ### RESET_N and warm restarts (R331, R333, 16 R379) -/

/-- RESET_N is recognised low: start-up is held at step 2, service and restarts at step 3. A device without an acceptable slot stays as it is
until power is removed (14 R337). -/
def State.resetLow (s : State) : State :=
  let s1 : State := { s with power := { s.power with resetN := false } }
  match s.power.phase with
  | .unpowered => s1
  | .noFirmware => s1
  | .service => (s1.warmRestart false 2 4).driveAlarmN
  | .restart => (s1.warmRestart false 2 4).driveAlarmN
  | .restartHeld => s1
  | _ => { s1 with power := { s1.power with phase := .startUpHeld } }

/-- RESET_N_ASSERT (R328). -/
def execResetNAssert (s : State) : Host.Outcome State Fault Refusal := s.done (if s.power.resetN then s.resetLow else s)

/-- Start-up goes on from step 3, with what Vane, the PMC and the counter hold (16 R379); Vane's section acts on what its ROM left (16 R390). -/
def State.startOn (s : State) : State :=
  let t := State.powerUp s.sec s.power.address s.power.records s.power.erasePending s.power.straps true s.power.refclk s.pending s.free s.fuses
  ({ t with
    lic := s.lic, vane := s.vane, pmc := s.pmc, tap := s.tap, tiers := { t.tiers with dimms := s.tiers.dimms, dimmIds := s.tiers.dimmIds }
    regs := AMap.keep (fun k _ => blockOf k = Block.vane || blockOf k = Block.pmc) s.regs }).actDeferred.driveAlarmN

/-- RESET_N is high again. The device stays in reset while an erase runs (14 R352). -/
def State.resetHigh (s : State) : State :=
  let s1 : State := { s with power := { s.power with resetN := true } }
  if s.sec.erasing then s1
  else
    match s.power.phase with
    | .restartHeld => s1.bootAgain
    | .startUpHeld => s1.startOn
    | _ => s1

/-- RESET_N_DEASSERT (R331). -/
def execResetNDeassert (s : State) : Host.Outcome State Fault Refusal := s.done (if s.power.resetN then s else s.resetHigh)

/-- The sequence of the last record that a sub-ring held before a reset. -/
def State.lastSeq (s : State) (r : Nat) : Nat := ((s.ring r).seq - 1).toNat

/-- The processors' watchdogs start as they leave their boot ROM (R316). -/
def State.startWatch (s : State) : State := { s with vane := { s.vane with watchRunning := 0xF, expiredAt := [] } }

/-- Step 5 of R331: the tiers take their stored training values, without verification (16 R381). -/
def State.restoreTiming (s : State) : State :=
  let stored := (List.range 20).filterMap fun u => ((s.power.records[u]?).join).map fun r => (u, r.values)
  { s with power := { s.power with timing := stored.foldl (fun m e => AMap.set m e.1 e.2) s.power.timing } }

/-- Step 8 of R331: the loader has applied the valid commit record, RESUME_WAIT is set, a trial slot is confirmed (14 R338), the RESTART log
is written (15 R365), and deferred actions are performed (R333). A restart without REFCLK waits at step 6 (17 R403). -/
def State.restartEnd (s : State) : State :=
  let s1 := (s.restoreTiming.applyTables fun _ => true).startWatch
  let s2 : State := { s1 with
    sec := confirmTrial s1.sec, power := { s1.power with phase := .service }
    loader := { s1.loader with resumeWait := !s1.definedBays.isEmpty }
    vane := { s1.vane with underWay := 0, lastRestart := some s1.lic, leavePending := false } }
  let s3 := s2.train.log 0xFF 0x000D telNone (s2.reg Reg.VANE_RESET_CAUSE) (s2.lastSeq 16)
  let s4 := if s3.vane.safe then s3.holdBays fun y => { y with lullSafe := true } else s3
  s4.actDeferred.driveAlarmN

/-- WARM_RESTART_COMPLETE (R331). -/
def execWarmRestartComplete (s : State) : Host.Outcome State Fault Refusal :=
  s.done (if s.power.phase = .restart && s.power.refclk then s.restartEnd else s)

/-- REFCLK_RETURN (17 R403): a restart that waits at step 6 can go on. -/
def execRefclkReturn (s : State) : Host.Outcome State Fault Refusal := s.done { s with power := { s.power with refclk := true } }

end Sys2Proof.Machine
end

