-- ==== Sys2Proof/Machine/Power.lean ====
section
/-! DEFINITION. Start-up, loss of power, sensors, and the power and thermal control of the PMC (13 R316, R317, R320 to R327; 16 R378 to
R386). -/

namespace Sys2Proof.Machine

/-! ### Start-up (16 R378 to R386) -/

/-- POWER_ON_RESET (16 R378): everything at its Reset value but flash; the installed DIMMs and the pins are as they are. -/
def State.powerOn (s : State) : State :=
  let t := State.powerUp s.sec s.power.address s.power.records s.power.erasePending s.power.straps s.power.resetN s.power.refclk s.pending s.free s.fuses
  { t with tiers := { t.tiers with dimms := s.tiers.dimms, dimmIds := s.tiers.dimmIds } }

def execPowerOnReset (s : State) : Host.Outcome State Fault Refusal := s.done s.powerOn

/-- The registers whose values the addressing record holds (16 R385), in its order. -/
def addressRegs : List Nat :=
  [Reg.EB_MAC_LO, Reg.EB_MAC_HI, Reg.EB_IP4, Reg.EB_IP6_OF 0, Reg.EB_IP6_OF 1, Reg.EB_IP6_OF 2, Reg.EB_IP6_OF 3, Reg.EB_VLAN,
    Reg.EB_BALE_PORT, Reg.EB_PORT_CTRL]

/-- The link-local IPv6 address of a MAC address, octet 0 first: fe80::/64 and the modified EUI-64 identifier, as the four address
registers hold it, in network order. -/
def linkLocal (mac : BitVec 48) : List Word :=
  let m := mac.toNat
  let hi := (m / 2 ^ 24 ^^^ 0x020000) * 256 + 0xFF
  let lo := 0xFE * 2 ^ 24 + m % 2 ^ 24
  [0xFE800000, 0, w32 hi, w32 lo]

/-- The MAC address that the registers hold. -/
def State.macOf (s : State) : BitVec 48 :=
  BitVec.ofNat 48 ((s.reg Reg.EB_MAC_HI).toNat % 65536 * 2 ^ 32 + (s.reg Reg.EB_MAC_LO).toNat)

/-- Step 8: firmware restores the addressing registers from their record, or from manufacture; an all-zero IPv6 address becomes the
link-local one. -/
def State.restoreAddress (s : State) : State :=
  let s1 :=
    match s.power.address with
    | some l => (addressRegs.zip l).foldl (fun (s : State) e => s.setReg e.1 e.2) s
    | none =>
      (s.setReg Reg.EB_MAC_LO (w32 (Config.macAddress.toNat % 2 ^ 32))).setReg Reg.EB_MAC_HI (w32 (Config.macAddress.toNat / 2 ^ 32))
  if [0, 1, 2, 3].all fun i => s1.reg (Reg.EB_IP6_OF i) = 0 then
    ([0, 1, 2, 3].zip (linkLocal s1.macOf)).foldl (fun (s : State) e => s.setReg (Reg.EB_IP6_OF e.1) e.2) s1
  else s1

/-- A training record whose CRC is right, and that was written against an identity (16 R381). -/
def TrainRecord.fits (r : TrainRecord) (identity : Bytes) : Bool := r.crc = crc32c (r.identity ++ r.values) && r.identity = identity

/-- The record of a full training. -/
def TrainRecord.make (identity values : Bytes) : TrainRecord := ⟨identity, values, crc32c (identity ++ values)⟩

/-- The record from which a unit restores its values, none where it trains in full (16 R381): it has none that fits, BOOTSEL asks for full
training, or the verification pass fails, which a free value says. -/
def State.restores (s : State) (u : Nat) (identity : Bytes) (verifyFails : Bool) : Option TrainRecord :=
  match (s.power.records[u]?).join with
  | some r => if r.fits identity && s.power.straps ≠ 2 && !verifyFails then some r else none
  | none => none

/-- A unit trains (16 R381): the record that its values come from, and whether it is a new one, of a full training. The values that a full training
finds are free. -/
def State.trainWith (s : State) (u : Nat) (identity : Bytes) (full : Bool) : State × TrainRecord × Bool :=
  let (v, s1) := s.draw
  match if full then none else s1.restores u identity (bit v 0) with
  | some r => (s1, r, false)
  | none =>
    let (w, s2) := s1.draw
    (s2, .make identity (leBytes 8 w.toNat), true)

/-- A record is in use, and a new one replaces the unit's in flash. -/
def State.storeRecord (s : State) (u : Nat) (r : TrainRecord) : State :=
  { s with power := { s.power with records := s.power.records.set u (some r), timing := AMap.set s.power.timing u r.values } }

/-- A loft or a stack trains. -/
def State.trainUnit (s : State) (u : Nat) (identity : Bytes) : State :=
  let (s1, r, _) := s.trainWith u identity false
  s1.storeRecord u r

/-- A Granary channel begins to train: a new record is written when its training has completed; a reset before that leaves the previous one. -/
def State.trainChannel (s : State) (g : Nat) (full : Bool) : State :=
  let (s1, r, new) := s.trainWith (12 + g) (AMap.getD s.tiers.dimmIds g []) full
  { s1 with power := { s1.power with
      fresh := if new then AMap.set s1.power.fresh (12 + g) r else AMap.erase s1.power.fresh (12 + g)
      timing := AMap.set s1.power.timing (12 + g) r.values } }

/-- Which units fail their training is the device's: a free value (16 R382). Bits 3 to 0 are the lofts, 35 to 4 the Silo rows, 43 to 36
the Granary channels. A unit that fails keeps its record. -/
def State.trainTiers (s : State) : State :=
  let (v, s1) := s.draw
  let rows := BitVec.ofNat 32 (fld v 35 4)
  let fitted := (List.range 8).filter fun g => decide (AMap.getD s1.tiers.dimms g 0 ≠ 0 ∧ s1.power.straps ≠ 1)
  let good := fitted.filter fun g => !bit v (36 + g)
  let mask := fun (l : List Nat) => l.foldl (fun (m : BitVec 8) g => m ||| (1#8 <<< g)) 0
  let s2 := ((List.range 4).filter fun d => !bit v d).foldl (fun (s : State) d => s.trainUnit d (Config.unitIdentity d)) s1
  let s3 := ((List.range 8).map (4 + ·)).foldl (fun (s : State) u => s.trainUnit u (Config.unitIdentity u)) s2
  let s4 := good.foldl (fun (s : State) g => s.trainChannel g false) s3
  let s5 : State := { s4 with
    tiers := { s4.tiers with loftsFailed := BitVec.ofNat 4 (fld v 3 0), rowsOffline := rows }
    tel := { s4.tel with fenced := rows }
    power := { s4.power with dpen := mask good, training := mask good } }
  let s6 := ((List.range 32).filter fun r => bit rows r).foldl (fun (s : State) r => s.log 0xFF 0x0006 (telUnit 2 r) 0 0) s5
  (fitted.filter fun g => bit v (36 + g)).foldl (fun (s : State) g =>
    s.log 0xFF 0x0007 (telUnit 3 g) (w32 (2 + 6 * 256)) (AMap.getD s.tiers.dimms g 0)) s6

/-- Step 10 (16 R378): tiers trained, addresses restored, the link in training, the processors running, a trial slot confirmed, the
RESTART log written; messages are answered from here on. -/
def State.startupEnd (s : State) : State :=
  let s1 := (s.trainTiers).restoreAddress.startWatch
  let s2 : State := { s1 with sec := confirmTrial s1.sec, power := { s1.power with phase := .service } }
  ((s2.train.log 0xFF 0x000D telNone (s2.reg Reg.VANE_RESET_CAUSE) 0).actDeferred).driveAlarmN

/-- STARTUP_COMPLETE (16 R378). -/
def execStartupComplete (s : State) : Host.Outcome State Fault Refusal :=
  s.done (if s.power.phase = .startUp then s.startupEnd else s)

/-- A Granary channel's training and clearing have completed: it is online (16 R384), and reads zero (16 R383). -/
def State.channelOnline (s : State) (g : Nat) : State :=
  if !bit s.power.training g then s
  else
    let s1 := s.physClear (granaryBase + g * channelStride) channelStride
    let s2 := match AMap.get? s1.power.fresh (12 + g) with | some r => s1.storeRecord (12 + g) r | none => s1
    { s2 with
      tiers := { s2.tiers with channelsOnline := s2.tiers.channelsOnline ||| (1#8 <<< g) }
      power := { s2.power with training := s2.power.training &&& ~~~(1#8 <<< g), fresh := AMap.erase s2.power.fresh (12 + g) } }

/-- ADDRESS_RECORD (16 R385). -/
def execAddressRecord (s : State) : Host.Outcome State Fault Refusal :=
  s.done { s with power := { s.power with address := some (addressRegs.map s.latest) } }

/-- POWER_LOSS (13 R322). -/
def execPowerLoss (s : State) : Host.Outcome State Fault Refusal := s.done s.losePower

/-! ### Sensors and alarms (13 R317) -/

def State.setPmc (s : State) (p : Pmc) : State := { s with pmc := p }

/-- A sensor reading that is at or beyond its trip raises its alarm; any reading bears on the causes of the safe state. -/
def State.senseAlarm (s : State) (beyond : Bool) (code unit : Nat) : State :=
  let s1 := s.reviewCauses
  if beyond then s1.alarm code unit else s1

/-- JUNCTION_TRIP (13 R317). -/
def execJunctionTrip (core : Fin 36) (celsius : Nat) (s : State) : Host.Outcome State Fault Refusal :=
  let s1 := s.setPmc { s.pmc with junction := AMap.set s.pmc.junction core.val celsius }
  s.done (s1.senseAlarm (decide (celsius ≥ (s.reg Reg.VANE_TRIP_JUNCTION).toNat)) 0x01 (telUnit 0 core.val))

/-- LOFT_TRIP (13 R317). -/
def execLoftTrip (die : Fin 4) (celsius : Nat) (s : State) : Host.Outcome State Fault Refusal :=
  let s1 := s.setPmc { s.pmc with loft := AMap.set s.pmc.loft die.val celsius }
  s.done (s1.senseAlarm (decide (celsius ≥ (s.reg Reg.VANE_TRIP_LOFT).toNat)) 0x02 (telUnit 1 die.val))

/-- JUNCTION_CRIT (13 R317): 125 °C or more. -/
def execJunctionCrit (core : Fin 36) (celsius : Nat) (s : State) : Host.Outcome State Fault Refusal :=
  let s1 := s.setPmc { s.pmc with junction := AMap.set s.pmc.junction core.val celsius }
  s.done (s1.senseAlarm (decide (celsius ≥ 125)) 0x03 (telUnit 0 core.val))

/-- VIN_LOW (13 R317). -/
def execVinLow (millivolts : Nat) (s : State) : Host.Outcome State Fault Refusal :=
  let s1 := s.setPmc { s.pmc with vin := millivolts }
  s.done (s1.senseAlarm (decide (millivolts < (s.reg Reg.VANE_TRIP_VIN_LO).toNat)) 0x04 telNone)

/-- VIN_HIGH (13 R317). -/
def execVinHigh (millivolts : Nat) (s : State) : Host.Outcome State Fault Refusal :=
  let s1 := s.setPmc { s.pmc with vin := millivolts }
  s.done (s1.senseAlarm (decide (millivolts > (s.reg Reg.VANE_TRIP_VIN_HI).toNat)) 0x05 telNone)

/-- VIN_CRIT (13 R317): below 34 V or above 55 V. -/
def execVinCrit (millivolts : Nat) (s : State) : Host.Outcome State Fault Refusal :=
  let s1 := s.setPmc { s.pmc with vin := millivolts }
  s.done (s1.senseAlarm (decide (millivolts < 34000 ∨ millivolts > 55000)) 0x06 telNone)

/-- RAIL_FAULT (13 R317): of a core's rail, or of another island's. -/
def execRailFault (core : Option (Fin 36)) (s : State) : Host.Outcome State Fault Refusal :=
  s.done (s.alarm 0x07 (match core with | some n => telUnit 0 n.val | none => telNone))

/-- HUB_CLOCK_LOSS (13 R317, 17 R403). -/
def execHubClockLoss (lost : ClockLost) (s : State) : Host.Outcome State Fault Refusal :=
  let s1 : State := match lost with
    | .refclk => { s with power := { s.power with refclk := false } }
    | .hubIsland => s
  s.done (s1.alarm 0x0D telNone)

/-- GLITCH (14 R351). -/
def execGlitch (s : State) : Host.Outcome State Fault Refusal := s.done ((s.count16 Reg.SEC_GLITCHES).alarm 0x0E telNone)

/-- VANE_WATCHDOG (13 R312): the alarm table, trips and policy stay. -/
def execVaneWatchdog (s : State) : Host.Outcome State Fault Refusal :=
  s.done { s with vane := { s.vane with selfRestarts := min (s.vane.selfRestarts + 1) 0xFFFF } }

/-- PHASE_LOSS (13 R321): with eight working phases or fewer, Vane takes SHUTDOWN. -/
def execPhaseLoss (phase : Fin 11) (s : State) : Host.Outcome State Fault Refusal :=
  let s1 := (s.setPmc { s.pmc with phases := s.pmc.phases ||| (1#11 <<< phase.val) }).alarm 0x08 telNone
  s.done (if s1.phasesFailed ≥ 3 then s1.losePower else s1)

/-- A processor's watchdog expires (13 R316): the alarm, the reset of the processor alone; a chip reset when every running one's has expired
within 100 ms. -/
def State.watchdog (s : State) (p : Nat) : State :=
  if !bit s.vane.watchRunning p then s
  else
    let s0 := s.setCp p { s.cp p with expiries := (s.cp p).expiries ++ [s.lic] }
    let s1 : State := { s0 with vane := { s0.vane with
        watchExpired := s0.vane.watchExpired ||| (1#4 <<< p), expiredAt := AMap.set s0.vane.expiredAt p s0.lic } }
    let running := (List.range 4).filter fun q => bit s1.vane.watchRunning q || (AMap.get? s1.vane.expiredAt q).isSome
    let all := running.all fun q => match AMap.get? s1.vane.expiredAt q with
      | some t => decide (s1.since t < periodsOfMicros 100000)
      | none => false
    let s2 : State := { s1 with vane := { s1.vane with watchRunning := s1.vane.watchRunning &&& ~~~(1#4 <<< p) } }
    let s3 := s2.alarm 0x09 (telUnit 5 p)
    if all then s3.act 4 0x09 telNone else s3

/-- CP_WATCHDOG (13 R316). -/
def execCpWatchdog (cp : Fin 4) (s : State) : Host.Outcome State Fault Refusal := s.done (s.watchdog cp.val)

/-! ### Power cap (13 R321, R323, R324, R334) -/

/-- The sustained cap in force in W: with nine working phases at most 1,450. -/
def State.capWatts (s : State) : Nat :=
  let cap := fld (s.reg Reg.PMC_CAP) 10 0
  if s.phasesFailed = 2 then min cap 1450 else cap

/-- The stage that one control interval's average moves: admission h first, then the ceiling of every core (13 R323). -/
def capStage (h ceil watts cap : Nat) : Nat × Nat :=
  if watts > cap then if h < 16 then (h + 1, ceil) else (h, min 7 (ceil + 1))
  else if watts * 100 < 97 * cap then
    if ceil > 0 then (h, ceil - 1) else if h > 0 then (h - 1, ceil) else (h, ceil)
  else (h, ceil)

/-- A control interval of 1 ms ends: the stage moves, energy and averages are taken, staged cap and ceiling apply, and the next begins. -/
def State.capInterval (s : State) (watts : Nat) : State :=
  let (h, ceil) := capStage s.pmc.h s.pmc.capCeil watts s.capWatts
  let hist := (s.pmc.pinHistory ++ [watts]).drop (s.pmc.pinHistory.length + 1 - 1000)
  let p := { s.pmc with
    h := h, capCeil := ceil, intervalAt := s.lic, pin := watts, pinHistory := hist, pin1s := hist.sum / hist.length
    energy := s.pmc.energy + BitVec.ofNat 64 watts
    capIntervals := if h > 0 || ceil > 0 then s.pmc.capIntervals + 1 else s.pmc.capIntervals }
  (s.setPmc p).applyAll [Reg.PMC_CAP, Reg.PMC_PSTATE_CEIL]

/-- CAP_CONTROL_INTERVAL (13 R323). -/
def execCapControlInterval (watts : Nat) (s : State) : Host.Outcome State Fault Refusal := s.done (s.capInterval watts)

/-- POWER_SAMPLE (13 R324): half clock above 2,000 W of the 100 µs average until it falls below 1,900 W; with nine phases 1,800 W and
1,700 W (13 R321). -/
def execPowerSample (watts average100 : Nat) (s : State) : Host.Outcome State Fault Refusal :=
  let low := decide (s.phasesFailed = 2)
  let on := if low then 1800 else 2000
  let off := if low then 1700 else 1900
  let half := if average100 > on then true else if average100 < off then false else s.pmc.half
  s.done (s.setPmc { s.pmc with half := half, pin := if s.pmc.pinHistory.isEmpty then watts else s.pmc.pin })

/-! ### Thermal prediction (13 R327) and droop (13 R325) -/

/-- One core's ceiling under a forecast: over a limit it falls one point; after ten forecasts in a row at least 3 °C below, it rises one. -/
def thermStep (ceil cool junction loft jLimit lLimit : Nat) : Nat × Nat :=
  if junction > jLimit || loft > lLimit then (min 7 (ceil + 1), 0)
  else if junction + 3 ≤ jLimit && loft + 3 ≤ lLimit then
    if cool + 1 ≥ 10 then (ceil - 1, 0) else (ceil, cool + 1)
  else (ceil, 0)

/-- A forecast for every core and loft. -/
def State.predict (s : State) (junctions lofts : List Nat) : State :=
  let jLimit := if s.pmc.cold then min 95 (s.reg Reg.VANE_LIMIT_JUNCTION).toNat else (s.reg Reg.VANE_LIMIT_JUNCTION).toNat
  let lLimit := if s.pmc.cold then min 85 (s.reg Reg.VANE_LIMIT_LOFT).toNat else (s.reg Reg.VANE_LIMIT_LOFT).toNat
  let p := (List.range 36).foldl (fun (p : Pmc) n =>
    let (c, k) := thermStep (AMap.getD p.thermCeil n 0) (AMap.getD p.coolFor n 0) ((junctions[n]?).getD 0) ((lofts[n / 9]?).getD 0) jLimit lLimit
    { p with thermCeil := AMap.set p.thermCeil n c, coolFor := AMap.set p.coolFor n k }) s.pmc
  s.setPmc p

/-- THERMAL_PREDICT (13 R327). -/
def execThermalPredict (junctions : List Nat) (lofts : List Nat) (s : State) : Host.Outcome State Fault Refusal :=
  s.done (s.predict junctions lofts)

/-- COLD_START_END (13 R327). -/
def execColdStartEnd (s : State) : Host.Outcome State Fault Refusal := s.done (s.setPmc { s.pmc with cold := false })

/-- An island starts to stretch its clock (13 R325); `share` is the largest share of stretched cycles of a core island over the latest
10 ms, in 0.01 %. -/
def State.drooped (s : State) (island share : Nat) : State :=
  let s1 := s.setPmc { s.pmc with
    droops := setInsert s.pmc.droops island, stretch := share, droopEvents := s.pmc.droopEvents + 1 }
  if share > 100 then s1.alarm 0x0C telNone else s1

/-- DROOP (13 R325). -/
def execDroop (island : Nat) (share : Nat) (s : State) : Host.Outcome State Fault Refusal := s.done (s.drooped island share)

/-- DROOP_RECOVER (13 R325). -/
def execDroopRecover (island : Nat) (s : State) : Host.Outcome State Fault Refusal :=
  s.done (s.setPmc { s.pmc with droops := setRemove s.pmc.droops island })

end Sys2Proof.Machine
end

