-- ==== Sys2Proof/Machine/Loader.lean ====
section
/-! DEFINITION. The configuration loader, bay moves and the configuration-CRC monitor (02 R28 to R52, R410; 10 R253). -/

namespace Sys2Proof.Machine

/-! ### The staged image (02 R28 to R32) -/

/-- A rejection: code, section table index, bay (02 R44). -/
abbrev Reject := Nat × Nat × Nat

/-- Bytes of the staging buffer. -/
def State.staged (s : State) (off len : Nat) : Bytes := s.physRead (Config.stageBase + off) len

/-- Header fields (R29). -/
def imageLength (h : Bytes) : Nat := leAt h 0x08 4
def imageSections (h : Bytes) : Nat := leAt h 0x0C 4
def imageFlags (h : Bytes) : Nat := leAt h 0x10 4
def imageMask (h : Bytes) : Nat := leAt h 0x14 2
def imageSerial (h : Bytes) : W64 := BitVec.ofNat 64 (leAt h 0x18 8)
def imageFull (h : Bytes) : Bool := imageFlags h % 2 = 1
def imageGlobal (h : Bytes) : Bool := imageFlags h / 2 % 2 = 1

/-- An image length that the header may give (R29). -/
def lengthOk (n : Nat) : Bool := decide (0x400 ≤ n ∧ n ≤ 0x4000000 ∧ n % 16 = 0)

/-- Steps 1 and 2 of R44: the header. `extra` says that bytes beyond the image length were received. -/
def headerFault (h : Bytes) (extra : Bool) (floor : W64) : Option Nat :=
  if leAt h 0 4 ≠ 0x5A4C4952 then some 0x01
  else if (crc32c (h.take 0xFC)).toNat ≠ leAt h 0xFC 4 then some 0x04
  else if leAt h 4 2 ≠ 1 then some 0x02
  else if !lengthOk (imageLength h) || extra then some 0x03
  else if leAt h 0x16 2 ≠ 0x4160 then some 0x10
  else if (imageSerial h).toNat < floor.toNat then some 0x07
  else if imageSections h = 0 || imageSections h > 4096 || imageFlags h ≥ 4 || (imageMask h = 0 && !imageGlobal h) ||
      !allZero (slice h 0x24 28) || !allZero (slice h 0xC0 60) then some 0x0A
  else none

/-- A section table entry, read. -/
structure TableEntry where
  type : Nat
  slot : Nat
  offset : Nat
  length : Nat
  bytes : Bytes
  deriving DecidableEq, Repr

/-- Slot numbers: 0xFF in an entry's bay field stands for the global slot, 16. -/
def parseEntry (e : Bytes) : TableEntry :=
  let b := leAt e 2 1
  ⟨leAt e 0 2, if b = 0xFF then 16 else if b < 16 then b else 17, leAt e 4 4, leAt e 8 4, e⟩

/-- The type is known and may stand in the entry's slot (code 0x08). -/
def TableEntry.placed (e : TableEntry) : Bool :=
  match sectionShape e.type with
  | some (_, glob) => if glob then e.slot = 16 else decide (e.slot < 16)
  | none => false

/-- The layout of an entry under R28, R30 and R32, against the entries before it (code 0x0A). A BAYDEF section holds one entry. -/
def TableEntry.laid (e : TableEntry) (before : List TableEntry) (h : Bytes) : Bool :=
  let size := ((sectionShape e.type).map (·.1)).getD 1
  let table := 0x100 + 32 * imageSections h
  leAt e.bytes 3 1 = 0 && allZero (slice e.bytes 0x14 12) && e.length % size = 0 && leAt e.bytes 0x10 4 = e.length / size &&
    e.offset % 64 = 0 && decide (table ≤ e.offset ∧ e.offset + e.length + 208 ≤ imageLength h) &&
    (e.slot = 16 || (imageMask h).testBit e.slot) && (e.slot ≠ 16 || imageGlobal h) && (e.type ≠ 1 || e.length = 64) &&
    before.all fun x => (x.type ≠ e.type || x.slot ≠ e.slot) &&
      (decide (x.offset + x.length ≤ e.offset ∨ e.offset + e.length ≤ x.offset) || x.length = 0 || e.length = 0)

/-- Step 3 of R44, entry by entry. -/
def tableFault (h : Bytes) : List TableEntry → List TableEntry → Nat → Option Reject
  | _, [], _ => none
  | before, e :: rest, i =>
    if !e.placed then some (0x08, i, if e.slot < 16 then e.slot else 0)
    else if !e.laid before h then some (0x0A, i, if e.slot < 16 then e.slot else 0)
    else tableFault h (before ++ [e]) rest (i + 1)

/-- Padding between the table, the bodies and the signature block is zero (R28). DESIGN CHOICE: the rule asks zero padding between bodies; the model asks
it too between the section table and the first body, and between the last body and the signature block (log 91). -/
def paddingOk (read : Nat → Nat → Bytes) (h : Bytes) (l : List TableEntry) : Bool :=
  let stop := imageLength h - 208
  let starts := stop :: (l.filter fun e => e.length ≠ 0).map (·.offset)
  let ends := (0x100 + 32 * imageSections h) :: (l.filter fun e => e.length ≠ 0).map fun e => e.offset + e.length
  ends.all fun a => allZero (read a (((starts.filter fun x => decide (a ≤ x)).foldl min stop) - a))

/-- Step 4 of R44: body CRCs, in index order. -/
def bodyFault (read : Nat → Nat → Bytes) : List TableEntry → Nat → Option Reject
  | [], _ => none
  | e :: rest, i =>
    if (crc32c (read e.offset e.length)).toNat ≠ leAt e.bytes 0x0C 4 then some (0x05, i, if e.slot < 16 then e.slot else 0)
    else bodyFault read rest (i + 1)

/-- The section table of the staged image. -/
def State.imageTable (s : State) (h : Bytes) : List TableEntry :=
  (entriesOf 32 (s.staged 0x100 (32 * min (imageSections h) 4096))).map parseEntry

/-- The first failed check of steps 1 to 4 (R44). -/
def State.receivedFault (s : State) (extra : Bool) : Option Reject :=
  let h := s.staged 0 256
  match headerFault h extra s.loader.floor with
  | some c => some (c, 0, 0)
  | none =>
    let l := s.imageTable h
    match tableFault h [] l 0 with
    | some r => some r
    | none =>
      if (List.range 16).any fun b => (imageMask h).testBit b && !l.any fun e => e.type = 1 && e.slot = b then some (0x0A, 0, 0)
      else if !paddingOk s.staged h l then some (0x0A, 0, 0)
      else bodyFault s.staged l 0

/-- Reject the load (R44): the active banks and the record stand, the rejection is in `CFG_ERROR`. -/
def State.rejectLoad (s : State) (r : Reject) : State :=
  { s with loader := { s.loader.freeInactive with
      state := .rejected, op := .none, phase := .none, move := none, errCode := r.1, errSection := r.2.1, errBay := r.2.2 } }

/-- A granule of 64 bytes has been received. -/
def LoadOp.got (o : LoadOp) (g : Nat) : Bool := o.granules.testBit g

/-- The staged image is read, with the uncorrectable errors that it meets (03 R54). DESIGN CHOICE: the manual does not say how often a verification
reads it; the model reads it once when it has all been received, and once when its signature is checked (log 95). -/
def State.readImage (s : State) (len : Nat) : State := s.meetUe Config.stageBase len

/-- Received bytes advance the load: the header, and with it the bays of the load, is known once its 256 bytes are in; the checks run when every byte up to the image length
has been received, or at once where the header's length is out of range. -/
def State.receivedMore (s : State) : State :=
  let o := s.loader.op
  if !([0, 1, 2, 3].all fun g => o.got g) then s
  else
    let h := s.staged 0 256
    let n := imageLength h
    let need := ceilDiv n 64
    let extra := decide (o.granules ≥ 2 ^ need)
    let o1 := { o with
      length := some n, mask := BitVec.ofNat 16 (imageMask h), full := imageFull h, global := imageGlobal h, serial := imageSerial h
      header := h, keys := s.sec.imageKeys }
    if lengthOk n && !((List.range need).all fun g => o.got g) then { s with loader := { s.loader with op := o1 } }
    else
      let s1 := s.readImage (if lengthOk n then n else 256)
      match s.receivedFault extra with
      | some r => s1.rejectLoad r
      | none =>
        { s1 with loader := { s1.loader with state := .verifying, op := o1 } }

/-- CFG data (10 R253): whole granules, but for a final piece that ends at the image length; accepted in RECEIVING only. -/
def State.cfgData (s0 : State) (p off : Nat) (data : Bytes) : State :=
  let (s, msg) := s0.takeMsg p 2
  let refuse := if s.inService then (s.count32 Reg.EB_RX_REFUSED 1).effect p msg else s
  let o := s.loader.op
  let n := data.length
  let known := match o.length with | some l => some l | none => if off = 0 && n ≥ 12 then some (imageLength data) else none
  let final := decide (known = some (off + n))
  if (s.session p).isNone then refuse
  else if !s.peerRole p .configure then s.roleRefused.effect p msg
  else if s.loader.state ≠ .receiving || off % 64 ≠ 0 || (n % 64 ≠ 0 && !final) || off + n > 0x4000000 then refuse
  else
    let s1 := s.physWrite (Config.stageBase + off) data false
    let got := (List.range (ceilDiv n 64)).foldl (fun (g : Nat) i => g ||| 2 ^ (off / 64 + i)) o.granules
    (({ s1 with loader := { s1.loader with op := { o with granules := got } } }).receivedMore).effect p msg

/-- CFG_DATA (10 R253). -/
def execCfgData (peer : Fin 16384) (offset : Word) (data : List Byte) (s : State) : Host.Outcome State Fault Refusal :=
  s.done (s.cfgData peer.val offset.toNat data)

/-! ### From the signature to STAGED (02 R31, R34, R410) -/

/-- Step 5: the signature block. -/
def State.signatureFault (s : State) : Option Nat :=
  let n := imageLength s.loader.op.header
  let sig := s.staged (n - 208) 208
  if leAt sig 0 4 ≠ 0x4B534952 || !allZero (slice sig 4 4) || !allZero (slice sig 0xCC 4) then some 0x01
  else
    match s.loader.op.keys.find? fun k => Config.sha512 k = slice sig 8 64 with
    | none => some 0x06
    | some k => if Config.ecdsaVerify k (s.staged 0 (n - 208)) (slice sig 0x48 132) then none else some 0x06

/-- The sections of one slot of the staged image. -/
def State.imageSlot (s : State) (l : List TableEntry) (slot : Nat) : SlotCopy :=
  (l.filter fun e => e.slot = slot).map fun e => ⟨e.bytes, s.staged e.offset e.length⟩

/-- Step 6: the entries of every section, in index order (R410). -/
def State.entryFault (s : State) (l : List TableEntry) : List TableEntry → Nat → Option Reject
  | [], _ => none
  | e :: rest, i =>
    if !sectionOk (s.imageSlot l e.slot) ⟨e.bytes, s.staged e.offset e.length⟩ then some (0x0B, i, if e.slot < 16 then e.slot else 0)
    else s.entryFault l rest (i + 1)

/-- Bytes that a slot's contents take in a bank. -/
def slotBytes (c : SlotCopy) : Nat := (c.map fun x => 32 + x.body.length).sum

/-- Bytes in use in a bank. -/
def Loader.bankBytes (l : Loader) (one : Bool) : Nat := ((l.bank one).map fun e => slotBytes e.2).sum

/-- Step 7: 16 MiB for a bay's slot, 4 MiB for the global slot, 64 MiB for a bank (R37). -/
def Loader.spaceOk (l : Loader) (slots : List (Nat × SlotCopy)) : Bool :=
  slots.all (fun e => decide (slotBytes e.2 ≤ if e.1 = 16 then 4 * 2 ^ 20 else 16 * 2 ^ 20)) &&
    [false, true].all fun one =>
      let mine := slots.filter fun e => (!bit l.record.active e.1) = one
      let kept := (l.bank one).filter fun e => !mine.any fun x => x.1 = e.1
      decide ((kept.map fun e => slotBytes e.2).sum + (mine.map fun e => slotBytes e.2).sum ≤ 64 * 2 ^ 20)

/-- Two ranges overlap. -/
def rangesMeet (a n b m : Nat) : Bool := decide (a < b + m ∧ b < a + n ∧ 0 < n ∧ 0 < m)

/-- The bays as they would be with the image in force: those it carries, and, unless it is FULL, the others that are live. -/
def State.nextBays (s : State) (slots : List (Nat × SlotCopy)) : List (Nat × BayDef × SlotCopy) :=
  (List.range 16).filterMap fun b =>
    match slots.find? fun e => e.1 = b with
    | some e => ((sectionEntries e.2 1 64).head?).map fun d => (b, parseBayDef d, e.2)
    | none => if s.loader.op.full then none else (s.bayDef b).map fun d => (b, d, (s.applied b).getD [])

/-- MiB of the telemetry ring under the image (15 R357). -/
def State.nextRing (s : State) (slots : List (Nat × SlotCopy)) : Nat :=
  let copy := match slots.find? fun e => e.1 = 16 with | some e => e.2 | none => (s.applied 16).getD []
  ((telResFull ((sectionEntries copy 0x102 16).map parseTelRes)).map (·.mib)).sum

/-- A bay's definition stands against the others (R34). -/
def State.bayFits (s : State) (all : List (Nat × BayDef × SlotCopy)) (b : Nat) (d : BayDef) (copy : SlotCopy) : Bool :=
  let others := all.filter fun e => e.1 ≠ b
  let drop := ((sectionEntries copy 4 16).map parseClassPol).any (·.dropLate)
  (maskCores d.coreMask).all (fun n => s.coreActive n && !others.any fun e => e.2.1.coreMask.testBit n) &&
    others.all (fun e => !rangesMeet d.firstSid d.sids e.2.1.firstSid e.2.1.sids && !rangesMeet d.firstSeq d.seqs e.2.1.firstSeq e.2.1.seqs &&
      !rangesMeet d.firstQueue d.queues e.2.1.firstQueue e.2.1.queues) && (!drop || d.dropLate)

/-- The section table index of a slot's section of a type (`CFG_ERROR.SECTION`). -/
def State.sectionIndex (s : State) (slot type : Nat) : Nat :=
  let l := s.imageTable s.loader.op.header
  ((List.range l.length).find? fun i => match l[i]? with | some e => decide (e.slot = slot ∧ e.type = type) | none => false).getD 0

/-- Step 8 of R44: the checks of R34. The section named is the CLASSPOL section where a drop-late policy is at fault alone, and else the BAYDEF
section of the bay; quotas that only a new telemetry ring exceeds are at fault in TELRES. -/
def State.liveFault (s : State) (slots : List (Nat × SlotCopy)) : Option Reject :=
  let all := s.nextBays slots
  let mine := all.filter fun e => slots.any fun x => x.1 = e.1
  let quota := fun (t : Nat) => (all.map fun e => (e.2.1.quotas[t]?).getD 0).sum
  let cap := fun (t : Nat) => if t = 1 then s.capacity 1 + s.ringMiB / 2 - s.nextRing slots / 2 else s.capacity t
  let first := match mine.head? with
    | some e => (0x09, s.sectionIndex e.1 1, e.1)
    | none => (0x09, s.sectionIndex 16 0x102, 0)
  match mine.find? fun e => !s.bayFits all e.1 e.2.1 e.2.2 with
  | some e => some (0x09, s.sectionIndex e.1 (if s.bayFits all e.1 { e.2.1 with dropLate := true } e.2.2 then 4 else 1), e.1)
  | none =>
    if (all.map fun e => e.2.1.handleEntries).sum > 262144 then some first
    else if [0, 1, 2].any fun t => decide (quota t > cap t) then some first
    else none

/-- The slots that the staged image carries. -/
def LoadOp.slots (o : LoadOp) : List Nat := (List.range 16).filter (fun b => bit o.mask b) ++ (if o.global then [16] else [])

/-- The signature check completes: the image is rejected, or its slots go to inactive banks and it is STAGED (R44). -/
def State.verified (s0 : State) : State :=
  let s := s0.readImage (imageLength s0.loader.op.header)
  if s0.loader.state ≠ .verifying then s0
  else
    match s.signatureFault with
    | some c => s.rejectLoad (c, 0, 0)
    | none =>
      let l := s.imageTable s.loader.op.header
      match s.entryFault l l 0 with
      | some r => s.rejectLoad r
      | none =>
        let slots := s.loader.op.slots.map fun k => (k, s.imageSlot l k)
        if !s.loader.spaceOk slots then s.rejectLoad (0x0C, 0, 0)
        else
          match s.liveFault slots with
          | some r => s.rejectLoad r
          | none =>
            let r := s.loader.record
            let l1 := slots.foldl (fun (l : Loader) e => l.setBank (!bit r.active e.1) e.1 (some e.2)) s.loader
            { s with loader := { l1 with state := .staged } }

/-- SIGNATURE_CHECK_DONE (R31). -/
def execSignatureCheckDone (s : State) : Host.Outcome State Fault Refusal := s.done s.verified

/-! ### Commands (02 R41 to R45, R47) -/

/-- A command is refused with a code; the load in progress is unaffected. -/
def State.cfgRefuse (s : State) (code bay : Nat) : State :=
  { s with loader := { s.loader with errCode := code, errSection := 0, errBay := bay } }

/-- LOAD (R41): from IDLE with no move under way; with every Silo row offline it is refused with code 0x0C (16 R382). -/
def State.cfgLoadOp (s : State) : State :=
  if s.loader.state = .rejected then s
  else if s.loader.state ≠ .idle || s.loader.move.isSome then s.cfgRefuse 0x0E 0
  else if s.tiers.rowsOffline = 0xFFFFFFFF#32 then s.cfgRefuse 0x0C 0
  else
    { (s.unlatch Reg.CFG_EVENT_STATUS 0) with loader := { s.loader with
        state := .receiving, op := .none, errCode := 0, errSection := 0, errBay := 0 } }

def execCfgLoad (src : Source) (s : State) : Host.Outcome State Fault Refusal := s.done (s.cmdWrite src Reg.CFG_CMD 1 State.cfgLoadOp)

/-- The record of the commit that begins (R43). DESIGN CHOICE: a FULL image without GLOBAL leaves the global slot defined, as the pseudocode of R43 does,
which clears the bits of bays only (log 92). -/
def State.nextRecord (s : State) : CommitRecord :=
  let r := s.loader.record
  let o := s.loader.op
  let slots := if s.loader.state = .lulling || s.loader.state = .staged then o.slots else []
  let flip := slots.foldl (fun (m : BitVec 17) k => m ||| (1#17 <<< k)) 0
  let kept : BitVec 17 := if o.full then r.defined &&& 0x10000#17 else r.defined
  let sub := match s.loader.move with
    | some m =>
      let die := m.core / 9
      BitVec.ofNat 16 (r.spareSub.toNat - fld r.spareSub (die * 4 + 3) (die * 4) * 16 ^ die + m.core % 9 * 16 ^ die)
    | none => r.spareSub
  { seq := r.seq + 1, active := r.active ^^^ flip, defined := kept ||| flip, spareSub := sub
    serial := if slots.isEmpty then r.serial else o.serial }

/-- Copy A of the commit record is being written: the load is APPLYING (R43). -/
def State.beginCommit (s : State) : State :=
  { s with loader := { s.loader with newRecord := s.nextRecord, state := .applying, phase := .copyA } }

/-- Every bay that the operation waits for is in lull. -/
def State.lullsReached (s : State) : Bool := (List.range 16).all fun b => !bit s.loader.op.lullSet b || (s.bay b).lulled

/-- The loader goes on once its bays are in lull: a move copies its core, or the commit begins (R43, R47). -/
def State.loaderGoesOn (s : State) : State :=
  if s.loader.state ≠ .lulling || !s.lullsReached then s
  else
    match s.loader.move with
    | some m =>
      if m.step ≠ .lull then s
      else
        let step := if (s.core m.core).faultFenced then MoveStep.weights else .copy
        { s with loader := { s.loader with move := some { m with step := step } } }
    | none => s.beginCommit

/-- Request lull of a set of bays, and wait for it (R43). -/
def State.requestLulls (s : State) (set : BitVec 16) : State :=
  let s1 : State := { s with loader := { s.loader with state := .lulling, phase := .waitLull, op := { s.loader.op with lullSet := set } } }
  (((List.range 16).filter fun b => bit set b).foldl (fun (s : State) b => s.askLull b fun y => { y with lullLoad := true }) s1).loaderGoesOn

/-- Bays that the staged image brings to lull: those it carries, and, where it is FULL, those it leaves undefined (R43). -/
def State.loadLulls (s : State) : BitVec 16 :=
  (List.range 16).foldl (fun (m : BitVec 16) b =>
    if (s.bayDef b).isSome && (bit s.loader.op.mask b || s.loader.op.full) then m ||| (1#16 <<< b) else m) 0

/-- COMMIT (R41, R43): accepted in STAGED only, and ignored while a joined move tests its spare. -/
def State.cfgCommitOp (s : State) : State :=
  if s.loader.state ≠ .staged || s.loader.move.isSome then s else s.requestLulls s.loadLulls

def execCfgCommit (src : Source) (s : State) : Host.Outcome State Fault Refusal := s.done (s.cmdWrite src Reg.CFG_CMD 2 State.cfgCommitOp)

/-- Return the loader from REJECTED to IDLE. -/
def State.cfgAckOp (s : State) : State :=
  if s.loader.state = .rejected then { s with loader := { s.loader with state := .idle } } else s

/-- ABORT (R41, R44): the staged space is freed, lulled bays resume on their old banks; in REJECTED it acts as ACK; in APPLYING and IDLE it has
no effect. -/
def State.cfgAbortOp (s : State) : State :=
  match s.loader.state with
  | .rejected => s.cfgAckOp
  | .applying => s
  | .idle => s
  | _ => s.endLoad 0x0F 0

def execCfgAbort (src : Source) (s : State) : Host.Outcome State Fault Refusal := s.done (s.cmdWrite src Reg.CFG_CMD 3 State.cfgAbortOp)

/-- CFG_ACK (R41). -/
def execCfgAck (src : Source) (s : State) : Host.Outcome State Fault Refusal := s.done (s.cmdWrite src Reg.CFG_CMD 4 State.cfgAckOp)

/-- RESUME (R45): every bay in lull because of a restart resumes; ignored in REJECTED. -/
def State.cfgResumeOp (s : State) : State :=
  if s.loader.state = .rejected then s
  else
    let s1 : State := { s with loader := { s.loader with resumeWait := false } }
    ((List.range 16).filter fun b => (s1.bay b).lullRestart).foldl (fun (s : State) b => s.liftLull b fun y => { y with lullRestart := false }) s1

/-- CFG_RESUME (R45). -/
def execCfgResume (src : Source) (s : State) : Host.Outcome State Fault Refusal := s.done (s.cmdWrite src Reg.CFG_CMD 6 State.cfgResumeOp)

/-- MOVE (R41, R47): the spare of the core's die is powered for its self-test. -/
def State.moveOp (s : State) (bay core : Nat) (join : Bool) : State :=
  let l := s.loader
  if l.state = .rejected then s
  else if (if join then l.state ≠ .staged || l.move.isSome else l.state ≠ .idle || l.move.isSome) then s.cfgRefuse 0x0E bay
  else if (join && !bit l.op.mask bay) || !(s.bayCores bay).contains core || !s.coreActive core || (substituted l.record (core / 9)).isSome ||
      bit l.spareFailed (core / 9) then s.cfgRefuse 0x0D bay
  else
    match s.spareOf (core / 9) with
    | none => s.cfgRefuse 0x0D bay
    | some sp =>
      let s1 := (s.setCore sp { s.core sp with movePowered := true }).unlatch Reg.CFG_EVENT_STATUS 0
      { s1 with loader := { l with
          move := some ⟨bay, core, join, .selfTest⟩, op := if join then l.op else .none, errCode := 0, errSection := 0, errBay := 0 } }

/-- BAY_MOVE (R47). -/
def execBayMove (src : Source) (bay : Fin 16) (core : BitVec 6) (join : Bool) (s : State) : Host.Outcome State Fault Refusal :=
  s.done (s.cmdWrite src Reg.CFG_CMD (w32 (5 + core.toNat * 16 + bay.val * 1024 + if join then 16384 else 0)) fun s => s.moveOp bay.val core.toNat join)

/-- The MOVE log, and `REP_STATUS` (15 R355). -/
def State.moveLog (s : State) (m : MoveOp) (code : Nat) : State :=
  (s.repairShown .move m.core 8 (if code = 0 then 0 else 6)).log m.bay 0x0003 (telUnit 0 m.core) (w32 (code + m.bay * 256)) ((s.spareOf (m.core / 9)).getD 0)

/-- The spare's self-test ends (R47, R48): on a pass the core is fenced and lull requested; on a failure the move is refused. -/
def State.selfTested (s : State) (pass : Bool) : State :=
  match s.loader.move with
  | none => s
  | some m =>
    if m.step ≠ .selfTest then s
    else if pass then
      let s1 := s.setCore m.core { s.core m.core with moveFenced := true }
      let s2 : State := { s1 with loader := { s1.loader with move := some { m with step := .lull } } }
      s2.requestLulls ((if m.joined then s2.loadLulls else 0) ||| (1#16 <<< m.bay))
    else
      let s1 := (s.moveLog m 0x0D).dropMove
      let s2 : State := { s1 with loader := { s1.loader with spareFailed := s1.loader.spareFailed ||| (1#4 <<< (m.core / 9)) } }
      s2.cfgRefuse 0x0D m.bay

/-- SPARE_SELF_TEST_DONE (R47). -/
def execSpareSelfTestDone (pass : Bool) (s : State) : Host.Outcome State Fault Refusal := s.done (s.selfTested pass)

/-- An access into the pinned reservations of a core's contexts is still in flight (R47). -/
def State.coreInFlight (s : State) (n : Nat) : Bool :=
  s.insts.any fun e => e.2.onCore n &&
    (s.sharesOf e.1 || (s.anyRequest fun r => r.ofInst e.1) || s.trans.held.any fun h => h.holder.ofInst e.1)

/-- Step 5 of R48 ends: the fenced core's contexts and reservations are on the spare. -/
def State.moveCopied (s : State) : State :=
  match s.loader.move with
  | none => s
  | some m =>
    if m.step ≠ .copy || s.coreInFlight m.core then s
    else
      match s.spareOf (m.core / 9) with
      | none => s
      | some sp =>
        let s1 := s.carryCore m.core sp
        { s1 with loader := { s1.loader with move := some { m with step := .weights } } }

/-- MOVE_COPY_DONE (R48). -/
def execMoveCopyDone (s : State) : Host.Outcome State Fault Refusal := s.done s.moveCopied

/-- MOVE_WEIGHTS_DONE (R48): the commit record is written. -/
def execMoveWeightsDone (s : State) : Host.Outcome State Fault Refusal :=
  s.done (match s.loader.move with
    | some m =>
      if m.step = .weights then { s.beginCommit with loader := { s.beginCommit.loader with move := some { m with step := .commit } } } else s
    | none => s)

/-! ### Lull (02 R43) -/

/-- BAY_LULL_REACHED (R43). -/
def execBayLullReached (bay : Fin 16) (s : State) : Host.Outcome State Fault Refusal :=
  s.done (((s.reachLull bay.val).reapplyAtLull bay.val).loaderGoesOn)

/-- A bay belongs to a load in LULLING or APPLYING: requests of its lull are ignored (R41). -/
def State.lullLocked (s : State) (b : Nat) : Bool :=
  (s.loader.state = .lulling || s.loader.state = .applying) && (bit s.loader.op.lullSet b || bit s.loader.op.mask b)

/-- The bit of `CFG_LULL_REQ` of a bay is written. DESIGN CHOICE: a request for a bay that is not defined is ignored (log 93). -/
def State.lullBit (s : State) (b : Nat) (on : Bool) : State :=
  if s.lullLocked b || (s.bayDef b).isNone then s
  else if on then s.askLull b fun y => { y with lullHost := true }
  else s.liftLull b fun y => { y with lullHost := false }

/-- LULL_REQUEST (R43). -/
def execLullRequest (src : Source) (bay : Fin 16) (s : State) : Host.Outcome State Fault Refusal :=
  s.done (s.rkWrite src Reg.CFG_LULL_REQ fun s => s.lullBit bay.val true)

/-- LULL_RELEASE (R43). -/
def execLullRelease (src : Source) (bay : Fin 16) (s : State) : Host.Outcome State Fault Refusal :=
  s.done (s.rkWrite src Reg.CFG_LULL_REQ fun s => s.lullBit bay.val false)

/-! ### The commit (02 R39, R43) -/

/-- The monitor enters AWAIT_REF: the reference is discarded (R50). -/
def State.awaitRef (s : State) : State :=
  { s with
    regs := AMap.erase s.regs Reg.CFGCRC_REF
    loader := { s.loader with crcState := .awaitRef, crcMismatch := false, crcWarned := false } }

/-- Copy A is whole: the load is committed (R39). -/
def State.copyADone (s : State) : State :=
  if s.loader.phase ≠ .copyA then s
  else
    let r := s.loader.newRecord
    let slots := if s.loader.op.header.isEmpty then [] else s.loader.op.slots
    let s1 : State := { s with loader := { s.loader with
        copyA := r.bytes, record := r, phase := .copyB, headers := slots.foldl (fun (m : AMap Bytes) k => AMap.set m k s.loader.op.header) s.loader.headers } }
    s1.awaitRef.log 0xFF 0x000B telNone r.seq r.serial.toNat

/-- COMMIT_COPY_A_DONE (R39). -/
def execCommitCopyADone (s : State) : Host.Outcome State Fault Refusal := s.done s.copyADone

/-- Slots whose tables the blocks take: those that the image carries, and the moved bay's. -/
def Loader.carried (l : Loader) (k : Nat) : Bool :=
  (!l.op.header.isEmpty && l.op.slots.contains k) || (match l.move with | some m => decide (m.bay = k) | none => false)

/-- Copy B is whole: the blocks take the new tables (R43). -/
def State.copyBDone (s : State) : State :=
  if s.loader.phase ≠ .copyB then s
  else
    let s1 : State := { s with loader := { s.loader with copyB := s.loader.newRecord.bytes, phase := .tables } }
    let s2 := match s1.loader.move with
      | some m =>
        match s1.spareOf (m.core / 9) with
        | some sp => s1.setCore sp { s1.core sp with movePowered := false }
        | none => s1
      | none => s1
    s2.applyTables s2.loader.carried

/-- COMMIT_COPY_B_DONE (R43). -/
def execCommitCopyBDone (s : State) : Host.Outcome State Fault Refusal := s.done s.copyBDone

/-- The tables are in place: the banks that the commit made inactive are free (R37), carried bays resume, the monitor awaits its reference, CFG_DONE arises (R43). -/
def State.tablesIn (s : State) : State :=
  if s.loader.phase ≠ .tables then s
  else
    let mine := (List.range 16).filter fun b => s.loader.carried b || (s.bay b).lullLoad
    let s1 := match s.loader.move with | some m => s.moveLog m 0 | none => s
    let s2 : State := { s1 with
      loader := { s1.loader.freeInactive with state := .idle, op := .none, phase := .none, move := none }
      vane := { s1.vane with
        stay := mine.foldl (fun (w : BitVec 16) b => w &&& ~~~(1#16 <<< b)) s1.vane.stay
        reapplied := match s1.vane.reapplied with | some k => if mine.contains k then none else some k | none => none } }
    let s3 := mine.foldl (fun (s : State) b =>
      s.liftLull b fun y => { y with lullLoad := false, lullRestart := false, lullPolicy := false }) s2
    s3.awaitRef.latch Reg.CFG_EVENT_STATUS 0

/-- TABLES_APPLIED (R43). -/
def execTablesApplied (s : State) : Host.Outcome State Fault Refusal := s.done s.tablesIn

/-! ### The serial floor (02 R52) -/

/-- SERIAL_FLOOR_HI_WRITE (R52). -/
def execSerialFloorHiWrite (src : Source) (value : Word) (s : State) : Host.Outcome State Fault Refusal :=
  s.done (s.rkWrite src Reg.CFG_SERIAL_FLOOR_HI fun s => { s with loader := { s.loader with floorHi := some value } })

/-- The low half is written: the pair takes effect, unless it is below the floor. DESIGN CHOICE: with no high half held, the current floor's stands in
the pair (log 90). -/
def State.floorOp (s : State) (v : Word) : State :=
  let f := pair v (s.loader.floorHi.getD (hi32 s.loader.floor))
  { s with loader := { s.loader with floorHi := none, floor := if f.toNat < s.loader.floor.toNat then s.loader.floor else f } }

/-- SERIAL_FLOOR_LO_WRITE (R52). -/
def execSerialFloorLoWrite (src : Source) (value : Word) (s : State) : Host.Outcome State Fault Refusal :=
  s.done (s.rkWrite src Reg.CFG_SERIAL_FLOOR_LO fun s => s.floorOp value)

/-! ### The configuration-CRC monitor (02 R49 to R51) -/

/-- The defined slots in the order of R49. -/
def State.sweepSlots (s : State) : List Nat := slotOrder.filter fun k => bit s.loader.record.defined k

/-- What the live CRC covers. -/
def State.sweepBytes (s : State) : Bytes :=
  s.sweepSlots.flatMap fun k => crcBytes ((s.loader.activeCopy s.loader.record k).getD [])

/-- A write of the reference: latched for the next sweep, and the monitor compares (R50). -/
def State.refOp (s : State) (v : Word) : State :=
  let s1 := (s.stage Reg.CFGCRC_REF v).setReg Reg.CFGCRC_MISMATCHES 0
  { s1 with loader := { s1.loader with crcState := .comparing } }

/-- CFGCRC_REF_WRITE (R50). -/
def execCfgcrcRefWrite (src : Source) (value : Word) (s : State) : Host.Outcome State Fault Refusal :=
  s.done (s.rkWrite src Reg.CFGCRC_REF fun s => s.refOp value)

/-- The slot that a mismatch names (`CFGCRC_STATUS.SLOT`): one whose read-back differs; else which slot differs is a free value. -/
def State.mismatchSlot (s : State) : State × Nat :=
  match s.sweepSlots.find? fun k => s.applied k ≠ s.loader.activeCopy s.loader.record k with
  | some k => (s, k)
  | none =>
    let (v, s1) := s.draw
    (s1, (s.sweepSlots[v.toNat % max 1 s.sweepSlots.length]?).getD 16)

/-- A sweep ends (R50). -/
def State.sweepEnd (s : State) : State :=
  let s0 := s.applyStaged Reg.CFGCRC_REF
  let crc := crc32c s0.sweepBytes
  let slots := s0.sweepSlots.foldl (fun (m : AMap Word) k =>
    AMap.set m k (crc32c (crcBytes ((s0.loader.activeCopy s0.loader.record k).getD [])))) []
  let s1 : State := { (s0.setReg Reg.CFGCRC_LAST crc) with loader := { s0.loader with crcSlots := slots } }
  let differs := s1.sweepSlots.any fun k => s1.applied k ≠ s1.loader.activeCopy s1.loader.record k
  if s1.loader.crcState = .awaitRef then s1
  else if crc = s1.reg Reg.CFGCRC_REF && !differs then
    let s2 := s1.countWrap Reg.CFGCRC_SWEEPS 1
    { s2 with loader := { s2.loader with crcMismatch := false, crcSlot := 0 }, vane := { s2.vane with reapplied := none } }
  else
    let (s2, k) := s1.mismatchSlot
    let s3 : State := { (s2.count16 Reg.CFGCRC_MISMATCHES) with loader := { s2.loader with crcMismatch := true, crcSlot := k } }
    s3.alarm 0x0A (telUnit 7 6)

/-- CRC_SWEEP_END (R50). -/
def execCrcSweepEnd (s : State) : Host.Outcome State Fault Refusal := s.done s.sweepEnd

/-- CFG_REF_MISSING (R50): once per stay in AWAIT_REF. -/
def execCfgRefMissing (s : State) : Host.Outcome State Fault Refusal :=
  s.done (
    if s.loader.crcState = .awaitRef && !s.loader.crcWarned then
      ({ s with loader := { s.loader with crcWarned := true } }).alarm 0x0B (telUnit 7 6)
    else s)

end Sys2Proof.Machine
end

