-- ==== Sys2Proof/Machine/Security.lean ====
section
/-! DEFINITION. Sessions, keys, attestation, the tag area and the firmware slots: the MGMT and ATTEST messages of the security block
(14 R335 to R353). -/

namespace Sys2Proof.Machine

/-! ### MGMT replies (R342, R347) -/

/-- Status codes of a MGMT reply (R347). -/
def mgmtOk : Nat := 0
def mgmtRole : Nat := 1
def mgmtBadOp : Nat := 2
def mgmtBusy : Nat := 3
def mgmtSignature : Nat := 4
def mgmtEntry : Nat := 5
def mgmtState : Nat := 6
def mgmtStale : Nat := 7
def mgmtFloor : Nat := 8

/-- A MGMT reply to a peer. -/
def State.mgmtReply (s : State) (p op : Nat) (tag : BitVec 16) (status : Nat) (body : Bytes) : State :=
  s.post p [.reply op tag status body]

/-- A MGMT operation of a peer's session (10 R251, R342, R347): without a session it is refused and counted; without the role it is answered
ROLE and counted; else it has its effect, and its status and body are the reply. -/
def State.mgmt (s : State) (p op : Nat) (tag : BitVec 16) (role : Role) (body : State → State × Nat × Bytes) : State :=
  if (s.session p).isNone then s.refuseMsg p 7
  else if !s.peerRole p role then (s.roleRefused.effectOf p 7).mgmtReply p op tag mgmtRole []
  else
    let r := body s
    (r.1.effectOf p 7).mgmtReply p op tag r.2.1 r.2.2

/-- A reply to a source that no entry binds, at its address (10 R246). -/
def State.unbound (s : State) (source : NetEnd) (op : Nat) (tag : BitVec 16) (status : Nat) (body : Bytes) : State :=
  s.emit (.unboundReply source op tag status body)

def State.setSec (s : State) (x : Sec) : State := { s with sec := x }

/-- The sessions that a test picks close (R346). -/
def State.closeWhere (s : State) (f : Session → Bool) : State :=
  (s.sec.sessions.filter f).foldl (fun (s : State) x => s.closeSession x.id) s

/-! ### Claiming (R340, R344) -/

/-- Why a claim record is refused, none where it is accepted. -/
def State.claimFault (s : State) (record : Bytes) : Option Nat :=
  if record.length ≠ 356 || leAt record 0 4 ≠ 0x4D49414C || leAt record 4 4 ≠ 0 || leAt record 0x9D 3 ≠ 0 then some mgmtBadOp
  else if !s.sec.roots.isEmpty then some mgmtState
  else if leAt record 8 8 ≠ Config.serial.toNat || leAt record 16 8 ≠ s.sec.eraseCount.toNat then some mgmtState
  else if slice record 0xA0 64 ≠ Config.sha512 Config.yawickClaimKey ||
      !Config.ecdsaVerify Config.yawickClaimKey (record.take 0xE0) (slice record 0xE0 132) then some mgmtSignature
  else none

/-- CLAIM installs the first operator root. -/
def State.claim (s : State) (record : Bytes) : State × Nat :=
  match s.claimFault record with
  | some c => (s, c)
  | none => (s.setSec { s.sec with roots := [slice record 0x18 133] }, mgmtOk)

/-- CLAIM (R340): an unbound message. -/
def execClaim (who : Caller) (record : List Byte) (s : State) : Host.Outcome State Fault Refusal :=
  s.done (
    if s.inService then
      let r := s.claim record
      r.1.unbound who.source 0x05 who.tag r.2 []
    else s)

/-! ### Opening a session (R341, R343 to R345) -/

/-- Why an operator certificate is not valid, none where it is (R341). A serial below the floor is answered FLOOR. -/
def Sec.certFault (sec : Sec) (cert : Bytes) : Option Nat :=
  if leAt cert 0 4 ≠ 0x5443504F || leAt cert 4 2 ≠ 1 || leAt cert 6 2 ≥ 16 || leAt cert 0xB5 3 ≠ 0 || leAt cert 0x17C 4 ≠ 0 then
    some mgmtSignature
  else
    match sec.roots.find? fun k => Config.sha512 k = slice cert 0xB8 64 with
    | none => some mgmtSignature
    | some k =>
      if !Config.ecdsaVerify k (cert.take 0xF8) (slice cert 0xF8 132) then some mgmtSignature
      else if leAt cert 8 8 < sec.certFloor.toNat then some mgmtFloor
      else none

/-- An entry of kind 1 names the frame's source address and port (10 R246, R345). -/
def State.entryMatches (s : State) (p : Nat) (address : Bytes) (port : BitVec 16) (ipv6 : Bool) : Bool :=
  s.peerKind p = 1 && s.entryNames p address port ipv6

/-- OPEN_2 fills an unused entry from the frame, and sets START state (R345). -/
def State.fillEntry (s : State) (p : Nat) (address : Bytes) (port : BitVec 16) (mac : Bytes) (vlan : BitVec 12) (ipv6 : Bool) : State :=
  let a := wireAddress address
  let words := [w32 (1 + (if ipv6 then 256 else 0) + port.toNat * 65536), w32 (leNat (mac.take 4)),
    w32 (leNat (slice mac 4 2) + vlan.toNat * 65536), w32 (leAt a 0 4), w32 (leAt a 4 4), w32 (leAt a 8 4), w32 (leAt a 12 4), 0]
  (((List.range 8).zip words).foldl (fun (s : State) e => s.setReg (peerWord p e.1) e.2) s).resetPeer p

/-- A session identifier: the device's own choice where it is non-zero and distinct, else the least that is (R345). -/
def Sec.newId (sec : Sec) : Word :=
  let free := fun (w : Word) => w ≠ 0 && sec.sessions.all (fun x => x.id ≠ w) && sec.openings.all fun x => x.id ≠ w
  let own := Config.sessionId sec.drawn
  if free own then own else w32 ((firstBelow (fun n => free (w32 n)) 128).getD 0)

/-- Why OPEN_1 is refused, none where OPEN_2 answers it: its length, 16 openings or 64 sessions, the certificate, then the entry. -/
def State.open1Fault (s : State) (address : Bytes) (port : BitVec 16) (ipv6 : Bool) (payload : Bytes) : Option Nat :=
  let p := beNat (payload.take 2)
  if payload.length ≠ 551 || p ≥ 16384 then some mgmtBadOp
  else if s.sec.openings.length ≥ 16 || s.sec.sessions.length ≥ 64 then some mgmtBusy
  else
    match s.sec.certFault (slice payload 0xA7 384) with
    | some c => some c
    | none =>
      if s.peerKind p = 0 || (s.entryMatches p address port ipv6 && (s.session p).isNone) then none else some mgmtEntry

/-- An opening is refused or abandoned: it is counted. -/
def State.openFailed (s : State) : State := s.count16 Reg.SEC_OPEN_FAIL

/-- The OPEN_2 payload up to its signature field (R344). -/
def open2Head (id : Word) (k : Nat) : Bytes :=
  beBytes 4 id.toNat ++ Config.deviceNonce k ++ Config.deviceEphemeral k ++ [0, 0, 0] ++ Config.idCertificate

/-- OPEN_1 is accepted: the entry is taken, the opening is held, and OPEN_2 is sent (R343 to R345). -/
def State.openTake (s : State) (address : Bytes) (port : BitVec 16) (mac : Bytes) (vlan : BitVec 12) (ipv6 : Bool) (tag : BitVec 16)
    (payload : Bytes) : State :=
  let p := beNat (payload.take 2)
  let unused := s.peerKind p = 0
  let s1 := if unused then s.fillEntry p address port mac vlan ipv6 else s
  let id := s.sec.newId
  let k := s.sec.drawn
  let head := open2Head id k
  let t := Config.sha512 (payload ++ head)
  let o : Opening :=
    { id := id, entry := p, address := address, port := port.toNat, mac := mac, vlan := vlan.toNat, ipv6 := ipv6
      cert := slice payload 0xA7 384, hostNonce := slice payload 2 32, deviceNonce := Config.deviceNonce k
      hostKey := slice payload 0x22 133, deviceKey := Config.deviceEphemeral k, transcript := t, filled := unused }
  (s1.setSec { s1.sec with openings := s1.sec.openings ++ [o], drawn := k + 1 }).unbound ⟨address, port, mac, vlan, ipv6⟩ 0x02 tag mgmtOk (head ++ Config.identitySign t)

/-- OPEN_1 (R343). -/
def execOpen1 (address : List Byte) (port : BitVec 16) (mac : List Byte) (vlan : BitVec 12) (ipv6 : Bool) (tag : BitVec 16)
    (payload : List Byte) (s : State) : Host.Outcome State Fault Refusal :=
  s.done (
    if !s.inService then s
    else
      match s.open1Fault address port ipv6 payload with
      | some c => s.openFailed.unbound ⟨address, port, mac, vlan, ipv6⟩ 0x01 tag c []
      | none => s.openTake address port mac vlan ipv6 tag payload)

/-- A refused or abandoned opening leaves no state behind (R345): an entry that it filled is unused again, unless another opening or a
session has taken it. -/
def State.dropOpening (s : State) (o : Opening) : State :=
  let rest := s.sec.openings.filter fun x => x.id ≠ o.id
  if !o.filled || (s.session o.entry).isSome || !s.entryMatches o.entry o.address (BitVec.ofNat 16 o.port) o.ipv6 then
    s.setSec { s.sec with openings := rest }
  else if rest.any fun x => x.entry = o.entry then
    s.setSec { s.sec with openings := rest.map fun x => if x.entry = o.entry then { x with filled := true } else x }
  else
    let s1 := s.setSec { s.sec with openings := rest }
    ((List.range 8).foldl (fun (s : State) w => s.setReg (peerWord o.entry w) 0) s1).resetPeer o.entry

/-- The opening that OPEN_3 names, and why it is refused: its length, no such opening, the entry, 64 sessions, the signature. -/
def State.open3Fault (s : State) (payload : Bytes) : Option Nat :=
  if payload.length ≠ 136 then some mgmtBadOp
  else
    match s.sec.openings.find? fun o => o.id.toNat = beNat (payload.take 4) with
    | none => some mgmtState
    | some o =>
      if s.peerKind o.entry = 0 || (s.session o.entry).isSome then some mgmtEntry
      else if s.sec.sessions.length ≥ 64 then some mgmtBusy
      else if !Config.ecdsaVerify (slice o.cert 0x30 133) (o.transcript ++ [3]) (slice payload 4 132) then some mgmtSignature
      else none

/-- OPEN_3 verifies: the keys are derived, and the session opens with the reply as its first message, counter 1 and START (R343);
messages held from an earlier session follow it (10 R251). -/
def State.openSession (s : State) (o : Opening) (tag : BitVec 16) : State :=
  let x : Session :=
    { id := o.id, peer := o.entry, roles := leAt o.cert 6 2, certSerial := BitVec.ofNat 64 (leAt o.cert 8 8)
      rootDigest := slice o.cert 0xB8 64, keys := Config.sessionKeys o.hostKey o.deviceKey o.hostNonce o.deviceNonce o.id
      tx := 1, rxHigh := 0, last := s.lic }
  let s1 := s.setSec { s.sec with
    openings := s.sec.openings.filter (fun y => y.id ≠ o.id), sessions := s.sec.sessions ++ [x] }
  let y := s1.peer o.entry
  let held := y.unacked.map (·.body) ++ y.waiting
  let z : Peer := { y with
    txSeq := 0, start := true, unacked := [], waiting := .reply 0x03 tag mgmtOk [] :: held, backoff := 0, awaitSession := false }
  let s2 := (((s1.setPeer o.entry z).dropFrames fun f => f.peer = some o.entry).countWrap Reg.SEC_SESSIONS 1).pump o.entry
  s2.log 0xFF 0x000C telNone o.id (1 + o.entry * 65536)

/-- OPEN_3 (R343). A refusal is answered at the source address, and ends the opening that it names. -/
def execOpen3 (who : Caller) (payload : List Byte) (s : State) : Host.Outcome State Fault Refusal :=
  s.done (
    if !s.inService then s
    else
      let named := s.sec.openings.find? fun o => o.id.toNat = beNat (payload.take 4)
      match s.open3Fault payload, named with
      | none, some o => s.openSession o who.tag
      | none, none => s
      | some c, some o => if payload.length ≠ 136 then s.openFailed.unbound who.source 0x03 who.tag c []
        else (s.openFailed.dropOpening o).unbound who.source 0x03 who.tag c []
      | some c, none => s.openFailed.unbound who.source 0x03 who.tag c [])

/-- OPEN_ABANDON (R345): OPEN_3 has not arrived 1 s after OPEN_2. -/
def execOpenAbandon (session : Word) (s : State) : Host.Outcome State Fault Refusal :=
  s.done (
    match s.sec.openings.find? fun o => o.id = session with
    | some o => s.openFailed.dropOpening o
    | none => s)

/-- CLOSE (R346): the reply goes under the closing session. Any role may close. -/
def execSessionClose (peer : Fin 16384) (tag : BitVec 16) (s : State) : Host.Outcome State Fault Refusal :=
  s.done (
    match s.session peer.val with
    | some x => ((s.effectOf peer.val 7).mgmtReply peer.val 0x04 tag mgmtOk []).closeSession x.id
    | none => s.refuseMsg peer.val 7)

/-- SESSION_IDLE (R346): `SEC_SESSION_IDLE` seconds have passed with no authenticated message. -/
def execSessionIdle (session : Word) (s : State) : Host.Outcome State Fault Refusal := s.done (s.closeSession session)

/-! ### Keys (R339, R347) -/

/-- KEY_INSTALL: kind 0 an operator root, 1 an image-signing key; a kind holds at most 8. -/
def State.installKey (s : State) (kind : Nat) (key : Bytes) : State × Nat × Bytes :=
  if kind > 1 || key.length ≠ 133 then (s, mgmtBadOp, [])
  else
    let held := if kind = 0 then s.sec.roots else s.sec.imageKeys
    if held.length ≥ 8 then (s, mgmtState, [])
    else if kind = 0 then (s.setSec { s.sec with roots := held ++ [key] }, mgmtOk, [])
    else (s.setSec { s.sec with imageKeys := held ++ [key] }, mgmtOk, [])

/-- KEY_INSTALL (R347). -/
def execKeyInstall (peer : Fin 16384) (tag : BitVec 16) (kind : Byte) (key : List Byte) (s : State) : Host.Outcome State Fault Refusal :=
  s.done (s.mgmt peer.val 0x10 tag .admin fun s => s.installKey kind.toNat key)

/-- KEY_REMOVE: the key with the digest goes; never the last operator root. -/
def State.removeKey (s : State) (kind : Nat) (digest : Bytes) : State × Nat × Bytes :=
  if kind > 1 || digest.length ≠ 64 then (s, mgmtBadOp, [])
  else
    let held := if kind = 0 then s.sec.roots else s.sec.imageKeys
    let rest := held.filter fun k => Config.sha512 k ≠ digest
    if rest.length = held.length || (kind = 0 && rest.isEmpty) then (s, mgmtState, [])
    else if kind = 0 then (s.setSec { s.sec with roots := rest }, mgmtOk, [])
    else (s.setSec { s.sec with imageKeys := rest }, mgmtOk, [])

/-- A session's certificate is no longer valid (R341, R346). -/
def Sec.invalidated (sec : Sec) (x : Session) : Bool :=
  (sec.roots.all fun k => Config.sha512 k ≠ x.rootDigest) || decide (x.certSerial.toNat < sec.certFloor.toNat)

/-- KEY_REMOVE (R347): sessions whose certificates it invalidates close, after the reply (R346, R353). -/
def execKeyRemove (peer : Fin 16384) (tag : BitVec 16) (kind : Byte) (digest : List Byte) (s : State) : Host.Outcome State Fault Refusal :=
  let t := s.mgmt peer.val 0x11 tag .admin fun s => s.removeKey kind.toNat digest
  s.done (t.closeWhere t.sec.invalidated)

/-- CERT_FLOOR: the floor can only rise. -/
def State.raiseFloor (s : State) (floor : W64) : State × Nat × Bytes :=
  if floor.toNat < s.sec.certFloor.toNat then (s, mgmtFloor, []) else (s.setSec { s.sec with certFloor := floor }, mgmtOk, [])

/-- CERT_FLOOR (R341, R347). -/
def execCertFloor (peer : Fin 16384) (tag : BitVec 16) (floor : W64) (s : State) : Host.Outcome State Fault Refusal :=
  let t := s.mgmt peer.val 0x12 tag .admin fun s => s.raiseFloor floor
  s.done (t.closeWhere t.sec.invalidated)

/-! ### MACsec keys (R350) -/

/-- A transmit association is installed: it is in use from the next frame. One under a key that is installed already goes on after the last
packet number sent. -/
def Port.installTx (x : Port) (a : MacsecSa) : Port :=
  let pn := match x.txSas.find? fun y => y.sak = a.sak with | some y => BitVec.ofNat 64 (max a.pn.toNat y.pn.toNat) | none => a.pn
  { x with txSas := (x.txSas.filter fun y => y.an ≠ a.an) ++ [{ a with pn := pn }] }

/-- A receive association is installed: of a third, it replaces the one with the lower highest-accepted packet number. The initial
packet number is the first that it accepts. -/
def Port.installRx (x : Port) (a : MacsecSa) : Port :=
  let rest := x.rxSas.filter fun y => y.an ≠ a.an
  match rest with
  | [y, z] => { x with rxSas := [if y.pn.toNat < z.pn.toNat then z else y, a] }
  | _ => { x with rxSas := rest ++ [a] }

/-- MACSEC_SA (R347, R350). -/
def execMacsecSa (peer : Fin 16384) (tag : BitVec 16) (transmit : Bool) (an : Fin 4) (sak salt : List Byte) (ssci : Word) (sci pn : W64)
    (s : State) : Host.Outcome State Fault Refusal :=
  s.done (s.mgmt peer.val 0x20 tag .admin fun s =>
    if sak.length ≠ 32 || salt.length ≠ 12 then (s, mgmtBadOp, [])
    else
      let a : MacsecSa := ⟨an.val, pn, sak, salt, ssci, sci⟩
      (s.setPort (if transmit then s.net.port.installTx a else s.net.port.installRx a), mgmtOk, []))

/-- Every SAK is erased. -/
def State.clearSaks (s : State) : State := s.setPort { s.net.port with txSas := [], rxSas := [] }

/-- MACSEC_CLEAR (R347). -/
def execMacsecClear (peer : Fin 16384) (tag : BitVec 16) (s : State) : Host.Outcome State Fault Refusal :=
  s.done (s.mgmt peer.val 0x21 tag .admin fun s => (s.clearSaks, mgmtOk, []))

/-! ### The tag area (R349) -/

/-- A piece in a buffer. -/
def patch (b : Bytes) (off : Nat) (data : Bytes) : Bytes := b.take off ++ data ++ b.drop (off + data.length)

/-- TAG_STAGE: a piece goes into the staging buffer, which the first piece after a commit fills from the valid copy. -/
def State.stageTag (s : State) (off : Nat) (data : Bytes) : State × Nat × Bytes :=
  if off + data.length > 4096 then (s, mgmtBadOp, [])
  else (s.setSec { s.sec with staging := some (patch (s.sec.staging.getD s.sec.tagData) off data) }, mgmtOk, [])

/-- TAG_STAGE (R347, R349). -/
def execTagStage (peer : Fin 16384) (tag : BitVec 16) (offset : BitVec 16) (data : List Byte) (s : State) :
    Host.Outcome State Fault Refusal :=
  s.done (s.mgmt peer.val 0x30 tag .admin fun s => s.stageTag offset.toNat data)

/-- TAG_COMMIT: the staged buffer is written over the copy that is not valid, with the next sequence. -/
def State.commitTag (s : State) (expected : Word) (digest : Bytes) : State × Nat × Bytes :=
  let data := s.sec.staging.getD s.sec.tagData
  if expected ≠ s.sec.tagSeq then (s, mgmtStale, [])
  else if Config.sha512 data ≠ digest then (s, mgmtSignature, [])
  else
    let c : TagCopy := ⟨data, s.sec.tagSeq + 1, true⟩
    let x := if s.sec.validTag = some false then { s.sec with copyB := c } else { s.sec with copyA := c }
    (s.setSec { x with staging := none }, mgmtOk, [])

/-- TAG_COMMIT (R347, R349). -/
def execTagCommit (peer : Fin 16384) (tag : BitVec 16) (expected : Word) (digest : List Byte) (s : State) :
    Host.Outcome State Fault Refusal :=
  s.done (s.mgmt peer.val 0x31 tag .admin fun s => s.commitTag expected digest)

/-! ### Firmware slots (R337, R338, R347, R353) -/

/-- The inactive slot: the one that does not run. -/
def Sec.inactive (sec : Sec) : Bool := otherSlot (sec.running.getD sec.record.active)

/-- Bytes of a slot (R335). -/
def fwSlotSize : Nat := 384 * 2 ^ 20

/-- FW_STAGE: data goes into the inactive slot; refused during a trial boot until confirmation (R353). -/
def State.stageFw (s : State) (off : Nat) (data : Bytes) : State × Nat × Bytes :=
  if s.sec.onTrial then (s, mgmtState, [])
  else if off + data.length > fwSlotSize then (s, mgmtBadOp, [])
  else
    let old := s.sec.slot s.sec.inactive
    let new := patch (old ++ List.replicate (off - old.length) 0) off data
    let x := if s.sec.inactive then { s.sec with slotB := new } else { s.sec with slotA := new }
    (s.setSec { x with verified := false }, mgmtOk, [])

/-- FW_STAGE (R347). -/
def execFwStage (peer : Fin 16384) (tag : BitVec 16) (offset : Word) (data : List Byte) (s : State) : Host.Outcome State Fault Refusal :=
  s.done (s.mgmt peer.val 0x40 tag .admin fun s => s.stageFw offset.toNat data)

/-- FW_VERIFY: the inactive slot is checked under R337. -/
def State.verifyFw (s : State) : State × Nat × Bytes :=
  if !fwSignatureGood (s.sec.slot s.sec.inactive) then (s, mgmtSignature, [])
  else if fwVersion (s.sec.slot s.sec.inactive) < s.sec.fwFloor then (s, mgmtFloor, [])
  else (s.setSec { s.sec with verified := true }, mgmtOk, [])

/-- FW_VERIFY (R337, R347). -/
def execFwVerify (peer : Fin 16384) (tag : BitVec 16) (s : State) : Host.Outcome State Fault Refusal :=
  s.done (s.mgmt peer.val 0x41 tag .admin fun s => s.verifyFw)

/-- FW_ACTIVATE: after a passed FW_VERIFY with no FW_STAGE since, the next boot tries the inactive slot on trial. -/
def State.activateFw (s : State) : State × Nat × Bytes :=
  if !s.sec.verified then (s, mgmtState, [])
  else (s.setSec { s.sec with record := ⟨s.sec.inactive, true, false⟩ }, mgmtOk, [])

/-- FW_ACTIVATE (R338, R347). -/
def execFwActivate (peer : Fin 16384) (tag : BitVec 16) (s : State) : Host.Outcome State Fault Refusal :=
  s.done (s.mgmt peer.val 0x42 tag .admin fun s => s.activateFw)

/-! ### Attestation (R348) -/

/-- Interval counter periods of a second. -/
def periodsPerSecond : Nat := 156250000

/-- The running second: at its start `SEC_ATTEST_RATE` applies and the quotes are counted anew. -/
def State.attestSecond (s : State) : State :=
  let now := BitVec.ofNat 64 (s.lic.toNat / periodsPerSecond)
  if now = s.sec.second then s
  else (s.applyStaged Reg.SEC_ATTEST_RATE).setSec { s.sec with second := now, quotes := 0 }

/-- What the configuration measurement covers. -/
def State.measured (s : State) : Bytes :=
  s.sweepSlots.flatMap fun k =>
    [BitVec.ofNat 8 k] ++ slice (AMap.getD s.loader.headers k []) 0x40 64 ++ crcBytes ((s.loader.activeCopy s.loader.record k).getD [])

/-- The quote up to its signature, its integers in network byte order (00 R9: a network payload; log 78). The slot is the one that the slot record names as active (15 R369). -/
def State.quoteBody (s : State) (nonce : Bytes) : Bytes :=
  let fw := s.sec.slot s.sec.record.active
  beBytes 4 0x544F5551 ++ beBytes 4 ((if s.sec.record.trial then 1 else 0) + (if s.sec.record.active then 2 else 0)) ++
    beBytes 8 Config.serial.toNat ++ nonce ++ beBytes 4 s.loader.record.seq.toNat ++ beBytes 4 s.loader.record.defined.toNat ++
    beBytes 2 (fwVersion fw) ++ beBytes 2 (fwBuild fw) ++ beBytes 4 s.sec.tagSeq.toNat ++ Config.sha512 (fwSigned fw) ++
    Config.sha512 s.measured ++ Config.sha512 s.sec.tagData ++ beBytes 8 s.lic.toNat ++ beBytes 8 s.sec.eraseCount.toNat

/-- An ATTEST request: beyond the rate it is dropped and counted; else the quote answers it, with the identity certificate if asked. -/
def State.attested (s0 : State) (peer : Option Nat) (source : NetEnd) (nonce : Bytes) (cert : Bool) : State :=
  let s := s0.attestSecond
  if s.sec.quotes ≥ fld (s.reg Reg.SEC_ATTEST_RATE) 9 0 then (match peer with | some p => s.effectOf p 6 | none => s).count16 Reg.SEC_ATTEST_DROP
  else
    let body := s.quoteBody nonce
    let reply := body ++ Config.identitySign body ++ (if cert then Config.idCertificate else [])
    let s1 := (s.setSec { s.sec with quotes := s.sec.quotes + 1 }).countWrap Reg.SEC_ATTESTS 1
    match peer with
    | some p => (s1.effectOf p 6).mgmtReply p 0 0 mgmtOk reply
    | none => s1.unbound source 0 0 mgmtOk reply

/-- ATTEST (R348): from any source. A nonce that is not 32 bytes long makes a message whose lengths disagree (10 R245). -/
def execAttest (who : Attester) (nonce : List Byte) (flags : Byte) (s : State) : Host.Outcome State Fault Refusal :=
  s.done (
    if !s.inService then s
    else if nonce.length ≠ 32 then s.count32 Reg.EB_RX_REFUSED 1
    else s.attested (who.peer.map (·.val)) who.source nonce (bit flags 0))

/-! ### Owner-state erase (R352) -/

/-- The erase ends: the owner state, the SAKs and the firmware data region are gone, and the device may leave reset. -/
def State.eraseEnd (s : State) : State :=
  let s1 := (s.setSec { eraseOwner s.sec with erasing := false }).clearSaks
  let s2 : State := { s1 with power := { s1.power with address := none, records := List.replicate 20 none, erasePending := false } }
  if s2.power.resetN then s2.resetHigh else s2

/-- ERASE_COMPLETE (R352). -/
def execEraseComplete (s : State) : Host.Outcome State Fault Refusal := s.done (if s.sec.erasing then s.eraseEnd else s)

end Sys2Proof.Machine
end

