-- ==== Sys2Proof/Machine/Repair.lean ====
section
/-! DEFINITION. In-service repair: Silo fences, DIMM replacement, granule retirement, the patrol scrub, and live firmware handover (15 R366 to
R375; 03 R53, R54). -/

namespace Sys2Proof.Machine

/-! ### Pages and tables by place -/

/-- Entries of a table (03 R60). -/
def tableLength (level : Nat) : Nat := if level = 4 then 32 else 512

/-- What the tables under one table hold: leaves (true) and pointers (false), each with its virtual address, the address of its entry, and
its entry; a pointer stands before what it leads to. -/
def State.walkTables (s : State) (b : Nat) : Nat → Nat → Nat → Nat → List (Bool × Nat × Nat × W64)
  | 0, _, _, _ => []
  | fuel + 1, level, table, va =>
    (List.range (tableLength level)).flatMap fun i =>
      let addr := table + i * 8
      let e := s.phys64 addr
      let v := va + i * levelSpan level
      if !ptePresent e then []
      else if ptePointer e then
        if s.malformed b v level e then [] else (false, v, addr, e) :: s.walkTables b fuel (level + 1) (nextTable level e) v
      else if leafLevel (pteSizeCode e) = some level then [(true, v, addr, e)]
      else []

/-- The entries of a bay's tables. -/
def State.entries (s : State) (b : Nat) : List (Bool × Nat × Nat × W64) :=
  match s.bayDef b with
  | some d => s.walkTables b 5 0 d.root 0
  | none => []

/-- Bytes that an entry names: the page of a leaf, the 4 KiB frame of a table. -/
def entrySize (leaf : Bool) (e : W64) : Nat := if leaf then (pageSize (pteSizeCode e)).getD 0x10000 else 4096

/-- A range of physical addresses. -/
abbrev Span := Nat × Nat

def Span.meets (x : Span) (a len : Nat) : Bool := decide (a < x.1 + x.2 ∧ x.1 < a + len)

/-- The leaves, or the tables, of all bays that lie in a range; a leaf in a peer's memory lies in none. -/
def State.lying (s : State) (x : Span) (leaf : Bool) : List (Nat × Nat × Nat × W64) :=
  s.definedBays.flatMap fun b =>
    ((s.entries b).filter fun t => t.1 = leaf && !(leaf && pteTier t.2.2.2 = 3) &&
      x.meets (pteFrame t.2.2.2 * 4096) (entrySize leaf t.2.2.2)).map fun t => (b, t.2)

/-- Issue a migration of every leaf page of a range that is SETTLED and not moving, within its tier (R370 step 2, R372). A page that is not
SETTLED waits for the next retry. -/
def State.issueRepair (s : State) (x : Span) : State :=
  (s.lying x true).foldl (fun (s : State) t =>
    if pteState t.2.2.2 = settled then s.issueMig t.1 t.2.1 (pteTier t.2.2.2) false .repair else s) s

/-- No frame of the tier can take a page of the range that waits (R370, R371). -/
def State.noRoom (s : State) (x : Span) : Bool :=
  (s.lying x true).any fun t =>
    let size := entrySize true t.2.2.2
    let span := tierSpan (pteTier t.2.2.2) none
    pteState t.2.2.2 = settled && !s.hasMig t.1 t.2.1 &&
      (searchFrom (fun i => s.freeRun ((span.1 + i * size) / 65536) (size / 65536)) (span.2 / size) (span.2 / size) 0).isNone

/-- Move the granule that holds page tables to another of the same tier: its bytes are copied, every pointer into it is rewritten, the caches
are invalidated at all levels, and the old granule frees (R370 step 3). -/
def State.moveTables (s : State) (b g : Nat) : State :=
  match s.takeFrame (tierOf (g * 65536)) 65536 none with
  | (s1, none) => s1
  | (s1, some f) =>
    let s2 := (s1.setOwners (f / 65536) 1 b).moveBytes (g * 65536) f 65536
    let s3 := (s2.lying (g * 65536, 65536) false).foldl (fun (s : State) t =>
      let addr := if t.2.2.1 / 65536 = g then f + t.2.2.1 % 65536 else t.2.2.1
      s.physWrite64 addr (pteWith t.2.2.2 51 12 ((f + pteFrame t.2.2.2 * 4096 % 65536) / 4096))) s2
    (s3.dropCached b true true 0 0).freeFrame b (g * 65536) 65536

/-- The granules with page tables in a range, once each, with their bays. -/
def State.tableGranules (s : State) (x : Span) : List (Nat × Nat) :=
  ((s.lying x false).map fun t => (t.1, pteFrame t.2.2.2 * 4096 / 65536)).eraseDups

/-! ### The operations (R370 to R374) -/

/-- The running operation. -/
def State.setRepair (s : State) (x : Option Repair) : State := { s with tel := { s.tel with running := x } }

/-- Bytes that an operation drains. -/
def Repair.span (x : Repair) : Span :=
  match x.kind with
  | .siloFence => unitSpan (1, x.target)
  | .dimmRemove => unitSpan (2, x.target)
  | .dimmInsert => unitSpan (2, x.target)
  | _ => (x.target * 65536, 65536)

/-- What `REP_STATUS` shows as the target: a retirement shows the index of its granule's unit. -/
def Repair.shown (x : Repair) : Nat := if x.kind = .retire then memUnit (x.target * 65536) % 256 else x.target

/-- The MGMT op of an operation (R374). -/
def Repair.op (x : Repair) : Nat :=
  match x.kind with
  | .siloFence => 0x63 | .dimmRemove => 0x61 | .dimmInsert => 0x62 | .fwHandover => 0x60
  | _ => 0

/-- The log of an operation that ends (R355). -/
def State.repairLog (s : State) (x : Repair) (result : Nat) : State :=
  match x.kind with
  | .siloFence => s.log 0xFF 0x0006 (telUnit 2 x.target) (w32 (x.step + result * 256)) x.pages
  | .dimmRemove => s.log 0xFF 0x0007 (telUnit 3 x.target) (w32 (1 + result * 256)) (AMap.getD s.tiers.dimms x.target 0)
  | .dimmInsert => s.log 0xFF 0x0007 (telUnit 3 x.target) (w32 (2 + result * 256)) (AMap.getD s.tiers.dimms x.target 0)
  | .fwHandover =>
    let fw := s.sec.slot (if result = mgmtOk then s.sec.record.active else s.sec.inactive)
    s.log 0xFF 0x000A telNone (w32 result) (fwVersion fw + fwBuild fw * 65536)
  | .retire =>
    if result = mgmtOk then s.log 0xFF 0x0005 (memUnit (x.target * 65536)) (w32 x.pages) (x.target * 65536) else s
  | _ => s

/-- An operation ends: its log, its status, its reply. -/
def State.endRepair (s : State) (x : Repair) (result : Nat) : State :=
  let s1 := ((s.setRepair none).repairLog x result).repairShown x.kind x.shown x.step result
  match x.reply with
  | some (p, tag) => s1.mgmtReply p x.op tag result []
  | none => s1

/-- Mark or clear the draining of a row or channel. -/
def State.markDrain (s : State) (x : Repair) (on : Bool) : State :=
  let row := if x.kind = .siloFence then 1#32 <<< x.target else 0
  let ch := if x.kind = .dimmRemove then 1#8 <<< x.target else 0
  { s with tel := { s.tel with
      draining := if on then s.tel.draining ||| row else s.tel.draining &&& ~~~row
      channelDraining := if on then s.tel.channelDraining ||| ch else s.tel.channelDraining &&& ~~~ch } }

/-- A drain that is done: the row is offline and fenced; the channel is offline, and its DPEN deasserted (R370 step 4, R371). -/
def State.drained (s : State) (x : Repair) : State :=
  if x.kind = .siloFence then
    let s1 := (s.setOffline (1, x.target) true).markDrain x false
    ({ s1 with tel := { s1.tel with fenced := s1.tel.fenced ||| (1#32 <<< x.target) } }).endRepair { x with step := 4 } mgmtOk
  else
    let s1 := (s.setOffline (2, x.target) true).markDrain x false
    ({ s1 with power := { s1.power with dpen := s1.power.dpen &&& ~~~(1#8 <<< x.target) } }).setRepair
      (some { x with step := 5, since := s.lic })

/-- A drain goes on (R370, R371): pages are migrated, then tables are moved; once no granule of it is owned it is done. Without room a fence
ends with STATE and its row stays marked; a channel stays online. -/
def State.drainOn (s : State) (x : Repair) : State :=
  let s1 := s.issueRepair x.span
  if s1.noRoom x.span then
    (if x.kind = .dimmRemove then s1.markDrain x false else s1).endRepair { x with step := 2 } mgmtState
  else if !(s1.lying x.span true).isEmpty then s1.setRepair (some { x with step := 2 })
  else
    let s2 := (s1.tableGranules x.span).foldl (fun (s : State) t => s.moveTables t.1 t.2) s1
    if s2.anyOwned x.span.1 x.span.2 then s2.setRepair (some { x with step := if x.kind = .siloFence then 3 else 2 })
    else s2.drained x

/-- A retirement goes on (R372): the granule's page is migrated within its tier, then the granule is offline and logged. One that is
device-reserved stays as it is. -/
def State.retireOn (s : State) (x : Repair) : State :=
  let off := fun (t : State) => { t with tel := { t.tel with retiring := t.tel.retiring.filter (· ≠ x.target) } }
  let o := s.owner x.target
  if o = ownerReserved then (off s).endRepair x mgmtState
  else if o = ownerFree || o = ownerOffline then
    (((off s).setOwner x.target ownerOffline).countSat Reg.REP_RETIRED 16 0 1).endRepair { x with step := 2 } mgmtOk
  else
    let s1 := s.issueRepair x.span
    if !(s1.lying x.span true).isEmpty then s1
    else (s1.tableGranules x.span).foldl (fun (s : State) t => s.moveTables t.1 t.2) s1

/-! ### Firmware handover (R369) -/

/-- A processor runs the set that a handover is going to. -/
def Repair.onTarget (x : Repair) (p : Nat) : Bool := x.moved.contains p != x.reverse

/-- A processor boots the set that the handover is going to. -/
def State.bootTarget (s : State) (x : Repair) (p : Nat) : State × Repair :=
  let y := { x with moved := if x.reverse then x.moved.filter (· ≠ p) else setInsert x.moved p }
  let s1 := s.setCp p { s.cp p with state := .booting, role := none }
  ({ s1 with vane := { s1.vane with watchRunning := s1.vane.watchRunning &&& ~~~(1#4 <<< p) } }, y)

/-- Step 3: the slot record names the new set as active, on trial; a handover that reversed leaves the record (R369). -/
def State.handoverEnd (s : State) (x : Repair) : State :=
  if x.reverse then s.endRepair x mgmtState
  else
    let slot := s.sec.inactive
    (s.setSec { s.sec with record := ⟨slot, true, false⟩, running := some slot, onTrial := true, verified := false }).endRepair
      { x with step := 3 } mgmtOk

/-- The handover goes on: the standby boots the set; one on the set takes a role, and the processor that held it boots in its turn. -/
def State.handoverOn (s : State) (x : Repair) : State :=
  match s.tel.cps.find? fun e => e.2.state = .active && !x.onTarget e.1 with
  | none => s.handoverEnd x
  | some (p, c) =>
    match s.standby with
    | none => if s.tel.cps.any fun e => e.2.state = .booting then s else s.endRepair { x with reverse := true } mgmtState
    | some q =>
      if x.onTarget q then
        let s1 := s.setCp q { s.cp q with state := .active, role := c.role }
        let s2 := s1.log 0xFF 0x0009 (telUnit 5 p) (w32 (c.role.getD 0)) q
        let (s3, y) := s2.bootTarget x p
        s3.setRepair (some { y with step := 2 })
      else
        let (s1, y) := s.bootTarget x q
        s1.setRepair (some y)

/-! ### One step of whatever runs -/

/-- The operation that runs goes on; a removed DIMM's reply comes 100 ms after its DPEN fell (R371). -/
def State.repairOn (s : State) : State :=
  match s.tel.running with
  | none => s
  | some x =>
    match x.kind with
    | .siloFence => s.drainOn x
    | .dimmRemove => if x.step = 5 then (if s.since x.since ≥ periodsOfMicros 100000 then s.endRepair x mgmtOk else s) else s.drainOn x
    | .dimmInsert => if bit s.tiers.channelsOnline x.target then s.endRepair x mgmtOk else s
    | .fwHandover => s.handoverOn x
    | .retire => s.retireOn x
    | _ => s

/-- A repair begins. -/
def State.beginRepair (s : State) (x : Repair) : State :=
  let s1 := (s.markDrain x true).setRepair (some { x with step := 1, since := s.lic })
  match x.kind with
  | .retire => { s1 with tel := { s1.tel with retiring := setInsert s1.tel.retiring x.target } }
  | _ => s1

/-- Repairs of firmware's own wait behind a running operation (R374); the next begins when none runs. -/
def State.nextRepair (s : State) : State :=
  match s.tel.running, s.tel.waiting with
  | none, x :: rest => ({ s with tel := { s.tel with waiting := rest } }).beginRepair x
  | _, _ => s

/-- Queue a repair of firmware's own, once. -/
def State.askRepair (s : State) (kind : RepairKind) (target : Nat) : State :=
  let same := fun (x : Repair) => x.kind = kind && x.target = target
  let own : Repair := ⟨kind, target, 1, none, 0, [], false, s.lic⟩
  if s.tel.waiting.any same || (s.tel.running.any same) then s
  else
    ({ s with tel := { s.tel with waiting := s.tel.waiting ++ [own] } }).nextRepair.repairOn

/-- A MGMT operation that is answered at its end (R342, R374): refused at once, or begun with its reply owed. -/
def State.mgmtBegin (s : State) (p op : Nat) (tag : BitVec 16) (role : Role) (kind : RepairKind) (target : Nat)
    (fault : State → Option Nat) (prepare : State → State) : State :=
  if (s.session p).isNone then s.refuseMsg p 7
  else if !s.peerRole p role then (s.roleRefused.effectOf p 7).mgmtReply p op tag mgmtRole []
  else if s.tel.running.isSome then (s.effectOf p 7).mgmtReply p op tag mgmtBusy []
  else
    let s := s.effectOf p 7
    match fault s with
    | some c => s.mgmtReply p op tag c []
    | none => ((prepare s).beginRepair ⟨kind, target, 1, some (p, tag), 0, [], false, s.lic⟩).repairOn.nextRepair

/-- FW_HANDOVER (R369): after a passed FW_VERIFY with no FW_STAGE since, and not during a trial boot. -/
def execFwHandover (peer : Fin 16384) (tag : BitVec 16) (s : State) : Host.Outcome State Fault Refusal :=
  s.done (s.mgmtBegin peer.val 0x60 tag .admin .fwHandover 0
    (fun s => if !s.sec.verified || s.sec.onTrial || s.standby.isNone then some mgmtState else none) id)

/-- A channel that a MGMT request names: 0 to 7, and not in training (16 R384). -/
def State.channelFault (s : State) (channel : Byte) : Option Nat :=
  if channel.toNat > 7 then some mgmtBadOp else if bit s.power.training channel.toNat then some mgmtState else none

/-- DIMM_REMOVE (R371). -/
def execDimmRemove (peer : Fin 16384) (tag : BitVec 16) (channel : Byte) (s : State) : Host.Outcome State Fault Refusal :=
  s.done (s.mgmtBegin peer.val 0x61 tag .configure .dimmRemove channel.toNat (fun s => s.channelFault channel) id)

/-- DPEN is asserted and the channel trains in full (R371, 16 R381). Which DIMM is there, what its SPD hub says, and whether it trains, is the
card's: free values. -/
def State.insertDimm (s0 : State) (g : Nat) : State :=
  let (v, s1) := s0.draw
  let (id, s) := s1.draw
  let size := fld v 8 0 % 257
  let good := size ≠ 0 && !bit v 9
  let on := if good then 1#8 <<< g else 0
  let s2 : State := { s with tiers := { s.tiers with
      dimms := AMap.set s.tiers.dimms g size, dimmIds := AMap.set s.tiers.dimmIds g (leBytes 8 id.toNat) } }
  let s3 := if good then s2.trainChannel g true else s2
  { s3 with power := { s3.power with dpen := (s3.power.dpen &&& ~~~(1#8 <<< g)) ||| on, training := s3.power.training ||| on } }

/-- A channel whose DIMM does not train ends the insertion with STATE (16 R382). -/
def State.insertFailed (s : State) (g : Nat) : State :=
  match s.tel.running with
  | some x =>
    if x.kind = .dimmInsert && x.target = g && !bit s.power.training g && !bit s.tiers.channelsOnline g then s.endRepair x mgmtState else s
  | none => s

/-- DIMM_INSERT (R371). -/
def execDimmInsert (peer : Fin 16384) (tag : BitVec 16) (channel : Byte) (s : State) : Host.Outcome State Fault Refusal :=
  s.done ((s.mgmtBegin peer.val 0x62 tag .configure .dimmInsert channel.toNat
    (fun s => (s.channelFault channel).orElse fun _ => if bit s.tiers.channelsOnline channel.toNat then some mgmtState else none)
    fun s => s.insertDimm channel.toNat).insertFailed channel.toNat)

/-- GRANARY_CHANNEL_ONLINE (16 R384): it ends a DIMM_INSERT of the channel. -/
def execGranaryChannelOnline (channel : Fin 8) (s : State) : Host.Outcome State Fault Refusal :=
  let t := s.channelOnline channel.val
  s.done (match t.tel.running with
    | some x => if x.kind = .dimmInsert && x.target = channel.val then t.repairOn.nextRepair else t
    | none => t)

/-- SILO_FENCE (R370). -/
def execSiloFence (peer : Fin 16384) (tag : BitVec 16) (row : Byte) (s : State) : Host.Outcome State Fault Refusal :=
  s.done (s.mgmtBegin peer.val 0x63 tag .configure .siloFence row.toNat
    (fun _ => if row.toNat > 31 then some mgmtBadOp else none) id)

/-- AUTO_FENCE (R373): rows whose channels have returned enough uncorrectable errors within one patrol pass are fenced. -/
def State.autoFence (s : State) : State :=
  let p := s.reg Reg.REP_POLICY
  if !bit p 16 then s
  else
    ((List.range 32).filter fun r => decide (AMap.getD s.tel.rowUes r 0 ≥ max 1 (fld p 7 0)) && !bit s.tiers.rowsOffline r &&
      !bit s.tel.draining r).foldl (fun (s : State) r => s.askRepair .siloFence r) s

/-- AUTO_MOVE asks for a move of a core (R373): a core of a bay that a core fault has fenced, or whose crib corrected errors in the running hour
exceed CORE_CE × 1,024. -/
def State.wantsMove (s : State) (n : Nat) : Bool :=
  (s.coreBay n).isSome &&
    ((s.core n).faultFenced || decide (AMap.getD s.tel.cribErrors n 0 > fld (s.reg Reg.REP_POLICY) 15 8 * 1024))

/-- Firmware issues MOVE for a core once (R373, 02 R47). Where the spare of its die is substituted or has failed, the core stays as it is, and
MOVE is logged with result 0x0D. -/
def State.moveFor (s : State) (n : Nat) : State :=
  let b := (s.coreBay n).getD 0
  let s1 : State := { s with tel := { s.tel with moveAsked := setInsert s.tel.moveAsked n } }
  if (substituted s.loader.record (n / 9)).isSome || bit s.loader.spareFailed (n / 9) then s1.moveLog ⟨b, n, false, .selfTest⟩ 0x0D
  else s1.moveOp b n false

/-- AUTO_MOVE at a check: the count of an hour ends with it; then the first core that wants a move, while the loader takes commands and no service
operation runs (R374). -/
def State.autoMove (s : State) : State :=
  let s1 : State := { s with tel := { s.tel with moveAsked := s.tel.moveAsked.filter s.wantsMove } }
  let s2 : State :=
    if s1.since s1.tel.cribHour < periodsOfMicros 3600000000 then s1
    else { s1 with tel := { s1.tel with cribErrors := [], cribHour := s1.lic } }
  if !bit (s.reg Reg.REP_POLICY) 17 || s.tel.running.isSome || s.loader.state ≠ .idle || s.loader.move.isSome then s2
  else
    match (List.range 36).find? fun n => s1.wantsMove n && !s1.tel.moveAsked.contains n with
    | some n => s2.moveFor n
    | none => s2

/-- FENCE_RETRY (R370): every 10 ms, what a repair waits for is tried again, the policy is checked, and a waiting repair begins. -/
def execFenceRetry (s : State) : Host.Outcome State Fault Refusal :=
  s.done (if s.inService then ((s.applyStaged Reg.REP_POLICY).repairOn.nextRepair).autoFence.autoMove else s)

/-- GRANULE_RETIRE (R372, R373): firmware retires the granule that holds an address, while AUTO_RETIRE is set. -/
def execGranuleRetire (address : Nat) (s : State) : Host.Outcome State Fault Refusal :=
  if !s.backed address then .fault (.unbackedAddress address)
  else
    let s1 := s.applyStaged Reg.REP_POLICY
    s.done (if bit (s1.reg Reg.REP_POLICY) 18 then s1.askRepair .retire (granuleOfAddr address) else s1)

/-- CP_BOOT_DONE (R368): a processor that boots becomes the standby, and its watchdog starts; a handover goes on. -/
def execCpBootDone (cp : Fin 4) (s : State) : Host.Outcome State Fault Refusal :=
  let x := s.cp cp.val
  s.done (
    if x.state = .booting then
      let s1 := s.setCp cp.val { x with state := .standby }
      let s2 : State := { s1 with vane := { s1.vane with
          watchRunning := s1.vane.watchRunning ||| (1#4 <<< cp.val), expiredAt := AMap.erase s1.vane.expiredAt cp.val } }
      match s2.tel.running with
      | some y => if y.kind = .fwHandover then (s2.handoverOn y).nextRepair else s2
      | none => s2
    else s)

/-! ### Scrub and stack reports (03 R53, R54; 15 R373) -/

/-- The scrub reads one line: a corrected error counts, an uncorrectable one marks the line as R54 gives. The first line of the Silo begins
a pass (R373). -/
def State.scrub (s : State) (a : Nat) (f : ScrubFinding) : State :=
  let s0 : State := if a / 64 = siloBase / 64 then { s with tel := { s.tel with rowUes := [] } } else s
  match f with
  | .clean => s0
  | .corrected => s0.countSat (Reg.MT_ERR_CE (errUnit a)) 32 0 1
  | .uncorrectable =>
    let s1 : State := { s0 with ue := setInsert s0.ue (a / 64) }
    ((s1.meetUe (a / 64 * 64) 64).applyStaged Reg.REP_POLICY).autoFence

/-- PATROL_SCRUB (03 R53). -/
def execPatrolScrub (address : Nat) (finding : ScrubFinding) (s : State) : Host.Outcome State Fault Refusal :=
  if !s.backed address then .fault (.unbackedAddress address) else s.done (s.scrub address finding)

/-- STACK_CHANNEL_FAILED (R366, R373): a stack reports its channel of a row: it is logged, and under AUTO_FENCE the row is fenced. -/
def execStackChannelFailed (stack : Fin 8) (row : Fin 32) (s : State) : Host.Outcome State Fault Refusal :=
  let s1 := (s.applyStaged Reg.REP_POLICY).log 0xFF 0x0006 (telUnit 2 row.val) 0 0
  s.done (if bit (s1.reg Reg.REP_POLICY) 16 && decide (stack.val < 8) && !bit s1.tiers.rowsOffline row.val then
    s1.askRepair .siloFence row.val else s1)

end Sys2Proof.Machine
end

