-- ==== Sys2Proof/Machine/Telemetry.lean ====
section
/-! DEFINITION. The telemetry hub: records from other sources, squall, summaries, export, replay and the alarm list (15 R354 to R365,
R374). -/

namespace Sys2Proof.Machine

/-! ### Records that the hub makes (R356) -/

/-- The GAP record of a sub-ring. -/
def gapRecord (r : Nat) (x : SubRing) (now : W64) : Bytes :=
  recordHead 4 3 (ringBay r) 0 now ++ leBytes 2 0 ++ leBytes 2 telNone ++ leBytes 4 x.level.code ++ leBytes 4 x.gap.sampledOut ++
    leBytes 4 x.gap.dropped ++ leBytes 4 x.gap.coalesced ++ leBytes 4 x.gap.lost ++ leBytes 8 x.gapStart.toNat

/-- Write a GAP record (R364): its counts are added to the counters; one that finds no room leaves its counts to the next. -/
def State.writeGap (s : State) (r : Nat) : State :=
  let x := s.ring r
  match x.write x.size (gapRecord r x s.lic) with
  | none => s
  | some y =>
    let s1 := s.setRing r { y with gap := .zero, gapStart := s.lic }
    ((s1.count32 (Reg.TEL_SAMPLED_OUT r) x.gap.sampledOut).count32 (Reg.TEL_DROPPED r) (x.gap.dropped + x.gap.lost)).count32
      (Reg.TEL_COALESCED r) x.gap.coalesced

/-- The SUMMARY record of an entry. -/
def summaryRecord (e : SummaryEntry) (now : W64) : Bytes :=
  recordHead 5 3 e.bay 0 now ++ leBytes 2 e.entry.code ++ leBytes 2 e.entry.unit ++ leBytes 4 e.entry.count ++
    leBytes 8 e.entry.first.toNat ++ leBytes 8 e.entry.latest.toNat ++ leBytes 8 e.entry.arg1.toNat

/-- Write the summary entries that a test picks; one that finds no room stays in the table (R363). -/
def State.flushSummaries (s : State) (f : SummaryEntry → Bool) : State :=
  let step := fun (acc : State × List SummaryEntry) (e : SummaryEntry) =>
    let x := acc.1.ring e.ring
    if !f e then (acc.1, acc.2 ++ [e])
    else
      match x.write x.size (summaryRecord e acc.1.lic) with
      | some y => (acc.1.setRing e.ring y, acc.2)
      | none => (acc.1, acc.2 ++ [e])
  let r := s.tel.summaries.foldl step (s, [])
  { r.1 with tel := { r.1.tel with summaries := r.2 } }

/-- The ALARM record of a table entry (R356, R361). -/
def alarmRecord (i : Nat) (e : AlarmEntry) (now : W64) : Bytes :=
  recordHead 3 3 0xFF 0xFFFFFFFF now ++ leBytes 2 e.code ++ leBytes 2 e.unit ++ leBytes 4 e.count ++ leBytes 8 e.first.toNat ++
    leBytes 8 e.latest.toNat ++ leBytes 1 e.action ++ leBytes 1 ((if e.acked then 1 else 0) + (if e.shared then 2 else 0)) ++
    leBytes 2 i ++ leBytes 4 0

/-! ### A record of another source (R354, R358) -/

/-- TELEMETRY_RECORD: a LOG or a TRACE of a source reaches the hub, which stamps its time. Other kinds are the hub's own. -/
def State.recordIn (s : State) (record : Bytes) : State :=
  let kind := leAt record 0 1
  let bay := leAt record 2 1
  let code := leAt record 0x10 2
  let stamped := record.take 8 ++ leBytes 8 s.lic.toNat ++ record.drop 16
  let arg1 := BitVec.ofNat 64 (leAt record 0x18 8)
  if record.length ≠ 32 then s
  else if kind = 1 then s.hubTake false bay code (leAt record 0x12 2) arg1 stamped
  else if kind = 2 && bay < 16 && code ≥ 0x0100 && bit (s.reg Reg.TEL_TRACE_EN) bay && bit (s.reg Reg.TEL_TRACE_CODES) (code - 0x0100) then
    s.hubTake true bay code (leAt record 0x12 2) arg1 stamped
  else s

/-- TELEMETRY_RECORD (R358). -/
def execTelemetryRecord (record : List Byte) (s : State) : Host.Outcome State Fault Refusal := s.done (s.recordIn record)

/-! ### Squall (R362 to R364) -/

/-- The exponent k follows the fill over a tick (R363), in the bytes that are held. -/
def nextK (k old new : Nat) : Nat := if new > old then min 8 (k + 1) else if new < old then max 1 (k - 1) else k

/-- One sub-ring at a 10 ms tick: its level, its exponent, its GAP record; one more GAP on its return to CALM. -/
def State.tickRing (s : State) (r : Nat) : State :=
  let x := s.ring r
  let f := x.fill
  if x.level = .calm then (s.setRing r { x with lastUsed := x.used }).checkEnter r
  else
    let low := if x.level = .sample then decide (f < s.squallExit) else decide (f < s.enter1)
    let y := { x with
      k := if x.level = .sample then nextK x.k x.lastUsed x.used else x.k, lastUsed := x.used, below := if low then x.below + 1 else 0 }
    let s1 := s.setRing r y
    let s2 :=
      if low && decide (y.below ≥ max 1 s.squallHold) then
        if x.level = .coalesce then (s1.setLevel r .sample).flushSummaries fun e => e.ring = r
        else s1.setLevel r .calm
      else s1.checkEnter r
    s2.writeGap r

/-- SQUALL_TICK (R363): staged limits and trace enables apply. -/
def execSquallTick (s : State) : Host.Outcome State Fault Refusal :=
  let s0 := s.applyAll [Reg.TEL_TRACE_EN, Reg.TEL_TRACE_CODES, Reg.TEL_SQUALL_CFG]
  s.done ((AMap.keys s0.tel.rings).foldl State.tickRing s0)

/-- SUMMARY_FLUSH (R363): every 100 ms. Entries that an earlier write left for want of room go too. -/
def execSummaryFlush (s : State) : Host.Outcome State Fault Refusal := s.done (s.flushSummaries fun _ => true)

/-! ### Export (R359, R361) -/

/-- The peer of TELEM messages, while it is VALID. -/
def State.telemPeer (s : State) : Option Nat :=
  if bit (s.reg Reg.EB_TELEM_PEER) 31 then some (fld (s.reg Reg.EB_TELEM_PEER) 13 0) else none

/-- Records of a sub-ring that export has not sent. -/
def SubRing.unsent (x : SubRing) : List TelRecord := x.records.filter fun r => !seqLt r.seq x.sent

/-- The leading records that fit a number of bytes. -/
def fitting (room : Nat) : List TelRecord → List TelRecord
  | [] => []
  | r :: rest => if r.bytes.length > room then [] else r :: fitting (room - r.bytes.length) rest

/-- The sub-ring that is served next: in turn, each as often in a round as its share gives (R359). -/
def State.dueRing (s : State) : Option Nat :=
  let due := s.tel.rings.filter fun e => !e.2.unsent.isEmpty
  match due.find? fun e => decide (e.2.credit > 0) with
  | some e => some e.1
  | none => due.head?.map (·.1)

/-- Take one turn of a sub-ring: where none that waits has a turn left, a round begins. -/
def State.takeTurn (s : State) (r : Nat) : State :=
  let s1 : State :=
    if (s.ring r).credit = 0 then { s with tel := { s.tel with rings := AMap.mapVals (fun _ x => { x with credit := x.share }) s.tel.rings } }
    else s
  s1.setRing r { s1.ring r with credit := (s1.ring r).credit - 1 }

/-- The 16-byte payload header of a TELEM message (R359), in network byte order (10 R245). -/
def telemHeader (count ring flags : Nat) (first : Word) (now : W64) : Bytes :=
  beBytes 2 count ++ beBytes 1 ring ++ beBytes 1 flags ++ beBytes 4 first.toNat ++ beBytes 8 now.toNat

/-- Up to 16 marked alarms, those that fit. -/
def State.markedAlarms (s : State) (room : Nat) : List (Nat × AlarmEntry) :=
  (s.vane.alarms.filter fun e => e.2.mark).take (min 16 (room / 48))

/-- A message of live export: marked alarms, then records of one sub-ring. -/
def State.exportLive (s : State) (p : Nat) : State :=
  let room := s.baleMax - 16
  let alarms := s.markedAlarms room
  let bytes := alarms.map fun e => alarmRecord e.1 e.2 s.lic
  let ring := s.dueRing
  let r := ring.getD 16
  let s1 := if ring.isSome then s.takeTurn r else s
  let x := s1.ring r
  let recs := if ring.isSome then fitting (room - 48 * alarms.length) x.unsent else []
  let first := (recs.head?.map (·.seq)).getD x.sent
  let named := alarms.map (·.1)
  let s2 : State := { s1 with vane := { s1.vane with
      alarms := AMap.mapVals (fun i (e : AlarmEntry) => if named.contains i then { e with mark := false } else e) s1.vane.alarms } }
  let flags := (if x.level = .calm then 0 else 2) + (if alarms.isEmpty then 0 else 4)
  let head := telemHeader (alarms.length + recs.length) r flags first s.lic
  (s2.setRing r { x with sent := first + w32 recs.length }).post p [.telem head r first (bytes ++ recs.map (·.bytes))]

/-- A message of a queued replay: records that the sub-ring still holds; those overwritten count in a GAP record (R374). -/
def State.exportReplay (s : State) (p : Nat) (y : Replay) (rest : List Replay) : State :=
  let x := s.ring y.ring
  let mine := x.records.filter fun r => decide ((r.seq - y.first).toNat < y.count)
  let first := (mine.head?.map (·.seq)).getD (y.first + w32 y.count)
  let lost := (first - y.first).toNat
  let s1 := if lost = 0 then s
    else (s.setRing y.ring { x with gap := { x.gap with lost := x.gap.lost + lost } }).writeGap y.ring
  let recs := fitting (s.baleMax - 16) mine
  let left := y.count - lost - recs.length
  let more := if left = 0 || recs.isEmpty then [] else [{ y with first := first + w32 recs.length, count := left }]
  let s2 : State := { s1 with tel := { s1.tel with replays := more ++ rest } }
  if recs.isEmpty then s2
  else
    s2.post p [.telem (telemHeader recs.length y.ring (1 + if x.level = .calm then 0 else 2) first s.lic) y.ring first (recs.map (·.bytes))]

/-- TELEM_EXPORT: one message, of live export, or of a replay once nothing live waits. -/
def State.telemExport (s0 : State) : State :=
  let s := s0.applyAll [Reg.TEL_CTRL, Reg.EB_BALE_MAX, Reg.EB_TELEM_PEER]
  if !bit (s.reg Reg.TEL_CTRL) 0 then s
  else
    match s.telemPeer with
    | none => s
    | some p =>
      if !s.canSend p then s
      else if (s.vane.alarms.any fun e => e.2.mark) || s.dueRing.isSome then s.exportLive p
      else
        match s.tel.replays with
        | y :: rest => s.exportReplay p y rest
        | [] => s

/-- TELEM_EXPORT (R359). -/
def execTelemExport (s : State) : Host.Outcome State Fault Refusal := s.done s.telemExport

/-! ### Service operations (R374) -/

/-- TEL_REPLAY (R374): queued; refused with STATE while the sub-ring is not CALM. -/
def execTelReplay (peer : Fin 16384) (tag : BitVec 16) (ring : Byte) (first count : Word) (s : State) : Host.Outcome State Fault Refusal :=
  s.done (s.mgmt peer.val 0x64 tag .read fun s =>
    if (AMap.get? s.tel.rings ring.toNat).isNone || count.toNat = 0 || count.toNat > 0x100000 then (s, mgmtBadOp, [])
    else if (s.ring ring.toNat).level ≠ .calm then (s, mgmtState, [])
    else ({ s with tel := { s.tel with replays := s.tel.replays ++ [⟨peer.val, ring.toNat, first, count.toNat⟩] } }, mgmtOk, []))

/-- ALARM_LIST (R374): up to 16 used entries from an index. -/
def execAlarmList (peer : Fin 16384) (tag : BitVec 16) (first : BitVec 16) (s : State) : Host.Outcome State Fault Refusal :=
  s.done (s.mgmt peer.val 0x65 tag .read fun s =>
    (s, mgmtOk, ((s.vane.alarms.filter fun e => decide (first.toNat ≤ e.1)).take 16).flatMap fun e => alarmRecord e.1 e.2 s.lic))

end Sys2Proof.Machine
end

