-- ==== Sys2Proof/Machine/Tap.lean ====
section
/-! DEFINITION. The IEEE 1149.1 test access port, and the owner-state erase that it starts (17 R408, R409; 14 R352). -/

namespace Sys2Proof.Machine

/-- The port works once step 2 of start-up has ended (17 R408). -/
def State.tapLive (s : State) : Bool := s.power.phase ≠ .unpowered

/-- What drives the output lands (17 R408). -/
inductive PinDrive where
  | device | boundary | highZ
  deriving DecidableEq, Repr

/-- EXTEST and CLAMP act only while RESET_N is asserted or in card test; else they act as SAMPLE/PRELOAD. -/
def State.pinDrive (s : State) : PinDrive :=
  match s.tap.instr with
  | .extest => if !s.power.resetN || s.power.straps = 3 then .boundary else .device
  | .clamp => if !s.power.resetN || s.power.straps = 3 then .boundary else .device
  | .highz => .highZ
  | _ => .device

/-! ### Pad states (17 R402) -/

/-- Lands, by group. -/
inductive Pad where
  | audio (port : Nat) | dpen (channel : Nat) | alarmN | drstN (channel : Nat) | granary (channel : Nat) | etx | tdo
  deriving DecidableEq, Repr

/-- What a land shows. -/
inductive PadState where
  | highZ | low | high | pullDown | driven | selfRefresh | idle
  deriving DecidableEq, Repr

/-- Steps 1 to 4 of start-up, or the sequence held there. -/
def State.padsCold (s : State) : Bool := s.power.phase = .startUpHeld || s.power.phase = .cardTest

/-- A warm restart is under way or held. -/
def State.padsWarm (s : State) : Bool := s.power.phase = .restart || s.power.phase = .restartHeld

/-- The state of a land of a powered device. An audio port drives only in LEAD_IN, RUNNING and LEAD_OUT. -/
def State.padOn (s : State) : Pad → PadState
  | .audio p =>
    let x := (s.aport p).state
    if s.padsCold || s.padsWarm then .pullDown
    else if x = .leadIn || x = .running || x = .leadOut then .driven else .pullDown
  | .dpen g => if !s.padsCold && bit s.power.dpen g then .high else .low
  | .alarmN => if s.vane.alarmN then .high else .low
  | .drstN _ => if s.padsCold then .low else .high
  | .granary _ => if s.padsCold then .highZ else if s.padsWarm || s.vane.safe then .selfRefresh else .driven
  | .etx => if s.padsCold || s.padsWarm then .idle else .driven
  | .tdo => .highZ

/-- The state of a land (17 R402): without power, high impedance, but for the card's pull-down at a DPEN. -/
def State.pad (s : State) (x : Pad) : PadState :=
  if s.power.phase = .unpowered then match x with | .dpen _ => .pullDown | _ => .highZ
  else s.padOn x

/-- Select an instruction and what its data register captures. -/
def State.tapSelect (s : State) (i : TapInstr) (data : Word) : State :=
  if s.tapLive then { s with tap := { s.tap with instr := i, data := data } } else s

/-- A scan of the boundary register: the pins are captured, and what was shifted in is held. The levels at the pins are the card's: free
values. -/
def State.boundaryScan (s : State) (i : TapInstr) (boundary : List Bool) : State :=
  if s.tapLive then
    { s with
      free := s.free + boundary.length
      tap := { s.tap with
        instr := i, boundary := boundary
        captured := (List.range boundary.length).map fun k => bit (Config.freeValue (s.free + k)) 0 } }
  else s

/-- IDCODE: revision, part, manufacturer, and 1. -/
def State.idcode (_ : State) : Word := at_ (fld Config.hubVersion 3 0) 28 ||| at_ 0x4160 12 ||| at_ 0x2C9 1 ||| 1

/-- TAP_RESET (17 R408): IDCODE is selected. -/
def execTapReset (s : State) : Host.Outcome State Fault Refusal := s.done (s.tapSelect .idcode s.idcode)

/-- EXTEST (17 R408). -/
def execExtest (boundary : List Bool) (s : State) : Host.Outcome State Fault Refusal := s.done (s.boundaryScan .extest boundary)

/-- SAMPLE_PRELOAD (17 R408). -/
def execSamplePreload (boundary : List Bool) (s : State) : Host.Outcome State Fault Refusal :=
  s.done (s.boundaryScan .samplePreload boundary)

/-- IDCODE (17 R408). -/
def execIdcode (s : State) : Host.Outcome State Fault Refusal := s.done (s.tapSelect .idcode s.idcode)

/-- HIGHZ (17 R408): the outputs are in high impedance, and the bypass register is selected; it captures 0. -/
def execHighz (s : State) : Host.Outcome State Fault Refusal := s.done (s.tapSelect .highz 0)

/-- CLAMP (17 R408): the boundary values are held, with bypass selected. -/
def execClamp (s : State) : Host.Outcome State Fault Refusal := s.done (s.tapSelect .clamp 0)

/-- BYPASS, and every opcode without an instruction of its own (17 R408). -/
def execBypass (s : State) : Host.Outcome State Fault Refusal := s.done (s.tapSelect .bypass 0)

/-- SEC_ERASE (14 R352, 17 R408, R409): at Update-DR with 0x0000_E5A5 and RESET_N asserted the erase starts, its flag first; the data
register is captured in any case. -/
def execSecErase (data : Word) (s : State) : Host.Outcome State Fault Refusal :=
  let t := s.tapSelect .secErase data
  s.done (if s.tapLive && data = 0x0000E5A5 && !s.power.resetN then t.setSec { t.sec with erasing := true } else t)

end Sys2Proof.Machine
end

