-- ==== Sys2Proof/Machine/Live.lean ====
section
/-! DEFINITION. What a register reads: the live conditions and derived values of the registers that no write sets, family by family
("Registers" of every chapter; 12 R290 to R292), and the value in force of the others. -/

namespace Sys2Proof.Machine

/-- A 32-bit word of bytes, little-endian: word i. -/
def wordOf (bs : Bytes) (i : Nat) : Word := w32 (leAt bs (4 * i) 4)

/-! ### Hub (12) -/

def liveHub (s : State) (off : Nat) : Option Word :=
  if 0x1000 ≤ off ∧ off < 0x2000 then some (wordOf s.sec.tagData ((off - 0x1000) / 4))
  else
    match off with
    | 0x4 => some (Config.hubVersion &&& 0x00FFFFFF)
    | 0x8 => some (lo32 Config.serial)
    | 0xC => some (hi32 Config.serial)
    | 0x10 => some (w32 s.power.straps.toNat)
    | 0x14 => some (w32 s.fuses.present.toNat)
    | 0x18 => some (w32 (s.fuses.present.toNat / 2 ^ 32))
    | 0x1C => some (w32 s.fuses.spare.toNat)
    | 0x20 => some (lo32 s.lic)
    | 0x24 => some (hi32 s.lic)
    | 0x30 => some (flag s.commitMask.isSome 0 ||| flag s.commitRefused 1 ||| at_ (s.commitCount % 65536) 16)
    | 0x4C => some (hubEvents s)
    | 0x60 => some s.sec.tagSeq
    | _ => none

/-! ### Configuration loader and CRC monitor (02) -/

def LoadState.code : LoadState → Nat
  | .idle => 0 | .receiving => 1 | .verifying => 2 | .staged => 3 | .lulling => 4 | .applying => 5 | .rejected => 6

/-- `CFG_STATUS` (02). -/
def cfgStatus (l : Loader) : Word :=
  let joined := match l.move with | some m => m.joined | none => false
  at_ l.state.code 0 ||| flag joined 3 ||| flag l.resumeWait 4 ||| at_ (if joined then (l.move.map (·.bay)).getD 0 else 0) 5

/-- A mask of the bays that pass a test. -/
def bayMask (p : Nat → Bool) : Word := (List.range 16).foldl (fun w b => w ||| flag (p b) b) 0

def liveCfg (s : State) (off i : Nat) : Option Word :=
  let l := s.loader
  match off with
  | 0x4 => some (cfgStatus l)
  | 0xC => some (at_ l.errCode 0 ||| at_ l.errSection 8 ||| at_ l.errBay 20)
  | 0x10 => some (w32 l.record.active.toNat)
  | 0x14 => some (w32 l.record.defined.toNat)
  | 0x18 => some l.record.seq
  | 0x1C => some (w32 l.record.spareSub.toNat)
  | 0x20 => some (w32 Config.stageBase)
  | 0x24 => some (w32 (Config.stageBase / 2 ^ 32))
  | 0x28 => some (lo32 l.floor)
  | 0x2C => some (hi32 l.floor)
  | 0x30 => some (lo32 l.record.serial)
  | 0x34 => some (hi32 l.record.serial)
  | 0x38 => some (bayMask fun b => (s.bay b).lullHost)
  | 0x3C => some (bayMask fun b => (s.bay b).lulled)
  | 0x40 => some (w32 ((0x400 * 65536 - min (l.bankBytes false) (l.bankBytes true)) / 65536))
  | 0x4C => some (cfgEvents s)
  | 0x108 => some (at_ (match l.crcState with | .awaitRef => 1 | .comparing => 2) 0 ||| flag l.crcMismatch 2 ||| at_ l.crcSlot 3)
  | 0x118 => some (AMap.getD l.crcSlots i 0)
  | _ => none

/-! ### Translation and memory tiers (03) -/

def liveTrn (s : State) (off : Nat) : Option Word :=
  match off with
  | 0x14 => some (at_ s.trans.invs.length 0 ||| flag s.trans.invFull 7)
  | 0x20 => some (w32 Config.faultQueueBase)
  | 0x24 => some (w32 (Config.faultQueueBase / 2 ^ 32))
  | 0x3C => some (trnEvents s)
  | 0x40 => some (w32 s.trans.fqCount)
  | _ => none

def liveMt (s : State) (off i : Nat) : Option Word :=
  match off with
  | 0x4 => some (w32 (s.capacity 0))
  | 0x8 => some (w32 (s.capacity 1))
  | 0xC => some (w32 (s.capacity 2))
  | 0x14 => some (w32 (s.used i 0))
  | 0x18 => some (w32 (s.used i 1))
  | 0x1C => some (w32 (s.used i 2))
  | 0x3C => some (flag s.tiers.cmdBusy.isSome 0 ||| flag s.tiers.cmdRefused 1 ||| at_ s.tiers.cmdResult 4)
  | 0x40 => some (w32 s.tiers.doubleRefresh.toNat)
  | 0x60 => some (mtEvents s)
  | _ => none

/-- Bank-side engines of a die (05). -/
def liveBse (s : State) (d off : Nat) : Option Word :=
  match off with
  | 0x0 => some (at_ (min (s.bseQueued d) 256) 0 ||| flag (bit s.tiers.doubleRefresh d) 9)
  | 0x20 => some (bseEvents s d)
  | _ => none

/-- Attention walkers (08). -/
def liveAtt (s : State) (off : Nat) : Option Word :=
  match off with
  | 0x8 => some (at_ (s.attQueued 0) 0 ||| at_ (s.attQueued 1) 8 ||| at_ (s.attQueued 2) 16 ||| at_ (s.attQueued 3) 24)
  | 0x28 => some (attEvents s)
  | _ => none

/-- `SQ_STATUS` (08). -/
def sqStatus (x : SeqCtx) : Word :=
  at_ x.state.code 0 ||| flag x.be 3 ||| flag x.pending.isSome 4 ||| flag x.absent 5 ||| flag x.outFull 6 ||| flag x.pageFault 8 |||
    flag x.inflight.isSome 9 ||| flag x.refused 10 ||| at_ x.reason 12

/-- Sequence contexts (08). -/
def liveSeq (s : State) (q off : Nat) : Option Word :=
  let x := s.seqCtx q
  match off with
  | 0x4 => some (sqStatus x)
  | 0x94 => some (at_ x.window 0 ||| at_ (min x.quiet 255) 8)
  | 0xA4 => some (sqEvents s q)
  | _ => none

/-! ### Stream contexts (06, 07) -/

/-- `SC_STATUS` (06). -/
def scStatus (x : Stream) : Word :=
  at_ x.state.code 0 ||| flag x.be 3 ||| flag x.pending.isSome 4 ||| flag x.absent 5 ||| flag x.outFull 6 ||| flag x.alignWait 7 |||
    flag x.stateFault 8 ||| flag x.inflight.isSome 9 ||| flag x.refused 10 ||| at_ x.reason 12

def liveStream (s : State) (sid off : Nat) : Option Word :=
  match off with
  | 0x4 => some (scStatus (s.stream sid))
  | 0x9C => some (scEvents s sid)
  | 0xDC => some (scanEvents s sid ||| flag (s.stream sid).thawing 3 ||| (s.reg (Reg.SC_SCAN_EVENT sid) &&& at_ 7 16))
  | _ => none

/-! ### Cores and their engines (04, 05, 07, 09) -/

/-- `CORE_ID` (04). -/
def coreIdWord (n : Nat) : Word := at_ 0x4160 16 ||| at_ 0x04 8 ||| w32 n

/-- `CORE_STATUS` (04). -/
def coreStatus (s : State) (n : Nat) : Word :=
  let b := s.coreBay n
  at_ (s.coreRole n) 0 ||| at_ (if s.coreRole n = 1 then b.getD 0 else 0) 2 |||
    flag (match b with | some b => s.relay b | none => false) 6 ||| flag (s.held n) 7 ||| at_ (s.core n).slots.length 8

/-- `CORE_STALL_STATE.STATE` of an instance in a slot (04): the stall that issues is RUNNING. -/
def State.stallCode (s : State) (n k : Nat) (x : Inst) : Nat :=
  match x.state with
  | .blocked => 3 | .saving => 4 | .restoring => 5
  | .ready | .resident | .saved | .done | .aborted => if (s.core n).issuing = some k then 1 else 2

/-- `CORE_STALL_STATE` (04). -/
def stallState (s : State) (n k : Nat) : Word :=
  match (AMap.get? (s.core n).slots k).bind s.inst? with
  | some x =>
    at_ (s.stallCode n k x) 0 ||| flag x.desc.be 3 ||| at_ (if x.state = .blocked then x.blockCause else 0) 4 |||
      at_ (min (s.blockedCycles x / 256) 0xFFFFFF) 8
  | none => 0

/-- Programs that run on a core's fetch engine (09 R209). -/
def State.programsRunning (s : State) (n : Nat) : Nat := ((s.residents n).map fun r => r.2.2.active.length).sum

def liveCore (s : State) (n off i : Nat) : Option Word :=
  match off with
  | 0x0 => some (coreIdWord n)
  | 0x4 => some (coreStatus s n)
  | 0x14 => some (stallState s n i)
  | 0x18 => some ((((AMap.get? (s.core n).slots i).bind s.inst?).map (·.seq)).getD 0)
  | 0x1C => some (at_ (s.core n).saved.length 0 ||| at_ ((s.core n).saved.filter s.runnableSaved).length 8)
  | 0x20 => some (w32 (s.cribFree n))
  | 0x24 => some (w32 (((s.coreBay n).map s.lcReserve).getD 0))
  | 0x50 => some (coreEvents s n)
  | 0x118 => some (arithEvents s n)
  | 0x140 => some 0
  | 0x164 => some (sceEvents s n)
  | 0x180 => some (flag (s.programsRunning n ≠ 0) 0 ||| at_ (s.programsRunning n) 1)
  | 0x1AC => some (fxeEvents s n)
  | _ => none

/-! ### Bay registers (04, 06, 09) -/

/-- A program waits on a handle queue (09 R219). -/
def State.consumerWaits (s : State) (q : Nat) : Bool :=
  s.insts.any fun e => ([e.2.input, e.2.weight, e.2.output, e.2.next].filterMap id).any fun p => p.wait = .queue q

/-- `SW_Q_STATUS` (09): zero for a queue outside the bay. -/
def queueStatus (s : State) (b q : Nat) : Word :=
  if (s.queueDefs b).any fun d => d.index = q then
    let x := s.queue q
    at_ x.entries.length 0 ||| flag (decide (x.entries.length ≥ s.queueDepth q)) 11 ||| flag (!x.runs.isEmpty) 12 |||
      flag (s.consumerWaits q) 13
  else 0

/-- `CCH_STATUS` (09). -/
def copyStatus (x : CopyChannel) : Word :=
  flag x.active.isSome 0 ||| flag x.pending.isSome 1 ||| flag x.error 2 ||| flag x.blocked 3 ||| at_ x.cause 8

/-- `BAT_ALIGN_STATUS` (06). -/
def alignStatus (s : State) (b k : Nat) : Word :=
  let a := s.alignSet b k
  at_ (min (s.members b k).length 127) 0 ||| at_ (min a.offered.length 127) 7 ||| flag a.running 14 ||| flag a.timing.isSome 15

/-- The graph's shape as `BAT_SHAPE` gives it (06): zero while no stream of the graph has fixed it. -/
def shapeWord (s : State) (b g : Nat) : Word :=
  match AMap.get? (s.batcher b).shapes g with
  | some x => at_ x.frame 0 ||| at_ x.l 16 ||| at_ x.f 24 ||| at_ 1 31
  | none => 0

def liveBay (s : State) (b off i : Nat) : Option Word :=
  let y := s.bay b
  if 0x300 ≤ off then
    if (off - 0x300) % 0x40 = 0x1C then some (copyStatus (s.channel b ((off - 0x300) / 0x40))) else none
  else
    match off with
    | 0x0 => some (at_ b 0 ||| flag (s.bayDef b).isSome 4 ||| flag (s.relay b) 5 ||| flag y.lulled 6)
    | 0x4 => some (w32 y.readyLc.length)
    | 0x8 => some (w32 y.readyBe.length)
    | 0x14 => some (flag y.submitWait.isSome 0 ||| flag y.submitRefused 1 ||| at_ y.submitReason 4)
    | 0x108 => some (w32 (s.batchSlotsFree b))
    | 0x114 => some (shapeWord s b i)
    | 0x118 => some (w32 (s.activeOn b i false).length)
    | 0x11C => some (w32 (((AMap.get? (s.batcher b).openBatches i).map (·.rows.length)).getD 0))
    | 0x13C => some (alignStatus s b i)
    | 0x14C => some (batEvents s b)
    | 0x214 => some (w32 (s.poolCount b i - (s.pool b i).taken.length))
    | 0x224 => some (queueStatus s b i)
    | 0x228 => some (if (s.queueDefs b).any fun d => d.index = i then w32 (s.queue i).high else 0)
    | 0x22C => some (if (s.queueDefs b).any fun d => d.index = i then (s.queue i).pushes else 0)
    | 0x24C => some (flag y.cancelBusy.isSome 0 ||| flag y.cancelRefused 1 ||| at_ y.cancelReason 4)
    | 0x260 => some (swEvents s b)
    | _ => none

/-! ### Ethernet and Bale (10) -/

def LinkState.code : LinkState → Nat
  | .down => 0 | .training => 1 | .up8 => 2 | .up4 => 3

/-- `EB_PORT_STATUS` (10). -/
def portStatus (x : Port) : Word :=
  at_ x.link.code 0 ||| flag (x.link = .up4 && x.group) 3 ||| flag x.cr 4 ||| flag (!x.txSas.isEmpty) 5 ||| at_ x.failed.toNat 6

/-- `EB_PEER_STATE` (10): UNUSED while the entry is not VALID. -/
def peerState (s : State) (p : Nat) : Word :=
  let x := s.peer p
  at_ (if s.peerKind p = 0 then 0 else if x.down then 2 else 1) 0 ||| flag (s.session p).isSome 2 ||| at_ x.unacked.length 4

def ConnState.code : ConnState → Nat
  | .idle => 0 | .rts => 1 | .error => 2

/-- Live registers of the port; queue bindings of a queue of no bay read zero. -/
def liveEth (s : State) (off i : Nat) : Option Word :=
  match off with
  | 0x4 => some (portStatus s.net.port)
  | 0xE0 => some (ebEvents s)
  | 0x104 => some (peerState s i)
  | 0x108 => some (s.peer i).txSeq
  | 0x10C => some (s.peer i).rxNext
  | 0x110 => some (w32 (min (s.peer i).rtt 0xFFFFFF))
  | 0x22C => some (at_ (s.conn i).state.code 0 ||| flag (s.conn i).refused 2 ||| at_ (s.conn i).cause 4)
  | 0x304 => if (s.queueDef i).isSome then none else some 0
  | 0x308 => if (s.queueDef i).isSome then none else some 0
  | _ => none

/-! ### Audio (11) -/

/-- `AP_GROUP_STATUS` (11). -/
def groupStatus (s : State) (g : Nat) : Word :=
  let x := s.agroup g
  let m := s.groupMembers g
  let on := m.filter fun p => (s.aport p).state = .leadIn || (s.aport p).state = .running
  at_ m.length 0 ||| at_ on.length 6 ||| at_ ((s.leader g).getD 0) 12 ||| flag (s.leader g).isSome 15 |||
    at_ (match x.state with | .idle => 0 | .primed => 1 | .running => 2) 16 ||| flag (!x.slipped.isEmpty) 18

/-- `AP_STATUS` (11). -/
def audioStatus (s : State) (p : Nat) : Word :=
  let x := s.aport p
  let leads := match s.groupOf p with | some g => decide (s.leader g = some p) | none => false
  at_ x.state.code 0 ||| flag x.slipped 3 ||| flag x.clockLost 4 ||| flag x.rejoin 5 ||| flag leads 6 ||| flag x.refused 7 |||
    at_ x.reason 8

/-- Port registers (11). -/
def livePort (s : State) (p off : Nat) : Option Word :=
  let x := s.aport p
  match off with
  | 0x18 => some (audioStatus s p)
  | 0x30 => if s.apMode p = 4 then some (w32 (Config.pdmDelay (fld (s.reg (Reg.AP_FMT p)) 19 12)).val) else none
  | 0x34 => some (at_ (x.slip % max 1 (s.enabledSlots p).length) 0 ||| at_ (min x.slip 65535) 16)
  | 0x50 => some (flag x.active.isSome 0 ||| flag x.pending.isSome 1 ||| flag x.portdError 2 ||| at_ x.portdCause 4)
  | 0x90 => some (apPortEvents s p)
  | _ => none

def liveAudio (s : State) (off i : Nat) : Option Word :=
  match off with
  | 0xC => some (at_ s.audio.locked.toNat 0 ||| at_ s.audio.present.toNat 2)
  | 0x1C => some (groupStatus s i)
  | 0x28 => some (flag s.audio.astart 0)
  | 0x30 => some (apEvents s)
  | _ => none

/-! ### Vane and the PMC (13) -/

/-- The live registers of Vane's window and the in-box words; its RC registers hold copies (12 R299, 13 R313). -/
def liveVane (s : State) (off : Nat) : Option Word :=
  if 0x8000 ≤ off then some (AMap.getD s.vane.inbox ((off - 0x8000) / 4) 0)
  else match off with
  | 0x4 => some (flag s.vane.safe 0 ||| flag (!s.vane.alarmN) 1 ||| flag s.vane.leavePending 2)
  | 0x20 => some (at_ s.vane.watchRunning.toNat 0 ||| at_ s.vane.watchExpired.toNat 4)
  | _ => none

/-- `PMC_STATUS` (13): BE_HOLD is h mod 16, with bit 9 set at 16. -/
def pmcStatus (s : State) : Word :=
  flag s.capping 0 ||| flag s.derated 1 ||| flag s.thermalLimit 2 ||| flag s.pmc.half 3 ||| flag s.pmc.cold 4 |||
    at_ (s.pmc.h % 16) 5 ||| flag (decide (s.pmc.h = 16)) 9 ||| at_ s.phasesFailed 10

def livePmc (s : State) (off : Nat) : Option Word :=
  match off with
  | 0x10 => some (pmcStatus s)
  | 0x4C => some (pmcEvents s)
  | _ => none

/-! ### Security (14) -/

/-- `SEC_STATUS` (14). -/
def secStatus (s : State) : Word :=
  flag (!s.sec.roots.isEmpty) 0 ||| flag (s.sec.running.getD false) 1 ||| flag s.sec.onTrial 2 ||| flag (!s.net.port.txSas.isEmpty) 3 |||
    at_ s.sec.roots.length 4 ||| at_ s.sec.imageKeys.length 8 ||| at_ s.sec.sessions.length 12 ||| at_ s.sec.openings.length 19

def liveSec (s : State) (off : Nat) : Option Word :=
  if 0x100 ≤ off ∧ off < 0x140 then some (wordOf (Config.sha512 Config.idPublicKey) ((off - 0x100) / 4))
  else
    match off with
    | 0x4 => some (secStatus s)
    | 0x8 =>
      some (match s.sec.running with
        | some b => at_ (fwVersion (s.sec.slot b)) 0 ||| at_ (fwBuild (s.sec.slot b)) 16
        | none => 0)
    | 0xC => some (w32 s.sec.fwFloor)
    | 0x10 => some s.sec.eraseCount
    | 0x14 => some (lo32 s.sec.certFloor)
    | 0x18 => some (hi32 s.sec.certFloor)
    | 0x44 => some (secEvents s)
    | _ => none

/-! ### Telemetry and repair (15) -/

/-- `TEL_STATUS` (15). -/
def telStatus (s : State) : Word :=
  at_ ((s.tel.rings.map fun e => e.2.level.code).foldl max 0) 0 ||| flag (bit (s.reg Reg.TEL_CTRL) 0 && s.telemPeer.isSome) 2

/-- Steps of a bay move (02 R48). -/
def MoveStep.code : MoveStep → Nat
  | .selfTest => 1 | .lull => 3 | .copy => 5 | .weights => 6 | .commit => 7

/-- `REP_STATUS` (15): the operation that runs, or the latest one. -/
def repairStatus (s : State) : Word :=
  let t := s.tel
  let word := fun (kind step target : Nat) (busy : Bool) =>
    at_ kind 0 ||| at_ (step % 16) 4 ||| at_ (target % 256) 8 ||| flag busy 16 ||| at_ t.lastResult 24
  match t.running with
  | some x => word x.kind.code x.step x.shown true
  | none =>
    match s.loader.move with
    | some m => word RepairKind.move.code m.step.code m.core true
    | none => word t.lastKind t.lastStep t.lastTarget false

/-- `REP_CP_ROLES` (15). -/
def cpRoles (s : State) : Word :=
  (List.range 4).foldl (fun w i => w ||| at_ (((AMap.get? s.tel.cps i).map fun c => c.state.code).getD 0) (2 * i)) 0

def liveTel (s : State) (off i : Nat) : Option Word :=
  let ring := fun (f : SubRing → Word) => some (((AMap.get? s.tel.rings i).map f).getD 0)
  match off with
  | 0x4 => some (telStatus s)
  | 0x20 => ring fun x => w32 (Config.telRingBase + x.offset)
  | 0x24 => ring fun x => w32 ((Config.telRingBase + x.offset) / 2 ^ 32)
  | 0x28 => ring fun x => w32 (x.size / 2 ^ 20)
  | 0x2C => ring fun x => at_ x.fill 0 ||| at_ x.level.code 8 ||| at_ (if x.level = .sample then x.k else 0) 12
  | 0x30 => ring fun x => x.seq
  | 0x34 => ring fun x => x.acked
  | 0x48 => some (w32 s.alarmsUsed)
  | 0x54 => some (telEvents s)
  | 0x100 => some (repairStatus s)
  | 0x104 => some (at_ s.power.dpen.toNat 0 ||| at_ s.tiers.channelsOnline.toNat 8)
  | 0x108 => some (w32 (s.tel.fenced ||| s.tel.draining).toNat)
  | 0x10C => some (cpRoles s)
  | _ => none

/-! ### Every place -/

/-- The live value of a place, where the register shows a condition or a derived value. -/
def liveAt (s : State) (key : Nat) : Option Word :=
  let a := keyAddr key
  let i := keyIndex key
  if a < 0x00100000 then liveHub s a
  else if a < 0x00200000 then liveVane s (a - 0x00100000)
  else if a < 0x00300000 then livePmc s (a - 0x00200000)
  else if a < 0x00400000 then (if a < 0x00380000 then liveEth s (a - 0x00300000) i else none)
  else if a < 0x00500000 then
    if a < 0x00401000 then liveAudio s (a - 0x00400000) i else livePort s ((a - 0x00401000) / 0x100) (a % 0x100)
  else if a < 0x00600000 then liveTel s (a - 0x00500000) i
  else if a < 0x00700000 then liveCfg s (a - 0x00600000) i
  else if a < 0x00800000 then liveSec s (a - 0x00700000)
  else if a < 0x00900000 then liveTrn s (a - 0x00800000)
  else if a < 0x04000000 then liveCore s ((a - 0x01000000) / 0x00100000) (a % 0x00100000) i
  else if a < 0x05000000 then liveStream s ((a - 0x04000000) / 0x100) (a % 0x100)
  else if a < 0x05001000 then liveMt s (a - 0x05000000) i
  else if a < 0x05002000 then liveBse s ((a - 0x05001000) / 0x100) (a % 0x100)
  else if a < 0x05200000 then liveAtt s (a - 0x05002000)
  else if a < 0x06000000 then liveSeq s ((a - 0x05200000) / 0x100) (a % 0x100)
  else liveBay s ((a - 0x06000000) / 0x400) (a % 0x400) i

/-- What a read of a place returns (12 R290, R292): nothing but zero of a WO register; the live value; else the value in force, which
for a command register is the value last accepted (log 25). -/
def State.valueAt (s : State) (key : Nat) : Word :=
  match descOf key with
  | some d => if d.access = .wo then 0 else (liveAt s key).getD (s.reg key)
  | none => 0

end Sys2Proof.Machine
end

