-- ==== Sys2Proof/Machine/Registers.lean ====
section
/-! DEFINITION. Register reads and writes as commands: what a read returns and ends (12 R290 to R292, R298), what a write of each kind of
register does (R290, R293, R411), REG messages (10 R252), guards, commits, event limits and RC copies (12 R295 to R304). -/

namespace Sys2Proof.Machine

/-! ### Reads -/

/-- A read that a status bit is live until (12 R291). -/
def State.readEffect (s : State) (key : Nat) : State :=
  let a := keyAddr key
  if key = Reg.TRN_INV_DONE_TAG then s.unlatch Reg.TRN_EVENT_STATUS 0
  else if key = Reg.MT_CMD_STATUS then s.unlatch Reg.MT_EVENT_STATUS 0
  else if key = Reg.MT_UE_ADDR_LO then s.unlatch Reg.MT_EVENT_STATUS 3
  else if key = Reg.HUB_COMMIT_STATUS then s.unlatch Reg.HUB_EVENT_STATUS 1
  else if key = Reg.REP_STATUS then s.unlatch Reg.TEL_EVENT_STATUS 2
  else if 0x00401000 ≤ a ∧ a < 0x00401600 ∧ a % 0x100 = 0x2C then
    s.unlatch (Reg.AP_PORT_EVENT_STATUS ((a - 0x00401000) / 0x100)) 1
  else if 0x06000000 ≤ a ∧ a < 0x06004000 then
    let b := (a - 0x06000000) / 0x400
    let off := a % 0x400
    if off = 0x24C then s.unlatch (Reg.SW_EVENT_STATUS b) 0
    else if 0x300 ≤ off ∧ (off - 0x300) % 0x40 = 0x1C then s.unlatch key 0
    else s
  else s

/-- The core whose own range 0x0000 to 0x01BF an address lies in, while its island has no power or clock, and the offset (R298). -/
def State.gatedCore (s : State) (addr : Nat) : Option Nat :=
  if 0x01000000 ≤ addr ∧ addr < 0x03400000 ∧ (addr - 0x01000000) % 0x00100000 < 0x1C0 ∧
      s.coreGated ((addr - 0x01000000) / 0x00100000) then some ((addr - 0x01000000) % 0x00100000)
  else none

/-- A read of an address: the state it leaves, the value, the status (R290, R292, R298, R306). -/
def State.readAt (s : State) (addr : Nat) : State × Word × RegStatus :=
  match s.landing addr with
  | .outside => (s.badAddress addr, 0, .badOp)
  | .unassigned => if (s.gatedCore addr).isSome then (s, 0, .timeout) else (s, 0, .ok)
  | .place key =>
    match s.gatedCore addr with
    | some off => if off = 0x0 || off = 0x4 || off = 0x3C then (s, s.valueAt key, .ok) else (s, 0, .timeout)
    | none => (s.readEffect key, s.valueAt key, .ok)

/-- A read command of a source: it needs a session and the role READ (10 R251, 14 R342). -/
def State.readCommand (s : State) (src : Source) (key : Nat) : State :=
  if !s.admitted src then s.count32 Reg.EB_RX_REFUSED 1
  else if !s.hasRole src .read then s.roleRefused
  else s.readEffect key

/-- TRN_INV_DONE_TAG_READ (R291). -/
def execTrnInvDoneTagRead (src : Source) (s : State) : Host.Outcome State Fault Refusal :=
  s.done (s.readCommand src Reg.TRN_INV_DONE_TAG)

/-- MT_CMD_STATUS_READ (R291). -/
def execMtCmdStatusRead (src : Source) (s : State) : Host.Outcome State Fault Refusal := s.done (s.readCommand src Reg.MT_CMD_STATUS)

/-- MT_UE_ADDR_READ (R291). -/
def execMtUeAddrRead (src : Source) (s : State) : Host.Outcome State Fault Refusal := s.done (s.readCommand src Reg.MT_UE_ADDR_LO)

/-- HUB_COMMIT_STATUS_READ (R291). -/
def execHubCommitStatusRead (src : Source) (s : State) : Host.Outcome State Fault Refusal :=
  s.done (s.readCommand src Reg.HUB_COMMIT_STATUS)

/-- SW_CANCEL_STATUS_READ (R291). -/
def execSwCancelStatusRead (src : Source) (bay : Fin 16) (s : State) : Host.Outcome State Fault Refusal :=
  s.done (s.readCommand src (Reg.SW_CANCEL_STATUS bay.val))

/-- CCH_STATUS_READ (R291). -/
def execCchStatusRead (src : Source) (bay : Fin 16) (ch : Fin 4) (s : State) : Host.Outcome State Fault Refusal :=
  s.done (s.readCommand src (Reg.CCH_STATUS bay.val ch.val))

/-- AP_RATE_READ (R291). -/
def execApRateRead (src : Source) (port : Fin 6) (s : State) : Host.Outcome State Fault Refusal :=
  s.done (s.readCommand src (Reg.AP_RATE port.val))

/-- REP_STATUS_READ (R291). -/
def execRepStatusRead (src : Source) (s : State) : Host.Outcome State Fault Refusal := s.done (s.readCommand src Reg.REP_STATUS)

/-! ### Commits (R295, R296) -/

/-- A staged value of a place that a commit applies: RX, or a natural boundary. -/
def committed (key : Nat) : Bool :=
  match descOf key with
  | some d => d.access = .rx || d.boundary = .natural
  | none => false

/-- The values of one masked block apply in one step. -/
def State.commitBlock (s : State) (i : Nat) : State := s.applyWhere fun k => decide (commitBit (blockOf k) = i) && committed k

/-- The commit in progress completes. -/
def State.commitEnd (s : State) : State :=
  { s.latch Reg.HUB_EVENT_STATUS 1 with commitMask := none, commitCount := (s.commitCount + 1) % 65536 }

/-- An accepted guarded write of `HUB_COMMIT`: refused while BUSY; a mask of zero completes at once. -/
def State.commitOp (s : State) (mask : Word) : State :=
  if s.commitMask.isSome then { s with commitRefused := true }
  else
    let s1 : State := { s with commitRefused := false }
    if fld mask 11 0 = 0 then s1.commitEnd
    else
      let s2 := ((List.range 12).filter fun i => bit mask i && decide (i ≠ 1)).foldl State.commitBlock s1
      { s2 with commitMask := some (mask &&& 0xFFF) }

/-- HUB_COMMIT (R295). -/
def execHubCommit (src : Source) (mask : Word) (s : State) : Host.Outcome State Fault Refusal :=
  s.done (s.rkWrite src Reg.HUB_COMMIT fun s => s.commitOp mask)

/-- HUB_COMMIT_DONE (R295). -/
def execHubCommitDone (s : State) : Host.Outcome State Fault Refusal := s.done (if s.commitMask.isSome then s.commitEnd else s)

/-! ### Writes: ranges (R411) -/

/-- A field of a value lies in a range. -/
def inRange (v : Word) (hi lo least most : Nat) : Bool := decide (least ≤ fld v hi lo ∧ fld v hi lo ≤ most)

/-- A write of a register outside the bays keeps the ranges and relations that the manual states (R411, "Registers" of every chapter).
Fields that ARM, START, OPEN or descriptor activation checks are staged as written. -/
def State.accepts (s : State) (key : Nat) (v : Word) : Bool :=
  let a := keyAddr key
  let i := keyIndex key
  let off := a % 0x100
  if a = Reg.HUB_EVENT_RATE then inRange v 10 0 1 1024
  else if a = Reg.CFG_CMD then inRange v 3 0 1 6
  else if a = Reg.MT_CMD then inRange v 3 0 1 7
  else if a = Reg.CFGCRC_SLOT_SEL then inRange v 4 0 0 16
  else if a = keyAddr (Reg.MT_SPILL_HI 0) then inRange v 6 0 1 100 && decide (fld v 6 0 > fld (s.latest (Reg.MT_SPILL_LO i)) 6 0)
  else if a = keyAddr (Reg.MT_SPILL_LO 0) then decide (fld v 6 0 < fld (s.latest (Reg.MT_SPILL_HI i)) 6 0)
  else if a = Reg.MT_ERR_SEL then inRange v 4 0 0 19
  else if a = Reg.ATT_FC_CFG then
    inRange v 4 0 1 16 && decide (fld v 4 0 ≤ fld v 12 8) && inRange v 23 16 1 255
  else if a = Reg.EB_BALE_MAX then inRange v 7 0 4 140
  else if a = Reg.EB_RTO then inRange v 15 0 10 10000 && inRange v 19 16 1 15
  else if a = Reg.EB_PROBE then inRange v 15 0 1 65535
  else if a = Reg.EB_PKT_LIFE then inRange v 15 0 1 65535
  else if a = Reg.EB_WEIGHT then inRange v 7 0 1 255 && inRange v 15 8 1 255 && inRange v 23 16 1 255 && inRange v 31 24 1 255
  else if a = Reg.EB_ECN_CFG then inRange v 3 0 1 8 && inRange v 15 8 1 255
  else if a = Reg.AP_GSEL then inRange v 2 0 0 5
  else if a = keyAddr (Reg.AP_GROUP_CTRL 0) then inRange v 1 0 0 2
  else if a = Reg.PMC_CAP then inRange v 10 0 600 1750
  else if a = Reg.PMC_CORE_SEL then inRange v 5 0 0 35
  else if a = Reg.SEC_ATTEST_RATE then inRange v 9 0 1 1000
  else if a = Reg.SEC_SESSION_IDLE then inRange v 15 0 10 65535
  else if a = Reg.TEL_SQUALL_CFG then
    decide (fld v 22 16 < fld v 6 0 ∧ fld v 6 0 < fld v 14 8 ∧ fld v 14 8 ≤ 99)
  else if a = Reg.TEL_RING_SEL then inRange v 4 0 0 16
  else if 0x00401000 ≤ a ∧ a < 0x00401600 then
    if off = 0x28 then inRange v 9 0 1 1000 && inRange v 31 16 1 65535
    else if off = 0x1C then inRange v 11 0 1 4095
    else if off = 0x64 then fld v 12 0 = 0 || inRange v 12 0 16 4096
    else true
  else if 0x05200000 ≤ a ∧ a < 0x05400000 then
    if off = 0x10 then inRange v 20 0 1 1048576
    else if off = 0x38 then inRange v 6 0 0 64
    else if off = 0x60 then inRange v 11 0 2 4095 && inRange v 27 12 2 65535
    else true
  else if 0x06000000 ≤ a then
    let o := a % 0x400
    if o = 0x110 then inRange v 19 0 1 1000000
    else if o = 0x130 then inRange v 23 0 0 1000000
    else if o = 0x210 then inRange v 13 0 0 8192 && (fld v 13 0 = 0 || inRange v 31 16 1 65535)
    else if o = 0x234 then inRange v 6 0 0 64 && decide (fld v 6 0 % 2 = 0)
    else if 0x300 ≤ o ∧ o % 0x40 = 0x18 then inRange v 1 0 1 2
    else true
  else true

/-! ### Writes: commands -/

/-- `CFG_CMD` (02). -/
def State.cfgCommand (s : State) (v : Word) : State :=
  match fld v 3 0 with
  | 1 => s.cfgLoadOp
  | 2 => s.cfgCommitOp
  | 3 => s.cfgAbortOp
  | 4 => s.cfgAckOp
  | 5 => s.moveOp (fld v 13 10) (fld v 9 4) (bit v 14)
  | 6 => s.cfgResumeOp
  | _ => s

/-- `CFG_LULL_REQ` (02 R43): the bits that change. -/
def State.lullWrite (s : State) (v : Word) : State :=
  (List.range 16).foldl (fun (s : State) b => if (s.bay b).lullHost = bit v b then s else s.lullBit b (bit v b)) s

/-- `MT_CMD` (03 R83). -/
def State.tierCommand (s : State) (v : Word) : State :=
  let b := fld v 7 4
  match fld v 3 0 with
  | 1 => s.mtCommand v fun s => s.mtAssignOp b
  | 2 => s.mtCommand v fun s => s.mtReleaseOp b
  | 3 => s.mtCommand v fun s => s.mtMigrateOp b (bit v 8)
  | 4 => s.mtCommand v fun s => s.mtEnlistOp b
  | 5 => s.mtCommand v fun s => s.mtCancelOp b
  | 6 => s.mtCommand v fun s => s.mtLineOp true
  | 7 => s.mtCommand v fun s => s.mtLineOp false
  | _ => s

/-- `EB_CMD` (10). -/
def State.portCommand (s : State) (v : Word) : State :=
  match fld v 2 0 with
  | 1 => s.train
  | 2 => s.restoreLanes
  | 3 => s.resetPeer (fld v 17 4)
  | _ => s

/-- `EB_CONN_CMD` of a connection (10 R263, R266). -/
def State.connCommand (s : State) (c : Nat) (v : Word) : State :=
  match fld v 1 0 with
  | 1 => s.openConn c
  | 2 => s.forceError c
  | 3 => s.resetConn c
  | _ => s

/-- `AP_GROUP_CMD` of a group (11 R284). -/
def State.groupCommand (s : State) (g : Nat) (v : Word) : State :=
  match fld v 1 0 with
  | 1 => if g < 6 then s.groupStart g else s
  | 2 => (s.groupMembers g).foldl State.portStop s
  | _ => s

/-- `AP_CMD` of a port (11 R280). -/
def State.audioCommand (s : State) (p : Nat) (v : Word) : State :=
  match fld v 1 0 with
  | 1 => s.portStart p
  | 2 => s.portStop p
  | 3 => s.portRestart p
  | _ => s

/-- `AP_PORTD_CMD` of a port (11 R283). -/
def State.portdCommand (s : State) (p : Nat) (v : Word) : State :=
  match fld v 1 0 with
  | 1 => s.portdArm p
  | 2 => s.portdCancel p
  | _ => s

/-- `CCH_CMD` of a copy channel (09 R234). -/
def State.copyCommand (s : State) (b c : Nat) (v : Word) : State :=
  match fld v 1 0 with
  | 1 => s.copyArm b c
  | 2 => s.copyCancel b c
  | _ => s

/-- `SC_CMD` (06 R144). -/
def State.streamCommand (s : State) (sid : Nat) (v : Word) : State :=
  match fld v 3 0 with
  | 1 => s.scArmOp sid
  | 2 => s.scStartOp sid
  | 3 => s.scPauseOp sid
  | 4 => s.scResumeOp sid
  | 5 => s.scDrainOp sid
  | 6 => s.scAbortOp sid
  | 7 => s.scResetStateOp sid
  | 8 => s.scRecheckOp sid
  | _ => s

/-- `SQ_CMD` (08 R186). -/
def State.seqCommand (s : State) (q : Nat) (v : Word) : State :=
  match fld v 3 0 with
  | 1 => s.sqArmOp q
  | 2 => s.sqStartOp q
  | 3 => s.sqPauseOp q
  | 4 => s.sqResumeOp q
  | 5 => s.sqDrainOp q
  | 6 => s.sqAbortOp q
  | 8 => s.sqRecheckOp q
  | _ => s

/-- A write of a WO register that is no GUARD acts once. -/
def State.strobe (s : State) (key : Nat) (v : Word) : State :=
  let a := keyAddr key
  if a = Reg.TRN_INV_CMD then s.trnInvOp v
  else if a = Reg.TRN_FAULT_RESUME then s.faultResumeOp (fld v 15 0) (bit v 16)
  else if 0x04000000 ≤ a ∧ a < 0x04400000 then s.streamCommand ((a - 0x04000000) / 0x100) v
  else if 0x05200000 ≤ a ∧ a < 0x05400000 then s.seqCommand ((a - 0x05200000) / 0x100) v
  else if 0x06000000 ≤ a then
    let b := (a - 0x06000000) / 0x400
    if a % 0x400 = 0x10 then s.submitOp b v
    else if a % 0x400 = 0x138 && fld v 1 0 = 1 then s.alignStart b (keyIndex key)
    else s
  else s

/-- An accepted write of an RK register that applies at once: a command, or a value. -/
def State.rkCommand (s : State) (key : Nat) (v : Word) : State :=
  let a := keyAddr key
  let i := keyIndex key
  let t := s.setReg key v
  if a = Reg.HUB_COMMIT then s.commitOp v
  else if a = Reg.CFG_CMD then t.cfgCommand v
  else if a = Reg.CFG_LULL_REQ then s.lullWrite v
  else if a = Reg.CFG_SERIAL_FLOOR_HI then { s with loader := { s.loader with floorHi := some v } }
  else if a = Reg.CFG_SERIAL_FLOOR_LO then s.floorOp v
  else if a = Reg.MT_CMD then s.tierCommand v
  else if a = Reg.EB_CMD then t.portCommand v
  else if a = keyAddr (Reg.EB_CONN_CMD 0) then t.connCommand i v
  else if a = Reg.AP_PLL_CTRL then s.pllCtrl v
  else if a = keyAddr (Reg.AP_GROUP_CMD 0) then t.groupCommand i v
  else if 0x00401000 ≤ a ∧ a < 0x00401600 then
    let p := (a - 0x00401000) / 0x100
    if a % 0x100 = 0x14 then t.audioCommand p v else if a % 0x100 = 0x4C then t.portdCommand p v else t
  else if 0x06000000 ≤ a then
    let b := (a - 0x06000000) / 0x400
    let off := a % 0x400
    if off = 0x230 then (if fld v 1 0 = 1 then t.flushQueue b i else t)
    else if off = 0x248 then (if bit v 0 then t.cancelOp b else t)
    else if 0x300 ≤ off then t.copyCommand b ((off - 0x300) / 0x40) v
    else t
  else t

/-- An accepted write of an RK register: staged where its table names a later point (frames that waited for MACsec look again); `CORE_CMD` ignores other operations; a value out of range
is ignored (R411). -/
def State.rkEffect (s : State) (key : Nat) (d : RegDesc) (v : Word) : State :=
  if !s.accepts key v then s
  else if key = Reg.CFGCRC_REF then s.refOp v
  else if d.boundary = .now then s.rkCommand key v
  else if 0x01000000 ≤ key ∧ key < 0x03400000 then
    if fld v 1 0 = 1 || fld v 1 0 = 2 then s.stage key (w32 (fld v 1 0)) else s
  else if key = Reg.EB_MACSEC_CTRL then (s.stage key v).drainEgress
  else s.stage key v

/-! ### Writes: values -/

/-- The staged value of a condition that is already present applies at once (R293); a port that is enabled while its link is DOWN trains
(log 23). -/
def State.afterStage (s : State) (key : Nat) (v : Word) : State :=
  let a := keyAddr key
  if a = Reg.EB_PORT_CTRL then
    if bit v 0 && !s.portEnabled && s.net.port.link = .down then s.train else s
  else if 0x06000000 ≤ a then
    let b := (a - 0x06000000) / 0x400
    let off := a % 0x400
    if off = 0x208 || off = 0x20C || off = 0x210 then s.poolIdle b (keyIndex key)
    else if off = 0x100 || off = 0x104 then
      if s.allIdle b then s.applyAll [Reg.BAT_AREA_LO b, Reg.BAT_AREA_HI b] else s
    else s
  else s

/-- A write of an RW register. -/
def State.rwEffect (s : State) (key : Nat) (d : RegDesc) (v : Word) : State :=
  let a := keyAddr key
  if d.clears then
    let t := s.setReg key 0
    if 0x06000000 ≤ a ∧ a % 0x400 = 0x228 then
      let q := keyIndex key
      if (s.queueDefs ((a - 0x06000000) / 0x400)).any fun e => e.index = q then s.setQueue q { s.queue q with high := 0 } else s
    else t
  else if a = Reg.TRN_FQ_TAIL then s.fqTailOp v
  else if 0x04000000 ≤ a ∧ a < 0x04400000 ∧ a % 0x100 = 0x50 then s.outTailOp false ((a - 0x04000000) / 0x100) v
  else if 0x05200000 ≤ a ∧ a < 0x05400000 ∧ a % 0x100 = 0x50 then s.outTailOp true ((a - 0x05200000) / 0x100) v
  else s.setReg key v

/-- A write of an RS or RX register; word 0x00 of a peer entry acts at once (10 R247), and a binding of a queue of no bay is not there. -/
def State.rsEffect (s : State) (key : Nat) (v : Word) : State :=
  let a := keyAddr key
  if 0x00380000 ≤ a ∧ a < 0x00400000 ∧ a % 32 = 0 then s.peerEntry ((a - 0x00380000) / 32) v
  else if (a = keyAddr (Reg.EB_QB 0) || a = keyAddr (Reg.EB_QB_CONN 0)) && (s.queueDef (keyIndex key)).isNone then s
  else (s.stage key v).afterStage key v

/-- The GUARD register of a block is written (R301). -/
def State.guardWrite (s : State) (src : Source) (b : Block) (v : Word) : State :=
  if v = 0xC1A5#32 then s.openGuard src b else s.writeCloses src b

/-- A write that Vane's window takes: only a control processor's own in-box slot; others are counted (13 R311, R313). -/
def State.vaneWrite (s : State) (src : Source) (addr : Nat) (v : Word) : State :=
  let off := addr - 0x00100000
  let foreign : State := { s with vane := { s.vane with foreignWr := min (s.vane.foreignWr + 1) 0xFFFFFFFF } }
  match src with
  | .cp n =>
    if 0x8000 ≤ off ∧ off < 0x8100 ∧ (off - 0x8000) / 0x40 = n.val then s.inboxWrite n.val ((off - 0x8000) % 0x40 / 4) v else foreign
  | .peer _ => foreign

/-- A write of a place by its access code (R290, R292, R301, R411). -/
def State.placeWrite (s : State) (src : Source) (key : Nat) (d : RegDesc) (v : Word) : State × RegStatus :=
  let m := v &&& d.mask
  let b := blockOf key
  if guardReg b = some key then (s.guardWrite src b v, .ok)
  else
    match d.access with
    | .rk => s.guarded src key fun s => s.rkEffect key d m
    | .rw => ((if s.accepts key m then (s.writeCloses src b).rwEffect key d m else s.writeCloses src b), .ok)
    | .rs | .rx => ((if s.accepts key m then (s.writeCloses src b).rsEffect key m else s.writeCloses src b), .ok)
    | .wo => ((s.writeCloses src b).strobe key v, .ok)
    | .ro | .rl | .rc => (s.writeCloses src b, .ok)

/-- A write of an address: its checks, then its effect (R290 to R293, R298, R306, 10 R251, 14 R342). -/
def State.writeAt (s : State) (src : Source) (addr : Nat) (v : Word) : State × RegStatus :=
  match s.landing addr with
  | .outside =>
    s.checkedWrite src 0 fun s => (s.badAddress addr, .badOp)
  | .unassigned =>
    s.checkedWrite src addr fun s => (s.writeCloses src (blockOf addr), .ok)
  | .place key =>
    s.checkedWrite src key fun s =>
      if 0x00100000 ≤ addr ∧ addr < 0x00200000 then (s.vaneWrite src addr v, .ok)
      else
        match descOf key with
        | some d => s.placeWrite src key d v
        | none => (s, .ok)

/-- REGISTER_WRITE (R290): a write of any register, by the code of its table. -/
def execRegisterWrite (src : Source) (addr value : Word) (s : State) : Host.Outcome State Fault Refusal :=
  s.done (s.writeAt src addr.toNat value).1

/-! ### Guards (R301) -/

/-- GUARD_OPEN (R301): a block without a GUARD register has none to open. -/
def execGuardOpen (src : Source) (block : Block) (s : State) : Host.Outcome State Fault Refusal :=
  s.done (match guardReg block with
    | some key => (s.checkedWrite src key fun s => (s.openGuard src block, .ok)).1
    | none => s)

/-- GUARD_EXPIRE (R301). -/
def execGuardExpire (src : Source) (s : State) : Host.Outcome State Fault Refusal := s.done (s.closeGuard src)

/-! ### REG messages (10 R252) -/

/-- One operation: the state, the status, the data word and the high word of its response. -/
def State.regOp (s : State) (peer : Fin 16384) (o : RegOp) : State × Nat × Word × Word :=
  let src := Source.peer peer
  match o.op.toNat with
  | 1 =>
    if !s.hasRole src .read then (s.roleRefused, RegStatus.code .notPermitted, 0, 0)
    else
      let (s1, v, st) := s.readAt o.addr.toNat
      (s1, st.code, v, 0)
  | 2 =>
    let (s1, st) := s.writeAt src o.addr.toNat o.data
    (s1, st.code, o.data, 0)
  | 3 =>
    if !s.hasRole src .read then (s.roleRefused, RegStatus.code .notPermitted, 0, 0)
    else
      let (s1, hi, st1) := s.readAt (o.addr.toNat + 4)
      if st1 = .ok then
        let (s2, lo, st2) := s1.readAt o.addr.toNat
        if st2 = .ok then (s2, 0, lo, hi) else (s2, st2.code, 0, 0)
      else (s1, st1.code, 0, 0)
  | _ => (s, RegStatus.code .badOp, 0, 0)

/-- The operations of a message in order; after the first that is not OK the rest are SKIPPED. -/
def State.regOps (s : State) (peer : Fin 16384) : List RegOp → State × List (Nat × Word × Word)
  | [] => (s, [])
  | o :: rest =>
    let (s1, st, lo, hi) := s.regOp peer o
    if st = 0 then
      let (s2, out) := s1.regOps peer rest
      (s2, (st, lo, hi) :: out)
    else (s1, (st, lo, hi) :: rest.map fun r => (RegStatus.code .skipped, r.data, 0))

/-- REG_MESSAGE (10 R251, R252): without an open session it is refused; else its operations run, and the response is sent. -/
def execRegMessage (peer : Fin 16384) (tag : BitVec 16) (ops : List RegOp) (s : State) : Host.Outcome State Fault Refusal :=
  s.done (
    if (s.session peer.val).isNone then s.refuseMsg peer.val 1
    else
      let (s1, out) := s.regOps peer ops
      (s1.effectOf peer.val 1).post peer.val [.regResponse tag out])

/-! ### Event limits (R304) -/

/-- The pending record of a status register is queued where the window allows, and starts a holdoff; else it stays pending. -/
def State.releaseHold (s : State) (addr : Nat) : State :=
  match AMap.get? s.events.holds addr with
  | some ⟨_, some (w, t)⟩ =>
    if s.events.window ≥ s.eventRate then
      { s with events := { s.events with holds := AMap.set s.events.holds addr ⟨false, some (w, t)⟩ } }
    else
      let s1 := s.queueRecord ⟨s.canonical addr, w, t⟩
      { s1 with events := { s1.events with holds := AMap.set s1.events.holds addr ⟨s.holdoff ≠ 0, none⟩ } }
  | some ⟨_, none⟩ => { s with events := { s.events with holds := AMap.erase s.events.holds addr } }
  | none => s

/-- EVENT_HOLDOFF_END (R304): of the status register at a canonical address. -/
def execEventHoldoffEnd (status : Word) (s : State) : Host.Outcome State Fault Refusal :=
  s.done (match s.events.holds.find? fun e => decide (s.canonical e.1 = status.toNat) && e.2.running with
    | some e => s.releaseHold e.1
    | none => s)

/-- EVENT_RATE_WINDOW (R304): records that wait for the window and for no holdoff are queued, in address order. -/
def execEventRateWindow (s : State) : Host.Outcome State Fault Refusal :=
  let s1 : State := { s with events := { s.events with window := 0 } }
  s.done ((s1.events.holds.filter fun e => !e.2.running && e.2.pending.isSome).foldl
    (fun (s : State) e => s.releaseHold e.1) s1)

/-! ### RC copies (R299) -/

/-- A temperature in °C in units of 0.25 °C, 12 bits (13 "Registers"). -/
def quarterDegrees (c : Nat) : Word := w32 (c * 4 % 4096)

/-- The hottest of a set of readings. -/
def hottest (m : AMap Nat) : Nat := (AMap.vals m).foldl max 0

/-- The copies of one core. -/
def State.refreshCore (s : State) (n : Nat) : State :=
  (s.setReg (Reg.PMC_CORE_POINT n) (at_ (s.point n) 0 ||| at_ (s.thermCeil n) 4 ||| at_ s.pmc.capCeil 8)).setReg
    (Reg.PMC_CORE_TEMP n) (quarterDegrees (AMap.getD s.pmc.junction n 0))

/-- Every RC register takes the value of the quantity it reports. -/
def State.refreshCopies (s : State) : State :=
  let p := s.pmc
  let copies : List (Nat × Word) :=
    [(Reg.VANE_FOREIGN_WR, w32 s.vane.foreignWr),
     (Reg.VANE_SELF_RESTARTS, w32 s.vane.selfRestarts),
     (Reg.VANE_ALARMS, s.vane.alarmCount),
     (Reg.VANE_T_JMAX, quarterDegrees (hottest p.junction)),
     (Reg.VANE_T_LOFTMAX, quarterDegrees (hottest p.loft)),
     (Reg.VANE_VIN, w32 p.vin),
     (Reg.PMC_PIN, w32 p.pin),
     (Reg.PMC_PIN_1S, w32 p.pin1s),
     (Reg.PMC_VIN, w32 p.vin),
     (Reg.PMC_ENERGY_LO, lo32 p.energy),
     (Reg.PMC_ENERGY_HI, hi32 p.energy),
     (Reg.PMC_LOFT_TEMP, (List.range 4).foldl (fun w d => w ||| at_ (AMap.getD p.loft d 0 % 256) (8 * d)) 0),
     (Reg.PMC_STRETCH, w32 p.stretch),
     (Reg.PMC_DROOP_EVENTS, p.droopEvents),
     (Reg.PMC_CAP_INTERVALS, p.capIntervals),
     (Reg.PMC_PHASES, w32 p.phases.toNat)]
  let s1 := copies.foldl (fun (s : State) e => s.setReg e.1 e.2) s
  (List.range 36).foldl State.refreshCore s1

/-- RC_REFRESH (R299). -/
def execRcRefresh (s : State) : Host.Outcome State Fault Refusal := s.done s.refreshCopies

end Sys2Proof.Machine
end

