-- ==== Sys2Proof/Machine/Dispatch.lean ====
section
/-! DEFINITION. The dispatch: one arm per command. -/

namespace Sys2Proof.Machine

/-- The effect of a command on everything but the queue. -/
def exec (i : Instr) (s : State) : Host.Outcome State Fault Refusal :=
  match i with
  | .cfgLoad src => Sys2Proof.Machine.execCfgLoad src s
  | .cfgData peer offset data => Sys2Proof.Machine.execCfgData peer offset data s
  | .signatureCheckDone => Sys2Proof.Machine.execSignatureCheckDone s
  | .cfgCommit src => Sys2Proof.Machine.execCfgCommit src s
  | .cfgAbort src => Sys2Proof.Machine.execCfgAbort src s
  | .cfgAck src => Sys2Proof.Machine.execCfgAck src s
  | .cfgResume src => Sys2Proof.Machine.execCfgResume src s
  | .bayMove src bay core join => Sys2Proof.Machine.execBayMove src bay core join s
  | .spareSelfTestDone pass => Sys2Proof.Machine.execSpareSelfTestDone pass s
  | .moveCopyDone => Sys2Proof.Machine.execMoveCopyDone s
  | .moveWeightsDone => Sys2Proof.Machine.execMoveWeightsDone s
  | .bayLullReached bay => Sys2Proof.Machine.execBayLullReached bay s
  | .commitCopyADone => Sys2Proof.Machine.execCommitCopyADone s
  | .commitCopyBDone => Sys2Proof.Machine.execCommitCopyBDone s
  | .tablesApplied => Sys2Proof.Machine.execTablesApplied s
  | .lullRequest src bay => Sys2Proof.Machine.execLullRequest src bay s
  | .lullRelease src bay => Sys2Proof.Machine.execLullRelease src bay s
  | .serialFloorHiWrite src value => Sys2Proof.Machine.execSerialFloorHiWrite src value s
  | .serialFloorLoWrite src value => Sys2Proof.Machine.execSerialFloorLoWrite src value s
  | .cfgcrcRefWrite src value => Sys2Proof.Machine.execCfgcrcRefWrite src value s
  | .crcSweepEnd => Sys2Proof.Machine.execCrcSweepEnd s
  | .cfgRefMissing => Sys2Proof.Machine.execCfgRefMissing s
  | .loftRowRemap die bank row => Sys2Proof.Machine.execLoftRowRemap die bank row s
  | .doubleRefresh die => Sys2Proof.Machine.execDoubleRefresh die s
  | .refreshNormal die => Sys2Proof.Machine.execRefreshNormal die s
  | .tableWalk bay va write who holder => Sys2Proof.Machine.execTableWalk bay va write who holder s
  | .trnInv src value => Sys2Proof.Machine.execTrnInv src value s
  | .trnInvDone => Sys2Proof.Machine.execTrnInvDone s
  | .fqTailWrite src value => Sys2Proof.Machine.execFqTailWrite src value s
  | .faultResume src tag abort => Sys2Proof.Machine.execFaultResume src tag abort s
  | .mtAssign src bay => Sys2Proof.Machine.execMtAssign src bay s
  | .mtRelease src bay => Sys2Proof.Machine.execMtRelease src bay s
  | .mtMigrate src bay lc => Sys2Proof.Machine.execMtMigrate src bay lc s
  | .mtEnlist src bay => Sys2Proof.Machine.execMtEnlist src bay s
  | .mtCancel src bay => Sys2Proof.Machine.execMtCancel src bay s
  | .mtOffline src => Sys2Proof.Machine.execMtOffline src s
  | .mtOnline src => Sys2Proof.Machine.execMtOnline src s
  | .migrationStart => Sys2Proof.Machine.execMigrationStart s
  | .migrationFirstInvDone migration => Sys2Proof.Machine.execMigrationFirstInvDone migration s
  | .migrationCopyDone migration => Sys2Proof.Machine.execMigrationCopyDone migration s
  | .migrationEnd migration => Sys2Proof.Machine.execMigrationEnd migration s
  | .spillCheck bay => Sys2Proof.Machine.execSpillCheck bay s
  | .dispSubmit src bay hi => Sys2Proof.Machine.execDispSubmit src bay hi s
  | .sheafPlace bay => Sys2Proof.Machine.execSheafPlace bay s
  | .passBoundary core => Sys2Proof.Machine.execPassBoundary core s
  | .evictionCheck core => Sys2Proof.Machine.execEvictionCheck core s
  | .stallSaveDone core slot => Sys2Proof.Machine.execStallSaveDone core slot s
  | .stallWake inst => Sys2Proof.Machine.execStallWake inst s
  | .sheafDone inst => Sys2Proof.Machine.execSheafDone inst s
  | .sheafOverrun inst => Sys2Proof.Machine.execSheafOverrun inst s
  | .coreFault core cause => Sys2Proof.Machine.execCoreFault core cause s
  | .seqHang core => Sys2Proof.Machine.execSeqHang core s
  | .coreHold src core => Sys2Proof.Machine.execCoreHold src core s
  | .coreRelease src core => Sys2Proof.Machine.execCoreRelease src core s
  | .staggerEnd bay => Sys2Proof.Machine.execStaggerEnd bay s
  | .mxePass at_ pass => Sys2Proof.Machine.execMxePass at_ pass s
  | .vxeElementwise at_ op row => Sys2Proof.Machine.execVxeElementwise at_ op row s
  | .rowReduction at_ kind row => Sys2Proof.Machine.execRowReduction at_ kind row s
  | .layerNorm at_ row epsilon => Sys2Proof.Machine.execLayerNorm at_ row epsilon s
  | .rmsNorm at_ row epsilon => Sys2Proof.Machine.execRmsNorm at_ row epsilon s
  | .softmax at_ row => Sys2Proof.Machine.execSoftmax at_ row s
  | .scale at_ row target => Sys2Proof.Machine.execScale at_ row target s
  | .quant at_ row target => Sys2Proof.Machine.execQuant at_ row target s
  | .dequant at_ row => Sys2Proof.Machine.execDequant at_ row s
  | .rescale at_ op => Sys2Proof.Machine.execRescale at_ op s
  | .bseDot at_ command => Sys2Proof.Machine.execBseDot at_ command s
  | .bseWsum at_ command => Sys2Proof.Machine.execBseWsum at_ command s
  | .bseShareDone share => Sys2Proof.Machine.execBseShareDone share s
  | .scArm src sid => Sys2Proof.Machine.execScArm src sid s
  | .scStart src sid => Sys2Proof.Machine.execScStart src sid s
  | .scPause src sid => Sys2Proof.Machine.execScPause src sid s
  | .scResume src sid => Sys2Proof.Machine.execScResume src sid s
  | .scDrain src sid => Sys2Proof.Machine.execScDrain src sid s
  | .scAbort src sid => Sys2Proof.Machine.execScAbort src sid s
  | .scResetState src sid => Sys2Proof.Machine.execScResetState src sid s
  | .scRecheck src sid => Sys2Proof.Machine.execScRecheck src sid s
  | .streamInputFrames peer sid chaff first count data => Sys2Proof.Machine.execStreamInputFrames peer sid chaff first count data s
  | .chunkPost sid => Sys2Proof.Machine.execChunkPost sid s
  | .batchClose bay graph => Sys2Proof.Machine.execBatchClose bay graph s
  | .batchWindowExpire bay graph => Sys2Proof.Machine.execBatchWindowExpire bay graph s
  | .chainEnd bay slot => Sys2Proof.Machine.execChainEnd bay slot s
  | .chunkComplete sid => Sys2Proof.Machine.execChunkComplete sid s
  | .outTailWrite src sequence index value => Sys2Proof.Machine.execOutTailWrite src sequence index value s
  | .alignStart src bay => Sys2Proof.Machine.execAlignStart src bay s
  | .alignSlackExpire bay set => Sys2Proof.Machine.execAlignSlackExpire bay set s
  | .scan at_ descriptor => Sys2Proof.Machine.execScan at_ descriptor s
  | .sqArm src q => Sys2Proof.Machine.execSqArm src q s
  | .sqStart src q => Sys2Proof.Machine.execSqStart src q s
  | .sqPause src q => Sys2Proof.Machine.execSqPause src q s
  | .sqResume src q => Sys2Proof.Machine.execSqResume src q s
  | .sqDrain src q => Sys2Proof.Machine.execSqDrain src q s
  | .sqAbort src q => Sys2Proof.Machine.execSqAbort src q s
  | .sqRecheck src q => Sys2Proof.Machine.execSqRecheck src q s
  | .attScore at_ descriptor => Sys2Proof.Machine.execAttScore at_ descriptor s
  | .attValue at_ descriptor => Sys2Proof.Machine.execAttValue at_ descriptor s
  | .attentionPassDone inst => Sys2Proof.Machine.execAttentionPassDone inst s
  | .stepComplete q => Sys2Proof.Machine.execStepComplete q s
  | .swEnd p => Sys2Proof.Machine.execSwEnd p s
  | .swBase p => Sys2Proof.Machine.execSwBase p s
  | .swRowbase p => Sys2Proof.Machine.execSwRowbase p s
  | .swLoop p => Sys2Proof.Machine.execSwLoop p s
  | .swStep p => Sys2Proof.Machine.execSwStep p s
  | .swCset p => Sys2Proof.Machine.execSwCset p s
  | .swMove p => Sys2Proof.Machine.execSwMove p s
  | .swGet p => Sys2Proof.Machine.execSwGet p s
  | .swWait p => Sys2Proof.Machine.execSwWait p s
  | .swSignal p => Sys2Proof.Machine.execSwSignal p s
  | .swFree p => Sys2Proof.Machine.execSwFree p s
  | .swSyncPost p => Sys2Proof.Machine.execSwSyncPost p s
  | .swSyncWait p => Sys2Proof.Machine.execSwSyncWait p s
  | .swEndloop p => Sys2Proof.Machine.execSwEndloop p s
  | .swRotate p => Sys2Proof.Machine.execSwRotate p s
  | .ringTileDelivery bay round core => Sys2Proof.Machine.execRingTileDelivery bay round core s
  | .triggeredInstance queue => Sys2Proof.Machine.execTriggeredInstance queue s
  | .bseQueueService queue => Sys2Proof.Machine.execBseQueueService queue s
  | .queueFlush src bay => Sys2Proof.Machine.execQueueFlush src bay s
  | .swCancel src bay => Sys2Proof.Machine.execSwCancel src bay s
  | .gleanDone inst => Sys2Proof.Machine.execGleanDone inst s
  | .cchArm src bay ch => Sys2Proof.Machine.execCchArm src bay ch s
  | .cchCancel src bay ch => Sys2Proof.Machine.execCchCancel src bay ch s
  | .cchTransferDone bay ch => Sys2Proof.Machine.execCchTransferDone bay ch s
  | .laneFail lane => Sys2Proof.Machine.execLaneFail lane s
  | .trainingDone width copper => Sys2Proof.Machine.execTrainingDone width copper s
  | .trainingFail failed => Sys2Proof.Machine.execTrainingFail failed s
  | .linkRetry => Sys2Proof.Machine.execLinkRetry s
  | .retrain src => Sys2Proof.Machine.execRetrain src s
  | .restore src => Sys2Proof.Machine.execRestore src s
  | .peerReset src peer => Sys2Proof.Machine.execPeerReset src peer s
  | .linkAnFallback => Sys2Proof.Machine.execLinkAnFallback s
  | .ethernetFrameRx frame => Sys2Proof.Machine.execEthernetFrameRx frame s
  | .pfcPauseRx priority quanta => Sys2Proof.Machine.execPfcPauseRx priority quanta s
  | .pfcPauseEnd priority => Sys2Proof.Machine.execPfcPauseEnd priority s
  | .cnpRx target => Sys2Proof.Machine.execCnpRx target s
  | .ecnRateRaise target => Sys2Proof.Machine.execEcnRateRaise target s
  | .regMessage peer tag ops => Sys2Proof.Machine.execRegMessage peer tag ops s
  | .regReadTimeout peer tag op => Sys2Proof.Machine.execRegReadTimeout peer tag op s
  | .streamQueuePiece peer queue chaff offset length streamTag data => Sys2Proof.Machine.execStreamQueuePiece peer queue chaff offset length streamTag data s
  | .baleAckRx peer cum sack => Sys2Proof.Machine.execBaleAckRx peer cum sack s
  | .baleAckTimer peer => Sys2Proof.Machine.execBaleAckTimer peer s
  | .baleRetransmit peer seq => Sys2Proof.Machine.execBaleRetransmit peer seq s
  | .baleProbe peer => Sys2Proof.Machine.execBaleProbe peer s
  | .queueBoundSend queue => Sys2Proof.Machine.execQueueBoundSend queue s
  | .eventMessageSend => Sys2Proof.Machine.execEventMessageSend s
  | .roceRdmaWrite req data => Sys2Proof.Machine.execRoceRdmaWrite req data s
  | .roceRdmaRead req length => Sys2Proof.Machine.execRoceRdmaRead req length s
  | .roceSend conn psn data => Sys2Proof.Machine.execRoceSend conn psn data s
  | .roceAckRx conn psn answer => Sys2Proof.Machine.execRoceAckRx conn psn answer s
  | .roceAckTimeout conn => Sys2Proof.Machine.execRoceAckTimeout conn s
  | .connOpen src => Sys2Proof.Machine.execConnOpen src s
  | .connError src => Sys2Proof.Machine.execConnError src s
  | .connReset src => Sys2Proof.Machine.execConnReset src s
  | .connErrorReport conn => Sys2Proof.Machine.execConnErrorReport conn s
  | .peerEntryWrite src peer value => Sys2Proof.Machine.execPeerEntryWrite src peer value s
  | .pllLock pll => Sys2Proof.Machine.execPllLock pll s
  | .pllUnlock pll => Sys2Proof.Machine.execPllUnlock pll s
  | .apPllCtrlWrite src value => Sys2Proof.Machine.execApPllCtrlWrite src value s
  | .apStart src port => Sys2Proof.Machine.execApStart src port s
  | .apStop src port => Sys2Proof.Machine.execApStop src port s
  | .apRestart src port => Sys2Proof.Machine.execApRestart src port s
  | .groupStart src => Sys2Proof.Machine.execGroupStart src s
  | .groupStop src => Sys2Proof.Machine.execGroupStop src s
  | .astartEdge rising => Sys2Proof.Machine.execAstartEdge rising s
  | .leadInDone port => Sys2Proof.Machine.execLeadInDone port s
  | .leadOutDone port => Sys2Proof.Machine.execLeadOutDone port s
  | .audioFrame port bitClocks samples lost => Sys2Proof.Machine.execAudioFrame port bitClocks samples lost s
  | .clockLost port => Sys2Proof.Machine.execClockLost port s
  | .capturePeriodEnd port => Sys2Proof.Machine.execCapturePeriodEnd port s
  | .playbackPeriodFetch port => Sys2Proof.Machine.execPlaybackPeriodFetch port s
  | .portdArm src port => Sys2Proof.Machine.execPortdArm src port s
  | .portdCancel src port => Sys2Proof.Machine.execPortdCancel src port s
  | .rateWindowEnd port frames periods => Sys2Proof.Machine.execRateWindowEnd port frames periods s
  | .registerWrite src addr value => Sys2Proof.Machine.execRegisterWrite src addr value s
  | .trnInvDoneTagRead src => Sys2Proof.Machine.execTrnInvDoneTagRead src s
  | .mtCmdStatusRead src => Sys2Proof.Machine.execMtCmdStatusRead src s
  | .mtUeAddrRead src => Sys2Proof.Machine.execMtUeAddrRead src s
  | .hubCommitStatusRead src => Sys2Proof.Machine.execHubCommitStatusRead src s
  | .swCancelStatusRead src bay => Sys2Proof.Machine.execSwCancelStatusRead src bay s
  | .cchStatusRead src bay ch => Sys2Proof.Machine.execCchStatusRead src bay ch s
  | .apRateRead src port => Sys2Proof.Machine.execApRateRead src port s
  | .repStatusRead src => Sys2Proof.Machine.execRepStatusRead src s
  | .hubCommit src mask => Sys2Proof.Machine.execHubCommit src mask s
  | .hubCommitDone => Sys2Proof.Machine.execHubCommitDone s
  | .guardOpen src block => Sys2Proof.Machine.execGuardOpen src block s
  | .guardExpire src => Sys2Proof.Machine.execGuardExpire src s
  | .eventHoldoffEnd status => Sys2Proof.Machine.execEventHoldoffEnd status s
  | .eventRateWindow => Sys2Proof.Machine.execEventRateWindow s
  | .rcRefresh => Sys2Proof.Machine.execRcRefresh s
  | .kick slot seq => Sys2Proof.Machine.execKick slot seq s
  | .ackAlarm slot seq code => Sys2Proof.Machine.execAckAlarm slot seq code s
  | .setTrip slot seq trip value => Sys2Proof.Machine.execSetTrip slot seq trip value s
  | .setAction slot seq code action => Sys2Proof.Machine.execSetAction slot seq code action s
  | .leaveSafe slot seq => Sys2Proof.Machine.execLeaveSafe slot seq s
  | .powerOnReset => Sys2Proof.Machine.execPowerOnReset s
  | .startupComplete => Sys2Proof.Machine.execStartupComplete s
  | .granaryChannelOnline channel => Sys2Proof.Machine.execGranaryChannelOnline channel s
  | .addressRecord => Sys2Proof.Machine.execAddressRecord s
  | .resetNAssert => Sys2Proof.Machine.execResetNAssert s
  | .resetNDeassert => Sys2Proof.Machine.execResetNDeassert s
  | .chipReset slot seq => Sys2Proof.Machine.execChipReset slot seq s
  | .warmRestartComplete => Sys2Proof.Machine.execWarmRestartComplete s
  | .bayReset slot seq bay => Sys2Proof.Machine.execBayReset slot seq bay s
  | .coreReset slot seq core => Sys2Proof.Machine.execCoreReset slot seq core s
  | .powerLoss => Sys2Proof.Machine.execPowerLoss s
  | .junctionTrip core celsius => Sys2Proof.Machine.execJunctionTrip core celsius s
  | .loftTrip die celsius => Sys2Proof.Machine.execLoftTrip die celsius s
  | .junctionCrit core celsius => Sys2Proof.Machine.execJunctionCrit core celsius s
  | .vinLow millivolts => Sys2Proof.Machine.execVinLow millivolts s
  | .vinHigh millivolts => Sys2Proof.Machine.execVinHigh millivolts s
  | .vinCrit millivolts => Sys2Proof.Machine.execVinCrit millivolts s
  | .railFault core => Sys2Proof.Machine.execRailFault core s
  | .phaseLoss phase => Sys2Proof.Machine.execPhaseLoss phase s
  | .cpWatchdog cp => Sys2Proof.Machine.execCpWatchdog cp s
  | .hubClockLoss lost => Sys2Proof.Machine.execHubClockLoss lost s
  | .glitch => Sys2Proof.Machine.execGlitch s
  | .vaneWatchdog => Sys2Proof.Machine.execVaneWatchdog s
  | .capControlInterval watts => Sys2Proof.Machine.execCapControlInterval watts s
  | .powerSample watts average100 => Sys2Proof.Machine.execPowerSample watts average100 s
  | .thermalPredict junctions lofts => Sys2Proof.Machine.execThermalPredict junctions lofts s
  | .coldStartEnd => Sys2Proof.Machine.execColdStartEnd s
  | .droop island share => Sys2Proof.Machine.execDroop island share s
  | .droopRecover island => Sys2Proof.Machine.execDroopRecover island s
  | .attest who nonce flags => Sys2Proof.Machine.execAttest who nonce flags s
  | .open1 address port mac vlan ipv6 tag payload => Sys2Proof.Machine.execOpen1 address port mac vlan ipv6 tag payload s
  | .open3 who payload => Sys2Proof.Machine.execOpen3 who payload s
  | .openAbandon session => Sys2Proof.Machine.execOpenAbandon session s
  | .sessionClose peer tag => Sys2Proof.Machine.execSessionClose peer tag s
  | .sessionIdle session => Sys2Proof.Machine.execSessionIdle session s
  | .claim who record => Sys2Proof.Machine.execClaim who record s
  | .keyInstall peer tag kind key => Sys2Proof.Machine.execKeyInstall peer tag kind key s
  | .keyRemove peer tag kind digest => Sys2Proof.Machine.execKeyRemove peer tag kind digest s
  | .certFloor peer tag floor => Sys2Proof.Machine.execCertFloor peer tag floor s
  | .macsecSa peer tag transmit an sak salt ssci sci pn => Sys2Proof.Machine.execMacsecSa peer tag transmit an sak salt ssci sci pn s
  | .macsecClear peer tag => Sys2Proof.Machine.execMacsecClear peer tag s
  | .tagStage peer tag offset data => Sys2Proof.Machine.execTagStage peer tag offset data s
  | .tagCommit peer tag expected digest => Sys2Proof.Machine.execTagCommit peer tag expected digest s
  | .fwStage peer tag offset data => Sys2Proof.Machine.execFwStage peer tag offset data s
  | .fwVerify peer tag => Sys2Proof.Machine.execFwVerify peer tag s
  | .fwActivate peer tag => Sys2Proof.Machine.execFwActivate peer tag s
  | .fwHandover peer tag => Sys2Proof.Machine.execFwHandover peer tag s
  | .dimmRemove peer tag channel => Sys2Proof.Machine.execDimmRemove peer tag channel s
  | .dimmInsert peer tag channel => Sys2Proof.Machine.execDimmInsert peer tag channel s
  | .siloFence peer tag row => Sys2Proof.Machine.execSiloFence peer tag row s
  | .fenceRetry => Sys2Proof.Machine.execFenceRetry s
  | .granuleRetire address => Sys2Proof.Machine.execGranuleRetire address s
  | .telReplay peer tag ring first count => Sys2Proof.Machine.execTelReplay peer tag ring first count s
  | .alarmList peer tag first => Sys2Proof.Machine.execAlarmList peer tag first s
  | .telemetryRecord record => Sys2Proof.Machine.execTelemetryRecord record s
  | .telemExport => Sys2Proof.Machine.execTelemExport s
  | .squallTick => Sys2Proof.Machine.execSquallTick s
  | .summaryFlush => Sys2Proof.Machine.execSummaryFlush s
  | .secErase data => Sys2Proof.Machine.execSecErase data s
  | .tapReset => Sys2Proof.Machine.execTapReset s
  | .extest boundary => Sys2Proof.Machine.execExtest boundary s
  | .samplePreload boundary => Sys2Proof.Machine.execSamplePreload boundary s
  | .idcode => Sys2Proof.Machine.execIdcode s
  | .highz => Sys2Proof.Machine.execHighz s
  | .clamp => Sys2Proof.Machine.execClamp s
  | .bypass => Sys2Proof.Machine.execBypass s
  | .patrolScrub address finding => Sys2Proof.Machine.execPatrolScrub address finding s
  | .stackChannelFailed stack row => Sys2Proof.Machine.execStackChannelFailed stack row s
  | .refclkReturn => Sys2Proof.Machine.execRefclkReturn s
  | .stallRestoreDone core slot => Sys2Proof.Machine.execStallRestoreDone core slot s
  | .cpBootDone cp => Sys2Proof.Machine.execCpBootDone cp s
  | .eraseComplete => Sys2Proof.Machine.execEraseComplete s
  | .pfcPauseRefresh priority fillPercent => Sys2Proof.Machine.execPfcPauseRefresh priority fillPercent s

end Sys2Proof.Machine
end

