-- ==== Sys2Proof/WellFormed.lean ====
section
/-! DEFINITION. Well-formed commands: the operands that the manual's records, messages and tables can carry, where an operand's type is
wider than they are. -/

namespace Sys2Proof

/-- The largest Bale payload in bytes (10 "Ethernet and Bale registers": 140 units of 64 bytes). -/
def regPayload : Nat := 8960

/-- A block that has a GUARD register (12 R301 and the register tables). -/
def hasGuard : Block → Bool
  | .vane | .trn | .stream => false
  | .hub | .pmc | .eth | .audio | .tel | .cfg | .sec | .tier => true
  | .core _ | .bay _ => true

/-- A received frame's fields fit their widths (10 R240, R241, R244). -/
def EthFrame.wellFormed (f : EthFrame) : Bool :=
  decide (f.dscp < 64) && (match f.vlanPcp with | some p => decide (p < 8) | none => true) &&
    (match f.macsec with | some (an, _, _) => decide (an < 4) | none => true)

/-- A command that the manual's forms can spell. -/
def Instr.wellFormed : Instr → Bool
  | .cfgLoad .. => true
  | .cfgData _ offset data => decide (offset.toNat % 64 = 0 ∧ data.length ≤ regPayload)
  | .signatureCheckDone .. => true
  | .cfgCommit .. => true
  | .cfgAbort .. => true
  | .cfgAck .. => true
  | .cfgResume .. => true
  | .bayMove _ _ core _ => decide (core.toNat < 36)
  | .spareSelfTestDone .. => true
  | .moveCopyDone .. => true
  | .moveWeightsDone .. => true
  | .bayLullReached .. => true
  | .commitCopyADone .. => true
  | .commitCopyBDone .. => true
  | .tablesApplied .. => true
  | .lullRequest .. => true
  | .lullRelease .. => true
  | .serialFloorHiWrite .. => true
  | .serialFloorLoWrite .. => true
  | .cfgcrcRefWrite .. => true
  | .crcSweepEnd .. => true
  | .cfgRefMissing .. => true
  | .loftRowRemap .. => true
  | .doubleRefresh .. => true
  | .refreshNormal .. => true
  | .tableWalk .. => true
  | .trnInv .. => true
  | .trnInvDone .. => true
  | .fqTailWrite .. => true
  | .faultResume .. => true
  | .mtAssign .. => true
  | .mtRelease .. => true
  | .mtMigrate .. => true
  | .mtEnlist .. => true
  | .mtCancel .. => true
  | .mtOffline .. => true
  | .mtOnline .. => true
  | .migrationStart .. => true
  | .migrationFirstInvDone .. => true
  | .migrationCopyDone .. => true
  | .migrationEnd .. => true
  | .spillCheck .. => true
  | .dispSubmit .. => true
  | .sheafPlace .. => true
  | .passBoundary .. => true
  | .evictionCheck .. => true
  | .stallSaveDone .. => true
  | .stallWake .. => true
  | .sheafDone .. => true
  | .sheafOverrun .. => true
  | .coreFault .. => true
  | .seqHang .. => true
  | .coreHold .. => true
  | .coreRelease .. => true
  | .staggerEnd .. => true
  | .mxePass .. => true
  | .vxeElementwise .. => true
  | .rowReduction .. => true
  | .layerNorm .. => true
  | .rmsNorm .. => true
  | .softmax .. => true
  | .scale .. => true
  | .quant .. => true
  | .dequant .. => true
  | .rescale .. => true
  | .bseDot .. => true
  | .bseWsum .. => true
  | .bseShareDone .. => true
  | .scArm .. => true
  | .scStart .. => true
  | .scPause .. => true
  | .scResume .. => true
  | .scDrain .. => true
  | .scAbort .. => true
  | .scResetState .. => true
  | .scRecheck .. => true
  | .streamInputFrames _ _ _ _ count data => decide (1 ≤ count ∧ data.length % count = 0 ∧ 16 + data.length ≤ regPayload)
  | .chunkPost .. => true
  | .batchClose .. => true
  | .batchWindowExpire .. => true
  | .chainEnd .. => true
  | .chunkComplete .. => true
  | .outTailWrite _ sequence index _ => !sequence || decide (index.val < 8192)
  | .alignStart .. => true
  | .alignSlackExpire .. => true
  | .scan .. => true
  | .sqArm .. => true
  | .sqStart .. => true
  | .sqPause .. => true
  | .sqResume .. => true
  | .sqDrain .. => true
  | .sqAbort .. => true
  | .sqRecheck .. => true
  | .attScore .. => true
  | .attValue .. => true
  | .attentionPassDone .. => true
  | .stepComplete .. => true
  | .swEnd .. => true
  | .swBase .. => true
  | .swRowbase .. => true
  | .swLoop .. => true
  | .swStep .. => true
  | .swCset .. => true
  | .swMove .. => true
  | .swGet .. => true
  | .swWait .. => true
  | .swSignal .. => true
  | .swFree .. => true
  | .swSyncPost .. => true
  | .swSyncWait .. => true
  | .swEndloop .. => true
  | .swRotate .. => true
  | .ringTileDelivery .. => true
  | .triggeredInstance .. => true
  | .bseQueueService .. => true
  | .queueFlush .. => true
  | .swCancel .. => true
  | .gleanDone .. => true
  | .cchArm .. => true
  | .cchCancel .. => true
  | .cchTransferDone .. => true
  | .laneFail .. => true
  | .trainingDone .. => true
  | .trainingFail .. => true
  | .linkRetry .. => true
  | .retrain .. => true
  | .restore .. => true
  | .peerReset .. => true
  | .linkAnFallback .. => true
  | .ethernetFrameRx frame => frame.wellFormed
  | .pfcPauseRx .. => true
  | .pfcPauseEnd .. => true
  | .cnpRx .. => true
  | .ecnRateRaise .. => true
  | .regMessage _ _ ops => decide (1 ≤ ops.length ∧ 8 + 16 * ops.length ≤ regPayload)
  | .regReadTimeout .. => true
  | .streamQueuePiece _ _ _ offset length _ data => decide (offset + data.length ≤ length ∧ data.length ≤ regPayload)
  | .baleAckRx .. => true
  | .baleAckTimer .. => true
  | .baleRetransmit .. => true
  | .baleProbe .. => true
  | .queueBoundSend .. => true
  | .eventMessageSend .. => true
  | .roceRdmaWrite req _ => decide (req.psn < 2 ^ 24)
  | .roceRdmaRead req _ => decide (req.psn < 2 ^ 24)
  | .roceSend _ psn _ => decide (psn < 2 ^ 24)
  | .roceAckRx _ psn _ => decide (psn < 2 ^ 24)
  | .roceAckTimeout .. => true
  | .connOpen .. => true
  | .connError .. => true
  | .connReset .. => true
  | .connErrorReport .. => true
  | .peerEntryWrite .. => true
  | .pllLock .. => true
  | .pllUnlock .. => true
  | .apPllCtrlWrite .. => true
  | .apStart .. => true
  | .apStop .. => true
  | .apRestart .. => true
  | .groupStart .. => true
  | .groupStop .. => true
  | .astartEdge .. => true
  | .leadInDone .. => true
  | .leadOutDone .. => true
  | .audioFrame .. => true
  | .clockLost .. => true
  | .capturePeriodEnd .. => true
  | .playbackPeriodFetch .. => true
  | .portdArm .. => true
  | .portdCancel .. => true
  | .rateWindowEnd .. => true
  | .registerWrite .. => true
  | .trnInvDoneTagRead .. => true
  | .mtCmdStatusRead .. => true
  | .mtUeAddrRead .. => true
  | .hubCommitStatusRead .. => true
  | .swCancelStatusRead .. => true
  | .cchStatusRead .. => true
  | .apRateRead .. => true
  | .repStatusRead .. => true
  | .hubCommit .. => true
  | .hubCommitDone .. => true
  | .guardOpen _ block => hasGuard block
  | .guardExpire .. => true
  | .eventHoldoffEnd status => decide (status.toNat % 4 = 0)
  | .eventRateWindow .. => true
  | .rcRefresh .. => true
  | .kick .. => true
  | .ackAlarm .. => true
  | .setTrip .. => true
  | .setAction .. => true
  | .leaveSafe .. => true
  | .powerOnReset .. => true
  | .startupComplete .. => true
  | .granaryChannelOnline .. => true
  | .addressRecord .. => true
  | .resetNAssert .. => true
  | .resetNDeassert .. => true
  | .chipReset .. => true
  | .warmRestartComplete .. => true
  | .bayReset .. => true
  | .coreReset .. => true
  | .powerLoss .. => true
  | .junctionTrip .. => true
  | .loftTrip .. => true
  | .junctionCrit .. => true
  | .vinLow .. => true
  | .vinHigh .. => true
  | .vinCrit .. => true
  | .railFault .. => true
  | .phaseLoss .. => true
  | .cpWatchdog .. => true
  | .hubClockLoss .. => true
  | .glitch .. => true
  | .vaneWatchdog .. => true
  | .capControlInterval watts => decide (watts < 4096)
  | .powerSample watts average100 => decide (watts < 4096 ∧ average100 < 4096)
  | .thermalPredict junctions lofts => decide (junctions.length = 36 ∧ lofts.length = 4)
  | .coldStartEnd .. => true
  | .droop _ share => decide (share ≤ 10000)
  | .droopRecover .. => true
  | .attest .. => true
  | .open1 .. => true
  | .open3 .. => true
  | .openAbandon .. => true
  | .sessionClose .. => true
  | .sessionIdle .. => true
  | .claim .. => true
  | .keyInstall .. => true
  | .keyRemove .. => true
  | .certFloor .. => true
  | .macsecSa .. => true
  | .macsecClear .. => true
  | .tagStage .. => true
  | .tagCommit .. => true
  | .fwStage .. => true
  | .fwVerify .. => true
  | .fwActivate .. => true
  | .fwHandover .. => true
  | .dimmRemove .. => true
  | .dimmInsert .. => true
  | .siloFence .. => true
  | .fenceRetry .. => true
  | .granuleRetire address => decide (address < 2 ^ 52)
  | .telReplay .. => true
  | .alarmList .. => true
  | .telemetryRecord record => decide (record.length = 32)
  | .telemExport .. => true
  | .squallTick .. => true
  | .summaryFlush .. => true
  | .secErase .. => true
  | .tapReset .. => true
  | .extest .. => true
  | .samplePreload .. => true
  | .idcode .. => true
  | .highz .. => true
  | .clamp .. => true
  | .bypass .. => true
  | .patrolScrub address _ => decide (address < 2 ^ 52)
  | .stackChannelFailed .. => true
  | .refclkReturn .. => true
  | .stallRestoreDone .. => true
  | .cpBootDone .. => true
  | .eraseComplete .. => true
  | .pfcPauseRefresh _ fillPercent => decide (fillPercent ≤ 100)

end Sys2Proof
end

