-- ==== Sys2Proof/Safety.lean ====
section
/-! DEFINITION. What a safe step is, in the terms that statements use: a command that runs and the state that it leaves; the conditions of a
register access; the form of memory that every step keeps. -/

namespace Sys2Proof.Machine

/-- A step goes on: it neither faults nor is refused. -/
def SafeStep (s : State) : Prop := ∃ t, step s = .next t

/-- A command answers a next state in `s`: the state `t` that its effect leaves, with the event records of the status bits that rose
(`settle`, 12 R303), which changes nothing but the event queue, its limits and `EB_EVENT_LOST`. -/
def Runs (c : Instr) (s t : State) : Prop := exec c s = .next (settle s t)

/-- Memory stands in its canonical form: addresses strictly rising, and no byte listed that reads as an unlisted one (16 R383). -/
abbrev State.MemoryCanonical (s : State) : Prop := Memory.wf s.mem

/-- A source may write a place: it has a session or needs none (10 R251), it holds the role (14 R342), and no power-gated core island is
in the way (12 R298). -/
abbrev State.MayWrite (s : State) (src : Source) (key : Nat) : Prop :=
  s.admitted src = true ∧ s.hasRole src (writeRole key) = true ∧ s.placeGated key = false

/-- A source may read: it has a session or needs none, and it holds the role READ (10 R251, 14 R342). -/
abbrev State.MayRead (s : State) (src : Source) : Prop := s.admitted src = true ∧ s.hasRole src .read = true

/-- A source holds the guard of a place's block open (12 R301). -/
abbrev State.GuardHeld (s : State) (src : Source) (key : Nat) : Prop := s.guard src = some (blockOf key)

/-- A source may give a guarded command: it may write, and it holds the guard of the block open (12 R301). -/
abbrev State.MayCommand (s : State) (src : Source) (key : Nat) : Prop := s.MayWrite src key ∧ s.GuardHeld src key

/-- The state in which an accepted guarded command acts: the guard has closed, and the command register holds the word written (12 R290,
R301). -/
def State.Commanded (s : State) (src : Source) (key : Nat) (v : Word) : State := (s.closeGuard src).setReg key v

/-- The state after a write that is not refused has closed the guard that its source held on the block (12 R301). -/
def State.Entered (s : State) (src : Source) (key : Nat) : State := s.writeCloses src (blockOf key)

/-- The RK register that a guarded command writes, and the source that writes it (12 R301; every chapter, "Registers"). -/
def guardedPlace (s : State) : Instr → Option (Source × Nat)
  | .cfgLoad src => some (src, Reg.CFG_CMD)
  | .cfgCommit src => some (src, Reg.CFG_CMD)
  | .cfgAbort src => some (src, Reg.CFG_CMD)
  | .cfgAck src => some (src, Reg.CFG_CMD)
  | .cfgResume src => some (src, Reg.CFG_CMD)
  | .bayMove src _ _ _ => some (src, Reg.CFG_CMD)
  | .lullRequest src _ => some (src, Reg.CFG_LULL_REQ)
  | .lullRelease src _ => some (src, Reg.CFG_LULL_REQ)
  | .serialFloorHiWrite src _ => some (src, Reg.CFG_SERIAL_FLOOR_HI)
  | .serialFloorLoWrite src _ => some (src, Reg.CFG_SERIAL_FLOOR_LO)
  | .cfgcrcRefWrite src _ => some (src, Reg.CFGCRC_REF)
  | .mtAssign src _ => some (src, Reg.MT_CMD)
  | .mtRelease src _ => some (src, Reg.MT_CMD)
  | .mtMigrate src _ _ => some (src, Reg.MT_CMD)
  | .mtEnlist src _ => some (src, Reg.MT_CMD)
  | .mtCancel src _ => some (src, Reg.MT_CMD)
  | .mtOffline src => some (src, Reg.MT_CMD)
  | .mtOnline src => some (src, Reg.MT_CMD)
  | .coreHold src core => some (src, Reg.CORE_CMD core.val)
  | .coreRelease src core => some (src, Reg.CORE_CMD core.val)
  | .queueFlush src bay => some (src, Reg.SW_Q_CMD bay.val (fld (s.reg (Reg.SW_Q_SEL bay.val)) 11 0))
  | .swCancel src bay => some (src, Reg.SW_CANCEL_CMD bay.val)
  | .cchArm src bay ch => some (src, Reg.CCH_CMD bay.val ch.val)
  | .cchCancel src bay ch => some (src, Reg.CCH_CMD bay.val ch.val)
  | .retrain src => some (src, Reg.EB_CMD)
  | .restore src => some (src, Reg.EB_CMD)
  | .peerReset src _ => some (src, Reg.EB_CMD)
  | .connOpen src => some (src, Reg.EB_CONN_CMD s.connSelected)
  | .connError src => some (src, Reg.EB_CONN_CMD s.connSelected)
  | .connReset src => some (src, Reg.EB_CONN_CMD s.connSelected)
  | .apPllCtrlWrite src _ => some (src, Reg.AP_PLL_CTRL)
  | .apStart src port => some (src, Reg.AP_CMD port.val)
  | .apStop src port => some (src, Reg.AP_CMD port.val)
  | .apRestart src port => some (src, Reg.AP_CMD port.val)
  | .groupStart src => some (src, Reg.AP_GROUP_CMD s.gsel)
  | .groupStop src => some (src, Reg.AP_GROUP_CMD s.gsel)
  | .portdArm src port => some (src, Reg.AP_PORTD_CMD port.val)
  | .portdCancel src port => some (src, Reg.AP_PORTD_CMD port.val)
  | .hubCommit src _ => some (src, Reg.HUB_COMMIT)
  | _ => none

/-- The register without a guard that a command writes, and the source that writes it. -/
def openPlace (s : State) : Instr → Option (Source × Nat)
  | .trnInv src _ => some (src, Reg.TRN_INV_CMD)
  | .fqTailWrite src _ => some (src, Reg.TRN_FQ_TAIL)
  | .faultResume src _ _ => some (src, Reg.TRN_FAULT_RESUME)
  | .dispSubmit src bay _ => some (src, Reg.DISP_SUBMIT_HI bay.val)
  | .scArm src sid => some (src, Reg.SC_CMD sid.val)
  | .scStart src sid => some (src, Reg.SC_CMD sid.val)
  | .scPause src sid => some (src, Reg.SC_CMD sid.val)
  | .scResume src sid => some (src, Reg.SC_CMD sid.val)
  | .scDrain src sid => some (src, Reg.SC_CMD sid.val)
  | .scAbort src sid => some (src, Reg.SC_CMD sid.val)
  | .scResetState src sid => some (src, Reg.SC_CMD sid.val)
  | .scRecheck src sid => some (src, Reg.SC_CMD sid.val)
  | .sqArm src q => some (src, Reg.SQ_CMD q.val)
  | .sqStart src q => some (src, Reg.SQ_CMD q.val)
  | .sqPause src q => some (src, Reg.SQ_CMD q.val)
  | .sqResume src q => some (src, Reg.SQ_CMD q.val)
  | .sqDrain src q => some (src, Reg.SQ_CMD q.val)
  | .sqAbort src q => some (src, Reg.SQ_CMD q.val)
  | .sqRecheck src q => some (src, Reg.SQ_CMD q.val)
  | .alignStart src bay => some (src, Reg.BAT_ALIGN_CMD bay.val (fld (s.reg (Reg.BAT_ASEL bay.val)) 9 0))
  | .outTailWrite src sequence index _ =>
    some (src, ctxReg sequence (if sequence then index.val % 8192 else index.val) 0x50)
  | .peerEntryWrite src peer _ => some (src, peerWord peer.val 0)
  | _ => none

/-- The register that a read command reads, and the source (12 R291). -/
def readPlace : Instr → Option (Source × Nat)
  | .trnInvDoneTagRead src => some (src, Reg.TRN_INV_DONE_TAG)
  | .mtCmdStatusRead src => some (src, Reg.MT_CMD_STATUS)
  | .mtUeAddrRead src => some (src, Reg.MT_UE_ADDR_LO)
  | .hubCommitStatusRead src => some (src, Reg.HUB_COMMIT_STATUS)
  | .swCancelStatusRead src bay => some (src, Reg.SW_CANCEL_STATUS bay.val)
  | .cchStatusRead src bay ch => some (src, Reg.CCH_STATUS bay.val ch.val)
  | .apRateRead src port => some (src, Reg.AP_RATE port.val)
  | .repStatusRead src => some (src, Reg.REP_STATUS)
  | _ => none

/-- The status bit that is live until a register is read: its status register and its position (12 R291). -/
def readLatch : Instr → Option (Nat × Nat)
  | .trnInvDoneTagRead _ => some (Reg.TRN_EVENT_STATUS, 0)
  | .mtCmdStatusRead _ => some (Reg.MT_EVENT_STATUS, 0)
  | .mtUeAddrRead _ => some (Reg.MT_EVENT_STATUS, 3)
  | .hubCommitStatusRead _ => some (Reg.HUB_EVENT_STATUS, 1)
  | .swCancelStatusRead _ bay => some (Reg.SW_EVENT_STATUS bay.val, 0)
  | .cchStatusRead _ bay ch => some (Reg.CCH_STATUS bay.val ch.val, 0)
  | .apRateRead _ port => some (Reg.AP_PORT_EVENT_STATUS port.val, 1)
  | .repStatusRead _ => some (Reg.TEL_EVENT_STATUS, 2)
  | _ => none

/-- What an engine instruction leaves: its result bytes in the crib, marked or clean, and the core's counters (05 R132, R134). -/
def State.rowDone (s : State) (i : Nat) (x : Inst) (dst : Nat) (o : Bytes × Tally) (mark : Bool) : State :=
  (s.setInst i (x.cribWrite dst o.1 mark)).tally x.core o.2

/-- An instance may run an instruction of an engine: it issues, its sheaf uses the engine, and the token that the instruction waits on holds its
count (04 R87, R99; 09 R214). -/
abbrev State.EngineRuns (s : State) (r : EngineRef) (engine i : Nat) (x : Inst) : Prop :=
  s.engineRun r.stall engine = some (i, x) ∧ x.awaited r.await = true

/-- An instance may run an operation of the VXE on a row: the instruction runs, and the areas lie in its crib (05 R123). -/
abbrev State.RowRuns (s : State) (r : EngineRef) (row : VxeRow) (reads : List (Nat × Nat)) (outLen i : Nat) (x : Inst) : Prop :=
  s.EngineRuns r engineVxe i x ∧ rowOk x row reads (row.dst, outLen) = true

/-- Some operand area holds a marked line (05 R134). -/
def Inst.anyMarked (x : Inst) (reads : List (Nat × Nat)) : Bool := reads.any fun a => x.cribMarked a.1 a.2

/-- The row operations of the VXE: where the instruction runs, the row, the areas read, the bytes written, and whether the formats and the table are legal
(05 R123 to R131). -/
def rowOperation (x : Inst) : Instr → Option (EngineRef × VxeRow × List (Nat × Nat) × Nat × Bool)
  | .vxeElementwise r op row => some (r, row, opReads op row, vecBytes row.outFmt row.count, true)
  | .rowReduction r _ row => some (r, row, [rowArea row row.a], vecBytes row.outFmt 1, true)
  | .layerNorm r row _ => some (r, row, [rowArea row row.a, rowArea row row.b, rowArea row row.c], vecBytes row.outFmt row.count, true)
  | .rmsNorm r row _ => some (r, row, [rowArea row row.a, rowArea row row.b], vecBytes row.outFmt row.count, true)
  | .softmax r row => some (r, row, [rowArea row row.a], vecBytes row.outFmt row.count, true)
  | .scale r row target => some (r, row, [rowArea row row.a], 4, (qmax target).isSome)
  | .quant r row target => some (r, row, [rowArea row row.a, (row.b, 4)], vecBytes target row.count, (qmax target).isSome)
  | .dequant r row =>
    some (r, row, [rowArea row row.a, (row.b, 4)], vecBytes row.outFmt row.count, row.outFmt = .fp32 || row.outFmt = .bf16)
  | .rescale r o =>
    let row : VxeRow := ⟨o.count, .int32, o.out, o.src, 0, 0, o.dst⟩
    let tokens := ceilDiv o.count (max o.channels 1)
    some (r, row, [rowArea row o.src, (o.table, rescaleCount o.mode o.channels tokens * 8)], vecBytes o.out o.count,
      decide (1 ≤ o.channels) && rescaleOk x o.out o.mode o.table o.channels tokens)
  | _ => none

/-- The row of the table that runs a swath operation (09 R210). -/
def swathRow (r : ProgRef) : SwOp → Instr
  | .end_ .. => .swEnd r
  | .base .. => .swBase r
  | .rowbase .. => .swRowbase r
  | .loop .. => .swLoop r
  | .step .. => .swStep r
  | .cset .. => .swCset r
  | .move .. => .swMove r
  | .get .. => .swGet r
  | .wait .. => .swWait r
  | .signal .. => .swSignal r
  | .free .. => .swFree r
  | .syncPost .. => .swSyncPost r
  | .syncWait .. => .swSyncWait r
  | .endloop .. => .swEndloop r
  | .rotate .. => .swRotate r

/-- The rows of the table that run swath operations (09 R210). -/
def swathRows (r : ProgRef) : List Instr :=
  [.swEnd r, .swBase r, .swRowbase r, .swLoop r, .swStep r, .swCset r, .swMove r, .swGet r, .swWait r, .swSignal r, .swFree r, .swSyncPost r,
   .swSyncWait r, .swEndloop r, .swRotate r]

/-- A request that Vane evaluates: the slot's sequence word changes, Vane runs, and no reset as strong as a chip reset is under way
(13 R313, R328). -/
abbrev State.MayAsk (s : State) (slot : Fin 5) (seq : Word) : Prop :=
  AMap.getD s.vane.inbox (slot.val * 16) 0 ≠ seq ∧ s.vane.running = true ∧ s.resetUnderWay < 3

/-- The state in which a slot's request is evaluated: its three words stand in the in-box (13 R313). -/
def State.asked (s : State) (slot : Fin 5) (seq : Word) (op target : Nat) (arg : Word) : State :=
  ((s.setInbox (slot.val * 16) seq).setInbox (slot.val * 16 + 1) (w32 (op + target * 65536))).setInbox (slot.val * 16 + 2) arg

/-- A request has been answered with a result (13 R313). -/
def State.answered (s : State) (slot : Fin 5) (seq : Word) (op result : Nat) : State :=
  s.setReg (Reg.VANE_MBOX_RESP_OF slot.val) (w32 (result + op * 256 + seq.toNat % 65536 * 65536))

/-- A management operation that reaches its effect: the peer has a session, and the session holds the role (10 R251, 14 R342). -/
abbrev State.MayManage (s : State) (peer : Nat) (role : Role) : Prop := s.session peer ≠ none ∧ s.peerRole peer role = true

/-- A management message has taken effect, and its reply leaves (10 R249, 14 R347). -/
def State.replied (s : State) (peer op : Nat) (tag : BitVec 16) (status : Nat) : State := (s.effectOf peer 7).mgmtReply peer op tag status []

/-- The commands that may write a byte of memory, a tag word, a record of a fault, a header or a page that moves among them; no other command does. -/
def storing : Instr → Bool
  | .cfgData .. | .cfgCommit .. | .cfgAbort .. | .cfgResume .. | .spareSelfTestDone .. | .moveCopyDone .. | .bayLullReached .. |
    .commitCopyBDone .. | .tablesApplied .. | .lullRequest .. | .lullRelease .. | .crcSweepEnd .. | .cfgRefMissing .. | .tableWalk .. |
    .fqTailWrite .. | .faultResume .. | .mtCancel .. | .migrationStart .. | .migrationCopyDone .. | .migrationEnd .. | .sheafPlace .. |
    .stallSaveDone .. | .stallWake .. | .sheafDone .. | .sheafOverrun .. | .coreFault .. | .seqHang .. | .staggerEnd .. | .mxePass .. |
    .vxeElementwise .. | .rowReduction .. | .layerNorm .. | .rmsNorm .. | .softmax .. | .scale .. | .quant .. | .dequant .. |
    .rescale .. | .bseDot .. | .bseWsum .. | .bseShareDone .. | .scPause .. | .scDrain .. | .scAbort .. | .scRecheck .. |
    .streamInputFrames .. | .chunkPost .. | .batchClose .. | .batchWindowExpire .. | .chainEnd .. | .chunkComplete .. | .outTailWrite .. |
    .alignSlackExpire .. | .scan .. | .sqArm .. | .sqStart .. | .sqResume .. | .sqDrain .. | .sqRecheck .. | .attScore .. | .attValue .. |
    .attentionPassDone .. | .stepComplete .. | .swEnd .. | .swBase .. | .swRowbase .. | .swLoop .. | .swStep .. | .swCset .. |
    .swMove .. | .swGet .. | .swWait .. | .swSignal .. | .swFree .. | .swSyncPost .. | .swSyncWait .. | .swEndloop .. | .swRotate .. |
    .ringTileDelivery .. | .bseQueueService .. | .swCancel .. | .gleanDone .. | .cchCancel .. | .cchTransferDone .. | .peerReset .. |
    .ethernetFrameRx .. | .regMessage .. | .streamQueuePiece .. | .baleAckRx .. | .queueBoundSend .. | .roceRdmaWrite .. |
    .roceRdmaRead .. | .roceSend .. | .roceAckRx .. | .connErrorReport .. | .peerEntryWrite .. | .apStart .. | .leadInDone .. |
    .leadOutDone .. | .audioFrame .. | .capturePeriodEnd .. | .playbackPeriodFetch .. | .rateWindowEnd .. | .registerWrite .. |
    .leaveSafe .. | .powerOnReset .. | .startupComplete .. | .granaryChannelOnline .. | .resetNAssert .. | .resetNDeassert .. |
    .chipReset .. | .warmRestartComplete .. | .bayReset .. | .coreReset .. | .powerLoss .. | .junctionTrip .. | .loftTrip .. |
    .junctionCrit .. | .vinLow .. | .vinHigh .. | .vinCrit .. | .railFault .. | .phaseLoss .. | .cpWatchdog .. | .hubClockLoss .. |
    .glitch .. | .droop .. | .open1 .. | .open3 .. | .openAbandon .. | .fwHandover .. | .dimmRemove .. | .dimmInsert .. | .siloFence .. |
    .fenceRetry .. | .granuleRetire .. | .patrolScrub .. | .stackChannelFailed .. | .stallRestoreDone .. | .eraseComplete .. => true
  | _ => false

end Sys2Proof.Machine
end

