-- ==== Sys2Proof/Certificates/Slice0/Obligations.lean ====
section
/-! DEFINITION. The statements of this row: what commands do, from the rules of the manual, family by family; the invariants that every step
keeps. A clause `exec c s = .next (settle s t)` says that command `c` completes in `s`: it answers the state `t`, whose event block then holds the
records of what rose. -/

open Sys2Proof Sys2Proof.Machine

/-- Every step takes the command at the front of the queue, and is that command's effect on the state with the queue's rest; on an empty
queue a REFCLK period passes (01 R24; the tick is the model's choice: log 1). -/
def Obligations.StepRunsFrontCommand : Prop :=
  (∀ (c : Instr) (rest : List Instr) (s : State), s.pending = c :: rest → step s = exec c { s with pending := rest }) ∧
  ∀ s : State, s.pending = [] → step s = .next (tick s)

/-- What the end of a command adds (12 R303, R304, 10 R258): event records, their limits, and `EB_EVENT_LOST`; every other register
and every other part of the state stays as the command's effect left it. -/
def Obligations.EventsLeaveTheRest : Prop :=
  ∀ s t : State, settle s t = { t with events := (settle s t).events, regs := (settle s t).regs } ∧
    ∀ key, key ≠ Reg.EB_EVENT_LOST → (settle s t).cell key = t.cell key

/-- An event bit that rises makes one record with the status register's canonical address, the bits and the local interval counter, where
no limit is in the way; within a holdoff, behind a pending record or in a full window it is ORed into the register's pending record
(12 R303, R304). -/
def Obligations.EventRecordsAndLimits : Prop :=
  (∀ (s : State) (addr : Nat) (bits : Word), (AMap.getD s.events.holds addr ⟨false, none⟩) = ⟨false, none⟩ →
    s.events.window < s.eventRate → s.events.queue.length < 1024 →
    s.rise addr bits = { s with events := { s.events with
      window := s.events.window + 1
      queue := s.events.queue ++ [⟨s.canonical addr, bits, s.lic⟩]
      holds := AMap.set s.events.holds addr ⟨s.holdoff ≠ 0, none⟩ } }) ∧
  (∀ (s : State) (addr : Nat) (bits w : Word) (t : W64) (r : Bool), AMap.get? s.events.holds addr = some ⟨r, some (w, t)⟩ →
    s.rise addr bits = { s with events := { s.events with holds := AMap.set s.events.holds addr ⟨r, some (w ||| bits, t)⟩ } }) ∧
  (∀ (s : State) (status : Word) (addr : Nat) (w : Word) (t : W64),
    s.events.holds.find? (fun e => decide (s.canonical e.1 = status.toNat) && e.2.running) = some (addr, ⟨true, some (w, t)⟩) →
    AMap.get? s.events.holds addr = some ⟨true, some (w, t)⟩ → s.events.window < s.eventRate → s.events.queue.length < 1024 →
    exec (.eventHoldoffEnd status) s = .next (settle s { s with events := { s.events with
      window := s.events.window + 1
      queue := s.events.queue ++ [⟨s.canonical addr, w, t⟩]
      holds := AMap.set s.events.holds addr ⟨s.holdoff ≠ 0, none⟩ } })) ∧
  (∀ (s : State) (status : Word) (addr : Nat),
    s.events.holds.find? (fun e => decide (s.canonical e.1 = status.toNat) && e.2.running) = some (addr, ⟨true, none⟩) →
    AMap.get? s.events.holds addr = some ⟨true, none⟩ →
    exec (.eventHoldoffEnd status) s = .next (settle s { s with events := { s.events with holds := AMap.erase s.events.holds addr } })) ∧
  ∀ s : State, s.events.holds.all (fun e => e.2.running || e.2.pending.isNone) = true →
    exec .eventRateWindow s = .next (settle s { s with events := { s.events with window := 0 } })

/-- A write to an RO, RL or RC register, or to a field that is not writable, has no effect but that it closes the source's guard, and
returns OK; a read of a WO register returns zero (12 R292). -/
def Obligations.WritesWithoutEffect : Prop :=
  (∀ (s : State) (src : Source) (addr : Nat) (v : Word) (key : Nat) (d : RegDesc), s.landing addr = .place key → descOf key = some d →
    s.MayWrite src key → ¬ (0x00100000 ≤ addr ∧ addr < 0x00200000) → guardReg (blockOf key) ≠ some key →
    (d.access = .ro ∨ d.access = .rl ∨ d.access = .rc) → s.writeAt src addr v = (s.Entered src key, .ok)) ∧
  (∀ (s : State) (src : Source) (addr : Nat) (v w : Word) (key : Nat) (d : RegDesc), s.landing addr = .place key → descOf key = some d →
    ¬ (0x00100000 ≤ addr ∧ addr < 0x00200000) → guardReg (blockOf key) ≠ some key → d.access ≠ .wo →
    v &&& d.mask = w &&& d.mask → s.writeAt src addr v = s.writeAt src addr w) ∧
  ∀ (s : State) (key : Nat) (d : RegDesc), descOf key = some d → d.access = .wo → s.valueAt key = 0

/-- An address in the stream window refers to one of 16,384 contexts: an access through an alias does what the access at the canonical
address does (12 R307). -/
def Obligations.StreamWindowAliases : Prop :=
  ∀ (s : State) (src : Source) (addr canonical v : Word), 0x04000000 ≤ addr.toNat → addr.toNat < 0x05000000 → addr.toNat % 4 = 0 →
    canonical.toNat = 0x04000000 + (addr.toNat - 0x04000000) % 0x00400000 →
    s.readAt addr.toNat = s.readAt canonical.toNat ∧
    s.writeAt src addr.toNat v = s.writeAt src canonical.toNat v ∧
    exec (.registerWrite src addr v) s = exec (.registerWrite src canonical v) s

/-- A source opens a block's guard with 0xC1A5, by the guard command or a write of the GUARD register, and holds no other; the guard closes when
1 ms passes, with an accepted write of any other register of the block, and with another value in the GUARD register (12 R301). -/
def Obligations.GuardsOpenAndClose : Prop :=
  (∀ (s : State) (src : Source) (block : Block) (key : Nat), guardReg block = some key → s.MayWrite src key →
    exec (.guardOpen src block) s = .next (settle s (s.openGuard src block))) ∧
  (∀ (s : State) (src : Source), exec (.guardExpire src) s = .next (settle s (s.closeGuard src))) ∧
  (∀ (s : State) (src : Source) (block : Block),
    (s.openGuard src block).guard src = some block ∧
    (∀ other, sourceId other ≠ sourceId src → (s.openGuard src block).guard other = s.guard other ∧
      (s.closeGuard src).guard other = s.guard other) ∧
    (AMap.wf s.guards = true → (s.closeGuard src).guard src = none)) ∧
  ∀ (s : State) (src : Source) (addr v : Word) (key : Nat), s.landing addr.toNat = .place key → s.MayWrite src key →
    ¬ (0x00100000 ≤ addr.toNat ∧ addr.toNat < 0x00200000) → guardReg (blockOf key) = some key → (descOf key).isSome = true →
    exec (.registerWrite src addr v) s = .next (settle s (if v = 0xC1A5#32 then s.openGuard src (blockOf key) else s.Entered src key))

/-- A guarded command without its source's open guard changes nothing but `HUB_GUARD_REFUSED`; one of a source without a session, or
without its role, never reaches the guard (12 R301, R302, 10 R251, 14 R342). -/
def Obligations.GuardedCommandsRefused : Prop :=
  ∀ (c : Instr) (s : State) (src : Source) (key : Nat), guardedPlace s c = some (src, key) →
    (s.MayWrite src key → ¬ s.GuardHeld src key → exec c s = .next (settle s (s.count16 Reg.HUB_GUARD_REFUSED))) ∧
    (s.admitted src = false → exec c s = .next (settle s (s.count32 Reg.EB_RX_REFUSED 1))) ∧
    (s.admitted src = true → s.hasRole src (writeRole key) = false → exec c s = .next (settle s (s.count16 Reg.SEC_ROLE_REFUSED)))

/-- A command through a register without a guard, and a read, of a source without a session or without its role has no effect
but the refusal's counter (10 R251, 14 R342). -/
def Obligations.OpenAccessesRefused : Prop :=
  (∀ (c : Instr) (s : State) (src : Source) (key : Nat), openPlace s c = some (src, key) →
    (s.admitted src = false → exec c s = .next (settle s (s.count32 Reg.EB_RX_REFUSED 1))) ∧
    (s.admitted src = true → s.hasRole src (writeRole key) = false → exec c s = .next (settle s (s.count16 Reg.SEC_ROLE_REFUSED)))) ∧
  ∀ (c : Instr) (s : State) (src : Source) (key : Nat), readPlace c = some (src, key) →
    (s.admitted src = false → exec c s = .next (settle s (s.count32 Reg.EB_RX_REFUSED 1))) ∧
    (s.admitted src = true → s.hasRole src .read = false → exec c s = .next (settle s (s.count16 Reg.SEC_ROLE_REFUSED)))

/-- A read that a status bit is live until ends that bit, and changes nothing else (12 R291). -/
def Obligations.ReadsEndStatusBits : Prop :=
  (∀ (s : State) (src : Source), s.MayRead src →
    exec (.trnInvDoneTagRead src) s = .next (settle s (s.unlatch Reg.TRN_EVENT_STATUS 0)) ∧
    exec (.mtCmdStatusRead src) s = .next (settle s (s.unlatch Reg.MT_EVENT_STATUS 0)) ∧
    exec (.mtUeAddrRead src) s = .next (settle s (s.unlatch Reg.MT_EVENT_STATUS 3)) ∧
    exec (.hubCommitStatusRead src) s = .next (settle s (s.unlatch Reg.HUB_EVENT_STATUS 1)) ∧
    exec (.repStatusRead src) s = .next (settle s (s.unlatch Reg.TEL_EVENT_STATUS 2)) ∧
    (∀ bay : Fin 16, exec (.swCancelStatusRead src bay) s = .next (settle s (s.unlatch (Reg.SW_EVENT_STATUS bay.val) 0))) ∧
    (∀ (bay : Fin 16) (ch : Fin 4), exec (.cchStatusRead src bay ch) s = .next (settle s (s.unlatch (Reg.CCH_STATUS bay.val ch.val) 0))) ∧
    ∀ port : Fin 6, exec (.apRateRead src port) s = .next (settle s (s.unlatch (Reg.AP_PORT_EVENT_STATUS port.val) 1))) ∧
  ∀ (c : Instr) (s : State) (src : Source) (key status bitNo : Nat), readPlace c = some (src, key) → readLatch c = some (status, bitNo) →
    s.MayRead src →
    exec c s = .next (settle s { s with latches := AMap.set s.latches status (AMap.getD s.latches status 0 &&& ~~~(at_ 1 bitNo)) })

/-- A write by the register's access code (12 R290, R293, R411): RW replaces the value in force, or clears a counter (R305),
  and RS and RX the staged value; RK needs the open guard;
a value outside the register's stated range is ignored; the source's guard of the block closes. -/
def Obligations.WritesByAccessCode : Prop :=
  ∀ (s : State) (src : Source) (addr v : Word) (key : Nat) (d : RegDesc), s.landing addr.toNat = .place key → descOf key = some d →
    s.MayWrite src key → ¬ (0x00100000 ≤ addr.toNat ∧ addr.toNat < 0x00200000) → guardReg (blockOf key) ≠ some key →
    (d.access = .rw → (s.Entered src key).accepts key (v &&& d.mask) = true → d.clears = false → keyAddr key ≠ Reg.TRN_FQ_TAIL →
      ¬ (0x04000000 ≤ keyAddr key ∧ keyAddr key < 0x05400000) →
      exec (.registerWrite src addr v) s = .next (settle s ((s.Entered src key).setReg key (v &&& d.mask)))) ∧
    (d.access = .rw → (s.Entered src key).accepts key (v &&& d.mask) = true → d.clears = true → keyAddr key < 0x06000000 →
      exec (.registerWrite src addr v) s = .next (settle s ((s.Entered src key).setReg key 0))) ∧
    (d.access = .rs ∨ d.access = .rx → (s.Entered src key).accepts key (v &&& d.mask) = true →
      ¬ (0x00380000 ≤ keyAddr key ∧ keyAddr key < 0x00400000) → keyAddr key < 0x06000000 → keyAddr key ≠ Reg.EB_PORT_CTRL →
      keyAddr key ≠ keyAddr (Reg.EB_QB 0) → keyAddr key ≠ keyAddr (Reg.EB_QB_CONN 0) →
      exec (.registerWrite src addr v) s = .next (settle s ((s.Entered src key).stage key (v &&& d.mask)))) ∧
    (d.access = .rk → ¬ s.GuardHeld src key → exec (.registerWrite src addr v) s = .next (settle s (s.count16 Reg.HUB_GUARD_REFUSED))) ∧
    (d.access = .rk → s.GuardHeld src key → (s.closeGuard src).accepts key (v &&& d.mask) = true → d.boundary ≠ .now →
      key ≠ Reg.CFGCRC_REF → key ≠ Reg.EB_MACSEC_CTRL → ¬ (0x01000000 ≤ key ∧ key < 0x03400000) →
      exec (.registerWrite src addr v) s = .next (settle s ((s.closeGuard src).stage key (v &&& d.mask)))) ∧
    (d.access = .rw ∨ d.access = .rs ∨ d.access = .rx → (s.Entered src key).accepts key (v &&& d.mask) = false →
      exec (.registerWrite src addr v) s = .next (settle s (s.Entered src key))) ∧
    (d.access = .rk → s.GuardHeld src key → (s.closeGuard src).accepts key (v &&& d.mask) = false →
      exec (.registerWrite src addr v) s = .next (settle s (s.closeGuard src)))

/-- A command's row and a write of its register are one thing (12 R290): the word of the command, written to the command register, acts as the
row. -/
def Obligations.CommandRowsAreRegisterWrites : Prop :=
  ∀ (s : State) (src : Source),
    exec (.registerWrite src (w32 Reg.CFG_CMD) 1) s = exec (.cfgLoad src) s ∧
    exec (.registerWrite src (w32 Reg.CFG_CMD) 2) s = exec (.cfgCommit src) s ∧
    exec (.registerWrite src (w32 Reg.CFG_CMD) 3) s = exec (.cfgAbort src) s ∧
    exec (.registerWrite src (w32 Reg.CFG_CMD) 4) s = exec (.cfgAck src) s ∧
    exec (.registerWrite src (w32 Reg.CFG_CMD) 6) s = exec (.cfgResume src) s ∧
    exec (.registerWrite src (w32 Reg.EB_CMD) 1) s = exec (.retrain src) s ∧
    exec (.registerWrite src (w32 Reg.EB_CMD) 2) s = exec (.restore src) s ∧
    exec (.registerWrite src (w32 Reg.MT_CMD) 6) s = exec (.mtOffline src) s ∧
    exec (.registerWrite src (w32 Reg.MT_CMD) 7) s = exec (.mtOnline src) s ∧
    (∀ v : Word, exec (.registerWrite src (w32 Reg.CFG_SERIAL_FLOOR_HI) v) s = exec (.serialFloorHiWrite src v) s) ∧
    (∀ v : Word, exec (.registerWrite src (w32 Reg.CFG_SERIAL_FLOOR_LO) v) s = exec (.serialFloorLoWrite src v) s) ∧
    (∀ v : Word, exec (.registerWrite src (w32 Reg.CFGCRC_REF) v) s = exec (.cfgcrcRefWrite src v) s) ∧
    (∀ v : Word, exec (.registerWrite src (w32 Reg.TRN_INV_CMD) v) s = exec (.trnInv src v) s)

/-- A commit applies, in one step per masked block, every staged value of an RX register or of a natural boundary, and is BUSY until it completes;
COUNT then advances and COMMIT_DONE arises. While one is under way another is refused; a mask of zero completes at once. At a slow-clock edge
the RC registers take the quantities they report, and nothing else changes (12 R295, R296, R299). -/
def Obligations.CommitsApplyAndComplete : Prop :=
  (∀ (s : State) (src : Source) (mask : Word), s.MayCommand src Reg.HUB_COMMIT → s.commitMask = none → fld mask 11 0 ≠ 0 →
    let b := s.closeGuard src
    ∃ t, exec (.hubCommit src mask) s = .next (settle s t) ∧
      t = { b with regs := t.regs, commitMask := some (mask &&& 0xFFF), commitRefused := false } ∧
      ∀ key, t.cell key =
        (if committed key = true ∧ bit mask (commitBit (blockOf key)) = true ∧ commitBit (blockOf key) < 12 ∧ commitBit (blockOf key) ≠ 1 then
          ⟨s.latest key, none⟩ else s.cell key)) ∧
  (∀ (s : State) (src : Source) (mask : Word), s.MayCommand src Reg.HUB_COMMIT → s.commitMask ≠ none →
    exec (.hubCommit src mask) s = .next (settle s { s.closeGuard src with commitRefused := true })) ∧
  (∀ (s : State) (src : Source) (mask : Word), s.MayCommand src Reg.HUB_COMMIT → s.commitMask = none → fld mask 11 0 = 0 →
    exec (.hubCommit src mask) s = .next (settle s { (s.closeGuard src).latch Reg.HUB_EVENT_STATUS 1 with
      commitMask := none, commitRefused := false, commitCount := (s.commitCount + 1) % 65536 })) ∧
  (∀ s : State, s.commitMask ≠ none →
    exec .hubCommitDone s = .next (settle s { s.latch Reg.HUB_EVENT_STATUS 1 with commitMask := none, commitCount := (s.commitCount + 1) % 65536 })) ∧
  (∀ s : State, s.commitMask = none → exec .hubCommitDone s = .next (settle s s)) ∧
  ∀ s : State, ∃ t, exec .rcRefresh s = .next (settle s t) ∧ t = { s with regs := t.regs } ∧
    t.reg Reg.PMC_PIN = w32 s.pmc.pin ∧ t.reg Reg.PMC_VIN = w32 s.pmc.vin ∧ t.reg Reg.VANE_ALARMS = s.vane.alarmCount ∧
    t.reg Reg.PMC_ENERGY_LO = lo32 s.pmc.energy ∧ t.reg Reg.PMC_ENERGY_HI = hi32 s.pmc.energy ∧
    (∀ key, (∀ d, descOf key = some d → d.access ≠ .rc) → t.cell key = s.cell key)

/-- The operations of a REG message run in order; after the first that does not end OK the rest are SKIPPED, and the response carries each
one's status. A message without an open session is refused, and has taken effect (10 R249, R251, R252); before start-up is complete it is
dropped (16 R379). -/
def Obligations.RegMessagesRunInOrder : Prop :=
  (∀ (s : State) (peer : Fin 16384) (tag : BitVec 16) (ops : List RegOp), s.session peer.val = none →
    exec (.regMessage peer tag ops) s = .next (settle s (if s.inService then (s.count32 Reg.EB_RX_REFUSED 1).effectOf peer.val 1 else s))) ∧
  (∀ (s : State) (peer : Fin 16384) (tag : BitVec 16) (ops : List RegOp), (s.session peer.val).isSome = true →
    exec (.regMessage peer tag ops) s = .next (settle s (((s.regOps peer ops).1.effectOf peer.val 1).post peer.val [.regResponse tag (s.regOps peer ops).2]))) ∧
  (∀ (s : State) (peer : Fin 16384) (o : RegOp) (rest : List RegOp), (s.regOp peer o).2.1 = 0 →
    s.regOps peer (o :: rest) = (((s.regOp peer o).1.regOps peer rest).1, (s.regOp peer o).2 :: ((s.regOp peer o).1.regOps peer rest).2)) ∧
  (∀ (s : State) (peer : Fin 16384) (o : RegOp) (rest : List RegOp), (s.regOp peer o).2.1 ≠ 0 →
    s.regOps peer (o :: rest) = ((s.regOp peer o).1, (s.regOp peer o).2 :: rest.map fun r => (2, r.data, 0))) ∧
  (∀ (s : State) (peer : Fin 16384) (o : RegOp), o.op = 2 →
    (s.regOp peer o).1 = (s.writeAt (.peer peer) o.addr.toNat o.data).1 ∧
    (s.regOp peer o).2.1 = (s.writeAt (.peer peer) o.addr.toNat o.data).2.code)

/-- What a loader command does (02 R41, R43, R45): LOAD in IDLE begins to receive; COMMIT in STAGED begins the commit where no bay is in the way;
ABORT frees what was staged; ACK leaves REJECTED; RESUME releases the bays that a restart holds in lull. Nothing else changes. -/
def Obligations.LoaderCommands : Prop :=
  (∀ (s : State) (src : Source), s.MayCommand src Reg.CFG_CMD → s.loader.state = .idle → s.loader.move = none →
    s.tiers.rowsOffline ≠ 0xFFFFFFFF#32 →
    exec (.cfgLoad src) s = .next (settle s { (s.Commanded src Reg.CFG_CMD 1).unlatch Reg.CFG_EVENT_STATUS 0 with
      loader := { s.loader with state := .receiving, op := .none, errCode := 0, errSection := 0, errBay := 0 } })) ∧
  (∀ (s : State) (src : Source), s.MayCommand src Reg.CFG_CMD → s.loader.state ≠ .idle → s.loader.state ≠ .rejected →
    exec (.cfgLoad src) s = .next (settle s { s.Commanded src Reg.CFG_CMD 1 with
      loader := { s.loader with errCode := 0x0E, errSection := 0, errBay := 0 } })) ∧
  (∀ (s : State) (src : Source), s.MayCommand src Reg.CFG_CMD → s.loader.state = .staged → s.loader.move = none → s.loadLulls = 0 →
    exec (.cfgCommit src) s = .next (settle s { s.Commanded src Reg.CFG_CMD 2 with
      loader := { s.loader with state := .applying, phase := .copyA, op := { s.loader.op with lullSet := 0 }, newRecord := s.nextRecord } })) ∧
  (∀ (s : State) (src : Source), s.MayCommand src Reg.CFG_CMD → s.loader.state = .staged → s.loader.move = none →
    exec (.cfgCommit src) s = .next (settle s ((s.Commanded src Reg.CFG_CMD 2).requestLulls s.loadLulls))) ∧
  (∀ (s : State) (src : Source), s.MayCommand src Reg.CFG_CMD → s.loader.state = .receiving ∨ s.loader.state = .verifying →
    exec (.cfgAbort src) s = .next (settle s { s.Commanded src Reg.CFG_CMD 3 with loader := s.loader.fail 0x0F 0 0 })) ∧
  (∀ (s : State) (src : Source), s.MayCommand src Reg.CFG_CMD → s.loader.state = .staged ∨ s.loader.state = .lulling →
    exec (.cfgAbort src) s = .next (settle s ((s.Commanded src Reg.CFG_CMD 3).endLoad 0x0F 0))) ∧
  (∀ (s : State) (src : Source), s.MayCommand src Reg.CFG_CMD → s.loader.state = .idle ∨ s.loader.state = .applying →
    exec (.cfgAbort src) s = .next (settle s (s.Commanded src Reg.CFG_CMD 3))) ∧
  (∀ (s : State) (src : Source), s.MayCommand src Reg.CFG_CMD → s.loader.state = .rejected →
    exec (.cfgAck src) s = .next (settle s { s.Commanded src Reg.CFG_CMD 4 with loader := { s.loader with state := .idle } }) ∧
    exec (.cfgAbort src) s = .next (settle s { s.Commanded src Reg.CFG_CMD 3 with loader := { s.loader with state := .idle } })) ∧
  (∀ (s : State) (src : Source), s.MayCommand src Reg.CFG_CMD → s.loader.state ≠ .rejected → (∀ b, (s.bay b).lullRestart = false) →
    exec (.cfgResume src) s = .next (settle s { s.Commanded src Reg.CFG_CMD 6 with loader := { s.loader with resumeWait := false } })) ∧
  (∀ (s : State) (src : Source) (b : Nat), b < 16 → s.MayCommand src Reg.CFG_CMD → s.loader.state ≠ .rejected →
    (∀ c, (s.bay c).lullRestart = decide (c = b)) →
    exec (.cfgResume src) s = .next (settle s (({ s.Commanded src Reg.CFG_CMD 6 with loader := { s.loader with resumeWait := false } }).liftLull b
      fun y => { y with lullRestart := false })))

/-- The serial floor (02 R52): a write of the HI half is held, and takes effect with the following write of the LO half; each needs its own
opening of the guard; the floor only rises. -/
def Obligations.SerialFloorRises : Prop :=
  (∀ (s : State) (src : Source) (v : Word), s.MayCommand src Reg.CFG_SERIAL_FLOOR_HI →
    exec (.serialFloorHiWrite src v) s = .next (settle s { s.closeGuard src with loader := { s.loader with floorHi := some v } })) ∧
  (∀ (s : State) (src : Source) (h v : Word), s.MayCommand src Reg.CFG_SERIAL_FLOOR_LO → s.loader.floorHi = some h →
    s.loader.floor.toNat ≤ (pair v h).toNat →
    exec (.serialFloorLoWrite src v) s = .next (settle s { s.closeGuard src with loader := { s.loader with floorHi := none, floor := pair v h } })) ∧
  (∀ (s : State) (src : Source) (h v : Word), s.MayCommand src Reg.CFG_SERIAL_FLOOR_LO → s.loader.floorHi = some h →
    (pair v h).toNat < s.loader.floor.toNat →
    exec (.serialFloorLoWrite src v) s = .next (settle s { s.closeGuard src with loader := { s.loader with floorHi := none } })) ∧
  ∀ (s : State) (src : Source) (v : Word), AMap.wf s.guards = true → s.MayWrite src Reg.CFG_SERIAL_FLOOR_LO →
    exec (.serialFloorLoWrite src v) (s.closeGuard src) = .next (settle (s.closeGuard src) ((s.closeGuard src).count16 Reg.HUB_GUARD_REFUSED)) ∧
    exec (.serialFloorHiWrite src v) (s.closeGuard src) = .next (settle (s.closeGuard src) ((s.closeGuard src).count16 Reg.HUB_GUARD_REFUSED))

/-- A CFG message's data goes to the staging store while the loader receives, and its granules count as received; once all of the image is in,
the checks run; data out of place is refused and counted, and data of a session without CONFIGURE is refused (10 R253, 02 R44, 14 R342). The
signature check then rejects the image or stages it. -/
def Obligations.ImageReceivedAndChecked : Prop :=
  (∀ (s : State) (peer : Fin 16384) (offset : Word) (data : List Byte), (s.session peer.val).isSome = true →
    s.peerRole peer.val .configure = true → s.loader.state = .receiving → offset.toNat % 64 = 0 →
    data.length % 64 = 0 ∨ s.loader.op.length = some (offset.toNat + data.length) → offset.toNat + data.length ≤ 0x4000000 →
    let granules := (List.range (ceilDiv data.length 64)).foldl (fun (g : Nat) i => g ||| 2 ^ (offset.toNat / 64 + i)) s.loader.op.granules
    let stored := (s.takeMsg peer.val 2).1.physWrite (Config.stageBase + offset.toNat) data false
    exec (.cfgData peer offset data) s = .next (settle s
      ((({ stored with loader := { s.loader with op := { s.loader.op with granules := granules } } } : State).receivedMore).effect peer.val
        (s.takeMsg peer.val 2).2))) ∧
  (∀ (s : State) (peer : Fin 16384) (offset : Word) (data : List Byte), (s.session peer.val).isSome = true →
    s.peerRole peer.val .configure = true → s.loader.state ≠ .receiving →
    let u := (s.takeMsg peer.val 2).1
    exec (.cfgData peer offset data) s = .next (settle s
      (if s.inService then (u.count32 Reg.EB_RX_REFUSED 1).effect peer.val (s.takeMsg peer.val 2).2 else u))) ∧
  (∀ (s : State) (peer : Fin 16384) (offset : Word) (data : List Byte), (s.session peer.val).isSome = true →
    s.peerRole peer.val .configure = false →
    exec (.cfgData peer offset data) s = .next (settle s ((s.takeMsg peer.val 2).1.roleRefused.effect peer.val (s.takeMsg peer.val 2).2))) ∧
  (∀ (s : State) (n : Nat), lengthOk n = true → imageLength (s.staged 0 256) = n →
    ([0, 1, 2, 3].all fun g => s.loader.op.got g) = true → ((List.range (ceilDiv n 64)).all fun g => s.loader.op.got g) = false →
    let h := s.staged 0 256
    s.receivedMore = { s with loader := { s.loader with op := { s.loader.op with
      length := some n, mask := BitVec.ofNat 16 (imageMask h), full := imageFull h, global := imageGlobal h, serial := imageSerial h
      header := h, keys := s.sec.imageKeys } } }) ∧
  (∀ (s : State) (c : Nat), s.loader.state = .verifying →
    let u := s.readImage (imageLength s.loader.op.header)
    u.signatureFault = some c → exec .signatureCheckDone s = .next (settle s (u.rejectLoad (c, 0, 0)))) ∧
  (∀ s : State, s.loader.state = .verifying →
    let u := s.readImage (imageLength s.loader.op.header)
    let table := u.imageTable u.loader.op.header
    let slots := u.loader.op.slots.map fun k => (k, u.imageSlot table k)
    u.signatureFault = none → u.entryFault table table 0 = none → u.loader.spaceOk slots = true → u.liveFault slots = none →
    exec .signatureCheckDone s = .next (settle s { u with loader := { slots.foldl
      (fun (l : Loader) e => l.setBank (!bit u.loader.record.active e.1) e.1 (some e.2)) u.loader with state := .staged } })) ∧
  ∀ s : State, s.loader.state ≠ .verifying → exec .signatureCheckDone s = .next (settle s s)

/-- The commit goes on step by step (02 R39, R43): with copy A whole the new record stands, and the monitor awaits its reference; with copy B whole
the blocks take the tables; with the tables in place the loader is IDLE, the bays it held resume, and CFG_DONE arises. -/
def Obligations.CommitRunsInSteps : Prop :=
  (∀ s : State, s.loader.phase = .copyA → ∃ t, exec .commitCopyADone s = .next (settle s t) ∧ t.loader.copyA = s.loader.newRecord.bytes ∧
    t.loader.record = s.loader.newRecord ∧
    t.loader.phase = .copyB ∧ t.loader.copyB = s.loader.copyB ∧ t.loader.state = s.loader.state ∧ t.loader.crcState = .awaitRef ∧
    t.mem = s.mem ∧ t.cores = s.cores ∧ t.bays = s.bays) ∧
  (∀ s : State, s.loader.phase = .copyB → s.loader.move = none →
    let u : State := { s with loader := { s.loader with copyB := s.loader.newRecord.bytes, phase := .tables } }
    exec .commitCopyBDone s = .next (settle s (u.applyTables u.loader.carried))) ∧
  (∀ s : State, s.loader.phase = .tables → s.loader.move = none → (∀ b, (s.bay b).lullLoad = false) → (∀ b, b < 16 → s.loader.carried b = false) →
    exec .tablesApplied s = .next (settle s ((({ s with loader := { s.loader.freeInactive with
      state := .idle, op := .none, phase := .none,
      move := none } }).awaitRef).latch Reg.CFG_EVENT_STATUS 0))) ∧
  (∀ s : State, s.loader.phase = .tables → ∃ t, exec .tablesApplied s = .next (settle s t) ∧ t.loader.state = .idle ∧ t.loader.phase = .none ∧
    t.loader.move = none ∧ bit (t.latched Reg.CFG_EVENT_STATUS) 0 = true) ∧
  ∀ s : State, s.loader.phase = .none → exec .commitCopyADone s = .next (settle s s) ∧ exec .commitCopyBDone s = .next (settle s s) ∧ exec .tablesApplied s = .next (settle s s)

/-- A bay move (02 R47, R48): MOVE powers the spare of the core's die; its self-test fences the core and asks for lull, or refuses the move; the
contexts go over; the commit begins. -/
def Obligations.BayMovesInSteps : Prop :=
  (∀ (s : State) (src : Source) (bay : Fin 16) (core : BitVec 6) (sp : Nat), s.MayCommand src Reg.CFG_CMD → s.loader.state = .idle →
    s.loader.move = none → (s.bayCores bay.val).contains core.toNat = true → s.coreActive core.toNat = true →
    substituted s.loader.record (core.toNat / 9) = none → bit s.loader.spareFailed (core.toNat / 9) = false →
    s.spareOf (core.toNat / 9) = some sp →
    let u := (s.Commanded src Reg.CFG_CMD (w32 (5 + core.toNat * 16 + bay.val * 1024))).unlatch Reg.CFG_EVENT_STATUS 0
    exec (.bayMove src bay core false) s = .next (settle s { u.setCore sp { s.core sp with movePowered := true } with
      loader := { s.loader with move := some ⟨bay.val, core.toNat, false, .selfTest⟩, op := .none, errCode := 0, errSection := 0, errBay := 0 } })) ∧
  (∀ (s : State) (m : MoveOp), s.loader.move = some m → m.step = .selfTest →
    exec (.spareSelfTestDone true) s = .next (settle s (({ s.setCore m.core { s.core m.core with moveFenced := true } with
        loader := { s.loader with move := some { m with step := .lull } } }).requestLulls
      ((if m.joined then s.loadLulls else 0) ||| (1#16 <<< m.bay))))) ∧
  (∀ (s : State) (m : MoveOp), s.loader.move = some m → m.step = .selfTest →
    ∃ t, exec (.spareSelfTestDone false) s = .next (settle s t) ∧ t.loader.move = none ∧ t.loader.errCode = 0x0D ∧ t.loader.errBay = m.bay ∧
      t.loader.spareFailed = s.loader.spareFailed ||| (1#4 <<< (m.core / 9)) ∧ t.mem = s.mem ∧ t.insts = s.insts) ∧
  (∀ (s : State) (m : MoveOp) (sp : Nat), s.loader.move = some m → m.step = .copy → s.coreInFlight m.core = false →
    s.spareOf (m.core / 9) = some sp →
    exec .moveCopyDone s = .next (settle s { s.carryCore m.core sp with loader := { s.loader with move := some { m with step := .weights } } })) ∧
  (∀ (s : State) (m : MoveOp), s.loader.move = some m → m.step = .weights →
    exec .moveWeightsDone s = .next (settle s { s with loader := { s.loader with
      newRecord := s.nextRecord, state := .applying, phase := .copyA, move := some { m with step := .commit } } })) ∧
  ∀ (s : State) (pass : Bool), s.loader.move = none →
    exec (.spareSelfTestDone pass) s = .next (settle s s) ∧ exec .moveCopyDone s = .next (settle s s) ∧ exec .moveWeightsDone s = .next (settle s s)

/-- Lull on request (02 R43): the request of a defined bay that no load holds stops its dispatch, and a release lets it go on; a bay reports lull
once its LC work has ended, its BE work is saved and its stores are complete. -/
def Obligations.LullRequestedReachedReleased : Prop :=
  (∀ (s : State) (src : Source) (bay : Fin 16), s.MayCommand src Reg.CFG_LULL_REQ → s.lullLocked bay.val = false →
    (s.bayDef bay.val).isSome = true →
    exec (.lullRequest src bay) s = .next (settle s ((s.closeGuard src).askLull bay.val fun y => { y with lullHost := true })) ∧
    exec (.lullRelease src bay) s = .next (settle s ((s.closeGuard src).liftLull bay.val fun y => { y with lullHost := false }))) ∧
  (∀ (s : State) (src : Source) (bay : Fin 16), s.MayCommand src Reg.CFG_LULL_REQ → (s.bay bay.val).lullWanted = true → s.lullLocked bay.val = false →
    (s.bayDef bay.val).isSome = true → (s.bay bay.val).lullHost = false →
    exec (.lullRequest src bay) s = .next (settle s ((s.closeGuard src).setBay bay.val { s.bay bay.val with lullHost := true }))) ∧
  (∀ (s : State) (bay : Fin 16), (s.bay bay.val).lullWanted = true → (s.bay bay.val).lulled = false → (s.bayDef bay.val).isSome = true →
    (s.enterLull bay.val).lcWork bay.val = false → (s.enterLull bay.val).beOnCore bay.val = false →
    (s.enterLull bay.val).storeDue bay.val = false →
    let u := s.enterLull bay.val
    exec (.bayLullReached bay) s = .next (settle s
      (((u.setBay bay.val { u.bay bay.val with lulled := true }).reapplyAtLull bay.val).loaderGoesOn))) ∧
  ∀ (s : State) (bay : Fin 16), (s.bay bay.val).lullWanted = false →
    exec (.bayLullReached bay) s = .next (settle s ((s.reapplyAtLull bay.val).loaderGoesOn))

/-- The CRC monitor (02 R49, R50): a reference written is latched for the next sweep and the monitor compares; a sweep whose CRC agrees counts, and
one that differs counts a mismatch and raises the alarm; while the reference is awaited a sweep only records its CRC. -/
def Obligations.CrcMonitorSweeps : Prop :=
  (∀ (s : State) (src : Source) (v : Word), s.MayCommand src Reg.CFGCRC_REF →
    exec (.cfgcrcRefWrite src v) s = .next (settle s { ((s.closeGuard src).stage Reg.CFGCRC_REF v).setReg Reg.CFGCRC_MISMATCHES 0 with
      loader := { s.loader with crcState := .comparing } })) ∧
  (∀ s : State, s.loader.crcState = .awaitRef → ∃ t, exec .crcSweepEnd s = .next (settle s t) ∧
    t = { s with regs := t.regs, loader := { s.loader with crcSlots := t.loader.crcSlots } } ∧
    t.reg Reg.CFGCRC_LAST = crc32c s.sweepBytes) ∧
  (∀ s : State, s.loader.crcState = .comparing → crc32c s.sweepBytes = s.latest Reg.CFGCRC_REF →
    (∀ k ∈ s.sweepSlots, s.applied k = s.loader.activeCopy s.loader.record k) →
    ∃ t, exec .crcSweepEnd s = .next (settle s t) ∧ t.loader.crcMismatch = false ∧ t.reg Reg.CFGCRC_SWEEPS = s.reg Reg.CFGCRC_SWEEPS + 1 ∧
      t.reg Reg.CFGCRC_LAST = crc32c s.sweepBytes ∧ t.mem = s.mem ∧ t.bays = s.bays) ∧
  (∀ s : State, s.loader.crcState = .comparing → crc32c s.sweepBytes ≠ s.latest Reg.CFGCRC_REF →
    ∃ u : State, exec .crcSweepEnd s = .next (settle s (u.alarm 0x0A (telUnit 7 6))) ∧ u.loader.crcMismatch = true ∧ u.reg Reg.CFGCRC_LAST = crc32c s.sweepBytes ∧
      u.bays = s.bays ∧ u.mem = s.mem ∧ u.vane = s.vane) ∧
  (∀ s : State, s.loader.crcState = .awaitRef → s.loader.crcWarned = false →
    exec .cfgRefMissing s = .next (settle s (({ s with loader := { s.loader with crcWarned := true } }).alarm 0x0B (telUnit 7 6)))) ∧
  ∀ s : State, s.loader.crcState = .comparing → exec .cfgRefMissing s = .next (settle s s)

/-- Row repair and refresh (03 R55, R56): a row is remapped while its bank has a spare, and a bank without one is shown; a die's refresh rate
doubles and returns. Nothing else changes. -/
def Obligations.LoftRepairAndRefresh : Prop :=
  (∀ (s : State) (die : Fin 4) (bank row used : Nat), AMap.getD s.tiers.spareUsed (bankKey die.val bank) 0 = used →
    used < Config.spareRows (bankKey die.val bank) →
    exec (.loftRowRemap die bank row) s = .next (settle s { s with tiers := { s.tiers with
      spareUsed := AMap.set s.tiers.spareUsed (bankKey die.val bank) (used + 1)
      remapped := s.tiers.remapped ++ [(die.val, bank, row)]
      spareOut := if used + 1 = Config.spareRows (bankKey die.val bank) then setInsert s.tiers.spareOut (bankKey die.val bank)
        else s.tiers.spareOut } })) ∧
  (∀ (s : State) (die : Fin 4) (bank row : Nat),
    Config.spareRows (bankKey die.val bank) ≤ AMap.getD s.tiers.spareUsed (bankKey die.val bank) 0 →
    exec (.loftRowRemap die bank row) s = .next (settle s { s with tiers := { s.tiers with
      spareOut := setInsert s.tiers.spareOut (bankKey die.val bank) } })) ∧
  ∀ (s : State) (die : Fin 4),
    exec (.doubleRefresh die) s = .next (settle s { s with tiers := { s.tiers with doubleRefresh := s.tiers.doubleRefresh ||| (1#4 <<< die.val) } }) ∧
    exec (.refreshNormal die) s = .next (settle s { s with tiers := { s.tiers with doubleRefresh := s.tiers.doubleRefresh &&& ~~~(1#4 <<< die.val) } })

/-- One translation (03 R66, R81, R82): a walk that succeeds leaves what it cached; one that fails raises its fault, and a resumable fault holds
the requester, while the dispatcher's own read posts none. -/
def Obligations.TableWalksTranslateOrFault : Prop :=
  (∀ (s t : State) (bay : Fin 16) (va : W64) (write : Bool) (who : Requester) (holder : Nat) (x : Translation),
    s.translate bay.val va.toNat write (s.engineOf who holder) = (t, .ok x) → exec (.tableWalk bay va write who holder) s = .next (settle s t)) ∧
  (∀ (s t : State) (bay : Fin 16) (va : W64) (write : Bool) (holder level : Nat) (cause : FaultCause) (entry : W64),
    s.translate bay.val va.toNat write (s.engineOf .dispatcher holder) = (t, .error (cause, level, entry)) →
    exec (.tableWalk bay va write .dispatcher holder) s = .next (settle s t)) ∧
  (∀ (s t : State) (bay : Fin 16) (va : W64) (write : Bool) (who : Requester) (holder level : Nat) (cause : FaultCause) (entry : W64),
    who = .rdma ∨ who = .bale ∨ who = .batcher ∨ who = .audio →
    s.translate bay.val va.toNat write (s.engineOf who holder) = (t, .error (cause, level, entry)) →
    exec (.tableWalk bay va write who holder) s = .next (settle s
      (t.raiseFault bay.val va.toNat write (s.engineOf who holder) cause level entry (s.holderOf who holder)).1))

/-- Invalidates and the fault queue (03 R70, R72, R82): TRN_INV queues an invalidate while fewer than 64 wait, and is refused and counted
beyond; the oldest completes when no access is under way in its scope: what is cached in it goes, and its tag is shown; the host's tail frees
places of the fault queue; a resumed tag is no longer outstanding and its requester goes on or is aborted. -/
def Obligations.InvalidatesAndFaultQueue : Prop :=
  (∀ (s : State) (src : Source) (v : Word), s.MayWrite src Reg.TRN_INV_CMD → s.trans.invs.length < 64 →
    exec (.trnInv src v) s = .next (settle s { s.Entered src Reg.TRN_INV_CMD with trans := { s.trans with
      invFull := false
      invs := s.trans.invs ++ [{ bay := fld v 3 0, whole := bit v 4, allLevels := bit v 5, tag := fld v 23 8
                                 start := (s.reg64 Reg.TRN_INV_VA_LO Reg.TRN_INV_VA_HI).toNat, len := (s.reg Reg.TRN_INV_LEN).toNat }] } })) ∧
  (∀ (s : State) (src : Source) (v : Word), s.MayWrite src Reg.TRN_INV_CMD → 64 ≤ s.trans.invs.length →
    exec (.trnInv src v) s = .next (settle s { (s.Entered src Reg.TRN_INV_CMD).count16 Reg.TRN_INV_REFUSED with
      trans := { s.trans with invFull := true } })) ∧
  (∀ (s : State) (c : InvCmd) (rest : List InvCmd), s.trans.invs = c :: rest → s.scopeBusy c = false →
    exec .trnInvDone s = .next (settle s (((({ s with trans := { s.trans with invs := rest } }).dropCached c.bay c.whole c.allLevels c.start
      (c.len * 65536)).setReg Reg.TRN_INV_DONE_TAG (w32 c.tag)).latch Reg.TRN_EVENT_STATUS 0))) ∧
  (∀ s : State, s.trans.invs = [] → exec .trnInvDone s = .next (settle s s)) ∧
  (∀ (s : State) (src : Source) (v : Word) (n : Nat), s.MayWrite src Reg.TRN_FQ_TAIL →
    n = (fld v 11 0 + 4096 - (s.reg Reg.TRN_FQ_TAIL).toNat) % 4096 → n ≤ s.trans.fqCount →
    let u : State := { (s.Entered src Reg.TRN_FQ_TAIL).setReg Reg.TRN_FQ_TAIL (w32 (fld v 11 0)) with
      trans := { s.trans with fqCount := s.trans.fqCount - n } }
    exec (.fqTailWrite src v) s = .next (settle s u.postWaiting.endProtected) ∧
    (s.trans.faults.all (fun f => f.posted && f.cause.resumable) = true → u.postWaiting.endProtected = u)) ∧
  (∀ (s : State) (src : Source) (v : Word), s.MayWrite src Reg.TRN_FQ_TAIL →
    s.trans.fqCount < (fld v 11 0 + 4096 - (s.reg Reg.TRN_FQ_TAIL).toNat) % 4096 →
    exec (.fqTailWrite src v) s = .next (settle s (s.Entered src Reg.TRN_FQ_TAIL))) ∧
  (∀ (s : State) (src : Source) (tag : BitVec 16) (f : OutFault), s.MayWrite src Reg.TRN_FAULT_RESUME →
    s.trans.faults.find? (fun x => x.tag = tag.toNat && x.posted) = some f →
    let u : State := { s.Entered src Reg.TRN_FAULT_RESUME with trans := { s.trans with faults := s.trans.faults.filter fun x => x.tag ≠ tag.toNat } }
    exec (.faultResume src tag false) s = .next (settle s (u.resumeHolder f.holder)) ∧
    exec (.faultResume src tag true) s = .next (settle s (u.abortHolder f.bay f.holder f.cause))) ∧
  ∀ (s : State) (src : Source) (tag : BitVec 16) (abort : Bool), s.MayWrite src Reg.TRN_FAULT_RESUME →
    s.trans.faults.find? (fun x => x.tag = tag.toNat && x.posted) = none →
    exec (.faultResume src tag abort) s = .next (settle s (s.Entered src Reg.TRN_FAULT_RESUME))

/-- Tier commands (03 R74, R80, R83): ASSIGN takes free granules within the quota, RELEASE gives the bay's own back, ENLIST appends to the spill
list, OFFLINE and ONLINE take an unowned row or channel out and in; each ends with its result. A command while one runs is
refused. -/
def Obligations.TierCommands : Prop :=
  (∀ (s : State) (src : Source) (bay : Fin 16), s.MayCommand src Reg.MT_CMD → s.tiers.cmdBusy = none → bit s.tiers.spillStarved bay.val = false →
    s.rangeOk s.mtArg0 (s.reg Reg.MT_ARG1).toNat = true → s.freeRun (s.mtArg0 / 65536) (s.reg Reg.MT_ARG1).toNat = true →
    s.used bay.val (tierOf s.mtArg0) + (s.reg Reg.MT_ARG1).toNat ≤ s.quota bay.val (tierOf s.mtArg0) →
    let u : State := { s.Commanded src Reg.MT_CMD (w32 (1 + bay.val * 16)) with tiers := { s.tiers with cmdRefused := false } }
    exec (.mtAssign src bay) s = .next (settle s ((u.setOwners (s.mtArg0 / 65536) (s.reg Reg.MT_ARG1).toNat bay.val).tierResult .ok))) ∧
  (∀ (s : State) (src : Source) (bay : Fin 16), s.MayCommand src Reg.MT_CMD → s.tiers.cmdBusy = none → bit s.tiers.spillStarved bay.val = false →
    s.rangeOk s.mtArg0 (s.reg Reg.MT_ARG1).toNat = true → s.ownsRun bay.val (s.mtArg0 / 65536) (s.reg Reg.MT_ARG1).toNat = true →
    let u : State := { s.Commanded src Reg.MT_CMD (w32 (2 + bay.val * 16)) with tiers := { s.tiers with cmdRefused := false } }
    exec (.mtRelease src bay) s = .next (settle s ((u.setOwners (s.mtArg0 / 65536) (s.reg Reg.MT_ARG1).toNat ownerFree).tierResult .ok))) ∧
  (∀ (s : State) (src : Source) (bay : Fin 16), s.MayCommand src Reg.MT_CMD → s.tiers.cmdBusy = none →
    let u : State := { s.Commanded src Reg.MT_CMD (w32 (4 + bay.val * 16)) with tiers := { s.tiers with cmdRefused := false } }
    let r := u.argPte bay.val
    bit r.tiers.spillStarved bay.val = false → vaOk r.mtArg0 = true → (r.pte bay.val r.mtArg0).isSome = true →
    (r.spillList bay.val).length < 65536 →
    exec (.mtEnlist src bay) s = .next (settle s ((r.setSpillList bay.val (r.spillList bay.val ++ [BitVec.ofNat 64 r.mtArg0])).tierResult .ok))) ∧
  (∀ (s : State) (src : Source) (u : Nat × Nat), s.MayCommand src Reg.MT_CMD → s.tiers.cmdBusy = none → s.unitAt s.mtArg0 = some u →
    s.anyOwned (unitSpan u).1 (unitSpan u).2 = false →
    let t := fun (v : Word) => ({ s.Commanded src Reg.MT_CMD v with tiers := { s.tiers with cmdRefused := false } } : State)
    exec (.mtOffline src) s = .next (settle s (((t 6).setOffline u true).tierResult .ok)) ∧
    exec (.mtOnline src) s = .next (settle s (((t 7).setOffline u false).tierResult .ok))) ∧
  ∀ (s : State) (src : Source) (c : Instr), s.MayCommand src Reg.MT_CMD → s.tiers.cmdBusy ≠ none →
    (∃ bay : Fin 16, c = .mtAssign src bay ∨ c = .mtRelease src bay ∨ (∃ lc, c = .mtMigrate src bay lc) ∨ c = .mtEnlist src bay ∨
      c = .mtCancel src bay) ∨ c = .mtOffline src ∨ c = .mtOnline src →
    exec c s = .next (settle s { s.closeGuard src with tiers := { s.tiers with cmdRefused := true } })

/-- A migration by command (03 R76, R77, R79, R83): MIGRATE queues a settled page and stays BUSY; the first that waits starts by taking a frame
and marking its entry COPYING; after the invalidate its copy begins; the entry is swapped with the copied bytes, or the migration is
abandoned if it was edited; the second invalidate ends it. CANCEL removes one that waits. -/
def Obligations.MigrationsInStages : Prop :=
  (∀ (s : State) (src : Source) (bay : Fin 16) (lc : Bool) (target : Nat) (p : Nat × Nat × W64), s.MayCommand src Reg.MT_CMD →
    s.tiers.cmdBusy = none →
    let u : State := { s.Commanded src Reg.MT_CMD (w32 (3 + bay.val * 16 + if lc then 256 else 0)) with
      tiers := { s.tiers with cmdRefused := false } }
    let r := u.argPte bay.val
    fld (r.reg Reg.MT_ARG1) 2 0 = target → target ≤ 2 → vaOk r.mtArg0 = true → r.pte bay.val r.mtArg0 = some p →
    pteTier p.2.2 ≠ 3 → pteState p.2.2 = settled → r.hasMig bay.val r.mtArg0 = false → r.migQueueFull = false →
    let q := r.queueMig bay.val (BitVec.ofNat 64 r.mtArg0) target lc .command
    exec (.mtMigrate src bay lc) s = .next (settle s { q with tiers := { q.tiers with cmdBusy := some r.tiers.nextMigration } })) ∧
  (∀ s : State, s.nextMig = none → exec .migrationStart s = .next (settle s s)) ∧
  (∀ (s s1 : State) (m : Migration) (addr level f : Nat) (e : W64), s.nextMig = some m → s.inProgress.length < 64 →
    let r := s.readPte m.bay m.va.toNat
    r.pte m.bay m.va.toNat = some (addr, level, e) → pteState e = settled → pteTier e ≠ 3 →
    let size := (pageSize (pteSizeCode e)).getD 0x10000
    r.used m.bay m.target + size / 65536 ≤ r.quota m.bay m.target → r.frameFor m size = (s1, some f) →
    exec .migrationStart s = .next (settle s (((s1.setOwners (f / 65536) (size / 65536) m.bay).physWrite64 addr (pteWith e 57 56 copying)).setMig
      { m with phase := .firstInv, entryAddr := addr, oldEntry := e, newFrame := f, size := size }))) ∧
  (∀ (s : State) (id : Nat) (m : Migration), s.tiers.migrations.find? (fun x => x.id = id) = some m → m.phase = .firstInv →
    s.rangeBusy m.bay false m.page m.size = false →
    exec (.migrationFirstInvDone id) s = .next (settle s ((s.dropCached m.bay false false m.page m.size).setMig { m with phase := .copying }))) ∧
  (∀ (s : State) (id : Nat) (m : Migration), s.tiers.migrations.find? (fun x => x.id = id) = some m → m.phase = .copying →
    s.stillCopying m = true →
    exec (.migrationCopyDone id) s = .next (settle s ((((s.meetUe m.entryAddr 8).moveBytes (pteFrame m.oldEntry * 4096) m.newFrame
      m.size).physWrite64 m.entryAddr (movedEntry m)).setMig { m with phase := .secondInv }))) ∧
  (∀ (s : State) (id : Nat) (m : Migration), s.tiers.migrations.find? (fun x => x.id = id) = some m → m.phase = .copying →
    s.stillCopying m = false →
    exec (.migrationCopyDone id) s = .next (settle s
      ((((s.meetUe m.entryAddr 8).freeFrame m.bay m.newFrame m.size).count16 Reg.MT_MIG_ABANDONED).endMigration m .abandoned))) ∧
  (∀ (s : State) (id : Nat) (m : Migration), s.tiers.migrations.find? (fun x => x.id = id) = some m → m.phase = .secondInv →
    s.rangeBusy m.bay false m.page m.size = false →
    let u := (s.dropCached m.bay false false m.page m.size).freeFrame m.bay (pteFrame m.oldEntry * 4096) m.size
    let w := match m.origin with
      | .repair => u.repairPage
      | .walker => if (u.spillList m.bay).length < 65536 then u.setSpillList m.bay (u.spillList m.bay ++ [m.va]) else u
      | _ => u
    exec (.migrationEnd id) s = .next (settle s (w.endMigration m .ok))) ∧
  (∀ (s : State) (id : Nat), s.tiers.migrations.find? (fun x => x.id = id) = none →
    exec (.migrationFirstInvDone id) s = .next (settle s s) ∧ exec (.migrationCopyDone id) s = .next (settle s s) ∧ exec (.migrationEnd id) s = .next (settle s s)) ∧
  ∀ (s : State) (src : Source) (bay : Fin 16) (m : Migration), s.MayCommand src Reg.MT_CMD → s.tiers.cmdBusy = none → vaOk s.mtArg0 = true →
    s.tiers.migrations.find? (fun m => m.bay = bay.val && m.va.toNat / m.size = s.mtArg0 / m.size) = some m →
    let u : State := { s.Commanded src Reg.MT_CMD (w32 (5 + bay.val * 16)) with tiers := { s.tiers with cmdRefused := false } }
    (m.phase = .queued → exec (.mtCancel src bay) s = .next (settle s ((u.endMigration m .ok).tierResult .ok))) ∧
    (m.phase = .firstInv ∨ m.phase = .copying → s.stillCopying m = true →
      exec (.mtCancel src bay) s = .next (settle s (((u.restoreEntry m).endMigration m .ok).tierResult .ok)))

/-- Spill checks, patrol reads and stack reports (03 R53, R54, R80; 15 R366, R373): a check applies the staged limits and looks at the bay; a scrub
that corrects counts in its unit, a clean one changes nothing, an uncorrectable one marks its line; an address that no tier backs is a
fault; a failed stack channel is logged, and fenced under AUTO_FENCE. -/
def Obligations.SpillScrubAndStackReports : Prop :=
  (∀ (s : State) (bay : Fin 16), let u := (s.applyAll [Reg.MT_SPILL_HI bay.val, Reg.MT_SPILL_LO bay.val]).setStarved bay.val false
    exec (.spillCheck bay) s = .next (settle s (u.spillRun bay.val))) ∧
  (∀ (s : State) (bay : Fin 16), let u := (s.applyAll [Reg.MT_SPILL_HI bay.val, Reg.MT_SPILL_LO bay.val]).setStarved bay.val false
    bit u.tiers.spillActive bay.val = false →
    u.used bay.val 1 * 100 ≤ (u.reg (Reg.MT_SPILL_HI bay.val)).toNat * u.quota bay.val 1 → exec (.spillCheck bay) s = .next (settle s u)) ∧
  (∀ (s : State) (address : Nat), s.backed address = true → address / 64 ≠ siloBase / 64 →
    exec (.patrolScrub address .clean) s = .next (settle s s) ∧
    exec (.patrolScrub address .corrected) s = .next (settle s (s.countSat (Reg.MT_ERR_CE (errUnit address)) 32 0 1)) ∧
    exec (.patrolScrub address .uncorrectable) s = .next (settle s
      (((({ s with ue := setInsert s.ue (address / 64) }).meetUe (address / 64 * 64) 64).applyStaged Reg.REP_POLICY).autoFence))) ∧
  (∀ (s : State) (address : Nat) (finding : ScrubFinding), s.backed address = false →
    exec (.patrolScrub address finding) s = .fault (.unbackedAddress address)) ∧
  ∀ (s : State) (stack : Fin 8) (row : Fin 32), let u := (s.applyStaged Reg.REP_POLICY).log 0xFF 0x0006 (telUnit 2 row.val) 0 0
    (bit (u.reg Reg.REP_POLICY) 16 = false → exec (.stackChannelFailed stack row) s = .next (settle s u)) ∧
    (bit (u.reg Reg.REP_POLICY) 16 = true → bit u.tiers.rowsOffline row.val = false →
      exec (.stackChannelFailed stack row) s = .next (settle s (u.askRepair .siloFence row.val)))

/-- Submission (04 R87, R88, R93, R113): a descriptor that reads, checks and finds room makes a READY instance with its deadline made absolute; where
its list is full it waits, with BUSY set; otherwise it is refused with the reason, as is every write while BUSY is set. -/
def Obligations.SubmissionChecksAndCreates : Prop :=
  (∀ (s s1 s2 : State) (src : Source) (bay : Fin 16) (hi : Word) (bd : BayDef) (e rows : Bytes) (x y : Bool),
    s.MayWrite src (Reg.DISP_SUBMIT_HI bay.val) → s.bayDef bay.val = some bd → (s.bay bay.val).submitWait = none →
    (s.Entered src (Reg.DISP_SUBMIT_HI bay.val)).readRun bay.val
      (pair (s.reg (Reg.DISP_SUBMIT_LO bay.val) &&& 0xFFFFFFC0#32) hi).toNat 64 dispatcherEngine = (s1, .ok (e, x)) →
    s1.readRun bay.val (parseSheaf e).rowTable.toNat ((parseSheaf e).rowCount * 4) dispatcherEngine = (s2, .ok (rows, y)) →
    (s2.submitOk bay.val bd e rows = true → s2.readyRoom bay.val (parseSheaf e).be = true →
      let d := parseSheaf e
      let made := (s2.createInst bay.val { d with deadline := if d.be then d.deadline else s2.lic + d.deadline } .submit none []).1
      exec (.dispSubmit src bay hi) s = .next (settle s
        (made.setBay bay.val { made.bay bay.val with submitWait := none, submitRefused := false, submitReason := 0 }))) ∧
    (s2.submitOk bay.val bd e rows = false →
      exec (.dispSubmit src bay hi) s = .next (settle s (s2.setBay bay.val { s2.bay bay.val with submitRefused := true, submitReason := 3 }))) ∧
    (s2.submitOk bay.val bd e rows = true → s2.readyRoom bay.val (parseSheaf e).be = false →
      exec (.dispSubmit src bay hi) s = .next (settle s (s2.setBay bay.val { s2.bay bay.val with submitWait := some (parseSheaf e) })))) ∧
  (∀ (s s1 : State) (src : Source) (bay : Fin 16) (hi : Word) (bd : BayDef) (err : RunFault),
    s.MayWrite src (Reg.DISP_SUBMIT_HI bay.val) → s.bayDef bay.val = some bd → (s.bay bay.val).submitWait = none →
    (s.Entered src (Reg.DISP_SUBMIT_HI bay.val)).readRun bay.val
      (pair (s.reg (Reg.DISP_SUBMIT_LO bay.val) &&& 0xFFFFFFC0#32) hi).toNat 64 dispatcherEngine = (s1, .error err) →
    exec (.dispSubmit src bay hi) s = .next (settle s (s1.setBay bay.val { s1.bay bay.val with submitRefused := true, submitReason := 2 }))) ∧
  ∀ (s : State) (src : Source) (bay : Fin 16) (hi : Word), s.MayWrite src (Reg.DISP_SUBMIT_HI bay.val) → (s.bayDef bay.val).isSome = true →
    (s.bay bay.val).submitWait ≠ none →
    exec (.dispSubmit src bay hi) s = .next (settle s ((s.Entered src (Reg.DISP_SUBMIT_HI bay.val)).setBay bay.val
      { s.bay bay.val with submitRefused := true, submitReason := 1 }))

/-- Placement (04 R92, R95, R100, R101; 02 R43): in service and out of the safe state, freed slots go to runnable saved contexts; then the LC
instance whose turn it is goes to the slot that placement finds, unless its bay's stagger interval runs, and with none the first BE instance
that fits; in lull nothing is placed. -/
def Obligations.PlacementOfLcHead : Prop :=
  (∀ (s : State) (bay : Fin 16) (i n k : Nat) (x : Inst), s.inService = true → s.vane.safe = false → (s.bay bay.val).lulled = false →
    let u := (s.bayCores bay.val).foldl State.grantAll (s.applyAll ((s.bayCores bay.val).map Reg.CORE_CMD))
    (u.lcTurn bay.val = some i → u.inst? i = some x → u.placement bay.val x = some (n, k) → u.staggered bay.val x = false →
      exec (.sheafPlace bay) s = .next (settle s ((u.place bay.val i n k x).listRoom bay.val))) ∧
    (u.lcTurn bay.val = none → (u.bay bay.val).lullWanted = false → u.beWithheld = false → u.beChoice bay.val = some (i, x, n, k) →
      u.staggered bay.val x = false → exec (.sheafPlace bay) s = .next (settle s ((u.place bay.val i n k x).listRoom bay.val)))) ∧
  (∀ (s : State) (b i n k : Nat) (x : Inst),
    ((s.place b i n k x).inst? i).map (·.state) = some .resident ∧ ((s.place b i n k x).inst? i).map (·.core) = some n ∧
    ((s.place b i n k x).inst? i).map (·.slot) = some k ∧ AMap.get? ((s.place b i n k x).core n).slots k = some i ∧
    (s.place b i n k x).mem = s.mem ∧ (s.place b i n k x).streams = s.streams ∧ (s.place b i n k x).queues = s.queues ∧
    (s.place b i n k x).loader = s.loader) ∧
  (∀ (s : State) (bay : Fin 16), s.inService = true → s.vane.safe = false → (s.bay bay.val).lulled = true →
    exec (.sheafPlace bay) s = .next (settle s ((s.applyAll ((s.bayCores bay.val).map Reg.CORE_CMD)).listRoom bay.val))) ∧
  (∀ (s : State) (bay : Fin 16), s.inService = false →
    exec (.sheafPlace bay) s = .next (settle s s) ∧
    exec (.staggerEnd bay) s = .next (settle s (s.setBay bay.val { s.bay bay.val with lastPlaced := none }))) ∧
  ∀ (s : State) (bay : Fin 16),
    exec (.staggerEnd bay) s = .next (settle s ((s.setBay bay.val { s.bay bay.val with lastPlaced := none }).place? bay.val))

/-- What a core does with its stalls (04 R99, R103, R104, R106): at a pass boundary the next runnable stall issues; an eviction check saves one
stall for a runnable saved context when all slots have long been blocked; a save that is done gives the slot on. -/
def Obligations.CoresShareSlots : Prop :=
  (∀ (s : State) (core : Fin 36) (k i : Nat) (x : Inst), (s.preemptForSaved core.val).nextIssue core.val = some (k, i, x) →
    let u := s.preemptForSaved core.val
    exec (.passBoundary core) s = .next (settle s (u.setCore core.val { u.core core.val with
      issuing := some k, lastBe := if x.desc.be then k else (u.core core.val).lastBe }))) ∧
  (∀ (s : State) (core : Fin 36), (s.preemptForSaved core.val).nextIssue core.val = none →
    let u := s.preemptForSaved core.val
    exec (.passBoundary core) s = .next (settle s (u.setCore core.val { u.core core.val with issuing := none }))) ∧
  (∀ (s : State) (core : Fin 36), s.allBlocked core.val = false → exec (.evictionCheck core) s = .next (settle s s)) ∧
  (∀ (s : State) (core : Fin 36) (i k j : Nat) (v : Inst), s.allBlocked core.val = true → (s.core core.val).promised = [] →
    s.savedRunnable core.val false = some i → s.evictionVictim core.val = some (k, j, v) →
    exec (.evictionCheck core) s = .next (settle s (((s.beginSave core.val k (some i)).countWrap (Reg.CORE_EVICTIONS core.val) 1).trace v.bay 0x0103
      (telUnit 0 core.val) v.seq (((s.inst? i).map fun x => x.seq.toNat).getD 0)))) ∧
  (∀ (s : State) (core : Fin 36) (slot : Fin 8) (i : Nat) (x : Inst),
    s.instOf (AMap.get? (s.core core.val).slots slot.val) = some (i, x) → x.state = .saving → x.gleaning = none →
    let c := s.core core.val
    let u := (s.setInst i { x with state := .saved }).setCore core.val
      { c with slots := AMap.erase c.slots slot.val, saved := c.saved ++ [i], promised := AMap.erase c.promised slot.val }
    (AMap.get? c.promised slot.val = none →
      exec (.stallSaveDone core slot) s = .next (settle s (((u.grant core.val).retryPreempt x.bay).listRoom x.bay))) ∧
    ∀ (j : Nat) (y : Inst), u.instOf (AMap.get? c.promised slot.val) = some (j, y) →
      exec (.stallSaveDone core slot) s = .next (settle s (((u.fillSlot core.val slot.val j y).retryPreempt x.bay).listRoom x.bay))) ∧
  (∀ (s : State) (core : Fin 36) (slot : Fin 8) (i : Nat) (x : Inst),
    s.instOf (AMap.get? (s.core core.val).slots slot.val) = some (i, x) → x.state = .restoring →
    let u := s.setInst i { x with state := .resident, faultOnRestore := none }
    (x.gleaning = none → x.faultOnRestore = none → exec (.stallRestoreDone core slot) s = .next (settle s (u.refresh i))) ∧
    (∀ cause, x.gleaning = none → x.faultOnRestore = some cause → exec (.stallRestoreDone core slot) s = .next (settle s (u.abortNow i cause))) ∧
    (x.gleaning ≠ none → exec (.stallRestoreDone core slot) s = .next (settle s (s.setInst i { x with state := .aborted })))) ∧
  (∀ (s : State) (core : Fin 36) (slot : Fin 8), AMap.get? (s.core core.val).slots slot.val = none →
    exec (.stallSaveDone core slot) s = .next (settle s s) ∧ exec (.stallRestoreDone core slot) s = .next (settle s s)) ∧
  ∀ (s : State) (i : Nat) (x : Inst), s.inst? i = some x →
    (x.chaffMode = false → exec (.stallWake i) s = .next (settle s ((s.setInst i (s.clearWaits i x)).refresh i))) ∧
    (x.chaffMode = true → exec (.stallWake i) s = .next (settle s (s.chaffOn i)))

/-- The end of a sheaf by engine time, and a core's faults and commands (04 R90, R109, R110, R114): an overrun of a resident sheaf aborts it; a core
fault fences the core, records its cause and count, empties its slots and queues its sheaves again; HOLD and RELEASE are staged to the
next placement. -/
def Obligations.OverrunsFaultsAndHolds : Prop :=
  (∀ (s : State) (i : Nat) (x : Inst), s.inst? i = some x → x.state = .resident →
    exec (.sheafOverrun i) s = .next (settle s (s.abortInst i causeOverrun))) ∧
  (∀ (s : State) (i : Nat), (∀ x, s.inst? i = some x → x.state ≠ .resident) → exec (.sheafOverrun i) s = .next (settle s s)) ∧
  (∀ (s : State) (core : Fin 36) (cause : CoreCause), s.insts.filter (fun e => e.2.onCore core.val) = [] → s.loader.move = none →
    let u := s.setReg (Reg.CORE_FAULT core.val)
      (w32 (coreCauseCode cause + min (fld (s.reg (Reg.CORE_FAULT core.val)) 7 4 + 1) 15 * 16))
    let c := s.core core.val
    let t := (u.setCore core.val { c with
      faultFenced := true, clockLost := c.clockLost || decide (cause = .clockLoss), slots := [], saved := [], issuing := none
      mxeLast := none, promised := [], current := .empty, next := .empty }).log ((s.coreBay core.val).getD 0xFF) 0x0002 (telUnit 0 core.val)
        (w32 (coreCauseCode cause)) 0
    exec (.coreFault core cause) s = .next (settle s t) ∧ (cause = .seqHang → exec (.seqHang core) s = .next (settle s t))) ∧
  (∀ (s : State) (core : Fin 36) (cause : CoreCause), ∃ t, exec (.coreFault core cause) s = .next (settle s t) ∧ (t.core core.val).faultFenced = true ∧
    (t.core core.val).slots = [] ∧ (t.core core.val).saved = []) ∧
  ∀ (s : State) (src : Source) (core : Fin 36), s.MayCommand src (Reg.CORE_CMD core.val) →
    exec (.coreHold src core) s = .next (settle s ((s.closeGuard src).stage (Reg.CORE_CMD core.val) 1)) ∧
    exec (.coreRelease src core) s = .next (settle s ((s.closeGuard src).stage (Reg.CORE_CMD core.val) 2))

/-- A row operation of the VXE completes, and changes the destination's bytes and marks in its instance's crib, the core's counters and the
draws of free values, and nothing else; operands outside the crib or an illegal form abort the sheaf; one whose token does not hold its count,
or that may not issue, waits (05 R123 to R134; 09 R214). -/
def Obligations.RowOperationsWriteDestination : Prop :=
  (∀ (c : Instr) (s : State) (r : EngineRef) (row : VxeRow) (reads : List (Nat × Nat)) (outLen i : Nat) (x : Inst),
    rowOperation x c = some (r, row, reads, outLen, true) → s.RowRuns r row reads outLen i x →
    ∃ (u : State) (y : Inst), exec c s = .next (settle s (u.engineEnds i r)) ∧ u = { s with insts := AMap.set s.insts i y, regs := u.regs, free := u.free } ∧
      y = { x with crib := y.crib, cribChaff := y.cribChaff, cribUe := y.cribUe } ∧
      ∀ off, off < row.dst ∨ row.dst + outLen ≤ off → AMap.getD y.crib off 0 = AMap.getD x.crib off 0) ∧
  (∀ (c : Instr) (s : State) (r : EngineRef) (row : VxeRow) (reads : List (Nat × Nat)) (outLen i : Nat) (x : Inst) (legal : Bool),
    rowOperation x c = some (r, row, reads, outLen, legal) → s.EngineRuns r engineVxe i x →
    legal = false ∨ rowOk x row reads (row.dst, outLen) = false → exec c s = .next (settle s ((s.abortInst i causeProgram).engineEnds i r))) ∧
  (∀ (c : Instr) (s : State) (x : Inst) (r : EngineRef) (row : VxeRow) (reads : List (Nat × Nat)) (outLen : Nat) (legal : Bool),
    rowOperation x c = some (r, row, reads, outLen, legal) → s.engineRun r.stall engineVxe = none → exec c s = .next (settle s s)) ∧
  ∀ (c : Instr) (s : State) (i : Nat) (x : Inst) (r : EngineRef) (row : VxeRow) (reads : List (Nat × Nat)) (outLen : Nat) (legal : Bool),
    rowOperation x c = some (r, row, reads, outLen, legal) → s.engineRun r.stall engineVxe = some (i, x) → x.awaited r.await = false → exec c s = .next (settle s s)

/-- Results of the row operations (05 R123 to R131): element-wise results one by one; the sum in an open order, or the largest element; the
norms by mean and variance; softmax; the scale of a row, and its elements quantised or scaled back; an integer rescale by its table. Each
writes its result bytes and marks, counts, and ends its tokens. -/
def Obligations.RowOperationResults : Prop :=
  (∀ (s : State) (r : EngineRef) (op : VxeOp) (row : VxeRow) (i : Nat) (x : Inst),
    s.RowRuns r row (opReads op row) (vecBytes row.outFmt row.count) i x →
    let get := fun (off k : Nat) => elemBits row.inFmt (x.cribRead off (vecBytes row.inFmt row.count)) k
    let o := rowOut s row.count row.outFmt fun s k => vxeElement s op x.arithCtl row (get row.a k) (get row.b k) (get row.c k)
    exec (.vxeElementwise r op row) s = .next (settle s ((o.1.rowDone i x row.dst o.2 (x.anyMarked (opReads op row))).engineEnds i r))) ∧
  (∀ (s : State) (r : EngineRef) (row : VxeRow) (i : Nat) (x : Inst), s.RowRuns r row [rowArea row row.a] (vecBytes row.outFmt 1) i x →
    let vs := rowValues row x row.a
    let top := fun (l : List FVal) => (l.drop 1).foldl fmax ((l.head?).getD (.fin false 0 0))
    let finite := vs.all FVal.isFinite
    let sum := fsum s vs
    let done := fun (o : State × Bytes × Tally) => (o.1.rowDone i x row.dst o.2 (x.anyMarked [rowArea row row.a])).engineEnds i r
    exec (.rowReduction r .sum row) s = .next (settle s (done (oneOut sum.1 x row.outFmt sum.2 finite 0))) ∧
    exec (.rowReduction r .max row) s = .next (settle s (done (oneOut s x row.outFmt (top vs) finite 0))) ∧
    exec (.rowReduction r .absMax row) s = .next (settle s (done (oneOut s x row.outFmt (top (vs.map FVal.abs)) finite 0)))) ∧
  (∀ (s : State) (r : EngineRef) (row : VxeRow) (epsilon : Word) (i : Nat) (x : Inst),
    let reads := [rowArea row row.a, rowArea row row.b, rowArea row row.c]
    s.RowRuns r row reads (vecBytes row.outFmt row.count) i x →
    let vs := rowValues row x row.a
    let mean := fmean s vs
    let var := fvariance mean.1 vs mean.2
    let d := fadd var.2 (of32 epsilon.toNat)
    let k := withinUlp var.1 1 (divExact oneF (sqrtExact d))
    let o := if isZero d then fpOut var.1 x row.outFmt true (vs.map fun _ => .fin false 0 0) 1
      else fpOut k.1 x row.outFmt ((vs ++ rowValues row x row.b ++ rowValues row x row.c).all FVal.isFinite)
        ((vs.zip ((rowValues row x row.b).zip (rowValues row x row.c))).map fun e =>
          fadd (fmul (fmul (fsub e.1 mean.2) k.2) e.2.1) e.2.2) 0
    exec (.layerNorm r row epsilon) s = .next (settle s ((o.1.rowDone i x row.dst o.2 (x.anyMarked reads)).engineEnds i r))) ∧
  (∀ (s : State) (r : EngineRef) (row : VxeRow) (epsilon : Word) (i : Nat) (x : Inst),
    let reads := [rowArea row row.a, rowArea row row.b]
    s.RowRuns r row reads (vecBytes row.outFmt row.count) i x →
    let vs := rowValues row x row.a
    let square := fmean s (vs.map fun v => fmul v v)
    let d := fadd square.2 (of32 epsilon.toNat)
    let k := withinUlp square.1 1 (divExact oneF (sqrtExact d))
    let o := if isZero d then fpOut square.1 x row.outFmt true (vs.map fun _ => .fin false 0 0) 1
      else fpOut k.1 x row.outFmt ((vs ++ rowValues row x row.b).all FVal.isFinite)
        ((vs.zip (rowValues row x row.b)).map fun e => fmul (fmul e.1 k.2) e.2) 0
    exec (.rmsNorm r row epsilon) s = .next (settle s ((o.1.rowDone i x row.dst o.2 (x.anyMarked reads)).engineEnds i r))) ∧
  (∀ (s : State) (r : EngineRef) (row : VxeRow) (i : Nat) (x : Inst),
    s.RowRuns r row [rowArea row row.a] (vecBytes row.outFmt row.count) i x →
    let soft := softmaxOf s (rowValues row x row.a)
    let o := fpOut soft.1 x row.outFmt true soft.2.1 (if soft.2.2 then 1 else 0)
    exec (.softmax r row) s = .next (settle s ((o.1.rowDone i x row.dst o.2 (x.anyMarked [rowArea row row.a])).engineEnds i r)) ∧
    ((rowValues row x row.a).all (fun v => !v.isNan && !v.isFinite && v.neg) = true →
      soft = (s, (rowValues row x row.a).map (fun _ => .fin false 0 0), true))) ∧
  (∀ (s : State) (r : EngineRef) (row : VxeRow) (target : Fmt) (q i : Nat) (x : Inst), qmax target = some q →
    s.RowRuns r row [rowArea row row.a] 4 i x →
    let k := scaleOf (rowValues row x row.a) q
    let o := oneOut s x .fp32 k.1 true (if k.2 then 1 else 0)
    exec (.scale r row target) s = .next (settle s ((o.1.rowDone i x row.dst o.2 (x.anyMarked [rowArea row row.a])).engineEnds i r))) ∧
  (∀ (s : State) (r : EngineRef) (row : VxeRow) (target : Fmt) (q i : Nat) (x : Inst), qmax target = some q →
    s.RowRuns r row [rowArea row row.a, (row.b, 4)] (vecBytes target row.count) i x →
    let vs := rowValues row x row.a
    let k := withinUlp s 1 (divExact oneF (of32 (leNat (x.cribRead row.b 4))))
    let o := rowOut k.1 row.count target fun s j => (s, quantElement target q k.2 ((vs[j]?).getD (.fin false 0 0)))
    exec (.quant r row target) s = .next (settle s ((o.1.rowDone i x row.dst o.2 (x.anyMarked [rowArea row row.a, (row.b, 4)])).engineEnds i r))) ∧
  (∀ (s : State) (r : EngineRef) (row : VxeRow) (i : Nat) (x : Inst), row.outFmt = .fp32 ∨ row.outFmt = .bf16 →
    s.RowRuns r row [rowArea row row.a, (row.b, 4)] (vecBytes row.outFmt row.count) i x →
    let k := of32 (leNat (x.cribRead row.b 4))
    let vs := rowValues row x row.a
    let o := fpOut s x row.outFmt (k.isFinite && vs.all FVal.isFinite) (vs.map fun v => fmul v k) 0
    exec (.dequant r row) s = .next (settle s ((o.1.rowDone i x row.dst o.2 (x.anyMarked [rowArea row row.a, (row.b, 4)])).engineEnds i r))) ∧
  ∀ (s : State) (r : EngineRef) (o : RescaleOp) (i : Nat) (x : Inst),
    let row : VxeRow := ⟨o.count, .int32, o.out, o.src, 0, 0, o.dst⟩
    let tokens := ceilDiv o.count (max o.channels 1)
    let reads := [rowArea row o.src, (o.table, rescaleCount o.mode o.channels tokens * 8)]
    1 ≤ o.channels → rescaleOk x o.out o.mode o.table o.channels tokens = true → s.RowRuns r row reads (vecBytes o.out o.count) i x →
    let entry := fun (k : Nat) => parseRescale (x.cribRead (o.table + rescaleIndex o.mode (k % o.channels) (k / o.channels) * 8) 8)
    let value := fun (k : Nat) => rescaleOut (signedOf 32 (leAt (x.cribRead o.src (o.count * 4)) (k * 4) 4)) (entry k) x.desc.roundEven o.out
    ∃ tally, tally.outSat = ((List.range o.count).filter fun k => (value k).2).length ∧ tally.accSat = 0 ∧ tally.nonfinite = 0 ∧
      exec (.rescale r o) s = .next (settle s ((s.rowDone i x o.dst
        (packElems o.out ((List.range o.count).map fun k => natOfInt (fmtBits o.out) (value k).1), tally) (x.anyMarked reads)).engineEnds i r))

/-- A pass of the MXE (05 R118 to R122; 09 R214, R228): with its tile at hand and its operands in the crib it completes, changes its instance's crib
in the destination only, the core's counters, its note of the last pass and the draws of free values, and nothing else; without the tile it
waits; outside the limits it aborts the sheaf. -/
def Obligations.MxePassesComplete : Prop :=
  (∀ (s : State) (r : EngineRef) (p : MxePass) (i off k channels : Nat) (int : Bool) (x : Inst) (area : Fmt × Nat × List (Nat × Nat)),
    p.tile = .crib off → s.EngineRuns r engineMxe i x → mxeShape p.weights p.columns = some (k, channels, int) →
    epilogueArea x p int = some area → passOk p x k channels area = true →
    ∃ (u : State) (y : Inst), exec (.mxePass r p) s = .next (settle s (u.engineEnds i r)) ∧
      u = { s with
                   insts := AMap.set s.insts i y, regs := u.regs, free := u.free,
                   cores := AMap.set s.cores x.core { s.core x.core with mxeLast := some i } } ∧
      y = { x with crib := y.crib, cribChaff := y.cribChaff, cribUe := y.cribUe } ∧
      ∀ a, a < area.2.1 ∨ area.2.1 + p.columnCount * vecBytes area.1 p.channels ≤ a → AMap.getD y.crib a 0 = AMap.getD x.crib a 0) ∧
  (∀ (s : State) (r : EngineRef) (p : MxePass) (i round tile k channels : Nat) (int : Bool) (x : Inst) (area : Fmt × Nat × List (Nat × Nat))
      (w : Bytes × Bool),
    p.tile = .ring round tile → s.EngineRuns r engineMxe i x → mxeShape p.weights p.columns = some (k, channels, int) →
    epilogueArea x p int = some area → passOk p x k channels area = true → s.tileOf i x p = some w →
    ∃ (u : State) (y : Inst), exec (.mxePass r p) s = .next (settle s ((u.ringPassed i x round tile).engineEnds i r)) ∧
      u = { s with
                   insts := AMap.set s.insts i y, regs := u.regs, free := u.free,
                   cores := AMap.set s.cores x.core { s.core x.core with mxeLast := some i } } ∧
      y = { x with crib := y.crib, cribChaff := y.cribChaff, cribUe := y.cribUe }) ∧
  (∀ (s : State) (r : EngineRef) (p : MxePass) (i k channels : Nat) (int : Bool) (x : Inst) (area : Fmt × Nat × List (Nat × Nat)),
    s.EngineRuns r engineMxe i x → mxeShape p.weights p.columns = some (k, channels, int) →
    epilogueArea x p int = some area → passOk p x k channels area = true → s.tileOf i x p = none → exec (.mxePass r p) s = .next (settle s s)) ∧
  ∀ (s : State) (r : EngineRef) (p : MxePass) (i k channels : Nat) (int : Bool) (x : Inst) (area : Fmt × Nat × List (Nat × Nat)),
    s.EngineRuns r engineMxe i x → mxeShape p.weights p.columns = some (k, channels, int) →
    epilogueArea x p int = some area → passOk p x k channels area = false →
    exec (.mxePass r p) s = .next (settle s ((s.abortInst i causeProgram).engineEnds i r))

/-- Integer accumulation of the MXE (05 R120, R122): after a pass that writes its partial sums, each element is the sum of the products of its
channel's weights and its column, as 32 bits. -/
def Obligations.MxeIntegerSums : Prop :=
  ∀ (s : State) (r : EngineRef) (p : MxePass) (i tileOff dst k channels : Nat) (x : Inst),
    p.tile = .crib tileOff → p.epilogue = .partialSum dst → s.EngineRuns r engineMxe i x →
    mxeShape p.weights p.columns = some (k, channels, true) → passOk p x k channels (.int32, dst, []) = true →
    ∃ (u : State) (y : Inst), exec (.mxePass r p) s = .next (settle s (u.engineEnds i r)) ∧ u.inst? i = some y ∧
      ∀ c ch, c < p.columnCount → ch < p.channels →
        let w := fun (j : Nat) => signedOf (fmtBits p.weights)
          (elemBits p.weights (x.cribRead tileOff (vecBytes p.weights (p.depth * p.channels))) (ch * p.depth + j))
        let v := fun (j : Nat) => signedOf (fmtBits p.columns)
          (elemBits p.columns (x.cribRead (p.columnOffset + c * p.columnStride) (vecBytes p.columns p.depth)) j)
        leNat (y.cribRead (dst + (c * p.channels + ch) * 4) 4) =
          natOfInt 32 ((List.range p.depth).foldl (fun (a : Int) j => a + w j * v j) 0)

/-- A bank-side command (05 R136 to R139): DOT and WSUM are checked and queued with the next number, their pages are translated, and the stall
waits; one that breaks the rules aborts its sheaf. A share that its die has taken leaves the list with its products gathered, and the last one
writes the results; no other share can end. -/
def Obligations.BankSideCommands : Prop :=
  (∀ (s : State) (r : EngineRef) (off i : Nat) (x : Inst), s.EngineRuns r engineBse i x → x.inCrib off 32 = true →
    let e := x.cribRead off 32
    let c0 := parseBse e i (!x.desc.be) s.engines.nextCommand
    let c := { c0 with stop := c0.matrix.toNat + (c0.rows - 1) * c0.stride + c0.rowBytes }
    let u : State := { s with engines := { s.engines with
      nextCommand := s.engines.nextCommand + 1, commands := s.engines.commands ++ [c] } }
    c0.ok x.cribSize = true →
    (leAt e 0 1 = 1 → exec (.bseDot r off) s = .next (settle s (((u.bseAdvance c.id c.pages).refresh i).engineEnds i r))) ∧
    (leAt e 0 1 = 2 → exec (.bseWsum r off) s = .next (settle s (((u.bseAdvance c.id c.pages).refresh i).engineEnds i r)))) ∧
  (∀ (s : State) (r : EngineRef) (off i : Nat) (x : Inst), s.EngineRuns r engineBse i x →
    x.inCrib off 32 = false ∨ (parseBse (x.cribRead off 32) i (!x.desc.be) s.engines.nextCommand).ok x.cribSize = false →
    (leAt (x.cribRead off 32) 0 1 = 1 → exec (.bseDot r off) s = .next (settle s ((s.abortInst i causeProgram).engineEnds i r))) ∧
    (leAt (x.cribRead off 32) 0 1 = 2 → exec (.bseWsum r off) s = .next (settle s ((s.abortInst i causeProgram).engineEnds i r)))) ∧
  (∀ (s : State) (share id : Nat) (sh : BseShare), s.engines.shares.find? (fun q => q.id = share && q.taken) = some sh →
    sh.work = .command id → exec (.bseShareDone share) s = .next (settle s (s.commandShareDone sh id).passRoom)) ∧
  ∀ (s : State) (share : Nat), s.engines.shares.find? (fun q => q.id = share && q.taken) = none → exec (.bseShareDone share) s = .next (settle s s)

/-- Stream commands in the states that R144 lists (06 R144 to R146, R151, R154, R158): ARM applies the staged fields and leaves the stream
ARMED at chunk 0, START runs it, PAUSE stops posting, RESUME goes on, DRAIN closes its input, ABORT returns it to IDLE, RESET_STATE names
a reset, RECHECK looks again. -/
def Obligations.StreamCommandsAccepted : Prop :=
  (∀ (s : State) (src : Source) (sid : Fin 16384) (b : Nat), s.MayWrite src (Reg.SC_CMD sid.val) → (s.stream sid.val).pending = none →
    (s.stream sid.val).state = .idle → s.bayOfSid sid.val = some b → s.armReason b sid.val = none →
    let u := (s.Entered src (Reg.SC_CMD sid.val)).setStream sid.val { s.stream sid.val with refused := false, reason := 0 }
    exec (.scArm src sid) s = .next (settle s (u.armStream b sid.val))) ∧
  (∀ (s : State) (b sid : Nat), ((s.armStream b sid).stream sid).state = .armed ∧ (s.armStream b sid).reg (Reg.SC_CHUNK_SEQ sid) = 0 ∧
    (s.armStream b sid).reg (Reg.SC_IN_HEAD sid) = (s.armStream b sid).reg (Reg.SC_IN_TAIL sid) ∧ (s.armStream b sid).mem = s.mem ∧
    ∀ i, i ≠ sid → (s.armStream b sid).stream i = s.stream i) ∧
  (∀ (s : State) (src : Source) (sid : Fin 16384), s.MayWrite src (Reg.SC_CMD sid.val) → (s.stream sid.val).pending = none →
    let x := { s.stream sid.val with refused := false, reason := 0 }
    let w := s.Entered src (Reg.SC_CMD sid.val)
    let u := w.setStream sid.val x
    (x.state = .armed → exec (.scStart src sid) s = .next (settle s (w.setStream sid.val { x with state := .running }))) ∧
    (x.state = .armed ∨ x.state = .running → s.bayOfSid sid.val = none → exec (.scPause src sid) s = .next (settle s (w.setStream sid.val
      { x with state := .paused, pending := if x.inflight.isSome then some .pause else none }))) ∧
    (x.state = .armed ∨ x.state = .running → exec (.scPause src sid) s = .next (settle s (u.pauseStream sid.val))) ∧
    (x.state = .paused → exec (.scResume src sid) s = .next (settle s
      ((w.setStream sid.val { x with state := if x.closed.isSome then .draining else .running }).noteAll sid.val))) ∧
    (∀ b, s.bayOfSid sid.val = some b → x.state = .armed ∨ x.state = .running ∨ x.state = .paused →
      exec (.scDrain src sid) s = .next (settle s (u.drainStream b sid.val))) ∧
    (∀ b, s.bayOfSid sid.val = some b → x.state ≠ .idle → exec (.scAbort src sid) s = .next (settle s (u.abortStream b sid.val))) ∧
    (x.state = .armed ∨ x.state = .running ∨ x.state = .paused → exec (.scResetState src sid) s = .next (settle s (u.resetState sid.val))) ∧
    (∀ b, s.bayOfSid sid.val = some b → x.state ≠ .idle → exec (.scRecheck src sid) s = .next (settle s ((u.recheck b sid.val).tryPost sid.val))))

/-- Input frames and output tails (06 R147, R150; 10 R255): a frame within the ring goes to its slot and is present, one behind the stream or
beyond the ring is counted and discarded; a message for no such stream is refused; a host's tail moves only the rings of sink 2. -/
def Obligations.FramesInAndTailsOut : Prop :=
  (∀ (s : State) (peer sid : Fin 16384) (chaff : Bool) (first : Word) (count b : Nat) (data : List Byte), s.bayOfSid sid.val = some b →
    bit (s.reg (Reg.SC_CTRL sid.val)) 11 = false → fld (s.reg (Reg.SC_PEER sid.val)) 13 0 = peer.val → (s.stream sid.val).state ≠ .idle →
    data.length = count * s.frameLen sid.val →
    let m := s.takeMsg peer.val 3
    exec (.streamInputFrames peer sid chaff first count data) s = .next (settle s (m.1.takeFrames peer.val m.2 b sid.val chaff first
      ((List.range count).map fun k => slice data (k * s.frameLen sid.val) (s.frameLen sid.val))))) ∧
  (∀ (s : State) (peer sid : Fin 16384) (chaff : Bool) (first : Word) (count : Nat) (data : List Byte), (s.stream sid.val).state = .idle →
    let m := s.takeMsg peer.val 3
    exec (.streamInputFrames peer sid chaff first count data) s = .next (settle s
      (if s.inService then (m.1.count32 Reg.EB_RX_REFUSED 1).effect peer.val m.2 else m.1))) ∧
  (∀ (s : State) (b sid : Nat) (q : Word) (bytes : Bytes) (chaff : Bool) (en : Engine), s.frameLate sid q = true →
    s.writeFrame b sid q bytes chaff en = (s.count16 (Reg.SC_LATE_DISCARD sid), none)) ∧
  (∀ (s : State) (b sid : Nat) (q : Word) (bytes : Bytes) (chaff : Bool) (en : Engine), s.frameLate sid q = false →
    fld (s.reg (Reg.SC_IN_CAP sid)) 15 0 ≤ (q - s.reg (Reg.SC_IN_TAIL sid)).toNat →
    s.writeFrame b sid q bytes chaff en = (s.count16 (Reg.SC_IN_OVERRUN sid), none)) ∧
  (∀ (s s1 : State) (b sid : Nat) (q : Word) (bytes : Bytes) (chaff : Bool) (en : Engine), s.frameLate sid q = false →
    (q - s.reg (Reg.SC_IN_TAIL sid)).toNat < fld (s.reg (Reg.SC_IN_CAP sid)) 15 0 → (s.stream sid).frames.contains q.toNat = false →
    s.writeRun b (s.frameVa sid q) bytes chaff en = (s1, none) →
    s.writeFrame b sid q bytes chaff en = (s1.frameLanded b sid q, none)) ∧
  (∀ (s : State) (src : Source) (sequence : Bool) (index : Fin 16384) (v : Word),
    let i := if sequence then index.val % 8192 else index.val
    s.MayWrite src (ctxReg sequence i 0x50) →
    (s.ctxSink sequence i = 2 → exec (.outTailWrite src sequence index v) s = .next (settle s
      (((s.Entered src (ctxReg sequence i 0x50)).setReg (ctxReg sequence i 0x50) v).outFreed sequence i))) ∧
    (s.ctxSink sequence i ≠ 2 → exec (.outTailWrite src sequence index v) s = .next (settle s (s.Entered src (ctxReg sequence i 0x50)))))

/-- Chunks, batches and chains (06 R151, R152; 07 R174): a stream whose chunk is not due posts nothing; a batch of 64 rows closes, and an
expired window closes its batch; the headers of a chain's rows follow its end; a written slot completes. -/
def Obligations.ChunksBatchesAndChains : Prop :=
  (∀ (s : State) (sid : Fin 16384), (s.stream sid.val).state = .idle ∨ (s.stream sid.val).state = .armed ∨ (s.stream sid.val).state = .paused →
    exec (.chunkPost sid) s = .next (settle s s)) ∧
  (∀ (s : State) (sid : Fin 16384) (b : Nat), s.bayOfSid sid.val = some b → (s.stream sid.val).state = .running →
    (s.stream sid.val).inflight = none → (s.stream sid.val).pending = none → s.owesEmpty false sid.val = false →
    (s.bay b).lullWanted = false → (s.bay b).lulled = false → (s.stream sid.val).dropTo = none →
    s.chunkReady sid.val (s.reg (Reg.SC_CHUNK_SEQ sid.val)) = true → (s.stream sid.val).absent = false →
    (s.setOf sid.val = none ∨ (s.stream sid.val).returned = true → exec (.chunkPost sid) s = .next (settle s (s.postReady b sid.val false false none))) ∧
    ∀ k, s.setOf sid.val = some k → (s.stream sid.val).returned = false → (s.alignSet b k).running = true →
      (s.alignSet b k).offered.contains sid.val = false → s.reg (Reg.SC_CHUNK_SEQ sid.val) = s.reg (Reg.BAT_ALIGN_NEXT b k) →
      exec (.chunkPost sid) s = .next (settle s (s.postReady b sid.val false false (some k)))) ∧
  (∀ (s : State) (sid : Nat), ((s.launch sid .normal false 0).stream sid).inflight.map (·.seq) = some (s.reg (Reg.SC_CHUNK_SEQ sid)) ∧
    (s.launch sid .normal false 0).reg (Reg.SC_CHUNK_SEQ sid) = s.reg (Reg.SC_CHUNK_SEQ sid) + 1) ∧
  (∀ (s : State) (bay : Fin 16) (graph : Fin 256) (x : Batch), s.openBatch bay.val graph.val = some x → 64 ≤ x.rows.length →
    let u := s.closeBatch bay.val graph.val
    exec (.batchClose bay graph) s = .next (settle s (u.drainClosing bay.val (u.batcher bay.val).waiting.length))) ∧
  (∀ (s : State) (bay : Fin 16) (graph : Fin 256), exec (.batchWindowExpire bay graph) s = .next (settle s (s.closeBatch bay.val graph.val))) ∧
  (∀ (s : State) (bay : Fin 16) (slot : Fin 1024), AMap.get? (s.batcher bay.val).slots slot.val = none → exec (.chainEnd bay slot) s = .next (settle s s)) ∧
  (∀ (s : State) (bay : Fin 16) (slot : Fin 1024) (x : Batch) (r : Row) (f : InFlight), AMap.get? (s.batcher bay.val).slots slot.val = some x →
    x.held = false → s.chainEnded bay.val slot.val = true → x.rows = [r] → r.finished = false → s.ctxInflight r.seq r.index = some f →
    f.stage = .running →
    exec (.chainEnd bay slot) s = .next (settle s ((s.setInflight r.seq r.index (some { f with stage := .due, cut := x.cut, torn := r.torn, scan := r.scan })).tryHeaders
      r.seq r.index))) ∧
  (∀ (s : State) (bay : Fin 16) (slot : Fin 1024) (x : Batch), AMap.get? (s.batcher bay.val).slots slot.val = some x →
    x.held = false → s.chainEnded bay.val slot.val = true → x.rows.all (·.finished) = true →
    exec (.chainEnd bay slot) s = .next (settle s ((s.freeSlot bay.val slot.val).drainClosing bay.val (s.batcher bay.val).waiting.length))) ∧
  ∀ (s : State) (sid : Fin 16384), exec (.chunkComplete sid) s = .next (settle s (s.completeSlot false sid.val))

/-- Aligned sets (06 R159): START of a set that does not run takes the sequence, and its ARMED members run; while it runs START is ignored; at the end of
the slack the late members are posted with the others, once the bay is out of lull (06 R161). -/
def Obligations.AlignedSets : Prop :=
  (∀ (s : State) (src : Source) (bay : Fin 16), let k := fld (s.reg (Reg.BAT_ASEL bay.val)) 9 0
    s.MayWrite src (Reg.BAT_ALIGN_CMD bay.val k) → (s.alignSet bay.val k).running = true →
    exec (.alignStart src bay) s = .next (settle s (s.Entered src (Reg.BAT_ALIGN_CMD bay.val k)))) ∧
  (∀ (s : State) (src : Source) (bay : Fin 16), let k := fld (s.reg (Reg.BAT_ASEL bay.val)) 9 0
    s.MayWrite src (Reg.BAT_ALIGN_CMD bay.val k) → (s.alignSet bay.val k).running = false → s.members bay.val k = [] →
    exec (.alignStart src bay) s = .next (settle s ((((s.Entered src (Reg.BAT_ALIGN_CMD bay.val k)).setAlign bay.val k ⟨true, none, 0, [], false⟩).setReg
      (Reg.BAT_ALIGN_NEXT bay.val k) (s.reg (Reg.BAT_ALIGN_SEQ bay.val))).applyStaged (Reg.BAT_ALIGN_CFG bay.val k)))) ∧
  (∀ (s : State) (src : Source) (bay : Fin 16), let k := fld (s.reg (Reg.BAT_ASEL bay.val)) 9 0
    s.MayWrite src (Reg.BAT_ALIGN_CMD bay.val k) →
    exec (.alignStart src bay) s = .next (settle s ((s.Entered src (Reg.BAT_ALIGN_CMD bay.val k)).alignStart bay.val k))) ∧
  ∀ (s : State) (bay : Fin 16) (set : Fin 1024),
    ((s.alignSet bay.val set.val).timing = none → exec (.alignSlackExpire bay set) s = .next (settle s s)) ∧
    ((s.alignSet bay.val set.val).timing ≠ none → exec (.alignSlackExpire bay set) s = .next (settle s
      ((s.setAlign bay.val set.val { s.alignSet bay.val set.val with expired := true }).postDue bay.val set.val)))

/-- SCAN, ATT_SCORE, ATT_VALUE and the end of a pass (07 R169, R170; 08 R194, R195, R197, R198; 09 R214): where the instruction runs, its descriptor is in
the crib and legal and its rows are of the bay, SCAN takes the rows' resets and states, scans every row and finishes; an attention pass joins its die's
walker queue, begins at once below 64 entries, and ends its tokens; a pass whose shares are done writes its scores or its values. A descriptor outside the
crib, or one that breaks a rule, aborts the sheaf with cause PROGRAM, a row of another bay with cause OUTSIDE. -/
def Obligations.ScanAndAttentionRun : Prop :=
  (∀ (s : State) (r : EngineRef) (off i : Nat) (x : Inst), s.EngineRuns r engineSce i x →
    (x.inCrib off 64 = false → exec (.scan r off) s = .next (settle s ((s.abortInst i causeProgram).engineEnds i r))) ∧
    (x.inCrib off 64 = true → scanOk x (x.cribRead off 64) ((s.rowsOf x).all fun w => !w.seq) = false →
      exec (.scan r off) s = .next (settle s ((s.abortInst i causeProgram).engineEnds i r))) ∧
    (x.inCrib off 64 = true → scanOk x (x.cribRead off 64) ((s.rowsOf x).all fun w => !w.seq) = true → s.rowsHome x = false →
      exec (.scan r off) s = .next (settle s ((s.abortInst i causeOutside).engineEnds i r))) ∧
    (x.inCrib off 64 = true → scanOk x (x.cribRead off 64) ((s.rowsOf x).all fun w => !w.seq) = true → s.rowsHome x = true →
      ∀ (s1 s2 s3 : State) (resets : List (List Nat)) (rows : List ScanRow) (rs : List (ScanRow × ScanOut × Bool × Bool)),
        s.rowResets x = (s1, .ok resets) →
        s1.scanRows x (parseScan (x.cribRead off 64)) resets
          ((List.range (s.rowsOf x).length).filterMap fun n => ((s.rowsOf x)[n]?).map fun w => (n, w)) = (s2, .ok rows) →
        s2.scanAll x (parseScan (x.cribRead off 64)) rows = (s3, rs) →
        exec (.scan r off) s = .next (settle s ((s3.scanFinish i x off (parseScan (x.cribRead off 64)) rs).engineEnds i r)))) ∧
  (∀ (s : State) (r : EngineRef) (off i : Nat) (x : Inst) (value : Bool) (c : Instr), s.EngineRuns r engineMxe i x →
    (c = .attScore r off ∧ value = false) ∨ (c = .attValue r off ∧ value = true) →
    let d := parseAtt (x.cribRead off 64)
    (attFits off value x = false → exec c s = .next (settle s s)) ∧
    (attFits off value x = true → x.inCrib off 64 = false → exec c s = .next (settle s ((s.abortInst i causeProgram).engineEnds i r))) ∧
    (attFits off value x = true → x.inCrib off 64 = true → d.op = (if value then 2 else 1) →
      ∀ h, AMap.get? s.engines.seqShapes (x.bay * 256 + x.desc.graph) = some h →
        (s.attOk x (x.cribRead off 64) h = false → exec c s = .next (settle s ((s.abortInst i causeProgram).engineEnds i r))) ∧
        (s.attOk x (x.cribRead off 64) h = true → s.rowsHome x = false → exec c s = .next (settle s ((s.abortInst i causeOutside).engineEnds i r))) ∧
        (s.attOk x (x.cribRead off 64) h = true → s.rowsHome x = true →
          let list := s.rowsOf x
          let rows := (List.range list.length).filterMap fun n => (list[n]?).map fun w => s.passRow n w.index d.slots
          let p : AttPass := {
            inst := i, die := dieOf x.core, core := x.core, lc := !x.desc.be, value := value, tap := d.flags % 2 = 1,
            allMxe := d.flags / 2 % 2 = 1, heads := d.heads, selfTag := d.selfTag, layer := d.layer, scale := d.scale, qLat := d.qLat, qTally := d.qTally,
            selfOff := d.selfOff, scoreArea := BitVec.ofNat 64 d.scoreArea, slots := d.slots, valueOff := d.valueOff, workOff := d.work, rows := rows,
            queued := decide (64 ≤ s.attQueued (dieOf x.core)), waitRoom := false }
          let s1 : State := { s with engines := { s.engines with passes := s.engines.passes ++ [p] } }
          exec c s = .next (settle s (((if p.queued then s1 else s1.passStart x.bay p).refresh i).engineEnds i r))))) ∧
  ∀ (s : State) (i : Nat) (p : AttPass) (x : Inst) (h : SeqShape), s.pass? i = some p → s.inst? i = some x →
    AMap.get? s.engines.seqShapes (x.bay * 256 + x.desc.graph) = some h →
    (s.passReady p = false → exec (.attentionPassDone i) s = .next (settle s s)) ∧
    (s.passReady p = true → p.value = true → exec (.attentionPassDone i) s = .next (settle s (s.valueOut i p x h))) ∧
    (s.passReady p = true → p.value = false → exec (.attentionPassDone i) s = .next (settle s (s.scoreOut i p x h)))

/-- Sequence commands in the states that R186 lists, and the end of a step (08 R185 to R190): ARM applies the staged fields and takes the start
position, START makes the step at `SQ_POS` ready, PAUSE stops posting, RESUME goes on with a step that was ready or makes one ready, DRAIN closes, ABORT
ends, RECHECK probes again; a written step completes and the next one is tried. -/
def Obligations.SequenceCommandsAccepted : Prop :=
  (∀ (s : State) (src : Source) (q : Fin 8192) (b : Nat), s.MayWrite src (Reg.SQ_CMD q.val) → (s.seqCtx q.val).pending = none →
    s.bayOfSeq q.val = some b →
    let x := { s.seqCtx q.val with refused := false, reason := 0 }
    let w := s.Entered src (Reg.SQ_CMD q.val)
    let u := w.setSeq q.val x
    (x.state = .idle → s.sqArmReason b q.val = none → exec (.sqArm src q) s = .next (settle s (u.armSeq b q.val))) ∧
    (∀ r, x.state = .idle → s.sqArmReason b q.val = some r →
      exec (.sqArm src q) s = .next (settle s (w.setSeq q.val { x with refused := true, reason := r }))) ∧
    (x.state = .armed → exec (.sqStart src q) s = .next (settle s (u.startSeq b q.val))) ∧
    (x.state = .armed ∨ x.state = .running → exec (.sqPause src q) s = .next (settle s (w.setSeq q.val { x with
      state := .paused, pending := if x.inflight.isSome then some .pause else none }))) ∧
    (x.state = .paused → x.readyAt = none → exec (.sqResume src q) s = .next (settle s (u.startSeq b q.val))) ∧
    (x.state = .paused → x.readyAt ≠ none →
      let v := u.setSeq q.val { x with state := .running }
      exec (.sqResume src q) s = .next (settle s
        ((if x.probed || x.absent then v else v.probe b q.val (u.reg (Reg.SQ_POS q.val)).toNat).seqTry q.val))) ∧
    (x.state = .armed ∨ x.state = .running ∨ x.state = .paused → exec (.sqDrain src q) s = .next (settle s (u.drainSeq b q.val))) ∧
    (x.state ≠ .idle → exec (.sqAbort src q) s = .next (settle s (u.abortSeq b q.val))) ∧
    (x.state ≠ .idle → exec (.sqRecheck src q) s = .next (settle s (u.recheckSeq b q.val)))) ∧
  (∀ (s : State) (b q : Nat), bit ((s.applyAll (sqArmRegs q)).reg (Reg.SQ_CTRL q)) 12 = false →
    ((s.armSeq b q).seqCtx q).state = .armed ∧ (s.armSeq b q).mem = s.mem ∧
    (s.armSeq b q).reg (Reg.SQ_POS q) = w32 (fld ((s.applyAll (sqArmRegs q)).reg (Reg.SQ_START_POS q)) 20 0)) ∧
  ∀ (s : State) (q : Fin 8192) (f : InFlight), (s.seqCtx q.val).inflight = some f →
    (f.stage = .written → exec (.stepComplete q) s = .next (settle s (((s.completeSlot true q.val).stepQuiet q.val).seqTry q.val))) ∧
    (f.stage ≠ .written → exec (.stepComplete q) s = .next (settle s s))

/-- A stream or sequence command in a state that R144 or R186 does not list for it is refused with reason 1, one while another is pending with reason 8, and
nothing but the refusal's record changes (06 R144, R146; 08 R186). -/
def Obligations.ContextCommandsRefused : Prop :=
  (∀ (s : State) (src : Source) (sid : Fin 16384) (c : Instr) (allowed : List CtxState), s.MayWrite src (Reg.SC_CMD sid.val) →
    (c = .scArm src sid ∧ allowed = [.idle]) ∨ (c = .scStart src sid ∧ allowed = [.armed]) ∨
      (c = .scPause src sid ∧ allowed = [.armed, .running]) ∨ (c = .scResume src sid ∧ allowed = [.paused]) ∨
      (c = .scDrain src sid ∧ allowed = [.armed, .running, .paused]) ∨
      (c = .scAbort src sid ∧ allowed = [.armed, .running, .paused, .draining]) ∨
      (c = .scResetState src sid ∧ allowed = [.armed, .running, .paused]) ∨
      (c = .scRecheck src sid ∧ allowed = [.armed, .running, .paused, .draining]) →
    let w := s.Entered src (Reg.SC_CMD sid.val)
    ((s.stream sid.val).pending ≠ none →
      exec c s = .next (settle s (w.setStream sid.val { s.stream sid.val with refused := true, reason := 8 }))) ∧
    ((s.stream sid.val).pending = none → (s.stream sid.val).state ∉ allowed →
      exec c s = .next (settle s (w.setStream sid.val { s.stream sid.val with refused := true, reason := 1 })))) ∧
  ∀ (s : State) (src : Source) (q : Fin 8192) (c : Instr) (allowed : List CtxState), s.MayWrite src (Reg.SQ_CMD q.val) →
    (c = .sqArm src q ∧ allowed = [.idle]) ∨ (c = .sqStart src q ∧ allowed = [.armed]) ∨
      (c = .sqPause src q ∧ allowed = [.armed, .running]) ∨ (c = .sqResume src q ∧ allowed = [.paused]) ∨
      (c = .sqDrain src q ∧ allowed = [.armed, .running, .paused]) ∨
      (c = .sqAbort src q ∧ allowed = [.armed, .running, .paused, .draining]) ∨
      (c = .sqRecheck src q ∧ allowed = [.armed, .running, .paused, .draining]) →
    let w := s.Entered src (Reg.SQ_CMD q.val)
    ((s.seqCtx q.val).pending ≠ none →
      exec c s = .next (settle s (w.setSeq q.val { s.seqCtx q.val with refused := true, reason := 8 }))) ∧
    ((s.seqCtx q.val).pending = none → (s.seqCtx q.val).state ∉ allowed →
      exec c s = .next (settle s (w.setSeq q.val { s.seqCtx q.val with refused := true, reason := 1 })))

/-- Swath operations on registers and loops (09 R210, R211, R212, R215): the row whose operation stands at a running program's restart point runs it, and the
program goes on behind it; a counter that changes recomputes the ROWBASE registers that follow it; a source that its row lacks, or a program of the other
kind at its start, is a protection fault; a row at any other operation does nothing. -/
def Obligations.SwathRegisterAndLoopOperations : Prop :=
  (∀ (s : State) (r : ProgRef) (i : Nat) (x : Inst) (p : Program) (o : SwOp), s.swHere r = some (i, x, p, o) →
    (∀ n round, o = .end_ n round → exec (.swEnd r) s = .next (settle s (s.swEnd i x r.prog p n round))) ∧
    (∀ a va, o = .base a va → exec (.swBase r) s = .next (settle s
      (s.putProg i x r.prog (p.next.setReg a { AddrReg.zero with fill := .address, base := BitVec.ofNat 64 va })))) ∧
    (∀ a source rl tl off, o = .rowbase a source rl tl off →
      let reg := { AddrReg.zero with fill := .address, row := some (source, rl, tl, off) }
      (∀ y, s.rowReg x p reg = .ok y → exec (.swRowbase r) s = .next (settle s (s.putProg i x r.prog (p.next.setReg a y)))) ∧
      (∀ cause, s.rowReg x p reg = .error cause → exec (.swRowbase r) s = .next (settle s (s.abortInst i cause)))) ∧
    (∀ l c, o = .loop l c →
      (∀ q, s.rowRegs x (p.openLoop l (s.loopCount x c)) l = .ok q → exec (.swLoop r) s = .next (settle s (s.putProg i x r.prog q))) ∧
      ∀ cause, s.rowRegs x (p.openLoop l (s.loopCount x c)) l = .error cause → exec (.swLoop r) s = .next (settle s (s.abortInst i cause))) ∧
    (∀ l crib a stride, o = .step l crib a stride →
      exec (.swStep r) s = .next (settle s (s.putProg i x r.prog (p.addStride l (if crib then 8 else a) stride)))) ∧
    (∀ area off, o = .cset area off →
      exec (.swCset r) s = .next (settle s (s.putProg i x r.prog { p.next with cursorBase := off, cursorArea := area }))) ∧
    (∀ l, o = .endloop l →
      (∀ q, s.rowRegs x p.endLoop p.innermost = .ok q → exec (.swEndloop r) s = .next (settle s (s.putProg i x r.prog q))) ∧
      ∀ cause, s.rowRegs x p.endLoop p.innermost = .error cause → exec (.swEndloop r) s = .next (settle s (s.abortInst i cause))) ∧
    ∀ c, c ∈ swathRows r → c ≠ swathRow r o → exec c s = .next (settle s s)) ∧
  ∀ (s : State) (r : ProgRef) (c : Instr), c ∈ swathRows r →
    (∀ i, s.misnamed r = some i → exec c s = .next (settle s (s.abortInst i causeProgram))) ∧
    (s.misnamed r = none → s.swHere r = none → exec c s = .next (settle s s))

/-- Swath operations on memory, buffers, tokens and the ring (09 R213, R214, R216 to R220, R225, R228): an element within the cursor's area moves; GET takes a
buffer or waits; WAIT takes the next handle or waits; SIGNAL and FREE stage; a post adds to a token and a wait takes from it or waits; ROTATE joins a
round or waits for one; a tile passes a ring core or is read directly by a stall that it passed by; what breaks a rule is a protection fault. -/
def Obligations.SwathTransferOperations : Prop :=
  (∀ (s : State) (r : ProgRef) (i : Nat) (x : Inst) (p : Program) (o : SwOp), s.swHere r = some (i, x, p, o) →
    (∀ a toMem len, o = .move a toMem len →
      ((p.areg a).fill = .unset ∨ p.cursor < 0 ∨ s.cursorSize x p < p.cursor.toNat + len →
        exec (.swMove r) s = .next (settle s (s.abortInst i causeProgram))) ∧
      ((p.areg a).fill ≠ .unset → 0 ≤ p.cursor → p.cursor.toNat + len ≤ s.cursorSize x p →
        exec (.swMove r) s = .next (settle s (if toMem then s.moveOut i x r.prog p a (p.address a) p.cursor.toNat len
          else s.moveIn i x r.prog p (p.areg a) (p.address a) p.cursor.toNat len)))) ∧
    (∀ a pool, o = .get a pool →
      (s.canGet x.bay pool i r.prog (!x.desc.be) = true → ∀ s2 n, s.getBuffer x.bay pool i r.prog = (s2, some n) →
        let reg := { AddrReg.zero with fill := .got, base := BitVec.ofNat 64 (s2.bufferVa x.bay pool n), pool := pool, buffer := n }
        exec (.swGet r) s = .next (settle s (s2.putProg i { x with got := x.got ++ [(r.prog, pool, n)] } r.prog (p.next.setReg a reg)))) ∧
      (s.canGet x.bay pool i r.prog (!x.desc.be) = false →
        exec (.swGet r) s = .next (settle s ((s.awaitBuffer x.bay pool i r.prog (!x.desc.be)).progWaits i x r.prog p (.pool pool))))) ∧
    (∀ a q, o = .wait a q →
      (x.desc.consume q = noField → exec (.swWait r) s = .next (settle s (s.abortInst i causeProgram))) ∧
      (x.desc.consume q ≠ noField → s.coreQueue x.bay (x.desc.consume q) false = false → exec (.swWait r) s = .next (settle s (s.abortInst i causeQueue)))) ∧
    (∀ a q, o = .wait a q → x.desc.consume q ≠ noField → s.coreQueue x.bay (x.desc.consume q) false = true → ∀ s1,
      (∀ y e, s.nextHandle x (x.desc.consume q) = (s1, some (y, e)) →
        let h := e.handle
        let reg := { AddrReg.zero with
          fill := .waited, base := BitVec.ofNat 64 (s1.bufferVa x.bay h.pool h.buffer), pool := h.pool, buffer := h.buffer,
          chaff := h.chaff }
        exec (.swWait r) s = .next (settle s (s1.putProg i y r.prog (p.next.setReg a reg)))) ∧
      (s.nextHandle x (x.desc.consume q) = (s1, none) →
        exec (.swWait r) s = .next (settle s (s1.progWaits i x r.prog p (.queue (x.desc.consume q)))))) ∧
    (∀ a q last rl len, o = .signal a q last rl len →
      (x.desc.produce q = noField ∨ (p.areg a).fill ≠ .got ∨ (rl ≠ 7 ∧ x.desc.rowCount ≤ p.counter rl) →
        exec (.swSignal r) s = .next (settle s (s.abortInst i causeProgram))) ∧
      (¬(x.desc.produce q = noField ∨ (p.areg a).fill ≠ .got ∨ (rl ≠ 7 ∧ x.desc.rowCount ≤ p.counter rl)) →
        s.coreQueue x.bay (x.desc.produce q) true = false → exec (.swSignal r) s = .next (settle s (s.abortInst i causeQueue)))) ∧
    (∀ a q last rl len, o = .signal a q last rl len → x.desc.produce q ≠ noField → (p.areg a).fill = .got →
      (rl = 7 ∨ p.counter rl < x.desc.rowCount) → s.coreQueue x.bay (x.desc.produce q) true = true →
      let reg := p.areg a
      let h : Handle := {
        pool := reg.pool, buffer := reg.buffer, length := reg.signalLength len, chaff := reg.wroteChaff || s.silentRow x p rl,
        last := last, tag := s.rowTag x p rl, seq := 0 }
      exec (.swSignal r) s = .next (settle s ((s.count32 (Reg.FXE_CHAFF_OUT x.core) (if h.chaff then 1 else 0)).putProg i
        { x with staged := x.staged ++ [(r.prog, x.desc.produce q, h)] } r.prog p.next))) ∧
    (∀ a, o = .free a →
      ((p.areg a).fill = .waited → exec (.swFree r) s = .next (settle s
        (s.putProg i { x with frees := x.frees ++ [((p.areg a).pool, (p.areg a).buffer)] } r.prog p.next))) ∧
      ((p.areg a).fill ≠ .waited → exec (.swFree r) s = .next (settle s (s.abortInst i causeProgram)))) ∧
    (∀ t n, o = .syncPost t n → exec (.swSyncPost r) s = .next (settle s ((s.putProg i x r.prog p.next).postToken i t n))) ∧
    (∀ t n, o = .syncWait t n →
      (n ≤ AMap.getD x.tokens t 0 → exec (.swSyncWait r) s = .next (settle s
        (s.putProg i { x with tokens := AMap.set x.tokens t (AMap.getD x.tokens t 0 - n) } r.prog p.next))) ∧
      (AMap.getD x.tokens t 0 < n → exec (.swSyncWait r) s = .next (settle s (s.progWaits i x r.prog p (.token t n))))) ∧
    (∀ t tiles round, o = .rotate t tiles round →
      (∀ z, s.liveRound x.bay round = some z → exec (.swRotate r) s = .next (settle s (s.joinRound i x r.prog p z t))) ∧
      (s.liveRound x.bay round = none → s.roundJoinable x.bay round = false → exec (.swRotate r) s = .next (settle s (s.progWaits i x r.prog p (.ring round)))) ∧
      (s.liveRound x.bay round = none → s.roundJoinable x.bay round = true →
        (∀ s1 z, s.startRound x round tiles = (s1, .ok z) → exec (.swRotate r) s = .next (settle s (s1.joinRound i x r.prog p z t))) ∧
        ∀ s1 f, s.startRound x round tiles = (s1, .error f) →
          exec (.swRotate r) s = .next (settle s (s1.takeFault x.bay f.va false (fxeEngine x.core) f.cause f.level f.entry (.program i r.prog)))))) ∧
  ∀ (s : State) (bay : Fin 16) (round : BitVec 16) (core : Fin 36),
    let late := fun z => (s.joinsOn z core.val).find? fun j => !j.missed.isEmpty && !s.engineFault j.inst
    let due := (s.bay bay.val).rounds.find? fun z => z.round = round.toNat && ((late z).isSome || !z.ended)
    (due = none → exec (.ringTileDelivery bay round core) s = .next (settle s s)) ∧
    ∀ z, due = some z →
      (∀ j, late z = some j → exec (.ringTileDelivery bay round core) s = .next (settle s (s.directTile bay.val z core.val j ((j.missed.head?).getD 0)))) ∧
      (late z = none → ∀ t, (z.order core.val)[AMap.getD z.passed core.val 0]? = some t →
        exec (.ringTileDelivery bay round core) s = .next (settle s (s.passTile bay.val z core.val t))) ∧
      (late z = none → (z.order core.val)[AMap.getD z.passed core.val 0]? = none → exec (.ringTileDelivery bay round core) s = .next (settle s s))

/-- The ends of sheaves, chains and cancels, the queue services and the copy channels (09 R221 to R223, R230, R231, R234, R235; 04 R88): what they do where
nothing holds them. -/
def Obligations.ChainsCancelsAndCopies : Prop :=
  (∀ (s : State) (i : Nat) (x : Inst), s.inst? i = some x →
    (s.sheafEnded i x = false → exec (.sheafDone i) s = .next (settle s s)) ∧
    (s.sheafEnded i x = true → x.chaffMode = true →
      exec (.sheafDone i) s = .next (settle s ((((s.publish x).chainLearn x).vacate i x).stepsReady x.bay x.chain))) ∧
    (s.sheafEnded i x = true → x.chaffMode = false →
      let u := (s.publish x).chainLearn x
      exec (.sheafDone i) s = .next (settle s (((((u.setBay x.bay { u.bay x.bay with doneSeqs := setInsert (u.bay x.bay).doneSeqs x.seq.toNat }).countWrap
        (Reg.CORE_SHEAVES x.core) 1).trace x.bay 0x0101 (telUnit 0 x.core) x.seq x.traceArg).vacate i x).stepsReady x.bay x.chain)))) ∧
  (∀ (s : State) (i : Nat) (x : Inst) (kind : GleanKind), s.inst? i = some x → x.gleaning = some kind →
    (s.sharesOf i = true ∨ (s.anyRequest fun r => r.ofInst i) = true ∨ x.state = .saving ∨ x.state = .restoring → exec (.gleanDone i) s = .next (settle s s)) ∧
    (s.sharesOf i = false → (s.anyRequest fun r => r.ofInst i) = false → x.state ≠ .saving → x.state ≠ .restoring →
      let s1 := (List.range 4).foldl State.nextPass (s.discardEngines i)
      (kind = .abort → exec (.gleanDone i) s = .next (settle s
        ((((x.got.filter fun g => g.1 ≠ .output).foldl (fun s g => s.returnBuffer x.bay g.2.1 g.2.2) s1).setInst i
          { x with gleaning := none, got := x.got.filter fun g => g.1 = .output, wasted := 0 }).countGlean x.bay x.wasted))) ∧
      (kind ≠ .abort →
        let u := ((x.got.foldl (fun s g => s.returnBuffer x.bay g.2.1 g.2.2) s1).countGlean x.bay (x.wasted + x.wastedOut)).vacate i x
        exec (.gleanDone i) s = .next (settle s (if kind = .cancel then u.cancelEnd i x else u))))) ∧
  (∀ (s : State) (q : Fin 4096),
    (s.triggerOf q.val = none → exec (.triggeredInstance q) s = .next (settle s s)) ∧
    (∀ b d s1 e, s.triggerOf q.val = some (b, d) → (d.be && ((s.bay b).lullWanted || (s.bay b).lulled)) = false → s.readyRoom b d.be = true →
      s.popQueue q.val = (s1, some e) →
      exec (.triggeredInstance q) s = .next (settle s (s1.createInst b (s1.triggerDesc d e.ctx) .trigger e.ctx.chain [(q.val, e)]).1)) ∧
    (∀ b d, s.queueDef q.val = some (b, d) → (s.queue q.val).entries = [] → exec (.bseQueueService q) s = .next (settle s s)) ∧
    (∀ b d e rest, s.queueDef q.val = some (b, d) → (s.queue q.val).entries = e :: rest → d.consumer = 1 → s.serviceHeld q.val = false →
      (∀ z, AMap.get? s.engines.services q.val = some z → exec (.bseQueueService q) s = .next (settle s (s.serviceOn b q.val e z))) ∧
      (AMap.get? s.engines.services q.val = none → ∀ s1,
        (∀ f, s.serviceStart b e.handle = (s1, .error f) →
          exec (.bseQueueService q) s = .next (settle s (s1.serviceFault b q.val e true f (bseEngine (s.loftDie b f.va 0))))) ∧
        ∀ z s2 z2 s3 l, s.serviceStart b e.handle = (s1, .ok z) →
          s1.serviceRun b (!e.ctx.be) (s1.poolSize b e.handle.pool) z serviceFuel = (s2, z2, none) →
          let va := s2.bufferVa b e.handle.pool e.handle.buffer
          s2.translateRun b true (bseEngine (s2.loftDie b va 0)) (pageRuns va (s2.poolSize b e.handle.pool)) = (s3, .ok l) →
          exec (.bseQueueService q) s = .next (settle s (((z2.results.foldl (fun s r => s.putLines va z2.area l r) s3).setService q.val none).serviceDone q.val e
            (z2.broken || z2.results.any fun r => z2.area.cribMarked r.1 r.2)))))) ∧
  (∀ (s : State) (src : Source) (bay : Fin 16), s.MayCommand src (Reg.SW_CANCEL_CMD bay.val) →
    let u := s.Commanded src (Reg.SW_CANCEL_CMD bay.val) 1
    ((s.bay bay.val).cancelBusy ≠ none → exec (.swCancel src bay) s = .next (settle s (u.refuseCancel bay.val 3))) ∧
    ∀ seq, u.reg (Reg.SW_CANCEL_SEQ bay.val) = seq → (s.bay bay.val).cancelBusy = none →
      let found := s.insts.find? fun e => e.2.bay = bay.val && e.2.seq = seq && e.2.gleaning ≠ some .replay
      (found = none → exec (.swCancel src bay) s = .next (settle s (u.refuseCancel bay.val (if (s.bay bay.val).doneSeqs.contains seq.toNat then 2 else 1)))) ∧
      ∀ i x, found = some (i, x) →
        (x.chaffMode = true ∨ x.gleaning ≠ none → exec (.swCancel src bay) s = .next (settle s (u.refuseCancel bay.val 3))) ∧
        (x.chaffMode = false → x.gleaning = none →
          let y := s.bay bay.val
          let z := { y with cancelRefused := false, cancelReason := 0, readyLc := y.readyLc.filter (· ≠ i), readyBe := y.readyBe.filter (· ≠ i) }
          (x.state = .ready → exec (.swCancel src bay) s = .next (settle s ((((u.setBay bay.val z).dropInst i).countGlean bay.val 0).cancelEnd i x))) ∧
          (x.state ≠ .ready → exec (.swCancel src bay) s = .next (settle s ((u.setBay bay.val { z with cancelBusy := some i }).beginGlean i .cancel))))) ∧
  (∀ (s : State) (src : Source) (bay : Fin 16) (ch : Fin 4), s.MayCommand src (Reg.CCH_CMD bay.val ch.val) →
    exec (.cchArm src bay ch) s = .next (settle s ((s.Commanded src (Reg.CCH_CMD bay.val ch.val) 1).copyArm bay.val ch.val)) ∧
    ((s.channel bay.val ch.val).active = none → exec (.cchCancel src bay ch) s = .next (settle s (s.Commanded src (Reg.CCH_CMD bay.val ch.val) 2))) ∧
    (∀ d, (s.channel bay.val ch.val).active = some d → ∃ t, exec (.cchCancel src bay ch) s = .next (settle s t) ∧ (t.channel bay.val ch.val).active = none ∧
      (t.channel bay.val ch.val).pending = none)) ∧
  (∀ (s : State) (b c : Nat),
    let u := s.applyAll [Reg.CCH_SRC_LO b c, Reg.CCH_SRC_HI b c, Reg.CCH_DST_LO b c, Reg.CCH_DST_HI b c, Reg.CCH_LEN b c, Reg.CCH_CTRL b c]
    let d := u.copyDesc b c
    ((s.channel b c).active = none → d.len ≠ 0 →
      s.copyArm b c = (u.setChannel b c { CopyChannel.idle with active := some d }).setReg (Reg.CCH_PROGRESS b c) 0) ∧
    ((s.channel b c).active ≠ none → (s.channel b c).pending = none →
      s.copyArm b c = u.setChannel b c { s.channel b c with pending := some d }) ∧
    ((s.channel b c).active ≠ none → (s.channel b c).pending ≠ none →
      s.copyArm b c = (u.setChannel b c { s.channel b c with pending := some d }).count16 (Reg.CCH_LOST_REARM b c))) ∧
  ∀ (s : State) (bay : Fin 16) (ch : Fin 4),
    ((s.channel bay.val ch.val).active = none → exec (.cchTransferDone bay ch) s = .next (settle s s)) ∧
    ∀ d, (s.channel bay.val ch.val).active = some d →
      ((s.channel bay.val ch.val).blocked = true → exec (.cchTransferDone bay ch) s = .next (settle s s)) ∧
      ((s.channel bay.val ch.val).blocked = false → (s.channel bay.val ch.val).again = [] →
        ((s.channel bay.val ch.val).issued = true → (s.anyRequest fun r => r.ofChannel bay.val ch.val) = false →
          exec (.cchTransferDone bay ch) s = .next (settle s (s.copyEnd bay.val ch.val none 2))) ∧
        ((s.channel bay.val ch.val).issued = false → ∀ s1,
          (s.copyRun bay.val ch.val d (d.len * 64) (copyFuel d) = (s1, .issued) → (s1.anyRequest fun r => r.ofChannel bay.val ch.val) = false →
            exec (.cchTransferDone bay ch) s = .next (settle s (s1.copyEnd bay.val ch.val none 2))) ∧
          (s.copyRun bay.val ch.val d (d.len * 64) (copyFuel d) = (s1, .issued) → (s1.anyRequest fun r => r.ofChannel bay.val ch.val) = true →
            exec (.cchTransferDone bay ch) s = .next (settle s (s1.setChannel bay.val ch.val { s1.channel bay.val ch.val with issued := true }))) ∧
          ∀ f write, s.copyRun bay.val ch.val d (d.len * 64) (copyFuel d) = (s1, .fault f write) →
            let u := (s1.raiseFault bay.val f.va write copyEngine f.cause f.level f.entry (.copy bay.val ch.val)).1
            exec (.cchTransferDone bay ch) s = .next (settle s (if s1.faultWaits f.cause then
              u.setChannel bay.val ch.val { u.channel bay.val ch.val with blocked := true, cause := f.cause.code }
            else u.copyFail bay.val ch.val f.cause))))

/-- `SW_Q_CMD` FLUSH (09 R224): in lull the queue of the bay is emptied, its push count kept, and the buffers of its handles return; outside lull the
command has no effect. -/
def Obligations.QueueFlushNeedsLull : Prop :=
  ∀ (s : State) (src : Source) (bay : Fin 16) (c : Nat) (d : QueueDef),
    let q := fld (s.reg (Reg.SW_Q_SEL bay.val)) 11 0
    let u := s.Commanded src (Reg.SW_Q_CMD bay.val q) 1
    s.MayCommand src (Reg.SW_Q_CMD bay.val q) → s.queueDef q = some (c, d) →
    (c ≠ bay.val ∨ (s.bay bay.val).lulled = false → exec (.queueFlush src bay) s = .next (settle s u)) ∧
    (c = bay.val → (s.bay bay.val).lulled = true → exec (.queueFlush src bay) s = .next (settle s
      (((s.queue q).entries.foldl (fun s e => s.returnBuffer bay.val e.handle.pool e.handle.buffer)
        ((u.setQueue q { s.queue q with entries := [] }).setService q none)).drainRuns q)))

/-- The port (10 R237, R238, R240 to R244; 16 R386): a failed lane degrades the link or takes it down; training ends with the lanes it can; retries,
RETRAIN, RESTORE and the fallback train again; notices lower a limit once per 50 µs and it rises back; pauses stop and free egress; a frame is checked,
counted, and given on. -/
def Obligations.PortLanesRatesAndFrames : Prop :=
  (∀ (s : State) (lane : Fin 8),
    let x := s.net.port
    let failed := x.failed ||| (1#8 <<< lane.val)
    let u := (s.setPort { x with failed := failed }).applyStaged Reg.EB_PORT_CTRL
    let v := ((s.setPort { x with failed := failed }).countSat Reg.EB_DEGRADES 16 0 1).applyStaged Reg.EB_PORT_CTRL
    (x.link = .down ∨ x.link = .training → exec (.laneFail lane) s = .next (settle s s)) ∧
    (x.link = .up8 → canDegrade failed v.portDegrade = true → exec (.laneFail lane) s = .next (settle s (v.train.laneLog lane.val))) ∧
    (x.link = .up8 → canDegrade failed v.portDegrade = false → exec (.laneFail lane) s = .next (settle s ((v.setPort { v.net.port with link := .down }).laneLog lane.val))) ∧
    (x.link = .up4 → decide (lane.val ≥ 4) ≠ x.group → exec (.laneFail lane) s = .next (settle s s)) ∧
    (x.link = .up4 → decide (lane.val ≥ 4) = x.group → canDegrade failed u.portDegrade = true → exec (.laneFail lane) s = .next (settle s (u.train.laneLog lane.val))) ∧
    (x.link = .up4 → decide (lane.val ≥ 4) = x.group → canDegrade failed u.portDegrade = false →
      exec (.laneFail lane) s = .next (settle s ((u.setPort { u.net.port with link := .down }).laneLog lane.val)))) ∧
  (∀ (s : State) (width : LinkWidth) (copper : Bool) (failed : BitVec 8),
    let x := s.net.port
    let cr := if s.portAn then copper else bit (s.reg Reg.EB_PORT_CTRL) 1
    (x.link ≠ .training → exec (.trainingDone width copper) s = .next (settle s s) ∧ exec (.trainingFail failed) s = .next (settle s s)) ∧
    (x.link = .training → trainEnds x.train s.portDegrade s.portAn width = true → exec (.trainingDone width copper) s = .next (settle s
      (s.setPort { x with link := if width = .eight then .up8 else .up4, group := decide (width = .lanes47), cr := cr }).drainEgress)) ∧
    (x.link = .training → exec (.trainingFail failed) s = .next (settle s
      (((List.range 8).filter fun i => bit failed i).foldl State.laneLog (s.setPort { x with link := .down, failed := x.failed ||| failed }))))) ∧
  (∀ (s : State),
    (s.net.port.link = .down → exec .linkRetry s = .next (settle s s.train)) ∧ (s.net.port.link ≠ .down → exec .linkRetry s = .next (settle s s)) ∧
    (s.linkUp = true ∨ s.portAn = true → exec .linkAnFallback s = .next (settle s s)) ∧
    (s.linkUp = false → s.portAn = false → exec .linkAnFallback s = .next (settle s (s.setPort { s.net.port with fallback := true }).train))) ∧
  (∀ (s : State) (src : Source), s.MayCommand src Reg.EB_CMD →
    exec (.retrain src) s = .next (settle s (s.Commanded src Reg.EB_CMD 1).train) ∧
    (s.net.port.link = .up4 → exec (.restore src) s = .next (settle s ((s.Commanded src Reg.EB_CMD 2).setPort { s.net.port with failed := 0 }).train)) ∧
    (s.net.port.link ≠ .up4 → exec (.restore src) s = .next (settle s (s.Commanded src Reg.EB_CMD 2)))) ∧
  (∀ (s : State) (p : Fin 16384) (c : Fin 4096),
    (s.recent (s.peer p.val).cutAt = true → exec (.cnpRx (.peer p)) s = .next (settle s s)) ∧
    (s.recent (s.peer p.val).cutAt = false → exec (.cnpRx (.peer p)) s = .next (settle s
      (s.setPeer p.val { s.peer p.val with rate := some (s.cutRate (s.peer p.val).rate), cutAt := some s.lic }))) ∧
    exec (.cnpRx (.conn c)) s = .next (settle s ((s.countWrap Reg.EB_CNP_RX 1).congested (.conn c))) ∧
    exec (.ecnRateRaise (.peer p)) s = .next (settle s (s.setPeer p.val { s.peer p.val with rate := s.raiseRate (s.peer p.val).rate })) ∧
    exec (.ecnRateRaise (.conn c)) s = .next (settle s (s.setConn c.val { s.conn c.val with rate := s.raiseRate (s.conn c.val).rate }))) ∧
  (∀ (s : State) (priority : Fin 8) (quanta : BitVec 16),
    let u := s.countWrap Reg.EB_PFC_PAUSE_RX 1
    let x := s.net.port
    (bit (u.reg Reg.EB_PFC) priority.val = false → exec (.pfcPauseRx priority quanta) s = .next (settle s u)) ∧
    (bit (u.reg Reg.EB_PFC) priority.val = true → quanta = 0 →
      exec (.pfcPauseRx priority quanta) s = .next (settle s (u.setPort { x with paused := AMap.erase x.paused priority.val }).drainEgress)) ∧
    (bit (u.reg Reg.EB_PFC) priority.val = true → quanta ≠ 0 →
      exec (.pfcPauseRx priority quanta) s = .next (settle s (u.setPort { x with paused := AMap.set x.paused priority.val quanta.toNat }))) ∧
    exec (.pfcPauseEnd priority) s = .next (settle s (s.setPort { x with paused := AMap.erase x.paused priority.val }).drainEgress)) ∧
  (∀ (s : State) (priority : Fin 8) (percent : Nat),
    let x := s.net.port
    let y := { x with rxLevel := AMap.set x.rxLevel priority.val (min percent 100 * 1048576 / 100) }
    (bit (s.reg Reg.EB_PFC) priority.val = false → exec (.pfcPauseRefresh priority percent) s = .next (settle s (s.setPort y))) ∧
    (bit (s.reg Reg.EB_PFC) priority.val = true → 75 ≤ percent → exec (.pfcPauseRefresh priority percent) s = .next (settle s
      (((s.setPort { y with pausing := x.pausing ||| (1#8 <<< priority.val) }).send (.pause priority.val true)).countWrap Reg.EB_PFC_PAUSE_TX 1))) ∧
    (bit (s.reg Reg.EB_PFC) priority.val = true → bit x.pausing priority.val = true → percent < 50 → exec (.pfcPauseRefresh priority percent) s = .next (settle s
      (((s.setPort { y with pausing := x.pausing &&& ~~~(1#8 <<< priority.val) }).send (.pause priority.val false)).countWrap Reg.EB_PFC_PAUSE_TX 1)))) ∧
  ∀ (s : State) (f : EthFrame),
    let u := (s.applyAll frameFields).count64 Reg.EB_RX_FRAMES_LO Reg.EB_RX_FRAMES_HI 1
    (s.linkUp = false → exec (.ethernetFrameRx f) s = .next (settle s s)) ∧
    (s.linkUp = true → f.length < 64 ∨ 9216 < f.length → exec (.ethernetFrameRx f) s = .next (settle s (u.count32 Reg.EB_RX_DROP 1))) ∧
    (s.linkUp = true → 64 ≤ f.length → f.length ≤ 9216 → u.frameOk f = false → exec (.ethernetFrameRx f) s = .next (settle s (u.count32 Reg.EB_RX_DROP 1))) ∧
    (s.linkUp = true → 64 ≤ f.length → f.length ≤ 9216 → u.frameOk f = true →
      let pr := framePriority f
      let full := bit (u.reg Reg.EB_PFC) pr = false ∧ 1048576 < AMap.getD s.net.port.rxLevel pr 0 + f.length
      (u.macsecTake f = .dropped → exec (.ethernetFrameRx f) s = .next (settle s (u.count32 Reg.EB_MACSEC_DROP 1))) ∧
      (u.macsecTake f = .refused → exec (.ethernetFrameRx f) s = .next (settle s (u.count32 Reg.EB_RX_DROP 1))) ∧
      ∀ v, u.macsecTake f = .pass v →
        (f.body = .macControl → exec (.ethernetFrameRx f) s = .next (settle s v)) ∧
        (f.body ≠ .macControl → full → exec (.ethernetFrameRx f) s = .next (settle s (u.count32 Reg.EB_RX_DROP 1))) ∧
        (∀ h d, f.body = .bale h d → ¬full →
          (h.checksum = some false → exec (.ethernetFrameRx f) s = .next (settle s v)) ∧
          (h.checksum ≠ some false → exec (.ethernetFrameRx f) s = .next (settle s (v.baleRx h.src d f.ecnCe)))) ∧
        ∀ h c opcode, ¬full →
          (f.body = .roce h c opcode false → exec (.ethernetFrameRx f) s = .next (settle s v)) ∧
          (f.body = .roce h c opcode true → exec (.ethernetFrameRx f) s = .next (settle s (v.roceRx c opcode.toNat f.ecnCe))))

/-- Bale (10 R247 to R250, R252, R257, R258): acknowledgements complete messages, wake a DOWN peer, send what they show lost again and
let waiting messages leave; a timer acknowledges what was
received; a timeout sends again with the timeout doubled until the retries end in DOWN; a probe sends the oldest; a reset or an entry's write begins
anew; pieces land or are refused; handles and events leave; a read that does not return times out. -/
def Obligations.BaleMessagesPiecesAndEvents : Prop :=
  (∀ (s : State) (peer : Fin 16384) (cum sack : Word),
    (s.peerKind peer.val = 0 ∨ seqLe cum (s.peer peer.val).txSeq = false → exec (.baleAckRx peer cum sack) s = .next (settle s s)) ∧
    (s.peerKind peer.val ≠ 0 → seqLe cum (s.peer peer.val).txSeq = true →
      let x := s.peer peer.val
      let gone := x.unacked.filter fun m => seqLt m.seq cum
      let left := (x.unacked.filter fun m => !seqLt m.seq cum).map fun m =>
        { m with sacked := m.sacked || (decide ((m.seq - cum - 1).toNat < 32) && bit sack (m.seq - cum - 1).toNat) }
      let lost := newlyLost x.unacked left
      let y := { x with unacked := left.map fun m => if lost.contains m.seq then { m with retries := m.retries + 1 } else m, down := false, backoff := 0 }
      let rest := fun (t : State) => (lost.foldl (fun s q => s.resend peer.val q) (gone.foldl (fun s m => s.bodyDone true m.body) t)).pump peer.val
      (gone = [] → exec (.baleAckRx peer cum sack) s = .next (settle s (rest (s.setPeer peer.val y)))) ∧
      (gone ≠ [] → exec (.baleAckRx peer cum sack) s = .next (settle s (rest (s.draw.2.setPeer peer.val { y with rtt := fld s.draw.1 23 0 }))))) ∧
    ((s.peer peer.val).unackedEffects = 0 → exec (.baleAckTimer peer) s = .next (settle s s)) ∧
    (0 < (s.peer peer.val).unackedEffects → exec (.baleAckTimer peer) s = .next (settle s (s.sendAck peer.val)))) ∧
  (∀ (s : State) (peer : Fin 16384) (seq : Word) (m : TxMsg), ((s.peer peer.val).unacked.find? fun m => m.seq = seq && !m.sacked) = some m →
    let x := s.peer peer.val
    (s.linkUp = false ∨ x.down = true ∨ x.awaitSession = true ∨ s.frameWaits peer.val seq = true → exec (.baleRetransmit peer seq) s = .next (settle s s)) ∧
    (s.linkUp = true → x.down = false → x.awaitSession = false → s.frameWaits peer.val seq = false →
    (fld (s.reg Reg.EB_RTO) 19 16 ≤ m.retries → exec (.baleRetransmit peer seq) s = .next (settle s (s.setPeer peer.val { x with down := true }))) ∧
    (m.retries < fld (s.reg Reg.EB_RTO) 19 16 → exec (.baleRetransmit peer seq) s = .next (settle s
      ((s.setPeer peer.val { x with
        backoff := x.backoff + 1,
        unacked := x.unacked.map fun k => if k.seq = seq then { k with retries := k.retries + 1 } else k }).resend peer.val seq))))) ∧
  (∀ (s : State) (peer : Fin 16384) (m : TxMsg) (rest : List TxMsg), (s.peer peer.val).unacked = m :: rest →
    let x := s.peer peer.val
    (x.down = true → s.linkUp = true → x.awaitSession = false → s.frameWaits peer.val m.seq = false →
      exec (.baleProbe peer) s = .next (settle s (s.resend peer.val m.seq))) ∧
    (x.down = false ∨ s.linkUp = false ∨ x.awaitSession = true ∨ s.frameWaits peer.val m.seq = true → exec (.baleProbe peer) s = .next (settle s s))) ∧
  (∀ (s : State) (src : Source) (peer : Fin 16384) (value : Word),
    (s.MayCommand src Reg.EB_CMD → exec (.peerReset src peer) s = .next (settle s ((s.Commanded src Reg.EB_CMD (w32 (3 + peer.val * 16))).resetPeer peer.val))) ∧
    (s.MayWrite src (peerWord peer.val 0) →
      let u := s.Entered src (peerWord peer.val 0)
      (2 < fld value 7 0 → exec (.peerEntryWrite src peer value) s = .next (settle s u)) ∧
      (fld value 7 0 ≤ 2 → exec (.peerEntryWrite src peer value) s = .next (settle s
        (((u.applyAll ((List.range 7).map fun w => peerWord peer.val (w + 1))).setReg (peerWord peer.val 0) (value &&& 0xFFFF01FF#32)).resetPeer peer.val))))) ∧
  (∀ (s : State) (peer : Fin 16384) (queue : Fin 4096) (chaff : Bool) (offset length : Nat) (tag : BitVec 14) (data : List Byte),
    let u := ((s.bindQueue queue.val).takeMsg peer.val 3).1
    let msg := ((s.bindQueue queue.val).takeMsg peer.val 3).2
    (s.peerKind peer.val = 0 → exec (.streamQueuePiece peer queue chaff offset length tag data) s = .next (settle s s)) ∧
    (s.peerKind peer.val ≠ 0 → u.pieceQueue peer.val queue.val = none →
      exec (.streamQueuePiece peer queue chaff offset length tag data) s = .next (settle s ((u.count32 Reg.EB_RX_REFUSED 1).effect peer.val msg))) ∧
    (∀ b a, s.peerKind peer.val ≠ 0 → u.pieceQueue peer.val queue.val = some b →
      (u.peer peer.val).assemblies.find? (pieceOf queue.val length tag.toNat offset) = some a →
      exec (.streamQueuePiece peer queue chaff offset length tag data) s = .next (settle s (u.writePiece b peer.val msg a chaff offset data))) ∧
    (∀ b s1, s.peerKind peer.val ≠ 0 → u.pieceQueue peer.val queue.val = some b →
      (u.peer peer.val).assemblies.find? (pieceOf queue.val length tag.toNat offset) = none →
      (u.startAssembly peer.val queue.val length tag.toNat = (s1, none) →
        exec (.streamQueuePiece peer queue chaff offset length tag data) s = .next (settle s (s1.count32 Reg.EB_RX_NOBUF 1))) ∧
      (∀ a, u.startAssembly peer.val queue.val length tag.toNat = (s1, some a) →
        exec (.streamQueuePiece peer queue chaff offset length tag data) s = .next (settle s (s1.writePiece b peer.val msg a chaff offset data))))) ∧
  (∀ (s : State) (queue : Fin 4096) (b : Nat) (d : QueueDef) (e : QueueEntry) (rest : List QueueEntry),
    let u := s.bindQueue queue.val
    u.queueDef queue.val = some (b, d) → (u.queue queue.val).entries = e :: rest →
    (d.consumer ≠ 2 ∨ u.boundValid queue.val = false → exec (.queueBoundSend queue) s = .next (settle s u)) ∧
    (d.consumer = 2 → u.boundValid queue.val = true → u.serviceHeld queue.val = false → u.boundRoce queue.val = false →
      ∀ s1 bytes marked, u.readRun b (u.bufferVa b e.handle.pool e.handle.buffer) (min (e.handle.length * 64) (u.poolSize b e.handle.pool)) baleReader =
        (s1, .ok (bytes, marked)) → bytes ≠ [] →
        let v := (s1.popQueue queue.val).1.applyStaged Reg.EB_BALE_MAX
        exec (.queueBoundSend queue) s = .next (settle s (v.post (v.boundPeer queue.val) (bufferPieces v.baleMax b e.handle.pool e.handle.buffer
          (v.boundRemote queue.val) e.handle.tag bytes (e.handle.chaff || marked) (!e.ctx.be)))))) ∧
  (∀ (s : State),
    let u := s.applyAll [Reg.EB_EVENT_PEER, Reg.EB_BALE_MAX]
    let p := fld (u.reg Reg.EB_EVENT_PEER) 13 0
    let n := (u.baleMax - 8) / 16
    (bit (u.reg Reg.EB_EVENT_PEER) 31 = false ∨ s.events.queue = [] ∨ u.canSend p = false → exec .eventMessageSend s = .next (settle s s)) ∧
    (bit (u.reg Reg.EB_EVENT_PEER) 31 = true → s.events.queue ≠ [] → u.canSend p = true →
      let v : State := { u with events := { s.events with queue := s.events.queue.drop n, lost := false } }
      exec .eventMessageSend s = .next (settle s (v.post p [.event s.events.lost (s.events.queue.take n)])))) ∧
  ∀ (s : State) (peer : Fin 16384) (tag : BitVec 16) (op : Nat), ∃ t, exec (.regReadTimeout peer tag op) s = .next (settle s t) ∧ t.regs = s.regs ∧ t.mem = s.mem ∧
    (∀ q, q ≠ peer.val → t.peer q = s.peer q) ∧ (t.peer peer.val).waiting.length = (s.peer peer.val).waiting.length ∧
    ∀ (ops : List (Nat × Word × Word)) (k : Nat) (o : Nat × Word × Word), (s.peer peer.val).waiting[k]? = some (TxBody.regResponse tag ops) → ops[op]? = some o →
      ∃ l, (t.peer peer.val).waiting[k]? = some (TxBody.regResponse tag l) ∧ l[op]? = some (4, 0, 0) ∧ l.length = ops.length

/-- RoCEv2 (10 R257, R260, R261, R263, R266): a request in order with the right key and window is served and answered; answers complete requests or end the
connection; timeouts retry until the count; OPEN, ERROR and RESET act in the states that accept them. -/
def Obligations.RoceRequestsAndConnections : Prop :=
  (∀ (s : State) (req : RoceRequest) (data : List Byte) (length : Nat),
    let c := req.conn.val
    (s.mayServe c req.psn = false → exec (.roceRdmaWrite req data) s = .next (settle s s) ∧ exec (.roceRdmaRead req length) s = .next (settle s s)) ∧
    (s.mayServe c req.psn = true → req.rkey ≠ s.reg (Reg.EB_CONN_RKEY_IN c) →
      exec (.roceRdmaWrite req data) s = .next (settle s (s.answer (.roceNak c req.psn 2))) ∧ exec (.roceRdmaRead req length) s = .next (settle s (s.answer (.roceNak c req.psn 2)))) ∧
    (s.mayServe c req.psn = true → req.rkey = s.reg (Reg.EB_CONN_RKEY_IN c) →
      (s.requestVa c req.va.toNat data.length = none → exec (.roceRdmaWrite req data) s = .next (settle s (s.answer (.roceNak c req.psn 2)))) ∧
      (∀ va s1, s.requestVa c req.va.toNat data.length = some va → s.writeRun (s.connBay c) va data false rdmaEngine = (s1, none) →
        exec (.roceRdmaWrite req data) s = .next (settle s ((s1.advancePsn c (s1.packets c data.length)).answer (.roceAck c (req.psn % 2 ^ 24))))) ∧
      (∀ va s1 bs chaff, s.requestVa c req.va.toNat length = some va → s.readRun (s.connBay c) va length rdmaEngine = (s1, .ok (bs, chaff)) →
        exec (.roceRdmaRead req length) s = .next (settle s ((s1.advancePsn c (s1.packets c length)).answer (.roceReadResponse c (req.psn % 2 ^ 24) bs chaff)))))) ∧
  (∀ (s : State) (conn : Fin 4096) (psn : Nat) (data : List Byte),
    (s.mayServe conn.val psn = false → exec (.roceSend conn psn data) s = .next (settle s s)) ∧
    (s.mayServe conn.val psn = true → s.sendQueue conn.val = none →
      exec (.roceSend conn psn data) s = .next (settle s ((s.answer (.roceNak conn.val (psn % 2 ^ 24) 1)).startError conn.val 3))) ∧
    (∀ b q s1, s.mayServe conn.val psn = true → s.sendQueue conn.val = some (b, q) →
      let u := s.bindQueue q
      (u.peer (u.connPeer conn.val)).assemblies.length < 64 → u.takeBuffer b 7 = (s1, none) →
      exec (.roceSend conn psn data) s = .next (settle s (s1.answer (.roceNak conn.val (psn % 2 ^ 24) 0)))) ∧
    (∀ b q s1 s2 k, s.mayServe conn.val psn = true → s.sendQueue conn.val = some (b, q) →
      let u := s.bindQueue q
      (u.peer (u.connPeer conn.val)).assemblies.length < 64 → u.takeBuffer b 7 = (s1, some k) →
      s1.writeRun b (s1.bufferVa b 7 k) (data.take (s1.poolSize b 7)) false baleWriter = (s2, none) →
      let h : Handle := {
        pool := 7, buffer := k, length := ceilDiv data.length 64, chaff := decide ((data.take (s1.poolSize b 7)).length < data.length),
        last := false, tag := 0, seq := 0 }
      exec (.roceSend conn psn data) s = .next (settle s
        (((s2.pushRun q [⟨h, externalCtx⟩]).advancePsn conn.val (s2.packets conn.val data.length)).answer (.roceAck conn.val (psn % 2 ^ 24)))))) ∧
  (∀ (s : State) (conn : Fin 4096) (psn : Nat),
    let c := conn.val
    let x := s.conn c
    (x.state ≠ .rts → ∀ a, exec (.roceAckRx conn psn a) s = .next (settle s s)) ∧
    (x.state = .rts → x.failing = none →
      exec (.roceAckRx conn psn .ack) s = .next (settle s (s.completeRequests c (fun r => psnLe r.1 psn && r.2.wants.isNone) [] false)) ∧
      ((x.requests.any fun r => r.1 = psn) = true → exec (.roceAckRx conn psn .rnrNak) s = .next (settle s (s.roceRetry c psn))) ∧
      exec (.roceAckRx conn psn .remoteAccessNak) s = .next (settle s (s.startError c 2)) ∧
      exec (.roceAckRx conn psn .invalidRequestNak) s = .next (settle s (s.startError c 3)) ∧
      exec (.roceAckRx conn psn .remoteOperationalNak) s = .next (settle s (s.startError c 4)) ∧
      ∀ data chaff r, (x.requests.find? fun r => r.1 = psn && r.2.wants = some data.length) = some r →
        exec (.roceAckRx conn psn (.readResponse data chaff)) s = .next (settle s
          ((s.completeRequests c (fun r => psnLe r.1 psn && r.2.wants.isNone) [] false).completeRequests c
            (fun r => r.1 = psn && r.2.wants.isSome) data chaff))) ∧
    (x.requests = [] → exec (.roceAckTimeout conn) s = .next (settle s s)) ∧
    (∀ r rest, x.requests = r :: rest → s.linkUp = true → x.state = .rts → x.failing = none →
      (s.connRetry c ≤ x.tries → exec (.roceAckTimeout conn) s = .next (settle s (s.startError c 1))) ∧
      (x.tries < s.connRetry c → exec (.roceAckTimeout conn) s = .next (settle s ((s.setConn c { x with tries := x.tries + 1 }).roceRetry c r.1)))) ∧
    (x.failing = none → exec (.connErrorReport conn) s = .next (settle s s)) ∧
    (∀ cause, x.failing = some cause →
      let u := s.setConn c { x with state := .error, failing := none, cause := cause, requests := [], waits := [], tries := 0, heldReq := none }
      exec (.connErrorReport conn) s = .next (settle s ((x.requests.map (·.2) ++ x.waits.map (·.1)).foldl
        (fun s r => (s.drawBytes (r.wants.getD 0)).1.requestDone r (s.drawBytes (r.wants.getD 0)).2 true) u)))) ∧
  ∀ (s : State) (src : Source),
    let c := s.connSelected
    let u := fun v => s.Commanded src (Reg.EB_CONN_CMD c) v
    s.MayCommand src (Reg.EB_CONN_CMD c) →
    ((s.conn c).state ≠ .idle → exec (.connOpen src) s = .next (settle s ((u 1).connRefuse c))) ∧
    (let v := (u 1).latest (Reg.EB_CONN_CTRL c)
     (s.conn c).state = .idle → fld v 21 20 ≠ 3 → fld v 26 22 ≠ 0 → (u 1).peerKind (fld v 13 0) ≠ 0 →
      let w := ((u 1).applyAll (connFields c)).setReg (Reg.EB_CONN_RETRIES c) 0
      exec (.connOpen src) s = .next (settle s (w.setConn c { Conn.idle with
        state := .rts, sendPsn := fld (w.reg (Reg.EB_CONN_SPSN c)) 23 0, recvPsn := fld (w.reg (Reg.EB_CONN_RPSN c)) 23 0 }))) ∧
    ((s.conn c).state ≠ .rts → exec (.connError src) s = .next (settle s ((u 2).connRefuse c))) ∧
    ((s.conn c).state = .rts → exec (.connError src) s = .next (settle s (((u 2).setConn c { s.conn c with refused := false }).startError c 5))) ∧
    ((s.conn c).state ≠ .error → exec (.connReset src) s = .next (settle s ((u 3).connRefuse c))) ∧
    ((s.conn c).state = .error → exec (.connReset src) s = .next (settle s (((u 3).setConn c .idle).setReg (Reg.EB_CONN_RETRIES c) 0)))

/-- The audio ports (11 R267, R271, R272, R275, R276, R280 to R285, R289): PLLs, port and group commands in the states that accept them, the ends of lead-in
and lead-out, frames, deliveries, fetches, descriptors and rate windows. -/
def Obligations.AudioPortsRun : Prop :=
  (∀ (s : State) (pll : Fin 2),
    let a := s.audio
    (bit (s.reg Reg.AP_PLL_CTRL) pll.val = true → exec (.pllLock pll) s = .next (settle s
      { s with audio := { a with locked := a.locked ||| (1#2 <<< pll.val), present := a.present ||| (1#2 <<< pll.val) } })) ∧
    (bit (s.reg Reg.AP_PLL_CTRL) pll.val = false → exec (.pllLock pll) s = .next (settle s s)) ∧
    ∃ t, exec (.pllUnlock pll) s = .next (settle s t) ∧ t.audio.locked = a.locked &&& ~~~(1#2 <<< pll.val) ∧ t.audio.ports = a.ports ∧ t.regs = s.regs ∧ t.mem = s.mem) ∧
  (∀ (s : State) (src : Source) (value : Word), s.MayCommand src Reg.AP_PLL_CTRL →
    let u := s.closeGuard src
    let w := u.setReg Reg.AP_PLL_CTRL (w32 (fld value 1 0))
    let busy := (List.range 2).any fun i => !bit (w32 (fld value 1 0)) i && u.pllUsed i
    (busy = true → exec (.apPllCtrlWrite src value) s = .next (settle s u)) ∧
    (busy = false → exec (.apPllCtrlWrite src value) s = .next (settle s
      { w with audio := { s.audio with locked := s.audio.locked &&& BitVec.ofNat 2 (w32 (fld value 1 0)).toNat } }))) ∧
  (∀ (s : State) (src : Source) (port : Fin 6), s.MayCommand src (Reg.AP_CMD port.val) →
    let u := fun v => s.Commanded src (Reg.AP_CMD port.val) v
    let x := { s.aport port.val with refused := false, reason := 0 }
    (∀ r, (u 1).startReason port.val = some r → exec (.apStart src port) s = .next (settle s ((u 1).portRefuse port.val r))) ∧
    ((u 1).startReason port.val = none →
      let v := (((u 1).applyAll (startFields port.val)).setReg (Reg.AP_FRAMES_LO port.val) 0).setReg (Reg.AP_FRAMES_HI port.val) 0
      let y := { (v.aport port.val).releaseHeld with refused := false, reason := 0, slip := 0, slipped := false, clockLost := false }
      (v.groupOf port.val = none → exec (.apStart src port) s = .next (settle s (v.setAport port.val (y.toLeadIn (v.leadInFrames port.val) 0 true false)))) ∧
      (∀ g, v.groupOf port.val = some g → (v.agroup g).state ≠ .running → exec (.apStart src port) s = .next (settle s
        ((v.setAport port.val { y with state := .primed }).setAgroup g { v.agroup g with state := .primed }))) ∧
      (∀ g, v.groupOf port.val = some g → (v.agroup g).state = .running → exec (.apStart src port) s = .next (settle s
        (v.setAport port.val (y.toLeadIn (v.leadInFrames port.val) (((v.leader g).map fun l => (v.aport l).acc).getD 0) false true))))) ∧
    (x.state = .primed → exec (.apStop src port) s = .next (settle s (((u 2).setAport port.val x).portOff port.val))) ∧
    (x.state = .leadIn → exec (.apStop src port) s = .next (settle s (((u 2).setAport port.val x).leadOut port.val))) ∧
    (x.state = .running → x.stopping = false → x.rejoin = false → x.open_ ≠ none →
      exec (.apStop src port) s = .next (settle s ((u 2).setAport port.val { x with stopping := true }))) ∧
    (x.state = .running → x.stopping = false → x.rejoin = false → x.open_ = none →
      exec (.apStop src port) s = .next (settle s (((u 2).setAport port.val x).leadOut port.val))) ∧
    (x.state = .off ∨ x.state = .leadOut → exec (.apStop src port) s = .next (settle s ((u 2).portRefuse port.val 1))) ∧
    (x.state = .running → x.stopping = false → x.rejoin = false → exec (.apRestart src port) s = .next (settle s ((u 3).setAport port.val { x with rejoin := true }))) ∧
    (x.state ≠ .running → exec (.apRestart src port) s = .next (settle s ((u 3).portRefuse port.val 1)))) ∧
  (∀ (s : State) (src : Source) (rising : Bool), s.MayCommand src (Reg.AP_GROUP_CMD s.gsel) →
    let g := s.gsel
    let u := s.Commanded src (Reg.AP_GROUP_CMD g) 1
    let v := u.applyStaged (Reg.AP_GROUP_CTRL g)
    (6 ≤ g → exec (.groupStart src) s = .next (settle s u)) ∧
    (g < 6 → fld (v.reg (Reg.AP_GROUP_CTRL g)) 1 0 = 0 → exec (.groupStart src) s = .next (settle s (v.releaseGroup g))) ∧
    (g < 6 → fld (v.reg (Reg.AP_GROUP_CTRL g)) 1 0 = 1 → exec (.groupStart src) s = .next (settle s (v.setAgroup g { v.agroup g with armed := some true }))) ∧
    (g < 6 → 2 ≤ fld (v.reg (Reg.AP_GROUP_CTRL g)) 1 0 → exec (.groupStart src) s = .next (settle s (v.setAgroup g { v.agroup g with armed := some false }))) ∧
    (let w := s.Commanded src (Reg.AP_GROUP_CMD g) 2
     exec (.groupStop src) s = .next (settle s ((w.groupMembers g).foldl State.portStop w))) ∧
    (let w : State := { s with audio := { s.audio with astart := rising } }
     exec (.astartEdge rising) s = .next (settle s (((List.range 6).filter fun g => (w.agroup g).armed = some rising).foldl State.releaseGroup w)))) ∧
  (∀ (s : State) (port : Fin 6),
    let x := s.aport port.val
    (x.state ≠ .leadIn ∨ x.left ≠ 0 → exec (.leadInDone port) s = .next (settle s s)) ∧
    (x.state = .leadIn → x.left = 0 → x.rejoining = false →
      let u := s.setAport port.val { x with state := .running, rejoining := false }
      (s.groupOf port.val = none → exec (.leadInDone port) s = .next (settle s (u.openPeriod port.val (u.reg (Reg.AP_PERIOD_BASE port.val)) 0 false))) ∧
      ∀ g, s.groupOf port.val = some g → exec (.leadInDone port) s = .next (settle s
        ((u.setAgroup g { u.agroup g with slipped := setRemove (u.agroup g).slipped port.val }).openPeriod port.val
          (u.reg (Reg.AP_PERIOD_BASE port.val)) 0 false))) ∧
    (x.state ≠ .leadOut ∨ x.left ≠ 0 → exec (.leadOutDone port) s = .next (settle s s)) ∧
    (x.state = .leadOut → x.left = 0 → x.open_ = none → x.rejoin = false →
      exec (.leadOutDone port) s = .next (settle s ((s.setAport port.val { x with slip := 0, slipped := false }).portOff port.val))) ∧
    (s.apFollower port.val = true → x.state ≠ .off → x.state ≠ .primed → exec (.clockLost port) s = .next (settle s (s.setAport port.val { x with clockLost := true }))) ∧
    (s.apFollower port.val = false ∨ x.state = .off ∨ x.state = .primed → exec (.clockLost port) s = .next (settle s s))) ∧
  (∀ (s : State) (port : Fin 6) (clocks : Nat) (samples : List Word) (lost : List Nat),
    let p := port.val
    let x := s.aport p
    (x.state = .off ∨ x.state = .primed → exec (.audioFrame port clocks samples lost) s = .next (settle s s)) ∧
    (x.state ≠ .off → x.state ≠ .primed → ∀ u : State,
      let b := frameClocks (s.reg (Reg.AP_CTRL p)) (s.reg (Reg.AP_FMT p))
      let bad := s.apFollower p && decide (clocks ≠ b)
      (((s.setAport p { x with clockLost := false }).frameBoundary p).count64 (Reg.AP_FRAMES_LO p) (Reg.AP_FRAMES_HI p) 1).count32
        (Reg.AP_FRAME_ERR p) (if bad then 1 else 0) = u →
      let y := u.aport p
      let v := u.setAport p { y with
        acc := if s.apFollower p then y.acc else (y.acc + b * fld (u.reg (Reg.AP_DIV_FRAC p)) 23 0) % 2 ^ 24,
        left := if y.state = .running then y.left else y.left - 1 }
      (y.state ≠ .running → s.apPlayback p = false → exec (.audioFrame port clocks samples lost) s = .next (settle s v)) ∧
      (y.state ≠ .running → s.apPlayback p = true → exec (.audioFrame port clocks samples lost) s = .next (settle s (v.setAport p
        { v.aport p with out := (List.range (slotCount (s.reg (Reg.AP_CTRL p)) (s.reg (Reg.AP_FMT p)))).map fun _ => some 0 }))) ∧
      (y.state = .running →
        let t := if (v.aport p).open_.isNone then v.openPeriod p (v.reg (Reg.AP_PERIOD_SEQ p) + 1) 0 false else v
        let w := if s.apPlayback p then t.playFrame p lost else t.captureFrame p samples bad lost
        exec (.audioFrame port clocks samples lost) s = .next (settle s ((w.groupCount p).frameEnds p))))) ∧
  (∀ (s : State) (port : Fin 6) (o : Period) (rest : List Period) (d : PortDesc),
    let p := port.val
    (s.aport p).full = o :: rest → s.audioHeld p = false →
    (o.desc = none → exec (.capturePeriodEnd port) s = .next (settle s (s.discardPeriod p))) ∧
    (o.desc = some d → d.mode = 1 → (s.stream o.sid).state ≠ .idle → ∀ s1,
      s.writeFrame o.bay o.sid o.seq (o.packed d) o.chaff audioEngine = (s1, none) → exec (.capturePeriodEnd port) s = .next (settle s (s1.delivered p))) ∧
    (o.desc = some d → d.mode = 2 → ∀ s1,
      s.writeRun o.bay (d.base.toNat + o.seq.toNat % d.target * d.bytes) (o.packed d) o.chaff audioEngine = (s1, none) →
      exec (.capturePeriodEnd port) s = .next (settle s ((s1.delivered p).countWrap (Reg.AP_RING_HEAD p) 1))) ∧
    (o.desc = some d → d.mode = 3 → ∀ s1, s.takeBuffer o.bay 7 = (s1, none) → exec (.capturePeriodEnd port) s = .next (settle s (s1.discardPeriod p)))) ∧
  (∀ (s : State) (port : Fin 6) (d : PortDesc) (r : AudioRoute),
    let p := port.val
    let x := s.aport p
    (x.active = none → exec (.playbackPeriodFetch port) s = .next (settle s s)) ∧
    (x.active = some d → s.routeOf p = some r → r.playback = true → x.fetched.length < 2 → s.audioHeld p = false → d.run = 0 → x.cancelling = false →
      (d.mode = 1 → exec (.playbackPeriodFetch port) s = .next (settle s (s.fetchSlot r.bay r.sid p d))) ∧
      (d.mode = 2 → x.state = .running → x.open_ ≠ none → ∀ s1 bytes marked,
        s.readRun r.bay (d.base.toNat + (s.reg (Reg.AP_PERIOD_SEQ p) + 0 + w32 (x.fetched.length + 1)).toNat % d.target * d.bytes) d.bytes audioEngine =
          (s1, .ok (bytes, marked)) →
        exec (.playbackPeriodFetch port) s = .next (settle s (s1.addFetched p ⟨bytes, marked, none, none⟩))) ∧
      (d.mode = 3 → (s.queue (d.target % 4096)).entries = [] → exec (.playbackPeriodFetch port) s = .next (settle s s)))) ∧
  (∀ (s : State) (src : Source) (port : Fin 6), s.MayCommand src (Reg.AP_PORTD_CMD port.val) →
    let p := port.val
    let u := (s.Commanded src (Reg.AP_PORTD_CMD p) 1).applyAll [Reg.AP_PORTD_CTRL p, Reg.AP_PORTD_BASE_LO p, Reg.AP_PORTD_BASE_HI p,
      Reg.AP_PORTD_TARGET p, Reg.AP_PORTD_RUN p]
    let x := s.aport p
    (x.active = none → exec (.portdArm src port) s = .next (settle s (u.activate p (u.stagedDesc p)))) ∧
    (x.active ≠ none → x.pending = none → exec (.portdArm src port) s = .next (settle s (u.setAport p { x with pending := some (u.stagedDesc p) }))) ∧
    (x.active ≠ none → x.pending ≠ none →
      exec (.portdArm src port) s = .next (settle s ((u.setAport p { x with pending := some (u.stagedDesc p) }).count16 (Reg.AP_PORTD_LOST_REARM p)))) ∧
    (x.open_ = none → exec (.portdCancel src port) s = .next (settle s ((s.Commanded src (Reg.AP_PORTD_CMD p) 2).dropDescs p))) ∧
    (∀ o, x.open_ = some o → o.desc ≠ none → x.active ≠ none →
      exec (.portdCancel src port) s = .next (settle s ((s.Commanded src (Reg.AP_PORTD_CMD p) 2).setAport p { x with cancelling := true })))) ∧
  ∀ (s : State) (port : Fin 6) (frames periods : Nat),
    let p := port.val
    let x := s.aport p
    let old := s.reg (Reg.AP_RATE p)
    (periods = 0 → fld (w32 (fld old 24 0 + 2 ^ 31)) 28 25 = fld old 28 25 → exec (.rateWindowEnd port frames periods) s = .next (settle s
      ((s.setAport p { x with lastRate := none }).setReg (Reg.AP_RATE p) (w32 (fld old 24 0 + 2 ^ 31))))) ∧
    (∀ prev, 0 < periods → x.lastRate = some prev →
      let v := frames * 15625000000 / periods
      agrees (fld (s.reg (Reg.AP_MEAS_CFG p)) 31 16) v prev = true → fld (w32 (v % 2 ^ 25 + nominalCode v * 2 ^ 25)) 28 25 = fld old 28 25 →
      exec (.rateWindowEnd port frames periods) s = .next (settle s
        ((s.setAport p { x with lastRate := some v }).setReg (Reg.AP_RATE p) (w32 (v % 2 ^ 25 + nominalCode v * 2 ^ 25))))) ∧
    (∀ prev, 0 < periods → x.lastRate = some prev →
      let v := frames * 15625000000 / periods
      let new := w32 (v % 2 ^ 25 + nominalCode v * 2 ^ 25)
      let c := (((x.open_.bind (·.desc)).orElse fun _ => x.active).map (·.c)).getD 0
      agrees (fld (s.reg (Reg.AP_MEAS_CFG p)) 31 16) v prev = true → fld new 28 25 ≠ fld old 28 25 →
      let u := (((s.setAport p { x with lastRate := some v }).setReg (Reg.AP_RATE p) new).latch (Reg.AP_PORT_EVENT_STATUS p) 1)
      exec (.rateWindowEnd port frames periods) s = .next (settle s (u.marker p 3 (s.reg (Reg.AP_PERIOD_SEQ p)) (((x.open_.map (·.at_)).getD 0) * c) (fld new 28 25))))

/-- Requests to Vane (13 R313 to R318, R328, R331, R332): a changed sequence word is evaluated and answered; a trip or action is only made stricter; LEAVE_SAFE
needs every cause clear; resets of the chip, a bay and a core by request are refused in the safe state. -/
def Obligations.VaneRequestsAnswered : Prop :=
  (∀ (s : State) (slot : Fin 5) (seq : Word), s.MayAsk slot seq →
    (slot.val ≠ 4 →
      let u := s.asked slot seq 1 0 0
      exec (.kick slot seq) s = .next (settle s (State.answered { u with vane := { u.vane with expiredAt := AMap.erase u.vane.expiredAt slot.val } } slot seq 1 0))) ∧
    (slot.val = 4 → exec (.kick slot seq) s = .next (settle s ((s.asked slot seq 1 0 0).answered slot seq 1 2))) ∧
    (∀ code : BitVec 16,
      let u := s.asked slot seq 2 code.toNat 0
      (code.toNat = 0 ∨ 14 < code.toNat → exec (.ackAlarm slot seq code) s = .next (settle s (u.answered slot seq 2 2))) ∧
      (1 ≤ code.toNat → code.toNat ≤ 14 → exec (.ackAlarm slot seq code) s = .next (settle s ((u.ackAlarms code.toNat).answered slot seq 2 0)))) ∧
    (∀ (trip : Byte) (value : BitVec 16) (r : Nat), tripReg trip.toNat = some r →
      let u := s.asked slot seq 4 0 (w32 (trip.toNat + value.toNat * 65536))
      (stricter trip.toNat value.toNat (s.reg r).toNat = true →
        exec (.setTrip slot seq trip value) s = .next (settle s ((u.setReg r (w32 value.toNat)).answered slot seq 4 0))) ∧
      (stricter trip.toNat value.toNat (s.reg r).toNat = false → exec (.setTrip slot seq trip value) s = .next (settle s (u.answered slot seq 4 1)))) ∧
    (∀ (code : BitVec 16) (action : Byte),
      let u := s.asked slot seq 5 code.toNat (w32 action.toNat)
      (code.toNat = 0 ∨ 14 < code.toNat ∨ 7 < action.toNat → exec (.setAction slot seq code action) s = .next (settle s (u.answered slot seq 5 2))) ∧
      (1 ≤ code.toNat → code.toNat ≤ 14 → action.toNat ≤ 7 → s.actionOf code.toNat telNone < action.toNat →
        exec (.setAction slot seq code action) s = .next (settle s
          (State.answered { u with vane := { u.vane with actions := AMap.set u.vane.actions code.toNat action.toNat } } slot seq 5 0)))) ∧
    (let u := s.asked slot seq 6 0 0
     (s.vane.safe = false → exec (.leaveSafe slot seq) s = .next (settle s (u.answered slot seq 6 1))) ∧
     (s.vane.safe = true → u.reviewCauses.causesClear = false → exec (.leaveSafe slot seq) s = .next (settle s (u.reviewCauses.answered slot seq 6 5))) ∧
     (s.vane.safe = true → u.reviewCauses.causesClear = true →
       let v := u.warmRestart true (mboxCauseCode slot.val) 3
       exec (.leaveSafe slot seq) s = .next (settle s ((State.driveAlarmN { v with vane := { v.vane with leavePending := true } }).answered slot seq 6 0)))) ∧
    (let u := s.asked slot seq 3 0 3
     (s.restartRecent = true ∨ s.vane.safe = true → exec (.chipReset (some slot) seq) s = .next (settle s (u.answered slot seq 3 1))) ∧
     (s.restartRecent = false → s.vane.safe = false →
       exec (.chipReset (some slot) seq) s = .next (settle s ((u.warmRestart true (mboxCauseCode slot.val) 3).answered slot seq 3 0)))) ∧
    (∀ target : BitVec 16,
      let u := s.asked slot seq 3 target.toNat 2
      let v := s.asked slot seq 3 target.toNat 1
      (15 < target.toNat → exec (.bayReset slot seq target) s = .next (settle s (u.answered slot seq 3 2))) ∧
      (target.toNat ≤ 15 → s.bayDef target.toNat ≠ none → s.vane.safe = false →
        exec (.bayReset slot seq target) s = .next (settle s ((u.bayReset target.toNat).answered slot seq 3 0))) ∧
      (target.toNat ≤ 15 → s.bayDef target.toNat = none ∨ s.vane.safe = true → exec (.bayReset slot seq target) s = .next (settle s (u.answered slot seq 3 1))) ∧
      (35 < target.toNat → exec (.coreReset (some slot) seq target) s = .next (settle s (v.answered slot seq 3 2))) ∧
      (target.toNat ≤ 35 → s.coreBay target.toNat ≠ none → s.vane.safe = false →
        exec (.coreReset (some slot) seq target) s = .next (settle s ((v.coreReset target.toNat).answered slot seq 3 0))))) ∧
  ∀ (s : State) (slot : Fin 5) (seq : Word), s.vane.running = false →
    exec (.kick slot seq) s = .next (settle s s) ∧ exec (.leaveSafe slot seq) s = .next (settle s s) ∧ exec (.chipReset (some slot) seq) s = .next (settle s s)

/-- Resets and power (13 R328, R329, R331; 16 R378, R379, R384, R385; 17 R403): RESET_N holds and lets go, restarts and start-up end only at their point,
and loss of power leaves flash; a warm restart by RESET_N empties what the halted islands held, and leaves the safe state unless a cause of it holds. -/
def Obligations.ResetsAndPowerEvents : Prop :=
  (∀ (s : State),
    exec .powerOnReset s = .next (settle s s.powerOn) ∧ exec .powerLoss s = .next (settle s s.losePower) ∧ (s.power.erasePending = false → s.powerOn.sec.roots = s.sec.roots) ∧
      s.powerOn.fuses = s.fuses ∧ s.losePower.fuses = s.fuses ∧
    s.losePower.sec.roots = s.sec.roots ∧ s.losePower.sec.certFloor = s.sec.certFloor ∧ s.losePower.sec.slotA = s.sec.slotA ∧
    s.losePower.sec.sessions = [] ∧ s.losePower.mem = [] ∧
    (s.power.phase = .startUp → exec .startupComplete s = .next (settle s s.startupEnd)) ∧ (s.power.phase ≠ .startUp → exec .startupComplete s = .next (settle s s)) ∧
    (s.power.phase = .restart → s.power.refclk = true → exec .warmRestartComplete s = .next (settle s s.restartEnd)) ∧
    (s.power.phase ≠ .restart ∨ s.power.refclk = false → exec .warmRestartComplete s = .next (settle s s)) ∧
    (s.power.resetN = false → exec .resetNAssert s = .next (settle s s)) ∧
    (s.power.resetN = true → s.power.phase = .service ∨ s.power.phase = .restart → exec .resetNAssert s = .next (settle s
      ((State.warmRestart { s with power := { s.power with resetN := false } } false 2 4).driveAlarmN))) ∧
    (s.power.resetN = true → s.power.phase = .unpowered → exec .resetNAssert s = .next (settle s { s with power := { s.power with resetN := false } })) ∧
    (s.power.resetN = true → s.power.phase = .startUp ∨ s.power.phase = .cardTest → exec .resetNAssert s = .next (settle s
      { s with power := { s.power with resetN := false, phase := .startUpHeld } })) ∧
    (s.power.resetN = true → exec .resetNDeassert s = .next (settle s s)) ∧
    (s.power.resetN = false → s.sec.erasing = true → exec .resetNDeassert s = .next (settle s { s with power := { s.power with resetN := true } })) ∧
    (s.power.resetN = false → s.sec.erasing = false → s.power.phase = .restartHeld →
      exec .resetNDeassert s = .next (settle s (State.bootAgain { s with power := { s.power with resetN := true } }))) ∧
    exec .refclkReturn s = .next (settle s { s with power := { s.power with refclk := true } }) ∧
    exec .addressRecord s = .next (settle s { s with power := { s.power with address := some (addressRegs.map s.latest) } })) ∧
  (∀ (s : State) (g : Fin 8), s.tel.running = none →
    (bit s.power.training g.val = false → exec (.granaryChannelOnline g) s = .next (settle s s)) ∧
    (bit s.power.training g.val = true → ∃ t, exec (.granaryChannelOnline g) s = .next (settle s t) ∧ bit t.tiers.channelsOnline g.val = true ∧
      bit t.power.training g.val = false)) ∧
  (∀ (s : State) (seq : Word), exec (.chipReset none seq) s = .next (settle s (s.act 4 (fld (s.reg Reg.VANE_LAST_ALARM) 7 0) telNone))) ∧
  ∀ (s : State) (cause strength : Nat), s.power.resetN = false →
    let t := s.warmRestart false cause strength
    t.power.phase = .restartHeld ∧ t.insts = [] ∧ t.cores = [] ∧ t.guards = [] ∧ t.fuses = s.fuses ∧ t.reg Reg.VANE_RESET_CAUSE = w32 cause ∧
    t.vane.causes = s.causesLeft ∧ t.vane.safe = !s.causesLeft.isEmpty ∧ t.streams = [] ∧ t.seqs = [] ∧ t.sec.sessions = []

/-- Sensors, watchdogs, the cap, the forecast and droop (13 R312, R316, R317, R321, R323 to R325, R327; 14 R351; 17 R403): a reading at or beyond its trip raises
its alarm and one below raises none; the control loops move their stages as the rules say. -/
def Obligations.AlarmsAndPowerControl : Prop :=
  (∀ (s : State) (core : Fin 36) (die : Fin 4) (v : Nat),
    let j : State := { s with pmc := { s.pmc with junction := AMap.set s.pmc.junction core.val v } }
    let l : State := { s with pmc := { s.pmc with loft := AMap.set s.pmc.loft die.val v } }
    let i : State := { s with pmc := { s.pmc with vin := v } }
    ((s.reg Reg.VANE_TRIP_JUNCTION).toNat ≤ v → exec (.junctionTrip core v) s = .next (settle s (j.reviewCauses.alarm 0x01 (telUnit 0 core.val)))) ∧
    (v < (s.reg Reg.VANE_TRIP_JUNCTION).toNat → exec (.junctionTrip core v) s = .next (settle s j.reviewCauses)) ∧
    ((s.reg Reg.VANE_TRIP_LOFT).toNat ≤ v → exec (.loftTrip die v) s = .next (settle s (l.reviewCauses.alarm 0x02 (telUnit 1 die.val)))) ∧
    (v < (s.reg Reg.VANE_TRIP_LOFT).toNat → exec (.loftTrip die v) s = .next (settle s l.reviewCauses)) ∧
    (125 ≤ v → exec (.junctionCrit core v) s = .next (settle s (j.reviewCauses.alarm 0x03 (telUnit 0 core.val)))) ∧
    (v < 125 → exec (.junctionCrit core v) s = .next (settle s j.reviewCauses)) ∧
    (v < (s.reg Reg.VANE_TRIP_VIN_LO).toNat → exec (.vinLow v) s = .next (settle s (i.reviewCauses.alarm 0x04 telNone))) ∧
    ((s.reg Reg.VANE_TRIP_VIN_LO).toNat ≤ v → exec (.vinLow v) s = .next (settle s i.reviewCauses)) ∧
    ((s.reg Reg.VANE_TRIP_VIN_HI).toNat < v → exec (.vinHigh v) s = .next (settle s (i.reviewCauses.alarm 0x05 telNone))) ∧
    (v ≤ (s.reg Reg.VANE_TRIP_VIN_HI).toNat → exec (.vinHigh v) s = .next (settle s i.reviewCauses)) ∧
    (v < 34000 ∨ 55000 < v → exec (.vinCrit v) s = .next (settle s (i.reviewCauses.alarm 0x06 telNone))) ∧
    (34000 ≤ v → v ≤ 55000 → exec (.vinCrit v) s = .next (settle s i.reviewCauses)) ∧
    exec (.railFault (some core)) s = .next (settle s (s.alarm 0x07 (telUnit 0 core.val))) ∧ exec (.railFault none) s = .next (settle s (s.alarm 0x07 telNone)) ∧
    exec (.hubClockLoss .hubIsland) s = .next (settle s (s.alarm 0x0D telNone)) ∧
    exec (.hubClockLoss .refclk) s = .next (settle s (State.alarm { s with power := { s.power with refclk := false } } 0x0D telNone)) ∧
    exec .glitch s = .next (settle s ((s.count16 Reg.SEC_GLITCHES).alarm 0x0E telNone)) ∧
    exec .vaneWatchdog s = .next (settle s { s with vane := { s.vane with selfRestarts := min (s.vane.selfRestarts + 1) 0xFFFF } })) ∧
  (∀ (s : State) (phase : Fin 11),
    let u := State.alarm { s with pmc := { s.pmc with phases := s.pmc.phases ||| (1#11 <<< phase.val) } } 0x08 telNone
    (u.phasesFailed < 3 → exec (.phaseLoss phase) s = .next (settle s u)) ∧ (3 ≤ u.phasesFailed → exec (.phaseLoss phase) s = .next (settle s u.losePower))) ∧
  (∀ (s : State) (cp : Fin 4), bit s.vane.watchRunning cp.val = false → exec (.cpWatchdog cp) s = .next (settle s s)) ∧
  (∀ (s : State) (cp q : Fin 4), bit s.vane.watchRunning cp.val = true → q ≠ cp → bit s.vane.watchRunning q.val = true →
    AMap.get? s.vane.expiredAt q.val = none →
    let x := s.cp cp.val
    let u := s.setCp cp.val { x with expiries := x.expiries ++ [s.lic] }
    exec (.cpWatchdog cp) s = .next (settle s (State.alarm { u with vane := { u.vane with
      watchExpired := u.vane.watchExpired ||| (1#4 <<< cp.val),
      expiredAt := AMap.set u.vane.expiredAt cp.val s.lic, watchRunning := u.vane.watchRunning &&& ~~~(1#4 <<< cp.val) } } 0x09 (telUnit 5 cp.val)))) ∧
  (∀ (s : State) (watts : Nat), ∃ t, exec (.capControlInterval watts) s = .next (settle s t) ∧ (t.pmc.h, t.pmc.capCeil) = capStage s.pmc.h s.pmc.capCeil watts s.capWatts ∧
    t.pmc.pin = watts ∧ t.pmc.energy = s.pmc.energy + BitVec.ofNat 64 watts ∧ t.pmc.intervalAt = s.lic ∧ t.pmc.half = s.pmc.half ∧ t.mem = s.mem) ∧
  (∀ (h ceil watts cap : Nat),
    (cap < watts → h < 16 → capStage h ceil watts cap = (h + 1, ceil)) ∧ (cap < watts → 16 ≤ h → capStage h ceil watts cap = (h, min 7 (ceil + 1))) ∧
    (watts * 100 < 97 * cap → 0 < ceil → capStage h ceil watts cap = (h, ceil - 1)) ∧
    (watts * 100 < 97 * cap → ceil = 0 → capStage h ceil watts cap = (h - 1, 0)) ∧
    (watts ≤ cap → 97 * cap ≤ watts * 100 → capStage h ceil watts cap = (h, ceil))) ∧
  (∀ (s : State) (watts avg : Nat), s.phasesFailed ≠ 2 → ∃ t, exec (.powerSample watts avg) s = .next (settle s t) ∧ t.regs = s.regs ∧ t.mem = s.mem ∧
    (2000 < avg → t.pmc.half = true) ∧ (avg < 1900 → t.pmc.half = false) ∧ (1900 ≤ avg → avg ≤ 2000 → t.pmc.half = s.pmc.half)) ∧
  (∀ (s : State) (watts avg : Nat), s.phasesFailed = 2 → ∃ t, exec (.powerSample watts avg) s = .next (settle s t) ∧
    (1800 < avg → t.pmc.half = true) ∧ (avg < 1700 → t.pmc.half = false) ∧ (1700 ≤ avg → avg ≤ 1800 → t.pmc.half = s.pmc.half)) ∧
  (∀ (s : State) (junctions lofts : List Nat), exec (.thermalPredict junctions lofts) s = .next (settle s (s.predict junctions lofts))) ∧
  (∀ (ceil cool j l jl ll : Nat), (jl < j ∨ ll < l → thermStep ceil cool j l jl ll = (min 7 (ceil + 1), 0)) ∧
    (j + 3 ≤ jl → l + 3 ≤ ll → 9 ≤ cool → thermStep ceil cool j l jl ll = (ceil - 1, 0)) ∧
    (j + 3 ≤ jl → l + 3 ≤ ll → cool < 9 → thermStep ceil cool j l jl ll = (ceil, cool + 1)) ∧
    (j ≤ jl → l ≤ ll → jl < j + 3 ∨ ll < l + 3 → thermStep ceil cool j l jl ll = (ceil, 0))) ∧
  ∀ (s : State) (island share : Nat),
    let u : State := { s with pmc := { s.pmc with droops := setInsert s.pmc.droops island, stretch := share, droopEvents := s.pmc.droopEvents + 1 } }
    (share ≤ 100 → exec (.droop island share) s = .next (settle s u)) ∧ (100 < share → exec (.droop island share) s = .next (settle s (u.alarm 0x0C telNone))) ∧
    exec (.droopRecover island) s = .next (settle s { s with pmc := { s.pmc with droops := setRemove s.pmc.droops island } }) ∧
    exec .coldStartEnd s = .next (settle s { s with pmc := { s.pmc with cold := false } })

/-- Sessions (14 R340, R343 to R346): a claim installs the first root, openings are taken, refused and abandoned, OPEN_3 opens the session, and sessions
close; outside service nothing of it happens. -/
def Obligations.SessionsOpenAndClose : Prop :=
  (∀ (s : State) (source : NetEnd) (address mac payload record : List Byte) (port tag : BitVec 16) (vlan : BitVec 12) (ipv6 : Bool), s.inService = false →
    exec (.open1 address port mac vlan ipv6 tag payload) s = .next (settle s s) ∧ exec (.open3 ⟨source, tag⟩ payload) s = .next (settle s s) ∧ exec (.claim ⟨source, tag⟩ record) s = .next (settle s s)) ∧
  (∀ (s : State) (source : NetEnd) (tag : BitVec 16) (record : List Byte), s.inService = true →
    (∀ c, s.claimFault record = some c → exec (.claim ⟨source, tag⟩ record) s = .next (settle s (s.unbound source 0x05 tag c []))) ∧
    (s.claimFault record = none → exec (.claim ⟨source, tag⟩ record) s = .next (settle s
      (State.unbound { s with sec := { s.sec with roots := [slice record 0x18 133] } } source 0x05 tag 0 []))) ∧
    (s.sec.roots ≠ [] → ∃ c, s.claimFault record = some c)) ∧
  (∀ (s : State) (address mac payload : List Byte) (port tag : BitVec 16) (vlan : BitVec 12) (ipv6 : Bool), s.inService = true →
    (∀ c, s.open1Fault address port ipv6 payload = some c → exec (.open1 address port mac vlan ipv6 tag payload) s = .next (settle s
      ((s.count16 Reg.SEC_OPEN_FAIL).unbound ⟨address, port, mac, vlan, ipv6⟩ 0x01 tag c []))) ∧
    (s.open1Fault address port ipv6 payload = none →
      exec (.open1 address port mac vlan ipv6 tag payload) s = .next (settle s (s.openTake address port mac vlan ipv6 tag payload)))) ∧
  (∀ (s : State) (source : NetEnd) (tag : BitVec 16) (payload : List Byte), s.inService = true →
    let named := s.sec.openings.find? fun o => o.id.toNat = beNat (payload.take 4)
    (∀ o, named = some o → s.open3Fault payload = none → exec (.open3 ⟨source, tag⟩ payload) s = .next (settle s (s.openSession o tag))) ∧
    (∀ o c, named = some o → payload.length = 136 → s.open3Fault payload = some c → exec (.open3 ⟨source, tag⟩ payload) s = .next (settle s
      ((s.openFailed.dropOpening o).unbound source 0x03 tag c []))) ∧
    (∀ c, named = none ∨ payload.length ≠ 136 → s.open3Fault payload = some c →
      exec (.open3 ⟨source, tag⟩ payload) s = .next (settle s (s.openFailed.unbound source 0x03 tag c [])))) ∧
  (∀ (s : State) (session : Word),
    ((s.sec.openings.find? fun o => o.id = session) = none → exec (.openAbandon session) s = .next (settle s s)) ∧
    (∀ o, (s.sec.openings.find? fun o => o.id = session) = some o → exec (.openAbandon session) s = .next (settle s (s.openFailed.dropOpening o))) ∧
    exec (.sessionIdle session) s = .next (settle s (s.closeSession session))) ∧
  ∀ (s : State) (peer : Fin 16384) (tag : BitVec 16),
    (s.session peer.val = none → exec (.sessionClose peer tag) s = .next (settle s (s.refuseMsg peer.val 7))) ∧
    ∀ x, s.session peer.val = some x → exec (.sessionClose peer tag) s = .next (settle s ((s.replied peer.val 0x04 tag 0).closeSession x.id))

/-- Management operations (14 R339, R341, R347, R349, R350, R337, R338; 15 R369 to R371, R374): with the role each has its effect and its reply; without it, it
is refused and counted, and nothing else changes. -/
def Obligations.ManagementOperations : Prop :=
  (∀ (s : State) (peer : Fin 16384) (tag : BitVec 16), s.MayManage peer.val .admin →
    let p := peer.val
    (∀ (kind : Byte) (key : List Byte), key.length = 133 →
      (kind = 0 → s.sec.roots.length < 8 → exec (.keyInstall peer tag kind key) s = .next (settle s
        (State.replied { s with sec := { s.sec with roots := s.sec.roots ++ [key] } } p 0x10 tag 0))) ∧
      (kind = 1 → s.sec.imageKeys.length < 8 → exec (.keyInstall peer tag kind key) s = .next (settle s
        (State.replied { s with sec := { s.sec with imageKeys := s.sec.imageKeys ++ [key] } } p 0x10 tag 0))) ∧
      (1 < kind.toNat → exec (.keyInstall peer tag kind key) s = .next (settle s (s.replied p 0x10 tag mgmtBadOp)))) ∧
    (∀ (kind : Byte) (digest : List Byte),
      let rest := s.sec.roots.filter fun k => Config.sha512 k ≠ digest
      (kind = 0 → digest.length = 64 → rest.length ≠ s.sec.roots.length → rest ≠ [] →
        let u := State.replied { s with sec := { s.sec with roots := rest } } p 0x11 tag 0
        exec (.keyRemove peer tag kind digest) s = .next (settle s (u.closeWhere u.sec.invalidated))) ∧
      (kind = 0 → digest.length = 64 → rest = [] →
        let u := s.replied p 0x11 tag mgmtState
        exec (.keyRemove peer tag kind digest) s = .next (settle s (u.closeWhere u.sec.invalidated)))) ∧
    (∀ floor : W64,
      (s.sec.certFloor.toNat ≤ floor.toNat →
        let u := State.replied { s with sec := { s.sec with certFloor := floor } } p 0x12 tag 0
        exec (.certFloor peer tag floor) s = .next (settle s (u.closeWhere u.sec.invalidated))) ∧
      (floor.toNat < s.sec.certFloor.toNat →
        let u := s.replied p 0x12 tag mgmtFloor
        exec (.certFloor peer tag floor) s = .next (settle s (u.closeWhere u.sec.invalidated)))) ∧
    (∀ (transmit : Bool) (an : Fin 4) (sak salt : List Byte) (ssci : Word) (sci pn : W64), sak.length = 32 → salt.length = 12 →
      let a : MacsecSa := ⟨an.val, pn, sak, salt, ssci, sci⟩
      exec (.macsecSa peer tag transmit an sak salt ssci sci pn) s = .next (settle s
        ((s.setPort (if transmit then s.net.port.installTx a else s.net.port.installRx a)).replied p 0x20 tag 0))) ∧
    exec (.macsecClear peer tag) s = .next (settle s (s.clearSaks.replied p 0x21 tag 0)) ∧
    (∀ (offset : BitVec 16) (data : List Byte),
      (offset.toNat + data.length ≤ 4096 → exec (.tagStage peer tag offset data) s = .next (settle s
        (State.replied { s with sec := { s.sec with staging := some (patch (s.sec.staging.getD s.sec.tagData) offset.toNat data) } } p 0x30 tag 0))) ∧
      (4096 < offset.toNat + data.length → exec (.tagStage peer tag offset data) s = .next (settle s (s.replied p 0x30 tag mgmtBadOp)))) ∧
    (∀ (expected : Word) (digest : List Byte),
      let data := s.sec.staging.getD s.sec.tagData
      let c : TagCopy := ⟨data, s.sec.tagSeq + 1, true⟩
      (expected ≠ s.sec.tagSeq → exec (.tagCommit peer tag expected digest) s = .next (settle s (s.replied p 0x31 tag mgmtStale))) ∧
      (expected = s.sec.tagSeq → Config.sha512 data ≠ digest → exec (.tagCommit peer tag expected digest) s = .next (settle s (s.replied p 0x31 tag mgmtSignature))) ∧
      (expected = s.sec.tagSeq → Config.sha512 data = digest → s.sec.validTag = some false → exec (.tagCommit peer tag expected digest) s = .next (settle s
        (State.replied { s with sec := { s.sec with copyB := c, staging := none } } p 0x31 tag 0))) ∧
      (expected = s.sec.tagSeq → Config.sha512 data = digest → s.sec.validTag ≠ some false → exec (.tagCommit peer tag expected digest) s = .next (settle s
        (State.replied { s with sec := { s.sec with copyA := c, staging := none } } p 0x31 tag 0)))) ∧
    (∀ (offset : Word) (data : List Byte),
      (s.sec.onTrial = true → exec (.fwStage peer tag offset data) s = .next (settle s (s.replied p 0x40 tag mgmtState))) ∧
      (s.sec.onTrial = false → offset.toNat + data.length ≤ fwSlotSize → ∃ u : State, u.sec.verified = false ∧ u.sec.record = s.sec.record ∧
        u.sec.slot (otherSlot s.sec.inactive) = s.sec.slot (otherSlot s.sec.inactive) ∧ u.regs = s.regs ∧ u.mem = s.mem ∧
        exec (.fwStage peer tag offset data) s = .next (settle s (u.replied p 0x40 tag 0)))) ∧
    (let set := s.sec.slot s.sec.inactive
     (fwSignatureGood set = true → s.sec.fwFloor ≤ fwVersion set → exec (.fwVerify peer tag) s = .next (settle s
       (State.replied { s with sec := { s.sec with verified := true } } p 0x41 tag 0))) ∧
     (fwSignatureGood set = false → exec (.fwVerify peer tag) s = .next (settle s (s.replied p 0x41 tag mgmtSignature))) ∧
     (fwSignatureGood set = true → fwVersion set < s.sec.fwFloor → exec (.fwVerify peer tag) s = .next (settle s (s.replied p 0x41 tag mgmtFloor)))) ∧
    (s.sec.verified = true → exec (.fwActivate peer tag) s = .next (settle s
      (State.replied { s with sec := { s.sec with record := ⟨s.sec.inactive, true, false⟩ } } p 0x42 tag 0))) ∧
    (s.sec.verified = false → exec (.fwActivate peer tag) s = .next (settle s (s.replied p 0x42 tag mgmtState))) ∧
    (s.tel.running ≠ none → exec (.fwHandover peer tag) s = .next (settle s (s.replied p 0x60 tag mgmtBusy))) ∧
    (let w := s.effectOf p 7
     s.tel.running = none → w.sec.verified = true → w.sec.onTrial = false → w.standby ≠ none → exec (.fwHandover peer tag) s = .next (settle s
      (((w.beginRepair ⟨.fwHandover, 0, 1, some (p, tag), 0, [], false, w.lic⟩).repairOn).nextRepair))) ∧
    (let w := s.effectOf p 7
     s.tel.running = none → w.sec.verified = false ∨ w.sec.onTrial = true ∨ w.standby = none →
      exec (.fwHandover peer tag) s = .next (settle s (s.replied p 0x60 tag mgmtState)))) ∧
  (∀ (s : State) (peer : Fin 16384) (tag : BitVec 16) (n : Byte), s.MayManage peer.val .configure → s.tel.running = none →
    let w := s.effectOf peer.val 7
    let begin := fun (u : State) k => ((u.beginRepair ⟨k, n.toNat, 1, some (peer.val, tag), 0, [], false, u.lic⟩).repairOn).nextRepair
    (w.channelFault n = none → exec (.dimmRemove peer tag n) s = .next (settle s (begin w .dimmRemove))) ∧
    (∀ c, w.channelFault n = some c → exec (.dimmRemove peer tag n) s = .next (settle s (s.replied peer.val 0x61 tag c))) ∧
    (7 < n.toNat → w.channelFault n = some mgmtBadOp) ∧ (n.toNat ≤ 7 → bit w.power.training n.toNat = false → w.channelFault n = none) ∧
    (w.channelFault n = none → bit w.tiers.channelsOnline n.toNat = false →
      exec (.dimmInsert peer tag n) s = .next (settle s ((begin (w.insertDimm n.toNat) .dimmInsert).insertFailed n.toNat))) ∧
    (n.toNat ≤ 31 → exec (.siloFence peer tag n) s = .next (settle s (begin w .siloFence))) ∧
    (31 < n.toNat → exec (.siloFence peer tag n) s = .next (settle s (s.replied peer.val 0x63 tag mgmtBadOp)))) ∧
  (∀ (s : State) (peer : Fin 16384) (tag : BitVec 16), s.MayManage peer.val .read →
    (∀ (ring : Byte) (first count : Word), AMap.get? s.tel.rings ring.toNat ≠ none → 1 ≤ count.toNat → count.toNat ≤ 0x100000 →
      ((s.ring ring.toNat).level = .calm → exec (.telReplay peer tag ring first count) s = .next (settle s
        (State.replied { s with tel := { s.tel with replays := s.tel.replays ++ [⟨peer.val, ring.toNat, first, count.toNat⟩] } } peer.val 0x64 tag 0))) ∧
      ((s.ring ring.toNat).level ≠ .calm → exec (.telReplay peer tag ring first count) s = .next (settle s (s.replied peer.val 0x64 tag mgmtState)))) ∧
    ∀ first : BitVec 16, exec (.alarmList peer tag first) s = .next (settle s ((s.effectOf peer.val 7).mgmtReply peer.val 0x65 tag 0
      (((s.vane.alarms.filter fun e => decide (first.toNat ≤ e.1)).take 16).flatMap fun e => alarmRecord e.1 e.2 s.lic)))) ∧
  ∀ (s : State) (peer : Fin 16384) (tag : BitVec 16) (c : Instr) (op : Nat),
    (c = .macsecClear peer tag ∧ op = 0x21) ∨ (c = .fwVerify peer tag ∧ op = 0x41) ∨ (c = .fwActivate peer tag ∧ op = 0x42) ∨
      (c = .fwHandover peer tag ∧ op = 0x60) ∨ (∃ row, c = .siloFence peer tag row ∧ op = 0x63 ∧ s.peerRole peer.val .configure = false) →
    (s.session peer.val = none → exec c s = .next (settle s (s.refuseMsg peer.val 7))) ∧
    (s.session peer.val ≠ none → s.peerRole peer.val .admin = false → exec c s = .next (settle s (s.roleRefused.replied peer.val op tag mgmtRole)))

/-- Telemetry, repairs of firmware's own, attestation, erase and the TAP (14 R348, R352; 15 R358, R359, R363, R368, R370, R372; 17 R408). -/
def Obligations.TelemetryRepairAndTap : Prop :=
  (∀ (s : State) (record : List Byte),
    (record.length ≠ 32 → exec (.telemetryRecord record) s = .next (settle s s)) ∧
    (record.length = 32 → leAt record 0 1 = 1 → exec (.telemetryRecord record) s = .next (settle s (s.hubTake false (leAt record 2 1) (leAt record 0x10 2)
      (leAt record 0x12 2) (BitVec.ofNat 64 (leAt record 0x18 8)) (record.take 8 ++ leBytes 8 s.lic.toNat ++ record.drop 16)))) ∧
    (record.length = 32 → leAt record 0 1 = 2 →
      let on := leAt record 2 1 < 16 ∧ 0x0100 ≤ leAt record 0x10 2 ∧ bit (s.reg Reg.TEL_TRACE_EN) (leAt record 2 1) = true ∧
        bit (s.reg Reg.TEL_TRACE_CODES) (leAt record 0x10 2 - 0x0100) = true
      (on → exec (.telemetryRecord record) s = .next (settle s (s.hubTake true (leAt record 2 1) (leAt record 0x10 2)
        (leAt record 0x12 2) (BitVec.ofNat 64 (leAt record 0x18 8)) (record.take 8 ++ leBytes 8 s.lic.toNat ++ record.drop 16)))) ∧
      (¬on → exec (.telemetryRecord record) s = .next (settle s s)))) ∧
  (∀ s : State,
    let u := s.applyAll [Reg.TEL_CTRL, Reg.EB_BALE_MAX, Reg.EB_TELEM_PEER]
    (bit (u.reg Reg.TEL_CTRL) 0 = false ∨ u.telemPeer = none → exec .telemExport s = .next (settle s u)) ∧
    (∀ p, u.telemPeer = some p → u.canSend p = false → exec .telemExport s = .next (settle s u)) ∧
    (∀ p, bit (u.reg Reg.TEL_CTRL) 0 = true → u.telemPeer = some p → u.canSend p = true →
      (u.vane.alarms.any fun e => e.2.mark) = true ∨ u.dueRing ≠ none → exec .telemExport s = .next (settle s (u.exportLive p))) ∧
    (∀ p y rest, bit (u.reg Reg.TEL_CTRL) 0 = true → u.telemPeer = some p → u.canSend p = true →
      (u.vane.alarms.any fun e => e.2.mark) = false → u.dueRing = none → u.tel.replays = y :: rest →
      exec .telemExport s = .next (settle s (u.exportReplay p y rest))) ∧
    (let v := s.applyAll [Reg.TEL_TRACE_EN, Reg.TEL_TRACE_CODES, Reg.TEL_SQUALL_CFG]
     exec .squallTick s = .next (settle s ((AMap.keys v.tel.rings).foldl State.tickRing v))) ∧
    exec .summaryFlush s = .next (settle s (s.flushSummaries fun _ => true)) ∧
    (s.inService = true → exec .fenceRetry s = .next (settle s (((s.applyStaged Reg.REP_POLICY).repairOn.nextRepair).autoFence.autoMove))) ∧
    (s.inService = false → exec .fenceRetry s = .next (settle s s)) ∧
    (s.sec.erasing = false → exec .eraseComplete s = .next (settle s s)) ∧
    (s.sec.erasing = true → s.power.resetN = false → ∃ t, exec .eraseComplete s = .next (settle s t) ∧ t.sec.roots = [] ∧ t.sec.imageKeys = [] ∧ t.sec.certFloor = 0 ∧
      t.sec.erasing = false ∧ t.sec.slotA = s.sec.slotA ∧ t.sec.slotB = s.sec.slotB ∧ t.sec.record = s.sec.record ∧ t.net.port.txSas = [] ∧
      t.net.port.rxSas = [] ∧ t.power.address = none)) ∧
  (∀ (s : State) (address : Nat), s.backed address = true →
    let u := s.applyStaged Reg.REP_POLICY
    (bit (u.reg Reg.REP_POLICY) 18 = true → exec (.granuleRetire address) s = .next (settle s (u.askRepair .retire (granuleOfAddr address)))) ∧
    (bit (u.reg Reg.REP_POLICY) 18 = false → exec (.granuleRetire address) s = .next (settle s u))) ∧
  (∀ (s : State) (address : Nat), s.backed address = false → exec (.granuleRetire address) s = .fault (.unbackedAddress address)) ∧
  (∀ (s : State) (cp : Fin 4),
    ((s.cp cp.val).state ≠ .booting → exec (.cpBootDone cp) s = .next (settle s s)) ∧
    ((s.cp cp.val).state = .booting → s.tel.running = none →
      let u := s.setCp cp.val { s.cp cp.val with state := .standby }
      exec (.cpBootDone cp) s = .next (settle s { u with vane := { u.vane with
        watchRunning := u.vane.watchRunning ||| (1#4 <<< cp.val),
        expiredAt := AMap.erase u.vane.expiredAt cp.val } }))) ∧
  (∀ (s : State) (peer : Option (Fin 16384)) (source : NetEnd) (nonce : List Byte) (flags : Byte), s.inService = true →
    let u := s.attestSecond
    let body := u.quoteBody nonce
    let reply := body ++ Config.identitySign body ++ (if bit flags 0 then Config.idCertificate else [])
    let v := State.countWrap { u with sec := { u.sec with quotes := u.sec.quotes + 1 } } Reg.SEC_ATTESTS 1
    (nonce.length ≠ 32 → exec (.attest ⟨peer, source⟩ nonce flags) s = .next (settle s (s.count32 Reg.EB_RX_REFUSED 1))) ∧
    (nonce.length = 32 → fld (u.reg Reg.SEC_ATTEST_RATE) 9 0 ≤ u.sec.quotes →
      (peer = none → exec (.attest ⟨peer, source⟩ nonce flags) s = .next (settle s (u.count16 Reg.SEC_ATTEST_DROP))) ∧
      ∀ p, peer = some p → exec (.attest ⟨peer, source⟩ nonce flags) s = .next (settle s ((u.effectOf p.val 6).count16 Reg.SEC_ATTEST_DROP))) ∧
    (nonce.length = 32 → u.sec.quotes < fld (u.reg Reg.SEC_ATTEST_RATE) 9 0 →
      (peer = none → exec (.attest ⟨peer, source⟩ nonce flags) s = .next (settle s (v.unbound source 0 0 0 reply))) ∧
      ∀ p, peer = some p → exec (.attest ⟨peer, source⟩ nonce flags) s = .next (settle s ((v.effectOf p.val 6).mgmtReply p.val 0 0 0 reply)))) ∧
  ∀ (s : State) (boundary : List Bool) (data : Word),
    let sel := fun i d => ({ s with tap := { s.tap with instr := i, data := d } } : State)
    (s.tapLive = true →
      exec .tapReset s = .next (settle s (sel .idcode s.idcode)) ∧ exec .idcode s = .next (settle s (sel .idcode s.idcode)) ∧ exec .highz s = .next (settle s (sel .highz 0)) ∧
      exec .clamp s = .next (settle s (sel .clamp 0)) ∧ exec .bypass s = .next (settle s (sel .bypass 0)) ∧
      (∃ l, l.length = boundary.length ∧
        exec (.extest boundary) s = .next (settle s { s with free := s.free + boundary.length, tap := { s.tap with instr := .extest, boundary := boundary, captured := l } })) ∧
      (∃ l, l.length = boundary.length ∧
        exec (.samplePreload boundary) s = .next (settle s { s with free := s.free + boundary.length, tap := { s.tap with
          instr := .samplePreload, boundary := boundary,
          captured := l } })) ∧
      (data ≠ 0x0000E5A5 ∨ s.power.resetN = true → exec (.secErase data) s = .next (settle s (sel .secErase data))) ∧
      (data = 0x0000E5A5 → s.power.resetN = false → exec (.secErase data) s = .next (settle s { sel .secErase data with sec := { s.sec with erasing := true } }))) ∧
    (s.tapLive = false → exec .tapReset s = .next (settle s s) ∧ exec .idcode s = .next (settle s s) ∧ exec .highz s = .next (settle s s) ∧ exec .clamp s = .next (settle s s) ∧ exec .bypass s = .next (settle s s) ∧
      exec (.extest boundary) s = .next (settle s s) ∧ exec (.samplePreload boundary) s = .next (settle s s) ∧ exec (.secErase data) s = .next (settle s s))

/-- What reset leaves (13 R329; 16 R378; the Reset columns): nothing waits, memory is clear with no marked line, no bay, stream, sequence, instance or core
holds anything, no guard is open, the loader is idle, the link is down, the safe state is not entered, and every register reads its Reset value. -/
def Obligations.ResetLeavesEverythingClear : Prop :=
  let s := State.reset
  s.pending = [] ∧ s.MemoryCanonical ∧ s.mem = [] ∧ s.chaff = [] ∧ s.ue = [] ∧ s.insts = [] ∧ s.cores = [] ∧ s.bays = [] ∧ s.queues = [] ∧ s.streams = [] ∧
    s.seqs = [] ∧ s.batchers = [] ∧ s.guards = [] ∧ s.commitMask = none ∧ s.lic = 0 ∧ s.loader.state = .idle ∧ s.loader.record.defined = 0 ∧
    s.net.port.link = .down ∧ s.net.peers = [] ∧ s.sec.sessions = [] ∧ s.sec.openings = [] ∧ s.vane.safe = false ∧ s.vane.running = true ∧
    s.vane.alarmN = false ∧ s.power.resetN = true ∧ s.pmc.h = 0 ∧ s.pmc.half = false ∧ s.tap.instr = .idcode ∧ s.events.queue = [] ∧
    ∀ key, s.reg key = resetOf key

/-- The frame of the commands that store nothing (every row but those that `storing` names: the register rows, the engines but for attention and scan,
the submission, stream start, loop, port, power, security and telemetry rows): each byte of memory reads as it did (16 R383; 12 R308 for the core
registers, which stay). -/
def Obligations.CommandsThatStoreNothingKeepMemory : Prop :=
  ∀ (c : Instr) (s t : State), storing c = false → exec c s = .next t →
    (∀ a len, t.physRead a len = s.physRead a len) ∧ t.valueAt Reg.HUB_CORE_SPARE = s.valueAt Reg.HUB_CORE_SPARE

/-- Every step keeps memory in its canonical form: addresses rise, and no byte that reads as an unlisted one is listed (the model's form of memory; 16 R383
for what an unlisted byte reads). -/
def Obligations.StepKeepsMemoryCanonical : Prop :=
  ∀ s t : State, s.MemoryCanonical → step s = .next t → t.MemoryCanonical

/-- No step changes which cores the device has and which are spares: substitution in service leaves both registers unchanged (12 R308). -/
def Obligations.StepNeverChangesFuses : Prop :=
  ∀ s t : State, step s = .next t → t.fuses = s.fuses ∧
    t.valueAt Reg.HUB_CORE_PRESENT_LO = s.valueAt Reg.HUB_CORE_PRESENT_LO ∧ t.valueAt Reg.HUB_CORE_PRESENT_HI = s.valueAt Reg.HUB_CORE_PRESENT_HI ∧
    t.valueAt Reg.HUB_CORE_SPARE = s.valueAt Reg.HUB_CORE_SPARE
end

