-- ==== Sys2Proof/Laws/Maps.lean ====
section
/-! SUPPORT. Lookup laws and canonical form of the finite maps that the state holds. -/

namespace Sys2Proof.Machine

variable {α β : Type}

theorem AMap.get?_set_same (m : AMap α) (k : Nat) (v : α) : AMap.get? (AMap.set m k v) k = some v := by
  induction m with
  | nil => simp [AMap.set, AMap.get?]
  | cons e rest ih =>
    obtain ⟨a, w⟩ := e
    simp only [AMap.set]
    split
    · simp [AMap.get?]
    · split
      · simp [AMap.get?]
      · rename_i h1 h2
        simp [AMap.get?, ih, Ne.symm h2]

theorem AMap.get?_set_other (m : AMap α) {k j : Nat} (v : α) (h : j ≠ k) : AMap.get? (AMap.set m k v) j = AMap.get? m j := by
  induction m with
  | nil => simp [AMap.set, AMap.get?, h.symm]
  | cons e rest ih =>
    obtain ⟨a, w⟩ := e
    simp only [AMap.set]
    split
    · simp [AMap.get?, h.symm]
    · split
      · rename_i h1 h2
        subst h2
        simp [AMap.get?, h.symm]
      · simp [AMap.get?, ih]

theorem AMap.get?_set (m : AMap α) (k j : Nat) (v : α) :
    AMap.get? (AMap.set m k v) j = if j = k then some v else AMap.get? m j := by
  split
  · rename_i h; subst h; exact AMap.get?_set_same m j v
  · rename_i h; exact AMap.get?_set_other m v h

@[simp] theorem AMap.getD_set_same (m : AMap α) (k : Nat) (v d : α) : AMap.getD (AMap.set m k v) k d = v := by
  simp [AMap.getD, AMap.get?_set_same]

theorem AMap.getD_set_other (m : AMap α) {k j : Nat} (v d : α) (h : j ≠ k) :
    AMap.getD (AMap.set m k v) j d = AMap.getD m j d := by
  simp [AMap.getD, AMap.get?_set_other m v h]

theorem AMap.get?_erase_other (m : AMap α) {k j : Nat} (h : j ≠ k) : AMap.get? (AMap.erase m k) j = AMap.get? m j := by
  induction m with
  | nil => simp [AMap.erase, AMap.get?]
  | cons e rest ih =>
    obtain ⟨a, w⟩ := e
    simp only [AMap.erase]
    split
    · rename_i h1; subst h1; simp [AMap.get?, h.symm]
    · simp [AMap.get?, ih]

/-- Every key of a map lies above a bound. -/
def AMap.Above (b : Nat) (m : AMap α) : Prop := ∀ e ∈ m, b < e.1

/-- The canonical form, entry by entry. -/
theorem AMap.wf_cons (a : Nat) (v : α) (m : AMap α) : AMap.wf ((a, v) :: m) = true ↔ AMap.wf m = true ∧ AMap.Above a m := by
  induction m generalizing a v with
  | nil => simp [AMap.wf, AMap.Above]
  | cons e rest ih =>
    obtain ⟨b, w⟩ := e
    simp only [AMap.wf, Bool.and_eq_true, decide_eq_true_eq]
    constructor
    · rintro ⟨h1, h2⟩
      refine ⟨h2, ?_⟩
      intro e he
      rcases List.mem_cons.mp he with rfl | he
      · exact h1
      · exact Nat.lt_trans h1 (((ih b w).mp h2).2 e he)
    · rintro ⟨h1, h2⟩
      exact ⟨h2 (b, w) (by simp), h1⟩

theorem AMap.above_set {b k : Nat} {v : α} {m : AMap α} (h : AMap.Above b m) (hk : b < k) : AMap.Above b (AMap.set m k v) := by
  induction m with
  | nil => intro e he; simp [AMap.set] at he; subst he; exact hk
  | cons e rest ih =>
    obtain ⟨a, w⟩ := e
    have hr : AMap.Above b rest := fun e he => h e (by simp [he])
    have ha : b < a := h (a, w) (by simp)
    simp only [AMap.set]
    split
    · intro e he; simp at he; rcases he with rfl | rfl | he
      · exact hk
      · exact ha
      · exact hr e he
    · split
      · intro e he; simp at he; rcases he with rfl | he
        · exact hk
        · exact hr e he
      · intro e he; simp at he; rcases he with rfl | he
        · exact ha
        · exact ih hr e he

theorem AMap.wf_set {m : AMap α} (k : Nat) (v : α) (h : AMap.wf m = true) : AMap.wf (AMap.set m k v) = true := by
  induction m with
  | nil => simp [AMap.set, AMap.wf]
  | cons e rest ih =>
    obtain ⟨a, w⟩ := e
    have hw := (AMap.wf_cons a w rest).mp h
    simp only [AMap.set]
    split
    · rename_i h1
      refine (AMap.wf_cons k v _).mpr ⟨h, ?_⟩
      intro e he; simp at he; rcases he with rfl | he
      · exact h1
      · exact Nat.lt_trans h1 (hw.2 e he)
    · split
      · rename_i h1 h2; subst h2
        exact (AMap.wf_cons _ v _).mpr hw
      · rename_i h1 h2
        exact (AMap.wf_cons a w _).mpr ⟨ih hw.1, AMap.above_set hw.2 (by omega)⟩

theorem AMap.above_erase {b k : Nat} {m : AMap α} (h : AMap.Above b m) : AMap.Above b (AMap.erase m k) := by
  induction m with
  | nil => exact h
  | cons e rest ih =>
    obtain ⟨a, w⟩ := e
    have hr : AMap.Above b rest := fun e he => h e (by simp [he])
    simp only [AMap.erase]
    split
    · exact hr
    · intro e he; simp at he; rcases he with rfl | he
      · exact h (a, w) (by simp)
      · exact ih hr e he

theorem AMap.wf_erase {m : AMap α} (k : Nat) (h : AMap.wf m = true) : AMap.wf (AMap.erase m k) = true := by
  induction m with
  | nil => exact h
  | cons e rest ih =>
    obtain ⟨a, w⟩ := e
    have hw := (AMap.wf_cons a w rest).mp h
    simp only [AMap.erase]
    split
    · exact hw.1
    · exact (AMap.wf_cons a w _).mpr ⟨ih hw.1, AMap.above_erase hw.2⟩

theorem AMap.wf_keep {m : AMap α} (p : Nat → α → Bool) (h : AMap.wf m = true) : AMap.wf (AMap.keep p m) = true := by
  induction m with
  | nil => exact h
  | cons e rest ih =>
    obtain ⟨a, w⟩ := e
    have hw := (AMap.wf_cons a w rest).mp h
    simp only [AMap.keep, List.filter_cons]
    split
    · refine (AMap.wf_cons a w _).mpr ⟨ih hw.1, ?_⟩
      intro e he
      exact hw.2 e (List.mem_filter.mp he).1
    · exact ih hw.1

theorem AMap.wf_mapVals {m : AMap α} (f : Nat → α → β) (h : AMap.wf m = true) : AMap.wf (AMap.mapVals f m) = true := by
  induction m with
  | nil => rfl
  | cons e rest ih =>
    obtain ⟨a, w⟩ := e
    have hw := (AMap.wf_cons a w rest).mp h
    refine (AMap.wf_cons a (f a w) _).mpr ⟨ih hw.1, ?_⟩
    intro e he
    obtain ⟨x, hx, rfl⟩ := List.mem_map.mp he
    exact hw.2 x hx

theorem AMap.get?_above {b k : Nat} {m : AMap α} (h : AMap.Above b m) (hk : k ≤ b) : AMap.get? m k = none := by
  induction m with
  | nil => rfl
  | cons e rest ih =>
    obtain ⟨a, w⟩ := e
    have ha : b < a := h (a, w) (by simp)
    simp only [AMap.get?]
    rw [if_neg (by omega)]
    exact ih fun e he => h e (by simp [he])

theorem AMap.get?_erase_same {m : AMap α} (k : Nat) (h : AMap.wf m = true) : AMap.get? (AMap.erase m k) k = none := by
  induction m with
  | nil => rfl
  | cons e rest ih =>
    obtain ⟨a, w⟩ := e
    have hw := (AMap.wf_cons a w rest).mp h
    simp only [AMap.erase]
    split
    · rename_i h1; subst h1
      exact AMap.get?_above hw.2 (Nat.le_refl _)
    · rename_i h1
      simp [AMap.get?, h1, ih hw.1]

theorem AMap.mem_set {m : AMap α} {k : Nat} {v : α} {e : Nat × α} (h : e ∈ AMap.set m k v) : e = (k, v) ∨ e ∈ m := by
  induction m with
  | nil => left; simpa [AMap.set] using h
  | cons x rest ih =>
    obtain ⟨a, w⟩ := x
    simp only [AMap.set] at h
    split at h
    · simp at h; rcases h with rfl | rfl | h <;> simp_all
    · split at h
      · simp at h; rcases h with rfl | h <;> simp_all
      · simp at h; rcases h with rfl | h
        · simp
        · rcases ih h with rfl | h <;> simp_all

theorem AMap.mem_erase {m : AMap α} {k : Nat} {e : Nat × α} (h : e ∈ AMap.erase m k) : e ∈ m := by
  induction m with
  | nil => exact h
  | cons x rest ih =>
    obtain ⟨a, w⟩ := x
    simp only [AMap.erase] at h
    split at h
    · simp [h]
    · simp at h; rcases h with rfl | h
      · simp
      · simp [ih h]

theorem AMap.mem_get? {m : AMap α} (h : AMap.wf m = true) {e : Nat × α} (he : e ∈ m) : AMap.get? m e.1 = some e.2 := by
  induction m with
  | nil => cases he
  | cons x rest ih =>
    obtain ⟨a, w⟩ := x
    have hw := (AMap.wf_cons a w rest).mp h
    rcases List.mem_cons.mp he with rfl | he
    · simp [AMap.get?]
    · have := hw.2 e he
      simp [AMap.get?, Nat.ne_of_lt this, ih hw.1 he]

theorem AMap.get?_mem {m : AMap α} {k : Nat} {v : α} (h : AMap.get? m k = some v) : (k, v) ∈ m := by
  induction m with
  | nil => simp [AMap.get?] at h
  | cons x rest ih =>
    obtain ⟨a, w⟩ := x
    simp only [AMap.get?] at h
    split at h
    · rename_i h1; subst h1; cases h; simp
    · simp [ih h]

end Sys2Proof.Machine
end

