-- ==== Sys2Proof/Laws/State.lean ====
section
/-! SUPPORT. What each update of one part of the state leaves unchanged, field by field: no later proof unfolds a record update. -/

namespace Sys2Proof.Machine

/-! ### `State.setCore` -/

@[simp] theorem State.setCore_pending (s : State) (n : Nat) (x : Core) : (s.setCore n x).pending = s.pending := rfl
@[simp] theorem State.setCore_free (s : State) (n : Nat) (x : Core) : (s.setCore n x).free = s.free := rfl
@[simp] theorem State.setCore_fuses (s : State) (n : Nat) (x : Core) : (s.setCore n x).fuses = s.fuses := rfl
@[simp] theorem State.setCore_lic (s : State) (n : Nat) (x : Core) : (s.setCore n x).lic = s.lic := rfl
@[simp] theorem State.setCore_regs (s : State) (n : Nat) (x : Core) : (s.setCore n x).regs = s.regs := rfl
@[simp] theorem State.setCore_latches (s : State) (n : Nat) (x : Core) : (s.setCore n x).latches = s.latches := rfl
@[simp] theorem State.setCore_guards (s : State) (n : Nat) (x : Core) : (s.setCore n x).guards = s.guards := rfl
@[simp] theorem State.setCore_commitMask (s : State) (n : Nat) (x : Core) : (s.setCore n x).commitMask = s.commitMask := rfl
@[simp] theorem State.setCore_commitRefused (s : State) (n : Nat) (x : Core) : (s.setCore n x).commitRefused = s.commitRefused := rfl
@[simp] theorem State.setCore_commitCount (s : State) (n : Nat) (x : Core) : (s.setCore n x).commitCount = s.commitCount := rfl
@[simp] theorem State.setCore_events (s : State) (n : Nat) (x : Core) : (s.setCore n x).events = s.events := rfl
@[simp] theorem State.setCore_loader (s : State) (n : Nat) (x : Core) : (s.setCore n x).loader = s.loader := rfl
@[simp] theorem State.setCore_trans (s : State) (n : Nat) (x : Core) : (s.setCore n x).trans = s.trans := rfl
@[simp] theorem State.setCore_tiers (s : State) (n : Nat) (x : Core) : (s.setCore n x).tiers = s.tiers := rfl
@[simp] theorem State.setCore_mem (s : State) (n : Nat) (x : Core) : (s.setCore n x).mem = s.mem := rfl
@[simp] theorem State.setCore_chaff (s : State) (n : Nat) (x : Core) : (s.setCore n x).chaff = s.chaff := rfl
@[simp] theorem State.setCore_ue (s : State) (n : Nat) (x : Core) : (s.setCore n x).ue = s.ue := rfl
@[simp] theorem State.setCore_bays (s : State) (n : Nat) (x : Core) : (s.setCore n x).bays = s.bays := rfl
@[simp] theorem State.setCore_batchers (s : State) (n : Nat) (x : Core) : (s.setCore n x).batchers = s.batchers := rfl
@[simp] theorem State.setCore_insts (s : State) (n : Nat) (x : Core) : (s.setCore n x).insts = s.insts := rfl
@[simp] theorem State.setCore_nextInst (s : State) (n : Nat) (x : Core) : (s.setCore n x).nextInst = s.nextInst := rfl
@[simp] theorem State.setCore_queues (s : State) (n : Nat) (x : Core) : (s.setCore n x).queues = s.queues := rfl
@[simp] theorem State.setCore_streams (s : State) (n : Nat) (x : Core) : (s.setCore n x).streams = s.streams := rfl
@[simp] theorem State.setCore_seqs (s : State) (n : Nat) (x : Core) : (s.setCore n x).seqs = s.seqs := rfl
@[simp] theorem State.setCore_engines (s : State) (n : Nat) (x : Core) : (s.setCore n x).engines = s.engines := rfl
@[simp] theorem State.setCore_net (s : State) (n : Nat) (x : Core) : (s.setCore n x).net = s.net := rfl
@[simp] theorem State.setCore_audio (s : State) (n : Nat) (x : Core) : (s.setCore n x).audio = s.audio := rfl
@[simp] theorem State.setCore_vane (s : State) (n : Nat) (x : Core) : (s.setCore n x).vane = s.vane := rfl
@[simp] theorem State.setCore_pmc (s : State) (n : Nat) (x : Core) : (s.setCore n x).pmc = s.pmc := rfl
@[simp] theorem State.setCore_power (s : State) (n : Nat) (x : Core) : (s.setCore n x).power = s.power := rfl
@[simp] theorem State.setCore_tap (s : State) (n : Nat) (x : Core) : (s.setCore n x).tap = s.tap := rfl
@[simp] theorem State.setCore_sec (s : State) (n : Nat) (x : Core) : (s.setCore n x).sec = s.sec := rfl
@[simp] theorem State.setCore_tel (s : State) (n : Nat) (x : Core) : (s.setCore n x).tel = s.tel := rfl

/-! ### `State.setBay` -/

@[simp] theorem State.setBay_pending (s : State) (n : Nat) (x : Bay) : (s.setBay n x).pending = s.pending := rfl
@[simp] theorem State.setBay_free (s : State) (n : Nat) (x : Bay) : (s.setBay n x).free = s.free := rfl
@[simp] theorem State.setBay_fuses (s : State) (n : Nat) (x : Bay) : (s.setBay n x).fuses = s.fuses := rfl
@[simp] theorem State.setBay_lic (s : State) (n : Nat) (x : Bay) : (s.setBay n x).lic = s.lic := rfl
@[simp] theorem State.setBay_regs (s : State) (n : Nat) (x : Bay) : (s.setBay n x).regs = s.regs := rfl
@[simp] theorem State.setBay_latches (s : State) (n : Nat) (x : Bay) : (s.setBay n x).latches = s.latches := rfl
@[simp] theorem State.setBay_guards (s : State) (n : Nat) (x : Bay) : (s.setBay n x).guards = s.guards := rfl
@[simp] theorem State.setBay_commitMask (s : State) (n : Nat) (x : Bay) : (s.setBay n x).commitMask = s.commitMask := rfl
@[simp] theorem State.setBay_commitRefused (s : State) (n : Nat) (x : Bay) : (s.setBay n x).commitRefused = s.commitRefused := rfl
@[simp] theorem State.setBay_commitCount (s : State) (n : Nat) (x : Bay) : (s.setBay n x).commitCount = s.commitCount := rfl
@[simp] theorem State.setBay_events (s : State) (n : Nat) (x : Bay) : (s.setBay n x).events = s.events := rfl
@[simp] theorem State.setBay_loader (s : State) (n : Nat) (x : Bay) : (s.setBay n x).loader = s.loader := rfl
@[simp] theorem State.setBay_trans (s : State) (n : Nat) (x : Bay) : (s.setBay n x).trans = s.trans := rfl
@[simp] theorem State.setBay_tiers (s : State) (n : Nat) (x : Bay) : (s.setBay n x).tiers = s.tiers := rfl
@[simp] theorem State.setBay_mem (s : State) (n : Nat) (x : Bay) : (s.setBay n x).mem = s.mem := rfl
@[simp] theorem State.setBay_chaff (s : State) (n : Nat) (x : Bay) : (s.setBay n x).chaff = s.chaff := rfl
@[simp] theorem State.setBay_ue (s : State) (n : Nat) (x : Bay) : (s.setBay n x).ue = s.ue := rfl
@[simp] theorem State.setBay_cores (s : State) (n : Nat) (x : Bay) : (s.setBay n x).cores = s.cores := rfl
@[simp] theorem State.setBay_batchers (s : State) (n : Nat) (x : Bay) : (s.setBay n x).batchers = s.batchers := rfl
@[simp] theorem State.setBay_insts (s : State) (n : Nat) (x : Bay) : (s.setBay n x).insts = s.insts := rfl
@[simp] theorem State.setBay_nextInst (s : State) (n : Nat) (x : Bay) : (s.setBay n x).nextInst = s.nextInst := rfl
@[simp] theorem State.setBay_queues (s : State) (n : Nat) (x : Bay) : (s.setBay n x).queues = s.queues := rfl
@[simp] theorem State.setBay_streams (s : State) (n : Nat) (x : Bay) : (s.setBay n x).streams = s.streams := rfl
@[simp] theorem State.setBay_seqs (s : State) (n : Nat) (x : Bay) : (s.setBay n x).seqs = s.seqs := rfl
@[simp] theorem State.setBay_engines (s : State) (n : Nat) (x : Bay) : (s.setBay n x).engines = s.engines := rfl
@[simp] theorem State.setBay_net (s : State) (n : Nat) (x : Bay) : (s.setBay n x).net = s.net := rfl
@[simp] theorem State.setBay_audio (s : State) (n : Nat) (x : Bay) : (s.setBay n x).audio = s.audio := rfl
@[simp] theorem State.setBay_vane (s : State) (n : Nat) (x : Bay) : (s.setBay n x).vane = s.vane := rfl
@[simp] theorem State.setBay_pmc (s : State) (n : Nat) (x : Bay) : (s.setBay n x).pmc = s.pmc := rfl
@[simp] theorem State.setBay_power (s : State) (n : Nat) (x : Bay) : (s.setBay n x).power = s.power := rfl
@[simp] theorem State.setBay_tap (s : State) (n : Nat) (x : Bay) : (s.setBay n x).tap = s.tap := rfl
@[simp] theorem State.setBay_sec (s : State) (n : Nat) (x : Bay) : (s.setBay n x).sec = s.sec := rfl
@[simp] theorem State.setBay_tel (s : State) (n : Nat) (x : Bay) : (s.setBay n x).tel = s.tel := rfl

/-! ### `State.setBatcher` -/

@[simp] theorem State.setBatcher_pending (s : State) (n : Nat) (x : Batcher) : (s.setBatcher n x).pending = s.pending := rfl
@[simp] theorem State.setBatcher_free (s : State) (n : Nat) (x : Batcher) : (s.setBatcher n x).free = s.free := rfl
@[simp] theorem State.setBatcher_fuses (s : State) (n : Nat) (x : Batcher) : (s.setBatcher n x).fuses = s.fuses := rfl
@[simp] theorem State.setBatcher_lic (s : State) (n : Nat) (x : Batcher) : (s.setBatcher n x).lic = s.lic := rfl
@[simp] theorem State.setBatcher_regs (s : State) (n : Nat) (x : Batcher) : (s.setBatcher n x).regs = s.regs := rfl
@[simp] theorem State.setBatcher_latches (s : State) (n : Nat) (x : Batcher) : (s.setBatcher n x).latches = s.latches := rfl
@[simp] theorem State.setBatcher_guards (s : State) (n : Nat) (x : Batcher) : (s.setBatcher n x).guards = s.guards := rfl
@[simp] theorem State.setBatcher_commitMask (s : State) (n : Nat) (x : Batcher) : (s.setBatcher n x).commitMask = s.commitMask := rfl
@[simp] theorem State.setBatcher_commitRefused (s : State) (n : Nat) (x : Batcher) : (s.setBatcher n x).commitRefused = s.commitRefused := rfl
@[simp] theorem State.setBatcher_commitCount (s : State) (n : Nat) (x : Batcher) : (s.setBatcher n x).commitCount = s.commitCount := rfl
@[simp] theorem State.setBatcher_events (s : State) (n : Nat) (x : Batcher) : (s.setBatcher n x).events = s.events := rfl
@[simp] theorem State.setBatcher_loader (s : State) (n : Nat) (x : Batcher) : (s.setBatcher n x).loader = s.loader := rfl
@[simp] theorem State.setBatcher_trans (s : State) (n : Nat) (x : Batcher) : (s.setBatcher n x).trans = s.trans := rfl
@[simp] theorem State.setBatcher_tiers (s : State) (n : Nat) (x : Batcher) : (s.setBatcher n x).tiers = s.tiers := rfl
@[simp] theorem State.setBatcher_mem (s : State) (n : Nat) (x : Batcher) : (s.setBatcher n x).mem = s.mem := rfl
@[simp] theorem State.setBatcher_chaff (s : State) (n : Nat) (x : Batcher) : (s.setBatcher n x).chaff = s.chaff := rfl
@[simp] theorem State.setBatcher_ue (s : State) (n : Nat) (x : Batcher) : (s.setBatcher n x).ue = s.ue := rfl
@[simp] theorem State.setBatcher_cores (s : State) (n : Nat) (x : Batcher) : (s.setBatcher n x).cores = s.cores := rfl
@[simp] theorem State.setBatcher_bays (s : State) (n : Nat) (x : Batcher) : (s.setBatcher n x).bays = s.bays := rfl
@[simp] theorem State.setBatcher_insts (s : State) (n : Nat) (x : Batcher) : (s.setBatcher n x).insts = s.insts := rfl
@[simp] theorem State.setBatcher_nextInst (s : State) (n : Nat) (x : Batcher) : (s.setBatcher n x).nextInst = s.nextInst := rfl
@[simp] theorem State.setBatcher_queues (s : State) (n : Nat) (x : Batcher) : (s.setBatcher n x).queues = s.queues := rfl
@[simp] theorem State.setBatcher_streams (s : State) (n : Nat) (x : Batcher) : (s.setBatcher n x).streams = s.streams := rfl
@[simp] theorem State.setBatcher_seqs (s : State) (n : Nat) (x : Batcher) : (s.setBatcher n x).seqs = s.seqs := rfl
@[simp] theorem State.setBatcher_engines (s : State) (n : Nat) (x : Batcher) : (s.setBatcher n x).engines = s.engines := rfl
@[simp] theorem State.setBatcher_net (s : State) (n : Nat) (x : Batcher) : (s.setBatcher n x).net = s.net := rfl
@[simp] theorem State.setBatcher_audio (s : State) (n : Nat) (x : Batcher) : (s.setBatcher n x).audio = s.audio := rfl
@[simp] theorem State.setBatcher_vane (s : State) (n : Nat) (x : Batcher) : (s.setBatcher n x).vane = s.vane := rfl
@[simp] theorem State.setBatcher_pmc (s : State) (n : Nat) (x : Batcher) : (s.setBatcher n x).pmc = s.pmc := rfl
@[simp] theorem State.setBatcher_power (s : State) (n : Nat) (x : Batcher) : (s.setBatcher n x).power = s.power := rfl
@[simp] theorem State.setBatcher_tap (s : State) (n : Nat) (x : Batcher) : (s.setBatcher n x).tap = s.tap := rfl
@[simp] theorem State.setBatcher_sec (s : State) (n : Nat) (x : Batcher) : (s.setBatcher n x).sec = s.sec := rfl
@[simp] theorem State.setBatcher_tel (s : State) (n : Nat) (x : Batcher) : (s.setBatcher n x).tel = s.tel := rfl

/-! ### `State.setInst` -/

@[simp] theorem State.setInst_pending (s : State) (n : Nat) (x : Inst) : (s.setInst n x).pending = s.pending := rfl
@[simp] theorem State.setInst_free (s : State) (n : Nat) (x : Inst) : (s.setInst n x).free = s.free := rfl
@[simp] theorem State.setInst_fuses (s : State) (n : Nat) (x : Inst) : (s.setInst n x).fuses = s.fuses := rfl
@[simp] theorem State.setInst_lic (s : State) (n : Nat) (x : Inst) : (s.setInst n x).lic = s.lic := rfl
@[simp] theorem State.setInst_regs (s : State) (n : Nat) (x : Inst) : (s.setInst n x).regs = s.regs := rfl
@[simp] theorem State.setInst_latches (s : State) (n : Nat) (x : Inst) : (s.setInst n x).latches = s.latches := rfl
@[simp] theorem State.setInst_guards (s : State) (n : Nat) (x : Inst) : (s.setInst n x).guards = s.guards := rfl
@[simp] theorem State.setInst_commitMask (s : State) (n : Nat) (x : Inst) : (s.setInst n x).commitMask = s.commitMask := rfl
@[simp] theorem State.setInst_commitRefused (s : State) (n : Nat) (x : Inst) : (s.setInst n x).commitRefused = s.commitRefused := rfl
@[simp] theorem State.setInst_commitCount (s : State) (n : Nat) (x : Inst) : (s.setInst n x).commitCount = s.commitCount := rfl
@[simp] theorem State.setInst_events (s : State) (n : Nat) (x : Inst) : (s.setInst n x).events = s.events := rfl
@[simp] theorem State.setInst_loader (s : State) (n : Nat) (x : Inst) : (s.setInst n x).loader = s.loader := rfl
@[simp] theorem State.setInst_trans (s : State) (n : Nat) (x : Inst) : (s.setInst n x).trans = s.trans := rfl
@[simp] theorem State.setInst_tiers (s : State) (n : Nat) (x : Inst) : (s.setInst n x).tiers = s.tiers := rfl
@[simp] theorem State.setInst_mem (s : State) (n : Nat) (x : Inst) : (s.setInst n x).mem = s.mem := rfl
@[simp] theorem State.setInst_chaff (s : State) (n : Nat) (x : Inst) : (s.setInst n x).chaff = s.chaff := rfl
@[simp] theorem State.setInst_ue (s : State) (n : Nat) (x : Inst) : (s.setInst n x).ue = s.ue := rfl
@[simp] theorem State.setInst_cores (s : State) (n : Nat) (x : Inst) : (s.setInst n x).cores = s.cores := rfl
@[simp] theorem State.setInst_bays (s : State) (n : Nat) (x : Inst) : (s.setInst n x).bays = s.bays := rfl
@[simp] theorem State.setInst_batchers (s : State) (n : Nat) (x : Inst) : (s.setInst n x).batchers = s.batchers := rfl
@[simp] theorem State.setInst_nextInst (s : State) (n : Nat) (x : Inst) : (s.setInst n x).nextInst = s.nextInst := rfl
@[simp] theorem State.setInst_queues (s : State) (n : Nat) (x : Inst) : (s.setInst n x).queues = s.queues := rfl
@[simp] theorem State.setInst_streams (s : State) (n : Nat) (x : Inst) : (s.setInst n x).streams = s.streams := rfl
@[simp] theorem State.setInst_seqs (s : State) (n : Nat) (x : Inst) : (s.setInst n x).seqs = s.seqs := rfl
@[simp] theorem State.setInst_engines (s : State) (n : Nat) (x : Inst) : (s.setInst n x).engines = s.engines := rfl
@[simp] theorem State.setInst_net (s : State) (n : Nat) (x : Inst) : (s.setInst n x).net = s.net := rfl
@[simp] theorem State.setInst_audio (s : State) (n : Nat) (x : Inst) : (s.setInst n x).audio = s.audio := rfl
@[simp] theorem State.setInst_vane (s : State) (n : Nat) (x : Inst) : (s.setInst n x).vane = s.vane := rfl
@[simp] theorem State.setInst_pmc (s : State) (n : Nat) (x : Inst) : (s.setInst n x).pmc = s.pmc := rfl
@[simp] theorem State.setInst_power (s : State) (n : Nat) (x : Inst) : (s.setInst n x).power = s.power := rfl
@[simp] theorem State.setInst_tap (s : State) (n : Nat) (x : Inst) : (s.setInst n x).tap = s.tap := rfl
@[simp] theorem State.setInst_sec (s : State) (n : Nat) (x : Inst) : (s.setInst n x).sec = s.sec := rfl
@[simp] theorem State.setInst_tel (s : State) (n : Nat) (x : Inst) : (s.setInst n x).tel = s.tel := rfl

/-! ### `State.setQueue` -/

@[simp] theorem State.setQueue_pending (s : State) (n : Nat) (x : HandleQueue) : (s.setQueue n x).pending = s.pending := rfl
@[simp] theorem State.setQueue_free (s : State) (n : Nat) (x : HandleQueue) : (s.setQueue n x).free = s.free := rfl
@[simp] theorem State.setQueue_fuses (s : State) (n : Nat) (x : HandleQueue) : (s.setQueue n x).fuses = s.fuses := rfl
@[simp] theorem State.setQueue_lic (s : State) (n : Nat) (x : HandleQueue) : (s.setQueue n x).lic = s.lic := rfl
@[simp] theorem State.setQueue_regs (s : State) (n : Nat) (x : HandleQueue) : (s.setQueue n x).regs = s.regs := rfl
@[simp] theorem State.setQueue_latches (s : State) (n : Nat) (x : HandleQueue) : (s.setQueue n x).latches = s.latches := rfl
@[simp] theorem State.setQueue_guards (s : State) (n : Nat) (x : HandleQueue) : (s.setQueue n x).guards = s.guards := rfl
@[simp] theorem State.setQueue_commitMask (s : State) (n : Nat) (x : HandleQueue) : (s.setQueue n x).commitMask = s.commitMask := rfl
@[simp] theorem State.setQueue_commitRefused (s : State) (n : Nat) (x : HandleQueue) : (s.setQueue n x).commitRefused = s.commitRefused := rfl
@[simp] theorem State.setQueue_commitCount (s : State) (n : Nat) (x : HandleQueue) : (s.setQueue n x).commitCount = s.commitCount := rfl
@[simp] theorem State.setQueue_events (s : State) (n : Nat) (x : HandleQueue) : (s.setQueue n x).events = s.events := rfl
@[simp] theorem State.setQueue_loader (s : State) (n : Nat) (x : HandleQueue) : (s.setQueue n x).loader = s.loader := rfl
@[simp] theorem State.setQueue_trans (s : State) (n : Nat) (x : HandleQueue) : (s.setQueue n x).trans = s.trans := rfl
@[simp] theorem State.setQueue_tiers (s : State) (n : Nat) (x : HandleQueue) : (s.setQueue n x).tiers = s.tiers := rfl
@[simp] theorem State.setQueue_mem (s : State) (n : Nat) (x : HandleQueue) : (s.setQueue n x).mem = s.mem := rfl
@[simp] theorem State.setQueue_chaff (s : State) (n : Nat) (x : HandleQueue) : (s.setQueue n x).chaff = s.chaff := rfl
@[simp] theorem State.setQueue_ue (s : State) (n : Nat) (x : HandleQueue) : (s.setQueue n x).ue = s.ue := rfl
@[simp] theorem State.setQueue_cores (s : State) (n : Nat) (x : HandleQueue) : (s.setQueue n x).cores = s.cores := rfl
@[simp] theorem State.setQueue_bays (s : State) (n : Nat) (x : HandleQueue) : (s.setQueue n x).bays = s.bays := rfl
@[simp] theorem State.setQueue_batchers (s : State) (n : Nat) (x : HandleQueue) : (s.setQueue n x).batchers = s.batchers := rfl
@[simp] theorem State.setQueue_insts (s : State) (n : Nat) (x : HandleQueue) : (s.setQueue n x).insts = s.insts := rfl
@[simp] theorem State.setQueue_nextInst (s : State) (n : Nat) (x : HandleQueue) : (s.setQueue n x).nextInst = s.nextInst := rfl
@[simp] theorem State.setQueue_streams (s : State) (n : Nat) (x : HandleQueue) : (s.setQueue n x).streams = s.streams := rfl
@[simp] theorem State.setQueue_seqs (s : State) (n : Nat) (x : HandleQueue) : (s.setQueue n x).seqs = s.seqs := rfl
@[simp] theorem State.setQueue_engines (s : State) (n : Nat) (x : HandleQueue) : (s.setQueue n x).engines = s.engines := rfl
@[simp] theorem State.setQueue_net (s : State) (n : Nat) (x : HandleQueue) : (s.setQueue n x).net = s.net := rfl
@[simp] theorem State.setQueue_audio (s : State) (n : Nat) (x : HandleQueue) : (s.setQueue n x).audio = s.audio := rfl
@[simp] theorem State.setQueue_vane (s : State) (n : Nat) (x : HandleQueue) : (s.setQueue n x).vane = s.vane := rfl
@[simp] theorem State.setQueue_pmc (s : State) (n : Nat) (x : HandleQueue) : (s.setQueue n x).pmc = s.pmc := rfl
@[simp] theorem State.setQueue_power (s : State) (n : Nat) (x : HandleQueue) : (s.setQueue n x).power = s.power := rfl
@[simp] theorem State.setQueue_tap (s : State) (n : Nat) (x : HandleQueue) : (s.setQueue n x).tap = s.tap := rfl
@[simp] theorem State.setQueue_sec (s : State) (n : Nat) (x : HandleQueue) : (s.setQueue n x).sec = s.sec := rfl
@[simp] theorem State.setQueue_tel (s : State) (n : Nat) (x : HandleQueue) : (s.setQueue n x).tel = s.tel := rfl

/-! ### `State.setStream` -/

@[simp] theorem State.setStream_pending (s : State) (n : Nat) (x : Stream) : (s.setStream n x).pending = s.pending := rfl
@[simp] theorem State.setStream_free (s : State) (n : Nat) (x : Stream) : (s.setStream n x).free = s.free := rfl
@[simp] theorem State.setStream_fuses (s : State) (n : Nat) (x : Stream) : (s.setStream n x).fuses = s.fuses := rfl
@[simp] theorem State.setStream_lic (s : State) (n : Nat) (x : Stream) : (s.setStream n x).lic = s.lic := rfl
@[simp] theorem State.setStream_regs (s : State) (n : Nat) (x : Stream) : (s.setStream n x).regs = s.regs := rfl
@[simp] theorem State.setStream_latches (s : State) (n : Nat) (x : Stream) : (s.setStream n x).latches = s.latches := rfl
@[simp] theorem State.setStream_guards (s : State) (n : Nat) (x : Stream) : (s.setStream n x).guards = s.guards := rfl
@[simp] theorem State.setStream_commitMask (s : State) (n : Nat) (x : Stream) : (s.setStream n x).commitMask = s.commitMask := rfl
@[simp] theorem State.setStream_commitRefused (s : State) (n : Nat) (x : Stream) : (s.setStream n x).commitRefused = s.commitRefused := rfl
@[simp] theorem State.setStream_commitCount (s : State) (n : Nat) (x : Stream) : (s.setStream n x).commitCount = s.commitCount := rfl
@[simp] theorem State.setStream_events (s : State) (n : Nat) (x : Stream) : (s.setStream n x).events = s.events := rfl
@[simp] theorem State.setStream_loader (s : State) (n : Nat) (x : Stream) : (s.setStream n x).loader = s.loader := rfl
@[simp] theorem State.setStream_trans (s : State) (n : Nat) (x : Stream) : (s.setStream n x).trans = s.trans := rfl
@[simp] theorem State.setStream_tiers (s : State) (n : Nat) (x : Stream) : (s.setStream n x).tiers = s.tiers := rfl
@[simp] theorem State.setStream_mem (s : State) (n : Nat) (x : Stream) : (s.setStream n x).mem = s.mem := rfl
@[simp] theorem State.setStream_chaff (s : State) (n : Nat) (x : Stream) : (s.setStream n x).chaff = s.chaff := rfl
@[simp] theorem State.setStream_ue (s : State) (n : Nat) (x : Stream) : (s.setStream n x).ue = s.ue := rfl
@[simp] theorem State.setStream_cores (s : State) (n : Nat) (x : Stream) : (s.setStream n x).cores = s.cores := rfl
@[simp] theorem State.setStream_bays (s : State) (n : Nat) (x : Stream) : (s.setStream n x).bays = s.bays := rfl
@[simp] theorem State.setStream_batchers (s : State) (n : Nat) (x : Stream) : (s.setStream n x).batchers = s.batchers := rfl
@[simp] theorem State.setStream_insts (s : State) (n : Nat) (x : Stream) : (s.setStream n x).insts = s.insts := rfl
@[simp] theorem State.setStream_nextInst (s : State) (n : Nat) (x : Stream) : (s.setStream n x).nextInst = s.nextInst := rfl
@[simp] theorem State.setStream_queues (s : State) (n : Nat) (x : Stream) : (s.setStream n x).queues = s.queues := rfl
@[simp] theorem State.setStream_seqs (s : State) (n : Nat) (x : Stream) : (s.setStream n x).seqs = s.seqs := rfl
@[simp] theorem State.setStream_engines (s : State) (n : Nat) (x : Stream) : (s.setStream n x).engines = s.engines := rfl
@[simp] theorem State.setStream_net (s : State) (n : Nat) (x : Stream) : (s.setStream n x).net = s.net := rfl
@[simp] theorem State.setStream_audio (s : State) (n : Nat) (x : Stream) : (s.setStream n x).audio = s.audio := rfl
@[simp] theorem State.setStream_vane (s : State) (n : Nat) (x : Stream) : (s.setStream n x).vane = s.vane := rfl
@[simp] theorem State.setStream_pmc (s : State) (n : Nat) (x : Stream) : (s.setStream n x).pmc = s.pmc := rfl
@[simp] theorem State.setStream_power (s : State) (n : Nat) (x : Stream) : (s.setStream n x).power = s.power := rfl
@[simp] theorem State.setStream_tap (s : State) (n : Nat) (x : Stream) : (s.setStream n x).tap = s.tap := rfl
@[simp] theorem State.setStream_sec (s : State) (n : Nat) (x : Stream) : (s.setStream n x).sec = s.sec := rfl
@[simp] theorem State.setStream_tel (s : State) (n : Nat) (x : Stream) : (s.setStream n x).tel = s.tel := rfl

/-! ### `State.setSeq` -/

@[simp] theorem State.setSeq_pending (s : State) (n : Nat) (x : SeqCtx) : (s.setSeq n x).pending = s.pending := rfl
@[simp] theorem State.setSeq_free (s : State) (n : Nat) (x : SeqCtx) : (s.setSeq n x).free = s.free := rfl
@[simp] theorem State.setSeq_fuses (s : State) (n : Nat) (x : SeqCtx) : (s.setSeq n x).fuses = s.fuses := rfl
@[simp] theorem State.setSeq_lic (s : State) (n : Nat) (x : SeqCtx) : (s.setSeq n x).lic = s.lic := rfl
@[simp] theorem State.setSeq_regs (s : State) (n : Nat) (x : SeqCtx) : (s.setSeq n x).regs = s.regs := rfl
@[simp] theorem State.setSeq_latches (s : State) (n : Nat) (x : SeqCtx) : (s.setSeq n x).latches = s.latches := rfl
@[simp] theorem State.setSeq_guards (s : State) (n : Nat) (x : SeqCtx) : (s.setSeq n x).guards = s.guards := rfl
@[simp] theorem State.setSeq_commitMask (s : State) (n : Nat) (x : SeqCtx) : (s.setSeq n x).commitMask = s.commitMask := rfl
@[simp] theorem State.setSeq_commitRefused (s : State) (n : Nat) (x : SeqCtx) : (s.setSeq n x).commitRefused = s.commitRefused := rfl
@[simp] theorem State.setSeq_commitCount (s : State) (n : Nat) (x : SeqCtx) : (s.setSeq n x).commitCount = s.commitCount := rfl
@[simp] theorem State.setSeq_events (s : State) (n : Nat) (x : SeqCtx) : (s.setSeq n x).events = s.events := rfl
@[simp] theorem State.setSeq_loader (s : State) (n : Nat) (x : SeqCtx) : (s.setSeq n x).loader = s.loader := rfl
@[simp] theorem State.setSeq_trans (s : State) (n : Nat) (x : SeqCtx) : (s.setSeq n x).trans = s.trans := rfl
@[simp] theorem State.setSeq_tiers (s : State) (n : Nat) (x : SeqCtx) : (s.setSeq n x).tiers = s.tiers := rfl
@[simp] theorem State.setSeq_mem (s : State) (n : Nat) (x : SeqCtx) : (s.setSeq n x).mem = s.mem := rfl
@[simp] theorem State.setSeq_chaff (s : State) (n : Nat) (x : SeqCtx) : (s.setSeq n x).chaff = s.chaff := rfl
@[simp] theorem State.setSeq_ue (s : State) (n : Nat) (x : SeqCtx) : (s.setSeq n x).ue = s.ue := rfl
@[simp] theorem State.setSeq_cores (s : State) (n : Nat) (x : SeqCtx) : (s.setSeq n x).cores = s.cores := rfl
@[simp] theorem State.setSeq_bays (s : State) (n : Nat) (x : SeqCtx) : (s.setSeq n x).bays = s.bays := rfl
@[simp] theorem State.setSeq_batchers (s : State) (n : Nat) (x : SeqCtx) : (s.setSeq n x).batchers = s.batchers := rfl
@[simp] theorem State.setSeq_insts (s : State) (n : Nat) (x : SeqCtx) : (s.setSeq n x).insts = s.insts := rfl
@[simp] theorem State.setSeq_nextInst (s : State) (n : Nat) (x : SeqCtx) : (s.setSeq n x).nextInst = s.nextInst := rfl
@[simp] theorem State.setSeq_queues (s : State) (n : Nat) (x : SeqCtx) : (s.setSeq n x).queues = s.queues := rfl
@[simp] theorem State.setSeq_streams (s : State) (n : Nat) (x : SeqCtx) : (s.setSeq n x).streams = s.streams := rfl
@[simp] theorem State.setSeq_engines (s : State) (n : Nat) (x : SeqCtx) : (s.setSeq n x).engines = s.engines := rfl
@[simp] theorem State.setSeq_net (s : State) (n : Nat) (x : SeqCtx) : (s.setSeq n x).net = s.net := rfl
@[simp] theorem State.setSeq_audio (s : State) (n : Nat) (x : SeqCtx) : (s.setSeq n x).audio = s.audio := rfl
@[simp] theorem State.setSeq_vane (s : State) (n : Nat) (x : SeqCtx) : (s.setSeq n x).vane = s.vane := rfl
@[simp] theorem State.setSeq_pmc (s : State) (n : Nat) (x : SeqCtx) : (s.setSeq n x).pmc = s.pmc := rfl
@[simp] theorem State.setSeq_power (s : State) (n : Nat) (x : SeqCtx) : (s.setSeq n x).power = s.power := rfl
@[simp] theorem State.setSeq_tap (s : State) (n : Nat) (x : SeqCtx) : (s.setSeq n x).tap = s.tap := rfl
@[simp] theorem State.setSeq_sec (s : State) (n : Nat) (x : SeqCtx) : (s.setSeq n x).sec = s.sec := rfl
@[simp] theorem State.setSeq_tel (s : State) (n : Nat) (x : SeqCtx) : (s.setSeq n x).tel = s.tel := rfl

/-! ### `State.setPeer` -/

@[simp] theorem State.setPeer_pending (s : State) (n : Nat) (x : Peer) : (s.setPeer n x).pending = s.pending := rfl
@[simp] theorem State.setPeer_free (s : State) (n : Nat) (x : Peer) : (s.setPeer n x).free = s.free := rfl
@[simp] theorem State.setPeer_fuses (s : State) (n : Nat) (x : Peer) : (s.setPeer n x).fuses = s.fuses := rfl
@[simp] theorem State.setPeer_lic (s : State) (n : Nat) (x : Peer) : (s.setPeer n x).lic = s.lic := rfl
@[simp] theorem State.setPeer_regs (s : State) (n : Nat) (x : Peer) : (s.setPeer n x).regs = s.regs := rfl
@[simp] theorem State.setPeer_latches (s : State) (n : Nat) (x : Peer) : (s.setPeer n x).latches = s.latches := rfl
@[simp] theorem State.setPeer_guards (s : State) (n : Nat) (x : Peer) : (s.setPeer n x).guards = s.guards := rfl
@[simp] theorem State.setPeer_commitMask (s : State) (n : Nat) (x : Peer) : (s.setPeer n x).commitMask = s.commitMask := rfl
@[simp] theorem State.setPeer_commitRefused (s : State) (n : Nat) (x : Peer) : (s.setPeer n x).commitRefused = s.commitRefused := rfl
@[simp] theorem State.setPeer_commitCount (s : State) (n : Nat) (x : Peer) : (s.setPeer n x).commitCount = s.commitCount := rfl
@[simp] theorem State.setPeer_events (s : State) (n : Nat) (x : Peer) : (s.setPeer n x).events = s.events := rfl
@[simp] theorem State.setPeer_loader (s : State) (n : Nat) (x : Peer) : (s.setPeer n x).loader = s.loader := rfl
@[simp] theorem State.setPeer_trans (s : State) (n : Nat) (x : Peer) : (s.setPeer n x).trans = s.trans := rfl
@[simp] theorem State.setPeer_tiers (s : State) (n : Nat) (x : Peer) : (s.setPeer n x).tiers = s.tiers := rfl
@[simp] theorem State.setPeer_mem (s : State) (n : Nat) (x : Peer) : (s.setPeer n x).mem = s.mem := rfl
@[simp] theorem State.setPeer_chaff (s : State) (n : Nat) (x : Peer) : (s.setPeer n x).chaff = s.chaff := rfl
@[simp] theorem State.setPeer_ue (s : State) (n : Nat) (x : Peer) : (s.setPeer n x).ue = s.ue := rfl
@[simp] theorem State.setPeer_cores (s : State) (n : Nat) (x : Peer) : (s.setPeer n x).cores = s.cores := rfl
@[simp] theorem State.setPeer_bays (s : State) (n : Nat) (x : Peer) : (s.setPeer n x).bays = s.bays := rfl
@[simp] theorem State.setPeer_batchers (s : State) (n : Nat) (x : Peer) : (s.setPeer n x).batchers = s.batchers := rfl
@[simp] theorem State.setPeer_insts (s : State) (n : Nat) (x : Peer) : (s.setPeer n x).insts = s.insts := rfl
@[simp] theorem State.setPeer_nextInst (s : State) (n : Nat) (x : Peer) : (s.setPeer n x).nextInst = s.nextInst := rfl
@[simp] theorem State.setPeer_queues (s : State) (n : Nat) (x : Peer) : (s.setPeer n x).queues = s.queues := rfl
@[simp] theorem State.setPeer_streams (s : State) (n : Nat) (x : Peer) : (s.setPeer n x).streams = s.streams := rfl
@[simp] theorem State.setPeer_seqs (s : State) (n : Nat) (x : Peer) : (s.setPeer n x).seqs = s.seqs := rfl
@[simp] theorem State.setPeer_engines (s : State) (n : Nat) (x : Peer) : (s.setPeer n x).engines = s.engines := rfl
@[simp] theorem State.setPeer_audio (s : State) (n : Nat) (x : Peer) : (s.setPeer n x).audio = s.audio := rfl
@[simp] theorem State.setPeer_vane (s : State) (n : Nat) (x : Peer) : (s.setPeer n x).vane = s.vane := rfl
@[simp] theorem State.setPeer_pmc (s : State) (n : Nat) (x : Peer) : (s.setPeer n x).pmc = s.pmc := rfl
@[simp] theorem State.setPeer_power (s : State) (n : Nat) (x : Peer) : (s.setPeer n x).power = s.power := rfl
@[simp] theorem State.setPeer_tap (s : State) (n : Nat) (x : Peer) : (s.setPeer n x).tap = s.tap := rfl
@[simp] theorem State.setPeer_sec (s : State) (n : Nat) (x : Peer) : (s.setPeer n x).sec = s.sec := rfl
@[simp] theorem State.setPeer_tel (s : State) (n : Nat) (x : Peer) : (s.setPeer n x).tel = s.tel := rfl

/-! ### `State.setConn` -/

@[simp] theorem State.setConn_pending (s : State) (n : Nat) (x : Conn) : (s.setConn n x).pending = s.pending := rfl
@[simp] theorem State.setConn_free (s : State) (n : Nat) (x : Conn) : (s.setConn n x).free = s.free := rfl
@[simp] theorem State.setConn_fuses (s : State) (n : Nat) (x : Conn) : (s.setConn n x).fuses = s.fuses := rfl
@[simp] theorem State.setConn_lic (s : State) (n : Nat) (x : Conn) : (s.setConn n x).lic = s.lic := rfl
@[simp] theorem State.setConn_regs (s : State) (n : Nat) (x : Conn) : (s.setConn n x).regs = s.regs := rfl
@[simp] theorem State.setConn_latches (s : State) (n : Nat) (x : Conn) : (s.setConn n x).latches = s.latches := rfl
@[simp] theorem State.setConn_guards (s : State) (n : Nat) (x : Conn) : (s.setConn n x).guards = s.guards := rfl
@[simp] theorem State.setConn_commitMask (s : State) (n : Nat) (x : Conn) : (s.setConn n x).commitMask = s.commitMask := rfl
@[simp] theorem State.setConn_commitRefused (s : State) (n : Nat) (x : Conn) : (s.setConn n x).commitRefused = s.commitRefused := rfl
@[simp] theorem State.setConn_commitCount (s : State) (n : Nat) (x : Conn) : (s.setConn n x).commitCount = s.commitCount := rfl
@[simp] theorem State.setConn_events (s : State) (n : Nat) (x : Conn) : (s.setConn n x).events = s.events := rfl
@[simp] theorem State.setConn_loader (s : State) (n : Nat) (x : Conn) : (s.setConn n x).loader = s.loader := rfl
@[simp] theorem State.setConn_trans (s : State) (n : Nat) (x : Conn) : (s.setConn n x).trans = s.trans := rfl
@[simp] theorem State.setConn_tiers (s : State) (n : Nat) (x : Conn) : (s.setConn n x).tiers = s.tiers := rfl
@[simp] theorem State.setConn_mem (s : State) (n : Nat) (x : Conn) : (s.setConn n x).mem = s.mem := rfl
@[simp] theorem State.setConn_chaff (s : State) (n : Nat) (x : Conn) : (s.setConn n x).chaff = s.chaff := rfl
@[simp] theorem State.setConn_ue (s : State) (n : Nat) (x : Conn) : (s.setConn n x).ue = s.ue := rfl
@[simp] theorem State.setConn_cores (s : State) (n : Nat) (x : Conn) : (s.setConn n x).cores = s.cores := rfl
@[simp] theorem State.setConn_bays (s : State) (n : Nat) (x : Conn) : (s.setConn n x).bays = s.bays := rfl
@[simp] theorem State.setConn_batchers (s : State) (n : Nat) (x : Conn) : (s.setConn n x).batchers = s.batchers := rfl
@[simp] theorem State.setConn_insts (s : State) (n : Nat) (x : Conn) : (s.setConn n x).insts = s.insts := rfl
@[simp] theorem State.setConn_nextInst (s : State) (n : Nat) (x : Conn) : (s.setConn n x).nextInst = s.nextInst := rfl
@[simp] theorem State.setConn_queues (s : State) (n : Nat) (x : Conn) : (s.setConn n x).queues = s.queues := rfl
@[simp] theorem State.setConn_streams (s : State) (n : Nat) (x : Conn) : (s.setConn n x).streams = s.streams := rfl
@[simp] theorem State.setConn_seqs (s : State) (n : Nat) (x : Conn) : (s.setConn n x).seqs = s.seqs := rfl
@[simp] theorem State.setConn_engines (s : State) (n : Nat) (x : Conn) : (s.setConn n x).engines = s.engines := rfl
@[simp] theorem State.setConn_audio (s : State) (n : Nat) (x : Conn) : (s.setConn n x).audio = s.audio := rfl
@[simp] theorem State.setConn_vane (s : State) (n : Nat) (x : Conn) : (s.setConn n x).vane = s.vane := rfl
@[simp] theorem State.setConn_pmc (s : State) (n : Nat) (x : Conn) : (s.setConn n x).pmc = s.pmc := rfl
@[simp] theorem State.setConn_power (s : State) (n : Nat) (x : Conn) : (s.setConn n x).power = s.power := rfl
@[simp] theorem State.setConn_tap (s : State) (n : Nat) (x : Conn) : (s.setConn n x).tap = s.tap := rfl
@[simp] theorem State.setConn_sec (s : State) (n : Nat) (x : Conn) : (s.setConn n x).sec = s.sec := rfl
@[simp] theorem State.setConn_tel (s : State) (n : Nat) (x : Conn) : (s.setConn n x).tel = s.tel := rfl

/-! ### `State.setPort` -/

@[simp] theorem State.setPort_pending (s : State) (x : Port) : (s.setPort x).pending = s.pending := rfl
@[simp] theorem State.setPort_free (s : State) (x : Port) : (s.setPort x).free = s.free := rfl
@[simp] theorem State.setPort_fuses (s : State) (x : Port) : (s.setPort x).fuses = s.fuses := rfl
@[simp] theorem State.setPort_lic (s : State) (x : Port) : (s.setPort x).lic = s.lic := rfl
@[simp] theorem State.setPort_regs (s : State) (x : Port) : (s.setPort x).regs = s.regs := rfl
@[simp] theorem State.setPort_latches (s : State) (x : Port) : (s.setPort x).latches = s.latches := rfl
@[simp] theorem State.setPort_guards (s : State) (x : Port) : (s.setPort x).guards = s.guards := rfl
@[simp] theorem State.setPort_commitMask (s : State) (x : Port) : (s.setPort x).commitMask = s.commitMask := rfl
@[simp] theorem State.setPort_commitRefused (s : State) (x : Port) : (s.setPort x).commitRefused = s.commitRefused := rfl
@[simp] theorem State.setPort_commitCount (s : State) (x : Port) : (s.setPort x).commitCount = s.commitCount := rfl
@[simp] theorem State.setPort_events (s : State) (x : Port) : (s.setPort x).events = s.events := rfl
@[simp] theorem State.setPort_loader (s : State) (x : Port) : (s.setPort x).loader = s.loader := rfl
@[simp] theorem State.setPort_trans (s : State) (x : Port) : (s.setPort x).trans = s.trans := rfl
@[simp] theorem State.setPort_tiers (s : State) (x : Port) : (s.setPort x).tiers = s.tiers := rfl
@[simp] theorem State.setPort_mem (s : State) (x : Port) : (s.setPort x).mem = s.mem := rfl
@[simp] theorem State.setPort_chaff (s : State) (x : Port) : (s.setPort x).chaff = s.chaff := rfl
@[simp] theorem State.setPort_ue (s : State) (x : Port) : (s.setPort x).ue = s.ue := rfl
@[simp] theorem State.setPort_cores (s : State) (x : Port) : (s.setPort x).cores = s.cores := rfl
@[simp] theorem State.setPort_bays (s : State) (x : Port) : (s.setPort x).bays = s.bays := rfl
@[simp] theorem State.setPort_batchers (s : State) (x : Port) : (s.setPort x).batchers = s.batchers := rfl
@[simp] theorem State.setPort_insts (s : State) (x : Port) : (s.setPort x).insts = s.insts := rfl
@[simp] theorem State.setPort_nextInst (s : State) (x : Port) : (s.setPort x).nextInst = s.nextInst := rfl
@[simp] theorem State.setPort_queues (s : State) (x : Port) : (s.setPort x).queues = s.queues := rfl
@[simp] theorem State.setPort_streams (s : State) (x : Port) : (s.setPort x).streams = s.streams := rfl
@[simp] theorem State.setPort_seqs (s : State) (x : Port) : (s.setPort x).seqs = s.seqs := rfl
@[simp] theorem State.setPort_engines (s : State) (x : Port) : (s.setPort x).engines = s.engines := rfl
@[simp] theorem State.setPort_audio (s : State) (x : Port) : (s.setPort x).audio = s.audio := rfl
@[simp] theorem State.setPort_vane (s : State) (x : Port) : (s.setPort x).vane = s.vane := rfl
@[simp] theorem State.setPort_pmc (s : State) (x : Port) : (s.setPort x).pmc = s.pmc := rfl
@[simp] theorem State.setPort_power (s : State) (x : Port) : (s.setPort x).power = s.power := rfl
@[simp] theorem State.setPort_tap (s : State) (x : Port) : (s.setPort x).tap = s.tap := rfl
@[simp] theorem State.setPort_sec (s : State) (x : Port) : (s.setPort x).sec = s.sec := rfl
@[simp] theorem State.setPort_tel (s : State) (x : Port) : (s.setPort x).tel = s.tel := rfl

/-! ### `State.setAport` -/

@[simp] theorem State.setAport_pending (s : State) (n : Nat) (x : AudioPort) : (s.setAport n x).pending = s.pending := rfl
@[simp] theorem State.setAport_free (s : State) (n : Nat) (x : AudioPort) : (s.setAport n x).free = s.free := rfl
@[simp] theorem State.setAport_fuses (s : State) (n : Nat) (x : AudioPort) : (s.setAport n x).fuses = s.fuses := rfl
@[simp] theorem State.setAport_lic (s : State) (n : Nat) (x : AudioPort) : (s.setAport n x).lic = s.lic := rfl
@[simp] theorem State.setAport_regs (s : State) (n : Nat) (x : AudioPort) : (s.setAport n x).regs = s.regs := rfl
@[simp] theorem State.setAport_latches (s : State) (n : Nat) (x : AudioPort) : (s.setAport n x).latches = s.latches := rfl
@[simp] theorem State.setAport_guards (s : State) (n : Nat) (x : AudioPort) : (s.setAport n x).guards = s.guards := rfl
@[simp] theorem State.setAport_commitMask (s : State) (n : Nat) (x : AudioPort) : (s.setAport n x).commitMask = s.commitMask := rfl
@[simp] theorem State.setAport_commitRefused (s : State) (n : Nat) (x : AudioPort) : (s.setAport n x).commitRefused = s.commitRefused := rfl
@[simp] theorem State.setAport_commitCount (s : State) (n : Nat) (x : AudioPort) : (s.setAport n x).commitCount = s.commitCount := rfl
@[simp] theorem State.setAport_events (s : State) (n : Nat) (x : AudioPort) : (s.setAport n x).events = s.events := rfl
@[simp] theorem State.setAport_loader (s : State) (n : Nat) (x : AudioPort) : (s.setAport n x).loader = s.loader := rfl
@[simp] theorem State.setAport_trans (s : State) (n : Nat) (x : AudioPort) : (s.setAport n x).trans = s.trans := rfl
@[simp] theorem State.setAport_tiers (s : State) (n : Nat) (x : AudioPort) : (s.setAport n x).tiers = s.tiers := rfl
@[simp] theorem State.setAport_mem (s : State) (n : Nat) (x : AudioPort) : (s.setAport n x).mem = s.mem := rfl
@[simp] theorem State.setAport_chaff (s : State) (n : Nat) (x : AudioPort) : (s.setAport n x).chaff = s.chaff := rfl
@[simp] theorem State.setAport_ue (s : State) (n : Nat) (x : AudioPort) : (s.setAport n x).ue = s.ue := rfl
@[simp] theorem State.setAport_cores (s : State) (n : Nat) (x : AudioPort) : (s.setAport n x).cores = s.cores := rfl
@[simp] theorem State.setAport_bays (s : State) (n : Nat) (x : AudioPort) : (s.setAport n x).bays = s.bays := rfl
@[simp] theorem State.setAport_batchers (s : State) (n : Nat) (x : AudioPort) : (s.setAport n x).batchers = s.batchers := rfl
@[simp] theorem State.setAport_insts (s : State) (n : Nat) (x : AudioPort) : (s.setAport n x).insts = s.insts := rfl
@[simp] theorem State.setAport_nextInst (s : State) (n : Nat) (x : AudioPort) : (s.setAport n x).nextInst = s.nextInst := rfl
@[simp] theorem State.setAport_queues (s : State) (n : Nat) (x : AudioPort) : (s.setAport n x).queues = s.queues := rfl
@[simp] theorem State.setAport_streams (s : State) (n : Nat) (x : AudioPort) : (s.setAport n x).streams = s.streams := rfl
@[simp] theorem State.setAport_seqs (s : State) (n : Nat) (x : AudioPort) : (s.setAport n x).seqs = s.seqs := rfl
@[simp] theorem State.setAport_engines (s : State) (n : Nat) (x : AudioPort) : (s.setAport n x).engines = s.engines := rfl
@[simp] theorem State.setAport_net (s : State) (n : Nat) (x : AudioPort) : (s.setAport n x).net = s.net := rfl
@[simp] theorem State.setAport_vane (s : State) (n : Nat) (x : AudioPort) : (s.setAport n x).vane = s.vane := rfl
@[simp] theorem State.setAport_pmc (s : State) (n : Nat) (x : AudioPort) : (s.setAport n x).pmc = s.pmc := rfl
@[simp] theorem State.setAport_power (s : State) (n : Nat) (x : AudioPort) : (s.setAport n x).power = s.power := rfl
@[simp] theorem State.setAport_tap (s : State) (n : Nat) (x : AudioPort) : (s.setAport n x).tap = s.tap := rfl
@[simp] theorem State.setAport_sec (s : State) (n : Nat) (x : AudioPort) : (s.setAport n x).sec = s.sec := rfl
@[simp] theorem State.setAport_tel (s : State) (n : Nat) (x : AudioPort) : (s.setAport n x).tel = s.tel := rfl

/-! ### `State.setAgroup` -/

@[simp] theorem State.setAgroup_pending (s : State) (n : Nat) (x : AudioGroup) : (s.setAgroup n x).pending = s.pending := rfl
@[simp] theorem State.setAgroup_free (s : State) (n : Nat) (x : AudioGroup) : (s.setAgroup n x).free = s.free := rfl
@[simp] theorem State.setAgroup_fuses (s : State) (n : Nat) (x : AudioGroup) : (s.setAgroup n x).fuses = s.fuses := rfl
@[simp] theorem State.setAgroup_lic (s : State) (n : Nat) (x : AudioGroup) : (s.setAgroup n x).lic = s.lic := rfl
@[simp] theorem State.setAgroup_regs (s : State) (n : Nat) (x : AudioGroup) : (s.setAgroup n x).regs = s.regs := rfl
@[simp] theorem State.setAgroup_latches (s : State) (n : Nat) (x : AudioGroup) : (s.setAgroup n x).latches = s.latches := rfl
@[simp] theorem State.setAgroup_guards (s : State) (n : Nat) (x : AudioGroup) : (s.setAgroup n x).guards = s.guards := rfl
@[simp] theorem State.setAgroup_commitMask (s : State) (n : Nat) (x : AudioGroup) : (s.setAgroup n x).commitMask = s.commitMask := rfl
@[simp] theorem State.setAgroup_commitRefused (s : State) (n : Nat) (x : AudioGroup) : (s.setAgroup n x).commitRefused = s.commitRefused := rfl
@[simp] theorem State.setAgroup_commitCount (s : State) (n : Nat) (x : AudioGroup) : (s.setAgroup n x).commitCount = s.commitCount := rfl
@[simp] theorem State.setAgroup_events (s : State) (n : Nat) (x : AudioGroup) : (s.setAgroup n x).events = s.events := rfl
@[simp] theorem State.setAgroup_loader (s : State) (n : Nat) (x : AudioGroup) : (s.setAgroup n x).loader = s.loader := rfl
@[simp] theorem State.setAgroup_trans (s : State) (n : Nat) (x : AudioGroup) : (s.setAgroup n x).trans = s.trans := rfl
@[simp] theorem State.setAgroup_tiers (s : State) (n : Nat) (x : AudioGroup) : (s.setAgroup n x).tiers = s.tiers := rfl
@[simp] theorem State.setAgroup_mem (s : State) (n : Nat) (x : AudioGroup) : (s.setAgroup n x).mem = s.mem := rfl
@[simp] theorem State.setAgroup_chaff (s : State) (n : Nat) (x : AudioGroup) : (s.setAgroup n x).chaff = s.chaff := rfl
@[simp] theorem State.setAgroup_ue (s : State) (n : Nat) (x : AudioGroup) : (s.setAgroup n x).ue = s.ue := rfl
@[simp] theorem State.setAgroup_cores (s : State) (n : Nat) (x : AudioGroup) : (s.setAgroup n x).cores = s.cores := rfl
@[simp] theorem State.setAgroup_bays (s : State) (n : Nat) (x : AudioGroup) : (s.setAgroup n x).bays = s.bays := rfl
@[simp] theorem State.setAgroup_batchers (s : State) (n : Nat) (x : AudioGroup) : (s.setAgroup n x).batchers = s.batchers := rfl
@[simp] theorem State.setAgroup_insts (s : State) (n : Nat) (x : AudioGroup) : (s.setAgroup n x).insts = s.insts := rfl
@[simp] theorem State.setAgroup_nextInst (s : State) (n : Nat) (x : AudioGroup) : (s.setAgroup n x).nextInst = s.nextInst := rfl
@[simp] theorem State.setAgroup_queues (s : State) (n : Nat) (x : AudioGroup) : (s.setAgroup n x).queues = s.queues := rfl
@[simp] theorem State.setAgroup_streams (s : State) (n : Nat) (x : AudioGroup) : (s.setAgroup n x).streams = s.streams := rfl
@[simp] theorem State.setAgroup_seqs (s : State) (n : Nat) (x : AudioGroup) : (s.setAgroup n x).seqs = s.seqs := rfl
@[simp] theorem State.setAgroup_engines (s : State) (n : Nat) (x : AudioGroup) : (s.setAgroup n x).engines = s.engines := rfl
@[simp] theorem State.setAgroup_net (s : State) (n : Nat) (x : AudioGroup) : (s.setAgroup n x).net = s.net := rfl
@[simp] theorem State.setAgroup_vane (s : State) (n : Nat) (x : AudioGroup) : (s.setAgroup n x).vane = s.vane := rfl
@[simp] theorem State.setAgroup_pmc (s : State) (n : Nat) (x : AudioGroup) : (s.setAgroup n x).pmc = s.pmc := rfl
@[simp] theorem State.setAgroup_power (s : State) (n : Nat) (x : AudioGroup) : (s.setAgroup n x).power = s.power := rfl
@[simp] theorem State.setAgroup_tap (s : State) (n : Nat) (x : AudioGroup) : (s.setAgroup n x).tap = s.tap := rfl
@[simp] theorem State.setAgroup_sec (s : State) (n : Nat) (x : AudioGroup) : (s.setAgroup n x).sec = s.sec := rfl
@[simp] theorem State.setAgroup_tel (s : State) (n : Nat) (x : AudioGroup) : (s.setAgroup n x).tel = s.tel := rfl

/-! ### `State.send` -/

@[simp] theorem State.send_pending (s : State) (x : Sent) : (s.send x).pending = s.pending := rfl
@[simp] theorem State.send_free (s : State) (x : Sent) : (s.send x).free = s.free := rfl
@[simp] theorem State.send_fuses (s : State) (x : Sent) : (s.send x).fuses = s.fuses := rfl
@[simp] theorem State.send_lic (s : State) (x : Sent) : (s.send x).lic = s.lic := rfl
@[simp] theorem State.send_regs (s : State) (x : Sent) : (s.send x).regs = s.regs := rfl
@[simp] theorem State.send_latches (s : State) (x : Sent) : (s.send x).latches = s.latches := rfl
@[simp] theorem State.send_guards (s : State) (x : Sent) : (s.send x).guards = s.guards := rfl
@[simp] theorem State.send_commitMask (s : State) (x : Sent) : (s.send x).commitMask = s.commitMask := rfl
@[simp] theorem State.send_commitRefused (s : State) (x : Sent) : (s.send x).commitRefused = s.commitRefused := rfl
@[simp] theorem State.send_commitCount (s : State) (x : Sent) : (s.send x).commitCount = s.commitCount := rfl
@[simp] theorem State.send_events (s : State) (x : Sent) : (s.send x).events = s.events := rfl
@[simp] theorem State.send_loader (s : State) (x : Sent) : (s.send x).loader = s.loader := rfl
@[simp] theorem State.send_trans (s : State) (x : Sent) : (s.send x).trans = s.trans := rfl
@[simp] theorem State.send_tiers (s : State) (x : Sent) : (s.send x).tiers = s.tiers := rfl
@[simp] theorem State.send_mem (s : State) (x : Sent) : (s.send x).mem = s.mem := rfl
@[simp] theorem State.send_chaff (s : State) (x : Sent) : (s.send x).chaff = s.chaff := rfl
@[simp] theorem State.send_ue (s : State) (x : Sent) : (s.send x).ue = s.ue := rfl
@[simp] theorem State.send_cores (s : State) (x : Sent) : (s.send x).cores = s.cores := rfl
@[simp] theorem State.send_bays (s : State) (x : Sent) : (s.send x).bays = s.bays := rfl
@[simp] theorem State.send_batchers (s : State) (x : Sent) : (s.send x).batchers = s.batchers := rfl
@[simp] theorem State.send_insts (s : State) (x : Sent) : (s.send x).insts = s.insts := rfl
@[simp] theorem State.send_nextInst (s : State) (x : Sent) : (s.send x).nextInst = s.nextInst := rfl
@[simp] theorem State.send_queues (s : State) (x : Sent) : (s.send x).queues = s.queues := rfl
@[simp] theorem State.send_streams (s : State) (x : Sent) : (s.send x).streams = s.streams := rfl
@[simp] theorem State.send_seqs (s : State) (x : Sent) : (s.send x).seqs = s.seqs := rfl
@[simp] theorem State.send_engines (s : State) (x : Sent) : (s.send x).engines = s.engines := rfl
@[simp] theorem State.send_audio (s : State) (x : Sent) : (s.send x).audio = s.audio := rfl
@[simp] theorem State.send_vane (s : State) (x : Sent) : (s.send x).vane = s.vane := rfl
@[simp] theorem State.send_pmc (s : State) (x : Sent) : (s.send x).pmc = s.pmc := rfl
@[simp] theorem State.send_power (s : State) (x : Sent) : (s.send x).power = s.power := rfl
@[simp] theorem State.send_tap (s : State) (x : Sent) : (s.send x).tap = s.tap := rfl
@[simp] theorem State.send_sec (s : State) (x : Sent) : (s.send x).sec = s.sec := rfl
@[simp] theorem State.send_tel (s : State) (x : Sent) : (s.send x).tel = s.tel := rfl

/-! ### `State.sendItem` -/

@[simp] theorem State.sendItem_pending (s : State) (x : SentItem) : (s.sendItem x).pending = s.pending := rfl
@[simp] theorem State.sendItem_free (s : State) (x : SentItem) : (s.sendItem x).free = s.free := rfl
@[simp] theorem State.sendItem_fuses (s : State) (x : SentItem) : (s.sendItem x).fuses = s.fuses := rfl
@[simp] theorem State.sendItem_lic (s : State) (x : SentItem) : (s.sendItem x).lic = s.lic := rfl
@[simp] theorem State.sendItem_regs (s : State) (x : SentItem) : (s.sendItem x).regs = s.regs := rfl
@[simp] theorem State.sendItem_latches (s : State) (x : SentItem) : (s.sendItem x).latches = s.latches := rfl
@[simp] theorem State.sendItem_guards (s : State) (x : SentItem) : (s.sendItem x).guards = s.guards := rfl
@[simp] theorem State.sendItem_commitMask (s : State) (x : SentItem) : (s.sendItem x).commitMask = s.commitMask := rfl
@[simp] theorem State.sendItem_commitRefused (s : State) (x : SentItem) : (s.sendItem x).commitRefused = s.commitRefused := rfl
@[simp] theorem State.sendItem_commitCount (s : State) (x : SentItem) : (s.sendItem x).commitCount = s.commitCount := rfl
@[simp] theorem State.sendItem_events (s : State) (x : SentItem) : (s.sendItem x).events = s.events := rfl
@[simp] theorem State.sendItem_loader (s : State) (x : SentItem) : (s.sendItem x).loader = s.loader := rfl
@[simp] theorem State.sendItem_trans (s : State) (x : SentItem) : (s.sendItem x).trans = s.trans := rfl
@[simp] theorem State.sendItem_tiers (s : State) (x : SentItem) : (s.sendItem x).tiers = s.tiers := rfl
@[simp] theorem State.sendItem_mem (s : State) (x : SentItem) : (s.sendItem x).mem = s.mem := rfl
@[simp] theorem State.sendItem_chaff (s : State) (x : SentItem) : (s.sendItem x).chaff = s.chaff := rfl
@[simp] theorem State.sendItem_ue (s : State) (x : SentItem) : (s.sendItem x).ue = s.ue := rfl
@[simp] theorem State.sendItem_cores (s : State) (x : SentItem) : (s.sendItem x).cores = s.cores := rfl
@[simp] theorem State.sendItem_bays (s : State) (x : SentItem) : (s.sendItem x).bays = s.bays := rfl
@[simp] theorem State.sendItem_batchers (s : State) (x : SentItem) : (s.sendItem x).batchers = s.batchers := rfl
@[simp] theorem State.sendItem_insts (s : State) (x : SentItem) : (s.sendItem x).insts = s.insts := rfl
@[simp] theorem State.sendItem_nextInst (s : State) (x : SentItem) : (s.sendItem x).nextInst = s.nextInst := rfl
@[simp] theorem State.sendItem_queues (s : State) (x : SentItem) : (s.sendItem x).queues = s.queues := rfl
@[simp] theorem State.sendItem_streams (s : State) (x : SentItem) : (s.sendItem x).streams = s.streams := rfl
@[simp] theorem State.sendItem_seqs (s : State) (x : SentItem) : (s.sendItem x).seqs = s.seqs := rfl
@[simp] theorem State.sendItem_engines (s : State) (x : SentItem) : (s.sendItem x).engines = s.engines := rfl
@[simp] theorem State.sendItem_audio (s : State) (x : SentItem) : (s.sendItem x).audio = s.audio := rfl
@[simp] theorem State.sendItem_vane (s : State) (x : SentItem) : (s.sendItem x).vane = s.vane := rfl
@[simp] theorem State.sendItem_pmc (s : State) (x : SentItem) : (s.sendItem x).pmc = s.pmc := rfl
@[simp] theorem State.sendItem_power (s : State) (x : SentItem) : (s.sendItem x).power = s.power := rfl
@[simp] theorem State.sendItem_tap (s : State) (x : SentItem) : (s.sendItem x).tap = s.tap := rfl
@[simp] theorem State.sendItem_sec (s : State) (x : SentItem) : (s.sendItem x).sec = s.sec := rfl
@[simp] theorem State.sendItem_tel (s : State) (x : SentItem) : (s.sendItem x).tel = s.tel := rfl

/-! ### `State.setReg` -/

@[simp] theorem State.setReg_pending (s : State) (key : Nat) (v : Word) : (s.setReg key v).pending = s.pending := rfl
@[simp] theorem State.setReg_free (s : State) (key : Nat) (v : Word) : (s.setReg key v).free = s.free := rfl
@[simp] theorem State.setReg_fuses (s : State) (key : Nat) (v : Word) : (s.setReg key v).fuses = s.fuses := rfl
@[simp] theorem State.setReg_lic (s : State) (key : Nat) (v : Word) : (s.setReg key v).lic = s.lic := rfl
@[simp] theorem State.setReg_latches (s : State) (key : Nat) (v : Word) : (s.setReg key v).latches = s.latches := rfl
@[simp] theorem State.setReg_guards (s : State) (key : Nat) (v : Word) : (s.setReg key v).guards = s.guards := rfl
@[simp] theorem State.setReg_commitMask (s : State) (key : Nat) (v : Word) : (s.setReg key v).commitMask = s.commitMask := rfl
@[simp] theorem State.setReg_commitRefused (s : State) (key : Nat) (v : Word) : (s.setReg key v).commitRefused = s.commitRefused := rfl
@[simp] theorem State.setReg_commitCount (s : State) (key : Nat) (v : Word) : (s.setReg key v).commitCount = s.commitCount := rfl
@[simp] theorem State.setReg_events (s : State) (key : Nat) (v : Word) : (s.setReg key v).events = s.events := rfl
@[simp] theorem State.setReg_loader (s : State) (key : Nat) (v : Word) : (s.setReg key v).loader = s.loader := rfl
@[simp] theorem State.setReg_trans (s : State) (key : Nat) (v : Word) : (s.setReg key v).trans = s.trans := rfl
@[simp] theorem State.setReg_tiers (s : State) (key : Nat) (v : Word) : (s.setReg key v).tiers = s.tiers := rfl
@[simp] theorem State.setReg_mem (s : State) (key : Nat) (v : Word) : (s.setReg key v).mem = s.mem := rfl
@[simp] theorem State.setReg_chaff (s : State) (key : Nat) (v : Word) : (s.setReg key v).chaff = s.chaff := rfl
@[simp] theorem State.setReg_ue (s : State) (key : Nat) (v : Word) : (s.setReg key v).ue = s.ue := rfl
@[simp] theorem State.setReg_cores (s : State) (key : Nat) (v : Word) : (s.setReg key v).cores = s.cores := rfl
@[simp] theorem State.setReg_bays (s : State) (key : Nat) (v : Word) : (s.setReg key v).bays = s.bays := rfl
@[simp] theorem State.setReg_batchers (s : State) (key : Nat) (v : Word) : (s.setReg key v).batchers = s.batchers := rfl
@[simp] theorem State.setReg_insts (s : State) (key : Nat) (v : Word) : (s.setReg key v).insts = s.insts := rfl
@[simp] theorem State.setReg_nextInst (s : State) (key : Nat) (v : Word) : (s.setReg key v).nextInst = s.nextInst := rfl
@[simp] theorem State.setReg_queues (s : State) (key : Nat) (v : Word) : (s.setReg key v).queues = s.queues := rfl
@[simp] theorem State.setReg_streams (s : State) (key : Nat) (v : Word) : (s.setReg key v).streams = s.streams := rfl
@[simp] theorem State.setReg_seqs (s : State) (key : Nat) (v : Word) : (s.setReg key v).seqs = s.seqs := rfl
@[simp] theorem State.setReg_engines (s : State) (key : Nat) (v : Word) : (s.setReg key v).engines = s.engines := rfl
@[simp] theorem State.setReg_net (s : State) (key : Nat) (v : Word) : (s.setReg key v).net = s.net := rfl
@[simp] theorem State.setReg_audio (s : State) (key : Nat) (v : Word) : (s.setReg key v).audio = s.audio := rfl
@[simp] theorem State.setReg_vane (s : State) (key : Nat) (v : Word) : (s.setReg key v).vane = s.vane := rfl
@[simp] theorem State.setReg_pmc (s : State) (key : Nat) (v : Word) : (s.setReg key v).pmc = s.pmc := rfl
@[simp] theorem State.setReg_power (s : State) (key : Nat) (v : Word) : (s.setReg key v).power = s.power := rfl
@[simp] theorem State.setReg_tap (s : State) (key : Nat) (v : Word) : (s.setReg key v).tap = s.tap := rfl
@[simp] theorem State.setReg_sec (s : State) (key : Nat) (v : Word) : (s.setReg key v).sec = s.sec := rfl
@[simp] theorem State.setReg_tel (s : State) (key : Nat) (v : Word) : (s.setReg key v).tel = s.tel := rfl

/-! ### `State.stage` -/

@[simp] theorem State.stage_pending (s : State) (key : Nat) (v : Word) : (s.stage key v).pending = s.pending := rfl
@[simp] theorem State.stage_free (s : State) (key : Nat) (v : Word) : (s.stage key v).free = s.free := rfl
@[simp] theorem State.stage_fuses (s : State) (key : Nat) (v : Word) : (s.stage key v).fuses = s.fuses := rfl
@[simp] theorem State.stage_lic (s : State) (key : Nat) (v : Word) : (s.stage key v).lic = s.lic := rfl
@[simp] theorem State.stage_latches (s : State) (key : Nat) (v : Word) : (s.stage key v).latches = s.latches := rfl
@[simp] theorem State.stage_guards (s : State) (key : Nat) (v : Word) : (s.stage key v).guards = s.guards := rfl
@[simp] theorem State.stage_commitMask (s : State) (key : Nat) (v : Word) : (s.stage key v).commitMask = s.commitMask := rfl
@[simp] theorem State.stage_commitRefused (s : State) (key : Nat) (v : Word) : (s.stage key v).commitRefused = s.commitRefused := rfl
@[simp] theorem State.stage_commitCount (s : State) (key : Nat) (v : Word) : (s.stage key v).commitCount = s.commitCount := rfl
@[simp] theorem State.stage_events (s : State) (key : Nat) (v : Word) : (s.stage key v).events = s.events := rfl
@[simp] theorem State.stage_loader (s : State) (key : Nat) (v : Word) : (s.stage key v).loader = s.loader := rfl
@[simp] theorem State.stage_trans (s : State) (key : Nat) (v : Word) : (s.stage key v).trans = s.trans := rfl
@[simp] theorem State.stage_tiers (s : State) (key : Nat) (v : Word) : (s.stage key v).tiers = s.tiers := rfl
@[simp] theorem State.stage_mem (s : State) (key : Nat) (v : Word) : (s.stage key v).mem = s.mem := rfl
@[simp] theorem State.stage_chaff (s : State) (key : Nat) (v : Word) : (s.stage key v).chaff = s.chaff := rfl
@[simp] theorem State.stage_ue (s : State) (key : Nat) (v : Word) : (s.stage key v).ue = s.ue := rfl
@[simp] theorem State.stage_cores (s : State) (key : Nat) (v : Word) : (s.stage key v).cores = s.cores := rfl
@[simp] theorem State.stage_bays (s : State) (key : Nat) (v : Word) : (s.stage key v).bays = s.bays := rfl
@[simp] theorem State.stage_batchers (s : State) (key : Nat) (v : Word) : (s.stage key v).batchers = s.batchers := rfl
@[simp] theorem State.stage_insts (s : State) (key : Nat) (v : Word) : (s.stage key v).insts = s.insts := rfl
@[simp] theorem State.stage_nextInst (s : State) (key : Nat) (v : Word) : (s.stage key v).nextInst = s.nextInst := rfl
@[simp] theorem State.stage_queues (s : State) (key : Nat) (v : Word) : (s.stage key v).queues = s.queues := rfl
@[simp] theorem State.stage_streams (s : State) (key : Nat) (v : Word) : (s.stage key v).streams = s.streams := rfl
@[simp] theorem State.stage_seqs (s : State) (key : Nat) (v : Word) : (s.stage key v).seqs = s.seqs := rfl
@[simp] theorem State.stage_engines (s : State) (key : Nat) (v : Word) : (s.stage key v).engines = s.engines := rfl
@[simp] theorem State.stage_net (s : State) (key : Nat) (v : Word) : (s.stage key v).net = s.net := rfl
@[simp] theorem State.stage_audio (s : State) (key : Nat) (v : Word) : (s.stage key v).audio = s.audio := rfl
@[simp] theorem State.stage_vane (s : State) (key : Nat) (v : Word) : (s.stage key v).vane = s.vane := rfl
@[simp] theorem State.stage_pmc (s : State) (key : Nat) (v : Word) : (s.stage key v).pmc = s.pmc := rfl
@[simp] theorem State.stage_power (s : State) (key : Nat) (v : Word) : (s.stage key v).power = s.power := rfl
@[simp] theorem State.stage_tap (s : State) (key : Nat) (v : Word) : (s.stage key v).tap = s.tap := rfl
@[simp] theorem State.stage_sec (s : State) (key : Nat) (v : Word) : (s.stage key v).sec = s.sec := rfl
@[simp] theorem State.stage_tel (s : State) (key : Nat) (v : Word) : (s.stage key v).tel = s.tel := rfl

/-! ### `State.applyWhere` -/

@[simp] theorem State.applyWhere_pending (s : State) (p : Nat → Bool) : (s.applyWhere p).pending = s.pending := rfl
@[simp] theorem State.applyWhere_free (s : State) (p : Nat → Bool) : (s.applyWhere p).free = s.free := rfl
@[simp] theorem State.applyWhere_fuses (s : State) (p : Nat → Bool) : (s.applyWhere p).fuses = s.fuses := rfl
@[simp] theorem State.applyWhere_lic (s : State) (p : Nat → Bool) : (s.applyWhere p).lic = s.lic := rfl
@[simp] theorem State.applyWhere_latches (s : State) (p : Nat → Bool) : (s.applyWhere p).latches = s.latches := rfl
@[simp] theorem State.applyWhere_guards (s : State) (p : Nat → Bool) : (s.applyWhere p).guards = s.guards := rfl
@[simp] theorem State.applyWhere_commitMask (s : State) (p : Nat → Bool) : (s.applyWhere p).commitMask = s.commitMask := rfl
@[simp] theorem State.applyWhere_commitRefused (s : State) (p : Nat → Bool) : (s.applyWhere p).commitRefused = s.commitRefused := rfl
@[simp] theorem State.applyWhere_commitCount (s : State) (p : Nat → Bool) : (s.applyWhere p).commitCount = s.commitCount := rfl
@[simp] theorem State.applyWhere_events (s : State) (p : Nat → Bool) : (s.applyWhere p).events = s.events := rfl
@[simp] theorem State.applyWhere_loader (s : State) (p : Nat → Bool) : (s.applyWhere p).loader = s.loader := rfl
@[simp] theorem State.applyWhere_trans (s : State) (p : Nat → Bool) : (s.applyWhere p).trans = s.trans := rfl
@[simp] theorem State.applyWhere_tiers (s : State) (p : Nat → Bool) : (s.applyWhere p).tiers = s.tiers := rfl
@[simp] theorem State.applyWhere_mem (s : State) (p : Nat → Bool) : (s.applyWhere p).mem = s.mem := rfl
@[simp] theorem State.applyWhere_chaff (s : State) (p : Nat → Bool) : (s.applyWhere p).chaff = s.chaff := rfl
@[simp] theorem State.applyWhere_ue (s : State) (p : Nat → Bool) : (s.applyWhere p).ue = s.ue := rfl
@[simp] theorem State.applyWhere_cores (s : State) (p : Nat → Bool) : (s.applyWhere p).cores = s.cores := rfl
@[simp] theorem State.applyWhere_bays (s : State) (p : Nat → Bool) : (s.applyWhere p).bays = s.bays := rfl
@[simp] theorem State.applyWhere_batchers (s : State) (p : Nat → Bool) : (s.applyWhere p).batchers = s.batchers := rfl
@[simp] theorem State.applyWhere_insts (s : State) (p : Nat → Bool) : (s.applyWhere p).insts = s.insts := rfl
@[simp] theorem State.applyWhere_nextInst (s : State) (p : Nat → Bool) : (s.applyWhere p).nextInst = s.nextInst := rfl
@[simp] theorem State.applyWhere_queues (s : State) (p : Nat → Bool) : (s.applyWhere p).queues = s.queues := rfl
@[simp] theorem State.applyWhere_streams (s : State) (p : Nat → Bool) : (s.applyWhere p).streams = s.streams := rfl
@[simp] theorem State.applyWhere_seqs (s : State) (p : Nat → Bool) : (s.applyWhere p).seqs = s.seqs := rfl
@[simp] theorem State.applyWhere_engines (s : State) (p : Nat → Bool) : (s.applyWhere p).engines = s.engines := rfl
@[simp] theorem State.applyWhere_net (s : State) (p : Nat → Bool) : (s.applyWhere p).net = s.net := rfl
@[simp] theorem State.applyWhere_audio (s : State) (p : Nat → Bool) : (s.applyWhere p).audio = s.audio := rfl
@[simp] theorem State.applyWhere_vane (s : State) (p : Nat → Bool) : (s.applyWhere p).vane = s.vane := rfl
@[simp] theorem State.applyWhere_pmc (s : State) (p : Nat → Bool) : (s.applyWhere p).pmc = s.pmc := rfl
@[simp] theorem State.applyWhere_power (s : State) (p : Nat → Bool) : (s.applyWhere p).power = s.power := rfl
@[simp] theorem State.applyWhere_tap (s : State) (p : Nat → Bool) : (s.applyWhere p).tap = s.tap := rfl
@[simp] theorem State.applyWhere_sec (s : State) (p : Nat → Bool) : (s.applyWhere p).sec = s.sec := rfl
@[simp] theorem State.applyWhere_tel (s : State) (p : Nat → Bool) : (s.applyWhere p).tel = s.tel := rfl

/-! ### `State.latch` -/

@[simp] theorem State.latch_pending (s : State) (a i : Nat) : (s.latch a i).pending = s.pending := rfl
@[simp] theorem State.latch_free (s : State) (a i : Nat) : (s.latch a i).free = s.free := rfl
@[simp] theorem State.latch_fuses (s : State) (a i : Nat) : (s.latch a i).fuses = s.fuses := rfl
@[simp] theorem State.latch_lic (s : State) (a i : Nat) : (s.latch a i).lic = s.lic := rfl
@[simp] theorem State.latch_regs (s : State) (a i : Nat) : (s.latch a i).regs = s.regs := rfl
@[simp] theorem State.latch_guards (s : State) (a i : Nat) : (s.latch a i).guards = s.guards := rfl
@[simp] theorem State.latch_commitMask (s : State) (a i : Nat) : (s.latch a i).commitMask = s.commitMask := rfl
@[simp] theorem State.latch_commitRefused (s : State) (a i : Nat) : (s.latch a i).commitRefused = s.commitRefused := rfl
@[simp] theorem State.latch_commitCount (s : State) (a i : Nat) : (s.latch a i).commitCount = s.commitCount := rfl
@[simp] theorem State.latch_events (s : State) (a i : Nat) : (s.latch a i).events = s.events := rfl
@[simp] theorem State.latch_loader (s : State) (a i : Nat) : (s.latch a i).loader = s.loader := rfl
@[simp] theorem State.latch_trans (s : State) (a i : Nat) : (s.latch a i).trans = s.trans := rfl
@[simp] theorem State.latch_tiers (s : State) (a i : Nat) : (s.latch a i).tiers = s.tiers := rfl
@[simp] theorem State.latch_mem (s : State) (a i : Nat) : (s.latch a i).mem = s.mem := rfl
@[simp] theorem State.latch_chaff (s : State) (a i : Nat) : (s.latch a i).chaff = s.chaff := rfl
@[simp] theorem State.latch_ue (s : State) (a i : Nat) : (s.latch a i).ue = s.ue := rfl
@[simp] theorem State.latch_cores (s : State) (a i : Nat) : (s.latch a i).cores = s.cores := rfl
@[simp] theorem State.latch_bays (s : State) (a i : Nat) : (s.latch a i).bays = s.bays := rfl
@[simp] theorem State.latch_batchers (s : State) (a i : Nat) : (s.latch a i).batchers = s.batchers := rfl
@[simp] theorem State.latch_insts (s : State) (a i : Nat) : (s.latch a i).insts = s.insts := rfl
@[simp] theorem State.latch_nextInst (s : State) (a i : Nat) : (s.latch a i).nextInst = s.nextInst := rfl
@[simp] theorem State.latch_queues (s : State) (a i : Nat) : (s.latch a i).queues = s.queues := rfl
@[simp] theorem State.latch_streams (s : State) (a i : Nat) : (s.latch a i).streams = s.streams := rfl
@[simp] theorem State.latch_seqs (s : State) (a i : Nat) : (s.latch a i).seqs = s.seqs := rfl
@[simp] theorem State.latch_engines (s : State) (a i : Nat) : (s.latch a i).engines = s.engines := rfl
@[simp] theorem State.latch_net (s : State) (a i : Nat) : (s.latch a i).net = s.net := rfl
@[simp] theorem State.latch_audio (s : State) (a i : Nat) : (s.latch a i).audio = s.audio := rfl
@[simp] theorem State.latch_vane (s : State) (a i : Nat) : (s.latch a i).vane = s.vane := rfl
@[simp] theorem State.latch_pmc (s : State) (a i : Nat) : (s.latch a i).pmc = s.pmc := rfl
@[simp] theorem State.latch_power (s : State) (a i : Nat) : (s.latch a i).power = s.power := rfl
@[simp] theorem State.latch_tap (s : State) (a i : Nat) : (s.latch a i).tap = s.tap := rfl
@[simp] theorem State.latch_sec (s : State) (a i : Nat) : (s.latch a i).sec = s.sec := rfl
@[simp] theorem State.latch_tel (s : State) (a i : Nat) : (s.latch a i).tel = s.tel := rfl

/-! ### `State.unlatch` -/

@[simp] theorem State.unlatch_pending (s : State) (a i : Nat) : (s.unlatch a i).pending = s.pending := rfl
@[simp] theorem State.unlatch_free (s : State) (a i : Nat) : (s.unlatch a i).free = s.free := rfl
@[simp] theorem State.unlatch_fuses (s : State) (a i : Nat) : (s.unlatch a i).fuses = s.fuses := rfl
@[simp] theorem State.unlatch_lic (s : State) (a i : Nat) : (s.unlatch a i).lic = s.lic := rfl
@[simp] theorem State.unlatch_regs (s : State) (a i : Nat) : (s.unlatch a i).regs = s.regs := rfl
@[simp] theorem State.unlatch_guards (s : State) (a i : Nat) : (s.unlatch a i).guards = s.guards := rfl
@[simp] theorem State.unlatch_commitMask (s : State) (a i : Nat) : (s.unlatch a i).commitMask = s.commitMask := rfl
@[simp] theorem State.unlatch_commitRefused (s : State) (a i : Nat) : (s.unlatch a i).commitRefused = s.commitRefused := rfl
@[simp] theorem State.unlatch_commitCount (s : State) (a i : Nat) : (s.unlatch a i).commitCount = s.commitCount := rfl
@[simp] theorem State.unlatch_events (s : State) (a i : Nat) : (s.unlatch a i).events = s.events := rfl
@[simp] theorem State.unlatch_loader (s : State) (a i : Nat) : (s.unlatch a i).loader = s.loader := rfl
@[simp] theorem State.unlatch_trans (s : State) (a i : Nat) : (s.unlatch a i).trans = s.trans := rfl
@[simp] theorem State.unlatch_tiers (s : State) (a i : Nat) : (s.unlatch a i).tiers = s.tiers := rfl
@[simp] theorem State.unlatch_mem (s : State) (a i : Nat) : (s.unlatch a i).mem = s.mem := rfl
@[simp] theorem State.unlatch_chaff (s : State) (a i : Nat) : (s.unlatch a i).chaff = s.chaff := rfl
@[simp] theorem State.unlatch_ue (s : State) (a i : Nat) : (s.unlatch a i).ue = s.ue := rfl
@[simp] theorem State.unlatch_cores (s : State) (a i : Nat) : (s.unlatch a i).cores = s.cores := rfl
@[simp] theorem State.unlatch_bays (s : State) (a i : Nat) : (s.unlatch a i).bays = s.bays := rfl
@[simp] theorem State.unlatch_batchers (s : State) (a i : Nat) : (s.unlatch a i).batchers = s.batchers := rfl
@[simp] theorem State.unlatch_insts (s : State) (a i : Nat) : (s.unlatch a i).insts = s.insts := rfl
@[simp] theorem State.unlatch_nextInst (s : State) (a i : Nat) : (s.unlatch a i).nextInst = s.nextInst := rfl
@[simp] theorem State.unlatch_queues (s : State) (a i : Nat) : (s.unlatch a i).queues = s.queues := rfl
@[simp] theorem State.unlatch_streams (s : State) (a i : Nat) : (s.unlatch a i).streams = s.streams := rfl
@[simp] theorem State.unlatch_seqs (s : State) (a i : Nat) : (s.unlatch a i).seqs = s.seqs := rfl
@[simp] theorem State.unlatch_engines (s : State) (a i : Nat) : (s.unlatch a i).engines = s.engines := rfl
@[simp] theorem State.unlatch_net (s : State) (a i : Nat) : (s.unlatch a i).net = s.net := rfl
@[simp] theorem State.unlatch_audio (s : State) (a i : Nat) : (s.unlatch a i).audio = s.audio := rfl
@[simp] theorem State.unlatch_vane (s : State) (a i : Nat) : (s.unlatch a i).vane = s.vane := rfl
@[simp] theorem State.unlatch_pmc (s : State) (a i : Nat) : (s.unlatch a i).pmc = s.pmc := rfl
@[simp] theorem State.unlatch_power (s : State) (a i : Nat) : (s.unlatch a i).power = s.power := rfl
@[simp] theorem State.unlatch_tap (s : State) (a i : Nat) : (s.unlatch a i).tap = s.tap := rfl
@[simp] theorem State.unlatch_sec (s : State) (a i : Nat) : (s.unlatch a i).sec = s.sec := rfl
@[simp] theorem State.unlatch_tel (s : State) (a i : Nat) : (s.unlatch a i).tel = s.tel := rfl

/-! ### `State.closeGuard` -/

@[simp] theorem State.closeGuard_pending (s : State) (src : Source) : (s.closeGuard src).pending = s.pending := rfl
@[simp] theorem State.closeGuard_free (s : State) (src : Source) : (s.closeGuard src).free = s.free := rfl
@[simp] theorem State.closeGuard_fuses (s : State) (src : Source) : (s.closeGuard src).fuses = s.fuses := rfl
@[simp] theorem State.closeGuard_lic (s : State) (src : Source) : (s.closeGuard src).lic = s.lic := rfl
@[simp] theorem State.closeGuard_regs (s : State) (src : Source) : (s.closeGuard src).regs = s.regs := rfl
@[simp] theorem State.closeGuard_latches (s : State) (src : Source) : (s.closeGuard src).latches = s.latches := rfl
@[simp] theorem State.closeGuard_commitMask (s : State) (src : Source) : (s.closeGuard src).commitMask = s.commitMask := rfl
@[simp] theorem State.closeGuard_commitRefused (s : State) (src : Source) : (s.closeGuard src).commitRefused = s.commitRefused := rfl
@[simp] theorem State.closeGuard_commitCount (s : State) (src : Source) : (s.closeGuard src).commitCount = s.commitCount := rfl
@[simp] theorem State.closeGuard_events (s : State) (src : Source) : (s.closeGuard src).events = s.events := rfl
@[simp] theorem State.closeGuard_loader (s : State) (src : Source) : (s.closeGuard src).loader = s.loader := rfl
@[simp] theorem State.closeGuard_trans (s : State) (src : Source) : (s.closeGuard src).trans = s.trans := rfl
@[simp] theorem State.closeGuard_tiers (s : State) (src : Source) : (s.closeGuard src).tiers = s.tiers := rfl
@[simp] theorem State.closeGuard_mem (s : State) (src : Source) : (s.closeGuard src).mem = s.mem := rfl
@[simp] theorem State.closeGuard_chaff (s : State) (src : Source) : (s.closeGuard src).chaff = s.chaff := rfl
@[simp] theorem State.closeGuard_ue (s : State) (src : Source) : (s.closeGuard src).ue = s.ue := rfl
@[simp] theorem State.closeGuard_cores (s : State) (src : Source) : (s.closeGuard src).cores = s.cores := rfl
@[simp] theorem State.closeGuard_bays (s : State) (src : Source) : (s.closeGuard src).bays = s.bays := rfl
@[simp] theorem State.closeGuard_batchers (s : State) (src : Source) : (s.closeGuard src).batchers = s.batchers := rfl
@[simp] theorem State.closeGuard_insts (s : State) (src : Source) : (s.closeGuard src).insts = s.insts := rfl
@[simp] theorem State.closeGuard_nextInst (s : State) (src : Source) : (s.closeGuard src).nextInst = s.nextInst := rfl
@[simp] theorem State.closeGuard_queues (s : State) (src : Source) : (s.closeGuard src).queues = s.queues := rfl
@[simp] theorem State.closeGuard_streams (s : State) (src : Source) : (s.closeGuard src).streams = s.streams := rfl
@[simp] theorem State.closeGuard_seqs (s : State) (src : Source) : (s.closeGuard src).seqs = s.seqs := rfl
@[simp] theorem State.closeGuard_engines (s : State) (src : Source) : (s.closeGuard src).engines = s.engines := rfl
@[simp] theorem State.closeGuard_net (s : State) (src : Source) : (s.closeGuard src).net = s.net := rfl
@[simp] theorem State.closeGuard_audio (s : State) (src : Source) : (s.closeGuard src).audio = s.audio := rfl
@[simp] theorem State.closeGuard_vane (s : State) (src : Source) : (s.closeGuard src).vane = s.vane := rfl
@[simp] theorem State.closeGuard_pmc (s : State) (src : Source) : (s.closeGuard src).pmc = s.pmc := rfl
@[simp] theorem State.closeGuard_power (s : State) (src : Source) : (s.closeGuard src).power = s.power := rfl
@[simp] theorem State.closeGuard_tap (s : State) (src : Source) : (s.closeGuard src).tap = s.tap := rfl
@[simp] theorem State.closeGuard_sec (s : State) (src : Source) : (s.closeGuard src).sec = s.sec := rfl
@[simp] theorem State.closeGuard_tel (s : State) (src : Source) : (s.closeGuard src).tel = s.tel := rfl

/-! ### `State.openGuard` -/

@[simp] theorem State.openGuard_pending (s : State) (src : Source) (b : Block) : (s.openGuard src b).pending = s.pending := rfl
@[simp] theorem State.openGuard_free (s : State) (src : Source) (b : Block) : (s.openGuard src b).free = s.free := rfl
@[simp] theorem State.openGuard_fuses (s : State) (src : Source) (b : Block) : (s.openGuard src b).fuses = s.fuses := rfl
@[simp] theorem State.openGuard_lic (s : State) (src : Source) (b : Block) : (s.openGuard src b).lic = s.lic := rfl
@[simp] theorem State.openGuard_regs (s : State) (src : Source) (b : Block) : (s.openGuard src b).regs = s.regs := rfl
@[simp] theorem State.openGuard_latches (s : State) (src : Source) (b : Block) : (s.openGuard src b).latches = s.latches := rfl
@[simp] theorem State.openGuard_commitMask (s : State) (src : Source) (b : Block) : (s.openGuard src b).commitMask = s.commitMask := rfl
@[simp] theorem State.openGuard_commitRefused (s : State) (src : Source) (b : Block) : (s.openGuard src b).commitRefused = s.commitRefused := rfl
@[simp] theorem State.openGuard_commitCount (s : State) (src : Source) (b : Block) : (s.openGuard src b).commitCount = s.commitCount := rfl
@[simp] theorem State.openGuard_events (s : State) (src : Source) (b : Block) : (s.openGuard src b).events = s.events := rfl
@[simp] theorem State.openGuard_loader (s : State) (src : Source) (b : Block) : (s.openGuard src b).loader = s.loader := rfl
@[simp] theorem State.openGuard_trans (s : State) (src : Source) (b : Block) : (s.openGuard src b).trans = s.trans := rfl
@[simp] theorem State.openGuard_tiers (s : State) (src : Source) (b : Block) : (s.openGuard src b).tiers = s.tiers := rfl
@[simp] theorem State.openGuard_mem (s : State) (src : Source) (b : Block) : (s.openGuard src b).mem = s.mem := rfl
@[simp] theorem State.openGuard_chaff (s : State) (src : Source) (b : Block) : (s.openGuard src b).chaff = s.chaff := rfl
@[simp] theorem State.openGuard_ue (s : State) (src : Source) (b : Block) : (s.openGuard src b).ue = s.ue := rfl
@[simp] theorem State.openGuard_cores (s : State) (src : Source) (b : Block) : (s.openGuard src b).cores = s.cores := rfl
@[simp] theorem State.openGuard_bays (s : State) (src : Source) (b : Block) : (s.openGuard src b).bays = s.bays := rfl
@[simp] theorem State.openGuard_batchers (s : State) (src : Source) (b : Block) : (s.openGuard src b).batchers = s.batchers := rfl
@[simp] theorem State.openGuard_insts (s : State) (src : Source) (b : Block) : (s.openGuard src b).insts = s.insts := rfl
@[simp] theorem State.openGuard_nextInst (s : State) (src : Source) (b : Block) : (s.openGuard src b).nextInst = s.nextInst := rfl
@[simp] theorem State.openGuard_queues (s : State) (src : Source) (b : Block) : (s.openGuard src b).queues = s.queues := rfl
@[simp] theorem State.openGuard_streams (s : State) (src : Source) (b : Block) : (s.openGuard src b).streams = s.streams := rfl
@[simp] theorem State.openGuard_seqs (s : State) (src : Source) (b : Block) : (s.openGuard src b).seqs = s.seqs := rfl
@[simp] theorem State.openGuard_engines (s : State) (src : Source) (b : Block) : (s.openGuard src b).engines = s.engines := rfl
@[simp] theorem State.openGuard_net (s : State) (src : Source) (b : Block) : (s.openGuard src b).net = s.net := rfl
@[simp] theorem State.openGuard_audio (s : State) (src : Source) (b : Block) : (s.openGuard src b).audio = s.audio := rfl
@[simp] theorem State.openGuard_vane (s : State) (src : Source) (b : Block) : (s.openGuard src b).vane = s.vane := rfl
@[simp] theorem State.openGuard_pmc (s : State) (src : Source) (b : Block) : (s.openGuard src b).pmc = s.pmc := rfl
@[simp] theorem State.openGuard_power (s : State) (src : Source) (b : Block) : (s.openGuard src b).power = s.power := rfl
@[simp] theorem State.openGuard_tap (s : State) (src : Source) (b : Block) : (s.openGuard src b).tap = s.tap := rfl
@[simp] theorem State.openGuard_sec (s : State) (src : Source) (b : Block) : (s.openGuard src b).sec = s.sec := rfl
@[simp] theorem State.openGuard_tel (s : State) (src : Source) (b : Block) : (s.openGuard src b).tel = s.tel := rfl

/-! ### `State.setPmc` -/

@[simp] theorem State.setPmc_pending (s : State) (x : Pmc) : (s.setPmc x).pending = s.pending := rfl
@[simp] theorem State.setPmc_free (s : State) (x : Pmc) : (s.setPmc x).free = s.free := rfl
@[simp] theorem State.setPmc_fuses (s : State) (x : Pmc) : (s.setPmc x).fuses = s.fuses := rfl
@[simp] theorem State.setPmc_lic (s : State) (x : Pmc) : (s.setPmc x).lic = s.lic := rfl
@[simp] theorem State.setPmc_regs (s : State) (x : Pmc) : (s.setPmc x).regs = s.regs := rfl
@[simp] theorem State.setPmc_latches (s : State) (x : Pmc) : (s.setPmc x).latches = s.latches := rfl
@[simp] theorem State.setPmc_guards (s : State) (x : Pmc) : (s.setPmc x).guards = s.guards := rfl
@[simp] theorem State.setPmc_commitMask (s : State) (x : Pmc) : (s.setPmc x).commitMask = s.commitMask := rfl
@[simp] theorem State.setPmc_commitRefused (s : State) (x : Pmc) : (s.setPmc x).commitRefused = s.commitRefused := rfl
@[simp] theorem State.setPmc_commitCount (s : State) (x : Pmc) : (s.setPmc x).commitCount = s.commitCount := rfl
@[simp] theorem State.setPmc_events (s : State) (x : Pmc) : (s.setPmc x).events = s.events := rfl
@[simp] theorem State.setPmc_loader (s : State) (x : Pmc) : (s.setPmc x).loader = s.loader := rfl
@[simp] theorem State.setPmc_trans (s : State) (x : Pmc) : (s.setPmc x).trans = s.trans := rfl
@[simp] theorem State.setPmc_tiers (s : State) (x : Pmc) : (s.setPmc x).tiers = s.tiers := rfl
@[simp] theorem State.setPmc_mem (s : State) (x : Pmc) : (s.setPmc x).mem = s.mem := rfl
@[simp] theorem State.setPmc_chaff (s : State) (x : Pmc) : (s.setPmc x).chaff = s.chaff := rfl
@[simp] theorem State.setPmc_ue (s : State) (x : Pmc) : (s.setPmc x).ue = s.ue := rfl
@[simp] theorem State.setPmc_cores (s : State) (x : Pmc) : (s.setPmc x).cores = s.cores := rfl
@[simp] theorem State.setPmc_bays (s : State) (x : Pmc) : (s.setPmc x).bays = s.bays := rfl
@[simp] theorem State.setPmc_batchers (s : State) (x : Pmc) : (s.setPmc x).batchers = s.batchers := rfl
@[simp] theorem State.setPmc_insts (s : State) (x : Pmc) : (s.setPmc x).insts = s.insts := rfl
@[simp] theorem State.setPmc_nextInst (s : State) (x : Pmc) : (s.setPmc x).nextInst = s.nextInst := rfl
@[simp] theorem State.setPmc_queues (s : State) (x : Pmc) : (s.setPmc x).queues = s.queues := rfl
@[simp] theorem State.setPmc_streams (s : State) (x : Pmc) : (s.setPmc x).streams = s.streams := rfl
@[simp] theorem State.setPmc_seqs (s : State) (x : Pmc) : (s.setPmc x).seqs = s.seqs := rfl
@[simp] theorem State.setPmc_engines (s : State) (x : Pmc) : (s.setPmc x).engines = s.engines := rfl
@[simp] theorem State.setPmc_net (s : State) (x : Pmc) : (s.setPmc x).net = s.net := rfl
@[simp] theorem State.setPmc_audio (s : State) (x : Pmc) : (s.setPmc x).audio = s.audio := rfl
@[simp] theorem State.setPmc_vane (s : State) (x : Pmc) : (s.setPmc x).vane = s.vane := rfl
@[simp] theorem State.setPmc_power (s : State) (x : Pmc) : (s.setPmc x).power = s.power := rfl
@[simp] theorem State.setPmc_tap (s : State) (x : Pmc) : (s.setPmc x).tap = s.tap := rfl
@[simp] theorem State.setPmc_sec (s : State) (x : Pmc) : (s.setPmc x).sec = s.sec := rfl
@[simp] theorem State.setPmc_tel (s : State) (x : Pmc) : (s.setPmc x).tel = s.tel := rfl

/-! ### `State.setSec` -/

@[simp] theorem State.setSec_pending (s : State) (x : Sec) : (s.setSec x).pending = s.pending := rfl
@[simp] theorem State.setSec_free (s : State) (x : Sec) : (s.setSec x).free = s.free := rfl
@[simp] theorem State.setSec_fuses (s : State) (x : Sec) : (s.setSec x).fuses = s.fuses := rfl
@[simp] theorem State.setSec_lic (s : State) (x : Sec) : (s.setSec x).lic = s.lic := rfl
@[simp] theorem State.setSec_regs (s : State) (x : Sec) : (s.setSec x).regs = s.regs := rfl
@[simp] theorem State.setSec_latches (s : State) (x : Sec) : (s.setSec x).latches = s.latches := rfl
@[simp] theorem State.setSec_guards (s : State) (x : Sec) : (s.setSec x).guards = s.guards := rfl
@[simp] theorem State.setSec_commitMask (s : State) (x : Sec) : (s.setSec x).commitMask = s.commitMask := rfl
@[simp] theorem State.setSec_commitRefused (s : State) (x : Sec) : (s.setSec x).commitRefused = s.commitRefused := rfl
@[simp] theorem State.setSec_commitCount (s : State) (x : Sec) : (s.setSec x).commitCount = s.commitCount := rfl
@[simp] theorem State.setSec_events (s : State) (x : Sec) : (s.setSec x).events = s.events := rfl
@[simp] theorem State.setSec_loader (s : State) (x : Sec) : (s.setSec x).loader = s.loader := rfl
@[simp] theorem State.setSec_trans (s : State) (x : Sec) : (s.setSec x).trans = s.trans := rfl
@[simp] theorem State.setSec_tiers (s : State) (x : Sec) : (s.setSec x).tiers = s.tiers := rfl
@[simp] theorem State.setSec_mem (s : State) (x : Sec) : (s.setSec x).mem = s.mem := rfl
@[simp] theorem State.setSec_chaff (s : State) (x : Sec) : (s.setSec x).chaff = s.chaff := rfl
@[simp] theorem State.setSec_ue (s : State) (x : Sec) : (s.setSec x).ue = s.ue := rfl
@[simp] theorem State.setSec_cores (s : State) (x : Sec) : (s.setSec x).cores = s.cores := rfl
@[simp] theorem State.setSec_bays (s : State) (x : Sec) : (s.setSec x).bays = s.bays := rfl
@[simp] theorem State.setSec_batchers (s : State) (x : Sec) : (s.setSec x).batchers = s.batchers := rfl
@[simp] theorem State.setSec_insts (s : State) (x : Sec) : (s.setSec x).insts = s.insts := rfl
@[simp] theorem State.setSec_nextInst (s : State) (x : Sec) : (s.setSec x).nextInst = s.nextInst := rfl
@[simp] theorem State.setSec_queues (s : State) (x : Sec) : (s.setSec x).queues = s.queues := rfl
@[simp] theorem State.setSec_streams (s : State) (x : Sec) : (s.setSec x).streams = s.streams := rfl
@[simp] theorem State.setSec_seqs (s : State) (x : Sec) : (s.setSec x).seqs = s.seqs := rfl
@[simp] theorem State.setSec_engines (s : State) (x : Sec) : (s.setSec x).engines = s.engines := rfl
@[simp] theorem State.setSec_net (s : State) (x : Sec) : (s.setSec x).net = s.net := rfl
@[simp] theorem State.setSec_audio (s : State) (x : Sec) : (s.setSec x).audio = s.audio := rfl
@[simp] theorem State.setSec_vane (s : State) (x : Sec) : (s.setSec x).vane = s.vane := rfl
@[simp] theorem State.setSec_pmc (s : State) (x : Sec) : (s.setSec x).pmc = s.pmc := rfl
@[simp] theorem State.setSec_power (s : State) (x : Sec) : (s.setSec x).power = s.power := rfl
@[simp] theorem State.setSec_tap (s : State) (x : Sec) : (s.setSec x).tap = s.tap := rfl
@[simp] theorem State.setSec_tel (s : State) (x : Sec) : (s.setSec x).tel = s.tel := rfl

/-! ### `State.setInbox` -/

@[simp] theorem State.setInbox_pending (s : State) (k : Nat) (v : Word) : (s.setInbox k v).pending = s.pending := rfl
@[simp] theorem State.setInbox_free (s : State) (k : Nat) (v : Word) : (s.setInbox k v).free = s.free := rfl
@[simp] theorem State.setInbox_fuses (s : State) (k : Nat) (v : Word) : (s.setInbox k v).fuses = s.fuses := rfl
@[simp] theorem State.setInbox_lic (s : State) (k : Nat) (v : Word) : (s.setInbox k v).lic = s.lic := rfl
@[simp] theorem State.setInbox_regs (s : State) (k : Nat) (v : Word) : (s.setInbox k v).regs = s.regs := rfl
@[simp] theorem State.setInbox_latches (s : State) (k : Nat) (v : Word) : (s.setInbox k v).latches = s.latches := rfl
@[simp] theorem State.setInbox_guards (s : State) (k : Nat) (v : Word) : (s.setInbox k v).guards = s.guards := rfl
@[simp] theorem State.setInbox_commitMask (s : State) (k : Nat) (v : Word) : (s.setInbox k v).commitMask = s.commitMask := rfl
@[simp] theorem State.setInbox_commitRefused (s : State) (k : Nat) (v : Word) : (s.setInbox k v).commitRefused = s.commitRefused := rfl
@[simp] theorem State.setInbox_commitCount (s : State) (k : Nat) (v : Word) : (s.setInbox k v).commitCount = s.commitCount := rfl
@[simp] theorem State.setInbox_events (s : State) (k : Nat) (v : Word) : (s.setInbox k v).events = s.events := rfl
@[simp] theorem State.setInbox_loader (s : State) (k : Nat) (v : Word) : (s.setInbox k v).loader = s.loader := rfl
@[simp] theorem State.setInbox_trans (s : State) (k : Nat) (v : Word) : (s.setInbox k v).trans = s.trans := rfl
@[simp] theorem State.setInbox_tiers (s : State) (k : Nat) (v : Word) : (s.setInbox k v).tiers = s.tiers := rfl
@[simp] theorem State.setInbox_mem (s : State) (k : Nat) (v : Word) : (s.setInbox k v).mem = s.mem := rfl
@[simp] theorem State.setInbox_chaff (s : State) (k : Nat) (v : Word) : (s.setInbox k v).chaff = s.chaff := rfl
@[simp] theorem State.setInbox_ue (s : State) (k : Nat) (v : Word) : (s.setInbox k v).ue = s.ue := rfl
@[simp] theorem State.setInbox_cores (s : State) (k : Nat) (v : Word) : (s.setInbox k v).cores = s.cores := rfl
@[simp] theorem State.setInbox_bays (s : State) (k : Nat) (v : Word) : (s.setInbox k v).bays = s.bays := rfl
@[simp] theorem State.setInbox_batchers (s : State) (k : Nat) (v : Word) : (s.setInbox k v).batchers = s.batchers := rfl
@[simp] theorem State.setInbox_insts (s : State) (k : Nat) (v : Word) : (s.setInbox k v).insts = s.insts := rfl
@[simp] theorem State.setInbox_nextInst (s : State) (k : Nat) (v : Word) : (s.setInbox k v).nextInst = s.nextInst := rfl
@[simp] theorem State.setInbox_queues (s : State) (k : Nat) (v : Word) : (s.setInbox k v).queues = s.queues := rfl
@[simp] theorem State.setInbox_streams (s : State) (k : Nat) (v : Word) : (s.setInbox k v).streams = s.streams := rfl
@[simp] theorem State.setInbox_seqs (s : State) (k : Nat) (v : Word) : (s.setInbox k v).seqs = s.seqs := rfl
@[simp] theorem State.setInbox_engines (s : State) (k : Nat) (v : Word) : (s.setInbox k v).engines = s.engines := rfl
@[simp] theorem State.setInbox_net (s : State) (k : Nat) (v : Word) : (s.setInbox k v).net = s.net := rfl
@[simp] theorem State.setInbox_audio (s : State) (k : Nat) (v : Word) : (s.setInbox k v).audio = s.audio := rfl
@[simp] theorem State.setInbox_pmc (s : State) (k : Nat) (v : Word) : (s.setInbox k v).pmc = s.pmc := rfl
@[simp] theorem State.setInbox_power (s : State) (k : Nat) (v : Word) : (s.setInbox k v).power = s.power := rfl
@[simp] theorem State.setInbox_tap (s : State) (k : Nat) (v : Word) : (s.setInbox k v).tap = s.tap := rfl
@[simp] theorem State.setInbox_sec (s : State) (k : Nat) (v : Word) : (s.setInbox k v).sec = s.sec := rfl
@[simp] theorem State.setInbox_tel (s : State) (k : Nat) (v : Word) : (s.setInbox k v).tel = s.tel := rfl

/-! ### `State.setRing` -/

@[simp] theorem State.setRing_pending (s : State) (r : Nat) (x : SubRing) : (s.setRing r x).pending = s.pending := rfl
@[simp] theorem State.setRing_free (s : State) (r : Nat) (x : SubRing) : (s.setRing r x).free = s.free := rfl
@[simp] theorem State.setRing_fuses (s : State) (r : Nat) (x : SubRing) : (s.setRing r x).fuses = s.fuses := rfl
@[simp] theorem State.setRing_lic (s : State) (r : Nat) (x : SubRing) : (s.setRing r x).lic = s.lic := rfl
@[simp] theorem State.setRing_regs (s : State) (r : Nat) (x : SubRing) : (s.setRing r x).regs = s.regs := rfl
@[simp] theorem State.setRing_latches (s : State) (r : Nat) (x : SubRing) : (s.setRing r x).latches = s.latches := rfl
@[simp] theorem State.setRing_guards (s : State) (r : Nat) (x : SubRing) : (s.setRing r x).guards = s.guards := rfl
@[simp] theorem State.setRing_commitMask (s : State) (r : Nat) (x : SubRing) : (s.setRing r x).commitMask = s.commitMask := rfl
@[simp] theorem State.setRing_commitRefused (s : State) (r : Nat) (x : SubRing) : (s.setRing r x).commitRefused = s.commitRefused := rfl
@[simp] theorem State.setRing_commitCount (s : State) (r : Nat) (x : SubRing) : (s.setRing r x).commitCount = s.commitCount := rfl
@[simp] theorem State.setRing_events (s : State) (r : Nat) (x : SubRing) : (s.setRing r x).events = s.events := rfl
@[simp] theorem State.setRing_loader (s : State) (r : Nat) (x : SubRing) : (s.setRing r x).loader = s.loader := rfl
@[simp] theorem State.setRing_trans (s : State) (r : Nat) (x : SubRing) : (s.setRing r x).trans = s.trans := rfl
@[simp] theorem State.setRing_tiers (s : State) (r : Nat) (x : SubRing) : (s.setRing r x).tiers = s.tiers := rfl
@[simp] theorem State.setRing_mem (s : State) (r : Nat) (x : SubRing) : (s.setRing r x).mem = s.mem := rfl
@[simp] theorem State.setRing_chaff (s : State) (r : Nat) (x : SubRing) : (s.setRing r x).chaff = s.chaff := rfl
@[simp] theorem State.setRing_ue (s : State) (r : Nat) (x : SubRing) : (s.setRing r x).ue = s.ue := rfl
@[simp] theorem State.setRing_cores (s : State) (r : Nat) (x : SubRing) : (s.setRing r x).cores = s.cores := rfl
@[simp] theorem State.setRing_bays (s : State) (r : Nat) (x : SubRing) : (s.setRing r x).bays = s.bays := rfl
@[simp] theorem State.setRing_batchers (s : State) (r : Nat) (x : SubRing) : (s.setRing r x).batchers = s.batchers := rfl
@[simp] theorem State.setRing_insts (s : State) (r : Nat) (x : SubRing) : (s.setRing r x).insts = s.insts := rfl
@[simp] theorem State.setRing_nextInst (s : State) (r : Nat) (x : SubRing) : (s.setRing r x).nextInst = s.nextInst := rfl
@[simp] theorem State.setRing_queues (s : State) (r : Nat) (x : SubRing) : (s.setRing r x).queues = s.queues := rfl
@[simp] theorem State.setRing_streams (s : State) (r : Nat) (x : SubRing) : (s.setRing r x).streams = s.streams := rfl
@[simp] theorem State.setRing_seqs (s : State) (r : Nat) (x : SubRing) : (s.setRing r x).seqs = s.seqs := rfl
@[simp] theorem State.setRing_engines (s : State) (r : Nat) (x : SubRing) : (s.setRing r x).engines = s.engines := rfl
@[simp] theorem State.setRing_net (s : State) (r : Nat) (x : SubRing) : (s.setRing r x).net = s.net := rfl
@[simp] theorem State.setRing_audio (s : State) (r : Nat) (x : SubRing) : (s.setRing r x).audio = s.audio := rfl
@[simp] theorem State.setRing_vane (s : State) (r : Nat) (x : SubRing) : (s.setRing r x).vane = s.vane := rfl
@[simp] theorem State.setRing_pmc (s : State) (r : Nat) (x : SubRing) : (s.setRing r x).pmc = s.pmc := rfl
@[simp] theorem State.setRing_power (s : State) (r : Nat) (x : SubRing) : (s.setRing r x).power = s.power := rfl
@[simp] theorem State.setRing_tap (s : State) (r : Nat) (x : SubRing) : (s.setRing r x).tap = s.tap := rfl
@[simp] theorem State.setRing_sec (s : State) (r : Nat) (x : SubRing) : (s.setRing r x).sec = s.sec := rfl

/-! ### `State.physWrite` -/

@[simp] theorem State.physWrite_pending (s : State) (a : Nat) (bs : Bytes) (c : Bool) : (s.physWrite a bs c).pending = s.pending := rfl
@[simp] theorem State.physWrite_free (s : State) (a : Nat) (bs : Bytes) (c : Bool) : (s.physWrite a bs c).free = s.free := rfl
@[simp] theorem State.physWrite_fuses (s : State) (a : Nat) (bs : Bytes) (c : Bool) : (s.physWrite a bs c).fuses = s.fuses := rfl
@[simp] theorem State.physWrite_lic (s : State) (a : Nat) (bs : Bytes) (c : Bool) : (s.physWrite a bs c).lic = s.lic := rfl
@[simp] theorem State.physWrite_regs (s : State) (a : Nat) (bs : Bytes) (c : Bool) : (s.physWrite a bs c).regs = s.regs := rfl
@[simp] theorem State.physWrite_latches (s : State) (a : Nat) (bs : Bytes) (c : Bool) : (s.physWrite a bs c).latches = s.latches := rfl
@[simp] theorem State.physWrite_guards (s : State) (a : Nat) (bs : Bytes) (c : Bool) : (s.physWrite a bs c).guards = s.guards := rfl
@[simp] theorem State.physWrite_commitMask (s : State) (a : Nat) (bs : Bytes) (c : Bool) : (s.physWrite a bs c).commitMask = s.commitMask := rfl
@[simp] theorem State.physWrite_commitRefused (s : State) (a : Nat) (bs : Bytes) (c : Bool) : (s.physWrite a bs c).commitRefused = s.commitRefused := rfl
@[simp] theorem State.physWrite_commitCount (s : State) (a : Nat) (bs : Bytes) (c : Bool) : (s.physWrite a bs c).commitCount = s.commitCount := rfl
@[simp] theorem State.physWrite_events (s : State) (a : Nat) (bs : Bytes) (c : Bool) : (s.physWrite a bs c).events = s.events := rfl
@[simp] theorem State.physWrite_loader (s : State) (a : Nat) (bs : Bytes) (c : Bool) : (s.physWrite a bs c).loader = s.loader := rfl
@[simp] theorem State.physWrite_trans (s : State) (a : Nat) (bs : Bytes) (c : Bool) : (s.physWrite a bs c).trans = s.trans := rfl
@[simp] theorem State.physWrite_tiers (s : State) (a : Nat) (bs : Bytes) (c : Bool) : (s.physWrite a bs c).tiers = s.tiers := rfl
@[simp] theorem State.physWrite_cores (s : State) (a : Nat) (bs : Bytes) (c : Bool) : (s.physWrite a bs c).cores = s.cores := rfl
@[simp] theorem State.physWrite_bays (s : State) (a : Nat) (bs : Bytes) (c : Bool) : (s.physWrite a bs c).bays = s.bays := rfl
@[simp] theorem State.physWrite_batchers (s : State) (a : Nat) (bs : Bytes) (c : Bool) : (s.physWrite a bs c).batchers = s.batchers := rfl
@[simp] theorem State.physWrite_insts (s : State) (a : Nat) (bs : Bytes) (c : Bool) : (s.physWrite a bs c).insts = s.insts := rfl
@[simp] theorem State.physWrite_nextInst (s : State) (a : Nat) (bs : Bytes) (c : Bool) : (s.physWrite a bs c).nextInst = s.nextInst := rfl
@[simp] theorem State.physWrite_queues (s : State) (a : Nat) (bs : Bytes) (c : Bool) : (s.physWrite a bs c).queues = s.queues := rfl
@[simp] theorem State.physWrite_streams (s : State) (a : Nat) (bs : Bytes) (c : Bool) : (s.physWrite a bs c).streams = s.streams := rfl
@[simp] theorem State.physWrite_seqs (s : State) (a : Nat) (bs : Bytes) (c : Bool) : (s.physWrite a bs c).seqs = s.seqs := rfl
@[simp] theorem State.physWrite_engines (s : State) (a : Nat) (bs : Bytes) (c : Bool) : (s.physWrite a bs c).engines = s.engines := rfl
@[simp] theorem State.physWrite_net (s : State) (a : Nat) (bs : Bytes) (c : Bool) : (s.physWrite a bs c).net = s.net := rfl
@[simp] theorem State.physWrite_audio (s : State) (a : Nat) (bs : Bytes) (c : Bool) : (s.physWrite a bs c).audio = s.audio := rfl
@[simp] theorem State.physWrite_vane (s : State) (a : Nat) (bs : Bytes) (c : Bool) : (s.physWrite a bs c).vane = s.vane := rfl
@[simp] theorem State.physWrite_pmc (s : State) (a : Nat) (bs : Bytes) (c : Bool) : (s.physWrite a bs c).pmc = s.pmc := rfl
@[simp] theorem State.physWrite_power (s : State) (a : Nat) (bs : Bytes) (c : Bool) : (s.physWrite a bs c).power = s.power := rfl
@[simp] theorem State.physWrite_tap (s : State) (a : Nat) (bs : Bytes) (c : Bool) : (s.physWrite a bs c).tap = s.tap := rfl
@[simp] theorem State.physWrite_sec (s : State) (a : Nat) (bs : Bytes) (c : Bool) : (s.physWrite a bs c).sec = s.sec := rfl
@[simp] theorem State.physWrite_tel (s : State) (a : Nat) (bs : Bytes) (c : Bool) : (s.physWrite a bs c).tel = s.tel := rfl

/-! ### `State.physWrite64` -/

@[simp] theorem State.physWrite64_pending (s : State) (a : Nat) (w : W64) : (s.physWrite64 a w).pending = s.pending := rfl
@[simp] theorem State.physWrite64_free (s : State) (a : Nat) (w : W64) : (s.physWrite64 a w).free = s.free := rfl
@[simp] theorem State.physWrite64_fuses (s : State) (a : Nat) (w : W64) : (s.physWrite64 a w).fuses = s.fuses := rfl
@[simp] theorem State.physWrite64_lic (s : State) (a : Nat) (w : W64) : (s.physWrite64 a w).lic = s.lic := rfl
@[simp] theorem State.physWrite64_regs (s : State) (a : Nat) (w : W64) : (s.physWrite64 a w).regs = s.regs := rfl
@[simp] theorem State.physWrite64_latches (s : State) (a : Nat) (w : W64) : (s.physWrite64 a w).latches = s.latches := rfl
@[simp] theorem State.physWrite64_guards (s : State) (a : Nat) (w : W64) : (s.physWrite64 a w).guards = s.guards := rfl
@[simp] theorem State.physWrite64_commitMask (s : State) (a : Nat) (w : W64) : (s.physWrite64 a w).commitMask = s.commitMask := rfl
@[simp] theorem State.physWrite64_commitRefused (s : State) (a : Nat) (w : W64) : (s.physWrite64 a w).commitRefused = s.commitRefused := rfl
@[simp] theorem State.physWrite64_commitCount (s : State) (a : Nat) (w : W64) : (s.physWrite64 a w).commitCount = s.commitCount := rfl
@[simp] theorem State.physWrite64_events (s : State) (a : Nat) (w : W64) : (s.physWrite64 a w).events = s.events := rfl
@[simp] theorem State.physWrite64_loader (s : State) (a : Nat) (w : W64) : (s.physWrite64 a w).loader = s.loader := rfl
@[simp] theorem State.physWrite64_trans (s : State) (a : Nat) (w : W64) : (s.physWrite64 a w).trans = s.trans := rfl
@[simp] theorem State.physWrite64_tiers (s : State) (a : Nat) (w : W64) : (s.physWrite64 a w).tiers = s.tiers := rfl
@[simp] theorem State.physWrite64_chaff (s : State) (a : Nat) (w : W64) : (s.physWrite64 a w).chaff = s.chaff := rfl
@[simp] theorem State.physWrite64_ue (s : State) (a : Nat) (w : W64) : (s.physWrite64 a w).ue = s.ue := rfl
@[simp] theorem State.physWrite64_cores (s : State) (a : Nat) (w : W64) : (s.physWrite64 a w).cores = s.cores := rfl
@[simp] theorem State.physWrite64_bays (s : State) (a : Nat) (w : W64) : (s.physWrite64 a w).bays = s.bays := rfl
@[simp] theorem State.physWrite64_batchers (s : State) (a : Nat) (w : W64) : (s.physWrite64 a w).batchers = s.batchers := rfl
@[simp] theorem State.physWrite64_insts (s : State) (a : Nat) (w : W64) : (s.physWrite64 a w).insts = s.insts := rfl
@[simp] theorem State.physWrite64_nextInst (s : State) (a : Nat) (w : W64) : (s.physWrite64 a w).nextInst = s.nextInst := rfl
@[simp] theorem State.physWrite64_queues (s : State) (a : Nat) (w : W64) : (s.physWrite64 a w).queues = s.queues := rfl
@[simp] theorem State.physWrite64_streams (s : State) (a : Nat) (w : W64) : (s.physWrite64 a w).streams = s.streams := rfl
@[simp] theorem State.physWrite64_seqs (s : State) (a : Nat) (w : W64) : (s.physWrite64 a w).seqs = s.seqs := rfl
@[simp] theorem State.physWrite64_engines (s : State) (a : Nat) (w : W64) : (s.physWrite64 a w).engines = s.engines := rfl
@[simp] theorem State.physWrite64_net (s : State) (a : Nat) (w : W64) : (s.physWrite64 a w).net = s.net := rfl
@[simp] theorem State.physWrite64_audio (s : State) (a : Nat) (w : W64) : (s.physWrite64 a w).audio = s.audio := rfl
@[simp] theorem State.physWrite64_vane (s : State) (a : Nat) (w : W64) : (s.physWrite64 a w).vane = s.vane := rfl
@[simp] theorem State.physWrite64_pmc (s : State) (a : Nat) (w : W64) : (s.physWrite64 a w).pmc = s.pmc := rfl
@[simp] theorem State.physWrite64_power (s : State) (a : Nat) (w : W64) : (s.physWrite64 a w).power = s.power := rfl
@[simp] theorem State.physWrite64_tap (s : State) (a : Nat) (w : W64) : (s.physWrite64 a w).tap = s.tap := rfl
@[simp] theorem State.physWrite64_sec (s : State) (a : Nat) (w : W64) : (s.physWrite64 a w).sec = s.sec := rfl
@[simp] theorem State.physWrite64_tel (s : State) (a : Nat) (w : W64) : (s.physWrite64 a w).tel = s.tel := rfl

/-! ### `State.physClear` -/

@[simp] theorem State.physClear_pending (s : State) (a len : Nat) : (s.physClear a len).pending = s.pending := rfl
@[simp] theorem State.physClear_free (s : State) (a len : Nat) : (s.physClear a len).free = s.free := rfl
@[simp] theorem State.physClear_fuses (s : State) (a len : Nat) : (s.physClear a len).fuses = s.fuses := rfl
@[simp] theorem State.physClear_lic (s : State) (a len : Nat) : (s.physClear a len).lic = s.lic := rfl
@[simp] theorem State.physClear_regs (s : State) (a len : Nat) : (s.physClear a len).regs = s.regs := rfl
@[simp] theorem State.physClear_latches (s : State) (a len : Nat) : (s.physClear a len).latches = s.latches := rfl
@[simp] theorem State.physClear_guards (s : State) (a len : Nat) : (s.physClear a len).guards = s.guards := rfl
@[simp] theorem State.physClear_commitMask (s : State) (a len : Nat) : (s.physClear a len).commitMask = s.commitMask := rfl
@[simp] theorem State.physClear_commitRefused (s : State) (a len : Nat) : (s.physClear a len).commitRefused = s.commitRefused := rfl
@[simp] theorem State.physClear_commitCount (s : State) (a len : Nat) : (s.physClear a len).commitCount = s.commitCount := rfl
@[simp] theorem State.physClear_events (s : State) (a len : Nat) : (s.physClear a len).events = s.events := rfl
@[simp] theorem State.physClear_loader (s : State) (a len : Nat) : (s.physClear a len).loader = s.loader := rfl
@[simp] theorem State.physClear_trans (s : State) (a len : Nat) : (s.physClear a len).trans = s.trans := rfl
@[simp] theorem State.physClear_tiers (s : State) (a len : Nat) : (s.physClear a len).tiers = s.tiers := rfl
@[simp] theorem State.physClear_cores (s : State) (a len : Nat) : (s.physClear a len).cores = s.cores := rfl
@[simp] theorem State.physClear_bays (s : State) (a len : Nat) : (s.physClear a len).bays = s.bays := rfl
@[simp] theorem State.physClear_batchers (s : State) (a len : Nat) : (s.physClear a len).batchers = s.batchers := rfl
@[simp] theorem State.physClear_insts (s : State) (a len : Nat) : (s.physClear a len).insts = s.insts := rfl
@[simp] theorem State.physClear_nextInst (s : State) (a len : Nat) : (s.physClear a len).nextInst = s.nextInst := rfl
@[simp] theorem State.physClear_queues (s : State) (a len : Nat) : (s.physClear a len).queues = s.queues := rfl
@[simp] theorem State.physClear_streams (s : State) (a len : Nat) : (s.physClear a len).streams = s.streams := rfl
@[simp] theorem State.physClear_seqs (s : State) (a len : Nat) : (s.physClear a len).seqs = s.seqs := rfl
@[simp] theorem State.physClear_engines (s : State) (a len : Nat) : (s.physClear a len).engines = s.engines := rfl
@[simp] theorem State.physClear_net (s : State) (a len : Nat) : (s.physClear a len).net = s.net := rfl
@[simp] theorem State.physClear_audio (s : State) (a len : Nat) : (s.physClear a len).audio = s.audio := rfl
@[simp] theorem State.physClear_vane (s : State) (a len : Nat) : (s.physClear a len).vane = s.vane := rfl
@[simp] theorem State.physClear_pmc (s : State) (a len : Nat) : (s.physClear a len).pmc = s.pmc := rfl
@[simp] theorem State.physClear_power (s : State) (a len : Nat) : (s.physClear a len).power = s.power := rfl
@[simp] theorem State.physClear_tap (s : State) (a len : Nat) : (s.physClear a len).tap = s.tap := rfl
@[simp] theorem State.physClear_sec (s : State) (a len : Nat) : (s.physClear a len).sec = s.sec := rfl
@[simp] theorem State.physClear_tel (s : State) (a len : Nat) : (s.physClear a len).tel = s.tel := rfl

/-! ### `State.physCopy` -/

@[simp] theorem State.physCopy_pending (s : State) (x y len : Nat) : (s.physCopy x y len).pending = s.pending := rfl
@[simp] theorem State.physCopy_free (s : State) (x y len : Nat) : (s.physCopy x y len).free = s.free := rfl
@[simp] theorem State.physCopy_fuses (s : State) (x y len : Nat) : (s.physCopy x y len).fuses = s.fuses := rfl
@[simp] theorem State.physCopy_lic (s : State) (x y len : Nat) : (s.physCopy x y len).lic = s.lic := rfl
@[simp] theorem State.physCopy_regs (s : State) (x y len : Nat) : (s.physCopy x y len).regs = s.regs := rfl
@[simp] theorem State.physCopy_latches (s : State) (x y len : Nat) : (s.physCopy x y len).latches = s.latches := rfl
@[simp] theorem State.physCopy_guards (s : State) (x y len : Nat) : (s.physCopy x y len).guards = s.guards := rfl
@[simp] theorem State.physCopy_commitMask (s : State) (x y len : Nat) : (s.physCopy x y len).commitMask = s.commitMask := rfl
@[simp] theorem State.physCopy_commitRefused (s : State) (x y len : Nat) : (s.physCopy x y len).commitRefused = s.commitRefused := rfl
@[simp] theorem State.physCopy_commitCount (s : State) (x y len : Nat) : (s.physCopy x y len).commitCount = s.commitCount := rfl
@[simp] theorem State.physCopy_events (s : State) (x y len : Nat) : (s.physCopy x y len).events = s.events := rfl
@[simp] theorem State.physCopy_loader (s : State) (x y len : Nat) : (s.physCopy x y len).loader = s.loader := rfl
@[simp] theorem State.physCopy_trans (s : State) (x y len : Nat) : (s.physCopy x y len).trans = s.trans := rfl
@[simp] theorem State.physCopy_tiers (s : State) (x y len : Nat) : (s.physCopy x y len).tiers = s.tiers := rfl
@[simp] theorem State.physCopy_cores (s : State) (x y len : Nat) : (s.physCopy x y len).cores = s.cores := rfl
@[simp] theorem State.physCopy_bays (s : State) (x y len : Nat) : (s.physCopy x y len).bays = s.bays := rfl
@[simp] theorem State.physCopy_batchers (s : State) (x y len : Nat) : (s.physCopy x y len).batchers = s.batchers := rfl
@[simp] theorem State.physCopy_insts (s : State) (x y len : Nat) : (s.physCopy x y len).insts = s.insts := rfl
@[simp] theorem State.physCopy_nextInst (s : State) (x y len : Nat) : (s.physCopy x y len).nextInst = s.nextInst := rfl
@[simp] theorem State.physCopy_queues (s : State) (x y len : Nat) : (s.physCopy x y len).queues = s.queues := rfl
@[simp] theorem State.physCopy_streams (s : State) (x y len : Nat) : (s.physCopy x y len).streams = s.streams := rfl
@[simp] theorem State.physCopy_seqs (s : State) (x y len : Nat) : (s.physCopy x y len).seqs = s.seqs := rfl
@[simp] theorem State.physCopy_engines (s : State) (x y len : Nat) : (s.physCopy x y len).engines = s.engines := rfl
@[simp] theorem State.physCopy_net (s : State) (x y len : Nat) : (s.physCopy x y len).net = s.net := rfl
@[simp] theorem State.physCopy_audio (s : State) (x y len : Nat) : (s.physCopy x y len).audio = s.audio := rfl
@[simp] theorem State.physCopy_vane (s : State) (x y len : Nat) : (s.physCopy x y len).vane = s.vane := rfl
@[simp] theorem State.physCopy_pmc (s : State) (x y len : Nat) : (s.physCopy x y len).pmc = s.pmc := rfl
@[simp] theorem State.physCopy_power (s : State) (x y len : Nat) : (s.physCopy x y len).power = s.power := rfl
@[simp] theorem State.physCopy_tap (s : State) (x y len : Nat) : (s.physCopy x y len).tap = s.tap := rfl
@[simp] theorem State.physCopy_sec (s : State) (x y len : Nat) : (s.physCopy x y len).sec = s.sec := rfl
@[simp] theorem State.physCopy_tel (s : State) (x y len : Nat) : (s.physCopy x y len).tel = s.tel := rfl

/-! ### `State.countSat` -/

@[simp] theorem State.countSat_pending (s : State) (key bits lo n : Nat) : (s.countSat key bits lo n).pending = s.pending := rfl
@[simp] theorem State.countSat_free (s : State) (key bits lo n : Nat) : (s.countSat key bits lo n).free = s.free := rfl
@[simp] theorem State.countSat_fuses (s : State) (key bits lo n : Nat) : (s.countSat key bits lo n).fuses = s.fuses := rfl
@[simp] theorem State.countSat_lic (s : State) (key bits lo n : Nat) : (s.countSat key bits lo n).lic = s.lic := rfl
@[simp] theorem State.countSat_latches (s : State) (key bits lo n : Nat) : (s.countSat key bits lo n).latches = s.latches := rfl
@[simp] theorem State.countSat_guards (s : State) (key bits lo n : Nat) : (s.countSat key bits lo n).guards = s.guards := rfl
@[simp] theorem State.countSat_commitMask (s : State) (key bits lo n : Nat) : (s.countSat key bits lo n).commitMask = s.commitMask := rfl
@[simp] theorem State.countSat_commitRefused (s : State) (key bits lo n : Nat) : (s.countSat key bits lo n).commitRefused = s.commitRefused := rfl
@[simp] theorem State.countSat_commitCount (s : State) (key bits lo n : Nat) : (s.countSat key bits lo n).commitCount = s.commitCount := rfl
@[simp] theorem State.countSat_events (s : State) (key bits lo n : Nat) : (s.countSat key bits lo n).events = s.events := rfl
@[simp] theorem State.countSat_loader (s : State) (key bits lo n : Nat) : (s.countSat key bits lo n).loader = s.loader := rfl
@[simp] theorem State.countSat_trans (s : State) (key bits lo n : Nat) : (s.countSat key bits lo n).trans = s.trans := rfl
@[simp] theorem State.countSat_tiers (s : State) (key bits lo n : Nat) : (s.countSat key bits lo n).tiers = s.tiers := rfl
@[simp] theorem State.countSat_mem (s : State) (key bits lo n : Nat) : (s.countSat key bits lo n).mem = s.mem := rfl
@[simp] theorem State.countSat_chaff (s : State) (key bits lo n : Nat) : (s.countSat key bits lo n).chaff = s.chaff := rfl
@[simp] theorem State.countSat_ue (s : State) (key bits lo n : Nat) : (s.countSat key bits lo n).ue = s.ue := rfl
@[simp] theorem State.countSat_cores (s : State) (key bits lo n : Nat) : (s.countSat key bits lo n).cores = s.cores := rfl
@[simp] theorem State.countSat_bays (s : State) (key bits lo n : Nat) : (s.countSat key bits lo n).bays = s.bays := rfl
@[simp] theorem State.countSat_batchers (s : State) (key bits lo n : Nat) : (s.countSat key bits lo n).batchers = s.batchers := rfl
@[simp] theorem State.countSat_insts (s : State) (key bits lo n : Nat) : (s.countSat key bits lo n).insts = s.insts := rfl
@[simp] theorem State.countSat_nextInst (s : State) (key bits lo n : Nat) : (s.countSat key bits lo n).nextInst = s.nextInst := rfl
@[simp] theorem State.countSat_queues (s : State) (key bits lo n : Nat) : (s.countSat key bits lo n).queues = s.queues := rfl
@[simp] theorem State.countSat_streams (s : State) (key bits lo n : Nat) : (s.countSat key bits lo n).streams = s.streams := rfl
@[simp] theorem State.countSat_seqs (s : State) (key bits lo n : Nat) : (s.countSat key bits lo n).seqs = s.seqs := rfl
@[simp] theorem State.countSat_engines (s : State) (key bits lo n : Nat) : (s.countSat key bits lo n).engines = s.engines := rfl
@[simp] theorem State.countSat_net (s : State) (key bits lo n : Nat) : (s.countSat key bits lo n).net = s.net := rfl
@[simp] theorem State.countSat_audio (s : State) (key bits lo n : Nat) : (s.countSat key bits lo n).audio = s.audio := rfl
@[simp] theorem State.countSat_vane (s : State) (key bits lo n : Nat) : (s.countSat key bits lo n).vane = s.vane := rfl
@[simp] theorem State.countSat_pmc (s : State) (key bits lo n : Nat) : (s.countSat key bits lo n).pmc = s.pmc := rfl
@[simp] theorem State.countSat_power (s : State) (key bits lo n : Nat) : (s.countSat key bits lo n).power = s.power := rfl
@[simp] theorem State.countSat_tap (s : State) (key bits lo n : Nat) : (s.countSat key bits lo n).tap = s.tap := rfl
@[simp] theorem State.countSat_sec (s : State) (key bits lo n : Nat) : (s.countSat key bits lo n).sec = s.sec := rfl
@[simp] theorem State.countSat_tel (s : State) (key bits lo n : Nat) : (s.countSat key bits lo n).tel = s.tel := rfl

/-! ### `State.countWrap` -/

@[simp] theorem State.countWrap_pending (s : State) (key n : Nat) : (s.countWrap key n).pending = s.pending := rfl
@[simp] theorem State.countWrap_free (s : State) (key n : Nat) : (s.countWrap key n).free = s.free := rfl
@[simp] theorem State.countWrap_fuses (s : State) (key n : Nat) : (s.countWrap key n).fuses = s.fuses := rfl
@[simp] theorem State.countWrap_lic (s : State) (key n : Nat) : (s.countWrap key n).lic = s.lic := rfl
@[simp] theorem State.countWrap_latches (s : State) (key n : Nat) : (s.countWrap key n).latches = s.latches := rfl
@[simp] theorem State.countWrap_guards (s : State) (key n : Nat) : (s.countWrap key n).guards = s.guards := rfl
@[simp] theorem State.countWrap_commitMask (s : State) (key n : Nat) : (s.countWrap key n).commitMask = s.commitMask := rfl
@[simp] theorem State.countWrap_commitRefused (s : State) (key n : Nat) : (s.countWrap key n).commitRefused = s.commitRefused := rfl
@[simp] theorem State.countWrap_commitCount (s : State) (key n : Nat) : (s.countWrap key n).commitCount = s.commitCount := rfl
@[simp] theorem State.countWrap_events (s : State) (key n : Nat) : (s.countWrap key n).events = s.events := rfl
@[simp] theorem State.countWrap_loader (s : State) (key n : Nat) : (s.countWrap key n).loader = s.loader := rfl
@[simp] theorem State.countWrap_trans (s : State) (key n : Nat) : (s.countWrap key n).trans = s.trans := rfl
@[simp] theorem State.countWrap_tiers (s : State) (key n : Nat) : (s.countWrap key n).tiers = s.tiers := rfl
@[simp] theorem State.countWrap_mem (s : State) (key n : Nat) : (s.countWrap key n).mem = s.mem := rfl
@[simp] theorem State.countWrap_chaff (s : State) (key n : Nat) : (s.countWrap key n).chaff = s.chaff := rfl
@[simp] theorem State.countWrap_ue (s : State) (key n : Nat) : (s.countWrap key n).ue = s.ue := rfl
@[simp] theorem State.countWrap_cores (s : State) (key n : Nat) : (s.countWrap key n).cores = s.cores := rfl
@[simp] theorem State.countWrap_bays (s : State) (key n : Nat) : (s.countWrap key n).bays = s.bays := rfl
@[simp] theorem State.countWrap_batchers (s : State) (key n : Nat) : (s.countWrap key n).batchers = s.batchers := rfl
@[simp] theorem State.countWrap_insts (s : State) (key n : Nat) : (s.countWrap key n).insts = s.insts := rfl
@[simp] theorem State.countWrap_nextInst (s : State) (key n : Nat) : (s.countWrap key n).nextInst = s.nextInst := rfl
@[simp] theorem State.countWrap_queues (s : State) (key n : Nat) : (s.countWrap key n).queues = s.queues := rfl
@[simp] theorem State.countWrap_streams (s : State) (key n : Nat) : (s.countWrap key n).streams = s.streams := rfl
@[simp] theorem State.countWrap_seqs (s : State) (key n : Nat) : (s.countWrap key n).seqs = s.seqs := rfl
@[simp] theorem State.countWrap_engines (s : State) (key n : Nat) : (s.countWrap key n).engines = s.engines := rfl
@[simp] theorem State.countWrap_net (s : State) (key n : Nat) : (s.countWrap key n).net = s.net := rfl
@[simp] theorem State.countWrap_audio (s : State) (key n : Nat) : (s.countWrap key n).audio = s.audio := rfl
@[simp] theorem State.countWrap_vane (s : State) (key n : Nat) : (s.countWrap key n).vane = s.vane := rfl
@[simp] theorem State.countWrap_pmc (s : State) (key n : Nat) : (s.countWrap key n).pmc = s.pmc := rfl
@[simp] theorem State.countWrap_power (s : State) (key n : Nat) : (s.countWrap key n).power = s.power := rfl
@[simp] theorem State.countWrap_tap (s : State) (key n : Nat) : (s.countWrap key n).tap = s.tap := rfl
@[simp] theorem State.countWrap_sec (s : State) (key n : Nat) : (s.countWrap key n).sec = s.sec := rfl
@[simp] theorem State.countWrap_tel (s : State) (key n : Nat) : (s.countWrap key n).tel = s.tel := rfl

/-! ### `State.count16` -/

@[simp] theorem State.count16_pending (s : State) (key : Nat) : (s.count16 key).pending = s.pending := rfl
@[simp] theorem State.count16_free (s : State) (key : Nat) : (s.count16 key).free = s.free := rfl
@[simp] theorem State.count16_fuses (s : State) (key : Nat) : (s.count16 key).fuses = s.fuses := rfl
@[simp] theorem State.count16_lic (s : State) (key : Nat) : (s.count16 key).lic = s.lic := rfl
@[simp] theorem State.count16_latches (s : State) (key : Nat) : (s.count16 key).latches = s.latches := rfl
@[simp] theorem State.count16_guards (s : State) (key : Nat) : (s.count16 key).guards = s.guards := rfl
@[simp] theorem State.count16_commitMask (s : State) (key : Nat) : (s.count16 key).commitMask = s.commitMask := rfl
@[simp] theorem State.count16_commitRefused (s : State) (key : Nat) : (s.count16 key).commitRefused = s.commitRefused := rfl
@[simp] theorem State.count16_commitCount (s : State) (key : Nat) : (s.count16 key).commitCount = s.commitCount := rfl
@[simp] theorem State.count16_events (s : State) (key : Nat) : (s.count16 key).events = s.events := rfl
@[simp] theorem State.count16_loader (s : State) (key : Nat) : (s.count16 key).loader = s.loader := rfl
@[simp] theorem State.count16_trans (s : State) (key : Nat) : (s.count16 key).trans = s.trans := rfl
@[simp] theorem State.count16_tiers (s : State) (key : Nat) : (s.count16 key).tiers = s.tiers := rfl
@[simp] theorem State.count16_mem (s : State) (key : Nat) : (s.count16 key).mem = s.mem := rfl
@[simp] theorem State.count16_chaff (s : State) (key : Nat) : (s.count16 key).chaff = s.chaff := rfl
@[simp] theorem State.count16_ue (s : State) (key : Nat) : (s.count16 key).ue = s.ue := rfl
@[simp] theorem State.count16_cores (s : State) (key : Nat) : (s.count16 key).cores = s.cores := rfl
@[simp] theorem State.count16_bays (s : State) (key : Nat) : (s.count16 key).bays = s.bays := rfl
@[simp] theorem State.count16_batchers (s : State) (key : Nat) : (s.count16 key).batchers = s.batchers := rfl
@[simp] theorem State.count16_insts (s : State) (key : Nat) : (s.count16 key).insts = s.insts := rfl
@[simp] theorem State.count16_nextInst (s : State) (key : Nat) : (s.count16 key).nextInst = s.nextInst := rfl
@[simp] theorem State.count16_queues (s : State) (key : Nat) : (s.count16 key).queues = s.queues := rfl
@[simp] theorem State.count16_streams (s : State) (key : Nat) : (s.count16 key).streams = s.streams := rfl
@[simp] theorem State.count16_seqs (s : State) (key : Nat) : (s.count16 key).seqs = s.seqs := rfl
@[simp] theorem State.count16_engines (s : State) (key : Nat) : (s.count16 key).engines = s.engines := rfl
@[simp] theorem State.count16_net (s : State) (key : Nat) : (s.count16 key).net = s.net := rfl
@[simp] theorem State.count16_audio (s : State) (key : Nat) : (s.count16 key).audio = s.audio := rfl
@[simp] theorem State.count16_vane (s : State) (key : Nat) : (s.count16 key).vane = s.vane := rfl
@[simp] theorem State.count16_pmc (s : State) (key : Nat) : (s.count16 key).pmc = s.pmc := rfl
@[simp] theorem State.count16_power (s : State) (key : Nat) : (s.count16 key).power = s.power := rfl
@[simp] theorem State.count16_tap (s : State) (key : Nat) : (s.count16 key).tap = s.tap := rfl
@[simp] theorem State.count16_sec (s : State) (key : Nat) : (s.count16 key).sec = s.sec := rfl
@[simp] theorem State.count16_tel (s : State) (key : Nat) : (s.count16 key).tel = s.tel := rfl

/-! ### `State.count32` -/

@[simp] theorem State.count32_pending (s : State) (key n : Nat) : (s.count32 key n).pending = s.pending := rfl
@[simp] theorem State.count32_free (s : State) (key n : Nat) : (s.count32 key n).free = s.free := rfl
@[simp] theorem State.count32_fuses (s : State) (key n : Nat) : (s.count32 key n).fuses = s.fuses := rfl
@[simp] theorem State.count32_lic (s : State) (key n : Nat) : (s.count32 key n).lic = s.lic := rfl
@[simp] theorem State.count32_latches (s : State) (key n : Nat) : (s.count32 key n).latches = s.latches := rfl
@[simp] theorem State.count32_guards (s : State) (key n : Nat) : (s.count32 key n).guards = s.guards := rfl
@[simp] theorem State.count32_commitMask (s : State) (key n : Nat) : (s.count32 key n).commitMask = s.commitMask := rfl
@[simp] theorem State.count32_commitRefused (s : State) (key n : Nat) : (s.count32 key n).commitRefused = s.commitRefused := rfl
@[simp] theorem State.count32_commitCount (s : State) (key n : Nat) : (s.count32 key n).commitCount = s.commitCount := rfl
@[simp] theorem State.count32_events (s : State) (key n : Nat) : (s.count32 key n).events = s.events := rfl
@[simp] theorem State.count32_loader (s : State) (key n : Nat) : (s.count32 key n).loader = s.loader := rfl
@[simp] theorem State.count32_trans (s : State) (key n : Nat) : (s.count32 key n).trans = s.trans := rfl
@[simp] theorem State.count32_tiers (s : State) (key n : Nat) : (s.count32 key n).tiers = s.tiers := rfl
@[simp] theorem State.count32_mem (s : State) (key n : Nat) : (s.count32 key n).mem = s.mem := rfl
@[simp] theorem State.count32_chaff (s : State) (key n : Nat) : (s.count32 key n).chaff = s.chaff := rfl
@[simp] theorem State.count32_ue (s : State) (key n : Nat) : (s.count32 key n).ue = s.ue := rfl
@[simp] theorem State.count32_cores (s : State) (key n : Nat) : (s.count32 key n).cores = s.cores := rfl
@[simp] theorem State.count32_bays (s : State) (key n : Nat) : (s.count32 key n).bays = s.bays := rfl
@[simp] theorem State.count32_batchers (s : State) (key n : Nat) : (s.count32 key n).batchers = s.batchers := rfl
@[simp] theorem State.count32_insts (s : State) (key n : Nat) : (s.count32 key n).insts = s.insts := rfl
@[simp] theorem State.count32_nextInst (s : State) (key n : Nat) : (s.count32 key n).nextInst = s.nextInst := rfl
@[simp] theorem State.count32_queues (s : State) (key n : Nat) : (s.count32 key n).queues = s.queues := rfl
@[simp] theorem State.count32_streams (s : State) (key n : Nat) : (s.count32 key n).streams = s.streams := rfl
@[simp] theorem State.count32_seqs (s : State) (key n : Nat) : (s.count32 key n).seqs = s.seqs := rfl
@[simp] theorem State.count32_engines (s : State) (key n : Nat) : (s.count32 key n).engines = s.engines := rfl
@[simp] theorem State.count32_net (s : State) (key n : Nat) : (s.count32 key n).net = s.net := rfl
@[simp] theorem State.count32_audio (s : State) (key n : Nat) : (s.count32 key n).audio = s.audio := rfl
@[simp] theorem State.count32_vane (s : State) (key n : Nat) : (s.count32 key n).vane = s.vane := rfl
@[simp] theorem State.count32_pmc (s : State) (key n : Nat) : (s.count32 key n).pmc = s.pmc := rfl
@[simp] theorem State.count32_power (s : State) (key n : Nat) : (s.count32 key n).power = s.power := rfl
@[simp] theorem State.count32_tap (s : State) (key n : Nat) : (s.count32 key n).tap = s.tap := rfl
@[simp] theorem State.count32_sec (s : State) (key n : Nat) : (s.count32 key n).sec = s.sec := rfl
@[simp] theorem State.count32_tel (s : State) (key n : Nat) : (s.count32 key n).tel = s.tel := rfl

/-! ### `State.keepMax` -/

@[simp] theorem State.keepMax_pending (s : State) (key bits n : Nat) : (s.keepMax key bits n).pending = s.pending := rfl
@[simp] theorem State.keepMax_free (s : State) (key bits n : Nat) : (s.keepMax key bits n).free = s.free := rfl
@[simp] theorem State.keepMax_fuses (s : State) (key bits n : Nat) : (s.keepMax key bits n).fuses = s.fuses := rfl
@[simp] theorem State.keepMax_lic (s : State) (key bits n : Nat) : (s.keepMax key bits n).lic = s.lic := rfl
@[simp] theorem State.keepMax_latches (s : State) (key bits n : Nat) : (s.keepMax key bits n).latches = s.latches := rfl
@[simp] theorem State.keepMax_guards (s : State) (key bits n : Nat) : (s.keepMax key bits n).guards = s.guards := rfl
@[simp] theorem State.keepMax_commitMask (s : State) (key bits n : Nat) : (s.keepMax key bits n).commitMask = s.commitMask := rfl
@[simp] theorem State.keepMax_commitRefused (s : State) (key bits n : Nat) : (s.keepMax key bits n).commitRefused = s.commitRefused := rfl
@[simp] theorem State.keepMax_commitCount (s : State) (key bits n : Nat) : (s.keepMax key bits n).commitCount = s.commitCount := rfl
@[simp] theorem State.keepMax_events (s : State) (key bits n : Nat) : (s.keepMax key bits n).events = s.events := rfl
@[simp] theorem State.keepMax_loader (s : State) (key bits n : Nat) : (s.keepMax key bits n).loader = s.loader := rfl
@[simp] theorem State.keepMax_trans (s : State) (key bits n : Nat) : (s.keepMax key bits n).trans = s.trans := rfl
@[simp] theorem State.keepMax_tiers (s : State) (key bits n : Nat) : (s.keepMax key bits n).tiers = s.tiers := rfl
@[simp] theorem State.keepMax_mem (s : State) (key bits n : Nat) : (s.keepMax key bits n).mem = s.mem := rfl
@[simp] theorem State.keepMax_chaff (s : State) (key bits n : Nat) : (s.keepMax key bits n).chaff = s.chaff := rfl
@[simp] theorem State.keepMax_ue (s : State) (key bits n : Nat) : (s.keepMax key bits n).ue = s.ue := rfl
@[simp] theorem State.keepMax_cores (s : State) (key bits n : Nat) : (s.keepMax key bits n).cores = s.cores := rfl
@[simp] theorem State.keepMax_bays (s : State) (key bits n : Nat) : (s.keepMax key bits n).bays = s.bays := rfl
@[simp] theorem State.keepMax_batchers (s : State) (key bits n : Nat) : (s.keepMax key bits n).batchers = s.batchers := rfl
@[simp] theorem State.keepMax_insts (s : State) (key bits n : Nat) : (s.keepMax key bits n).insts = s.insts := rfl
@[simp] theorem State.keepMax_nextInst (s : State) (key bits n : Nat) : (s.keepMax key bits n).nextInst = s.nextInst := rfl
@[simp] theorem State.keepMax_queues (s : State) (key bits n : Nat) : (s.keepMax key bits n).queues = s.queues := rfl
@[simp] theorem State.keepMax_streams (s : State) (key bits n : Nat) : (s.keepMax key bits n).streams = s.streams := rfl
@[simp] theorem State.keepMax_seqs (s : State) (key bits n : Nat) : (s.keepMax key bits n).seqs = s.seqs := rfl
@[simp] theorem State.keepMax_engines (s : State) (key bits n : Nat) : (s.keepMax key bits n).engines = s.engines := rfl
@[simp] theorem State.keepMax_net (s : State) (key bits n : Nat) : (s.keepMax key bits n).net = s.net := rfl
@[simp] theorem State.keepMax_audio (s : State) (key bits n : Nat) : (s.keepMax key bits n).audio = s.audio := rfl
@[simp] theorem State.keepMax_vane (s : State) (key bits n : Nat) : (s.keepMax key bits n).vane = s.vane := rfl
@[simp] theorem State.keepMax_pmc (s : State) (key bits n : Nat) : (s.keepMax key bits n).pmc = s.pmc := rfl
@[simp] theorem State.keepMax_power (s : State) (key bits n : Nat) : (s.keepMax key bits n).power = s.power := rfl
@[simp] theorem State.keepMax_tap (s : State) (key bits n : Nat) : (s.keepMax key bits n).tap = s.tap := rfl
@[simp] theorem State.keepMax_sec (s : State) (key bits n : Nat) : (s.keepMax key bits n).sec = s.sec := rfl
@[simp] theorem State.keepMax_tel (s : State) (key bits n : Nat) : (s.keepMax key bits n).tel = s.tel := rfl

/-! ### `State.count64` -/

@[simp] theorem State.count64_pending (s : State) (lo hi n : Nat) : (s.count64 lo hi n).pending = s.pending := rfl
@[simp] theorem State.count64_free (s : State) (lo hi n : Nat) : (s.count64 lo hi n).free = s.free := rfl
@[simp] theorem State.count64_fuses (s : State) (lo hi n : Nat) : (s.count64 lo hi n).fuses = s.fuses := rfl
@[simp] theorem State.count64_lic (s : State) (lo hi n : Nat) : (s.count64 lo hi n).lic = s.lic := rfl
@[simp] theorem State.count64_latches (s : State) (lo hi n : Nat) : (s.count64 lo hi n).latches = s.latches := rfl
@[simp] theorem State.count64_guards (s : State) (lo hi n : Nat) : (s.count64 lo hi n).guards = s.guards := rfl
@[simp] theorem State.count64_commitMask (s : State) (lo hi n : Nat) : (s.count64 lo hi n).commitMask = s.commitMask := rfl
@[simp] theorem State.count64_commitRefused (s : State) (lo hi n : Nat) : (s.count64 lo hi n).commitRefused = s.commitRefused := rfl
@[simp] theorem State.count64_commitCount (s : State) (lo hi n : Nat) : (s.count64 lo hi n).commitCount = s.commitCount := rfl
@[simp] theorem State.count64_events (s : State) (lo hi n : Nat) : (s.count64 lo hi n).events = s.events := rfl
@[simp] theorem State.count64_loader (s : State) (lo hi n : Nat) : (s.count64 lo hi n).loader = s.loader := rfl
@[simp] theorem State.count64_trans (s : State) (lo hi n : Nat) : (s.count64 lo hi n).trans = s.trans := rfl
@[simp] theorem State.count64_tiers (s : State) (lo hi n : Nat) : (s.count64 lo hi n).tiers = s.tiers := rfl
@[simp] theorem State.count64_mem (s : State) (lo hi n : Nat) : (s.count64 lo hi n).mem = s.mem := rfl
@[simp] theorem State.count64_chaff (s : State) (lo hi n : Nat) : (s.count64 lo hi n).chaff = s.chaff := rfl
@[simp] theorem State.count64_ue (s : State) (lo hi n : Nat) : (s.count64 lo hi n).ue = s.ue := rfl
@[simp] theorem State.count64_cores (s : State) (lo hi n : Nat) : (s.count64 lo hi n).cores = s.cores := rfl
@[simp] theorem State.count64_bays (s : State) (lo hi n : Nat) : (s.count64 lo hi n).bays = s.bays := rfl
@[simp] theorem State.count64_batchers (s : State) (lo hi n : Nat) : (s.count64 lo hi n).batchers = s.batchers := rfl
@[simp] theorem State.count64_insts (s : State) (lo hi n : Nat) : (s.count64 lo hi n).insts = s.insts := rfl
@[simp] theorem State.count64_nextInst (s : State) (lo hi n : Nat) : (s.count64 lo hi n).nextInst = s.nextInst := rfl
@[simp] theorem State.count64_queues (s : State) (lo hi n : Nat) : (s.count64 lo hi n).queues = s.queues := rfl
@[simp] theorem State.count64_streams (s : State) (lo hi n : Nat) : (s.count64 lo hi n).streams = s.streams := rfl
@[simp] theorem State.count64_seqs (s : State) (lo hi n : Nat) : (s.count64 lo hi n).seqs = s.seqs := rfl
@[simp] theorem State.count64_engines (s : State) (lo hi n : Nat) : (s.count64 lo hi n).engines = s.engines := rfl
@[simp] theorem State.count64_net (s : State) (lo hi n : Nat) : (s.count64 lo hi n).net = s.net := rfl
@[simp] theorem State.count64_audio (s : State) (lo hi n : Nat) : (s.count64 lo hi n).audio = s.audio := rfl
@[simp] theorem State.count64_vane (s : State) (lo hi n : Nat) : (s.count64 lo hi n).vane = s.vane := rfl
@[simp] theorem State.count64_pmc (s : State) (lo hi n : Nat) : (s.count64 lo hi n).pmc = s.pmc := rfl
@[simp] theorem State.count64_power (s : State) (lo hi n : Nat) : (s.count64 lo hi n).power = s.power := rfl
@[simp] theorem State.count64_tap (s : State) (lo hi n : Nat) : (s.count64 lo hi n).tap = s.tap := rfl
@[simp] theorem State.count64_sec (s : State) (lo hi n : Nat) : (s.count64 lo hi n).sec = s.sec := rfl
@[simp] theorem State.count64_tel (s : State) (lo hi n : Nat) : (s.count64 lo hi n).tel = s.tel := rfl

/-! ### `State.setOwner` -/

@[simp] theorem State.setOwner_pending (s : State) (g o : Nat) : (s.setOwner g o).pending = s.pending := rfl
@[simp] theorem State.setOwner_free (s : State) (g o : Nat) : (s.setOwner g o).free = s.free := rfl
@[simp] theorem State.setOwner_fuses (s : State) (g o : Nat) : (s.setOwner g o).fuses = s.fuses := rfl
@[simp] theorem State.setOwner_lic (s : State) (g o : Nat) : (s.setOwner g o).lic = s.lic := rfl
@[simp] theorem State.setOwner_regs (s : State) (g o : Nat) : (s.setOwner g o).regs = s.regs := rfl
@[simp] theorem State.setOwner_latches (s : State) (g o : Nat) : (s.setOwner g o).latches = s.latches := rfl
@[simp] theorem State.setOwner_guards (s : State) (g o : Nat) : (s.setOwner g o).guards = s.guards := rfl
@[simp] theorem State.setOwner_commitMask (s : State) (g o : Nat) : (s.setOwner g o).commitMask = s.commitMask := rfl
@[simp] theorem State.setOwner_commitRefused (s : State) (g o : Nat) : (s.setOwner g o).commitRefused = s.commitRefused := rfl
@[simp] theorem State.setOwner_commitCount (s : State) (g o : Nat) : (s.setOwner g o).commitCount = s.commitCount := rfl
@[simp] theorem State.setOwner_events (s : State) (g o : Nat) : (s.setOwner g o).events = s.events := rfl
@[simp] theorem State.setOwner_loader (s : State) (g o : Nat) : (s.setOwner g o).loader = s.loader := rfl
@[simp] theorem State.setOwner_trans (s : State) (g o : Nat) : (s.setOwner g o).trans = s.trans := rfl
@[simp] theorem State.setOwner_mem (s : State) (g o : Nat) : (s.setOwner g o).mem = s.mem := rfl
@[simp] theorem State.setOwner_chaff (s : State) (g o : Nat) : (s.setOwner g o).chaff = s.chaff := rfl
@[simp] theorem State.setOwner_ue (s : State) (g o : Nat) : (s.setOwner g o).ue = s.ue := rfl
@[simp] theorem State.setOwner_cores (s : State) (g o : Nat) : (s.setOwner g o).cores = s.cores := rfl
@[simp] theorem State.setOwner_bays (s : State) (g o : Nat) : (s.setOwner g o).bays = s.bays := rfl
@[simp] theorem State.setOwner_batchers (s : State) (g o : Nat) : (s.setOwner g o).batchers = s.batchers := rfl
@[simp] theorem State.setOwner_insts (s : State) (g o : Nat) : (s.setOwner g o).insts = s.insts := rfl
@[simp] theorem State.setOwner_nextInst (s : State) (g o : Nat) : (s.setOwner g o).nextInst = s.nextInst := rfl
@[simp] theorem State.setOwner_queues (s : State) (g o : Nat) : (s.setOwner g o).queues = s.queues := rfl
@[simp] theorem State.setOwner_streams (s : State) (g o : Nat) : (s.setOwner g o).streams = s.streams := rfl
@[simp] theorem State.setOwner_seqs (s : State) (g o : Nat) : (s.setOwner g o).seqs = s.seqs := rfl
@[simp] theorem State.setOwner_engines (s : State) (g o : Nat) : (s.setOwner g o).engines = s.engines := rfl
@[simp] theorem State.setOwner_net (s : State) (g o : Nat) : (s.setOwner g o).net = s.net := rfl
@[simp] theorem State.setOwner_audio (s : State) (g o : Nat) : (s.setOwner g o).audio = s.audio := rfl
@[simp] theorem State.setOwner_vane (s : State) (g o : Nat) : (s.setOwner g o).vane = s.vane := rfl
@[simp] theorem State.setOwner_pmc (s : State) (g o : Nat) : (s.setOwner g o).pmc = s.pmc := rfl
@[simp] theorem State.setOwner_power (s : State) (g o : Nat) : (s.setOwner g o).power = s.power := rfl
@[simp] theorem State.setOwner_tap (s : State) (g o : Nat) : (s.setOwner g o).tap = s.tap := rfl
@[simp] theorem State.setOwner_sec (s : State) (g o : Nat) : (s.setOwner g o).sec = s.sec := rfl
@[simp] theorem State.setOwner_tel (s : State) (g o : Nat) : (s.setOwner g o).tel = s.tel := rfl

/-! ### `State.setOwners` -/

@[simp] theorem State.setOwners_pending (s : State) (g n o : Nat) : (s.setOwners g n o).pending = s.pending := rfl
@[simp] theorem State.setOwners_free (s : State) (g n o : Nat) : (s.setOwners g n o).free = s.free := rfl
@[simp] theorem State.setOwners_fuses (s : State) (g n o : Nat) : (s.setOwners g n o).fuses = s.fuses := rfl
@[simp] theorem State.setOwners_lic (s : State) (g n o : Nat) : (s.setOwners g n o).lic = s.lic := rfl
@[simp] theorem State.setOwners_regs (s : State) (g n o : Nat) : (s.setOwners g n o).regs = s.regs := rfl
@[simp] theorem State.setOwners_latches (s : State) (g n o : Nat) : (s.setOwners g n o).latches = s.latches := rfl
@[simp] theorem State.setOwners_guards (s : State) (g n o : Nat) : (s.setOwners g n o).guards = s.guards := rfl
@[simp] theorem State.setOwners_commitMask (s : State) (g n o : Nat) : (s.setOwners g n o).commitMask = s.commitMask := rfl
@[simp] theorem State.setOwners_commitRefused (s : State) (g n o : Nat) : (s.setOwners g n o).commitRefused = s.commitRefused := rfl
@[simp] theorem State.setOwners_commitCount (s : State) (g n o : Nat) : (s.setOwners g n o).commitCount = s.commitCount := rfl
@[simp] theorem State.setOwners_events (s : State) (g n o : Nat) : (s.setOwners g n o).events = s.events := rfl
@[simp] theorem State.setOwners_loader (s : State) (g n o : Nat) : (s.setOwners g n o).loader = s.loader := rfl
@[simp] theorem State.setOwners_trans (s : State) (g n o : Nat) : (s.setOwners g n o).trans = s.trans := rfl
@[simp] theorem State.setOwners_mem (s : State) (g n o : Nat) : (s.setOwners g n o).mem = s.mem := rfl
@[simp] theorem State.setOwners_chaff (s : State) (g n o : Nat) : (s.setOwners g n o).chaff = s.chaff := rfl
@[simp] theorem State.setOwners_ue (s : State) (g n o : Nat) : (s.setOwners g n o).ue = s.ue := rfl
@[simp] theorem State.setOwners_cores (s : State) (g n o : Nat) : (s.setOwners g n o).cores = s.cores := rfl
@[simp] theorem State.setOwners_bays (s : State) (g n o : Nat) : (s.setOwners g n o).bays = s.bays := rfl
@[simp] theorem State.setOwners_batchers (s : State) (g n o : Nat) : (s.setOwners g n o).batchers = s.batchers := rfl
@[simp] theorem State.setOwners_insts (s : State) (g n o : Nat) : (s.setOwners g n o).insts = s.insts := rfl
@[simp] theorem State.setOwners_nextInst (s : State) (g n o : Nat) : (s.setOwners g n o).nextInst = s.nextInst := rfl
@[simp] theorem State.setOwners_queues (s : State) (g n o : Nat) : (s.setOwners g n o).queues = s.queues := rfl
@[simp] theorem State.setOwners_streams (s : State) (g n o : Nat) : (s.setOwners g n o).streams = s.streams := rfl
@[simp] theorem State.setOwners_seqs (s : State) (g n o : Nat) : (s.setOwners g n o).seqs = s.seqs := rfl
@[simp] theorem State.setOwners_engines (s : State) (g n o : Nat) : (s.setOwners g n o).engines = s.engines := rfl
@[simp] theorem State.setOwners_net (s : State) (g n o : Nat) : (s.setOwners g n o).net = s.net := rfl
@[simp] theorem State.setOwners_audio (s : State) (g n o : Nat) : (s.setOwners g n o).audio = s.audio := rfl
@[simp] theorem State.setOwners_vane (s : State) (g n o : Nat) : (s.setOwners g n o).vane = s.vane := rfl
@[simp] theorem State.setOwners_pmc (s : State) (g n o : Nat) : (s.setOwners g n o).pmc = s.pmc := rfl
@[simp] theorem State.setOwners_power (s : State) (g n o : Nat) : (s.setOwners g n o).power = s.power := rfl
@[simp] theorem State.setOwners_tap (s : State) (g n o : Nat) : (s.setOwners g n o).tap = s.tap := rfl
@[simp] theorem State.setOwners_sec (s : State) (g n o : Nat) : (s.setOwners g n o).sec = s.sec := rfl
@[simp] theorem State.setOwners_tel (s : State) (g n o : Nat) : (s.setOwners g n o).tel = s.tel := rfl

/-! ### `State.applyStaged` and `State.applyAll` -/

@[simp] theorem State.applyStaged_pending (s : State) (key : Nat) : (s.applyStaged key).pending = s.pending := by
  unfold State.applyStaged; split <;> rfl
@[simp] theorem State.applyAll_pending (s : State) (l : List Nat) : (s.applyAll l).pending = s.pending := by
  unfold State.applyAll; induction l generalizing s with
  | nil => rfl
  | cons k l ih => simp [ih]
@[simp] theorem State.applyStaged_free (s : State) (key : Nat) : (s.applyStaged key).free = s.free := by
  unfold State.applyStaged; split <;> rfl
@[simp] theorem State.applyAll_free (s : State) (l : List Nat) : (s.applyAll l).free = s.free := by
  unfold State.applyAll; induction l generalizing s with
  | nil => rfl
  | cons k l ih => simp [ih]
@[simp] theorem State.applyStaged_fuses (s : State) (key : Nat) : (s.applyStaged key).fuses = s.fuses := by
  unfold State.applyStaged; split <;> rfl
@[simp] theorem State.applyAll_fuses (s : State) (l : List Nat) : (s.applyAll l).fuses = s.fuses := by
  unfold State.applyAll; induction l generalizing s with
  | nil => rfl
  | cons k l ih => simp [ih]
@[simp] theorem State.applyStaged_lic (s : State) (key : Nat) : (s.applyStaged key).lic = s.lic := by
  unfold State.applyStaged; split <;> rfl
@[simp] theorem State.applyAll_lic (s : State) (l : List Nat) : (s.applyAll l).lic = s.lic := by
  unfold State.applyAll; induction l generalizing s with
  | nil => rfl
  | cons k l ih => simp [ih]
@[simp] theorem State.applyStaged_latches (s : State) (key : Nat) : (s.applyStaged key).latches = s.latches := by
  unfold State.applyStaged; split <;> rfl
@[simp] theorem State.applyAll_latches (s : State) (l : List Nat) : (s.applyAll l).latches = s.latches := by
  unfold State.applyAll; induction l generalizing s with
  | nil => rfl
  | cons k l ih => simp [ih]
@[simp] theorem State.applyStaged_guards (s : State) (key : Nat) : (s.applyStaged key).guards = s.guards := by
  unfold State.applyStaged; split <;> rfl
@[simp] theorem State.applyAll_guards (s : State) (l : List Nat) : (s.applyAll l).guards = s.guards := by
  unfold State.applyAll; induction l generalizing s with
  | nil => rfl
  | cons k l ih => simp [ih]
@[simp] theorem State.applyStaged_commitMask (s : State) (key : Nat) : (s.applyStaged key).commitMask = s.commitMask := by
  unfold State.applyStaged; split <;> rfl
@[simp] theorem State.applyAll_commitMask (s : State) (l : List Nat) : (s.applyAll l).commitMask = s.commitMask := by
  unfold State.applyAll; induction l generalizing s with
  | nil => rfl
  | cons k l ih => simp [ih]
@[simp] theorem State.applyStaged_commitRefused (s : State) (key : Nat) : (s.applyStaged key).commitRefused = s.commitRefused := by
  unfold State.applyStaged; split <;> rfl
@[simp] theorem State.applyAll_commitRefused (s : State) (l : List Nat) : (s.applyAll l).commitRefused = s.commitRefused := by
  unfold State.applyAll; induction l generalizing s with
  | nil => rfl
  | cons k l ih => simp [ih]
@[simp] theorem State.applyStaged_commitCount (s : State) (key : Nat) : (s.applyStaged key).commitCount = s.commitCount := by
  unfold State.applyStaged; split <;> rfl
@[simp] theorem State.applyAll_commitCount (s : State) (l : List Nat) : (s.applyAll l).commitCount = s.commitCount := by
  unfold State.applyAll; induction l generalizing s with
  | nil => rfl
  | cons k l ih => simp [ih]
@[simp] theorem State.applyStaged_events (s : State) (key : Nat) : (s.applyStaged key).events = s.events := by
  unfold State.applyStaged; split <;> rfl
@[simp] theorem State.applyAll_events (s : State) (l : List Nat) : (s.applyAll l).events = s.events := by
  unfold State.applyAll; induction l generalizing s with
  | nil => rfl
  | cons k l ih => simp [ih]
@[simp] theorem State.applyStaged_loader (s : State) (key : Nat) : (s.applyStaged key).loader = s.loader := by
  unfold State.applyStaged; split <;> rfl
@[simp] theorem State.applyAll_loader (s : State) (l : List Nat) : (s.applyAll l).loader = s.loader := by
  unfold State.applyAll; induction l generalizing s with
  | nil => rfl
  | cons k l ih => simp [ih]
@[simp] theorem State.applyStaged_trans (s : State) (key : Nat) : (s.applyStaged key).trans = s.trans := by
  unfold State.applyStaged; split <;> rfl
@[simp] theorem State.applyAll_trans (s : State) (l : List Nat) : (s.applyAll l).trans = s.trans := by
  unfold State.applyAll; induction l generalizing s with
  | nil => rfl
  | cons k l ih => simp [ih]
@[simp] theorem State.applyStaged_tiers (s : State) (key : Nat) : (s.applyStaged key).tiers = s.tiers := by
  unfold State.applyStaged; split <;> rfl
@[simp] theorem State.applyAll_tiers (s : State) (l : List Nat) : (s.applyAll l).tiers = s.tiers := by
  unfold State.applyAll; induction l generalizing s with
  | nil => rfl
  | cons k l ih => simp [ih]
@[simp] theorem State.applyStaged_mem (s : State) (key : Nat) : (s.applyStaged key).mem = s.mem := by
  unfold State.applyStaged; split <;> rfl
@[simp] theorem State.applyAll_mem (s : State) (l : List Nat) : (s.applyAll l).mem = s.mem := by
  unfold State.applyAll; induction l generalizing s with
  | nil => rfl
  | cons k l ih => simp [ih]
@[simp] theorem State.applyStaged_chaff (s : State) (key : Nat) : (s.applyStaged key).chaff = s.chaff := by
  unfold State.applyStaged; split <;> rfl
@[simp] theorem State.applyAll_chaff (s : State) (l : List Nat) : (s.applyAll l).chaff = s.chaff := by
  unfold State.applyAll; induction l generalizing s with
  | nil => rfl
  | cons k l ih => simp [ih]
@[simp] theorem State.applyStaged_ue (s : State) (key : Nat) : (s.applyStaged key).ue = s.ue := by
  unfold State.applyStaged; split <;> rfl
@[simp] theorem State.applyAll_ue (s : State) (l : List Nat) : (s.applyAll l).ue = s.ue := by
  unfold State.applyAll; induction l generalizing s with
  | nil => rfl
  | cons k l ih => simp [ih]
@[simp] theorem State.applyStaged_cores (s : State) (key : Nat) : (s.applyStaged key).cores = s.cores := by
  unfold State.applyStaged; split <;> rfl
@[simp] theorem State.applyAll_cores (s : State) (l : List Nat) : (s.applyAll l).cores = s.cores := by
  unfold State.applyAll; induction l generalizing s with
  | nil => rfl
  | cons k l ih => simp [ih]
@[simp] theorem State.applyStaged_bays (s : State) (key : Nat) : (s.applyStaged key).bays = s.bays := by
  unfold State.applyStaged; split <;> rfl
@[simp] theorem State.applyAll_bays (s : State) (l : List Nat) : (s.applyAll l).bays = s.bays := by
  unfold State.applyAll; induction l generalizing s with
  | nil => rfl
  | cons k l ih => simp [ih]
@[simp] theorem State.applyStaged_batchers (s : State) (key : Nat) : (s.applyStaged key).batchers = s.batchers := by
  unfold State.applyStaged; split <;> rfl
@[simp] theorem State.applyAll_batchers (s : State) (l : List Nat) : (s.applyAll l).batchers = s.batchers := by
  unfold State.applyAll; induction l generalizing s with
  | nil => rfl
  | cons k l ih => simp [ih]
@[simp] theorem State.applyStaged_insts (s : State) (key : Nat) : (s.applyStaged key).insts = s.insts := by
  unfold State.applyStaged; split <;> rfl
@[simp] theorem State.applyAll_insts (s : State) (l : List Nat) : (s.applyAll l).insts = s.insts := by
  unfold State.applyAll; induction l generalizing s with
  | nil => rfl
  | cons k l ih => simp [ih]
@[simp] theorem State.applyStaged_nextInst (s : State) (key : Nat) : (s.applyStaged key).nextInst = s.nextInst := by
  unfold State.applyStaged; split <;> rfl
@[simp] theorem State.applyAll_nextInst (s : State) (l : List Nat) : (s.applyAll l).nextInst = s.nextInst := by
  unfold State.applyAll; induction l generalizing s with
  | nil => rfl
  | cons k l ih => simp [ih]
@[simp] theorem State.applyStaged_queues (s : State) (key : Nat) : (s.applyStaged key).queues = s.queues := by
  unfold State.applyStaged; split <;> rfl
@[simp] theorem State.applyAll_queues (s : State) (l : List Nat) : (s.applyAll l).queues = s.queues := by
  unfold State.applyAll; induction l generalizing s with
  | nil => rfl
  | cons k l ih => simp [ih]
@[simp] theorem State.applyStaged_streams (s : State) (key : Nat) : (s.applyStaged key).streams = s.streams := by
  unfold State.applyStaged; split <;> rfl
@[simp] theorem State.applyAll_streams (s : State) (l : List Nat) : (s.applyAll l).streams = s.streams := by
  unfold State.applyAll; induction l generalizing s with
  | nil => rfl
  | cons k l ih => simp [ih]
@[simp] theorem State.applyStaged_seqs (s : State) (key : Nat) : (s.applyStaged key).seqs = s.seqs := by
  unfold State.applyStaged; split <;> rfl
@[simp] theorem State.applyAll_seqs (s : State) (l : List Nat) : (s.applyAll l).seqs = s.seqs := by
  unfold State.applyAll; induction l generalizing s with
  | nil => rfl
  | cons k l ih => simp [ih]
@[simp] theorem State.applyStaged_engines (s : State) (key : Nat) : (s.applyStaged key).engines = s.engines := by
  unfold State.applyStaged; split <;> rfl
@[simp] theorem State.applyAll_engines (s : State) (l : List Nat) : (s.applyAll l).engines = s.engines := by
  unfold State.applyAll; induction l generalizing s with
  | nil => rfl
  | cons k l ih => simp [ih]
@[simp] theorem State.applyStaged_net (s : State) (key : Nat) : (s.applyStaged key).net = s.net := by
  unfold State.applyStaged; split <;> rfl
@[simp] theorem State.applyAll_net (s : State) (l : List Nat) : (s.applyAll l).net = s.net := by
  unfold State.applyAll; induction l generalizing s with
  | nil => rfl
  | cons k l ih => simp [ih]
@[simp] theorem State.applyStaged_audio (s : State) (key : Nat) : (s.applyStaged key).audio = s.audio := by
  unfold State.applyStaged; split <;> rfl
@[simp] theorem State.applyAll_audio (s : State) (l : List Nat) : (s.applyAll l).audio = s.audio := by
  unfold State.applyAll; induction l generalizing s with
  | nil => rfl
  | cons k l ih => simp [ih]
@[simp] theorem State.applyStaged_vane (s : State) (key : Nat) : (s.applyStaged key).vane = s.vane := by
  unfold State.applyStaged; split <;> rfl
@[simp] theorem State.applyAll_vane (s : State) (l : List Nat) : (s.applyAll l).vane = s.vane := by
  unfold State.applyAll; induction l generalizing s with
  | nil => rfl
  | cons k l ih => simp [ih]
@[simp] theorem State.applyStaged_pmc (s : State) (key : Nat) : (s.applyStaged key).pmc = s.pmc := by
  unfold State.applyStaged; split <;> rfl
@[simp] theorem State.applyAll_pmc (s : State) (l : List Nat) : (s.applyAll l).pmc = s.pmc := by
  unfold State.applyAll; induction l generalizing s with
  | nil => rfl
  | cons k l ih => simp [ih]
@[simp] theorem State.applyStaged_power (s : State) (key : Nat) : (s.applyStaged key).power = s.power := by
  unfold State.applyStaged; split <;> rfl
@[simp] theorem State.applyAll_power (s : State) (l : List Nat) : (s.applyAll l).power = s.power := by
  unfold State.applyAll; induction l generalizing s with
  | nil => rfl
  | cons k l ih => simp [ih]
@[simp] theorem State.applyStaged_tap (s : State) (key : Nat) : (s.applyStaged key).tap = s.tap := by
  unfold State.applyStaged; split <;> rfl
@[simp] theorem State.applyAll_tap (s : State) (l : List Nat) : (s.applyAll l).tap = s.tap := by
  unfold State.applyAll; induction l generalizing s with
  | nil => rfl
  | cons k l ih => simp [ih]
@[simp] theorem State.applyStaged_sec (s : State) (key : Nat) : (s.applyStaged key).sec = s.sec := by
  unfold State.applyStaged; split <;> rfl
@[simp] theorem State.applyAll_sec (s : State) (l : List Nat) : (s.applyAll l).sec = s.sec := by
  unfold State.applyAll; induction l generalizing s with
  | nil => rfl
  | cons k l ih => simp [ih]
@[simp] theorem State.applyStaged_tel (s : State) (key : Nat) : (s.applyStaged key).tel = s.tel := by
  unfold State.applyStaged; split <;> rfl
@[simp] theorem State.applyAll_tel (s : State) (l : List Nat) : (s.applyAll l).tel = s.tel := by
  unfold State.applyAll; induction l generalizing s with
  | nil => rfl
  | cons k l ih => simp [ih]

end Sys2Proof.Machine
end

