-- ==== Sys2Proof/Laws/Settle.lean ====
section
/-! SUPPORT. What the end of a command adds to the state that the command leaves: event records and their limits, and `EB_EVENT_LOST`
(12 R303, R304); nothing else. -/

namespace Sys2Proof.Machine

/-- A register that is written reads as written. -/
@[simp] theorem State.reg_setReg_same (s : State) (key : Nat) (v : Word) : (s.setReg key v).reg key = v := by
  simp [State.reg, State.cell, State.setReg]

/-- Other registers read as before. -/
theorem State.cell_setReg_other (s : State) {key k : Nat} (v : Word) (h : k ≠ key) : (s.setReg key v).cell k = s.cell k := by
  simp [State.cell, State.setReg, AMap.getD_set_other _ _ _ h]

theorem State.reg_setReg_other (s : State) {key k : Nat} (v : Word) (h : k ≠ key) : (s.setReg key v).reg k = s.reg k := by
  simp [State.reg, State.cell_setReg_other s v h]

/-- A staged value is read as staged, and the value in force stays. -/
@[simp] theorem State.reg_stage (s : State) (key k : Nat) (v : Word) : (s.stage key v).reg k = s.reg k := by
  by_cases h : k = key
  · subst h; simp [State.reg, State.cell, State.stage]
  · simp [State.reg, State.cell, State.stage, AMap.getD_set_other _ _ _ h]

@[simp] theorem State.latest_stage_same (s : State) (key : Nat) (v : Word) : (s.stage key v).latest key = v := by
  simp [State.latest, State.cell, State.stage]

/-- A record queued leaves every register but `EB_EVENT_LOST`. -/
theorem State.queueRecord_cell (s : State) (r : EventRecord) {k : Nat} (h : k ≠ Reg.EB_EVENT_LOST) :
    (s.queueRecord r).cell k = s.cell k := by
  unfold State.queueRecord
  dsimp only
  split
  · exact State.cell_setReg_other _ _ h
  · rfl

theorem State.rise_cell (s : State) (a : Nat) (w : Word) {k : Nat} (h : k ≠ Reg.EB_EVENT_LOST) : (s.rise a w).cell k = s.cell k := by
  unfold State.rise
  dsimp only
  split
  · split <;> rfl
  · exact State.queueRecord_cell s _ h

/-- A fold of event rises keeps what one rise keeps. -/
theorem settle_keeps {α : Type} (f : State → α) (h : ∀ (s : State) a w, f (s.rise a w) = f s) (s s' : State) : f (settle s s') = f s' := by
  unfold settle
  generalize AMap.keys s'.regs = l
  suffices hs : ∀ (t : State), f (l.foldl (fun t key => match risen s s' key with | some (a, r) => t.rise a r | none => t) t) = f t from hs s'
  induction l with
  | nil => intro t; rfl
  | cons k l ih =>
    intro t
    rw [List.foldl_cons, ih]
    split
    · exact h _ _ _
    · rfl

/-- The end of a command leaves every register but `EB_EVENT_LOST`. -/
theorem settle_cell (s s' : State) {k : Nat} (h : k ≠ Reg.EB_EVENT_LOST) : (settle s s').cell k = s'.cell k :=
  settle_keeps (fun t => t.cell k) (fun t a w => State.rise_cell t a w h) s s'

theorem settle_reg (s s' : State) {k : Nat} (h : k ≠ Reg.EB_EVENT_LOST) : (settle s s').reg k = s'.reg k := by
  simp [State.reg, settle_cell s s' h]

theorem State.queueRecord_pending (s : State) (r : EventRecord) : (s.queueRecord r).pending = s.pending := by
  unfold State.queueRecord; dsimp only; split <;> rfl

theorem State.rise_pending (s : State) (a : Nat) (w : Word) : (s.rise a w).pending = s.pending := by
  unfold State.rise; dsimp only; split
  · split <;> rfl
  · exact State.queueRecord_pending s _

@[simp] theorem settle_pending (s s' : State) : (settle s s').pending = s'.pending := settle_keeps State.pending State.rise_pending s s'

theorem State.queueRecord_free (s : State) (r : EventRecord) : (s.queueRecord r).free = s.free := by
  unfold State.queueRecord; dsimp only; split <;> rfl

theorem State.rise_free (s : State) (a : Nat) (w : Word) : (s.rise a w).free = s.free := by
  unfold State.rise; dsimp only; split
  · split <;> rfl
  · exact State.queueRecord_free s _

@[simp] theorem settle_free (s s' : State) : (settle s s').free = s'.free := settle_keeps State.free State.rise_free s s'

theorem State.queueRecord_fuses (s : State) (r : EventRecord) : (s.queueRecord r).fuses = s.fuses := by
  unfold State.queueRecord; dsimp only; split <;> rfl

theorem State.rise_fuses (s : State) (a : Nat) (w : Word) : (s.rise a w).fuses = s.fuses := by
  unfold State.rise; dsimp only; split
  · split <;> rfl
  · exact State.queueRecord_fuses s _

@[simp] theorem settle_fuses (s s' : State) : (settle s s').fuses = s'.fuses := settle_keeps State.fuses State.rise_fuses s s'

theorem State.queueRecord_lic (s : State) (r : EventRecord) : (s.queueRecord r).lic = s.lic := by
  unfold State.queueRecord; dsimp only; split <;> rfl

theorem State.rise_lic (s : State) (a : Nat) (w : Word) : (s.rise a w).lic = s.lic := by
  unfold State.rise; dsimp only; split
  · split <;> rfl
  · exact State.queueRecord_lic s _

@[simp] theorem settle_lic (s s' : State) : (settle s s').lic = s'.lic := settle_keeps State.lic State.rise_lic s s'

theorem State.queueRecord_latches (s : State) (r : EventRecord) : (s.queueRecord r).latches = s.latches := by
  unfold State.queueRecord; dsimp only; split <;> rfl

theorem State.rise_latches (s : State) (a : Nat) (w : Word) : (s.rise a w).latches = s.latches := by
  unfold State.rise; dsimp only; split
  · split <;> rfl
  · exact State.queueRecord_latches s _

@[simp] theorem settle_latches (s s' : State) : (settle s s').latches = s'.latches := settle_keeps State.latches State.rise_latches s s'

theorem State.queueRecord_guards (s : State) (r : EventRecord) : (s.queueRecord r).guards = s.guards := by
  unfold State.queueRecord; dsimp only; split <;> rfl

theorem State.rise_guards (s : State) (a : Nat) (w : Word) : (s.rise a w).guards = s.guards := by
  unfold State.rise; dsimp only; split
  · split <;> rfl
  · exact State.queueRecord_guards s _

@[simp] theorem settle_guards (s s' : State) : (settle s s').guards = s'.guards := settle_keeps State.guards State.rise_guards s s'

theorem State.queueRecord_commitMask (s : State) (r : EventRecord) : (s.queueRecord r).commitMask = s.commitMask := by
  unfold State.queueRecord; dsimp only; split <;> rfl

theorem State.rise_commitMask (s : State) (a : Nat) (w : Word) : (s.rise a w).commitMask = s.commitMask := by
  unfold State.rise; dsimp only; split
  · split <;> rfl
  · exact State.queueRecord_commitMask s _

@[simp] theorem settle_commitMask (s s' : State) : (settle s s').commitMask = s'.commitMask := settle_keeps State.commitMask State.rise_commitMask s s'

theorem State.queueRecord_commitRefused (s : State) (r : EventRecord) : (s.queueRecord r).commitRefused = s.commitRefused := by
  unfold State.queueRecord; dsimp only; split <;> rfl

theorem State.rise_commitRefused (s : State) (a : Nat) (w : Word) : (s.rise a w).commitRefused = s.commitRefused := by
  unfold State.rise; dsimp only; split
  · split <;> rfl
  · exact State.queueRecord_commitRefused s _

@[simp] theorem settle_commitRefused (s s' : State) : (settle s s').commitRefused = s'.commitRefused := settle_keeps State.commitRefused State.rise_commitRefused s s'

theorem State.queueRecord_commitCount (s : State) (r : EventRecord) : (s.queueRecord r).commitCount = s.commitCount := by
  unfold State.queueRecord; dsimp only; split <;> rfl

theorem State.rise_commitCount (s : State) (a : Nat) (w : Word) : (s.rise a w).commitCount = s.commitCount := by
  unfold State.rise; dsimp only; split
  · split <;> rfl
  · exact State.queueRecord_commitCount s _

@[simp] theorem settle_commitCount (s s' : State) : (settle s s').commitCount = s'.commitCount := settle_keeps State.commitCount State.rise_commitCount s s'

theorem State.queueRecord_loader (s : State) (r : EventRecord) : (s.queueRecord r).loader = s.loader := by
  unfold State.queueRecord; dsimp only; split <;> rfl

theorem State.rise_loader (s : State) (a : Nat) (w : Word) : (s.rise a w).loader = s.loader := by
  unfold State.rise; dsimp only; split
  · split <;> rfl
  · exact State.queueRecord_loader s _

@[simp] theorem settle_loader (s s' : State) : (settle s s').loader = s'.loader := settle_keeps State.loader State.rise_loader s s'

theorem State.queueRecord_trans (s : State) (r : EventRecord) : (s.queueRecord r).trans = s.trans := by
  unfold State.queueRecord; dsimp only; split <;> rfl

theorem State.rise_trans (s : State) (a : Nat) (w : Word) : (s.rise a w).trans = s.trans := by
  unfold State.rise; dsimp only; split
  · split <;> rfl
  · exact State.queueRecord_trans s _

@[simp] theorem settle_trans (s s' : State) : (settle s s').trans = s'.trans := settle_keeps State.trans State.rise_trans s s'

theorem State.queueRecord_tiers (s : State) (r : EventRecord) : (s.queueRecord r).tiers = s.tiers := by
  unfold State.queueRecord; dsimp only; split <;> rfl

theorem State.rise_tiers (s : State) (a : Nat) (w : Word) : (s.rise a w).tiers = s.tiers := by
  unfold State.rise; dsimp only; split
  · split <;> rfl
  · exact State.queueRecord_tiers s _

@[simp] theorem settle_tiers (s s' : State) : (settle s s').tiers = s'.tiers := settle_keeps State.tiers State.rise_tiers s s'

theorem State.queueRecord_mem (s : State) (r : EventRecord) : (s.queueRecord r).mem = s.mem := by
  unfold State.queueRecord; dsimp only; split <;> rfl

theorem State.rise_mem (s : State) (a : Nat) (w : Word) : (s.rise a w).mem = s.mem := by
  unfold State.rise; dsimp only; split
  · split <;> rfl
  · exact State.queueRecord_mem s _

@[simp] theorem settle_mem (s s' : State) : (settle s s').mem = s'.mem := settle_keeps State.mem State.rise_mem s s'

theorem State.queueRecord_chaff (s : State) (r : EventRecord) : (s.queueRecord r).chaff = s.chaff := by
  unfold State.queueRecord; dsimp only; split <;> rfl

theorem State.rise_chaff (s : State) (a : Nat) (w : Word) : (s.rise a w).chaff = s.chaff := by
  unfold State.rise; dsimp only; split
  · split <;> rfl
  · exact State.queueRecord_chaff s _

@[simp] theorem settle_chaff (s s' : State) : (settle s s').chaff = s'.chaff := settle_keeps State.chaff State.rise_chaff s s'

theorem State.queueRecord_ue (s : State) (r : EventRecord) : (s.queueRecord r).ue = s.ue := by
  unfold State.queueRecord; dsimp only; split <;> rfl

theorem State.rise_ue (s : State) (a : Nat) (w : Word) : (s.rise a w).ue = s.ue := by
  unfold State.rise; dsimp only; split
  · split <;> rfl
  · exact State.queueRecord_ue s _

@[simp] theorem settle_ue (s s' : State) : (settle s s').ue = s'.ue := settle_keeps State.ue State.rise_ue s s'

theorem State.queueRecord_cores (s : State) (r : EventRecord) : (s.queueRecord r).cores = s.cores := by
  unfold State.queueRecord; dsimp only; split <;> rfl

theorem State.rise_cores (s : State) (a : Nat) (w : Word) : (s.rise a w).cores = s.cores := by
  unfold State.rise; dsimp only; split
  · split <;> rfl
  · exact State.queueRecord_cores s _

@[simp] theorem settle_cores (s s' : State) : (settle s s').cores = s'.cores := settle_keeps State.cores State.rise_cores s s'

theorem State.queueRecord_bays (s : State) (r : EventRecord) : (s.queueRecord r).bays = s.bays := by
  unfold State.queueRecord; dsimp only; split <;> rfl

theorem State.rise_bays (s : State) (a : Nat) (w : Word) : (s.rise a w).bays = s.bays := by
  unfold State.rise; dsimp only; split
  · split <;> rfl
  · exact State.queueRecord_bays s _

@[simp] theorem settle_bays (s s' : State) : (settle s s').bays = s'.bays := settle_keeps State.bays State.rise_bays s s'

theorem State.queueRecord_batchers (s : State) (r : EventRecord) : (s.queueRecord r).batchers = s.batchers := by
  unfold State.queueRecord; dsimp only; split <;> rfl

theorem State.rise_batchers (s : State) (a : Nat) (w : Word) : (s.rise a w).batchers = s.batchers := by
  unfold State.rise; dsimp only; split
  · split <;> rfl
  · exact State.queueRecord_batchers s _

@[simp] theorem settle_batchers (s s' : State) : (settle s s').batchers = s'.batchers := settle_keeps State.batchers State.rise_batchers s s'

theorem State.queueRecord_insts (s : State) (r : EventRecord) : (s.queueRecord r).insts = s.insts := by
  unfold State.queueRecord; dsimp only; split <;> rfl

theorem State.rise_insts (s : State) (a : Nat) (w : Word) : (s.rise a w).insts = s.insts := by
  unfold State.rise; dsimp only; split
  · split <;> rfl
  · exact State.queueRecord_insts s _

@[simp] theorem settle_insts (s s' : State) : (settle s s').insts = s'.insts := settle_keeps State.insts State.rise_insts s s'

theorem State.queueRecord_nextInst (s : State) (r : EventRecord) : (s.queueRecord r).nextInst = s.nextInst := by
  unfold State.queueRecord; dsimp only; split <;> rfl

theorem State.rise_nextInst (s : State) (a : Nat) (w : Word) : (s.rise a w).nextInst = s.nextInst := by
  unfold State.rise; dsimp only; split
  · split <;> rfl
  · exact State.queueRecord_nextInst s _

@[simp] theorem settle_nextInst (s s' : State) : (settle s s').nextInst = s'.nextInst := settle_keeps State.nextInst State.rise_nextInst s s'

theorem State.queueRecord_queues (s : State) (r : EventRecord) : (s.queueRecord r).queues = s.queues := by
  unfold State.queueRecord; dsimp only; split <;> rfl

theorem State.rise_queues (s : State) (a : Nat) (w : Word) : (s.rise a w).queues = s.queues := by
  unfold State.rise; dsimp only; split
  · split <;> rfl
  · exact State.queueRecord_queues s _

@[simp] theorem settle_queues (s s' : State) : (settle s s').queues = s'.queues := settle_keeps State.queues State.rise_queues s s'

theorem State.queueRecord_streams (s : State) (r : EventRecord) : (s.queueRecord r).streams = s.streams := by
  unfold State.queueRecord; dsimp only; split <;> rfl

theorem State.rise_streams (s : State) (a : Nat) (w : Word) : (s.rise a w).streams = s.streams := by
  unfold State.rise; dsimp only; split
  · split <;> rfl
  · exact State.queueRecord_streams s _

@[simp] theorem settle_streams (s s' : State) : (settle s s').streams = s'.streams := settle_keeps State.streams State.rise_streams s s'

theorem State.queueRecord_seqs (s : State) (r : EventRecord) : (s.queueRecord r).seqs = s.seqs := by
  unfold State.queueRecord; dsimp only; split <;> rfl

theorem State.rise_seqs (s : State) (a : Nat) (w : Word) : (s.rise a w).seqs = s.seqs := by
  unfold State.rise; dsimp only; split
  · split <;> rfl
  · exact State.queueRecord_seqs s _

@[simp] theorem settle_seqs (s s' : State) : (settle s s').seqs = s'.seqs := settle_keeps State.seqs State.rise_seqs s s'

theorem State.queueRecord_engines (s : State) (r : EventRecord) : (s.queueRecord r).engines = s.engines := by
  unfold State.queueRecord; dsimp only; split <;> rfl

theorem State.rise_engines (s : State) (a : Nat) (w : Word) : (s.rise a w).engines = s.engines := by
  unfold State.rise; dsimp only; split
  · split <;> rfl
  · exact State.queueRecord_engines s _

@[simp] theorem settle_engines (s s' : State) : (settle s s').engines = s'.engines := settle_keeps State.engines State.rise_engines s s'

theorem State.queueRecord_net (s : State) (r : EventRecord) : (s.queueRecord r).net = s.net := by
  unfold State.queueRecord; dsimp only; split <;> rfl

theorem State.rise_net (s : State) (a : Nat) (w : Word) : (s.rise a w).net = s.net := by
  unfold State.rise; dsimp only; split
  · split <;> rfl
  · exact State.queueRecord_net s _

@[simp] theorem settle_net (s s' : State) : (settle s s').net = s'.net := settle_keeps State.net State.rise_net s s'

theorem State.queueRecord_audio (s : State) (r : EventRecord) : (s.queueRecord r).audio = s.audio := by
  unfold State.queueRecord; dsimp only; split <;> rfl

theorem State.rise_audio (s : State) (a : Nat) (w : Word) : (s.rise a w).audio = s.audio := by
  unfold State.rise; dsimp only; split
  · split <;> rfl
  · exact State.queueRecord_audio s _

@[simp] theorem settle_audio (s s' : State) : (settle s s').audio = s'.audio := settle_keeps State.audio State.rise_audio s s'

theorem State.queueRecord_vane (s : State) (r : EventRecord) : (s.queueRecord r).vane = s.vane := by
  unfold State.queueRecord; dsimp only; split <;> rfl

theorem State.rise_vane (s : State) (a : Nat) (w : Word) : (s.rise a w).vane = s.vane := by
  unfold State.rise; dsimp only; split
  · split <;> rfl
  · exact State.queueRecord_vane s _

@[simp] theorem settle_vane (s s' : State) : (settle s s').vane = s'.vane := settle_keeps State.vane State.rise_vane s s'

theorem State.queueRecord_pmc (s : State) (r : EventRecord) : (s.queueRecord r).pmc = s.pmc := by
  unfold State.queueRecord; dsimp only; split <;> rfl

theorem State.rise_pmc (s : State) (a : Nat) (w : Word) : (s.rise a w).pmc = s.pmc := by
  unfold State.rise; dsimp only; split
  · split <;> rfl
  · exact State.queueRecord_pmc s _

@[simp] theorem settle_pmc (s s' : State) : (settle s s').pmc = s'.pmc := settle_keeps State.pmc State.rise_pmc s s'

theorem State.queueRecord_power (s : State) (r : EventRecord) : (s.queueRecord r).power = s.power := by
  unfold State.queueRecord; dsimp only; split <;> rfl

theorem State.rise_power (s : State) (a : Nat) (w : Word) : (s.rise a w).power = s.power := by
  unfold State.rise; dsimp only; split
  · split <;> rfl
  · exact State.queueRecord_power s _

@[simp] theorem settle_power (s s' : State) : (settle s s').power = s'.power := settle_keeps State.power State.rise_power s s'

theorem State.queueRecord_tap (s : State) (r : EventRecord) : (s.queueRecord r).tap = s.tap := by
  unfold State.queueRecord; dsimp only; split <;> rfl

theorem State.rise_tap (s : State) (a : Nat) (w : Word) : (s.rise a w).tap = s.tap := by
  unfold State.rise; dsimp only; split
  · split <;> rfl
  · exact State.queueRecord_tap s _

@[simp] theorem settle_tap (s s' : State) : (settle s s').tap = s'.tap := settle_keeps State.tap State.rise_tap s s'

theorem State.queueRecord_sec (s : State) (r : EventRecord) : (s.queueRecord r).sec = s.sec := by
  unfold State.queueRecord; dsimp only; split <;> rfl

theorem State.rise_sec (s : State) (a : Nat) (w : Word) : (s.rise a w).sec = s.sec := by
  unfold State.rise; dsimp only; split
  · split <;> rfl
  · exact State.queueRecord_sec s _

@[simp] theorem settle_sec (s s' : State) : (settle s s').sec = s'.sec := settle_keeps State.sec State.rise_sec s s'

theorem State.queueRecord_tel (s : State) (r : EventRecord) : (s.queueRecord r).tel = s.tel := by
  unfold State.queueRecord; dsimp only; split <;> rfl

theorem State.rise_tel (s : State) (a : Nat) (w : Word) : (s.rise a w).tel = s.tel := by
  unfold State.rise; dsimp only; split
  · split <;> rfl
  · exact State.queueRecord_tel s _

@[simp] theorem settle_tel (s s' : State) : (settle s s').tel = s'.tel := settle_keeps State.tel State.rise_tel s s'

end Sys2Proof.Machine
end

