-- ==== Sys2Proof/Laws/Access.lean ====
section
/-! SUPPORT. What a checked write and a guarded write do, once for every command (12 R290, R301, R302, 10 R251, 14 R342). -/

namespace Sys2Proof.Machine

variable {s : State} {src : Source} {key : Nat}

/-- A write whose checks pass acts. -/
theorem checkedWrite_of_mayWrite (h : s.MayWrite src key) (op : State → State × RegStatus) : s.checkedWrite src key op = op s := by
  obtain ⟨ha, hr, hg⟩ := h
  simp [State.checkedWrite, ha, hr, hg]

/-- A guarded command through its open guard acts on the state with the guard closed. -/
theorem rkWrite_of_held (h : s.MayWrite src key) (hg : s.GuardHeld src key) (op : State → State) :
    s.rkWrite src key op = op (s.closeGuard src) := by
  unfold State.rkWrite
  rw [checkedWrite_of_mayWrite h]
  unfold State.guarded
  rw [if_pos (show s.guard src = some (blockOf key) from hg)]

/-- A guarded command without its open guard is counted, and does nothing else. -/
theorem rkWrite_of_not_held (h : s.MayWrite src key) (hg : ¬ s.GuardHeld src key) (op : State → State) :
    s.rkWrite src key op = s.count16 Reg.HUB_GUARD_REFUSED := by
  unfold State.rkWrite
  rw [checkedWrite_of_mayWrite h]
  unfold State.guarded
  rw [if_neg (show ¬ s.guard src = some (blockOf key) from hg)]

theorem cmdWrite_of_held (h : s.MayWrite src key) (hg : s.GuardHeld src key) (v : Word) (op : State → State) :
    s.cmdWrite src key v op = op ((s.closeGuard src).setReg key v) := by
  unfold State.cmdWrite
  rw [rkWrite_of_held h hg]

theorem cmdWrite_of_not_held (h : s.MayWrite src key) (hg : ¬ s.GuardHeld src key) (v : Word) (op : State → State) :
    s.cmdWrite src key v op = s.count16 Reg.HUB_GUARD_REFUSED := by
  unfold State.cmdWrite
  rw [rkWrite_of_not_held h hg]

/-- A write that needs no guard acts on the state with the source's guard of the block closed. -/
theorem plainWrite_of_mayWrite (h : s.MayWrite src key) (op : State → State) : s.plainWrite src key op = op (s.Entered src key) := by
  unfold State.plainWrite
  rw [checkedWrite_of_mayWrite h]
  rfl

/-- A write of a source without a session is refused (10 R251). -/
theorem checkedWrite_of_not_admitted (h : s.admitted src = false) (op : State → State × RegStatus) :
    s.checkedWrite src key op = (s.count32 Reg.EB_RX_REFUSED 1, .notPermitted) := by simp [State.checkedWrite, h]

/-- A write of a session without the role is refused and counted (14 R342). -/
theorem checkedWrite_of_no_role (ha : s.admitted src = true) (h : s.hasRole src (writeRole key) = false)
    (op : State → State × RegStatus) : s.checkedWrite src key op = (s.roleRefused, .notPermitted) := by
  simp [State.checkedWrite, ha, h]

theorem readCommand_of_mayRead (h : s.MayRead src) : s.readCommand src key = s.readEffect key := by
  obtain ⟨ha, hr⟩ := h
  simp [State.readCommand, ha, hr]

/-- An accepted guarded command acts on the state with its guard closed and its register written. -/
theorem cmdWrite_of_mayCommand (h : s.MayCommand src key) (v : Word) (op : State → State) :
    s.cmdWrite src key v op = op (s.Commanded src key v) := cmdWrite_of_held h.1 h.2 v op

theorem rkWrite_of_mayCommand (h : s.MayCommand src key) (op : State → State) : s.rkWrite src key op = op (s.closeGuard src) :=
  rkWrite_of_held h.1 h.2 op

theorem runs_iff (c : Instr) (s t : State) : Runs c s t ↔ exec c s = .next (settle s t) := Iff.rfl

/-- A command whose meaning is `done` of an effect runs to it. -/
theorem runs_done {c : Instr} {s t : State} (h : exec c s = s.done t) : Runs c s t := h

/-- Writing leaves what `writeCloses` does not touch: the guards alone may change. -/
theorem State.writeCloses_eq (s : State) (src : Source) (b : Block) :
    s.writeCloses src b = { s with guards := if s.guard src = some b then AMap.erase s.guards (sourceId src) else s.guards } := by
  unfold State.writeCloses State.closeGuard
  split <;> rfl

end Sys2Proof.Machine
end

