-- ==== Sys2Proof/Laws/Memory.lean ====
section
/-! SUPPORT. Physical memory: reads after writes, and that every memory operation keeps the canonical form. -/

namespace Sys2Proof.Machine

theorem memPut_wf {m : AMap Byte} (a : Nat) (b : Byte) (h : Memory.wf m) : Memory.wf (memPut m a b) := by
  unfold memPut
  split
  · exact ⟨AMap.wf_erase a h.1, fun e he => h.2 e (AMap.mem_erase he)⟩
  · rename_i hb
    refine ⟨AMap.wf_set a b h.1, fun e he => ?_⟩
    rcases AMap.mem_set he with rfl | he
    · exact hb
    · exact h.2 e he

theorem memPutAll_wf {m : AMap Byte} (a : Nat) (bs : Bytes) (h : Memory.wf m) : Memory.wf (memPutAll m a bs) := by
  induction bs generalizing m a with
  | nil => exact h
  | cons b rest ih => exact ih (a + 1) (memPut_wf a b h)

theorem memKeep_wf {m : AMap Byte} (p : Nat → Byte → Bool) (h : Memory.wf m) : Memory.wf (AMap.keep p m) :=
  ⟨AMap.wf_keep p h.1, fun e he => h.2 e (List.mem_filter.mp he).1⟩

theorem physWrite_wf (s : State) (a : Nat) (bs : Bytes) (chaff : Bool) (h : Memory.wf s.mem) :
    Memory.wf (s.physWrite a bs chaff).mem := memPutAll_wf a bs h

theorem physWrite64_wf (s : State) (a : Nat) (w : W64) (h : Memory.wf s.mem) : Memory.wf (s.physWrite64 a w).mem :=
  memPutAll_wf a _ h

theorem physClear_wf (s : State) (a len : Nat) (h : Memory.wf s.mem) : Memory.wf (s.physClear a len).mem :=
  memKeep_wf (fun k _ => !decide (a ≤ k ∧ k < a + len)) h

theorem memFold_wf {m : AMap Byte} (l : AMap Byte) (f : Nat → Nat) (h : Memory.wf m) :
    Memory.wf (l.foldl (fun m e => memPut m (f e.1) e.2) m) := by
  induction l generalizing m with
  | nil => exact h
  | cons e rest ih => exact ih (memPut_wf _ _ h)

theorem physCopy_wf (s : State) (src dst len : Nat) (h : Memory.wf s.mem) : Memory.wf (s.physCopy src dst len).mem :=
  memFold_wf _ (fun k => dst + (k - src)) (physClear_wf s dst len h)

/-! ### Reads after writes -/

theorem memPut_same {m : AMap Byte} (a : Nat) (b : Byte) (h : Memory.wf m) : AMap.getD (memPut m a b) a 0 = b := by
  unfold memPut
  split
  · rename_i hb; subst hb; simp [AMap.getD, AMap.get?_erase_same a h.1]
  · simp

theorem memPut_other (m : AMap Byte) {a i : Nat} (b : Byte) (h : i ≠ a) : AMap.getD (memPut m a b) i 0 = AMap.getD m i 0 := by
  unfold memPut
  split
  · simp [AMap.getD, AMap.get?_erase_other m h]
  · exact AMap.getD_set_other m b 0 h

theorem memPutAll_outside (m : AMap Byte) (a : Nat) (bs : Bytes) (i : Nat) (h : i < a ∨ a + bs.length ≤ i) :
    AMap.getD (memPutAll m a bs) i 0 = AMap.getD m i 0 := by
  induction bs generalizing m a with
  | nil => rfl
  | cons b rest ih =>
    simp only [List.length_cons] at h
    rw [memPutAll, ih (memPut m a b) (a + 1) (by omega), memPut_other m b (by omega)]

theorem memPutAll_inside {m : AMap Byte} (a : Nat) (bs : Bytes) (hm : Memory.wf m) (i : Nat) (h : i < bs.length) :
    AMap.getD (memPutAll m a bs) (a + i) 0 = bs[i] := by
  induction bs generalizing m a i with
  | nil => simp at h
  | cons b rest ih =>
    cases i with
    | zero =>
      simp only [memPutAll, Nat.add_zero, List.getElem_cons_zero]
      rw [memPutAll_outside _ _ _ _ (by omega), memPut_same a b hm]
    | succ n =>
      simp only [memPutAll, List.getElem_cons_succ]
      rw [show a + (n + 1) = a + 1 + n by omega, ih (a + 1) (memPut_wf a b hm) n (by simpa using h)]

theorem physWrite_byte_outside (s : State) (a : Nat) (bs : Bytes) (c : Bool) (i : Nat) (h : i < a ∨ a + bs.length ≤ i) :
    (s.physWrite a bs c).byte i = s.byte i := memPutAll_outside s.mem a bs i h

theorem physWrite_byte_inside (s : State) (a : Nat) (bs : Bytes) (c : Bool) (hm : Memory.wf s.mem) (i : Nat) (h : i < bs.length) :
    (s.physWrite a bs c).byte (a + i) = bs[i] := memPutAll_inside a bs hm i h

end Sys2Proof.Machine
end

