-- ==== Sys2Proof/Laws/Frame.lean ====
section
/-! SUPPORT. What an operation leaves alone: memory and the fuses altogether (`Still`), or the fuses and the canonical form of memory (`Kept`).
The lemmas of the Frame files say so once for each operation of the machine. -/

namespace Sys2Proof.Machine

/-- Memory and the fuses stay. -/
structure Still (s t : State) : Prop where
  fuses : t.fuses = s.fuses
  mem : t.mem = s.mem

/-- The fuses stay, and memory keeps its canonical form (16 R383). -/
structure Kept (s t : State) : Prop where
  fuses : t.fuses = s.fuses
  mem : Memory.wf s.mem → Memory.wf t.mem

theorem Still.refl (s : State) : Still s s := ⟨rfl, rfl⟩
theorem Kept.refl (s : State) : Kept s s := ⟨rfl, id⟩

theorem Still.kept {s t : State} (h : Still s t) : Kept s t := ⟨h.fuses, fun w => by rw [h.mem]; exact w⟩

/-- An operation on a state that a previous one left. -/
theorem Still.step {s u t : State} (h : Still u t) (k : Still s u) : Still s t := ⟨h.fuses.trans k.fuses, h.mem.trans k.mem⟩
theorem Kept.step {s u t : State} (h : Kept u t) (k : Kept s u) : Kept s t := ⟨h.fuses.trans k.fuses, fun w => h.mem (k.mem w)⟩

theorem Still.fst {α : Type} {u t : State} {p : State × α} {r : α} (h : p = (t, r)) (k : Still u p.1) : Still u t := by subst h; exact k
theorem Kept.fst {α : Type} {u t : State} {p : State × α} {r : α} (h : p = (t, r)) (k : Kept u p.1) : Kept u t := by subst h; exact k

/-- A record update, field by field. -/
theorem Still.upd {s : State} {f : Fuses} {m : AMap Byte} {a_pending : List Instr} {a_free : Nat} {a_lic : W64} {a_regs : AMap RegCell} {a_latches : AMap Word} {a_guards : AMap Block} {a_commitMask : Option Word} {a_commitRefused : Bool} {a_commitCount : Nat} {a_events : Events} {a_loader : Loader} {a_trans : Trans} {a_tiers : Tiers} {a_chaff : List Nat} {a_ue : List Nat} {a_cores : AMap Core} {a_bays : AMap Bay} {a_batchers : AMap Batcher} {a_insts : AMap Inst} {a_nextInst : Nat} {a_queues : AMap HandleQueue} {a_streams : AMap Stream} {a_seqs : AMap SeqCtx} {a_engines : Engines} {a_net : Net} {a_audio : Audio} {a_vane : Vane} {a_pmc : Pmc} {a_power : Power} {a_tap : Tap} {a_sec : Sec} {a_tel : Tel} :
    Still s ⟨a_pending, a_free, f, a_lic, a_regs, a_latches, a_guards, a_commitMask, a_commitRefused, a_commitCount, a_events, a_loader, a_trans, a_tiers, m, a_chaff, a_ue, a_cores, a_bays, a_batchers, a_insts, a_nextInst, a_queues, a_streams, a_seqs, a_engines, a_net, a_audio, a_vane, a_pmc, a_power, a_tap, a_sec, a_tel⟩ ↔ f = s.fuses ∧ m = s.mem := ⟨fun h => ⟨h.fuses, h.mem⟩, fun h => ⟨h.1, h.2⟩⟩
theorem Kept.upd {s : State} {f : Fuses} {m : AMap Byte} {a_pending : List Instr} {a_free : Nat} {a_lic : W64} {a_regs : AMap RegCell} {a_latches : AMap Word} {a_guards : AMap Block} {a_commitMask : Option Word} {a_commitRefused : Bool} {a_commitCount : Nat} {a_events : Events} {a_loader : Loader} {a_trans : Trans} {a_tiers : Tiers} {a_chaff : List Nat} {a_ue : List Nat} {a_cores : AMap Core} {a_bays : AMap Bay} {a_batchers : AMap Batcher} {a_insts : AMap Inst} {a_nextInst : Nat} {a_queues : AMap HandleQueue} {a_streams : AMap Stream} {a_seqs : AMap SeqCtx} {a_engines : Engines} {a_net : Net} {a_audio : Audio} {a_vane : Vane} {a_pmc : Pmc} {a_power : Power} {a_tap : Tap} {a_sec : Sec} {a_tel : Tel} :
    Kept s ⟨a_pending, a_free, f, a_lic, a_regs, a_latches, a_guards, a_commitMask, a_commitRefused, a_commitCount, a_events, a_loader, a_trans, a_tiers, m, a_chaff, a_ue, a_cores, a_bays, a_batchers, a_insts, a_nextInst, a_queues, a_streams, a_seqs, a_engines, a_net, a_audio, a_vane, a_pmc, a_power, a_tap, a_sec, a_tel⟩ ↔ f = s.fuses ∧ (Memory.wf s.mem → Memory.wf m) := ⟨fun h => ⟨h.fuses, h.mem⟩, fun h => ⟨h.1, h.2⟩⟩

theorem Still.of {s u : State} (h : Still s u) : u.fuses = s.fuses ∧ u.mem = s.mem := ⟨h.fuses, h.mem⟩
theorem Kept.of {s u : State} (h : Kept s u) : u.fuses = s.fuses ∧ (Memory.wf s.mem → Memory.wf u.mem) := ⟨h.fuses, h.mem⟩

theorem Still.snd {α : Type} {u t : State} {p : α × State} {r : α} (h : p = (r, t)) (k : Still u p.2) : Still u t := by subst h; exact k
theorem Kept.snd {α : Type} {u t : State} {p : α × State} {r : α} (h : p = (r, t)) (k : Kept u p.2) : Kept u t := by subst h; exact k

theorem Still.foldl {α : Type} {f : State → α → State} {l : List α} {s u : State} (h : ∀ t a, Still t (f t a)) (k : Still s u) :
    Still s (l.foldl f u) := by
  induction l generalizing u with
  | nil => exact k
  | cons a l ih => exact ih ((h u a).step k)
theorem Kept.foldl {α : Type} {f : State → α → State} {l : List α} {s u : State} (h : ∀ t a, Kept t (f t a)) (k : Kept s u) :
    Kept s (l.foldl f u) := by
  induction l generalizing u with
  | nil => exact k
  | cons a l ih => exact ih ((h u a).step k)

theorem Still.foldlP {α β : Type} {f : State × β → α → State × β} {l : List α} {s : State} {p : State × β}
    (h : ∀ q a, Still q.1 (f q a).1) (k : Still s p.1) : Still s (l.foldl f p).1 := by
  induction l generalizing p with
  | nil => exact k
  | cons a l ih => exact ih ((h p a).step k)
theorem Kept.foldlP {α β : Type} {f : State × β → α → State × β} {l : List α} {s : State} {p : State × β}
    (h : ∀ q a, Kept q.1 (f q a).1) (k : Kept s p.1) : Kept s (l.foldl f p).1 := by
  induction l generalizing p with
  | nil => exact k
  | cons a l ih => exact ih ((h p a).step k)

theorem Still.foldlQ {α β : Type} {f : State × β → α → State × β} {l : List α} {p : State × β}
    (h : ∀ q a, Still q.1 (f q a).1) : Still p.1 (l.foldl f p).1 := Still.foldlP h (Still.refl _)
theorem Kept.foldlQ {α β : Type} {f : State × β → α → State × β} {l : List α} {p : State × β}
    (h : ∀ q a, Kept q.1 (f q a).1) : Kept p.1 (l.foldl f p).1 := Kept.foldlP h (Kept.refl _)

theorem Still.ite {c : Prop} [Decidable c] {s a b : State} (h : Still s a) (k : Still s b) : Still s (if c then a else b) := by
  by_cases g : c <;> simp [g, h, k]
theorem Still.iteP {α : Type} {c : Prop} [Decidable c] {s : State} {a b : State × α} (h : Still s a.1) (k : Still s b.1) :
    Still s (if c then a else b).1 := by
  by_cases g : c <;> simp [g, h, k]
theorem Still.iteQ {α : Type} {c : Prop} [Decidable c] {s : State} {a b : α × State} (h : Still s a.2) (k : Still s b.2) :
    Still s (if c then a else b).2 := by
  by_cases g : c <;> simp [g, h, k]
theorem Kept.ite {c : Prop} [Decidable c] {s a b : State} (h : Kept s a) (k : Kept s b) : Kept s (if c then a else b) := by
  by_cases g : c <;> simp [g, h, k]
theorem Kept.iteP {α : Type} {c : Prop} [Decidable c] {s : State} {a b : State × α} (h : Kept s a.1) (k : Kept s b.1) :
    Kept s (if c then a else b).1 := by
  by_cases g : c <;> simp [g, h, k]
theorem Kept.iteQ {α : Type} {c : Prop} [Decidable c] {s : State} {a b : α × State} (h : Kept s a.2) (k : Kept s b.2) :
    Kept s (if c then a else b).2 := by
  by_cases g : c <;> simp [g, h, k]

/-- The state of an answered pair. -/
theorem Still.fst3 {α : Type} {s u t : State} {p : State × α} {r : α} (h : p = (t, r)) (k : Still u p.1) (g : Still s u) : Still s t := (Still.fst h k).step g
theorem Still.snd3 {α : Type} {s u t : State} {p : α × State} {r : α} (h : p = (r, t)) (k : Still u p.2) (g : Still s u) : Still s t := (Still.snd h k).step g
/-- The state of an answered pair. -/
theorem Kept.fst3 {α : Type} {s u t : State} {p : State × α} {r : α} (h : p = (t, r)) (k : Kept u p.1) (g : Kept s u) : Kept s t := (Kept.fst h k).step g
theorem Kept.snd3 {α : Type} {s u t : State} {p : α × State} {r : α} (h : p = (r, t)) (k : Kept u p.2) (g : Kept s u) : Kept s t := (Kept.snd h k).step g

end Sys2Proof.Machine
end

