-- ==== Sys2Proof/Laws/FrameOps.lean ====
section
/-! SUPPORT. What the operations of Machine/Ops.lean leave alone: memory and the fuses (`Still`), or the fuses and the form of memory
(`Kept`). -/

namespace Sys2Proof.Machine

theorem State.setCore_still {s : State} {n : Nat} {c : Core} : Still s (State.setCore s n c) := by
  unfold State.setCore
  repeat' (first | (simp only [Still.upd]; first | with_reducible refine Still.of ?_ | exact ⟨trivial, trivial⟩))

theorem State.setBay_still {s : State} {b : Nat} {x : Bay} : Still s (State.setBay s b x) := by
  unfold State.setBay
  repeat' (first | (simp only [Still.upd]; first | with_reducible refine Still.of ?_ | exact ⟨trivial, trivial⟩))

theorem State.setBatcher_still {s : State} {b : Nat} {x : Batcher} : Still s (State.setBatcher s b x) := by
  unfold State.setBatcher
  repeat' (first | (simp only [Still.upd]; first | with_reducible refine Still.of ?_ | exact ⟨trivial, trivial⟩))

theorem State.setInst_still {s : State} {i : Nat} {x : Inst} : Still s (State.setInst s i x) := by
  unfold State.setInst
  repeat' (first | (simp only [Still.upd]; first | with_reducible refine Still.of ?_ | exact ⟨trivial, trivial⟩))

theorem State.setQueue_still {s : State} {q : Nat} {x : HandleQueue} : Still s (State.setQueue s q x) := by
  unfold State.setQueue
  repeat' (first | (simp only [Still.upd]; first | with_reducible refine Still.of ?_ | exact ⟨trivial, trivial⟩))

theorem State.setStream_still {s : State} {i : Nat} {x : Stream} : Still s (State.setStream s i x) := by
  unfold State.setStream
  repeat' (first | (simp only [Still.upd]; first | with_reducible refine Still.of ?_ | exact ⟨trivial, trivial⟩))

theorem State.setSeq_still {s : State} {q : Nat} {x : SeqCtx} : Still s (State.setSeq s q x) := by
  unfold State.setSeq
  repeat' (first | (simp only [Still.upd]; first | with_reducible refine Still.of ?_ | exact ⟨trivial, trivial⟩))

theorem State.setPeer_still {s : State} {p : Nat} {x : Peer} : Still s (State.setPeer s p x) := by
  unfold State.setPeer
  repeat' (first | (simp only [Still.upd]; first | with_reducible refine Still.of ?_ | exact ⟨trivial, trivial⟩))

theorem State.setConn_still {s : State} {c : Nat} {x : Conn} : Still s (State.setConn s c x) := by
  unfold State.setConn
  repeat' (first | (simp only [Still.upd]; first | with_reducible refine Still.of ?_ | exact ⟨trivial, trivial⟩))

theorem State.setPort_still {s : State} {x : Port} : Still s (State.setPort s x) := by
  unfold State.setPort
  repeat' (first | (simp only [Still.upd]; first | with_reducible refine Still.of ?_ | exact ⟨trivial, trivial⟩))

theorem State.setAport_still {s : State} {p : Nat} {x : AudioPort} : Still s (State.setAport s p x) := by
  unfold State.setAport
  repeat' (first | (simp only [Still.upd]; first | with_reducible refine Still.of ?_ | exact ⟨trivial, trivial⟩))

theorem State.setAgroup_still {s : State} {g : Nat} {x : AudioGroup} : Still s (State.setAgroup s g x) := by
  unfold State.setAgroup
  repeat' (first | (simp only [Still.upd]; first | with_reducible refine Still.of ?_ | exact ⟨trivial, trivial⟩))

theorem State.sendItem_still {s : State} {x : SentItem} : Still s (State.sendItem s x) := by
  unfold State.sendItem
  repeat' (first | (simp only [Still.upd]; first | with_reducible refine Still.of ?_ | exact ⟨trivial, trivial⟩))

theorem State.send_still {s : State} {x : Sent} : Still s (State.send s x) := by
  unfold State.send
  repeat' (first | with_reducible exact Still.refl _ | with_reducible apply Still.step (State.sendItem_still))

theorem State.setReg_still {s : State} {key : Nat} {v : Word} : Still s (State.setReg s key v) := by
  unfold State.setReg
  repeat' (first | (simp only [Still.upd]; first | with_reducible refine Still.of ?_ | exact ⟨trivial, trivial⟩))

theorem State.stage_still {s : State} {key : Nat} {v : Word} : Still s (State.stage s key v) := by
  unfold State.stage
  repeat' (first | (simp only [Still.upd]; first | with_reducible refine Still.of ?_ | exact ⟨trivial, trivial⟩))

theorem State.applyStaged_still {s : State} {key : Nat} : Still s (State.applyStaged s key) := by
  unfold State.applyStaged
  repeat' (first
      | with_reducible exact Still.refl _ | (simp only [Still.upd]; first | with_reducible refine Still.of ?_ | exact ⟨trivial, trivial⟩) | split)

theorem State.applyAll_still {s : State} {keys : List Nat} : Still s (State.applyAll s keys) := by
  unfold State.applyAll
  repeat' (first
      | with_reducible exact Still.refl _ | with_reducible apply Still.step (State.applyStaged_still)
      | (with_reducible apply Still.foldl; intro _ _))

theorem State.applyWhere_still {s : State} {p : Nat → Bool} : Still s (State.applyWhere s p) := by
  unfold State.applyWhere
  repeat' (first | (simp only [Still.upd]; first | with_reducible refine Still.of ?_ | exact ⟨trivial, trivial⟩))

theorem State.countSat_still {s : State} {key : Nat} {bits : Nat} {lo : Nat} {n : Nat} : Still s (State.countSat s key bits lo n) := by
  unfold State.countSat
  repeat' (first | with_reducible exact Still.refl _ | with_reducible apply Still.step (State.setReg_still))

theorem State.countWrap_still {s : State} {key : Nat} {n : Nat} : Still s (State.countWrap s key n) := by
  unfold State.countWrap
  repeat' (first | with_reducible exact Still.refl _ | with_reducible apply Still.step (State.setReg_still))

theorem State.count16_still {s : State} {key : Nat} : Still s (State.count16 s key) := by
  unfold State.count16
  repeat' (first | with_reducible exact Still.refl _ | with_reducible apply Still.step (State.countSat_still))

theorem State.count32_still {s : State} {key : Nat} {n : Nat} : Still s (State.count32 s key n) := by
  unfold State.count32
  repeat' (first | with_reducible exact Still.refl _ | with_reducible apply Still.step (State.countSat_still))

theorem State.count64_still {s : State} {lo : Nat} {hi : Nat} {n : Nat} : Still s (State.count64 s lo hi n) := by
  unfold State.count64
  repeat' (first | with_reducible exact Still.refl _ | with_reducible apply Still.step (State.setReg_still))

theorem State.keepMax_still {s : State} {key : Nat} {bits : Nat} {n : Nat} : Still s (State.keepMax s key bits n) := by
  unfold State.keepMax
  repeat' (first | with_reducible exact Still.refl _ | with_reducible apply Still.step (State.setReg_still))

theorem State.latch_still {s : State} {status : Nat} {bitNo : Nat} : Still s (State.latch s status bitNo) := by
  unfold State.latch
  repeat' (first | (simp only [Still.upd]; first | with_reducible refine Still.of ?_ | exact ⟨trivial, trivial⟩))

theorem State.unlatch_still {s : State} {status : Nat} {bitNo : Nat} : Still s (State.unlatch s status bitNo) := by
  unfold State.unlatch
  repeat' (first | (simp only [Still.upd]; first | with_reducible refine Still.of ?_ | exact ⟨trivial, trivial⟩))

theorem State.draw_still {s : State} : Still s (State.draw s).2 := by
  unfold State.draw
  repeat' (first | (simp only [Still.upd]; first | with_reducible refine Still.of ?_ | exact ⟨trivial, trivial⟩))

theorem State.cribUpset_still {s : State} {u : Fin 36 × Nat × Nat × Bool} : Still s (State.cribUpset s u) := by
  unfold State.cribUpset
  repeat' (first
      | with_reducible exact Still.refl _ | with_reducible apply Still.step (State.count32_still)
      | with_reducible apply Still.step (State.setInst_still) | with_reducible apply Still.ite
      | (simp only [Still.upd]; first | with_reducible refine Still.of ?_ | exact ⟨trivial, trivial⟩) | split)

theorem tick_still {s : State} : Still s (tick s) := by
  unfold tick
  repeat' (first
      | with_reducible exact Still.refl _ | with_reducible apply Still.step (State.applyStaged_still)
      | with_reducible apply Still.step (State.cribUpset_still) | with_reducible apply Still.ite
      | (simp only [Still.upd]; first | with_reducible refine Still.of ?_ | exact ⟨trivial, trivial⟩) | split)

theorem State.physWrite_kept {s : State} {a : Nat} {bs : Bytes} {chaff : Bool} : Kept s (State.physWrite s a bs chaff) :=
  ⟨rfl, physWrite_wf s a bs chaff⟩

theorem State.physWrite64_kept {s : State} {a : Nat} {w : W64} : Kept s (State.physWrite64 s a w) :=
  ⟨rfl, physWrite64_wf s a w⟩

theorem State.physClear_kept {s : State} {a len : Nat} : Kept s (State.physClear s a len) :=
  ⟨rfl, physClear_wf s a len⟩

theorem State.physCopy_kept {s : State} {src dst len : Nat} : Kept s (State.physCopy s src dst len) :=
  ⟨rfl, physCopy_wf s src dst len⟩

end Sys2Proof.Machine
end

