-- ==== Sys2Proof/Laws/FrameTelOps.lean ====
section
/-! SUPPORT. What the operations of Machine/TelOps.lean leave alone: memory and the fuses (`Still`), or the fuses and the form of memory
(`Kept`). -/

namespace Sys2Proof.Machine

theorem State.setRing_still {s : State} {r : Nat} {x : SubRing} : Still s (State.setRing s r x) := by
  unfold State.setRing
  repeat' (first | (simp only [Still.upd]; first | with_reducible refine Still.of ?_ | exact ⟨trivial, trivial⟩))

theorem State.setLevel_still {s : State} {r : Nat} {level : SquallLevel} : Still s (State.setLevel s r level) := by
  unfold State.setLevel
  repeat' (first
      | with_reducible exact Still.refl _ | with_reducible apply Still.step (State.countWrap_still)
      | with_reducible apply Still.step (State.setRing_still) | with_reducible apply Still.ite)

theorem State.checkEnter_still {s : State} {r : Nat} : Still s (State.checkEnter s r) := by
  unfold State.checkEnter
  repeat' (first | with_reducible exact Still.refl _ | with_reducible apply Still.step (State.setLevel_still) | with_reducible apply Still.ite)

theorem State.hubTake_still {s : State} {trace : Bool} {bay : Nat} {code : Nat} {unit : Nat} {arg1 : W64} {bytes : Bytes} :
    Still s (State.hubTake s trace bay code unit arg1 bytes) := by
  unfold State.hubTake
  repeat' (first
      | with_reducible exact Still.refl _ | with_reducible apply Still.step (State.checkEnter_still)
      | with_reducible apply Still.step (State.setRing_still) | with_reducible apply Still.ite
      | (simp only [Still.upd]; first | with_reducible refine Still.of ?_ | exact ⟨trivial, trivial⟩) | split | dsimp only)

theorem State.repairShown_still {s : State} {kind : RepairKind} {target : Nat} {step : Nat} {result : Nat} :
    Still s (State.repairShown s kind target step result) := by
  unfold State.repairShown
  repeat' (first
      | with_reducible exact Still.refl _ | with_reducible apply Still.step (State.latch_still)
      | (simp only [Still.upd]; first | with_reducible refine Still.of ?_ | exact ⟨trivial, trivial⟩))

theorem State.log_still {s : State} {bay : Nat} {code : Nat} {unit : Nat} {arg0 : Word} {arg1 : Nat} :
    Still s (State.log s bay code unit arg0 arg1) := by
  unfold State.log
  repeat' (first | with_reducible exact Still.refl _ | with_reducible apply Still.step (State.hubTake_still))

theorem State.trace_still {s : State} {bay : Nat} {code : Nat} {unit : Nat} {arg0 : Word} {arg1 : Nat} :
    Still s (State.trace s bay code unit arg0 arg1) := by
  unfold State.trace
  repeat' (first | with_reducible exact Still.refl _ | with_reducible apply Still.step (State.hubTake_still) | with_reducible apply Still.ite)

end Sys2Proof.Machine
end

