-- ==== Sys2Proof/Laws/FrameTierOps.lean ====
section
/-! SUPPORT. What the operations of Machine/TierOps.lean leave alone: memory and the fuses (`Still`), or the fuses and the form of memory
(`Kept`). -/

namespace Sys2Proof.Machine

theorem State.setOwner_still {s : State} {g : Nat} {o : Nat} : Still s (State.setOwner s g o) := by
  unfold State.setOwner
  repeat' (first | (simp only [Still.upd]; first | with_reducible refine Still.of ?_ | exact ⟨trivial, trivial⟩))

theorem State.setOwners_still {s : State} {g : Nat} {n : Nat} {o : Nat} : Still s (State.setOwners s g n o) := by
  unfold State.setOwners
  repeat' (first | (simp only [Still.upd]; first | with_reducible refine Still.of ?_ | exact ⟨trivial, trivial⟩))

theorem State.meetUe_still {s : State} {a : Nat} {len : Nat} : Still s (State.meetUe s a len) := by
  unfold State.meetUe
  repeat' (first
      | with_reducible exact Still.refl _ | with_reducible apply Still.step (State.countSat_still)
      | with_reducible apply Still.step (State.latch_still) | with_reducible apply Still.step (State.log_still)
      | with_reducible apply Still.step (State.setReg_still) | (with_reducible apply Still.foldl; intro _ _)
      | (simp only [Still.upd]; first | with_reducible refine Still.of ?_ | exact ⟨trivial, trivial⟩))

theorem State.walkFrom_still {s : State} {b : Nat} {va : Nat} {place : Nat} {e0 : Nat} {e1 : Nat} {e2 : Nat} :
    Still s (State.walkFrom s b va place e0 e1 e2).1 := by
  induction e0 generalizing s b va place e1 e2 with
  | zero =>
    unfold State.walkFrom
    with_reducible exact Still.refl _
  | succ n ih =>
    unfold State.walkFrom
    repeat' (first
        | with_reducible exact Still.refl _ | with_reducible apply Still.step (ih ..) | with_reducible apply Still.step (State.draw_still)
        | with_reducible apply Still.step (State.meetUe_still) | with_reducible apply Still.iteP | with_reducible apply Still.ite
        | (simp only [Still.upd]; first | with_reducible refine Still.of ?_ | exact ⟨trivial, trivial⟩) | split | dsimp only)

theorem State.fillLeaf_still {s : State} {place : Nat} {cap : Nat} {b : Nat} {va : Nat} {size : Nat} {e : W64} :
    Still s (State.fillLeaf s place cap b va size e) := by
  unfold State.fillLeaf
  repeat' (first | (simp only [Still.upd]; first | with_reducible refine Still.of ?_ | exact ⟨trivial, trivial⟩))

theorem State.translateBy_still {s : State} {old : Option Bool} {b : Nat} {va : Nat} {write : Bool} {en : Engine} :
    Still s (State.translateBy s old b va write en).1 := by
  unfold State.translateBy
  repeat' (first
      | with_reducible exact Still.refl _ | with_reducible apply Still.step (State.countWrap_still)
      | with_reducible apply Still.step (State.draw_still) | with_reducible apply Still.step (State.fillLeaf_still)
      | with_reducible apply Still.step (State.walkFrom_still) | with_reducible apply Still.iteP
      | (simp only [Still.upd]; first | with_reducible refine Still.of ?_ | exact ⟨trivial, trivial⟩) | split | dsimp only)

theorem State.translate_still {s : State} {b : Nat} {va : Nat} {write : Bool} {en : Engine} : Still s (State.translate s b va write en).1 := by
  unfold State.translate
  repeat' (first | with_reducible exact Still.refl _ | with_reducible apply Still.step (State.translateBy_still))

theorem State.meetTables_still {s : State} {b : Nat} {va : Nat} {e0 : Nat} {e1 : Nat} {e2 : Nat} : Still s (State.meetTables s b va e0 e1 e2) := by
  induction e0 generalizing s b va e1 e2 with
  | zero =>
    unfold State.meetTables
    with_reducible exact Still.refl _
  | succ n ih =>
    unfold State.meetTables
    repeat' (first
        | with_reducible exact Still.refl _ | with_reducible apply Still.step (ih ..) | with_reducible apply Still.step (State.meetUe_still)
        | with_reducible apply Still.ite)

theorem State.readPte_still {s : State} {b : Nat} {va : Nat} : Still s (State.readPte s b va) := by
  unfold State.readPte
  repeat' (first | with_reducible exact Still.refl _ | with_reducible apply Still.step (State.meetTables_still) | split)

theorem State.dropCached_still {s : State} {b : Nat} {whole : Bool} {allLevels : Bool} {start : Nat} {len : Nat} :
    Still s (State.dropCached s b whole allLevels start len) := by
  unfold State.dropCached
  repeat' (first | (simp only [Still.upd]; first | with_reducible refine Still.of ?_ | exact ⟨trivial, trivial⟩))

theorem State.postRecord_kept {s : State} {f : OutFault} : Kept s (State.postRecord s f).1 := by
  unfold State.postRecord
  repeat' (first
      | with_reducible exact Kept.refl _ | with_reducible apply Kept.step (State.physWrite_kept)
      | with_reducible apply Kept.step (State.setReg_still).kept | with_reducible apply Kept.iteP
      | (simp only [Kept.upd]; first | with_reducible refine Kept.of ?_ | exact ⟨trivial, fun h => h⟩))

theorem State.raiseFault_kept {s : State} {b : Nat} {va : Nat} {write : Bool} {en : Engine} {cause : FaultCause} {level : Nat} {entry : W64} {holder : FaultHolder} :
    Kept s (State.raiseFault s b va write en cause level entry holder).1 := by
  unfold State.raiseFault
  repeat' (first
      | with_reducible exact Kept.refl _ | with_reducible apply Kept.step (State.postRecord_kept) | with_reducible apply Kept.iteP
      | (simp only [Kept.upd]; first | with_reducible refine Kept.of ?_ | exact ⟨trivial, fun h => h⟩))

theorem State.postWaiting_kept {s : State} : Kept s (State.postWaiting s) := by
  unfold State.postWaiting
  repeat' (first
      | with_reducible exact Kept.refl _ | with_reducible apply Kept.step (State.postRecord_kept) | with_reducible apply Kept.ite
      | (with_reducible apply Kept.foldl; intro _ _)
      | (simp only [Kept.upd]; first | with_reducible refine Kept.of ?_ | exact ⟨trivial, fun h => h⟩))

theorem State.readPhys_still {s : State} {t : Translation} {va : Nat} {len : Nat} : Still s (State.readPhys s t va len).1 := by
  unfold State.readPhys
  repeat' (first | with_reducible exact Still.refl _ | with_reducible apply Still.step (State.meetUe_still))

theorem State.translateRun_still {s : State} {b : Nat} {write : Bool} {en : Engine} {e0 : List (Nat × Nat)} :
    Still s (State.translateRun s b write en e0).1 := by
  induction e0 generalizing s b write en with
  | nil =>
    unfold State.translateRun
    with_reducible exact Still.refl _
  | cons a l ih =>
    unfold State.translateRun
    repeat' (first
        | with_reducible exact Still.refl _ | with_reducible refine Still.fst3 (by assumption) (State.translate_still) ?_
        | with_reducible refine Still.fst3 (by assumption) (ih ..) ?_ | split)

theorem State.readRun_still {s : State} {b : Nat} {va : Nat} {len : Nat} {en : Engine} : Still s (State.readRun s b va len en).1 := by
  unfold State.readRun
  repeat' (first
      | with_reducible exact Still.refl _ | with_reducible apply Still.step (State.readPhys_still)
      | (with_reducible apply Still.foldlP; intro _ _) | with_reducible refine Still.fst3 (by assumption) (State.translateRun_still) ?_ | split)

theorem State.writePieces_kept {s : State} {va0 : Nat} {bs : Bytes} {chaff : Bool} {l : List (Nat × Nat × Translation)} :
    Kept s (State.writePieces s va0 bs chaff l) := by
  unfold State.writePieces
  repeat' (first
      | with_reducible exact Kept.refl _ | with_reducible apply Kept.step (State.physWrite_kept) | (with_reducible apply Kept.foldl; intro _ _))

theorem State.writeRun_kept {s : State} {b : Nat} {va : Nat} {bs : Bytes} {chaff : Bool} {en : Engine} :
    Kept s (State.writeRun s b va bs chaff en).1 := by
  unfold State.writeRun
  repeat' (first
      | with_reducible exact Kept.refl _ | with_reducible apply Kept.step (State.writePieces_kept)
      | with_reducible refine Kept.fst3 (by assumption) (State.translateRun_still).kept ?_ | split)

theorem State.takeFrame_still {s : State} {tier : Nat} {size : Nat} {channel : Option Nat} : Still s (State.takeFrame s tier size channel).1 := by
  unfold State.takeFrame
  repeat' (first | with_reducible exact Still.refl _ | with_reducible apply Still.step (State.draw_still))

theorem State.queueMig_still {s : State} {b : Nat} {va : W64} {target : Nat} {lc : Bool} {origin : MigOrigin} :
    Still s (State.queueMig s b va target lc origin) := by
  unfold State.queueMig
  repeat' (first | (simp only [Still.upd]; first | with_reducible refine Still.of ?_ | exact ⟨trivial, trivial⟩))

theorem State.issueMig_still {s : State} {b : Nat} {va : Nat} {target : Nat} {lc : Bool} {origin : MigOrigin} :
    Still s (State.issueMig s b va target lc origin) := by
  unfold State.issueMig
  repeat' (first | with_reducible exact Still.refl _ | with_reducible apply Still.step (State.queueMig_still) | with_reducible apply Still.ite)

theorem State.tierResult_still {s : State} {r : TierResult} : Still s (State.tierResult s r) := by
  unfold State.tierResult
  repeat' (first
      | with_reducible exact Still.refl _ | with_reducible apply Still.step (State.latch_still)
      | (simp only [Still.upd]; first | with_reducible refine Still.of ?_ | exact ⟨trivial, trivial⟩))

theorem State.dropMig_still {s : State} {m : Migration} {r : TierResult} : Still s (State.dropMig s m r) := by
  unfold State.dropMig
  repeat' (first
      | with_reducible apply Still.step (State.tierResult_still) | with_reducible apply Still.ite
      | (simp only [Still.upd]; first | with_reducible refine Still.of ?_ | exact ⟨trivial, trivial⟩))

end Sys2Proof.Machine
end

