-- ==== Sys2Proof/Laws/FrameSheafOps.lean ====
section
/-! SUPPORT. What the operations of Machine/SheafOps.lean leave alone: memory and the fuses (`Still`), or the fuses and the form of memory
(`Kept`). -/

namespace Sys2Proof.Machine

theorem State.drainRuns_still {s : State} {q : Nat} : Still s (State.drainRuns s q) := by
  unfold State.drainRuns
  repeat' (first | with_reducible exact Still.refl _ | with_reducible apply Still.step (State.setQueue_still))

theorem State.pushRun_still {s : State} {q : Nat} {run : List QueueEntry} : Still s (State.pushRun s q run) := by
  unfold State.pushRun
  repeat' (first
      | with_reducible exact Still.refl _ | with_reducible apply Still.step (State.drainRuns_still)
      | with_reducible apply Still.step (State.setQueue_still) | with_reducible apply Still.ite)

theorem State.popQueue_still {s : State} {q : Nat} : Still s (State.popQueue s q).1 := by
  unfold State.popQueue
  repeat' (first
      | with_reducible exact Still.refl _ | with_reducible apply Still.step (State.drainRuns_still)
      | with_reducible apply Still.step (State.setQueue_still) | split | dsimp only)

theorem State.setPool_still {s : State} {b : Nat} {p : Nat} {x : Pool} : Still s (State.setPool s b p x) := by
  unfold State.setPool
  repeat' (first | with_reducible exact Still.refl _ | with_reducible apply Still.step (State.setBay_still))

theorem State.takeBuffer_still {s : State} {b : Nat} {p : Nat} : Still s (State.takeBuffer s b p).1 := by
  unfold State.takeBuffer
  repeat' (first
      | with_reducible exact Still.refl _ | with_reducible apply Still.step (State.setPool_still)
      | with_reducible refine Still.snd3 (by assumption) (State.draw_still) ?_ | split | dsimp only)

theorem State.poolIdle_still {s : State} {b : Nat} {p : Nat} : Still s (State.poolIdle s b p) := by
  unfold State.poolIdle
  repeat' (first | with_reducible exact Still.refl _ | with_reducible apply Still.step (State.applyAll_still) | with_reducible apply Still.ite)

theorem State.releaseBuffer_still {s : State} {b : Nat} {p : Nat} {k : Nat} : Still s (State.releaseBuffer s b p k) := by
  unfold State.releaseBuffer
  repeat' (first
      | with_reducible exact Still.refl _ | with_reducible apply Still.step (State.count16_still)
      | with_reducible apply Still.step (State.poolIdle_still) | with_reducible apply Still.step (State.setPool_still)
      | with_reducible apply Still.ite)

theorem State.returnBuffer_still {s : State} {b : Nat} {p : Nat} {k : Nat} : Still s (State.returnBuffer s b p k) := by
  unfold State.returnBuffer
  repeat' (first
      | with_reducible exact Still.refl _ | with_reducible apply Still.step (State.releaseBuffer_still) | with_reducible apply Still.ite)

theorem State.getBuffer_still {s : State} {b : Nat} {p : Nat} {i : Nat} {k : ProgKind} : Still s (State.getBuffer s b p i k).1 := by
  unfold State.getBuffer
  repeat' (first
      | with_reducible exact Still.refl _ | with_reducible apply Still.step (State.setPool_still)
      | with_reducible apply Still.step (State.takeBuffer_still))

theorem State.awaitBuffer_still {s : State} {b : Nat} {p : Nat} {i : Nat} {k : ProgKind} {lc : Bool} : Still s (State.awaitBuffer s b p i k lc) := by
  unfold State.awaitBuffer
  repeat' (first
      | with_reducible exact Still.refl _ | with_reducible apply Still.step (State.countWrap_still)
      | with_reducible apply Still.step (State.setPool_still) | with_reducible apply Still.ite)

theorem State.chooseIssue_still {s : State} {n : Nat} : Still s (State.chooseIssue s n) := by
  unfold State.chooseIssue
  repeat' (first | with_reducible exact Still.refl _ | with_reducible apply Still.step (State.setCore_still) | split)

theorem State.enlistReady_still {s : State} {b : Nat} {i : Nat} {be : Bool} : Still s (State.enlistReady s b i be) := by
  unfold State.enlistReady
  repeat' (first | with_reducible exact Still.refl _ | with_reducible apply Still.step (State.setBay_still) | with_reducible apply Still.ite)

theorem State.createInst_still {s : State} {b : Nat} {d : SheafDesc} {origin : InstOrigin} {chain : Option Nat} {popped : List (Nat × QueueEntry)} :
    Still s (State.createInst s b d origin chain popped).1 := by
  unfold State.createInst
  repeat' (first
      | with_reducible exact Still.refl _ | with_reducible apply Still.step (State.enlistReady_still)
      | with_reducible apply Still.step (State.setBay_still) | with_reducible apply Still.step (State.setInst_still)
      | (simp only [Still.upd]; first | with_reducible refine Still.of ?_ | exact ⟨trivial, trivial⟩))

theorem State.place_still {s : State} {b : Nat} {i : Nat} {n : Nat} {k : Nat} {x : Inst} : Still s (State.place s b i n k x) := by
  unfold State.place
  repeat' (first
      | with_reducible exact Still.refl _ | with_reducible apply Still.step (State.applyStaged_still)
      | with_reducible apply Still.step (State.countWrap_still) | with_reducible apply Still.step (State.keepMax_still)
      | with_reducible apply Still.step (State.setBay_still) | with_reducible apply Still.step (State.setCore_still)
      | with_reducible apply Still.step (State.setInst_still) | with_reducible apply Still.step (State.trace_still)
      | with_reducible apply Still.ite)

theorem State.beginSave_still {s : State} {n : Nat} {k : Nat} {taker : Option Nat} : Still s (State.beginSave s n k taker) := by
  unfold State.beginSave
  repeat' (first
      | with_reducible exact Still.refl _ | with_reducible apply Still.step (State.setCore_still)
      | with_reducible apply Still.step (State.setInst_still) | split | dsimp only)

theorem State.preemptFor_still {s : State} {b : Nat} {i : Nat} {x : Inst} : Still s (State.preemptFor s b i x) := by
  unfold State.preemptFor
  repeat' (first
      | with_reducible exact Still.refl _ | with_reducible apply Still.step (State.beginSave_still)
      | with_reducible apply Still.step (State.countWrap_still) | with_reducible apply Still.step (State.setInst_still)
      | with_reducible apply Still.step (State.trace_still) | with_reducible apply Still.ite | split)

theorem State.beginRestore_still {s : State} {n : Nat} {k : Nat} {i : Nat} : Still s (State.beginRestore s n k i) := by
  unfold State.beginRestore
  repeat' (first
      | with_reducible exact Still.refl _ | with_reducible apply Still.step (State.setCore_still)
      | with_reducible apply Still.step (State.setInst_still) | split)

theorem State.grant_still {s : State} {n : Nat} : Still s (State.grant s n) := by
  unfold State.grant
  repeat' (first
      | with_reducible exact Still.refl _ | with_reducible apply Still.step (State.beginRestore_still) | with_reducible apply Still.ite | split)

theorem State.grantAll_still {s : State} {n : Nat} : Still s (State.grantAll s n) := by
  unfold State.grantAll
  repeat' (first
      | with_reducible exact Still.refl _ | with_reducible apply Still.step (State.grant_still) | (with_reducible apply Still.foldl; intro _ _))

theorem State.dispatchBe_still {s : State} {b : Nat} : Still s (State.dispatchBe s b) := by
  unfold State.dispatchBe
  repeat' (first
      | with_reducible exact Still.refl _ | with_reducible apply Still.step (State.place_still) | with_reducible apply Still.ite | split)

theorem State.dispatch_still {s0 : State} {b : Nat} : Still s0 (State.dispatch s0 b) := by
  unfold State.dispatch
  repeat' (first
      | with_reducible exact Still.refl _ | with_reducible apply Still.step (State.applyAll_still)
      | with_reducible apply Still.step (State.dispatchBe_still) | with_reducible apply Still.step (State.grantAll_still)
      | with_reducible apply Still.step (State.place_still) | with_reducible apply Still.step (State.preemptFor_still)
      | with_reducible apply Still.ite | (with_reducible apply Still.foldl; intro _ _) | split | dsimp only)

theorem State.preemptForSaved_still {s : State} {n : Nat} : Still s (State.preemptForSaved s n) := by
  unfold State.preemptForSaved
  repeat' (first
      | with_reducible exact Still.refl _ | with_reducible apply Still.step (State.beginSave_still)
      | with_reducible apply Still.step (State.countWrap_still) | with_reducible apply Still.step (State.trace_still)
      | with_reducible apply Still.ite | split)

theorem State.rouse_still {s : State} {i : Nat} : Still s (State.rouse s i) := by
  unfold State.rouse
  repeat' (first
      | with_reducible exact Still.refl _ | with_reducible apply Still.step (State.grant_still)
      | with_reducible apply Still.step (State.preemptForSaved_still) | with_reducible apply Still.ite | split)

theorem State.refresh_still {s : State} {i : Nat} : Still s (State.refresh s i) := by
  unfold State.refresh
  repeat' (first
      | with_reducible exact Still.refl _ | with_reducible apply Still.step (State.chooseIssue_still)
      | with_reducible apply Still.step (State.rouse_still) | with_reducible apply Still.step (State.setInst_still)
      | with_reducible apply Still.ite | split)

theorem State.leaveStall_still {s : State} {i : Nat} {x : Inst} : Still s (State.leaveStall s i x) := by
  unfold State.leaveStall
  repeat' (first | with_reducible exact Still.refl _ | with_reducible apply Still.step (State.setCore_still))

theorem State.dropInst_still {s : State} {i : Nat} : Still s (State.dropInst s i) := by
  unfold State.dropInst
  repeat' (first | (simp only [Still.upd]; first | with_reducible refine Still.of ?_ | exact ⟨trivial, trivial⟩))

theorem State.freeTiles_still {s : State} {b : Nat} {core : Nat} : Still s (State.freeTiles s b core) := by
  unfold State.freeTiles
  repeat' (first | with_reducible exact Still.refl _ | with_reducible apply Still.step (State.setCore_still))

theorem State.leaveRounds_still {s : State} {i : Nat} {x : Inst} : Still s (State.leaveRounds s i x) := by
  unfold State.leaveRounds
  repeat' (first
      | with_reducible exact Still.refl _ | with_reducible apply Still.step (State.freeTiles_still)
      | with_reducible apply Still.step (State.setBay_still))

theorem State.withdraw_still {s : State} {i : Nat} : Still s (State.withdraw s i) := by
  unfold State.withdraw
  repeat' (first | (simp only [Still.upd]; first | with_reducible refine Still.of ?_ | exact ⟨trivial, trivial⟩))

theorem State.discardEngines_still {s : State} {i : Nat} : Still s (State.discardEngines s i) := by
  unfold State.discardEngines
  repeat' (first | (simp only [Still.upd]; first | with_reducible refine Still.of ?_ | exact ⟨trivial, trivial⟩))

theorem State.publish_still {s : State} {x : Inst} : Still s (State.publish s x) := by
  unfold State.publish
  repeat' (first
      | with_reducible exact Still.refl _ | with_reducible apply Still.step (State.pushRun_still)
      | with_reducible apply Still.step (State.releaseBuffer_still) | (with_reducible apply Still.foldl; intro _ _))

theorem State.chaffPages_kept {s : State} {b : Nat} {en : Engine} {e0 : List (Nat × Nat)} : Kept s (State.chaffPages s b en e0).1 := by
  induction e0 generalizing s b en with
  | nil =>
    unfold State.chaffPages
    repeat' (first | with_reducible exact Kept.refl _)
  | cons a l ih =>
    unfold State.chaffPages
    repeat' (first
        | with_reducible exact Kept.refl _ | with_reducible apply Kept.step (ih ..) | with_reducible apply Kept.step (State.raiseFault_kept)
        | with_reducible apply Kept.iteP | with_reducible refine Kept.fst3 (by assumption) (State.translate_still).kept ?_
        | (simp only [Kept.upd]; first | with_reducible refine Kept.of ?_ | exact ⟨trivial, fun h => h⟩) | split)

theorem State.markBuffers_kept {s : State} {i : Nat} {e0 : List (Nat × Nat)} : Kept s (State.markBuffers s i e0).1 := by
  induction e0 generalizing s i with
  | nil =>
    unfold State.markBuffers
    repeat' (first | with_reducible exact Kept.refl _)
  | cons a l ih =>
    unfold State.markBuffers
    repeat' (first
        | with_reducible exact Kept.refl _ | with_reducible apply Kept.step (ih ..) | with_reducible apply Kept.step (State.raiseFault_kept)
        | with_reducible apply Kept.step (State.setInst_still).kept | with_reducible refine Kept.fst3 (by assumption) (State.chaffPages_kept) ?_
        | split | dsimp only)

theorem State.nextHandle_still {s : State} {x : Inst} {q : Nat} : Still s (State.nextHandle s x q).1 := by
  unfold State.nextHandle
  repeat' (first
      | with_reducible exact Still.refl _ | with_reducible refine Still.fst3 (by assumption) (State.popQueue_still) ?_ | split | dsimp only)

theorem State.runChaff_kept {s : State} {i : Nat} {e0 : Nat} : Kept s (State.runChaff s i e0) := by
  induction e0 generalizing s i with
  | zero =>
    unfold State.runChaff
    repeat' (first | with_reducible exact Kept.refl _)
  | succ n ih =>
    unfold State.runChaff
    repeat' (first
        | with_reducible exact Kept.refl _ | with_reducible apply Kept.step (ih ..)
        | with_reducible apply Kept.step (State.awaitBuffer_still).kept | with_reducible apply Kept.step (State.count32_still).kept
        | with_reducible apply Kept.step (State.setInst_still).kept | with_reducible apply Kept.ite
        | with_reducible refine Kept.fst3 (by assumption) (State.getBuffer_still).kept ?_
        | with_reducible refine Kept.fst3 (by assumption) (State.markBuffers_kept) ?_
        | with_reducible refine Kept.fst3 (by assumption) (State.nextHandle_still).kept ?_ | split | dsimp only)

theorem State.chaffOn_kept {s : State} {i : Nat} : Kept s (State.chaffOn s i) := by
  unfold State.chaffOn
  repeat' (first
      | with_reducible exact Kept.refl _ | with_reducible apply Kept.step (State.runChaff_kept)
      | with_reducible refine Kept.fst3 (by assumption) (State.markBuffers_kept) ?_ | split)

theorem State.abortNow_kept {s : State} {i : Nat} {cause : Nat} : Kept s (State.abortNow s i cause) := by
  unfold State.abortNow
  repeat' (first
      | with_reducible exact Kept.refl _ | with_reducible apply Kept.step (State.chaffOn_kept)
      | with_reducible apply Kept.step (State.count16_still).kept | with_reducible apply Kept.step (State.grant_still).kept
      | with_reducible apply Kept.step (State.leaveRounds_still).kept | with_reducible apply Kept.step (State.leaveStall_still).kept
      | with_reducible apply Kept.step (State.log_still).kept | with_reducible apply Kept.step (State.setInst_still).kept
      | with_reducible apply Kept.step (State.withdraw_still).kept | with_reducible apply Kept.ite
      | (simp only [Kept.upd]; first | with_reducible refine Kept.of ?_ | exact ⟨trivial, fun h => h⟩) | split)

theorem State.abortInst_kept {s : State} {i : Nat} {cause : Nat} : Kept s (State.abortInst s i cause) := by
  unfold State.abortInst
  repeat' (first
      | with_reducible exact Kept.refl _ | with_reducible apply Kept.step (State.abortNow_kept)
      | with_reducible apply Kept.step (State.setInst_still).kept | with_reducible apply Kept.ite | split)

theorem State.beginGlean_still {s : State} {i : Nat} {kind : GleanKind} : Still s (State.beginGlean s i kind) := by
  unfold State.beginGlean
  repeat' (first
      | with_reducible exact Still.refl _ | with_reducible apply Still.step (State.leaveRounds_still)
      | with_reducible apply Still.step (State.setInst_still) | with_reducible apply Still.step (State.withdraw_still)
      | (simp only [Still.upd]; first | with_reducible refine Still.of ?_ | exact ⟨trivial, trivial⟩) | split)

theorem State.replayInst_still {s : State} {i : Nat} {x : Inst} {faults : Nat} : Still s (State.replayInst s i x faults) := by
  unfold State.replayInst
  repeat' (first
      | with_reducible apply Still.step (State.beginGlean_still) | with_reducible apply Still.step (State.enlistReady_still)
      | with_reducible apply Still.step (State.setInst_still)
      | (simp only [Still.upd]; first | with_reducible refine Still.of ?_ | exact ⟨trivial, trivial⟩))

end Sys2Proof.Machine
end

