-- ==== Sys2Proof/Laws/FrameFlags.lean ====
section
/-! SUPPORT. What the operations of Machine/Flags.lean leave alone: memory and the fuses (`Still`), or the fuses and the form of memory
(`Kept`). -/

namespace Sys2Proof.Machine

theorem State.queueRecord_still {s : State} {r : EventRecord} : Still s (State.queueRecord s r) := by
  unfold State.queueRecord
  repeat' (first
      | with_reducible apply Still.step (State.count16_still) | with_reducible apply Still.ite
      | (simp only [Still.upd]; first | with_reducible refine Still.of ?_ | exact ⟨trivial, trivial⟩))

theorem State.rise_still {s : State} {addr : Nat} {bits : Word} : Still s (State.rise s addr bits) := by
  unfold State.rise
  repeat' (first
      | with_reducible exact Still.refl _ | with_reducible apply Still.step (State.queueRecord_still) | with_reducible apply Still.ite
      | (simp only [Still.upd]; first | with_reducible refine Still.of ?_ | exact ⟨trivial, trivial⟩))

theorem settle_still {s s' : State} : Still s' (settle s s') := by
  unfold settle
  refine Still.foldl (fun t key => ?_) (Still.refl _)
  split
  · exact State.rise_still
  · exact Still.refl _

end Sys2Proof.Machine
end

