-- ==== Sys2Proof/Laws/FrameAccess.lean ====
section
/-! SUPPORT. What the operations of Machine/Access.lean leave alone: memory and the fuses (`Still`), or the fuses and the form of memory
(`Kept`). -/

namespace Sys2Proof.Machine

theorem State.closeGuard_still {s : State} {src : Source} : Still s (State.closeGuard s src) := by
  unfold State.closeGuard
  repeat' (first | (simp only [Still.upd]; first | with_reducible refine Still.of ?_ | exact ⟨trivial, trivial⟩))

theorem State.openGuard_still {s : State} {src : Source} {b : Block} : Still s (State.openGuard s src b) := by
  unfold State.openGuard
  repeat' (first | (simp only [Still.upd]; first | with_reducible refine Still.of ?_ | exact ⟨trivial, trivial⟩))

theorem State.writeCloses_still {s : State} {src : Source} {b : Block} : Still s (State.writeCloses s src b) := by
  unfold State.writeCloses
  repeat' (first | with_reducible exact Still.refl _ | with_reducible apply Still.step (State.closeGuard_still) | with_reducible apply Still.ite)

theorem State.closeGuardsOf_still {s : State} {p : Block → Bool} : Still s (State.closeGuardsOf s p) := by
  unfold State.closeGuardsOf
  repeat' (first | (simp only [Still.upd]; first | with_reducible refine Still.of ?_ | exact ⟨trivial, trivial⟩))

theorem State.badAddress_still {s : State} {addr : Nat} : Still s (State.badAddress s addr) := by
  unfold State.badAddress
  repeat' (first
      | with_reducible exact Still.refl _ | with_reducible apply Still.step (State.count16_still)
      | with_reducible apply Still.step (State.setReg_still))

theorem State.roleRefused_still {s : State} : Still s (State.roleRefused s) := by
  unfold State.roleRefused
  repeat' (first | with_reducible exact Still.refl _ | with_reducible apply Still.step (State.count16_still))

theorem State.checkedWrite_still {s : State} {src : Source} {key : Nat} {op : State → State × RegStatus} (h_op : ∀ (v0 : State), Still v0 (op v0).1) :
    Still s (State.checkedWrite s src key op).1 := by
  unfold State.checkedWrite
  repeat' (first
      | with_reducible exact Still.refl _ | with_reducible apply Still.step (h_op _) | with_reducible apply Still.step (State.count32_still)
      | with_reducible apply Still.step (State.roleRefused_still) | with_reducible apply Still.step (State.writeCloses_still)
      | with_reducible apply Still.iteP)

theorem State.checkedWrite_kept {s : State} {src : Source} {key : Nat} {op : State → State × RegStatus} (h_op : ∀ (v0 : State), Kept v0 (op v0).1) :
    Kept s (State.checkedWrite s src key op).1 := by
  unfold State.checkedWrite
  repeat' (first
      | with_reducible exact Kept.refl _ | with_reducible apply Kept.step (h_op _) | with_reducible apply Kept.step (State.count32_still).kept
      | with_reducible apply Kept.step (State.roleRefused_still).kept | with_reducible apply Kept.step (State.writeCloses_still).kept
      | with_reducible apply Kept.iteP)

theorem State.guarded_still {s : State} {src : Source} {key : Nat} {op : State → State} (h_op : ∀ (v0 : State), Still v0 (op v0)) :
    Still s (State.guarded s src key op).1 := by
  unfold State.guarded
  repeat' (first
      | with_reducible exact Still.refl _ | with_reducible apply Still.step (h_op _) | with_reducible apply Still.step (State.closeGuard_still)
      | with_reducible apply Still.step (State.count16_still) | with_reducible apply Still.iteP)

theorem State.guarded_kept {s : State} {src : Source} {key : Nat} {op : State → State} (h_op : ∀ (v0 : State), Kept v0 (op v0)) :
    Kept s (State.guarded s src key op).1 := by
  unfold State.guarded
  repeat' (first
      | with_reducible exact Kept.refl _ | with_reducible apply Kept.step (h_op _) | with_reducible apply Kept.step (State.closeGuard_still).kept
      | with_reducible apply Kept.step (State.count16_still).kept | with_reducible apply Kept.iteP)

theorem State.rkWrite_still {s : State} {src : Source} {key : Nat} {op : State → State} (h_op : ∀ (v0 : State), Still v0 (op v0)) :
    Still s (State.rkWrite s src key op) := by
  unfold State.rkWrite
  repeat' (first
      | with_reducible exact Still.refl _ | with_reducible apply Still.step (h_op _)
      | with_reducible apply Still.step (State.checkedWrite_still (fun _ => ?_))
      | with_reducible apply Still.step (State.guarded_still (fun _ => ?_)))

theorem State.rkWrite_kept {s : State} {src : Source} {key : Nat} {op : State → State} (h_op : ∀ (v0 : State), Kept v0 (op v0)) :
    Kept s (State.rkWrite s src key op) := by
  unfold State.rkWrite
  repeat' (first
      | with_reducible exact Kept.refl _ | with_reducible apply Kept.step (h_op _)
      | with_reducible apply Kept.step (State.checkedWrite_kept (fun _ => ?_))
      | with_reducible apply Kept.step (State.guarded_kept (fun _ => ?_)))

theorem State.cmdWrite_still {s : State} {src : Source} {key : Nat} {v : Word} {op : State → State} (h_op : ∀ (v0 : State), Still v0 (op v0)) :
    Still s (State.cmdWrite s src key v op) := by
  unfold State.cmdWrite
  repeat' (first
      | with_reducible exact Still.refl _ | with_reducible apply Still.step (h_op _)
      | with_reducible apply Still.step (State.rkWrite_still (fun _ => ?_)) | with_reducible apply Still.step (State.setReg_still))

theorem State.cmdWrite_kept {s : State} {src : Source} {key : Nat} {v : Word} {op : State → State} (h_op : ∀ (v0 : State), Kept v0 (op v0)) :
    Kept s (State.cmdWrite s src key v op) := by
  unfold State.cmdWrite
  repeat' (first
      | with_reducible exact Kept.refl _ | with_reducible apply Kept.step (h_op _)
      | with_reducible apply Kept.step (State.rkWrite_kept (fun _ => ?_)) | with_reducible apply Kept.step (State.setReg_still).kept)

theorem State.plainWrite_still {s : State} {src : Source} {key : Nat} {op : State → State} (h_op : ∀ (v0 : State), Still v0 (op v0)) :
    Still s (State.plainWrite s src key op) := by
  unfold State.plainWrite
  repeat' (first
      | with_reducible exact Still.refl _ | with_reducible apply Still.step (h_op _)
      | with_reducible apply Still.step (State.checkedWrite_still (fun _ => ?_)) | with_reducible apply Still.step (State.writeCloses_still))

theorem State.plainWrite_kept {s : State} {src : Source} {key : Nat} {op : State → State} (h_op : ∀ (v0 : State), Kept v0 (op v0)) :
    Kept s (State.plainWrite s src key op) := by
  unfold State.plainWrite
  repeat' (first
      | with_reducible exact Kept.refl _ | with_reducible apply Kept.step (h_op _)
      | with_reducible apply Kept.step (State.checkedWrite_kept (fun _ => ?_)) | with_reducible apply Kept.step (State.writeCloses_still).kept)

end Sys2Proof.Machine
end

