-- ==== Sys2Proof/Laws/FrameTiers.lean ====
section
/-! SUPPORT. What the operations of Machine/Tiers.lean leave alone: memory and the fuses (`Still`), or the fuses and the form of memory
(`Kept`). -/

namespace Sys2Proof.Machine

theorem State.remapRow_still {s : State} {die : Nat} {bank : Nat} {row : Nat} : Still s (State.remapRow s die bank row) := by
  unfold State.remapRow
  repeat' (first | with_reducible apply Still.ite | (simp only [Still.upd]; first | with_reducible refine Still.of ?_ | exact ⟨trivial, trivial⟩))

theorem State.setRefresh_still {s : State} {die : Nat} {double : Bool} : Still s (State.setRefresh s die double) := by
  unfold State.setRefresh
  repeat' (first | (simp only [Still.upd]; first | with_reducible refine Still.of ?_ | exact ⟨trivial, trivial⟩))

theorem State.holdProgram_still {s : State} {h : FaultHolder} {w : ProgWait} : Still s (State.holdProgram s h w) := by
  unfold State.holdProgram
  repeat' (first
      | with_reducible exact Still.refl _ | with_reducible apply Still.step (State.refresh_still)
      | with_reducible apply Still.step (State.setInst_still) | split)

theorem State.takeFault_kept {s : State} {b : Nat} {va : Nat} {write : Bool} {en : Engine} {cause : FaultCause} {level : Nat} {entry : W64} {h : FaultHolder} :
    Kept s (State.takeFault s b va write en cause level entry h) := by
  unfold State.takeFault
  repeat' (first
      | with_reducible exact Kept.refl _ | with_reducible apply Kept.step (State.abortInst_kept)
      | with_reducible apply Kept.step (State.holdProgram_still).kept | with_reducible apply Kept.step (State.raiseFault_kept)
      | with_reducible apply Kept.step (State.refresh_still).kept | with_reducible apply Kept.ite | split)

theorem State.tableWalk_kept {s : State} {b : Nat} {va : Nat} {write : Bool} {who : Requester} {holder : Nat} :
    Kept s (State.tableWalk s b va write who holder) := by
  unfold State.tableWalk
  repeat' (first
      | with_reducible exact Kept.refl _ | with_reducible apply Kept.step (State.takeFault_kept)
      | with_reducible refine Kept.fst3 (by assumption) (State.translate_still).kept ?_ | split | dsimp only)

theorem State.trnInvOp_still {s : State} {v : Word} : Still s (State.trnInvOp s v) := by
  unfold State.trnInvOp
  repeat' (first
      | with_reducible exact Still.refl _ | with_reducible apply Still.step (State.count16_still) | with_reducible apply Still.ite
      | (simp only [Still.upd]; first | with_reducible refine Still.of ?_ | exact ⟨trivial, trivial⟩))

theorem State.trnInvDone_still {s : State} : Still s (State.trnInvDone s) := by
  unfold State.trnInvDone
  repeat' (first
      | with_reducible exact Still.refl _ | with_reducible apply Still.step (State.dropCached_still)
      | with_reducible apply Still.step (State.latch_still) | with_reducible apply Still.step (State.setReg_still)
      | with_reducible apply Still.ite | (simp only [Still.upd]; first | with_reducible refine Still.of ?_ | exact ⟨trivial, trivial⟩) | split)

theorem State.setSpillList_still {s : State} {b : Nat} {l : List W64} : Still s (State.setSpillList s b l) := by
  unfold State.setSpillList
  repeat' (first | (simp only [Still.upd]; first | with_reducible refine Still.of ?_ | exact ⟨trivial, trivial⟩))

theorem State.setStarved_still {s : State} {b : Nat} {v : Bool} : Still s (State.setStarved s b v) := by
  unfold State.setStarved
  repeat' (first | (simp only [Still.upd]; first | with_reducible refine Still.of ?_ | exact ⟨trivial, trivial⟩))

theorem State.setSpilling_still {s : State} {b : Nat} {v : Bool} : Still s (State.setSpilling s b v) := by
  unfold State.setSpilling
  repeat' (first | (simp only [Still.upd]; first | with_reducible refine Still.of ?_ | exact ⟨trivial, trivial⟩))

theorem State.spillPages_still {s : State} {b : Nat} {e0 : Nat} : Still s (State.spillPages s b e0) := by
  induction e0 generalizing s b with
  | zero =>
    unfold State.spillPages
    with_reducible exact Still.refl _
  | succ n ih =>
    unfold State.spillPages
    repeat' (first
        | with_reducible exact Still.refl _ | with_reducible apply Still.step (ih ..) | with_reducible apply Still.step (State.queueMig_still)
        | with_reducible apply Still.step (State.readPte_still) | with_reducible apply Still.step (State.setSpillList_still)
        | with_reducible apply Still.step (State.setStarved_still) | with_reducible apply Still.ite | split)

theorem State.spillRun_still {s : State} {b : Nat} : Still s (State.spillRun s b) := by
  unfold State.spillRun
  repeat' (first
      | with_reducible exact Still.refl _ | with_reducible apply Still.step (State.setSpilling_still)
      | with_reducible apply Still.step (State.spillPages_still) | with_reducible apply Still.ite)

theorem State.spillCheck_still {s : State} {b : Nat} : Still s (State.spillCheck s b) := by
  unfold State.spillCheck
  repeat' (first
      | with_reducible exact Still.refl _ | with_reducible apply Still.step (State.applyAll_still)
      | with_reducible apply Still.step (State.setStarved_still) | with_reducible apply Still.step (State.spillRun_still))

theorem State.spillRetry_still {s : State} {b : Nat} : Still s (State.spillRetry s b) := by
  unfold State.spillRetry
  repeat' (first
      | with_reducible exact Still.refl _ | with_reducible apply Still.step (State.setStarved_still)
      | with_reducible apply Still.step (State.spillRun_still) | with_reducible apply Still.ite)

theorem State.mtCommand_still {s : State} {v : Word} {body : State → State} (h_body : ∀ (v0 : State), Still v0 (body v0)) :
    Still s (State.mtCommand s v body) := by
  unfold State.mtCommand
  repeat' (first
      | with_reducible exact Still.refl _ | with_reducible apply Still.step (h_body _) | with_reducible apply Still.step (State.setReg_still)
      | with_reducible apply Still.ite | (simp only [Still.upd]; first | with_reducible refine Still.of ?_ | exact ⟨trivial, trivial⟩))

theorem State.mtCommand_kept {s : State} {v : Word} {body : State → State} (h_body : ∀ (v0 : State), Kept v0 (body v0)) :
    Kept s (State.mtCommand s v body) := by
  unfold State.mtCommand
  repeat' (first
      | with_reducible exact Kept.refl _ | with_reducible apply Kept.step (h_body _) | with_reducible apply Kept.step (State.setReg_still).kept
      | with_reducible apply Kept.ite | (simp only [Kept.upd]; first | with_reducible refine Kept.of ?_ | exact ⟨trivial, fun h => h⟩))

theorem State.mtAssignOp_still {s : State} {b : Nat} : Still s (State.mtAssignOp s b) := by
  unfold State.mtAssignOp
  repeat' (first
      | with_reducible exact Still.refl _ | with_reducible apply Still.step (State.setOwners_still)
      | with_reducible apply Still.step (State.spillRetry_still) | with_reducible apply Still.step (State.tierResult_still)
      | with_reducible apply Still.ite)

theorem State.mtReleaseOp_still {s : State} {b : Nat} : Still s (State.mtReleaseOp s b) := by
  unfold State.mtReleaseOp
  repeat' (first
      | with_reducible exact Still.refl _ | with_reducible apply Still.step (State.setOwners_still)
      | with_reducible apply Still.step (State.spillRetry_still) | with_reducible apply Still.step (State.tierResult_still)
      | with_reducible apply Still.ite)

theorem State.argPte_still {s : State} {b : Nat} : Still s (State.argPte s b) := by
  unfold State.argPte
  repeat' (first | with_reducible exact Still.refl _ | with_reducible apply Still.step (State.readPte_still) | with_reducible apply Still.ite)

theorem State.mtMigrateOp_still {s : State} {b : Nat} {lc : Bool} : Still s (State.mtMigrateOp s b lc) := by
  unfold State.mtMigrateOp
  repeat' (first
      | with_reducible exact Still.refl _ | with_reducible apply Still.step (State.queueMig_still)
      | with_reducible apply Still.step (State.tierResult_still) | with_reducible apply Still.ite
      | (simp only [Still.upd]; first | with_reducible refine Still.of ?_ | exact ⟨trivial, trivial⟩) | split)

theorem State.mtEnlistOp_still {s : State} {b : Nat} : Still s (State.mtEnlistOp s b) := by
  unfold State.mtEnlistOp
  repeat' (first
      | with_reducible exact Still.refl _ | with_reducible apply Still.step (State.setSpillList_still)
      | with_reducible apply Still.step (State.spillRetry_still) | with_reducible apply Still.step (State.tierResult_still)
      | with_reducible apply Still.ite)

theorem State.setOffline_still {s : State} {u : Nat × Nat} {off : Bool} : Still s (State.setOffline s u off) := by
  unfold State.setOffline
  repeat' (first | with_reducible apply Still.ite | (simp only [Still.upd]; first | with_reducible refine Still.of ?_ | exact ⟨trivial, trivial⟩))

theorem State.mtLineOp_still {s : State} {off : Bool} : Still s (State.mtLineOp s off) := by
  unfold State.mtLineOp
  repeat' (first
      | with_reducible exact Still.refl _ | with_reducible apply Still.step (State.setOffline_still)
      | with_reducible apply Still.step (State.tierResult_still) | with_reducible apply Still.ite | split)

theorem State.frameFor_still {s : State} {m : Migration} {size : Nat} : Still s (State.frameFor s m size).1 := by
  unfold State.frameFor
  repeat' (first
      | with_reducible exact Still.refl _ | with_reducible apply Still.step (State.takeFrame_still) | with_reducible apply Still.iteP
      | (with_reducible apply Still.foldlP; intro _ _) | with_reducible refine Still.fst3 (by assumption) (State.takeFrame_still) ?_
      | (simp only [Still.upd]; first | with_reducible refine Still.of ?_ | exact ⟨trivial, trivial⟩) | split)

theorem State.setMig_still {s : State} {m : Migration} : Still s (State.setMig s m) := by
  unfold State.setMig
  repeat' (first | (simp only [Still.upd]; first | with_reducible refine Still.of ?_ | exact ⟨trivial, trivial⟩))

theorem State.spillBack_still {s : State} {m : Migration} : Still s (State.spillBack s m) := by
  unfold State.spillBack
  repeat' (first
      | with_reducible exact Still.refl _ | with_reducible apply Still.step (State.setSpillList_still) | with_reducible apply Still.ite)

theorem State.migrationStart_kept {s0 : State} : Kept s0 (State.migrationStart s0) := by
  unfold State.migrationStart
  repeat' (first
      | with_reducible exact Kept.refl _ | with_reducible apply Kept.step (State.dropMig_still).kept
      | with_reducible apply Kept.step (State.physWrite64_kept) | with_reducible apply Kept.step (State.readPte_still).kept
      | with_reducible apply Kept.step (State.setMig_still).kept | with_reducible apply Kept.step (State.setOwners_still).kept
      | with_reducible apply Kept.step (State.setStarved_still).kept | with_reducible apply Kept.step (State.spillBack_still).kept
      | with_reducible apply Kept.ite | with_reducible refine Kept.fst3 (by assumption) (State.frameFor_still).kept ?_ | split)

theorem State.migrationFirstInv_still {s : State} {id : Nat} : Still s (State.migrationFirstInv s id) := by
  unfold State.migrationFirstInv
  repeat' (first
      | with_reducible exact Still.refl _ | with_reducible apply Still.step (State.dropCached_still)
      | with_reducible apply Still.step (State.setMig_still) | with_reducible apply Still.ite | split)

end Sys2Proof.Machine
end

