-- ==== Sys2Proof/Laws/FrameNetOps.lean ====
section
/-! SUPPORT. What the operations of Machine/NetOps.lean leave alone: memory and the fuses (`Still`), or the fuses and the form of memory
(`Kept`). -/

namespace Sys2Proof.Machine

theorem State.closeSession_still {s : State} {id : Word} : Still s (State.closeSession s id) := by
  unfold State.closeSession
  repeat' (first
      | with_reducible exact Still.refl _ | with_reducible apply Still.step (State.log_still)
      | with_reducible apply Still.step (State.setPeer_still)
      | (simp only [Still.upd]; first | with_reducible refine Still.of ?_ | exact ⟨trivial, trivial⟩) | split)

theorem State.sessionSent_still {s : State} {p : Nat} : Still s (State.sessionSent s p) := by
  unfold State.sessionSent
  repeat' (first
      | with_reducible exact Still.refl _ | with_reducible apply Still.step (State.closeSession_still) | with_reducible apply Still.ite
      | (simp only [Still.upd]; first | with_reducible refine Still.of ?_ | exact ⟨trivial, trivial⟩) | split)

theorem State.protect_still {s : State} {frames : Nat} : Still s (State.protect s frames).1 := by
  unfold State.protect
  repeat' (first
      | with_reducible exact Still.refl _ | with_reducible apply Still.step (State.setPort_still) | with_reducible apply Still.iteP | split)

theorem State.baleLeft_still {s : State} {p : Nat} : Still s (State.baleLeft s p) := by
  unfold State.baleLeft
  repeat' (first
      | with_reducible exact Still.refl _ | with_reducible apply Still.step (State.sessionSent_still)
      | with_reducible apply Still.step (State.setPeer_still))

theorem State.leave_still {s : State} {priority : Nat} {x : Sent} : Still s (State.leave s priority x) := by
  unfold State.leave
  repeat' (first
      | with_reducible exact Still.refl _ | with_reducible apply Still.step (State.applyAll_still)
      | with_reducible apply Still.step (State.baleLeft_still) | with_reducible apply Still.step (State.count64_still)
      | with_reducible apply Still.step (State.protect_still) | with_reducible apply Still.step (State.sendItem_still)
      | (simp only [Still.upd]; first | with_reducible refine Still.of ?_ | exact ⟨trivial, trivial⟩) | split)

theorem State.served_still {s0 : State} {e : Nat × Sent} : Still s0 (State.served s0 e) := by
  unfold State.served
  repeat' (first | with_reducible apply Still.ite | (simp only [Still.upd]; first | with_reducible refine Still.of ?_ | exact ⟨trivial, trivial⟩))

theorem State.drainN_still {s : State} {e0 : Nat} : Still s (State.drainN s e0) := by
  induction e0 generalizing s with
  | zero =>
    unfold State.drainN
    with_reducible exact Still.refl _
  | succ n ih =>
    unfold State.drainN
    repeat' (first
        | with_reducible exact Still.refl _ | with_reducible apply Still.step (ih ..) | with_reducible apply Still.step (State.leave_still)
        | with_reducible apply Still.step (State.served_still)
        | (simp only [Still.upd]; first | with_reducible refine Still.of ?_ | exact ⟨trivial, trivial⟩) | split)

theorem State.drainEgress_still {s : State} : Still s (State.drainEgress s) := by
  unfold State.drainEgress
  repeat' (first | with_reducible exact Still.refl _ | with_reducible apply Still.step (State.drainN_still))

theorem State.emit_still {s : State} {x : Sent} : Still s (State.emit s x) := by
  unfold State.emit
  repeat' (first
      | with_reducible exact Still.refl _ | with_reducible apply Still.step (State.count32_still)
      | with_reducible apply Still.step (State.drainEgress_still) | with_reducible apply Still.ite
      | (simp only [Still.upd]; first | with_reducible refine Still.of ?_ | exact ⟨trivial, trivial⟩))

theorem State.dropFrames_still {s : State} {f : Sent → Bool} : Still s (State.dropFrames s f) := by
  unfold State.dropFrames
  repeat' (first | (simp only [Still.upd]; first | with_reducible refine Still.of ?_ | exact ⟨trivial, trivial⟩))

theorem State.pumpN_still {s : State} {p : Nat} {e0 : Nat} : Still s (State.pumpN s p e0) := by
  induction e0 generalizing s p with
  | zero =>
    unfold State.pumpN
    with_reducible exact Still.refl _
  | succ n ih =>
    unfold State.pumpN
    repeat' (first
        | with_reducible exact Still.refl _ | with_reducible apply Still.step (ih ..) | with_reducible apply Still.step (State.emit_still)
        | with_reducible apply Still.step (State.setPeer_still) | split | dsimp only)

theorem State.pump_still {s : State} {p : Nat} : Still s (State.pump s p) := by
  unfold State.pump
  repeat' (first | with_reducible exact Still.refl _ | with_reducible apply Still.step (State.pumpN_still))

theorem State.post_still {s : State} {p : Nat} {bs : List TxBody} : Still s (State.post s p bs) := by
  unfold State.post
  repeat' (first
      | with_reducible exact Still.refl _ | with_reducible apply Still.step (State.pump_still)
      | with_reducible apply Still.step (State.setPeer_still))

theorem State.sendAck_still {s : State} {p : Nat} : Still s (State.sendAck s p) := by
  unfold State.sendAck
  repeat' (first
      | with_reducible exact Still.refl _ | with_reducible apply Still.step (State.emit_still)
      | with_reducible apply Still.step (State.setPeer_still))

theorem State.takeMsg_still {s : State} {p : Nat} {cls : Nat} : Still s (State.takeMsg s p cls).1 := by
  unfold State.takeMsg
  repeat' (first | with_reducible exact Still.refl _ | with_reducible apply Still.step (State.setPeer_still) | split | dsimp only)

theorem State.effect_still {s : State} {p : Nat} {q : Option Word} : Still s (State.effect s p q) := by
  unfold State.effect
  repeat' (first
      | with_reducible exact Still.refl _ | with_reducible apply Still.step (State.sendAck_still)
      | with_reducible apply Still.step (State.setPeer_still) | with_reducible apply Still.ite)

theorem State.effectOf_still {s : State} {p : Nat} {cls : Nat} : Still s (State.effectOf s p cls) := by
  unfold State.effectOf
  repeat' (first
      | with_reducible exact Still.refl _ | with_reducible apply Still.step (State.effect_still)
      | with_reducible apply Still.step (State.takeMsg_still))

theorem State.refuseMsg_still {s : State} {p : Nat} {cls : Nat} : Still s (State.refuseMsg s p cls) := by
  unfold State.refuseMsg
  repeat' (first
      | with_reducible exact Still.refl _ | with_reducible apply Still.step (State.count32_still)
      | with_reducible apply Still.step (State.effectOf_still) | with_reducible apply Still.ite)

end Sys2Proof.Machine
end

