-- ==== Sys2Proof/Laws/FrameStreamOps.lean ====
section
/-! SUPPORT. What the operations of Machine/StreamOps.lean leave alone: memory and the fuses (`Still`), or the fuses and the form of memory
(`Kept`). -/

namespace Sys2Proof.Machine

theorem State.setInflight_still {s : State} {seq : Bool} {i : Nat} {f : Option InFlight} : Still s (State.setInflight s seq i f) := by
  unfold State.setInflight
  repeat' (first
      | with_reducible exact Still.refl _ | with_reducible apply Still.step (State.setSeq_still)
      | with_reducible apply Still.step (State.setStream_still) | with_reducible apply Still.ite)

theorem State.setOutFull_still {s : State} {seq : Bool} {i : Nat} {v : Bool} : Still s (State.setOutFull s seq i v) := by
  unfold State.setOutFull
  repeat' (first
      | with_reducible exact Still.refl _ | with_reducible apply Still.step (State.setSeq_still)
      | with_reducible apply Still.step (State.setStream_still) | with_reducible apply Still.ite)

theorem State.tailMoved_still {s : State} {seq : Bool} {i : Nat} : Still s (State.tailMoved s seq i) := by
  unfold State.tailMoved
  repeat' (first | with_reducible exact Still.refl _ | with_reducible apply Still.step (State.setOutFull_still) | with_reducible apply Still.ite)

theorem State.slotReleased_still {s : State} {seq : Bool} {i : Nat} : Still s (State.slotReleased s seq i) := by
  unfold State.slotReleased
  repeat' (first
      | with_reducible exact Still.refl _ | with_reducible apply Still.step (State.setReg_still)
      | with_reducible apply Still.step (State.tailMoved_still))

theorem State.setUnsent_still {s : State} {seq : Bool} {i : Nat} {l : List Word} : Still s (State.setUnsent s seq i l) := by
  unfold State.setUnsent
  repeat' (first
      | with_reducible exact Still.refl _ | with_reducible apply Still.step (State.setSeq_still)
      | with_reducible apply Still.step (State.setStream_still) | with_reducible apply Still.ite)

theorem State.sendSlotsN_kept {s : State} {seq : Bool} {i : Nat} {e0 : Nat} : Kept s (State.sendSlotsN s seq i e0) := by
  induction e0 generalizing s seq i with
  | zero =>
    unfold State.sendSlotsN
    repeat' (first | with_reducible exact Kept.refl _)
  | succ n ih =>
    unfold State.sendSlotsN
    repeat' (first
        | with_reducible exact Kept.refl _ | with_reducible apply Kept.step (ih ..)
        | with_reducible apply Kept.step (State.applyStaged_still).kept | with_reducible apply Kept.step (State.post_still).kept
        | with_reducible apply Kept.step (State.raiseFault_kept) | with_reducible apply Kept.step (State.setUnsent_still).kept
        | with_reducible apply Kept.ite | with_reducible refine Kept.fst3 (by assumption) (State.readRun_still).kept ?_ | split | dsimp only)

theorem State.sendSlots_kept {s : State} {seq : Bool} {i : Nat} : Kept s (State.sendSlots s seq i) := by
  unfold State.sendSlots
  repeat' (first | with_reducible exact Kept.refl _ | with_reducible apply Kept.step (State.sendSlotsN_kept))

theorem State.batcherWrites_kept {s : State} {b : Nat} {ws : List (Nat × Bytes)} : Kept s (State.batcherWrites s b ws).1 := by
  unfold State.batcherWrites
  repeat' (first
      | with_reducible exact Kept.refl _ | with_reducible apply Kept.step (State.writeRun_kept) | (with_reducible apply Kept.foldl; intro _ _)
      | with_reducible refine Kept.fst3 (by assumption) (State.translateRun_still).kept ?_
      | with_reducible refine Kept.fst3 (by assumption) (Kept.foldlQ (fun _ _ => ?_)) ?_ | split | dsimp only)

theorem State.takeSlot_still {s : State} {b : Nat} : Still s (State.takeSlot s b).1 := by
  unfold State.takeSlot
  repeat' (first | with_reducible exact Still.refl _ | with_reducible apply Still.step (State.draw_still))

theorem State.batchInstance_still {s : State} {b : Nat} {slot : Nat} {x : Batch} : Still s (State.batchInstance s b slot x) := by
  unfold State.batchInstance
  repeat' (first | with_reducible exact Still.refl _ | with_reducible apply Still.step (State.createInst_still) | split)

theorem State.setSlot_still {s : State} {b : Nat} {slot : Nat} {x : Batch} : Still s (State.setSlot s b slot x) := by
  unfold State.setSlot
  repeat' (first | with_reducible exact Still.refl _ | with_reducible apply Still.step (State.setBatcher_still))

theorem State.freeSlot_still {s : State} {b : Nat} {slot : Nat} : Still s (State.freeSlot s b slot) := by
  unfold State.freeSlot
  repeat' (first | with_reducible exact Still.refl _ | with_reducible apply Still.step (State.setBatcher_still))

theorem State.setAlign_still {s : State} {b : Nat} {k : Nat} {x : AlignSet} : Still s (State.setAlign s b k x) := by
  unfold State.setAlign
  repeat' (first | with_reducible exact Still.refl _ | with_reducible apply Still.step (State.setBatcher_still))

theorem State.afterIdle_still {s : State} {b : Nat} {seq : Bool} {i : Nat} : Still s (State.afterIdle s b seq i) := by
  unfold State.afterIdle
  repeat' (first
      | with_reducible exact Still.refl _ | with_reducible apply Still.step (State.applyAll_still)
      | with_reducible apply Still.step (State.setBatcher_still) | with_reducible apply Still.ite
      | (simp only [Still.upd]; first | with_reducible refine Still.of ?_ | exact ⟨trivial, trivial⟩) | split)

theorem State.goIdle_still {s : State} {seq : Bool} {i : Nat} : Still s (State.goIdle s seq i) := by
  unfold State.goIdle
  repeat' (first
      | with_reducible exact Still.refl _ | with_reducible apply Still.step (State.afterIdle_still)
      | with_reducible apply Still.step (State.setSeq_still) | with_reducible apply Still.step (State.setStream_still) | split)

theorem State.returnStream_still {s : State} {sid : Nat} {pause : Bool} : Still s (State.returnStream s sid pause) := by
  unfold State.returnStream
  repeat' (first
      | with_reducible exact Still.refl _ | with_reducible apply Still.step (State.goIdle_still)
      | with_reducible apply Still.step (State.setReg_still) | with_reducible apply Still.step (State.setStream_still)
      | with_reducible apply Still.ite | split | dsimp only)

theorem State.returnSeq_still {s : State} {q : Nat} {pause : Bool} : Still s (State.returnSeq s q pause) := by
  unfold State.returnSeq
  repeat' (first
      | with_reducible exact Still.refl _ | with_reducible apply Still.step (State.goIdle_still)
      | with_reducible apply Still.step (State.setSeq_still) | with_reducible apply Still.ite | split | dsimp only)

theorem State.returnRows_still {s : State} {x : Batch} : Still s (State.returnRows s x) := by
  unfold State.returnRows
  repeat' (first
      | with_reducible exact Still.refl _ | with_reducible apply Still.step (State.returnSeq_still)
      | with_reducible apply Still.step (State.returnStream_still) | with_reducible apply Still.ite
      | (with_reducible apply Still.foldl; intro _ _))

theorem State.startBatch_kept {s : State} {b : Nat} {slot : Nat} {x : Batch} : Kept s (State.startBatch s b slot x) := by
  unfold State.startBatch
  repeat' (first
      | with_reducible exact Kept.refl _ | with_reducible apply Kept.step (State.batchInstance_still).kept
      | with_reducible apply Kept.step (State.freeSlot_still).kept | with_reducible apply Kept.step (State.raiseFault_kept)
      | with_reducible apply Kept.step (State.returnRows_still).kept | with_reducible apply Kept.step (State.setSlot_still).kept
      | with_reducible apply Kept.ite | with_reducible refine Kept.fst3 (by assumption) (State.batcherWrites_kept) ?_ | split | dsimp only)

theorem State.withdrawRow_still {s t : State} {b : Nat} {seq : Bool} {i : Nat} (h : State.withdrawRow s b seq i = some t) : Still s t := by
  unfold State.withdrawRow at h
  dsimp only at h
  split at h
  · injection h with h; subst h; exact State.setBatcher_still
  · cases h

theorem State.drainClosing_kept {s : State} {b : Nat} {e0 : Nat} : Kept s (State.drainClosing s b e0) := by
  induction e0 generalizing s b with
  | zero =>
    unfold State.drainClosing
    repeat' (first | with_reducible exact Kept.refl _)
  | succ n ih =>
    unfold State.drainClosing
    repeat' (first
        | with_reducible exact Kept.refl _ | with_reducible apply Kept.step (ih ..)
        | with_reducible apply Kept.step (State.setBatcher_still).kept | with_reducible apply Kept.step (State.startBatch_kept)
        | with_reducible apply Kept.ite | with_reducible refine Kept.fst3 (by assumption) (State.takeSlot_still).kept ?_ | split | dsimp only)

theorem State.closeBatch_kept {s : State} {b : Nat} {g : Nat} : Kept s (State.closeBatch s b g) := by
  unfold State.closeBatch
  repeat' (first
      | with_reducible exact Kept.refl _ | with_reducible apply Kept.step (State.countWrap_still).kept
      | with_reducible apply Kept.step (State.drainClosing_kept) | with_reducible apply Kept.step (State.setBatcher_still).kept | split)

theorem State.closeAll_kept {s : State} {b : Nat} : Kept s (State.closeAll s b) := by
  unfold State.closeAll
  repeat' (first
      | with_reducible exact Kept.refl _ | with_reducible apply Kept.step (State.closeBatch_kept) | (with_reducible apply Kept.foldl; intro _ _))

theorem State.joinBatch_kept {s : State} {b : Nat} {g : Nat} {seq : Bool} {rows : List Row} : Kept s (State.joinBatch s b g seq rows) := by
  unfold State.joinBatch
  repeat' (first
      | with_reducible exact Kept.refl _ | with_reducible apply Kept.step (State.applyStaged_still).kept
      | with_reducible apply Kept.step (State.closeBatch_kept) | with_reducible apply Kept.step (State.setBatcher_still).kept | split
      | dsimp only)

theorem State.abandonRow_still {s : State} {b : Nat} {seq : Bool} {i : Nat} : Still s (State.abandonRow s b seq i) := by
  unfold State.abandonRow
  repeat' (first | with_reducible exact Still.refl _ | with_reducible apply Still.step (State.setSlot_still) | split)

theorem State.finishRow_kept {s : State} {b : Nat} {seq : Bool} {i : Nat} : Kept s (State.finishRow s b seq i) := by
  unfold State.finishRow
  repeat' (first
      | with_reducible exact Kept.refl _ | with_reducible apply Kept.step (State.drainClosing_kept)
      | with_reducible apply Kept.step (State.freeSlot_still).kept | with_reducible apply Kept.step (State.setSlot_still).kept
      | with_reducible apply Kept.ite | split)

end Sys2Proof.Machine
end

