-- ==== Sys2Proof/Laws/FrameCores.lean ====
section
/-! SUPPORT. What the operations of Machine/Cores.lean leave alone: memory and the fuses (`Still`), or the fuses and the form of memory
(`Kept`). -/

namespace Sys2Proof.Machine

theorem State.refuseSubmit_still {s : State} {b : Nat} {reason : Nat} : Still s (State.refuseSubmit s b reason) := by
  unfold State.refuseSubmit
  repeat' (first | with_reducible exact Still.refl _ | with_reducible apply Still.step (State.setBay_still))

theorem State.acceptSubmit_still {s : State} {b : Nat} {d : SheafDesc} : Still s (State.acceptSubmit s b d) := by
  unfold State.acceptSubmit
  repeat' (first
      | with_reducible exact Still.refl _ | with_reducible apply Still.step (State.createInst_still)
      | with_reducible apply Still.step (State.setBay_still))

theorem State.submitOp_still {s : State} {b : Nat} {hi : Word} : Still s (State.submitOp s b hi) := by
  unfold State.submitOp
  repeat' (first
      | with_reducible exact Still.refl _ | with_reducible apply Still.step (State.acceptSubmit_still)
      | with_reducible apply Still.step (State.refuseSubmit_still) | with_reducible apply Still.step (State.setBay_still)
      | with_reducible apply Still.ite | with_reducible refine Still.fst3 (by assumption) (State.readRun_still) ?_ | split | dsimp only)

theorem State.listRoom_kept {s : State} {b : Nat} : Kept s (State.listRoom s b) := by
  unfold State.listRoom
  repeat' (first
      | with_reducible exact Kept.refl _ | with_reducible apply Kept.step (State.acceptSubmit_still).kept
      | with_reducible apply Kept.step (State.drainClosing_kept) | with_reducible apply Kept.ite | split)

theorem State.place?_kept {s : State} {b : Nat} : Kept s (State.place? s b) := by
  unfold State.place?
  repeat' (first
      | with_reducible exact Kept.refl _ | with_reducible apply Kept.step (State.dispatch_still).kept
      | with_reducible apply Kept.step (State.listRoom_kept) | with_reducible apply Kept.ite)

theorem State.staggerEnd_kept {s : State} {b : Nat} : Kept s (State.staggerEnd s b) := by
  unfold State.staggerEnd
  repeat' (first
      | with_reducible exact Kept.refl _ | with_reducible apply Kept.step (State.place?_kept)
      | with_reducible apply Kept.step (State.setBay_still).kept)

theorem State.retryPreempt_still {s : State} {b : Nat} : Still s (State.retryPreempt s b) := by
  unfold State.retryPreempt
  repeat' (first
      | with_reducible exact Still.refl _ | with_reducible apply Still.step (State.preemptFor_still) | with_reducible apply Still.ite | split)

theorem State.passBoundary_still {s : State} {n : Nat} : Still s (State.passBoundary s n) := by
  unfold State.passBoundary
  repeat' (first
      | with_reducible exact Still.refl _ | with_reducible apply Still.step (State.chooseIssue_still)
      | with_reducible apply Still.step (State.preemptForSaved_still))

theorem State.evictionCheck_still {s : State} {n : Nat} : Still s (State.evictionCheck s n) := by
  unfold State.evictionCheck
  repeat' (first
      | with_reducible exact Still.refl _ | with_reducible apply Still.step (State.beginSave_still)
      | with_reducible apply Still.step (State.countWrap_still) | with_reducible apply Still.step (State.trace_still)
      | with_reducible apply Still.ite | split | dsimp only)

theorem State.fillSlot_still {s0 : State} {n : Nat} {k : Nat} {j : Nat} {y : Inst} : Still s0 (State.fillSlot s0 n k j y) := by
  unfold State.fillSlot
  repeat' (first
      | with_reducible exact Still.refl _ | with_reducible apply Still.step (State.applyStaged_still)
      | with_reducible apply Still.step (State.beginRestore_still) | with_reducible apply Still.step (State.grant_still)
      | with_reducible apply Still.step (State.place_still) | with_reducible apply Still.ite)

theorem State.saveDone_kept {s : State} {n : Nat} {k : Nat} : Kept s (State.saveDone s n k) := by
  unfold State.saveDone
  repeat' (first
      | with_reducible exact Kept.refl _ | with_reducible apply Kept.step (State.fillSlot_still).kept
      | with_reducible apply Kept.step (State.grant_still).kept | with_reducible apply Kept.step (State.listRoom_kept)
      | with_reducible apply Kept.step (State.retryPreempt_still).kept | with_reducible apply Kept.step (State.setCore_still).kept
      | with_reducible apply Kept.step (State.setInst_still).kept | with_reducible apply Kept.ite | split | dsimp only)

theorem State.restoreDone_kept {s : State} {n : Nat} {k : Nat} : Kept s (State.restoreDone s n k) := by
  unfold State.restoreDone
  repeat' (first
      | with_reducible exact Kept.refl _ | with_reducible apply Kept.step (State.abortNow_kept)
      | with_reducible apply Kept.step (State.refresh_still).kept | with_reducible apply Kept.step (State.setInst_still).kept
      | with_reducible apply Kept.ite | split)

theorem State.wake_kept {s : State} {i : Nat} : Kept s (State.wake s i) := by
  unfold State.wake
  repeat' (first
      | with_reducible exact Kept.refl _ | with_reducible apply Kept.step (State.chaffOn_kept)
      | with_reducible apply Kept.step (State.refresh_still).kept | with_reducible apply Kept.step (State.setInst_still).kept
      | with_reducible apply Kept.ite | split)

theorem State.overrun_kept {s : State} {i : Nat} : Kept s (State.overrun s i) := by
  unfold State.overrun
  repeat' (first
      | with_reducible exact Kept.refl _ | with_reducible apply Kept.step (State.abortInst_kept) | with_reducible apply Kept.ite | split)

theorem State.coreFaulted_kept {s : State} {n : Nat} {cause : CoreCause} : Kept s (State.coreFaulted s n cause) := by
  unfold State.coreFaulted
  repeat' (first
      | with_reducible exact Kept.refl _ | with_reducible apply Kept.step (State.abortNow_kept)
      | with_reducible apply Kept.step (State.count16_still).kept | with_reducible apply Kept.step (State.log_still).kept
      | with_reducible apply Kept.step (State.replayInst_still).kept | with_reducible apply Kept.step (State.setCore_still).kept
      | with_reducible apply Kept.step (State.setReg_still).kept | (with_reducible apply Kept.foldl; intro _ _)
      | (simp only [Kept.upd]; first | with_reducible refine Kept.of ?_ | exact ⟨trivial, fun h => h⟩) | split)

end Sys2Proof.Machine
end

