-- ==== Sys2Proof/Laws/FrameFloat.lean ====
section
/-! SUPPORT. What the operations of Machine/Float.lean leave alone: memory and the fuses (`Still`), or the fuses and the form of memory
(`Kept`). -/

namespace Sys2Proof.Machine

theorem sumOpen_still {α : Type} {add : State → α → α → State × α} (h : ∀ s a b, Still s (add s a b).1) {zero : α} {n : Nat} {s : State}
    {l : List α} : Still s (sumOpen add zero n s l).1 := by
  induction n generalizing s l with
  | zero => exact Still.refl _
  | succ n ih =>
    unfold sumOpen
    split
    · exact Still.refl _
    · exact Still.refl _
    · exact Still.step ih (Still.step (h ..) State.draw_still)

theorem fsum_still {s : State} {l : List FVal} : Still s (fsum s l).1 := sumOpen_still fun _ _ _ => Still.refl _

theorem withinUlp_still {s : State} {n : Nat} {v : FVal} : Still s (withinUlp s n v).1 := by
  unfold withinUlp
  repeat' (first | with_reducible exact Still.refl _ | with_reducible apply Still.step (State.draw_still))

end Sys2Proof.Machine
end

