-- ==== Sys2Proof/Laws/FrameVector.lean ====
section
/-! SUPPORT. What the operations of Machine/Vector.lean leave alone: memory and the fuses (`Still`), or the fuses and the form of memory
(`Kept`). -/

namespace Sys2Proof.Machine

theorem State.postToken_kept {s : State} {i : Nat} {token : Nat} {count : Nat} : Kept s (State.postToken s i token count) := by
  unfold State.postToken
  repeat' (first
      | with_reducible exact Kept.refl _ | with_reducible apply Kept.step (State.abortInst_kept)
      | with_reducible apply Kept.step (State.setInst_still).kept | with_reducible apply Kept.ite | split)

theorem State.postUse_kept {s : State} {i : Nat} {use : Option TokenUse} : Kept s (State.postUse s i use) := by
  unfold State.postUse
  repeat' (first | with_reducible exact Kept.refl _ | with_reducible apply Kept.step (State.postToken_kept) | split)

theorem State.engineEnds_kept {s : State} {i : Nat} {r : EngineRef} : Kept s (State.engineEnds s i r) := by
  unfold State.engineEnds
  repeat' (first
      | with_reducible exact Kept.refl _ | with_reducible apply Kept.step (State.postUse_kept)
      | with_reducible apply Kept.step (State.setInst_still).kept | with_reducible apply Kept.ite | split)

theorem State.postOwed_kept {s : State} {i : Nat} : Kept s (State.postOwed s i) := by
  unfold State.postOwed
  repeat' (first
      | with_reducible exact Kept.refl _ | with_reducible apply Kept.step (State.postUse_kept)
      | with_reducible apply Kept.step (State.setInst_still).kept | with_reducible apply Kept.ite | split)

theorem State.tokened_kept {s : State} {r : EngineRef} {engine : Nat} {fits : Nat → Inst → Bool} {body : State → State} (h_body : ∀ (v0 : State), Kept v0 (body v0)) :
    Kept s (State.tokened s r engine fits body) := by
  unfold State.tokened
  repeat' (first
      | with_reducible exact Kept.refl _ | with_reducible apply Kept.step (h_body _) | with_reducible apply Kept.step (State.engineEnds_kept)
      | with_reducible apply Kept.ite | split)

theorem State.tally_still {s : State} {n : Nat} {t : Tally} : Still s (State.tally s n t) := by
  unfold State.tally
  repeat' (first | with_reducible exact Still.refl _ | with_reducible apply Still.step (State.count32_still))

theorem mxeDot_still {s : State} {int : Bool} {p : MxePass} {tile : Bytes} {col : Bytes} {ch : Nat} : Still s (mxeDot s int p tile col ch).1 := by
  unfold mxeDot
  repeat' (first | with_reducible exact Still.refl _ | with_reducible apply Still.step (fsum_still) | with_reducible apply Still.iteP)

theorem mxeColumn_still {s : State} {int : Bool} {p : MxePass} {tile : Bytes} {col : Bytes} : Still s (mxeColumn s int p tile col).1 := by
  unfold mxeColumn
  repeat' (first
      | with_reducible exact Still.refl _ | with_reducible apply Still.step (mxeDot_still) | (with_reducible apply Still.foldlP; intro _ _))

theorem State.ringPassed_still {s : State} {i : Nat} {x : Inst} {round : Nat} {tile : Nat} : Still s (State.ringPassed s i x round tile) := by
  unfold State.ringPassed
  repeat' (first
      | with_reducible exact Still.refl _ | with_reducible apply Still.step (State.freeTiles_still)
      | with_reducible apply Still.step (State.setBay_still) | split)

theorem State.passOverhead_still {s : State} {i : Nat} {n : Nat} : Still s (State.passOverhead s i n).2 := by
  unfold State.passOverhead
  repeat' (first
      | with_reducible exact Still.refl _ | with_reducible apply Still.step (State.draw_still)
      | with_reducible apply Still.step (State.setCore_still))

theorem State.mxePass_kept {s : State} {r : StallRef} {p : MxePass} : Kept s (State.mxePass s r p) := by
  unfold State.mxePass
  repeat' (first
      | with_reducible exact Kept.refl _ | with_reducible apply Kept.step (State.abortInst_kept)
      | with_reducible apply Kept.step (State.count64_still).kept | with_reducible apply Kept.step (State.passOverhead_still).kept
      | with_reducible apply Kept.step (State.ringPassed_still).kept | with_reducible apply Kept.step (State.setInst_still).kept
      | with_reducible apply Kept.step (State.tally_still).kept | with_reducible apply Kept.step (mxeColumn_still).kept
      | with_reducible apply Kept.ite | (with_reducible apply Kept.foldlP; intro _ _) | split)

theorem State.vxeRun_kept {s : State} {r : StallRef} {row : VxeRow} {legal : Bool} {reads : Inst → List (Nat × Nat)} {outLen : Nat} {compute : State → Inst → State × Bytes × Tally} (h_compute : ∀ (v0 : State) (v1 : Inst), Kept v0 (compute v0 v1).1) :
    Kept s (State.vxeRun s r row legal reads outLen compute) := by
  unfold State.vxeRun
  repeat' (first
      | with_reducible exact Kept.refl _ | with_reducible apply Kept.step (h_compute _ _) | with_reducible apply Kept.step (State.abortInst_kept)
      | with_reducible apply Kept.step (State.setInst_still).kept | with_reducible apply Kept.step (State.tally_still).kept
      | with_reducible apply Kept.ite | split)

theorem opApply_still {op : VxeOp} {s : State} {a : FVal} {b : FVal} {c : FVal} : Still s (opApply op s a b c).1 := by
  unfold opApply
  repeat' (first
      | with_reducible exact Still.refl _ | with_reducible apply Still.step (withinUlp_still) | with_reducible apply Still.iteP | split)

theorem vxeElement_still {s : State} {op : VxeOp} {ctl : Word} {row : VxeRow} {a : Nat} {b : Nat} {c : Nat} :
    Still s (vxeElement s op ctl row a b c).1 := by
  unfold vxeElement
  repeat' (first | with_reducible exact Still.refl _ | with_reducible apply Still.step (opApply_still) | with_reducible apply Still.iteP)

theorem rowOut_still {s : State} {n : Nat} {f : Fmt} {el : State → Nat → State × Nat × Tally} (h_el : ∀ (v0 : State) (v1 : Nat), Still v0 (el v0 v1).1) :
    Still s (rowOut s n f el).1 := by
  unfold rowOut
  repeat' (first
      | with_reducible exact Still.refl _ | with_reducible apply Still.step (h_el _ _) | (with_reducible apply Still.foldlP; intro _ _))

theorem rowOut_kept {s : State} {n : Nat} {f : Fmt} {el : State → Nat → State × Nat × Tally} (h_el : ∀ (v0 : State) (v1 : Nat), Kept v0 (el v0 v1).1) :
    Kept s (rowOut s n f el).1 := by
  unfold rowOut
  repeat' (first | with_reducible exact Kept.refl _ | with_reducible apply Kept.step (h_el _ _) | (with_reducible apply Kept.foldlP; intro _ _))

theorem State.vxeElementwise_kept {s : State} {r : StallRef} {op : VxeOp} {row : VxeRow} : Kept s (State.vxeElementwise s r op row) := by
  unfold State.vxeElementwise
  repeat' (first
      | with_reducible exact Kept.refl _ | with_reducible apply Kept.step (State.vxeRun_kept (fun _ _ => ?_))
      | with_reducible apply Kept.step (rowOut_kept (fun _ _ => ?_)) | with_reducible apply Kept.step (vxeElement_still).kept)

theorem oneOut_still {s : State} {x : Inst} {f : Fmt} {v : FVal} {finite : Bool} {degenerate : Nat} :
    Still s (oneOut s x f v finite degenerate).1 := by
  unfold oneOut
  with_reducible exact Still.refl _

theorem State.rowReduction_kept {s : State} {r : StallRef} {kind : Reduction} {row : VxeRow} : Kept s (State.rowReduction s r kind row) := by
  unfold State.rowReduction
  repeat' (first
      | with_reducible exact Kept.refl _ | with_reducible apply Kept.step (State.vxeRun_kept (fun _ _ => ?_))
      | with_reducible apply Kept.step (fsum_still).kept | with_reducible apply Kept.step (oneOut_still).kept | split)

theorem fpOut_still {s : State} {x : Inst} {f : Fmt} {finite : Bool} {vs : List FVal} {degenerate : Nat} :
    Still s (fpOut s x f finite vs degenerate).1 := by
  unfold fpOut
  with_reducible exact Still.refl _

theorem fmean_still {s : State} {vs : List FVal} : Still s (fmean s vs).1 := by
  unfold fmean
  repeat' (first | with_reducible exact Still.refl _ | with_reducible apply Still.step (fsum_still))

theorem fvariance_still {s : State} {vs : List FVal} {mean : FVal} : Still s (fvariance s vs mean).1 := by
  unfold fvariance
  repeat' (first
      | with_reducible exact Still.refl _ | with_reducible apply Still.step (State.draw_still) | with_reducible apply Still.step (fmean_still)
      | with_reducible apply Still.iteP)

theorem State.layerNorm_kept {s : State} {r : StallRef} {row : VxeRow} {epsilon : Word} : Kept s (State.layerNorm s r row epsilon) := by
  unfold State.layerNorm
  repeat' (first
      | with_reducible exact Kept.refl _ | with_reducible apply Kept.step (State.vxeRun_kept (fun _ _ => ?_))
      | with_reducible apply Kept.step (fmean_still).kept | with_reducible apply Kept.step (fpOut_still).kept
      | with_reducible apply Kept.step (fvariance_still).kept | with_reducible apply Kept.step (withinUlp_still).kept | split | dsimp only)

theorem State.rmsNorm_kept {s : State} {r : StallRef} {row : VxeRow} {epsilon : Word} : Kept s (State.rmsNorm s r row epsilon) := by
  unfold State.rmsNorm
  repeat' (first
      | with_reducible exact Kept.refl _ | with_reducible apply Kept.step (State.vxeRun_kept (fun _ _ => ?_))
      | with_reducible apply Kept.step (fmean_still).kept | with_reducible apply Kept.step (fpOut_still).kept
      | with_reducible apply Kept.step (withinUlp_still).kept | split | dsimp only)

theorem softJoin_still {s : State} {a : FVal × FVal} {b : FVal × FVal} : Still s (softJoin s a b).1 := by
  unfold softJoin
  repeat' (first | with_reducible exact Still.refl _ | with_reducible apply Still.step (withinUlp_still))

theorem softmaxOf_still {s : State} {vs : List FVal} : Still s (softmaxOf s vs).1 := by
  unfold softmaxOf
  repeat' (first
      | with_reducible exact Still.refl _ | with_reducible apply Still.step (softJoin_still)
      | with_reducible apply Still.step (sumOpen_still (fun _ _ _ => ?_)) | with_reducible apply Still.step (withinUlp_still)
      | with_reducible apply Still.iteP | (with_reducible apply Still.foldlP; intro _ _) | split | dsimp only)

theorem State.softmax_kept {s : State} {r : StallRef} {row : VxeRow} : Kept s (State.softmax s r row) := by
  unfold State.softmax
  repeat' (first
      | with_reducible exact Kept.refl _ | with_reducible apply Kept.step (State.vxeRun_kept (fun _ _ => ?_))
      | with_reducible apply Kept.step (fpOut_still).kept | with_reducible apply Kept.step (softmaxOf_still).kept)

theorem State.scaleRow_kept {s : State} {r : StallRef} {row : VxeRow} {target : Fmt} : Kept s (State.scaleRow s r row target) := by
  unfold State.scaleRow
  repeat' (first
      | with_reducible exact Kept.refl _ | with_reducible apply Kept.step (State.vxeRun_kept (fun _ _ => ?_))
      | with_reducible apply Kept.step (oneOut_still).kept)

theorem State.quantRow_kept {s : State} {r : StallRef} {row : VxeRow} {target : Fmt} : Kept s (State.quantRow s r row target) := by
  unfold State.quantRow
  repeat' (first
      | with_reducible exact Kept.refl _ | with_reducible apply Kept.step (State.vxeRun_kept (fun _ _ => ?_))
      | with_reducible apply Kept.step (rowOut_kept (fun _ _ => ?_)) | with_reducible apply Kept.step (withinUlp_still).kept)

theorem State.dequantRow_kept {s : State} {r : StallRef} {row : VxeRow} : Kept s (State.dequantRow s r row) := by
  unfold State.dequantRow
  repeat' (first
      | with_reducible exact Kept.refl _ | with_reducible apply Kept.step (State.vxeRun_kept (fun _ _ => ?_))
      | with_reducible apply Kept.step (fpOut_still).kept)

theorem State.rescaleRow_kept {s : State} {r : StallRef} {o : RescaleOp} : Kept s (State.rescaleRow s r o) := by
  unfold State.rescaleRow
  repeat' (first
      | with_reducible exact Kept.refl _ | with_reducible apply Kept.step (State.vxeRun_kept (fun _ _ => ?_))
      | with_reducible apply Kept.step (rowOut_kept (fun _ _ => ?_)))

end Sys2Proof.Machine
end

