-- ==== Sys2Proof/Laws/FrameBankSide.lean ====
section
/-! SUPPORT. What the operations of Machine/BankSide.lean leave alone: memory and the fuses (`Still`), or the fuses and the form of memory
(`Kept`). -/

namespace Sys2Proof.Machine

theorem State.setBse_still {s : State} {c : BseCommand} : Still s (State.setBse s c) := by
  unfold State.setBse
  repeat' (first | (simp only [Still.upd]; first | with_reducible refine Still.of ?_ | exact ⟨trivial, trivial⟩))

theorem State.takeNext_still {s : State} {die : Nat} : Still s (State.takeNext s die) := by
  unfold State.takeNext
  repeat' (first
      | with_reducible exact Still.refl _ | with_reducible apply Still.ite
      | (simp only [Still.upd]; first | with_reducible refine Still.of ?_ | exact ⟨trivial, trivial⟩) | split)

theorem State.queueShare_still {s : State} {die : Nat} {lc : Bool} {work : ShareWork} {va : Nat} {len : Nat} {phys : Nat} :
    Still s (State.queueShare s die lc work va len phys) := by
  unfold State.queueShare
  repeat' (first
      | with_reducible apply Still.step (State.takeNext_still)
      | (simp only [Still.upd]; first | with_reducible refine Still.of ?_ | exact ⟨trivial, trivial⟩))

theorem State.dropShare_still {s : State} {sh : BseShare} : Still s (State.dropShare s sh) := by
  unfold State.dropShare
  repeat' (first
      | with_reducible apply Still.step (State.takeNext_still)
      | (simp only [Still.upd]; first | with_reducible refine Still.of ?_ | exact ⟨trivial, trivial⟩))

theorem State.bseAdvance_kept {s : State} {id : Nat} {e0 : Nat} : Kept s (State.bseAdvance s id e0) := by
  induction e0 generalizing s id with
  | zero =>
    unfold State.bseAdvance
    repeat' (first | with_reducible exact Kept.refl _)
  | succ n ih =>
    unfold State.bseAdvance
    repeat' (first
        | with_reducible exact Kept.refl _ | with_reducible apply Kept.step (ih ..)
        | with_reducible apply Kept.step (State.queueShare_still).kept | with_reducible apply Kept.step (State.setBse_still).kept
        | with_reducible apply Kept.step (State.takeFault_kept) | with_reducible apply Kept.ite
        | with_reducible refine Kept.fst3 (by assumption) (State.translate_still).kept ?_ | split | dsimp only)

theorem State.bseRoom_kept {s : State} : Kept s (State.bseRoom s) := by
  unfold State.bseRoom
  repeat' (first
      | with_reducible exact Kept.refl _ | with_reducible apply Kept.step (State.bseAdvance_kept)
      | with_reducible apply Kept.step (State.setBse_still).kept | (with_reducible apply Kept.foldl; intro _ _))

theorem State.bseIssue_kept {s : State} {r : StallRef} {off : Nat} {wsum : Bool} : Kept s (State.bseIssue s r off wsum) := by
  unfold State.bseIssue
  repeat' (first
      | with_reducible exact Kept.refl _ | with_reducible apply Kept.step (State.abortInst_kept)
      | with_reducible apply Kept.step (State.bseAdvance_kept) | with_reducible apply Kept.step (State.refresh_still).kept
      | with_reducible apply Kept.ite | (simp only [Kept.upd]; first | with_reducible refine Kept.of ?_ | exact ⟨trivial, fun h => h⟩) | split)

theorem sharePartial_still {s : State} {c : BseCommand} {terms : List (Int × FVal)} : Still s (sharePartial s c terms).1 := by
  unfold sharePartial
  repeat' (first | with_reducible exact Still.refl _ | with_reducible apply Still.step (fsum_still) | with_reducible apply Still.iteP)

theorem State.gather_still {s : State} {c : BseCommand} {terms : List (Nat × Int × FVal)} : Still s (State.gather s c terms).1 := by
  unfold State.gather
  repeat' (first
      | with_reducible exact Still.refl _ | with_reducible apply Still.step (sharePartial_still) | (with_reducible apply Still.foldlP; intro _ _))

theorem bseVector_still {s : State} {c : BseCommand} {x : Inst} {v : Nat} : Still s (bseVector s c x v).1 := by
  unfold bseVector
  repeat' (first
      | with_reducible exact Still.refl _ | with_reducible apply Still.step (fsum_still)
      | with_reducible apply Still.step (sumOpen_still (fun _ _ _ => ?_)) | with_reducible apply Still.iteP
      | (with_reducible apply Still.foldlP; intro _ _))

theorem State.bseResults_still {s : State} {c : BseCommand} {x : Inst} {die : Nat} : Still s (State.bseResults s c x die).1 := by
  unfold State.bseResults
  repeat' (first
      | with_reducible exact Still.refl _ | with_reducible apply Still.step (State.count32_still)
      | with_reducible apply Still.step (bseVector_still) | (with_reducible apply Still.foldlP; intro _ _))

theorem State.bseFinish_kept {s : State} {id : Nat} {die : Nat} : Kept s (State.bseFinish s id die) := by
  unfold State.bseFinish
  repeat' (first
      | with_reducible exact Kept.refl _ | with_reducible apply Kept.step (State.bseResults_still).kept
      | with_reducible apply Kept.step (State.postOwed_kept) | with_reducible apply Kept.step (State.refresh_still).kept
      | with_reducible apply Kept.step (State.setInst_still).kept | with_reducible apply Kept.ite
      | (simp only [Kept.upd]; first | with_reducible refine Kept.of ?_ | exact ⟨trivial, fun h => h⟩) | split)

theorem State.shareWork_still {s : State} {c : BseCommand} {area : Inst} {va : Nat} {len : Nat} {phys : Nat} {die : Nat} {leafMarked : Bool} :
    Still s (State.shareWork s c area va len phys die leafMarked).1 := by
  unfold State.shareWork
  repeat' (first
      | with_reducible exact Still.refl _ | with_reducible apply Still.step (State.count64_still)
      | with_reducible apply Still.step (State.countWrap_still) | with_reducible apply Still.step (State.gather_still)
      | with_reducible apply Still.step (State.meetUe_still) | (with_reducible apply Still.foldl; intro _ _))

theorem State.commandShareDone_kept {s : State} {sh : BseShare} {id : Nat} : Kept s (State.commandShareDone s sh id) := by
  unfold State.commandShareDone
  repeat' (first
      | with_reducible exact Kept.refl _ | with_reducible apply Kept.step (State.bseFinish_kept)
      | with_reducible apply Kept.step (State.bseRoom_kept) | with_reducible apply Kept.step (State.dropShare_still).kept
      | with_reducible apply Kept.step (State.setBse_still).kept | with_reducible apply Kept.step (State.shareWork_still).kept | split)

end Sys2Proof.Machine
end

