-- ==== Sys2Proof/Laws/FramePublish.lean ====
section
/-! SUPPORT. What the operations of Machine/Publish.lean leave alone: memory and the fuses (`Still`), or the fuses and the form of memory
(`Kept`). -/

namespace Sys2Proof.Machine

theorem State.releaseFrames_still {s : State} {sid : Nat} {tail : Word} : Still s (State.releaseFrames s sid tail) := by
  unfold State.releaseFrames
  repeat' (first
      | with_reducible exact Still.refl _ | with_reducible apply Still.step (State.setReg_still)
      | with_reducible apply Still.step (State.setStream_still))

theorem State.chunkService_still {s : State} {b : Nat} {sid : Nat} {f : InFlight} : Still s (State.chunkService s b sid f) := by
  unfold State.chunkService
  repeat' (first
      | with_reducible exact Still.refl _ | with_reducible apply Still.step (State.keepMax_still)
      | with_reducible apply Still.step (State.setReg_still))

theorem State.chunkCounts_still {s : State} {b : Nat} {sid : Nat} {f : InFlight} : Still s (State.chunkCounts s b sid f) := by
  unfold State.chunkCounts
  repeat' (first
      | with_reducible exact Still.refl _ | with_reducible apply Still.step (State.chunkService_still)
      | with_reducible apply Still.step (State.count16_still) | with_reducible apply Still.step (State.count32_still)
      | with_reducible apply Still.step (State.countSat_still) | with_reducible apply Still.step (State.countWrap_still)
      | with_reducible apply Still.step (State.setReg_still) | with_reducible apply Still.ite)

theorem State.chunkRegs_still {s : State} {b : Nat} {sid : Nat} {f : InFlight} : Still s (State.chunkRegs s b sid f) := by
  unfold State.chunkRegs
  repeat' (first
      | with_reducible exact Still.refl _ | with_reducible apply Still.step (State.chunkCounts_still)
      | with_reducible apply Still.step (State.chunkService_still) | with_reducible apply Still.step (State.countWrap_still)
      | with_reducible apply Still.step (State.releaseFrames_still) | with_reducible apply Still.step (State.setReg_still) | split)

theorem State.stepService_still {s : State} {b : Nat} {q : Nat} {f : InFlight} : Still s (State.stepService s b q f) := by
  unfold State.stepService
  repeat' (first | with_reducible exact Still.refl _ | with_reducible apply Still.step (State.keepMax_still))

theorem State.stepCounts_still {s : State} {b : Nat} {q : Nat} {f : InFlight} : Still s (State.stepCounts s b q f) := by
  unfold State.stepCounts
  repeat' (first
      | with_reducible exact Still.refl _ | with_reducible apply Still.step (State.count16_still)
      | with_reducible apply Still.step (State.countWrap_still) | with_reducible apply Still.step (State.stepService_still)
      | with_reducible apply Still.ite)

theorem State.stepRegs_still {s : State} {b : Nat} {q : Nat} {f : InFlight} : Still s (State.stepRegs s b q f) := by
  unfold State.stepRegs
  repeat' (first
      | with_reducible exact Still.refl _ | with_reducible apply Still.step (State.countWrap_still)
      | with_reducible apply Still.step (State.setReg_still) | with_reducible apply Still.step (State.stepCounts_still)
      | with_reducible apply Still.step (State.stepService_still) | split)

theorem State.sinkSlot_kept {s : State} {seq : Bool} {i : Nat} {k : Word} : Kept s (State.sinkSlot s seq i k) := by
  unfold State.sinkSlot
  repeat' (first
      | with_reducible exact Kept.refl _ | with_reducible apply Kept.step (State.sendSlots_kept)
      | with_reducible apply Kept.step (State.setUnsent_still).kept | with_reducible apply Kept.ite)

theorem State.drainEnd_still {s : State} {seq : Bool} {i : Nat} : Still s (State.drainEnd s seq i) := by
  unfold State.drainEnd
  repeat' (first
      | with_reducible exact Still.refl _ | with_reducible apply Still.step (State.goIdle_still)
      | with_reducible apply Still.step (State.setSeq_still) | with_reducible apply Still.step (State.setStream_still)
      | with_reducible apply Still.ite)

theorem State.contextWrite_kept {s : State} {b : Nat} {seq : Bool} {i : Nat} {f : InFlight} : Kept s (State.contextWrite s b seq i f) := by
  unfold State.contextWrite
  repeat' (first
      | with_reducible exact Kept.refl _ | with_reducible apply Kept.step (State.chunkRegs_still).kept
      | with_reducible apply Kept.step (State.finishRow_kept) | with_reducible apply Kept.step (State.setSeq_still).kept
      | with_reducible apply Kept.step (State.setStream_still).kept | with_reducible apply Kept.step (State.sinkSlot_kept)
      | with_reducible apply Kept.step (State.stepRegs_still).kept | with_reducible apply Kept.step (State.trace_still).kept
      | with_reducible apply Kept.ite)

theorem State.writeHeaders_kept {s : State} {b : Nat} {seq : Bool} {i : Nat} {f0 : InFlight} : Kept s (State.writeHeaders s b seq i f0).1 := by
  unfold State.writeHeaders
  repeat' (first
      | with_reducible exact Kept.refl _ | with_reducible apply Kept.step (State.finishRow_kept)
      | with_reducible apply Kept.step (State.raiseFault_kept) | with_reducible apply Kept.step (State.returnSeq_still).kept
      | with_reducible apply Kept.step (State.returnStream_still).kept | with_reducible apply Kept.step (State.setInflight_still).kept
      | with_reducible apply Kept.step (State.setSeq_still).kept | with_reducible apply Kept.step (State.setStream_still).kept
      | with_reducible apply Kept.iteP | with_reducible refine Kept.fst3 (by assumption) (State.batcherWrites_kept) ?_ | split | dsimp only)

theorem State.clearPending_still {s : State} {seq : Bool} {i : Nat} : Still s (State.clearPending s seq i) := by
  unfold State.clearPending
  repeat' (first
      | with_reducible exact Still.refl _ | with_reducible apply Still.step (State.setSeq_still)
      | with_reducible apply Still.step (State.setStream_still) | with_reducible apply Still.ite)

theorem State.endSlot_kept {s : State} {b : Nat} {seq : Bool} {i : Nat} {f : InFlight} : Kept s (State.endSlot s b seq i f) := by
  unfold State.endSlot
  repeat' (first
      | with_reducible exact Kept.refl _ | with_reducible apply Kept.step (State.clearPending_still).kept
      | with_reducible apply Kept.step (State.contextWrite_kept) | with_reducible apply Kept.step (State.drainEnd_still).kept
      | with_reducible apply Kept.step (State.goIdle_still).kept | with_reducible apply Kept.ite)

theorem State.publishEmpty_kept {s : State} {b : Nat} {seq : Bool} {i : Nat} : Kept s (State.publishEmpty s b seq i) := by
  unfold State.publishEmpty
  repeat' (first
      | with_reducible exact Kept.refl _ | with_reducible apply Kept.step (State.endSlot_kept)
      | with_reducible apply Kept.step (State.setInflight_still).kept | with_reducible apply Kept.step (State.setOutFull_still).kept
      | with_reducible apply Kept.ite | with_reducible refine Kept.fst3 (by assumption) (State.writeHeaders_kept) ?_ | split | dsimp only)

theorem State.completeSlot_kept {s : State} {seq : Bool} {i : Nat} : Kept s (State.completeSlot s seq i) := by
  unfold State.completeSlot
  repeat' (first
      | with_reducible exact Kept.refl _ | with_reducible apply Kept.step (State.endSlot_kept)
      | with_reducible apply Kept.step (State.publishEmpty_kept) | with_reducible apply Kept.ite | split)

theorem State.tryHeaders_kept {s : State} {seq : Bool} {i : Nat} : Kept s (State.tryHeaders s seq i) := by
  unfold State.tryHeaders
  repeat' (first
      | with_reducible exact Kept.refl _ | with_reducible apply Kept.step (State.completeSlot_kept) | with_reducible apply Kept.ite
      | with_reducible refine Kept.fst3 (by assumption) (State.writeHeaders_kept) ?_ | split)

end Sys2Proof.Machine
end

