-- ==== Sys2Proof/Laws/FrameStreams.lean ====
section
/-! SUPPORT. What the operations of Machine/Streams.lean leave alone: memory and the fuses (`Still`), or the fuses and the form of memory
(`Kept`). -/

namespace Sys2Proof.Machine

theorem State.noteReady_still {s : State} {sid : Nat} {n : Word} : Still s (State.noteReady s sid n) := by
  unfold State.noteReady
  repeat' (first
      | with_reducible exact Still.refl _ | with_reducible apply Still.step (State.applyStaged_still)
      | with_reducible apply Still.step (State.setReg_still) | with_reducible apply Still.step (State.setStream_still)
      | with_reducible apply Still.ite)

theorem State.noteAll_still {s : State} {sid : Nat} : Still s (State.noteAll s sid) := by
  unfold State.noteAll
  repeat' (first
      | with_reducible exact Still.refl _ | with_reducible apply Still.step (State.noteReady_still)
      | with_reducible apply Still.step (State.setStream_still) | with_reducible apply Still.ite | (with_reducible apply Still.foldl; intro _ _))

theorem State.leafFinding_still {s : State} {b : Nat} {va : Nat} : Still s (State.leafFinding s b va).1 := by
  unfold State.leafFinding
  repeat' (first | with_reducible exact Still.refl _ | with_reducible refine Still.fst3 (by assumption) (State.translate_still) ?_ | split)

theorem State.probeRange_still {s : State} {b : Nat} {va : Nat} {len : Nat} : Still s (State.probeRange s b va len).1 := by
  unfold State.probeRange
  repeat' (first
      | with_reducible exact Still.refl _ | with_reducible apply Still.step (State.leafFinding_still)
      | (with_reducible apply Still.foldlP; intro _ _))

theorem State.residency_still {s : State} {b : Nat} {sid : Nat} : Still s (State.residency s b sid).1 := by
  unfold State.residency
  repeat' (first | with_reducible exact Still.refl _ | with_reducible apply Still.step (State.probeRange_still))

theorem State.bringBack_still {s : State} {b : Nat} {lc : Bool} {pages : List Nat} : Still s (State.bringBack s b lc pages) := by
  unfold State.bringBack
  repeat' (first
      | with_reducible exact Still.refl _ | with_reducible apply Still.step (State.issueMig_still)
      | (with_reducible apply Still.foldl; intro _ _))

theorem State.prefetch_still {s : State} {b : Nat} {sid : Nat} : Still s (State.prefetch s b sid) := by
  unfold State.prefetch
  repeat' (first
      | with_reducible exact Still.refl _ | with_reducible apply Still.step (State.bringBack_still)
      | with_reducible apply Still.step (State.probeRange_still))

theorem State.absentEnds_still {s : State} {sid : Nat} : Still s (State.absentEnds s sid) := by
  unfold State.absentEnds
  repeat' (first
      | with_reducible exact Still.refl _ | with_reducible apply Still.step (State.keepMax_still)
      | with_reducible apply Still.step (State.setStream_still) | with_reducible apply Still.ite)

theorem State.absentWaits_still {s : State} {b : Nat} {sid : Nat} {pages : List Nat} {hard : Bool} :
    Still s (State.absentWaits s b sid pages hard) := by
  unfold State.absentWaits
  repeat' (first
      | with_reducible exact Still.refl _ | with_reducible apply Still.step (State.bringBack_still)
      | with_reducible apply Still.step (State.count16_still) | with_reducible apply Still.step (State.setStream_still)
      | with_reducible apply Still.ite)

theorem State.launch_still {s : State} {sid : Nat} {kind : SlotKind} {silence : Bool} {deadline : W64} :
    Still s (State.launch s sid kind silence deadline) := by
  unfold State.launch
  repeat' (first
      | with_reducible exact Still.refl _ | with_reducible apply Still.step (State.absentEnds_still)
      | with_reducible apply Still.step (State.setReg_still) | with_reducible apply Still.step (State.setStream_still))

theorem State.dropChunk_kept {s : State} {sid : Nat} {late : Bool} : Kept s (State.dropChunk s sid late) := by
  unfold State.dropChunk
  repeat' (first
      | with_reducible exact Kept.refl _ | with_reducible apply Kept.step (State.count16_still).kept
      | with_reducible apply Kept.step (State.launch_still).kept | with_reducible apply Kept.step (State.noteReady_still).kept
      | with_reducible apply Kept.step (State.setOutFull_still).kept | with_reducible apply Kept.step (State.tryHeaders_kept)
      | with_reducible apply Kept.ite)

theorem State.jumpTo_still {s : State} {sid : Nat} {n : Word} : Still s (State.jumpTo s sid n) := by
  unfold State.jumpTo
  repeat' (first
      | with_reducible exact Still.refl _ | with_reducible apply Still.step (State.noteAll_still)
      | with_reducible apply Still.step (State.releaseFrames_still) | with_reducible apply Still.step (State.setReg_still)
      | with_reducible apply Still.step (State.setStream_still) | with_reducible apply Still.ite)

theorem State.dropMember_still {s : State} {b : Nat} {k : Nat} {sid : Nat} {n : Word} : Still s (State.dropMember s b k sid n) := by
  unfold State.dropMember
  repeat' (first
      | with_reducible exact Still.refl _ | with_reducible apply Still.step (State.count16_still)
      | with_reducible apply Still.step (State.setStream_still))

theorem State.lateMember_still {s : State} {b : Nat} {k : Nat} {sid : Nat} {n : Word} : Still s (State.lateMember s b k sid n).1 := by
  unfold State.lateMember
  repeat' (first
      | with_reducible exact Still.refl _ | with_reducible apply Still.step (State.count16_still)
      | with_reducible apply Still.step (State.dropMember_still) | with_reducible apply Still.step (State.jumpTo_still)
      | with_reducible apply Still.step (State.noteReady_still) | with_reducible apply Still.iteP | with_reducible apply Still.ite
      | with_reducible refine Still.fst3 (by assumption) (State.residency_still) ?_ | split)

theorem State.postGroup_kept {s : State} {b : Nat} {k : Nat} {expired : Bool} : Kept s (State.postGroup s b k expired) := by
  unfold State.postGroup
  repeat' (first
      | with_reducible exact Kept.refl _ | with_reducible apply Kept.step (State.applyStaged_still).kept
      | with_reducible apply Kept.step (State.dropChunk_kept) | with_reducible apply Kept.step (State.joinBatch_kept)
      | with_reducible apply Kept.step (State.launch_still).kept | with_reducible apply Kept.step (State.setAlign_still).kept
      | with_reducible apply Kept.step (State.setReg_still).kept | with_reducible apply Kept.step (State.setStream_still).kept
      | (with_reducible apply Kept.foldl; intro _ _) | (with_reducible apply Kept.foldlP; intro _ _)
      | with_reducible refine Kept.fst3 (by assumption) (State.lateMember_still).kept ?_ | split)

theorem State.postDue_kept {s : State} {b : Nat} {k : Nat} : Kept s (State.postDue s b k) := by
  unfold State.postDue
  repeat' (first | with_reducible exact Kept.refl _ | with_reducible apply Kept.step (State.postGroup_kept) | with_reducible apply Kept.ite)

theorem State.offer_kept {s : State} {b : Nat} {k : Nat} {sid : Nat} : Kept s (State.offer s b k sid) := by
  unfold State.offer
  repeat' (first
      | with_reducible exact Kept.refl _ | with_reducible apply Kept.step (State.postDue_kept)
      | with_reducible apply Kept.step (State.setAlign_still).kept | with_reducible apply Kept.step (State.setStream_still).kept)

theorem State.leaveSet_kept {s : State} {b : Nat} {sid : Nat} : Kept s (State.leaveSet s b sid) := by
  unfold State.leaveSet
  repeat' (first
      | with_reducible exact Kept.refl _ | with_reducible apply Kept.step (State.postDue_kept)
      | with_reducible apply Kept.step (State.setAlign_still).kept | with_reducible apply Kept.step (State.setStream_still).kept | split)

theorem State.stateFaults_kept {s : State} {b : Nat} {sid : Nat} : Kept s (State.stateFaults s b sid) := by
  unfold State.stateFaults
  repeat' (first
      | with_reducible exact Kept.refl _ | with_reducible apply Kept.step (State.absentEnds_still).kept
      | with_reducible apply Kept.step (State.leaveSet_kept) | with_reducible apply Kept.step (State.setStream_still).kept)

theorem State.recheck_kept {s : State} {b : Nat} {sid : Nat} : Kept s (State.recheck s b sid) := by
  unfold State.recheck
  repeat' (first
      | with_reducible exact Kept.refl _ | with_reducible apply Kept.step (State.absentEnds_still).kept
      | with_reducible apply Kept.step (State.absentWaits_still).kept | with_reducible apply Kept.step (State.prefetch_still).kept
      | with_reducible apply Kept.step (State.stateFaults_kept) | with_reducible apply Kept.ite
      | with_reducible refine Kept.fst3 (by assumption) (State.residency_still).kept ?_ | split)

theorem State.postReady_kept {s : State} {b : Nat} {sid : Nat} {silence : Bool} {gap : Bool} {set : Option Nat} :
    Kept s (State.postReady s b sid silence gap set) := by
  unfold State.postReady
  repeat' (first
      | with_reducible exact Kept.refl _ | with_reducible apply Kept.step (State.absentEnds_still).kept
      | with_reducible apply Kept.step (State.absentWaits_still).kept | with_reducible apply Kept.step (State.count16_still).kept
      | with_reducible apply Kept.step (State.dropChunk_kept) | with_reducible apply Kept.step (State.joinBatch_kept)
      | with_reducible apply Kept.step (State.launch_still).kept | with_reducible apply Kept.step (State.noteReady_still).kept
      | with_reducible apply Kept.step (State.offer_kept) | with_reducible apply Kept.step (State.setOutFull_still).kept
      | with_reducible apply Kept.step (State.setStream_still).kept | with_reducible apply Kept.step (State.stateFaults_kept)
      | with_reducible apply Kept.ite | with_reducible refine Kept.fst3 (by assumption) (State.residency_still).kept ?_ | split | dsimp only)

theorem State.chunkLook_kept {s : State} {b : Nat} {sid : Nat} {set : Option Nat} : Kept s (State.chunkLook s b sid set) := by
  unfold State.chunkLook
  repeat' (first
      | with_reducible exact Kept.refl _ | with_reducible apply Kept.step (State.dropChunk_kept)
      | with_reducible apply Kept.step (State.postReady_kept) | with_reducible apply Kept.ite)

theorem State.tryPost_kept {s : State} {sid : Nat} : Kept s (State.tryPost s sid) := by
  unfold State.tryPost
  repeat' (first
      | with_reducible exact Kept.refl _ | with_reducible apply Kept.step (State.chunkLook_kept)
      | with_reducible apply Kept.step (State.dropChunk_kept) | with_reducible apply Kept.step (State.jumpTo_still).kept
      | with_reducible apply Kept.step (State.postDue_kept) | with_reducible apply Kept.step (State.publishEmpty_kept)
      | with_reducible apply Kept.step (State.setStream_still).kept | with_reducible apply Kept.ite | split)

theorem State.scRefuse_still {s : State} {sid : Nat} {reason : Nat} : Still s (State.scRefuse s sid reason) := by
  unfold State.scRefuse
  repeat' (first | with_reducible exact Still.refl _ | with_reducible apply Still.step (State.setStream_still))

theorem State.scCommand_still {s : State} {sid : Nat} {allowed : List CtxState} {body : State → State} (h_body : ∀ (v0 : State), Still v0 (body v0)) :
    Still s (State.scCommand s sid allowed body) := by
  unfold State.scCommand
  repeat' (first
      | with_reducible exact Still.refl _ | with_reducible apply Still.step (h_body _) | with_reducible apply Still.step (State.scRefuse_still)
      | with_reducible apply Still.step (State.setStream_still) | with_reducible apply Still.ite)

theorem State.scCommand_kept {s : State} {sid : Nat} {allowed : List CtxState} {body : State → State} (h_body : ∀ (v0 : State), Kept v0 (body v0)) :
    Kept s (State.scCommand s sid allowed body) := by
  unfold State.scCommand
  repeat' (first
      | with_reducible exact Kept.refl _ | with_reducible apply Kept.step (h_body _) | with_reducible apply Kept.step (State.scRefuse_still).kept
      | with_reducible apply Kept.step (State.setStream_still).kept | with_reducible apply Kept.ite)

theorem State.armStream_still {s : State} {b : Nat} {sid : Nat} : Still s (State.armStream s b sid) := by
  unfold State.armStream
  repeat' (first
      | with_reducible exact Still.refl _ | with_reducible apply Still.step (State.applyAll_still)
      | with_reducible apply Still.step (State.setBatcher_still) | with_reducible apply Still.step (State.setReg_still)
      | with_reducible apply Still.step (State.setStream_still))

theorem State.scArmOp_still {s : State} {sid : Nat} : Still s (State.scArmOp s sid) := by
  unfold State.scArmOp
  repeat' (first
      | with_reducible exact Still.refl _ | with_reducible apply Still.step (State.armStream_still)
      | with_reducible apply Still.step (State.scCommand_still (fun _ => ?_)) | with_reducible apply Still.step (State.scRefuse_still) | split)

theorem State.scStartOp_still {s : State} {sid : Nat} : Still s (State.scStartOp s sid) := by
  unfold State.scStartOp
  repeat' (first
      | with_reducible exact Still.refl _ | with_reducible apply Still.step (State.scCommand_still (fun _ => ?_))
      | with_reducible apply Still.step (State.setStream_still))

theorem State.pauseStream_kept {s : State} {sid : Nat} : Kept s (State.pauseStream s sid) := by
  unfold State.pauseStream
  repeat' (first
      | with_reducible exact Kept.refl _ | with_reducible apply Kept.step (State.leaveSet_kept)
      | with_reducible apply Kept.step (State.setStream_still).kept | split)

theorem State.scPauseOp_kept {s : State} {sid : Nat} : Kept s (State.scPauseOp s sid) := by
  unfold State.scPauseOp
  repeat' (first
      | with_reducible exact Kept.refl _ | with_reducible apply Kept.step (State.pauseStream_kept)
      | with_reducible apply Kept.step (State.scCommand_kept (fun _ => ?_)))

theorem State.resumeStream_still {s : State} {sid : Nat} : Still s (State.resumeStream s sid) := by
  unfold State.resumeStream
  repeat' (first
      | with_reducible exact Still.refl _ | with_reducible apply Still.step (State.noteAll_still)
      | with_reducible apply Still.step (State.setStream_still))

theorem State.scResumeOp_still {s : State} {sid : Nat} : Still s (State.scResumeOp s sid) := by
  unfold State.scResumeOp
  repeat' (first
      | with_reducible exact Still.refl _ | with_reducible apply Still.step (State.resumeStream_still)
      | with_reducible apply Still.step (State.scCommand_still (fun _ => ?_)))

theorem State.drainStream_kept {s : State} {b : Nat} {sid : Nat} : Kept s (State.drainStream s b sid) := by
  unfold State.drainStream
  repeat' (first
      | with_reducible exact Kept.refl _ | with_reducible apply Kept.step (State.leaveSet_kept)
      | with_reducible apply Kept.step (State.publishEmpty_kept) | with_reducible apply Kept.step (State.setStream_still).kept
      | with_reducible apply Kept.ite | split | dsimp only)

theorem State.scDrainOp_kept {s : State} {sid : Nat} : Kept s (State.scDrainOp s sid) := by
  unfold State.scDrainOp
  repeat' (first
      | with_reducible exact Kept.refl _ | with_reducible apply Kept.step (State.drainStream_kept)
      | with_reducible apply Kept.step (State.scCommand_kept (fun _ => ?_)) | split)

theorem State.abortStream_kept {s : State} {b : Nat} {sid : Nat} : Kept s (State.abortStream s b sid) := by
  unfold State.abortStream
  repeat' (first
      | with_reducible exact Kept.refl _ | with_reducible apply Kept.step (State.absentEnds_still).kept
      | with_reducible apply Kept.step (State.goIdle_still).kept | with_reducible apply Kept.step (State.leaveSet_kept)
      | with_reducible apply Kept.step (State.setStream_still).kept
      | with_reducible refine Kept.step (State.withdrawRow_still (by assumption)).kept ?_ | with_reducible apply Kept.ite | split | dsimp only)

theorem State.scAbortOp_kept {s : State} {sid : Nat} : Kept s (State.scAbortOp s sid) := by
  unfold State.scAbortOp
  repeat' (first
      | with_reducible exact Kept.refl _ | with_reducible apply Kept.step (State.abortStream_kept)
      | with_reducible apply Kept.step (State.goIdle_still).kept | with_reducible apply Kept.step (State.scCommand_kept (fun _ => ?_)) | split)

theorem State.resetState_still {s : State} {sid : Nat} : Still s (State.resetState s sid) := by
  unfold State.resetState
  repeat' (first | with_reducible exact Still.refl _ | with_reducible apply Still.step (State.setStream_still) | with_reducible apply Still.ite)

theorem State.scResetStateOp_still {s : State} {sid : Nat} : Still s (State.scResetStateOp s sid) := by
  unfold State.scResetStateOp
  repeat' (first
      | with_reducible exact Still.refl _ | with_reducible apply Still.step (State.resetState_still)
      | with_reducible apply Still.step (State.scCommand_still (fun _ => ?_)))

theorem State.scRecheckOp_kept {s : State} {sid : Nat} : Kept s (State.scRecheckOp s sid) := by
  unfold State.scRecheckOp
  repeat' (first
      | with_reducible exact Kept.refl _ | with_reducible apply Kept.step (State.recheck_kept)
      | with_reducible apply Kept.step (State.scCommand_kept (fun _ => ?_)) | with_reducible apply Kept.step (State.tryPost_kept) | split)

theorem State.frameLanded_still {s : State} {b : Nat} {sid : Nat} {q : Word} : Still s (State.frameLanded s b sid q) := by
  unfold State.frameLanded
  repeat' (first
      | with_reducible exact Still.refl _ | with_reducible apply Still.step (State.noteAll_still)
      | with_reducible apply Still.step (State.prefetch_still) | with_reducible apply Still.step (State.setReg_still)
      | with_reducible apply Still.step (State.setStream_still) | with_reducible apply Still.ite)

theorem State.writeFrame_kept {s : State} {b : Nat} {sid : Nat} {q : Word} {bytes : Bytes} {chaff : Bool} {en : Engine} :
    Kept s (State.writeFrame s b sid q bytes chaff en).1 := by
  unfold State.writeFrame
  repeat' (first
      | with_reducible exact Kept.refl _ | with_reducible apply Kept.step (State.count16_still).kept
      | with_reducible apply Kept.step (State.frameLanded_still).kept | with_reducible apply Kept.iteP
      | with_reducible refine Kept.fst3 (by assumption) (State.writeRun_kept) ?_ | split)

theorem State.holdMsg_still {s : State} {m : HeldMsg} : Still s (State.holdMsg s m).1 := by
  unfold State.holdMsg
  repeat' (first | (simp only [Still.upd]; first | with_reducible refine Still.of ?_ | exact ⟨trivial, trivial⟩))

theorem State.takeFrames_kept {s : State} {peer : Nat} {msg : Option Word} {b : Nat} {sid : Nat} {chaff : Bool} {first : Word} {e0 : List Bytes} :
    Kept s (State.takeFrames s peer msg b sid chaff first e0) := by
  induction e0 generalizing s peer msg b sid chaff first with
  | nil =>
    unfold State.takeFrames
    repeat' (first | with_reducible exact Kept.refl _ | with_reducible apply Kept.step (State.effect_still).kept)
  | cons a l ih =>
    unfold State.takeFrames
    repeat' (first
        | with_reducible exact Kept.refl _ | with_reducible apply Kept.step (ih ..) | with_reducible apply Kept.step (State.count32_still).kept
        | with_reducible apply Kept.step (State.effect_still).kept | with_reducible apply Kept.step (State.holdMsg_still).kept
        | with_reducible apply Kept.step (State.raiseFault_kept) | with_reducible apply Kept.ite
        | with_reducible refine Kept.fst3 (by assumption) (State.writeFrame_kept) ?_ | split)

theorem State.inputFrames_kept {s0 : State} {peer : Nat} {sid : Nat} {chaff : Bool} {first : Word} {count : Nat} {data : Bytes} :
    Kept s0 (State.inputFrames s0 peer sid chaff first count data) := by
  unfold State.inputFrames
  repeat' (first
      | with_reducible exact Kept.refl _ | with_reducible apply Kept.step (State.count32_still).kept
      | with_reducible apply Kept.step (State.effect_still).kept | with_reducible apply Kept.step (State.takeFrames_kept)
      | with_reducible apply Kept.ite | with_reducible refine Kept.fst3 (by assumption) (State.takeMsg_still).kept ?_ | split)

theorem State.batchClose_kept {s : State} {b : Nat} {g : Nat} : Kept s (State.batchClose s b g) := by
  unfold State.batchClose
  repeat' (first
      | with_reducible exact Kept.refl _ | with_reducible apply Kept.step (State.closeBatch_kept)
      | with_reducible apply Kept.step (State.drainClosing_kept) | with_reducible apply Kept.ite | split)

theorem State.endChain_kept {s : State} {b : Nat} {slot : Nat} : Kept s (State.endChain s b slot) := by
  unfold State.endChain
  repeat' (first
      | with_reducible exact Kept.refl _ | with_reducible apply Kept.step (State.drainClosing_kept)
      | with_reducible apply Kept.step (State.freeSlot_still).kept | with_reducible apply Kept.step (State.setInflight_still).kept
      | with_reducible apply Kept.step (State.tryHeaders_kept) | with_reducible apply Kept.ite | (with_reducible apply Kept.foldl; intro _ _)
      | split)

theorem State.outFreed_kept {s : State} {seq : Bool} {i : Nat} : Kept s (State.outFreed s seq i) := by
  unfold State.outFreed
  repeat' (first
      | with_reducible exact Kept.refl _ | with_reducible apply Kept.step (State.publishEmpty_kept)
      | with_reducible apply Kept.step (State.tailMoved_still).kept | with_reducible apply Kept.ite | split | dsimp only)

theorem State.outTailOp_kept {s : State} {seq : Bool} {i : Nat} {v : Word} : Kept s (State.outTailOp s seq i v) := by
  unfold State.outTailOp
  repeat' (first
      | with_reducible exact Kept.refl _ | with_reducible apply Kept.step (State.outFreed_kept)
      | with_reducible apply Kept.step (State.setReg_still).kept | with_reducible apply Kept.ite)

theorem State.alignStart_still {s : State} {b : Nat} {k : Nat} : Still s (State.alignStart s b k) := by
  unfold State.alignStart
  repeat' (first
      | with_reducible exact Still.refl _ | with_reducible apply Still.step (State.applyStaged_still)
      | with_reducible apply Still.step (State.jumpTo_still) | with_reducible apply Still.step (State.setAlign_still)
      | with_reducible apply Still.step (State.setReg_still) | with_reducible apply Still.step (State.setStream_still)
      | with_reducible apply Still.ite | (with_reducible apply Still.foldl; intro _ _))

theorem State.slackExpire_kept {s : State} {b : Nat} {k : Nat} : Kept s (State.slackExpire s b k) := by
  unfold State.slackExpire
  repeat' (first
      | with_reducible exact Kept.refl _ | with_reducible apply Kept.step (State.postDue_kept)
      | with_reducible apply Kept.step (State.setAlign_still).kept | with_reducible apply Kept.ite)

end Sys2Proof.Machine
end

