-- ==== Sys2Proof/Laws/FrameSequences.lean ====
section
/-! SUPPORT. What the operations of Machine/Sequences.lean leave alone: memory and the fuses (`Still`), or the fuses and the form of memory
(`Kept`). -/

namespace Sys2Proof.Machine

theorem State.kvLeaf_still {s : State} {b : Nat} {va : Nat} {append : Bool} : Still s (State.kvLeaf s b va append).1 := by
  unfold State.kvLeaf
  repeat' (first | with_reducible exact Still.refl _ | with_reducible refine Still.fst3 (by assumption) (State.translate_still) ?_ | split)

theorem State.probePage_still {s : State} {b : Nat} {q : Nat} {l : Nat} {k : Nat} {append : Option Nat} :
    Still s (State.probePage s b q l k append).1 := by
  unfold State.probePage
  repeat' (first
      | with_reducible exact Still.refl _ | with_reducible apply Still.step (State.kvLeaf_still) | (with_reducible apply Still.foldlP; intro _ _))

theorem State.probeStep_still {s : State} {b : Nat} {q : Nat} {p : Nat} {latch : StepLatch} : Still s (State.probeStep s b q p latch).1 := by
  unfold State.probeStep
  repeat' (first
      | with_reducible exact Still.refl _ | with_reducible apply Still.step (State.probePage_still)
      | (with_reducible apply Still.foldlP; intro _ _))

theorem State.walkerMigrate_still {s : State} {b : Nat} {va : Nat} {lc : Bool} : Still s (State.walkerMigrate s b va lc) := by
  unfold State.walkerMigrate
  repeat' (first
      | with_reducible exact Still.refl _ | with_reducible apply Still.step (State.countWrap_still)
      | with_reducible apply Still.step (State.issueMig_still) | with_reducible apply Still.ite)

theorem State.forecastPage_still {s : State} {b : Nat} {q : Nat} {l : Nat} {k : Nat} : Still s (State.forecastPage s b q l k) := by
  unfold State.forecastPage
  repeat' (first
      | with_reducible exact Still.refl _ | with_reducible apply Still.step (State.walkerMigrate_still) | with_reducible apply Still.ite
      | (with_reducible apply Still.foldl; intro _ _) | split)

theorem State.forecast_still {s : State} {b : Nat} {q : Nat} {p : Nat} {layer : Nat} : Still s (State.forecast s b q p layer) := by
  unfold State.forecast
  repeat' (first
      | with_reducible exact Still.refl _ | with_reducible apply Still.step (State.forecastPage_still) | with_reducible apply Still.ite
      | (with_reducible apply Still.foldl; intro _ _))

theorem State.forecastMiss_still {s : State} {q : Nat} : Still s (State.forecastMiss s q) := by
  unfold State.forecastMiss
  repeat' (first
      | with_reducible exact Still.refl _ | with_reducible apply Still.step (State.count16_still)
      | with_reducible apply Still.step (State.countWrap_still) | with_reducible apply Still.step (State.setSeq_still))

theorem State.readGlobals_still {s : State} {b : Nat} {q : Nat} : Still s (State.readGlobals s b q).1 := by
  unfold State.readGlobals
  repeat' (first
      | with_reducible exact Still.refl _ | with_reducible refine Still.fst3 (by assumption) (State.readRun_still) ?_ | split | dsimp only)

theorem State.probeTaken_still {s : State} {b : Nat} {q : Nat} {p : Nat} {finding : Nat} : Still s (State.probeTaken s b q p finding) := by
  unfold State.probeTaken
  repeat' (first
      | with_reducible exact Still.refl _ | with_reducible apply Still.step (State.count16_still)
      | with_reducible apply Still.step (State.forecast_still) | with_reducible apply Still.step (State.setSeq_still)
      | with_reducible apply Still.ite | split)

theorem State.latchGlobals_still {s : State} {b : Nat} {q : Nat} : Still s (State.latchGlobals s b q).1 := by
  unfold State.latchGlobals
  repeat' (first
      | with_reducible exact Still.refl _ | with_reducible apply Still.step (State.setSeq_still) | with_reducible apply Still.iteP
      | with_reducible refine Still.fst3 (by assumption) (State.readGlobals_still) ?_ | split)

theorem State.probe_still {s : State} {b : Nat} {q : Nat} {p : Nat} : Still s (State.probe s b q p) := by
  unfold State.probe
  repeat' (first
      | with_reducible exact Still.refl _ | with_reducible apply Still.step (State.probeStep_still)
      | with_reducible apply Still.step (State.probeTaken_still) | with_reducible refine Still.fst3 (by assumption) (State.latchGlobals_still) ?_
      | split)

theorem State.seqReady_still {s : State} {b : Nat} {q : Nat} {p : Nat} : Still s (State.seqReady s b q p) := by
  unfold State.seqReady
  repeat' (first
      | with_reducible exact Still.refl _ | with_reducible apply Still.step (State.applyAll_still)
      | with_reducible apply Still.step (State.probe_still) | with_reducible apply Still.step (State.setReg_still)
      | with_reducible apply Still.step (State.setSeq_still))

theorem State.seqLaunch_still {s : State} {q : Nat} {kind : SlotKind} {ready : W64} {deadline : W64} :
    Still s (State.seqLaunch s q kind ready deadline) := by
  unfold State.seqLaunch
  repeat' (first | with_reducible exact Still.refl _ | with_reducible apply Still.step (State.setSeq_still))

theorem State.seqPost_kept {s : State} {b : Nat} {q : Nat} : Kept s (State.seqPost s b q) := by
  unfold State.seqPost
  repeat' (first
      | with_reducible exact Kept.refl _ | with_reducible apply Kept.step (State.joinBatch_kept)
      | with_reducible apply Kept.step (State.seqLaunch_still).kept | with_reducible apply Kept.step (State.setOutFull_still).kept
      | with_reducible apply Kept.ite | split | dsimp only)

theorem State.seqNext_kept {s : State} {b : Nat} {q : Nat} : Kept s (State.seqNext s b q) := by
  unfold State.seqNext
  repeat' (first
      | with_reducible exact Kept.refl _ | with_reducible apply Kept.step (State.seqPost_kept)
      | with_reducible apply Kept.step (State.seqReady_still).kept | with_reducible apply Kept.ite)

theorem State.seqHeaders_kept {s : State} {q : Nat} : Kept s (State.seqHeaders s q) := by
  unfold State.seqHeaders
  repeat' (first
      | with_reducible exact Kept.refl _ | with_reducible apply Kept.step (State.seqNext_kept)
      | with_reducible apply Kept.step (State.tryHeaders_kept) | split)

theorem State.seqTry_kept {s : State} {q : Nat} : Kept s (State.seqTry s q) := by
  unfold State.seqTry
  repeat' (first
      | with_reducible exact Kept.refl _ | with_reducible apply Kept.step (State.count16_still).kept
      | with_reducible apply Kept.step (State.publishEmpty_kept) | with_reducible apply Kept.step (State.seqHeaders_kept)
      | with_reducible apply Kept.step (State.seqLaunch_still).kept | with_reducible apply Kept.step (State.seqPost_kept)
      | with_reducible apply Kept.step (State.setOutFull_still).kept | with_reducible apply Kept.ite | split | dsimp only)

theorem State.sqRefuse_still {s : State} {q : Nat} {reason : Nat} : Still s (State.sqRefuse s q reason) := by
  unfold State.sqRefuse
  repeat' (first | with_reducible exact Still.refl _ | with_reducible apply Still.step (State.setSeq_still))

theorem State.sqCommand_still {s : State} {q : Nat} {allowed : List CtxState} {body : State → State} (h_body : ∀ (v0 : State), Still v0 (body v0)) :
    Still s (State.sqCommand s q allowed body) := by
  unfold State.sqCommand
  repeat' (first
      | with_reducible exact Still.refl _ | with_reducible apply Still.step (h_body _) | with_reducible apply Still.step (State.setSeq_still)
      | with_reducible apply Still.step (State.sqRefuse_still) | with_reducible apply Still.ite)

theorem State.sqCommand_kept {s : State} {q : Nat} {allowed : List CtxState} {body : State → State} (h_body : ∀ (v0 : State), Kept v0 (body v0)) :
    Kept s (State.sqCommand s q allowed body) := by
  unfold State.sqCommand
  repeat' (first
      | with_reducible exact Kept.refl _ | with_reducible apply Kept.step (h_body _) | with_reducible apply Kept.step (State.setSeq_still).kept
      | with_reducible apply Kept.step (State.sqRefuse_still).kept | with_reducible apply Kept.ite)

theorem State.startSeq_kept {s : State} {b : Nat} {q : Nat} : Kept s (State.startSeq s b q) := by
  unfold State.startSeq
  repeat' (first
      | with_reducible exact Kept.refl _ | with_reducible apply Kept.step (State.seqReady_still).kept
      | with_reducible apply Kept.step (State.seqTry_kept) | with_reducible apply Kept.step (State.setSeq_still).kept)

theorem State.armSeq_kept {s : State} {b : Nat} {q : Nat} : Kept s (State.armSeq s b q) := by
  unfold State.armSeq
  repeat' (first
      | with_reducible exact Kept.refl _ | with_reducible apply Kept.step (State.applyAll_still).kept
      | with_reducible apply Kept.step (State.setReg_still).kept | with_reducible apply Kept.step (State.setSeq_still).kept
      | with_reducible apply Kept.step (State.startSeq_kept) | with_reducible apply Kept.ite
      | (simp only [Kept.upd]; first | with_reducible refine Kept.of ?_ | exact ⟨trivial, fun h => h⟩))

theorem State.sqArmOp_kept {s : State} {q : Nat} : Kept s (State.sqArmOp s q) := by
  unfold State.sqArmOp
  repeat' (first
      | with_reducible exact Kept.refl _ | with_reducible apply Kept.step (State.armSeq_kept)
      | with_reducible apply Kept.step (State.sqCommand_kept (fun _ => ?_)) | with_reducible apply Kept.step (State.sqRefuse_still).kept | split)

theorem State.sqStartOp_kept {s : State} {q : Nat} : Kept s (State.sqStartOp s q) := by
  unfold State.sqStartOp
  repeat' (first
      | with_reducible exact Kept.refl _ | with_reducible apply Kept.step (State.sqCommand_kept (fun _ => ?_))
      | with_reducible apply Kept.step (State.startSeq_kept) | split)

theorem State.pauseSeq_still {s : State} {q : Nat} : Still s (State.pauseSeq s q) := by
  unfold State.pauseSeq
  repeat' (first | with_reducible exact Still.refl _ | with_reducible apply Still.step (State.setSeq_still))

theorem State.sqPauseOp_still {s : State} {q : Nat} : Still s (State.sqPauseOp s q) := by
  unfold State.sqPauseOp
  repeat' (first
      | with_reducible exact Still.refl _ | with_reducible apply Still.step (State.pauseSeq_still)
      | with_reducible apply Still.step (State.sqCommand_still (fun _ => ?_)))

theorem State.resumeSeq_kept {s : State} {b : Nat} {q : Nat} : Kept s (State.resumeSeq s b q) := by
  unfold State.resumeSeq
  repeat' (first
      | with_reducible exact Kept.refl _ | with_reducible apply Kept.step (State.probe_still).kept
      | with_reducible apply Kept.step (State.seqTry_kept) | with_reducible apply Kept.step (State.setSeq_still).kept
      | with_reducible apply Kept.step (State.startSeq_kept) | with_reducible apply Kept.ite)

theorem State.sqResumeOp_kept {s : State} {q : Nat} : Kept s (State.sqResumeOp s q) := by
  unfold State.sqResumeOp
  repeat' (first
      | with_reducible exact Kept.refl _ | with_reducible apply Kept.step (State.resumeSeq_kept)
      | with_reducible apply Kept.step (State.sqCommand_kept (fun _ => ?_)) | split)

theorem State.drainSeq_kept {s : State} {b : Nat} {q : Nat} : Kept s (State.drainSeq s b q) := by
  unfold State.drainSeq
  repeat' (first
      | with_reducible exact Kept.refl _ | with_reducible apply Kept.step (State.publishEmpty_kept)
      | with_reducible apply Kept.step (State.setSeq_still).kept | split | dsimp only)

theorem State.sqDrainOp_kept {s : State} {q : Nat} : Kept s (State.sqDrainOp s q) := by
  unfold State.sqDrainOp
  repeat' (first
      | with_reducible exact Kept.refl _ | with_reducible apply Kept.step (State.drainSeq_kept)
      | with_reducible apply Kept.step (State.sqCommand_kept (fun _ => ?_)) | split)

theorem State.abortSeq_still {s : State} {b : Nat} {q : Nat} : Still s (State.abortSeq s b q) := by
  unfold State.abortSeq
  repeat' (first
      | with_reducible exact Still.refl _ | with_reducible apply Still.step (State.goIdle_still)
      | with_reducible apply Still.step (State.setSeq_still) | with_reducible refine Still.step (State.withdrawRow_still (by assumption)) ?_
      | with_reducible apply Still.ite | split | dsimp only)

theorem State.sqAbortOp_still {s : State} {q : Nat} : Still s (State.sqAbortOp s q) := by
  unfold State.sqAbortOp
  repeat' (first
      | with_reducible exact Still.refl _ | with_reducible apply Still.step (State.abortSeq_still)
      | with_reducible apply Still.step (State.goIdle_still) | with_reducible apply Still.step (State.sqCommand_still (fun _ => ?_)) | split)

theorem State.recheckSeq_kept {s : State} {b : Nat} {q : Nat} : Kept s (State.recheckSeq s b q) := by
  unfold State.recheckSeq
  repeat' (first
      | with_reducible exact Kept.refl _ | with_reducible apply Kept.step (State.probe_still).kept
      | with_reducible apply Kept.step (State.seqTry_kept) | with_reducible apply Kept.ite)

theorem State.sqRecheckOp_kept {s : State} {q : Nat} : Kept s (State.sqRecheckOp s q) := by
  unfold State.sqRecheckOp
  repeat' (first
      | with_reducible exact Kept.refl _ | with_reducible apply Kept.step (State.recheckSeq_kept)
      | with_reducible apply Kept.step (State.sqCommand_kept (fun _ => ?_)) | split)

theorem State.stepQuiet_still {s : State} {q : Nat} : Still s (State.stepQuiet s q) := by
  unfold State.stepQuiet
  repeat' (first | with_reducible exact Still.refl _ | with_reducible apply Still.step (State.setSeq_still) | with_reducible apply Still.ite)

theorem State.completeStep_kept {s : State} {q : Nat} : Kept s (State.completeStep s q) := by
  unfold State.completeStep
  repeat' (first
      | with_reducible exact Kept.refl _ | with_reducible apply Kept.step (State.completeSlot_kept)
      | with_reducible apply Kept.step (State.seqTry_kept) | with_reducible apply Kept.step (State.stepQuiet_still).kept
      | with_reducible apply Kept.ite | split)

end Sys2Proof.Machine
end

