-- ==== Sys2Proof/Laws/FrameAttention.lean ====
section
/-! SUPPORT. What the operations of Machine/Attention.lean leave alone: memory and the fuses (`Still`), or the fuses and the form of memory
(`Kept`). -/

namespace Sys2Proof.Machine

theorem State.countShapeFault_still {s : State} {q : Nat} : Still s (State.countShapeFault s q) := by
  unfold State.countShapeFault
  repeat' (first
      | with_reducible exact Still.refl _ | with_reducible apply Still.step (State.count16_still)
      | with_reducible apply Still.step (State.count32_still))

theorem State.lookLeaves_still {s : State} {old : Bool} {b : Nat} {en : Engine} {tag : Nat} {got : List Translation} {e0 : List Nat} :
    Still s (State.lookLeaves s old b en tag got e0).1 := by
  induction e0 generalizing s old b en tag got with
  | nil =>
    unfold State.lookLeaves
    with_reducible exact Still.refl _
  | cons a l ih =>
    unfold State.lookLeaves
    repeat' (first
        | with_reducible exact Still.refl _ | with_reducible apply Still.step (ih ..) | with_reducible apply Still.iteP
        | with_reducible refine Still.fst3 (by assumption) (State.translateBy_still) ?_ | split)

theorem State.lookPage_still {s0 : State} {b : Nat} {en : Engine} {va : Nat} {width : Nat} {stride : Nat} :
    Still s0 (State.lookPage s0 b en va width stride).1 := by
  unfold State.lookPage
  repeat' (first
      | with_reducible exact Still.refl _ | with_reducible apply Still.step (State.lookLeaves_still) | with_reducible apply Still.iteP
      | with_reducible refine Still.fst3 (by assumption) (State.translateBy_still) ?_
      | with_reducible refine Still.snd3 (by assumption) (State.draw_still) ?_ | split)

theorem State.setPass_still {s : State} {p : AttPass} : Still s (State.setPass s p) := by
  unfold State.setPass
  repeat' (first | (simp only [Still.upd]; first | with_reducible refine Still.of ?_ | exact ⟨trivial, trivial⟩))

theorem State.pageShares_still {s : State} {p : AttPass} {row : Nat} {page : Nat} {va : Nat} {phys : List Nat} :
    Still s (State.pageShares s p row page va phys) := by
  unfold State.pageShares
  repeat' (first
      | with_reducible exact Still.refl _ | with_reducible apply Still.step (State.countWrap_still)
      | with_reducible apply Still.step (State.queueShare_still) | (with_reducible apply Still.foldl; intro _ _) | split)

theorem State.routePage_still {s : State} {b : Nat} {p : AttPass} {r : PassRow} {k : Nat} {va : Nat} {tag : Nat} {ts : List Translation} :
    Still s (State.routePage s b p r k va tag ts) := by
  unfold State.routePage
  repeat' (first
      | with_reducible exact Still.refl _ | with_reducible apply Still.step (State.countWrap_still)
      | with_reducible apply Still.step (State.forecastMiss_still) | with_reducible apply Still.step (State.pageShares_still)
      | with_reducible apply Still.step (State.setPass_still) | with_reducible apply Still.step (State.walkerMigrate_still)
      | with_reducible apply Still.ite | (with_reducible apply Still.foldl; intro _ _) | split)

theorem State.passAdvance_kept {s : State} {i : Nat} {e0 : Nat} : Kept s (State.passAdvance s i e0) := by
  induction e0 generalizing s i with
  | zero =>
    unfold State.passAdvance
    repeat' (first | with_reducible exact Kept.refl _)
  | succ n ih =>
    unfold State.passAdvance
    repeat' (first
        | with_reducible exact Kept.refl _ | with_reducible apply Kept.step (ih ..)
        | with_reducible apply Kept.step (State.countShapeFault_still).kept | with_reducible apply Kept.step (State.routePage_still).kept
        | with_reducible apply Kept.step (State.setPass_still).kept | with_reducible apply Kept.step (State.takeFault_kept)
        | with_reducible apply Kept.ite | with_reducible refine Kept.fst3 (by assumption) (State.lookPage_still).kept ?_ | split | dsimp only)

theorem State.passStart_kept {s : State} {b : Nat} {p : AttPass} : Kept s (State.passStart s b p) := by
  unfold State.passStart
  repeat' (first
      | with_reducible exact Kept.refl _ | with_reducible apply Kept.step (State.countShapeFault_still).kept
      | with_reducible apply Kept.step (State.forecast_still).kept | with_reducible apply Kept.step (State.passAdvance_kept)
      | with_reducible apply Kept.ite | (with_reducible apply Kept.foldl; intro _ _))

theorem State.nextPass_kept {s : State} {die : Nat} : Kept s (State.nextPass s die) := by
  unfold State.nextPass
  repeat' (first
      | with_reducible exact Kept.refl _ | with_reducible apply Kept.step (State.passStart_kept)
      | with_reducible apply Kept.step (State.setPass_still).kept | with_reducible apply Kept.ite | split)

theorem State.passRoom_kept {s : State} : Kept s (State.passRoom s) := by
  unfold State.passRoom
  repeat' (first
      | with_reducible exact Kept.refl _ | with_reducible apply Kept.step (State.passAdvance_kept)
      | with_reducible apply Kept.step (State.setPass_still).kept | (with_reducible apply Kept.foldl; intro _ _))

theorem State.attIssue_kept {s : State} {r : StallRef} {off : Nat} {value : Bool} : Kept s (State.attIssue s r off value) := by
  unfold State.attIssue
  repeat' (first
      | with_reducible exact Kept.refl _ | with_reducible apply Kept.step (State.abortInst_kept)
      | with_reducible apply Kept.step (State.passStart_kept) | with_reducible apply Kept.step (State.refresh_still).kept
      | with_reducible apply Kept.ite | (simp only [Kept.upd]; first | with_reducible refine Kept.of ?_ | exact ⟨trivial, fun h => h⟩) | split)

theorem State.meetRecords_still {s : State} {g : PassPage} {reads : Nat → Bool} {slots : List (Nat × Nat)} :
    Still s (State.meetRecords s g reads slots) := by
  unfold State.meetRecords
  repeat' (first
      | with_reducible exact Still.refl _ | with_reducible apply Still.step (State.meetUe_still) | (with_reducible apply Still.foldl; intro _ _))

theorem scoreOf_still {s : State} {scale : FVal} {lat : List FVal} {tally : List FVal} {k : KeyRecord} : Still s (scoreOf s scale lat tally k).1 := by
  unfold scoreOf
  repeat' (first | with_reducible exact Still.refl _ | with_reducible apply Still.step (fsum_still))

theorem scoreSlots_still {s : State} {p : AttPass} {lat : List FVal} {tally : List FVal} {ks : List KeyRecord} :
    Still s (scoreSlots s p lat tally ks).1 := by
  unfold scoreSlots
  repeat' (first
      | with_reducible exact Still.refl _ | with_reducible apply Still.step (scoreOf_still) | (with_reducible apply Still.foldlP; intro _ _)
      | split)

theorem State.drawBytes_still {s : State} {n : Nat} : Still s (State.drawBytes s n).1 := by
  unfold State.drawBytes
  repeat' (first | (simp only [Still.upd]; first | with_reducible refine Still.of ?_ | exact ⟨trivial, trivial⟩))

theorem State.scoreRows_still {s : State} {x : Inst} {p : AttPass} {h : SeqShape} : Still s (State.scoreRows s x p h).1 := by
  unfold State.scoreRows
  repeat' (first
      | with_reducible exact Still.refl _ | with_reducible apply Still.step (State.drawBytes_still)
      | with_reducible apply Still.step (scoreSlots_still) | with_reducible apply Still.iteP | (with_reducible apply Still.foldlP; intro _ _))

theorem valueOf_still {s : State} {weights : List FVal} {ks : List KeyRecord} {j : Nat} : Still s (valueOf s weights ks j).1 := by
  unfold valueOf
  repeat' (first | with_reducible exact Still.refl _ | with_reducible apply Still.step (fsum_still))

theorem State.readScores_still {s : State} {b : Nat} {p : AttPass} {n : Nat} : Still s (State.readScores s b p n).1 := by
  unfold State.readScores
  repeat' (first | with_reducible exact Still.refl _ | with_reducible refine Still.fst3 (by assumption) (State.readRun_still) ?_ | split)

theorem State.writeTap_kept {s : State} {b : Nat} {p : AttPass} {r : PassRow} {head : Nat} {chaff : Bool} {entries : List (Nat × Nat)} :
    Kept s (State.writeTap s b p r head chaff entries) := by
  unfold State.writeTap
  repeat' (first
      | with_reducible exact Kept.refl _ | with_reducible apply Kept.step (State.count16_still).kept
      | with_reducible apply Kept.step (State.count32_still).kept | with_reducible apply Kept.step (State.raiseFault_kept)
      | with_reducible apply Kept.step (State.setReg_still).kept | with_reducible apply Kept.ite
      | with_reducible refine Kept.fst3 (by assumption) (State.writeRun_kept) ?_ | split | dsimp only)

theorem State.mxeFetch_still {s : State} {i : Nat} {p : AttPass} : Still s (State.mxeFetch s i p) := by
  unfold State.mxeFetch
  repeat' (first
      | with_reducible exact Still.refl _ | with_reducible apply Still.step (State.drawBytes_still)
      | with_reducible apply Still.step (State.meetRecords_still) | with_reducible apply Still.step (State.setInst_still)
      | with_reducible apply Still.ite | (with_reducible apply Still.foldl; intro _ _) | split | dsimp only)

theorem State.dropPass_kept {s : State} {i : Nat} : Kept s (State.dropPass s i) := by
  unfold State.dropPass
  repeat' (first
      | with_reducible apply Kept.step (State.nextPass_kept) | with_reducible apply Kept.step (State.postOwed_kept)
      | with_reducible apply Kept.step (State.refresh_still).kept
      | (simp only [Kept.upd]; first | with_reducible refine Kept.of ?_ | exact ⟨trivial, fun h => h⟩))

theorem State.scoreOut_kept {s : State} {i : Nat} {p : AttPass} {x : Inst} {h : SeqShape} : Kept s (State.scoreOut s i p x h) := by
  unfold State.scoreOut
  repeat' (first
      | with_reducible exact Kept.refl _ | with_reducible apply Kept.step (State.dropPass_kept)
      | with_reducible apply Kept.step (State.mxeFetch_still).kept | with_reducible apply Kept.step (State.scoreRows_still).kept
      | with_reducible apply Kept.step (State.takeFault_kept) | with_reducible apply Kept.step (State.writeRun_kept)
      | (with_reducible apply Kept.foldl; intro _ _) | with_reducible refine Kept.fst3 (by assumption) (State.translateRun_still).kept ?_ | split
      | dsimp only)

theorem State.valueRow_kept {s : State} {i : Nat} {p : AttPass} {h : SeqShape} {x : Inst} {r : PassRow} {hd : Nat} {scores : List FVal × Bool} :
    Kept s (State.valueRow s i p h x r hd scores) := by
  unfold State.valueRow
  repeat' (first
      | with_reducible exact Kept.refl _ | with_reducible apply Kept.step (State.drawBytes_still).kept
      | with_reducible apply Kept.step (State.setInst_still).kept | with_reducible apply Kept.step (State.writeTap_kept)
      | with_reducible apply Kept.step (valueOf_still).kept | with_reducible apply Kept.ite | (with_reducible apply Kept.foldlP; intro _ _)
      | split | dsimp only)

theorem State.readAllScores_still {s : State} {b : Nat} {p : AttPass} {e0 : List Nat} : Still s (State.readAllScores s b p e0).1 := by
  induction e0 generalizing s b p with
  | nil =>
    unfold State.readAllScores
    with_reducible exact Still.refl _
  | cons a l ih =>
    unfold State.readAllScores
    repeat' (first
        | with_reducible exact Still.refl _ | with_reducible refine Still.fst3 (by assumption) (State.readScores_still) ?_
        | with_reducible refine Still.fst3 (by assumption) (ih ..) ?_ | split)

theorem State.valueOut_kept {s : State} {i : Nat} {p : AttPass} {x : Inst} {h : SeqShape} : Kept s (State.valueOut s i p x h) := by
  unfold State.valueOut
  repeat' (first
      | with_reducible exact Kept.refl _ | with_reducible apply Kept.step (State.dropPass_kept)
      | with_reducible apply Kept.step (State.mxeFetch_still).kept | with_reducible apply Kept.step (State.takeFault_kept)
      | with_reducible apply Kept.step (State.valueRow_kept) | (with_reducible apply Kept.foldl; intro _ _)
      | with_reducible refine Kept.fst3 (by assumption) (State.readAllScores_still).kept ?_ | split)

theorem State.passDone_kept {s : State} {i : Nat} : Kept s (State.passDone s i) := by
  unfold State.passDone
  repeat' (first
      | with_reducible exact Kept.refl _ | with_reducible apply Kept.step (State.scoreOut_kept)
      | with_reducible apply Kept.step (State.valueOut_kept) | with_reducible apply Kept.ite | split)

theorem State.passShareDone_kept {s : State} {sh : BseShare} {i : Nat} {row : Nat} {page : Nat} : Kept s (State.passShareDone s sh i row page) := by
  unfold State.passShareDone
  repeat' (first
      | with_reducible exact Kept.refl _ | with_reducible apply Kept.step (State.bseRoom_kept)
      | with_reducible apply Kept.step (State.count64_still).kept | with_reducible apply Kept.step (State.countWrap_still).kept
      | with_reducible apply Kept.step (State.dropShare_still).kept | with_reducible apply Kept.step (State.meetRecords_still).kept | split
      | dsimp only)

theorem State.shareDone_kept {s : State} {id : Nat} : Kept s (State.shareDone s id) := by
  unfold State.shareDone
  repeat' (first
      | with_reducible exact Kept.refl _ | with_reducible apply Kept.step (State.commandShareDone_kept)
      | with_reducible apply Kept.step (State.passRoom_kept) | with_reducible apply Kept.step (State.passShareDone_kept) | split)

end Sys2Proof.Machine
end

