-- ==== Sys2Proof/Laws/FrameRoceOps.lean ====
section
/-! SUPPORT. What the operations of Machine/RoceOps.lean leave alone: memory and the fuses (`Still`), or the fuses and the form of memory
(`Kept`). -/

namespace Sys2Proof.Machine

theorem State.sendRequest_still {s : State} {c : Nat} {r : ConnRequest} {w : WireRequest} : Still s (State.sendRequest s c r w) := by
  unfold State.sendRequest
  repeat' (first
      | with_reducible exact Still.refl _ | with_reducible apply Still.step (State.emit_still)
      | with_reducible apply Still.step (State.setConn_still))

theorem State.postRequest_still {s : State} {c : Nat} {r : ConnRequest} {w : WireRequest} : Still s (State.postRequest s c r w) := by
  unfold State.postRequest
  repeat' (first
      | with_reducible exact Still.refl _ | with_reducible apply Still.step (State.sendRequest_still)
      | with_reducible apply Still.step (State.setConn_still) | with_reducible apply Still.ite)

theorem State.releaseWaits_still {s : State} {c : Nat} {e0 : Nat} : Still s (State.releaseWaits s c e0) := by
  induction e0 generalizing s c with
  | zero =>
    unfold State.releaseWaits
    with_reducible exact Still.refl _
  | succ n ih =>
    unfold State.releaseWaits
    repeat' (first
        | with_reducible exact Still.refl _ | with_reducible apply Still.step (ih ..) | with_reducible apply Still.step (State.sendRequest_still)
        | with_reducible apply Still.step (State.setConn_still) | with_reducible apply Still.ite | split | dsimp only)

theorem State.postRead_still {s : State} {c : Nat} {r : ConnRequest} {addr : Nat} {len : Nat} : Still s (State.postRead s c r addr len) := by
  unfold State.postRead
  repeat' (first | with_reducible exact Still.refl _ | with_reducible apply Still.step (State.postRequest_still))

theorem State.postWrite_still {s : State} {c : Nat} {r : ConnRequest} {addr : Nat} {bs : Bytes} : Still s (State.postWrite s c r addr bs) := by
  unfold State.postWrite
  repeat' (first | with_reducible exact Still.refl _ | with_reducible apply Still.step (State.postRequest_still))

theorem State.gleanRequests_still {s : State} {p : ConnRequest → Bool} {serial : Option Nat} : Still s (State.gleanRequests s p serial) := by
  unfold State.gleanRequests
  repeat' (first | (simp only [Still.upd]; first | with_reducible refine Still.of ?_ | exact ⟨trivial, trivial⟩))

theorem State.startError_still {s : State} {c : Nat} {cause : Nat} : Still s (State.startError s c cause) := by
  unfold State.startError
  repeat' (first
      | with_reducible exact Still.refl _ | with_reducible apply Still.step (State.dropFrames_still)
      | with_reducible apply Still.step (State.setConn_still) | with_reducible apply Still.ite)

end Sys2Proof.Machine
end

