-- ==== Sys2Proof/Laws/FrameScan.lean ====
section
/-! SUPPORT. What the operations of Machine/Scan.lean leave alone: memory and the fuses (`Still`), or the fuses and the form of memory
(`Kept`). -/

namespace Sys2Proof.Machine

theorem sumProducts_still {xs : Bool} {s : State} {prods : List (FVal × FVal)} {adds : List Num} : Still s (sumProducts xs s prods adds).1 := by
  unfold sumProducts
  repeat' (first
      | with_reducible exact Still.refl _ | with_reducible apply Still.step (sumOpen_still (fun _ _ _ => ?_)) | with_reducible apply Still.iteP)

theorem components_still {xs : Bool} {s : State} {ps : List (List (FVal × FVal))} {adds : List Num} : Still s (components xs s ps adds).1 := by
  unfold components
  repeat' (first
      | with_reducible exact Still.refl _ | with_reducible apply Still.step (sumProducts_still) | (with_reducible apply Still.foldlP; intro _ _))

theorem applyCoef_still {xs : Bool} {kind : Nat} {s : State} {a : Coef} {h : List Num} {b : List Num} : Still s (applyCoef xs kind s a h b).1 := by
  unfold applyCoef
  repeat' (first | with_reducible exact Still.refl _ | with_reducible apply Still.step (components_still) | split)

theorem compose_still {xs : Bool} {kind : Nat} {s : State} {e2 : ScanEl} {e1 : ScanEl} : Still s (compose xs kind s e2 e1).1 := by
  unfold compose
  repeat' (first
      | with_reducible exact Still.refl _ | with_reducible apply Still.step (applyCoef_still)
      | with_reducible apply Still.step (components_still) | split)

theorem scanLevel_still {xs : Bool} {kind d : Nat} {acc : State × List ScanEl × Sats} : Still acc.1 (scanLevel xs kind d acc).1 := by
  unfold scanLevel
  refine Still.foldlP (fun q t => ?_) (Still.refl _)
  with_reducible apply Still.iteP
  · exact Still.refl _
  · exact compose_still

theorem scanComposites_still {xs : Bool} {kind : Nat} {s : State} {els : List ScanEl} : Still s (scanComposites xs kind s els).1 := by
  unfold scanComposites
  repeat' (first
      | with_reducible exact Still.refl _ | with_reducible apply Still.step (scanLevel_still) | (with_reducible apply Still.foldlP; intro _ _))

theorem scanChunk_still {xs : Bool} {kind : Nat} {s : State} {els : List ScanEl} {h0 : List Num} : Still s (scanChunk xs kind s els h0).1 := by
  unfold scanChunk
  repeat' (first
      | with_reducible exact Still.refl _ | with_reducible apply Still.step (applyCoef_still)
      | with_reducible apply Still.step (scanComposites_still) | (with_reducible apply Still.foldlP; intro _ _))

theorem State.rowResets_still {s : State} {x : Inst} : Still s (State.rowResets s x).1 := by
  unfold State.rowResets
  repeat' (first
      | with_reducible exact Still.refl _ | with_reducible apply Still.iteP
      | with_reducible refine Still.fst3 (by assumption) (State.readRun_still) ?_ | split)

theorem State.readRuns_still {s : State} {b : Nat} {en : Engine} {e0 : List (Nat × Nat)} : Still s (State.readRuns s b en e0).1 := by
  induction e0 generalizing s b en with
  | nil =>
    unfold State.readRuns
    with_reducible exact Still.refl _
  | cons a l ih =>
    unfold State.readRuns
    repeat' (first
        | with_reducible exact Still.refl _ | with_reducible refine Still.fst3 (by assumption) (State.readRun_still) ?_
        | with_reducible refine Still.fst3 (by assumption) (ih ..) ?_ | split)

theorem State.loadRow_still {s : State} {x : Inst} {d : ScanDesc} {sid : Nat} {sc : RowScan} : Still s (State.loadRow s x d sid sc).1 := by
  unfold State.loadRow
  repeat' (first
      | with_reducible exact Still.refl _ | with_reducible apply Still.iteP
      | with_reducible refine Still.fst3 (by assumption) (State.readRun_still) ?_
      | with_reducible refine Still.fst3 (by assumption) (State.readRuns_still) ?_
      | with_reducible refine Still.fst3 (by assumption) ?_ (Still.refl _) | split | dsimp only)

theorem drawThaw_still {s : State} {n : Nat} : Still s (drawThaw s n).1 := by
  unfold drawThaw
  repeat' (first
      | with_reducible exact Still.refl _ | with_reducible apply Still.step (State.draw_still) | (with_reducible apply Still.foldlP; intro _ _))

theorem State.scanRows_still {s : State} {x : Inst} {d : ScanDesc} {resets : List (List Nat)} {e0 : List (Nat × RowEntry)} :
    Still s (State.scanRows s x d resets e0).1 := by
  induction e0 generalizing s x d resets with
  | nil =>
    unfold State.scanRows
    with_reducible exact Still.refl _
  | cons a l ih =>
    unfold State.scanRows
    repeat' (first
        | with_reducible exact Still.refl _ | with_reducible apply Still.iteP
        | with_reducible refine Still.fst3 (by assumption) (State.loadRow_still) ?_
        | with_reducible refine Still.fst3 (by assumption) (drawThaw_still) ?_ | with_reducible refine Still.fst3 (by assumption) (ih ..) ?_
        | with_reducible refine Still.fst3 (by assumption) ?_ (Still.refl _) | split | dsimp only)

theorem scanAddend_still {s : State} {x : Inst} {d : ScanDesc} {steps : Nat} {row : Nat} {t : Nat} {ch : Nat} {k : Nat} {a : List FVal} :
    Still s (scanAddend s x d steps row t ch k a).1 := by
  unfold scanAddend
  repeat' (first | with_reducible exact Still.refl _ | with_reducible apply Still.step (State.draw_still) | with_reducible apply Still.iteP)

theorem scanElement_still {s : State} {x : Inst} {d : ScanDesc} {steps : Nat} {r : ScanRow} {ch : Nat} {k : Nat} :
    Still s (scanElement s x d steps r ch k).1 := by
  unfold scanElement
  repeat' (first
      | with_reducible exact Still.refl _ | with_reducible apply Still.step (scanAddend_still)
      | with_reducible apply Still.step (scanChunk_still) | (with_reducible apply Still.foldlP; intro _ _))

theorem thawSteps_still {s : State} {x : Inst} {d : ScanDesc} {steps : Nat} {r : ScanRow} {ch : Nat} {p0 : FVal} :
    Still s (thawSteps s x d steps r ch p0).1 := by
  unfold thawSteps
  repeat' (first | with_reducible exact Still.refl _ | with_reducible apply Still.step (scanChunk_still))

theorem scanOutput_still {s : State} {x : Inst} {d : ScanDesc} {steps : Nat} {r : ScanRow} {t : Nat} {ch : Nat} {hs : List (List (List Num))} {p : Option FVal} :
    Still s (scanOutput s x d steps r t ch hs p).1 := by
  unfold scanOutput
  repeat' (first
      | with_reducible exact Still.refl _ | with_reducible apply Still.step (sumProducts_still)
      | with_reducible apply Still.step (withinUlp_still) | with_reducible apply Still.iteP | split)

theorem scanRow_still {s : State} {x : Inst} {d : ScanDesc} {steps : Nat} {correct : Bool} {r : ScanRow} :
    Still s (scanRow s x d steps correct r).1 := by
  unfold scanRow
  repeat' (first
      | with_reducible exact Still.refl _ | with_reducible apply Still.step (scanElement_still)
      | with_reducible apply Still.step (scanOutput_still) | with_reducible apply Still.step (thawSteps_still) | with_reducible apply Still.iteP
      | (with_reducible apply Still.foldlP; intro _ _))

theorem State.translateWrites_still {s : State} {b : Nat} {en : Engine} {e0 : List (Nat × Bytes)} : Still s (State.translateWrites s b en e0).1 := by
  induction e0 generalizing s b en with
  | nil =>
    unfold State.translateWrites
    with_reducible exact Still.refl _
  | cons a l ih =>
    unfold State.translateWrites
    repeat' (first
        | with_reducible exact Still.refl _ | with_reducible apply Still.step (ih ..)
        | with_reducible refine Still.fst3 (by assumption) (State.translateRun_still) ?_ | split)

theorem State.scanAll_still {s : State} {x : Inst} {d : ScanDesc} {rows : List ScanRow} : Still s (State.scanAll s x d rows).1 := by
  unfold State.scanAll
  repeat' (first
      | with_reducible exact Still.refl _ | with_reducible apply Still.step (scanRow_still) | (with_reducible apply Still.foldlP; intro _ _))

theorem State.scanCounts_still {s : State} {n : Nat} {ops : Nat} {bytes : Nat} {sat : Nat} {mismatch : Nat} {chaff : Nat} :
    Still s (State.scanCounts s n ops bytes sat mismatch chaff) := by
  unfold State.scanCounts
  repeat' (first
      | with_reducible exact Still.refl _ | with_reducible apply Still.step (State.count32_still)
      | with_reducible apply Still.step (State.count64_still) | with_reducible apply Still.step (State.countSat_still))

theorem State.scanFault_kept {s : State} {i : Nat} {x : Inst} {off : Nat} {write : Bool} {f : RunFault} :
    Kept s (State.scanFault s i x off write f) := by
  unfold State.scanFault
  repeat' (first
      | with_reducible exact Kept.refl _ | with_reducible apply Kept.step (State.setInst_still).kept
      | with_reducible apply Kept.step (State.takeFault_kept))

theorem State.scanFinish_kept {s : State} {i : Nat} {x : Inst} {off : Nat} {d : ScanDesc} {rs : List (ScanRow × ScanOut × Bool × Bool)} :
    Kept s (State.scanFinish s i x off d rs) := by
  unfold State.scanFinish
  repeat' (first
      | with_reducible exact Kept.refl _ | with_reducible apply Kept.step (State.scanCounts_still).kept
      | with_reducible apply Kept.step (State.scanFault_kept) | with_reducible apply Kept.step (State.setInst_still).kept
      | with_reducible apply Kept.step (State.writeRun_kept) | (with_reducible apply Kept.foldl; intro _ _)
      | with_reducible refine Kept.fst3 (by assumption) (State.translateWrites_still).kept ?_ | split | dsimp only)

theorem State.scanRun_kept {s : State} {i : Nat} {x : Inst} {off : Nat} : Kept s (State.scanRun s i x off) := by
  unfold State.scanRun
  repeat' (first
      | with_reducible exact Kept.refl _ | with_reducible apply Kept.step (State.abortInst_kept)
      | with_reducible apply Kept.step (State.scanAll_still).kept | with_reducible apply Kept.step (State.scanFault_kept)
      | with_reducible apply Kept.step (State.scanFinish_kept) | with_reducible apply Kept.ite
      | with_reducible refine Kept.fst3 (by assumption) (State.rowResets_still).kept ?_
      | with_reducible refine Kept.fst3 (by assumption) (State.scanRows_still).kept ?_ | split | dsimp only)

theorem State.scanOp_kept {s : State} {r : StallRef} {off : Nat} : Kept s (State.scanOp s r off) := by
  unfold State.scanOp
  repeat' (first | with_reducible exact Kept.refl _ | with_reducible apply Kept.step (State.scanRun_kept) | split)

theorem State.scanAgain_kept {s : State} {i : Nat} : Kept s (State.scanAgain s i) := by
  unfold State.scanAgain
  repeat' (first
      | with_reducible exact Kept.refl _ | with_reducible apply Kept.step (State.postOwed_kept)
      | with_reducible apply Kept.step (State.scanRun_kept) | with_reducible apply Kept.step (State.setInst_still).kept
      | with_reducible apply Kept.ite | split)

end Sys2Proof.Machine
end

