-- ==== Sys2Proof/Laws/FramePrograms.lean ====
section
/-! SUPPORT. What the operations of Machine/Programs.lean leave alone: memory and the fuses (`Still`), or the fuses and the form of memory
(`Kept`). -/

namespace Sys2Proof.Machine

theorem State.putProg_still {s : State} {i : Nat} {x : Inst} {k : ProgKind} {p : Program} : Still s (State.putProg s i x k p) := by
  unfold State.putProg
  repeat' (first
      | with_reducible exact Still.refl _ | with_reducible apply Still.step (State.refresh_still)
      | with_reducible apply Still.step (State.setInst_still))

theorem State.progWaits_still {s : State} {i : Nat} {x : Inst} {k : ProgKind} {p : Program} {w : ProgWait} :
    Still s (State.progWaits s i x k p w) := by
  unfold State.progWaits
  repeat' (first | with_reducible exact Still.refl _ | with_reducible apply Still.step (State.putProg_still))

theorem State.loopMoved_kept {s : State} {i : Nat} {x : Inst} {k : ProgKind} {p : Program} {level : Nat} :
    Kept s (State.loopMoved s i x k p level) := by
  unfold State.loopMoved
  repeat' (first
      | with_reducible exact Kept.refl _ | with_reducible apply Kept.step (State.abortInst_kept)
      | with_reducible apply Kept.step (State.putProg_still).kept | split)

theorem State.swStep_kept {s : State} {r : ProgRef} {act : State → Nat → Inst → Program → SwOp → Option State}
    (h : ∀ s i x p o t, act s i x p o = some t → Kept s t) : Kept s (State.swStep s r act) := by
  unfold State.swStep
  split
  · exact State.abortInst_kept
  · rename_i i x p o _ _
    cases g : act s i x p o with
    | none => exact Kept.refl _
    | some t => exact h s i x p o t g
  · exact Kept.refl _

theorem State.swEnd_still {s : State} {i : Nat} {x : Inst} {k : ProgKind} {p : Program} {nextLayer : Bool} {round : Nat} :
    Still s (State.swEnd s i x k p nextLayer round) := by
  unfold State.swEnd
  repeat' (first
      | with_reducible exact Still.refl _ | with_reducible apply Still.step (State.refresh_still)
      | with_reducible apply Still.step (State.setCore_still) | with_reducible apply Still.step (State.setInst_still)
      | with_reducible apply Still.ite)

theorem State.swRowbase_kept {s : State} {i : Nat} {x : Inst} {k : ProgKind} {p : Program} {a : Nat} {source : Nat} {rl : Nat} {tl : Nat} {off : Int} :
    Kept s (State.swRowbase s i x k p a source rl tl off) := by
  unfold State.swRowbase
  repeat' (first
      | with_reducible exact Kept.refl _ | with_reducible apply Kept.step (State.abortInst_kept)
      | with_reducible apply Kept.step (State.putProg_still).kept | split)

theorem State.loseTiles_still {s : State} {b : Nat} {core : Nat} {off : Nat} {len : Nat} : Still s (State.loseTiles s b core off len) := by
  unfold State.loseTiles
  repeat' (first
      | with_reducible exact Still.refl _ | with_reducible apply Still.step (State.setBay_still)
      | with_reducible apply Still.step (State.setCore_still) | with_reducible apply Still.ite)

theorem State.cursorWrite_still {s : State} {i : Nat} {area : Nat} {off : Nat} {bs : Bytes} {marked : List (Nat × Nat)} :
    Still s (State.cursorWrite s i area off bs marked) := by
  unfold State.cursorWrite
  repeat' (first
      | with_reducible exact Still.refl _ | with_reducible apply Still.step (State.countWrap_still)
      | with_reducible apply Still.step (State.loseTiles_still) | with_reducible apply Still.step (State.setCore_still)
      | with_reducible apply Still.step (State.setInst_still) | with_reducible apply Still.ite | split)

theorem State.elementDone_still {s : State} {i : Nat} {k : ProgKind} {len : Nat} : Still s (State.elementDone s i k len) := by
  unfold State.elementDone
  repeat' (first
      | with_reducible exact Still.refl _ | with_reducible apply Still.step (State.count64_still)
      | with_reducible apply Still.step (State.putProg_still) | split)

theorem State.readPieces_still {s : State} {i : Nat} {area : Nat} {off : Nat} {va : Nat} {all : Bool} {l : List (Nat × Nat × Translation)} :
    Still s (State.readPieces s i area off va all l) := by
  unfold State.readPieces
  repeat' (first
      | with_reducible exact Still.refl _ | with_reducible apply Still.step (State.count32_still)
      | with_reducible apply Still.step (State.cursorWrite_still) | with_reducible apply Still.step (State.readPhys_still)
      | with_reducible apply Still.ite | (with_reducible apply Still.foldl; intro _ _) | split)

theorem State.remotePieces_still {s t : State} {i : Nat} {k : ProgKind} {x : Inst} {toMem : Bool} {area off va : Nat}
    {l : List (Nat × Nat × Translation)} (h : State.remotePieces s i k x toMem area off va l = some t) : Still s t := by
  have all : ∀ (l : List (Nat × Nat × Translation)) (acc : Option State), (∀ u, acc = some u → Still s u) →
      ∀ t, l.foldl (fun (acc : Option State) e =>
        acc.bind fun s =>
          if !e.2.2.remote then some s
          else
            (s.remoteConn x.bay (remotePeer e.2.2.entry) x.desc.be).map fun c =>
              let at_ := off + (e.1 - va)
              if toMem then s.postWrite c (.write i k e.2.1 e.1) (remoteAddr e.2.2 e.1) (s.cursorRead x area at_ e.2.1)
              else s.postRead c (.read i k at_ e.2.1 area e.1) (remoteAddr e.2.2 e.1) e.2.1) acc = some t → Still s t := by
    intro l
    induction l with
    | nil => intro acc g t h; exact g t h
    | cons e l ih =>
      intro acc g
      refine ih _ fun u hu => ?_
      cases acc with
      | none => simp at hu
      | some v =>
        have k := g v rfl
        simp only [Option.bind_some] at hu
        split at hu
        · injection hu with hu; subst hu; exact k
        · rw [Option.map_eq_some_iff] at hu
          obtain ⟨c, -, hu⟩ := hu
          split at hu
          · subst hu; exact State.postWrite_still.step k
          · subst hu; exact State.postRead_still.step k
  exact all l (some s) (fun u hu => by injection hu with hu; subst hu; exact Still.refl _) t h

theorem State.elementRest_still {s : State} {i : Nat} {k : ProgKind} {x : Inst} {toMem : Bool} {area : Nat} {off : Nat} {va : Nat} {len : Nat} {l : List (Nat × Nat × Translation)} :
    Still s (State.elementRest s i k x toMem area off va len l) := by
  unfold State.elementRest
  repeat' (first
      | with_reducible exact Still.refl _ | with_reducible apply Still.step (State.elementDone_still)
      | with_reducible apply Still.step (State.progWaits_still) | with_reducible refine Still.step (State.remotePieces_still (by assumption)) ?_
      | with_reducible apply Still.ite | split)

theorem State.moveIn_kept {s : State} {i : Nat} {x : Inst} {k : ProgKind} {p : Program} {r : AddrReg} {va : Nat} {off : Nat} {len : Nat} :
    Kept s (State.moveIn s i x k p r va off len) := by
  unfold State.moveIn
  repeat' (first
      | with_reducible exact Kept.refl _ | with_reducible apply Kept.step (State.count32_still).kept
      | with_reducible apply Kept.step (State.cursorWrite_still).kept | with_reducible apply Kept.step (State.elementDone_still).kept
      | with_reducible apply Kept.step (State.elementRest_still).kept | with_reducible apply Kept.step (State.readPieces_still).kept
      | with_reducible apply Kept.step (State.takeFault_kept) | with_reducible apply Kept.ite
      | with_reducible refine Kept.fst3 (by assumption) (State.translateRun_still).kept ?_ | split)

theorem State.writeLines_kept {s : State} {x : Inst} {area : Nat} {off : Nat} {va : Nat} {l : List (Nat × Nat × Translation)} :
    Kept s (State.writeLines s x area off va l).1 := by
  unfold State.writeLines
  repeat' (first
      | with_reducible exact Kept.refl _ | with_reducible apply Kept.step (State.physWrite_kept) | with_reducible apply Kept.ite
      | (with_reducible apply Kept.foldlP; intro _ _))

theorem State.moveOut_kept {s : State} {i : Nat} {x : Inst} {k : ProgKind} {p : Program} {a : Nat} {va : Nat} {off : Nat} {len : Nat} :
    Kept s (State.moveOut s i x k p a va off len) := by
  unfold State.moveOut
  repeat' (first
      | with_reducible exact Kept.refl _ | with_reducible apply Kept.step (State.abortInst_kept)
      | with_reducible apply Kept.step (State.elementRest_still).kept | with_reducible apply Kept.step (State.setInst_still).kept
      | with_reducible apply Kept.step (State.takeFault_kept) | with_reducible apply Kept.step (State.writeLines_kept)
      | with_reducible apply Kept.ite | with_reducible refine Kept.fst3 (by assumption) (State.translateRun_still).kept ?_ | split)

theorem State.swMove_kept {s : State} {i : Nat} {x : Inst} {k : ProgKind} {p : Program} {a : Nat} {toMem : Bool} {len : Nat} :
    Kept s (State.swMove s i x k p a toMem len) := by
  unfold State.swMove
  repeat' (first
      | with_reducible exact Kept.refl _ | with_reducible apply Kept.step (State.abortInst_kept)
      | with_reducible apply Kept.step (State.moveIn_kept) | with_reducible apply Kept.step (State.moveOut_kept) | with_reducible apply Kept.ite)

theorem State.swGet_still {s : State} {i : Nat} {x : Inst} {k : ProgKind} {p : Program} {a : Nat} {pool : Nat} :
    Still s (State.swGet s i x k p a pool) := by
  unfold State.swGet
  repeat' (first
      | with_reducible exact Still.refl _ | with_reducible apply Still.step (State.awaitBuffer_still)
      | with_reducible apply Still.step (State.progWaits_still) | with_reducible apply Still.step (State.putProg_still)
      | with_reducible apply Still.ite | with_reducible refine Still.fst3 (by assumption) (State.getBuffer_still) ?_ | split)

theorem State.swWait_kept {s : State} {i : Nat} {x : Inst} {k : ProgKind} {p : Program} {a : Nat} {q : Nat} :
    Kept s (State.swWait s i x k p a q) := by
  unfold State.swWait
  repeat' (first
      | with_reducible exact Kept.refl _ | with_reducible apply Kept.step (State.abortInst_kept)
      | with_reducible apply Kept.step (State.progWaits_still).kept | with_reducible apply Kept.step (State.putProg_still).kept
      | with_reducible apply Kept.ite | with_reducible refine Kept.fst3 (by assumption) (State.nextHandle_still).kept ?_ | split)

theorem State.swSignal_kept {s : State} {i : Nat} {x : Inst} {k : ProgKind} {p : Program} {a : Nat} {q : Nat} {last : Bool} {rl : Nat} {len : Nat} :
    Kept s (State.swSignal s i x k p a q last rl len) := by
  unfold State.swSignal
  repeat' (first
      | with_reducible exact Kept.refl _ | with_reducible apply Kept.step (State.abortInst_kept)
      | with_reducible apply Kept.step (State.count32_still).kept | with_reducible apply Kept.step (State.putProg_still).kept
      | with_reducible apply Kept.ite)

theorem State.swFree_kept {s : State} {i : Nat} {x : Inst} {k : ProgKind} {p : Program} {a : Nat} : Kept s (State.swFree s i x k p a) := by
  unfold State.swFree
  repeat' (first
      | with_reducible exact Kept.refl _ | with_reducible apply Kept.step (State.abortInst_kept)
      | with_reducible apply Kept.step (State.putProg_still).kept | with_reducible apply Kept.ite)

theorem State.swPost_kept {s : State} {i : Nat} {x : Inst} {k : ProgKind} {p : Program} {token : Nat} {count : Nat} :
    Kept s (State.swPost s i x k p token count) := by
  unfold State.swPost
  repeat' (first
      | with_reducible exact Kept.refl _ | with_reducible apply Kept.step (State.postToken_kept)
      | with_reducible apply Kept.step (State.putProg_still).kept)

theorem State.swSyncWait_still {s : State} {i : Nat} {x : Inst} {k : ProgKind} {p : Program} {token : Nat} {count : Nat} :
    Still s (State.swSyncWait s i x k p token count) := by
  unfold State.swSyncWait
  repeat' (first
      | with_reducible exact Still.refl _ | with_reducible apply Still.step (State.progWaits_still)
      | with_reducible apply Still.step (State.putProg_still) | with_reducible apply Still.ite)

theorem State.setRound_still {s : State} {b : Nat} {r : Round} : Still s (State.setRound s b r) := by
  unfold State.setRound
  repeat' (first | with_reducible exact Still.refl _ | with_reducible apply Still.step (State.setBay_still))

theorem State.startRound_still {s : State} {x : Inst} {round : Nat} {tiles : Nat} : Still s (State.startRound s x round tiles).1 := by
  unfold State.startRound
  repeat' (first
      | with_reducible exact Still.refl _ | with_reducible apply Still.step (State.applyAll_still)
      | with_reducible apply Still.step (State.setBay_still) | with_reducible refine Still.fst3 (by assumption) (State.readRun_still) ?_ | split
      | dsimp only)

theorem State.joinRound_kept {s : State} {i : Nat} {x : Inst} {k : ProgKind} {p : Program} {r : Round} {token : Nat} :
    Kept s (State.joinRound s i x k p r token) := by
  unfold State.joinRound
  repeat' (first
      | with_reducible exact Kept.refl _ | with_reducible apply Kept.step (State.postToken_kept)
      | with_reducible apply Kept.step (State.putProg_still).kept | with_reducible apply Kept.step (State.setCore_still).kept
      | with_reducible apply Kept.step (State.setRound_still).kept | with_reducible apply Kept.ite)

theorem State.swRotate_kept {s : State} {i : Nat} {x : Inst} {k : ProgKind} {p : Program} {token : Nat} {tiles : Nat} {round : Nat} :
    Kept s (State.swRotate s i x k p token tiles round) := by
  unfold State.swRotate
  repeat' (first
      | with_reducible exact Kept.refl _ | with_reducible apply Kept.step (State.joinRound_kept)
      | with_reducible apply Kept.step (State.progWaits_still).kept | with_reducible apply Kept.step (State.takeFault_kept)
      | with_reducible apply Kept.ite | with_reducible refine Kept.fst3 (by assumption) (State.startRound_still).kept ?_ | split)

theorem State.putTile_still {s : State} {core : Nat} {key : Nat} {slot : Nat} {bs : Bytes} {marked : List Nat} :
    Still s (State.putTile s core key slot bs marked) := by
  unfold State.putTile
  repeat' (first | with_reducible exact Still.refl _ | with_reducible apply Still.step (State.setCore_still))

theorem State.roundEnd_still {s : State} {b : Nat} {round : Nat} : Still s (State.roundEnd s b round) := by
  unfold State.roundEnd
  repeat' (first
      | with_reducible exact Still.refl _ | with_reducible apply Still.step (State.countWrap_still)
      | with_reducible apply Still.step (State.setRound_still) | with_reducible apply Still.ite | split)

theorem State.readTile_still {s : State} {b : Nat} {va : Nat} {en : Engine} : Still s (State.readTile s b va en).1 := by
  unfold State.readTile
  repeat' (first
      | with_reducible exact Still.refl _ | with_reducible apply Still.step (State.readPhys_still)
      | (with_reducible apply Still.foldlP; intro _ _) | with_reducible refine Still.fst3 (by assumption) (State.translateRun_still) ?_ | split)

theorem State.directTile_kept {s : State} {b : Nat} {r : Round} {core : Nat} {j : RoundJoin} {tile : Nat} :
    Kept s (State.directTile s b r core j tile) := by
  unfold State.directTile
  repeat' (first
      | with_reducible exact Kept.refl _ | with_reducible apply Kept.step (State.count32_still).kept
      | with_reducible apply Kept.step (State.count64_still).kept | with_reducible apply Kept.step (State.countWrap_still).kept
      | with_reducible apply Kept.step (State.postToken_kept) | with_reducible apply Kept.step (State.putTile_still).kept
      | with_reducible apply Kept.step (State.setRound_still).kept | with_reducible apply Kept.step (State.takeFault_kept)
      | (with_reducible apply Kept.foldl; intro _ _) | with_reducible refine Kept.fst3 (by assumption) (State.readTile_still).kept ?_ | split
      | dsimp only)

theorem State.injectTile_kept {s : State} {b : Nat} {r : Round} {tile : Nat} : Kept s (State.injectTile s b r tile).1 := by
  unfold State.injectTile
  repeat' (first
      | with_reducible exact Kept.refl _ | with_reducible apply Kept.step (State.raiseFault_kept) | with_reducible apply Kept.ite
      | with_reducible refine Kept.fst3 (by assumption) (State.readTile_still).kept ?_ | split | dsimp only)

theorem State.passTile_kept {s : State} {b : Nat} {r0 : Round} {core : Nat} {tile : Nat} : Kept s (State.passTile s b r0 core tile) := by
  unfold State.passTile
  repeat' (first
      | with_reducible exact Kept.refl _ | with_reducible apply Kept.step (State.countWrap_still).kept
      | with_reducible apply Kept.step (State.postToken_kept) | with_reducible apply Kept.step (State.putTile_still).kept
      | with_reducible apply Kept.step (State.roundEnd_still).kept | with_reducible apply Kept.step (State.setRound_still).kept
      | with_reducible apply Kept.ite | (with_reducible apply Kept.foldl; intro _ _)
      | with_reducible refine Kept.fst3 (by assumption) (State.injectTile_kept) ?_ | split)

theorem State.ringDelivery_kept {s : State} {b : Nat} {round : Nat} {core : Nat} : Kept s (State.ringDelivery s b round core) := by
  unfold State.ringDelivery
  repeat' (first
      | with_reducible exact Kept.refl _ | with_reducible apply Kept.step (State.directTile_kept)
      | with_reducible apply Kept.step (State.passTile_kept) | split | dsimp only)

end Sys2Proof.Machine
end

