-- ==== Sys2Proof/Laws/FrameChains.lean ====
section
/-! SUPPORT. What the operations of Machine/Chains.lean leave alone: memory and the fuses (`Still`), or the fuses and the form of memory
(`Kept`). -/

namespace Sys2Proof.Machine

theorem State.chainLearn_still {s : State} {x : Inst} : Still s (State.chainLearn s x) := by
  unfold State.chainLearn
  repeat' (first
      | with_reducible exact Still.refl _ | with_reducible apply Still.step (State.draw_still)
      | with_reducible apply Still.step (State.setSlot_still) | split)

theorem State.vacate_kept {s : State} {i : Nat} {x : Inst} : Kept s (State.vacate s i x) := by
  unfold State.vacate
  repeat' (first
      | with_reducible exact Kept.refl _ | with_reducible apply Kept.step (State.dropInst_still).kept
      | with_reducible apply Kept.step (State.grant_still).kept | with_reducible apply Kept.step (State.leaveRounds_still).kept
      | with_reducible apply Kept.step (State.leaveStall_still).kept | with_reducible apply Kept.step (State.listRoom_kept)
      | with_reducible apply Kept.step (State.retryPreempt_still).kept | with_reducible apply Kept.step (State.setBay_still).kept)

theorem State.stepsReady_still {s : State} {b : Nat} {chain : Option Nat} : Still s (State.stepsReady s b chain) := by
  unfold State.stepsReady
  repeat' (first
      | with_reducible exact Still.refl _ | with_reducible apply Still.step (State.seqReady_still) | with_reducible apply Still.ite
      | (with_reducible apply Still.foldl; intro _ _) | split | dsimp only)

theorem State.sheafDone_kept {s : State} {i : Nat} : Kept s (State.sheafDone s i) := by
  unfold State.sheafDone
  repeat' (first
      | with_reducible exact Kept.refl _ | with_reducible apply Kept.step (State.chainLearn_still).kept
      | with_reducible apply Kept.step (State.countWrap_still).kept | with_reducible apply Kept.step (State.publish_still).kept
      | with_reducible apply Kept.step (State.setBay_still).kept | with_reducible apply Kept.step (State.stepsReady_still).kept
      | with_reducible apply Kept.step (State.trace_still).kept | with_reducible apply Kept.step (State.vacate_kept)
      | with_reducible apply Kept.ite | split)

theorem State.triggerRun_still {s : State} {q : Nat} : Still s (State.triggerRun s q) := by
  unfold State.triggerRun
  repeat' (first
      | with_reducible exact Still.refl _ | with_reducible apply Still.step (State.createInst_still) | with_reducible apply Still.ite
      | with_reducible refine Still.fst3 (by assumption) (State.popQueue_still) ?_ | split)

theorem State.setService_still {s : State} {q : Nat} {z : Option Service} : Still s (State.setService s q z) := by
  unfold State.setService
  repeat' (first | (simp only [Still.upd]; first | with_reducible refine Still.of ?_ | exact ⟨trivial, trivial⟩))

theorem State.serviceStep_still {s : State} {b : Nat} {lc : Bool} {size : Nat} {z : Service} : Still s (State.serviceStep s b lc size z).1 := by
  unfold State.serviceStep
  repeat' (first
      | with_reducible exact Still.refl _ | with_reducible apply Still.step (State.bseResults_still)
      | with_reducible apply Still.step (State.shareWork_still) | with_reducible apply Still.iteP
      | with_reducible refine Still.fst3 (by assumption) (State.translate_still) ?_ | split | dsimp only)

theorem State.serviceRun_still {s : State} {b : Nat} {lc : Bool} {size : Nat} {z : Service} {e0 : Nat} :
    Still s (State.serviceRun s b lc size z e0).1 := by
  induction e0 generalizing s b lc size z with
  | zero =>
    unfold State.serviceRun
    with_reducible exact Still.refl _
  | succ n ih =>
    unfold State.serviceRun
    repeat' (first
        | with_reducible exact Still.refl _ | with_reducible apply Still.step (ih ..) | with_reducible apply Still.iteP
        | with_reducible refine Still.fst3 (by assumption) (State.serviceStep_still) ?_ | split)

theorem State.putLines_kept {s : State} {va : Nat} {area : Inst} {l : List (Nat × Nat × Translation)} {run : Nat × Nat} :
    Kept s (State.putLines s va area l run) := by
  unfold State.putLines
  repeat' (first
      | with_reducible exact Kept.refl _ | with_reducible apply Kept.step (State.physWrite_kept) | (with_reducible apply Kept.foldl; intro _ _)
      | split)

theorem State.serviceDone_still {s : State} {q : Nat} {e : QueueEntry} {chaff : Bool} : Still s (State.serviceDone s q e chaff) := by
  unfold State.serviceDone
  repeat' (first
      | with_reducible exact Still.refl _ | with_reducible apply Still.step (State.popQueue_still)
      | with_reducible apply Still.step (State.pushRun_still))

theorem State.serviceFault_kept {s : State} {b : Nat} {q : Nat} {e : QueueEntry} {write : Bool} {f : RunFault} {en : Engine} :
    Kept s (State.serviceFault s b q e write f en) := by
  unfold State.serviceFault
  repeat' (first
      | with_reducible exact Kept.refl _ | with_reducible apply Kept.step (State.raiseFault_kept)
      | with_reducible apply Kept.step (State.serviceDone_still).kept | with_reducible apply Kept.step (State.setService_still).kept
      | with_reducible apply Kept.ite)

theorem State.serviceStart_still {s : State} {b : Nat} {h : Handle} : Still s (State.serviceStart s b h).1 := by
  unfold State.serviceStart
  repeat' (first
      | with_reducible exact Still.refl _ | with_reducible apply Still.step (State.readPhys_still)
      | (with_reducible apply Still.foldlP; intro _ _) | with_reducible refine Still.fst3 (by assumption) (State.translateRun_still) ?_ | split
      | dsimp only)

theorem State.serviceWrite_kept {s : State} {b : Nat} {q : Nat} {e : QueueEntry} {z : Service} : Kept s (State.serviceWrite s b q e z) := by
  unfold State.serviceWrite
  repeat' (first
      | with_reducible exact Kept.refl _ | with_reducible apply Kept.step (State.putLines_kept)
      | with_reducible apply Kept.step (State.serviceDone_still).kept | with_reducible apply Kept.step (State.serviceFault_kept)
      | with_reducible apply Kept.step (State.setService_still).kept | (with_reducible apply Kept.foldl; intro _ _)
      | with_reducible refine Kept.fst3 (by assumption) (State.translateRun_still).kept ?_ | split | dsimp only)

theorem State.serviceOn_kept {s : State} {b : Nat} {q : Nat} {e : QueueEntry} {z : Service} : Kept s (State.serviceOn s b q e z) := by
  unfold State.serviceOn
  repeat' (first
      | with_reducible exact Kept.refl _ | with_reducible apply Kept.step (State.serviceFault_kept)
      | with_reducible apply Kept.step (State.serviceWrite_kept) | with_reducible apply Kept.step (State.setService_still).kept
      | with_reducible refine Kept.fst3 (by assumption) (State.serviceRun_still).kept ?_ | split)

theorem State.serve_kept {s : State} {q : Nat} : Kept s (State.serve s q) := by
  unfold State.serve
  repeat' (first
      | with_reducible exact Kept.refl _ | with_reducible apply Kept.step (State.serviceFault_kept)
      | with_reducible apply Kept.step (State.serviceOn_kept) | with_reducible apply Kept.ite
      | with_reducible refine Kept.fst3 (by assumption) (State.serviceStart_still).kept ?_ | split)

theorem State.flushQueue_still {s : State} {b : Nat} {q : Nat} : Still s (State.flushQueue s b q) := by
  unfold State.flushQueue
  repeat' (first
      | with_reducible exact Still.refl _ | with_reducible apply Still.step (State.drainRuns_still)
      | with_reducible apply Still.step (State.returnBuffer_still) | with_reducible apply Still.step (State.setQueue_still)
      | with_reducible apply Still.step (State.setService_still) | with_reducible apply Still.ite | (with_reducible apply Still.foldl; intro _ _)
      | split)

theorem State.dissolve_kept {s : State} {b : Nat} {c : Nat} : Kept s (State.dissolve s b c) := by
  unfold State.dissolve
  repeat' (first
      | with_reducible apply Kept.step (State.drainClosing_kept) | with_reducible apply Kept.step (State.freeSlot_still).kept
      | (simp only [Kept.upd]; first | with_reducible refine Kept.of ?_ | exact ⟨trivial, fun h => h⟩))

theorem State.cancelEnd_kept {s : State} {i : Nat} {x : Inst} : Kept s (State.cancelEnd s i x) := by
  unfold State.cancelEnd
  repeat' (first
      | with_reducible exact Kept.refl _ | with_reducible apply Kept.step (State.dissolve_kept)
      | with_reducible apply Kept.step (State.latch_still).kept | with_reducible apply Kept.step (State.returnBuffer_still).kept
      | with_reducible apply Kept.step (State.returnRows_still).kept | with_reducible apply Kept.step (State.setBay_still).kept
      | (with_reducible apply Kept.foldl; intro _ _) | split)

theorem State.countGlean_still {s : State} {b : Nat} {bytes : Nat} : Still s (State.countGlean s b bytes) := by
  unfold State.countGlean
  repeat' (first
      | with_reducible exact Still.refl _ | with_reducible apply Still.step (State.count64_still)
      | with_reducible apply Still.step (State.countWrap_still))

theorem State.refuseCancel_still {s : State} {b : Nat} {reason : Nat} : Still s (State.refuseCancel s b reason) := by
  unfold State.refuseCancel
  repeat' (first | with_reducible exact Still.refl _ | with_reducible apply Still.step (State.setBay_still))

theorem State.cancelOp_kept {s : State} {b : Nat} : Kept s (State.cancelOp s b) := by
  unfold State.cancelOp
  repeat' (first
      | with_reducible exact Kept.refl _ | with_reducible apply Kept.step (State.beginGlean_still).kept
      | with_reducible apply Kept.step (State.cancelEnd_kept) | with_reducible apply Kept.step (State.countGlean_still).kept
      | with_reducible apply Kept.step (State.dropInst_still).kept | with_reducible apply Kept.step (State.refuseCancel_still).kept
      | with_reducible apply Kept.step (State.setBay_still).kept | with_reducible apply Kept.ite | split)

theorem State.gleanEnd_kept {s : State} {i : Nat} : Kept s (State.gleanEnd s i) := by
  unfold State.gleanEnd
  repeat' (first
      | with_reducible exact Kept.refl _ | with_reducible apply Kept.step (State.cancelEnd_kept)
      | with_reducible apply Kept.step (State.countGlean_still).kept | with_reducible apply Kept.step (State.discardEngines_still).kept
      | with_reducible apply Kept.step (State.nextPass_kept) | with_reducible apply Kept.step (State.returnBuffer_still).kept
      | with_reducible apply Kept.step (State.setInst_still).kept | with_reducible apply Kept.step (State.vacate_kept)
      | with_reducible apply Kept.ite | (with_reducible apply Kept.foldl; intro _ _) | split)

theorem State.setChannel_still {s : State} {b : Nat} {c : Nat} {x : CopyChannel} : Still s (State.setChannel s b c x) := by
  unfold State.setChannel
  repeat' (first | with_reducible exact Still.refl _ | with_reducible apply Still.step (State.setBay_still))

theorem State.copyStart_still {s : State} {b : Nat} {c : Nat} {d : CopyDesc} : Still s (State.copyStart s b c d) := by
  unfold State.copyStart
  repeat' (first
      | with_reducible exact Still.refl _ | with_reducible apply Still.step (State.setChannel_still)
      | with_reducible apply Still.step (State.setReg_still))

theorem State.copyEnd_still {s : State} {b : Nat} {c : Nat} {error : Option Nat} {e0 : Nat} : Still s (State.copyEnd s b c error e0) := by
  induction e0 generalizing s b c error with
  | zero =>
    unfold State.copyEnd
    with_reducible exact Still.refl _
  | succ n ih =>
    unfold State.copyEnd
    repeat' (first
        | with_reducible exact Still.refl _ | with_reducible apply Still.step (ih ..) | with_reducible apply Still.step (State.copyStart_still)
        | with_reducible apply Still.step (State.countWrap_still) | with_reducible apply Still.step (State.latch_still)
        | with_reducible apply Still.step (State.setChannel_still) | with_reducible apply Still.ite | split | dsimp only)

theorem State.withdrawCopy_still {s : State} {b : Nat} {c : Nat} : Still s (State.withdrawCopy s b c) := by
  unfold State.withdrawCopy
  repeat' (first | (simp only [Still.upd]; first | with_reducible refine Still.of ?_ | exact ⟨trivial, trivial⟩))

theorem State.copyFail_still {s : State} {b : Nat} {c : Nat} {cause : FaultCause} : Still s (State.copyFail s b c cause) := by
  unfold State.copyFail
  repeat' (first
      | with_reducible exact Still.refl _ | with_reducible apply Still.step (State.copyEnd_still)
      | with_reducible apply Still.step (State.gleanRequests_still) | with_reducible apply Still.step (State.withdrawCopy_still))

theorem State.copyFault_kept {s : State} {b : Nat} {c : Nat} {f : RunFault} {write : Bool} : Kept s (State.copyFault s b c f write) := by
  unfold State.copyFault
  repeat' (first
      | with_reducible exact Kept.refl _ | with_reducible apply Kept.step (State.copyFail_still).kept
      | with_reducible apply Kept.step (State.raiseFault_kept) | with_reducible apply Kept.step (State.setChannel_still).kept
      | with_reducible apply Kept.ite)

theorem State.copyProgress_still {s : State} {b : Nat} {c : Nat} {len : Nat} : Still s (State.copyProgress s b c len) := by
  unfold State.copyProgress
  repeat' (first | with_reducible exact Still.refl _ | with_reducible apply Still.step (State.countWrap_still))

theorem State.copyArm_still {s : State} {b : Nat} {c : Nat} : Still s (State.copyArm s b c) := by
  unfold State.copyArm
  repeat' (first
      | with_reducible exact Still.refl _ | with_reducible apply Still.step (State.applyAll_still)
      | with_reducible apply Still.step (State.copyEnd_still) | with_reducible apply Still.step (State.copyStart_still)
      | with_reducible apply Still.step (State.count16_still) | with_reducible apply Still.step (State.setChannel_still)
      | with_reducible apply Still.ite | split | dsimp only)

theorem State.copyLocal_kept {s : State} {src : Nat} {dst : Nat} {len : Nat} {from_ : Translation} {dest : Translation} :
    Kept s (State.copyLocal s src dst len from_ dest) := by
  unfold State.copyLocal
  repeat' (first
      | with_reducible exact Kept.refl _ | with_reducible apply Kept.step (State.physWrite_kept)
      | with_reducible apply Kept.step (State.readPhys_still).kept | (with_reducible apply Kept.foldl; intro _ _))

theorem State.copyMove_kept {s : State} {b : Nat} {c : Nat} {be : Bool} {src : Nat} {dst : Nat} {len : Nat} :
    Kept s (State.copyMove s b c be src dst len).1 := by
  unfold State.copyMove
  repeat' (first
      | with_reducible exact Kept.refl _ | with_reducible apply Kept.step (State.copyLocal_kept)
      | with_reducible apply Kept.step (State.copyProgress_still).kept | with_reducible apply Kept.step (State.postRead_still).kept
      | with_reducible apply Kept.step (State.postWrite_still).kept | with_reducible apply Kept.iteP
      | with_reducible refine Kept.fst3 (by assumption) (State.readPhys_still).kept ?_
      | with_reducible refine Kept.fst3 (by assumption) (State.translate_still).kept ?_ | split | dsimp only)

theorem State.copyAgain_kept {s : State} {b : Nat} {c : Nat} {be : Bool} {e0 : List (Nat × Nat × Nat)} : Kept s (State.copyAgain s b c be e0).1 := by
  induction e0 generalizing s b c be with
  | nil =>
    unfold State.copyAgain
    repeat' (first | with_reducible exact Kept.refl _)
  | cons a l ih =>
    unfold State.copyAgain
    repeat' (first
        | with_reducible exact Kept.refl _ | with_reducible apply Kept.step (ih ..) | with_reducible apply Kept.step (State.copyMove_kept)
        | with_reducible apply Kept.step (State.setChannel_still).kept | with_reducible refine Kept.fst3 (by assumption) (State.copyMove_kept) ?_
        | split)

theorem State.copyRun_kept {s : State} {b : Nat} {c : Nat} {d : CopyDesc} {bound : Nat} {e0 : Nat} : Kept s (State.copyRun s b c d bound e0).1 := by
  induction e0 generalizing s b c d bound with
  | zero =>
    unfold State.copyRun
    repeat' (first | with_reducible exact Kept.refl _)
  | succ n ih =>
    unfold State.copyRun
    repeat' (first
        | with_reducible exact Kept.refl _ | with_reducible apply Kept.step (ih ..)
        | with_reducible apply Kept.step (State.setChannel_still).kept | with_reducible apply Kept.iteP
        | with_reducible refine Kept.fst3 (by assumption) (State.copyMove_kept) ?_ | split | dsimp only)

theorem State.copyCancel_kept {s : State} {b : Nat} {c : Nat} : Kept s (State.copyCancel s b c) := by
  unfold State.copyCancel
  repeat' (first
      | with_reducible exact Kept.refl _ | with_reducible apply Kept.step (State.copyRun_kept)
      | with_reducible apply Kept.step (State.countGlean_still).kept | with_reducible apply Kept.step (State.gleanRequests_still).kept
      | with_reducible apply Kept.step (State.setBay_still).kept | with_reducible apply Kept.step (State.setChannel_still).kept
      | with_reducible apply Kept.step (State.withdrawCopy_still).kept | with_reducible apply Kept.ite
      | with_reducible refine Kept.snd3 (by assumption) (State.draw_still).kept ?_ | split | dsimp only)

theorem State.copyDone_kept {s : State} {b : Nat} {c : Nat} : Kept s (State.copyDone s b c) := by
  unfold State.copyDone
  repeat' (first
      | with_reducible exact Kept.refl _ | with_reducible apply Kept.step (State.copyEnd_still).kept
      | with_reducible apply Kept.step (State.copyFault_kept) | with_reducible apply Kept.step (State.copyRun_kept)
      | with_reducible apply Kept.step (State.setChannel_still).kept | with_reducible apply Kept.ite
      | with_reducible refine Kept.fst3 (by assumption) (State.copyAgain_kept) ?_
      | with_reducible refine Kept.fst3 (by assumption) ?_ (Kept.refl _) | split | dsimp only)

end Sys2Proof.Machine
end

