-- ==== Sys2Proof/Laws/FrameBale.lean ====
section
/-! SUPPORT. What the operations of Machine/Bale.lean leave alone: memory and the fuses (`Still`), or the fuses and the form of memory
(`Kept`). -/

namespace Sys2Proof.Machine

theorem State.slotSent_kept {s : State} {seq : Bool} {i : Nat} : Kept s (State.slotSent s seq i) := by
  unfold State.slotSent
  repeat' (first
      | with_reducible exact Kept.refl _ | with_reducible apply Kept.step (State.outFreed_kept)
      | with_reducible apply Kept.step (State.seqTry_kept) | with_reducible apply Kept.step (State.slotReleased_still).kept
      | with_reducible apply Kept.step (State.tryPost_kept) | with_reducible apply Kept.ite)

theorem State.alarmDelivered_still {s : State} {r : Bytes} : Still s (State.alarmDelivered s r) := by
  unfold State.alarmDelivered
  repeat' (first
      | with_reducible exact Still.refl _ | with_reducible apply Still.ite
      | (simp only [Still.upd]; first | with_reducible refine Still.of ?_ | exact ⟨trivial, trivial⟩) | split | dsimp only)

theorem State.telemDelivered_still {s : State} {ring : Nat} {first : Word} {records : List Bytes} :
    Still s (State.telemDelivered s ring first records) := by
  unfold State.telemDelivered
  repeat' (first
      | with_reducible exact Still.refl _ | with_reducible apply Still.step (State.alarmDelivered_still)
      | with_reducible apply Still.step (State.setRing_still) | (with_reducible apply Still.foldl; intro _ _))

theorem State.telemLost_still {s : State} {ring : Nat} {records : List Bytes} : Still s (State.telemLost s ring records) := by
  unfold State.telemLost
  repeat' (first
      | with_reducible apply Still.step (State.setRing_still)
      | (simp only [Still.upd]; first | with_reducible refine Still.of ?_ | exact ⟨trivial, trivial⟩))

theorem State.bodyDone_kept {s : State} {delivered : Bool} {b : TxBody} : Kept s (State.bodyDone s delivered b) := by
  unfold State.bodyDone
  repeat' (first
      | with_reducible exact Kept.refl _ | with_reducible apply Kept.step (State.returnBuffer_still).kept
      | with_reducible apply Kept.step (State.slotSent_kept) | with_reducible apply Kept.step (State.telemDelivered_still).kept
      | with_reducible apply Kept.step (State.telemLost_still).kept | with_reducible apply Kept.ite | split)

theorem State.congestedPeer_still {s : State} {p : Nat} : Still s (State.congestedPeer s p) := by
  unfold State.congestedPeer
  repeat' (first | with_reducible exact Still.refl _ | with_reducible apply Still.step (State.setPeer_still) | with_reducible apply Still.ite)

theorem State.resend_still {s : State} {p : Nat} {seq : Word} : Still s (State.resend s p seq) := by
  unfold State.resend
  repeat' (first
      | with_reducible exact Still.refl _ | with_reducible apply Still.step (State.countWrap_still)
      | with_reducible apply Still.step (State.emit_still) | split)

theorem State.ackRx_kept {s : State} {p : Nat} {cum : Word} {sack : Word} : Kept s (State.ackRx s p cum sack) := by
  unfold State.ackRx
  repeat' (first
      | with_reducible exact Kept.refl _ | with_reducible apply Kept.step (State.bodyDone_kept)
      | with_reducible apply Kept.step (State.draw_still).kept | with_reducible apply Kept.step (State.pump_still).kept
      | with_reducible apply Kept.step (State.resend_still).kept | with_reducible apply Kept.step (State.setPeer_still).kept
      | with_reducible apply Kept.ite | (with_reducible apply Kept.foldl; intro _ _) | split)

theorem State.retransmit_still {s : State} {p : Nat} {seq : Word} : Still s (State.retransmit s p seq) := by
  unfold State.retransmit
  repeat' (first
      | with_reducible exact Still.refl _ | with_reducible apply Still.step (State.resend_still)
      | with_reducible apply Still.step (State.setPeer_still) | with_reducible apply Still.ite | split | dsimp only)

theorem State.probePeer_still {s : State} {p : Nat} : Still s (State.probePeer s p) := by
  unfold State.probePeer
  repeat' (first
      | with_reducible exact Still.refl _ | with_reducible apply Still.step (State.resend_still) | with_reducible apply Still.ite | split
      | dsimp only)

theorem State.resetPeer0_kept {s0 : State} {p : Nat} : Kept s0 (State.resetPeer0 s0 p) := by
  unfold State.resetPeer0
  repeat' (first
      | with_reducible exact Kept.refl _ | with_reducible apply Kept.step (State.bodyDone_kept)
      | with_reducible apply Kept.step (State.count32_still).kept | with_reducible apply Kept.step (State.dropFrames_still).kept
      | with_reducible apply Kept.step (State.setPeer_still).kept | (with_reducible apply Kept.foldl; intro _ _))

theorem State.resetPeer_kept {s : State} {p : Nat} : Kept s (State.resetPeer s p) := by
  unfold State.resetPeer
  repeat' (first
      | with_reducible exact Kept.refl _ | with_reducible apply Kept.step (State.closeSession_still).kept
      | with_reducible apply Kept.step (State.pump_still).kept | with_reducible apply Kept.step (State.resetPeer0_kept) | split)

theorem State.peerEntry_kept {s : State} {p : Nat} {v : Word} : Kept s (State.peerEntry s p v) := by
  unfold State.peerEntry
  repeat' (first
      | with_reducible exact Kept.refl _ | with_reducible apply Kept.step (State.applyAll_still).kept
      | with_reducible apply Kept.step (State.resetPeer_kept) | with_reducible apply Kept.step (State.setReg_still).kept
      | with_reducible apply Kept.ite)

theorem State.takeSeq_still {s : State} {p : Nat} {cls : Nat} {start : Bool} {seq : Word} : Still s (State.takeSeq s p cls start seq) := by
  unfold State.takeSeq
  repeat' (first
      | with_reducible exact Still.refl _ | with_reducible apply Still.step (State.effect_still)
      | with_reducible apply Still.step (State.setPeer_still) | with_reducible apply Still.ite)

theorem State.sessionTake_still {s : State} {p : Nat} {flagged : Bool} {authentic : Bool} {id : Word} {counter : Word} :
    Still s (State.sessionTake s p flagged authentic id counter).1 := by
  unfold State.sessionTake
  repeat' (first
      | with_reducible exact Still.refl _ | with_reducible apply Still.step (State.applyStaged_still)
      | with_reducible apply Still.step (State.closeSession_still) | with_reducible apply Still.step (State.count32_still)
      | with_reducible apply Still.iteP | with_reducible apply Still.ite
      | (simp only [Still.upd]; first | with_reducible refine Still.of ?_ | exact ⟨trivial, trivial⟩) | split)

theorem State.baleRx_kept {s : State} {src : NetEnd} {d : BaleDatagram} {ce : Bool} : Kept s (State.baleRx s src d ce) := by
  unfold State.baleRx
  repeat' (first
      | with_reducible exact Kept.refl _ | with_reducible apply Kept.step (State.ackRx_kept)
      | with_reducible apply Kept.step (State.congestedPeer_still).kept | with_reducible apply Kept.step (State.count32_still).kept
      | with_reducible apply Kept.step (State.effectOf_still).kept | with_reducible apply Kept.step (State.setPeer_still).kept
      | with_reducible apply Kept.step (State.takeSeq_still).kept | with_reducible apply Kept.ite
      | with_reducible refine Kept.fst3 (by assumption) (State.sessionTake_still).kept ?_ | split)

theorem State.bindQueue_still {s : State} {q : Nat} : Still s (State.bindQueue s q) := by
  unfold State.bindQueue
  repeat' (first | with_reducible exact Still.refl _ | with_reducible apply Still.step (State.applyAll_still))

theorem State.setAssembly_still {s : State} {p : Nat} {a : Assembly} : Still s (State.setAssembly s p a) := by
  unfold State.setAssembly
  repeat' (first | with_reducible exact Still.refl _ | with_reducible apply Still.step (State.setPeer_still))

theorem State.assembled_still {s : State} {p : Nat} {a : Assembly} : Still s (State.assembled s p a) := by
  unfold State.assembled
  repeat' (first
      | with_reducible exact Still.refl _ | with_reducible apply Still.step (State.pushRun_still)
      | with_reducible apply Still.step (State.setPeer_still))

theorem State.pieceLanded_still {s : State} {p : Nat} {msg : Option Word} {a : Assembly} {offset : Nat} {len : Nat} {chaff : Bool} :
    Still s (State.pieceLanded s p msg a offset len chaff) := by
  unfold State.pieceLanded
  repeat' (first
      | with_reducible exact Still.refl _ | with_reducible apply Still.step (State.assembled_still)
      | with_reducible apply Still.step (State.effect_still) | with_reducible apply Still.step (State.setAssembly_still)
      | with_reducible apply Still.ite)

theorem State.writePiece_kept {s : State} {b : Nat} {p : Nat} {msg : Option Word} {a : Assembly} {chaff : Bool} {offset : Nat} {data : Bytes} :
    Kept s (State.writePiece s b p msg a chaff offset data) := by
  unfold State.writePiece
  repeat' (first
      | with_reducible exact Kept.refl _ | with_reducible apply Kept.step (State.count32_still).kept
      | with_reducible apply Kept.step (State.holdMsg_still).kept | with_reducible apply Kept.step (State.pieceLanded_still).kept
      | with_reducible apply Kept.step (State.raiseFault_kept) | with_reducible apply Kept.ite
      | with_reducible refine Kept.fst3 (by assumption) (State.writeRun_kept) ?_ | split | dsimp only)

theorem State.startAssembly_still {s : State} {p : Nat} {q : Nat} {total : Nat} {tag : Nat} : Still s (State.startAssembly s p q total tag).1 := by
  unfold State.startAssembly
  repeat' (first
      | with_reducible exact Still.refl _ | with_reducible apply Still.step (State.setPeer_still) | with_reducible apply Still.iteP
      | with_reducible refine Still.fst3 (by assumption) (State.takeBuffer_still) ?_ | split)

theorem State.queuePiece_kept {s : State} {p : Nat} {q : Nat} {chaff : Bool} {offset : Nat} {total : Nat} {tag : Nat} {data : Bytes} :
    Kept s (State.queuePiece s p q chaff offset total tag data) := by
  unfold State.queuePiece
  repeat' (first
      | with_reducible exact Kept.refl _ | with_reducible apply Kept.step (State.bindQueue_still).kept
      | with_reducible apply Kept.step (State.count32_still).kept | with_reducible apply Kept.step (State.effect_still).kept
      | with_reducible apply Kept.step (State.writePiece_kept)
      | with_reducible refine Kept.fst3 (by assumption) (State.startAssembly_still).kept ?_
      | with_reducible refine Kept.fst3 (by assumption) (State.takeMsg_still).kept ?_ | split)

theorem State.sendBound_kept {s : State} {q : Nat} : Kept s (State.sendBound s q) := by
  unfold State.sendBound
  repeat' (first
      | with_reducible exact Kept.refl _ | with_reducible apply Kept.step (State.applyStaged_still).kept
      | with_reducible apply Kept.step (State.bindQueue_still).kept | with_reducible apply Kept.step (State.popQueue_still).kept
      | with_reducible apply Kept.step (State.post_still).kept | with_reducible apply Kept.step (State.postRequest_still).kept
      | with_reducible apply Kept.step (State.raiseFault_kept) | with_reducible apply Kept.step (State.returnBuffer_still).kept
      | with_reducible apply Kept.ite | with_reducible refine Kept.fst3 (by assumption) (State.readRun_still).kept ?_ | split | dsimp only)

theorem State.sendEvents_still {s : State} : Still s (State.sendEvents s) := by
  unfold State.sendEvents
  repeat' (first
      | with_reducible exact Still.refl _ | with_reducible apply Still.step (State.applyAll_still)
      | with_reducible apply Still.step (State.post_still) | with_reducible apply Still.ite
      | (simp only [Still.upd]; first | with_reducible refine Still.of ?_ | exact ⟨trivial, trivial⟩))

theorem State.regTimeout_still {s : State} {p : Nat} {tag : BitVec 16} {op : Nat} : Still s (State.regTimeout s p tag op) := by
  unfold State.regTimeout
  repeat' (first | with_reducible exact Still.refl _ | with_reducible apply Still.step (State.setPeer_still))

end Sys2Proof.Machine
end

