-- ==== Sys2Proof/Laws/FrameAudio.lean ====
section
/-! SUPPORT. What the operations of Machine/Audio.lean leave alone: memory and the fuses (`Still`), or the fuses and the form of memory
(`Kept`). -/

namespace Sys2Proof.Machine

theorem State.pllLocks_still {s : State} {i : Nat} : Still s (State.pllLocks s i) := by
  unfold State.pllLocks
  repeat' (first
      | with_reducible exact Still.refl _ | with_reducible apply Still.ite
      | (simp only [Still.upd]; first | with_reducible refine Still.of ?_ | exact ⟨trivial, trivial⟩))

theorem State.pllUnlocks_still {s : State} {i : Nat} : Still s (State.pllUnlocks s i) := by
  unfold State.pllUnlocks
  repeat' (first
      | with_reducible exact Still.refl _ | with_reducible apply Still.step (State.draw_still)
      | (simp only [Still.upd]; first | with_reducible refine Still.of ?_ | exact ⟨trivial, trivial⟩))

theorem State.pllCtrl_still {s : State} {v : Word} : Still s (State.pllCtrl s v) := by
  unfold State.pllCtrl
  repeat' (first
      | with_reducible exact Still.refl _ | with_reducible apply Still.step (State.setReg_still) | with_reducible apply Still.ite
      | (simp only [Still.upd]; first | with_reducible refine Still.of ?_ | exact ⟨trivial, trivial⟩))

theorem State.groupRest_still {s : State} {p : Nat} : Still s (State.groupRest s p) := by
  unfold State.groupRest
  repeat' (first
      | with_reducible exact Still.refl _ | with_reducible apply Still.step (State.setAgroup_still) | with_reducible apply Still.ite | split)

theorem State.portOff_still {s : State} {p : Nat} : Still s (State.portOff s p) := by
  unfold State.portOff
  repeat' (first
      | with_reducible exact Still.refl _ | with_reducible apply Still.step (State.groupRest_still)
      | with_reducible apply Still.step (State.setAport_still))

theorem State.leadOut_still {s : State} {p : Nat} : Still s (State.leadOut s p) := by
  unfold State.leadOut
  repeat' (first | with_reducible exact Still.refl _ | with_reducible apply Still.step (State.setAport_still))

theorem State.releaseGroup_still {s : State} {g : Nat} : Still s (State.releaseGroup s g) := by
  unfold State.releaseGroup
  repeat' (first
      | with_reducible exact Still.refl _ | with_reducible apply Still.step (State.setAgroup_still)
      | with_reducible apply Still.step (State.setAport_still) | with_reducible apply Still.step (State.setReg_still)
      | with_reducible apply Still.ite | (with_reducible apply Still.foldl; intro _ _))

theorem State.groupStart_still {s : State} {g : Nat} : Still s (State.groupStart s g) := by
  unfold State.groupStart
  repeat' (first
      | with_reducible exact Still.refl _ | with_reducible apply Still.step (State.applyStaged_still)
      | with_reducible apply Still.step (State.releaseGroup_still) | with_reducible apply Still.step (State.setAgroup_still) | split | dsimp only)

theorem State.astartMoves_still {s : State} {rising : Bool} : Still s (State.astartMoves s rising) := by
  unfold State.astartMoves
  repeat' (first
      | with_reducible exact Still.refl _ | with_reducible apply Still.step (State.releaseGroup_still)
      | (with_reducible apply Still.foldl; intro _ _)
      | (simp only [Still.upd]; first | with_reducible refine Still.of ?_ | exact ⟨trivial, trivial⟩))

theorem State.marker_kept {s : State} {p : Nat} {kind : Nat} {seq : Word} {off : Nat} {arg : Nat} : Kept s (State.marker s p kind seq off arg) := by
  unfold State.marker
  repeat' (first
      | with_reducible exact Kept.refl _ | with_reducible apply Kept.step (State.count16_still).kept
      | with_reducible apply Kept.step (State.countWrap_still).kept | with_reducible apply Kept.step (State.raiseFault_kept)
      | with_reducible apply Kept.ite | with_reducible refine Kept.fst3 (by assumption) (State.writeRun_kept) ?_ | split | dsimp only)

theorem State.activate_still {s : State} {p : Nat} {d : PortDesc} : Still s (State.activate s p d) := by
  unfold State.activate
  repeat' (first | with_reducible exact Still.refl _ | with_reducible apply Still.step (State.setAport_still) | split)

theorem State.portdArm_still {s : State} {p : Nat} : Still s (State.portdArm s p) := by
  unfold State.portdArm
  repeat' (first
      | with_reducible exact Still.refl _ | with_reducible apply Still.step (State.activate_still)
      | with_reducible apply Still.step (State.applyAll_still) | with_reducible apply Still.step (State.count16_still)
      | with_reducible apply Still.step (State.setAport_still) | split | dsimp only)

theorem State.dropFetched_still {s : State} {p : Nat} : Still s (State.dropFetched s p) := by
  unfold State.dropFetched
  repeat' (first
      | with_reducible exact Still.refl _ | with_reducible apply Still.step (State.returnBuffer_still)
      | with_reducible apply Still.step (State.setAport_still) | (with_reducible apply Still.foldl; intro _ _) | split)

theorem State.dropDescs_still {s : State} {p : Nat} : Still s (State.dropDescs s p) := by
  unfold State.dropDescs
  repeat' (first
      | with_reducible exact Still.refl _ | with_reducible apply Still.step (State.dropFetched_still)
      | with_reducible apply Still.step (State.setAport_still))

theorem State.portdCancel_still {s : State} {p : Nat} : Still s (State.portdCancel s p) := by
  unfold State.portdCancel
  repeat' (first
      | with_reducible exact Still.refl _ | with_reducible apply Still.step (State.dropDescs_still)
      | with_reducible apply Still.step (State.setAport_still) | with_reducible apply Still.ite | split | dsimp only)

theorem State.descBoundary_still {s : State} {p : Nat} {under : Option PortDesc} : Still s (State.descBoundary s p under) := by
  unfold State.descBoundary
  repeat' (first
      | with_reducible exact Still.refl _ | with_reducible apply Still.step (State.activate_still)
      | with_reducible apply Still.step (State.dropDescs_still) | with_reducible apply Still.step (State.dropFetched_still)
      | with_reducible apply Still.step (State.setAport_still) | with_reducible apply Still.ite | split)

theorem State.portRefuse_still {s : State} {p : Nat} {reason : Nat} : Still s (State.portRefuse s p reason) := by
  unfold State.portRefuse
  repeat' (first | with_reducible exact Still.refl _ | with_reducible apply Still.step (State.setAport_still))

theorem State.portStart_kept {s : State} {p : Nat} : Kept s (State.portStart s p) := by
  unfold State.portStart
  repeat' (first
      | with_reducible exact Kept.refl _ | with_reducible apply Kept.step (State.applyAll_still).kept
      | with_reducible apply Kept.step (State.portRefuse_still).kept | with_reducible apply Kept.step (State.setAgroup_still).kept
      | with_reducible apply Kept.step (State.setAport_still).kept | with_reducible apply Kept.step (State.setReg_still).kept
      | with_reducible apply Kept.ite | split | dsimp only)

theorem State.portStop_still {s : State} {p : Nat} : Still s (State.portStop s p) := by
  unfold State.portStop
  repeat' (first
      | with_reducible exact Still.refl _ | with_reducible apply Still.step (State.leadOut_still)
      | with_reducible apply Still.step (State.portOff_still) | with_reducible apply Still.step (State.portRefuse_still)
      | with_reducible apply Still.step (State.setAport_still) | with_reducible apply Still.ite | split | dsimp only)

theorem State.portRestart_still {s : State} {p : Nat} : Still s (State.portRestart s p) := by
  unfold State.portRestart
  repeat' (first
      | with_reducible exact Still.refl _ | with_reducible apply Still.step (State.portRefuse_still)
      | with_reducible apply Still.step (State.setAport_still) | with_reducible apply Still.ite)

theorem State.openPeriod_kept {s : State} {p : Nat} {seq : Word} {from_ : Nat} {chaff : Bool} : Kept s (State.openPeriod s p seq from_ chaff) := by
  unfold State.openPeriod
  repeat' (first
      | with_reducible exact Kept.refl _ | with_reducible apply Kept.step (State.count32_still).kept
      | with_reducible apply Kept.step (State.marker_kept) | with_reducible apply Kept.step (State.setAport_still).kept
      | with_reducible apply Kept.step (State.setReg_still).kept | with_reducible apply Kept.ite | split)

theorem State.playedOut_kept {s : State} {o : Period} : Kept s (State.playedOut s o) := by
  unfold State.playedOut
  repeat' (first
      | with_reducible exact Kept.refl _ | with_reducible apply Kept.step (State.returnBuffer_still).kept
      | with_reducible apply Kept.step (State.slotSent_kept) | split)

theorem State.endPeriod_kept {s : State} {p : Nat} : Kept s (State.endPeriod s p) := by
  unfold State.endPeriod
  repeat' (first
      | with_reducible exact Kept.refl _ | with_reducible apply Kept.step (State.countWrap_still).kept
      | with_reducible apply Kept.step (State.descBoundary_still).kept | with_reducible apply Kept.step (State.leadOut_still).kept
      | with_reducible apply Kept.step (State.playedOut_kept) | with_reducible apply Kept.step (State.setAport_still).kept
      | with_reducible apply Kept.ite | split | dsimp only)

theorem State.zeroPeriods_still {s : State} {p : Nat} {from_ : Word} {dest : Word} {e0 : Nat} : Still s (State.zeroPeriods s p from_ dest e0) := by
  induction e0 generalizing s p from_ dest with
  | zero =>
    unfold State.zeroPeriods
    with_reducible exact Still.refl _
  | succ n ih =>
    unfold State.zeroPeriods
    repeat' (first
        | with_reducible exact Still.refl _ | with_reducible apply Still.step (ih ..) | with_reducible apply Still.step (State.count32_still)
        | with_reducible apply Still.step (State.setAport_still) | with_reducible apply Still.ite)

theorem State.rejoinPeriod_kept {s : State} {p : Nat} {seq : Word} {from_ : Nat} : Kept s (State.rejoinPeriod s p seq from_) := by
  unfold State.rejoinPeriod
  repeat' (first
      | with_reducible exact Kept.refl _ | with_reducible apply Kept.step (State.openPeriod_kept)
      | with_reducible apply Kept.step (State.setAport_still).kept | with_reducible apply Kept.step (State.setReg_still).kept
      | with_reducible apply Kept.step (State.zeroPeriods_still).kept | with_reducible apply Kept.ite | split | dsimp only)

theorem State.leadInEnds_kept {s : State} {p : Nat} : Kept s (State.leadInEnds s p) := by
  unfold State.leadInEnds
  repeat' (first
      | with_reducible exact Kept.refl _ | with_reducible apply Kept.step (State.openPeriod_kept)
      | with_reducible apply Kept.step (State.rejoinPeriod_kept) | with_reducible apply Kept.step (State.setAgroup_still).kept
      | with_reducible apply Kept.step (State.setAport_still).kept | with_reducible apply Kept.ite | split | dsimp only)

theorem State.leadOutEnds_kept {s : State} {p : Nat} : Kept s (State.leadOutEnds s p) := by
  unfold State.leadOutEnds
  repeat' (first
      | with_reducible exact Kept.refl _ | with_reducible apply Kept.step (State.playedOut_kept)
      | with_reducible apply Kept.step (State.portOff_still).kept | with_reducible apply Kept.step (State.setAport_still).kept
      | with_reducible apply Kept.ite | split)

theorem State.frameBoundary_kept {s : State} {p : Nat} : Kept s (State.frameBoundary s p) := by
  unfold State.frameBoundary
  repeat' (first
      | with_reducible exact Kept.refl _ | with_reducible apply Kept.step (State.applyStaged_still).kept
      | with_reducible apply Kept.step (State.marker_kept) | with_reducible apply Kept.ite)

theorem State.slipOne_kept {s : State} {p : Nat} {f : Nat} {c : Nat} {pos : Nat} : Kept s (State.slipOne s p f c pos) := by
  unfold State.slipOne
  repeat' (first
      | with_reducible exact Kept.refl _ | with_reducible apply Kept.step (State.marker_kept)
      | with_reducible apply Kept.step (State.setAgroup_still).kept | with_reducible apply Kept.step (State.setAport_still).kept | split)

theorem State.captureFrame_kept {s : State} {p : Nat} {samples : List Word} {bad : Bool} {lost : List Nat} :
    Kept s (State.captureFrame s p samples bad lost) := by
  unfold State.captureFrame
  repeat' (first
      | with_reducible exact Kept.refl _ | with_reducible apply Kept.step (State.setAport_still).kept
      | with_reducible apply Kept.step (State.slipOne_kept) | (with_reducible apply Kept.foldl; intro _ _) | split | dsimp only)

theorem State.playFrame_kept {s : State} {p : Nat} {lost : List Nat} : Kept s (State.playFrame s p lost) := by
  unfold State.playFrame
  repeat' (first
      | with_reducible exact Kept.refl _ | with_reducible apply Kept.step (State.setAport_still).kept
      | with_reducible apply Kept.step (State.slipOne_kept) | (with_reducible apply Kept.foldl; intro _ _) | split | dsimp only)

theorem State.groupCount_still {s : State} {p : Nat} : Still s (State.groupCount s p) := by
  unfold State.groupCount
  repeat' (first
      | with_reducible exact Still.refl _ | with_reducible apply Still.step (State.count64_still) | with_reducible apply Still.ite | split)

theorem State.frameEnds_kept {s : State} {p : Nat} : Kept s (State.frameEnds s p) := by
  unfold State.frameEnds
  repeat' (first
      | with_reducible exact Kept.refl _ | with_reducible apply Kept.step (State.endPeriod_kept)
      | with_reducible apply Kept.step (State.leadOut_still).kept | with_reducible apply Kept.step (State.setAport_still).kept
      | with_reducible apply Kept.ite | split | dsimp only)

theorem State.audioFrame_kept {s : State} {p : Nat} {bitClocks : Nat} {samples : List Word} {lost : List Nat} :
    Kept s (State.audioFrame s p bitClocks samples lost) := by
  unfold State.audioFrame
  repeat' (first
      | with_reducible exact Kept.refl _ | with_reducible apply Kept.step (State.captureFrame_kept)
      | with_reducible apply Kept.step (State.count32_still).kept | with_reducible apply Kept.step (State.count64_still).kept
      | with_reducible apply Kept.step (State.frameBoundary_kept) | with_reducible apply Kept.step (State.frameEnds_kept)
      | with_reducible apply Kept.step (State.groupCount_still).kept | with_reducible apply Kept.step (State.openPeriod_kept)
      | with_reducible apply Kept.step (State.playFrame_kept) | with_reducible apply Kept.step (State.setAport_still).kept
      | with_reducible apply Kept.ite)

theorem State.delivered_still {s : State} {p : Nat} : Still s (State.delivered s p) := by
  unfold State.delivered
  repeat' (first | with_reducible exact Still.refl _ | with_reducible apply Still.step (State.setAport_still))

theorem State.discardPeriod_still {s : State} {p : Nat} : Still s (State.discardPeriod s p) := by
  unfold State.discardPeriod
  repeat' (first
      | with_reducible exact Still.refl _ | with_reducible apply Still.step (State.count32_still)
      | with_reducible apply Still.step (State.delivered_still))

theorem State.targetFault_kept {s : State} {b : Nat} {p : Nat} {f : RunFault} : Kept s (State.targetFault s b p f) := by
  unfold State.targetFault
  repeat' (first
      | with_reducible exact Kept.refl _ | with_reducible apply Kept.step (State.discardPeriod_still).kept
      | with_reducible apply Kept.step (State.raiseFault_kept) | with_reducible apply Kept.ite)

theorem State.deliver_kept {s : State} {p : Nat} : Kept s (State.deliver s p) := by
  unfold State.deliver
  repeat' (first
      | with_reducible exact Kept.refl _ | with_reducible apply Kept.step (State.countWrap_still).kept
      | with_reducible apply Kept.step (State.delivered_still).kept | with_reducible apply Kept.step (State.discardPeriod_still).kept
      | with_reducible apply Kept.step (State.pushRun_still).kept | with_reducible apply Kept.step (State.returnBuffer_still).kept
      | with_reducible apply Kept.step (State.targetFault_kept) | with_reducible apply Kept.ite
      | with_reducible refine Kept.fst3 (by assumption) (State.takeBuffer_still).kept ?_
      | with_reducible refine Kept.fst3 (by assumption) (State.writeFrame_kept) ?_
      | with_reducible refine Kept.fst3 (by assumption) (State.writeRun_kept) ?_ | split | dsimp only)

theorem State.addFetched_still {s : State} {p : Nat} {f : Fetched} : Still s (State.addFetched s p f) := by
  unfold State.addFetched
  repeat' (first | with_reducible exact Still.refl _ | with_reducible apply Still.step (State.setAport_still))

theorem State.sourceFault_kept {s : State} {b : Nat} {p : Nat} {f : RunFault} : Kept s (State.sourceFault s b p f) := by
  unfold State.sourceFault
  repeat' (first | with_reducible exact Kept.refl _ | with_reducible apply Kept.step (State.raiseFault_kept))

theorem State.fetchSlot_kept {s : State} {b : Nat} {sid : Nat} {p : Nat} {d : PortDesc} : Kept s (State.fetchSlot s b sid p d) := by
  unfold State.fetchSlot
  repeat' (first
      | with_reducible exact Kept.refl _ | with_reducible apply Kept.step (State.addFetched_still).kept
      | with_reducible apply Kept.step (State.setAport_still).kept | with_reducible apply Kept.step (State.slotSent_kept)
      | with_reducible apply Kept.step (State.sourceFault_kept) | with_reducible apply Kept.ite
      | with_reducible refine Kept.fst3 (by assumption) (State.readRun_still).kept ?_ | split)

theorem State.fetchPeriod_kept {s : State} {p : Nat} : Kept s (State.fetchPeriod s p) := by
  unfold State.fetchPeriod
  repeat' (first
      | with_reducible exact Kept.refl _ | with_reducible apply Kept.step (State.addFetched_still).kept
      | with_reducible apply Kept.step (State.fetchSlot_kept) | with_reducible apply Kept.step (State.popQueue_still).kept
      | with_reducible apply Kept.step (State.sourceFault_kept) | with_reducible apply Kept.ite
      | with_reducible refine Kept.fst3 (by assumption) (State.readRun_still).kept ?_ | split | dsimp only)

theorem State.rateWindow_kept {s : State} {p : Nat} {frames : Nat} {periods : Nat} : Kept s (State.rateWindow s p frames periods) := by
  unfold State.rateWindow
  repeat' (first
      | with_reducible exact Kept.refl _ | with_reducible apply Kept.step (State.latch_still).kept
      | with_reducible apply Kept.step (State.marker_kept) | with_reducible apply Kept.step (State.setAport_still).kept
      | with_reducible apply Kept.step (State.setReg_still).kept | with_reducible apply Kept.ite)

theorem State.reroute_kept {s : State} {p : Nat} {old : Option AudioRoute} : Kept s (State.reroute s p old) := by
  unfold State.reroute
  repeat' (first
      | with_reducible exact Kept.refl _ | with_reducible apply Kept.step (State.dropFetched_still).kept
      | with_reducible apply Kept.step (State.playedOut_kept) | with_reducible apply Kept.step (State.setAport_still).kept
      | with_reducible apply Kept.ite | split)

end Sys2Proof.Machine
end

