-- ==== Sys2Proof/Laws/FramePort.lean ====
section
/-! SUPPORT. What the operations of Machine/Port.lean leave alone: memory and the fuses (`Still`), or the fuses and the form of memory
(`Kept`). -/

namespace Sys2Proof.Machine

theorem State.train_still {s : State} : Still s (State.train s) := by
  unfold State.train
  repeat' (first
      | with_reducible exact Still.refl _ | with_reducible apply Still.step (State.applyStaged_still)
      | with_reducible apply Still.step (State.setPort_still) | with_reducible apply Still.ite)

theorem State.laneLog_still {s : State} {lane : Nat} : Still s (State.laneLog s lane) := by
  unfold State.laneLog
  repeat' (first | with_reducible exact Still.refl _ | with_reducible apply Still.step (State.log_still))

theorem State.laneFailed_still {s : State} {lane : Nat} : Still s (State.laneFailed s lane) := by
  unfold State.laneFailed
  repeat' (first
      | with_reducible exact Still.refl _ | with_reducible apply Still.step (State.applyStaged_still)
      | with_reducible apply Still.step (State.countSat_still) | with_reducible apply Still.step (State.laneLog_still)
      | with_reducible apply Still.step (State.setPort_still) | with_reducible apply Still.step (State.train_still)
      | with_reducible apply Still.ite | split | dsimp only)

theorem State.trained_still {s : State} {w : LinkWidth} {copper : Bool} : Still s (State.trained s w copper) := by
  unfold State.trained
  repeat' (first
      | with_reducible exact Still.refl _ | with_reducible apply Still.step (State.drainEgress_still)
      | with_reducible apply Still.step (State.setPort_still) | with_reducible apply Still.ite)

theorem State.trainFailed_still {s : State} {failed : BitVec 8} : Still s (State.trainFailed s failed) := by
  unfold State.trainFailed
  repeat' (first
      | with_reducible exact Still.refl _ | with_reducible apply Still.step (State.laneLog_still)
      | with_reducible apply Still.step (State.setPort_still) | with_reducible apply Still.ite | (with_reducible apply Still.foldl; intro _ _))

theorem State.restoreLanes_still {s : State} : Still s (State.restoreLanes s) := by
  unfold State.restoreLanes
  repeat' (first
      | with_reducible exact Still.refl _ | with_reducible apply Still.step (State.setPort_still)
      | with_reducible apply Still.step (State.train_still) | with_reducible apply Still.ite)

theorem State.anFallback_still {s : State} : Still s (State.anFallback s) := by
  unfold State.anFallback
  repeat' (first
      | with_reducible exact Still.refl _ | with_reducible apply Still.step (State.setPort_still)
      | with_reducible apply Still.step (State.train_still) | with_reducible apply Still.ite)

theorem State.congested_still {s : State} {t : RateTarget} : Still s (State.congested s t) := by
  unfold State.congested
  repeat' (first
      | with_reducible exact Still.refl _ | with_reducible apply Still.step (State.congestedPeer_still)
      | with_reducible apply Still.step (State.setConn_still) | with_reducible apply Still.ite | split)

theorem State.rateRaise_still {s : State} {t : RateTarget} : Still s (State.rateRaise s t) := by
  unfold State.rateRaise
  repeat' (first
      | with_reducible exact Still.refl _ | with_reducible apply Still.step (State.setConn_still)
      | with_reducible apply Still.step (State.setPeer_still) | split)

theorem State.pauseRx_still {s : State} {priority : Nat} {quanta : Nat} : Still s (State.pauseRx s priority quanta) := by
  unfold State.pauseRx
  repeat' (first
      | with_reducible exact Still.refl _ | with_reducible apply Still.step (State.countWrap_still)
      | with_reducible apply Still.step (State.drainEgress_still) | with_reducible apply Still.step (State.setPort_still)
      | with_reducible apply Still.ite)

theorem State.pauseEnd_still {s : State} {priority : Nat} : Still s (State.pauseEnd s priority) := by
  unfold State.pauseEnd
  repeat' (first
      | with_reducible exact Still.refl _ | with_reducible apply Still.step (State.drainEgress_still)
      | with_reducible apply Still.step (State.setPort_still))

theorem State.rxFill_still {s : State} {priority : Nat} {percent : Nat} : Still s (State.rxFill s priority percent) := by
  unfold State.rxFill
  repeat' (first
      | with_reducible exact Still.refl _ | with_reducible apply Still.step (State.countWrap_still)
      | with_reducible apply Still.step (State.send_still) | with_reducible apply Still.step (State.setPort_still)
      | with_reducible apply Still.ite)

theorem State.roceRx_still {s : State} {c : Fin 4096} {opcode : Nat} {ce : Bool} : Still s (State.roceRx s c opcode ce) := by
  unfold State.roceRx
  repeat' (first
      | with_reducible exact Still.refl _ | with_reducible apply Still.step (State.congested_still)
      | with_reducible apply Still.step (State.countWrap_still) | with_reducible apply Still.step (State.emit_still)
      | with_reducible apply Still.step (State.setConn_still) | with_reducible apply Still.step (State.startError_still)
      | with_reducible apply Still.ite)

theorem State.macsecTake_still {s t : State} {f : EthFrame} (h : State.macsecTake s f = .pass t) : Still s t := by
  unfold State.macsecTake at h
  dsimp only at h
  split at h
  · split at h
    · cases h
    · injection h with h; subst h; exact Still.refl _
  · split at h
    · cases h
    · split at h
      · cases h
      · split at h
        · cases h
        · injection h with h; subst h; exact State.setPort_still

theorem State.frameRx_kept {s0 : State} {f : EthFrame} : Kept s0 (State.frameRx s0 f) := by
  unfold State.frameRx
  repeat' (first
      | with_reducible exact Kept.refl _ | with_reducible apply Kept.step (State.applyAll_still).kept
      | with_reducible apply Kept.step (State.baleRx_kept) | with_reducible apply Kept.step (State.count32_still).kept
      | with_reducible apply Kept.step (State.count64_still).kept | with_reducible apply Kept.step (State.roceRx_still).kept
      | with_reducible refine Kept.step (State.macsecTake_still (by assumption)).kept ?_ | with_reducible apply Kept.ite | split)

end Sys2Proof.Machine
end

