-- ==== Sys2Proof/Laws/FrameRoce.lean ====
section
/-! SUPPORT. What the operations of Machine/Roce.lean leave alone: memory and the fuses (`Still`), or the fuses and the form of memory
(`Kept`). -/

namespace Sys2Proof.Machine

theorem State.pieceAnswered_still {s : State} {i : Nat} {k : ProgKind} : Still s (State.pieceAnswered s i k) := by
  unfold State.pieceAnswered
  repeat' (first
      | with_reducible exact Still.refl _ | with_reducible apply Still.step (State.elementDone_still) | with_reducible apply Still.ite | split)

theorem State.readLands_still {s : State} {i : Nat} {area : Nat} {off : Nat} {bs : Bytes} {chaff : Bool} :
    Still s (State.readLands s i area off bs chaff) := by
  unfold State.readLands
  repeat' (first
      | with_reducible exact Still.refl _ | with_reducible apply Still.step (State.count32_still)
      | with_reducible apply Still.step (State.count64_still) | with_reducible apply Still.step (State.cursorWrite_still)
      | with_reducible apply Still.step (State.setInst_still) | with_reducible apply Still.ite | split)

theorem State.copyHeld_kept {s : State} {b : Nat} {c : Nat} {src : Nat} {len : Nat} {f : RunFault} : Kept s (State.copyHeld s b c src len f) := by
  unfold State.copyHeld
  repeat' (first
      | with_reducible exact Kept.refl _ | with_reducible apply Kept.step (State.copyFault_kept)
      | with_reducible apply Kept.step (State.setChannel_still).kept | with_reducible apply Kept.ite)

theorem State.copyLands_kept {s : State} {b : Nat} {c : Nat} {src : Nat} {dst : Nat} {bs : Bytes} {chaff : Bool} :
    Kept s (State.copyLands s b c src dst bs chaff) := by
  unfold State.copyLands
  repeat' (first
      | with_reducible exact Kept.refl _ | with_reducible apply Kept.step (State.copyHeld_kept)
      | with_reducible apply Kept.step (State.copyProgress_still).kept | with_reducible apply Kept.step (State.physWrite_kept)
      | with_reducible apply Kept.step (State.postWrite_still).kept | with_reducible apply Kept.ite
      | with_reducible refine Kept.fst3 (by assumption) (State.translate_still).kept ?_ | split)

theorem State.gleanedDone_still {s : State} {b : Nat} {serial : Option Nat} : Still s (State.gleanedDone s b serial) := by
  unfold State.gleanedDone
  repeat' (first
      | with_reducible exact Still.refl _ | with_reducible apply Still.step (State.countGlean_still) | with_reducible apply Still.ite | split)

theorem State.requestDone_kept {s : State} {r : ConnRequest} {data : Bytes} {chaff : Bool} : Kept s (State.requestDone s r data chaff) := by
  unfold State.requestDone
  repeat' (first
      | with_reducible exact Kept.refl _ | with_reducible apply Kept.step (State.copyDone_kept)
      | with_reducible apply Kept.step (State.copyLands_kept) | with_reducible apply Kept.step (State.copyProgress_still).kept
      | with_reducible apply Kept.step (State.gleanedDone_still).kept | with_reducible apply Kept.step (State.pieceAnswered_still).kept
      | with_reducible apply Kept.step (State.readLands_still).kept | with_reducible apply Kept.step (State.returnBuffer_still).kept | split)

theorem State.completeRequests_kept {s : State} {c : Nat} {p : Nat × ConnRequest → Bool} {data : Bytes} {chaff : Bool} :
    Kept s (State.completeRequests s c p data chaff) := by
  unfold State.completeRequests
  repeat' (first
      | with_reducible exact Kept.refl _ | with_reducible apply Kept.step (State.releaseWaits_still).kept
      | with_reducible apply Kept.step (State.requestDone_kept) | with_reducible apply Kept.step (State.setConn_still).kept
      | (with_reducible apply Kept.foldl; intro _ _))

theorem State.roceRetry_still {s : State} {c : Nat} {psn : Nat} : Still s (State.roceRetry s c psn) := by
  unfold State.roceRetry
  repeat' (first
      | with_reducible exact Still.refl _ | with_reducible apply Still.step (State.countSat_still)
      | with_reducible apply Still.step (State.emit_still))

theorem State.answerRx_kept {s : State} {c : Nat} {psn : Nat} {a : RoceAnswer} : Kept s (State.answerRx s c psn a) := by
  unfold State.answerRx
  repeat' (first
      | with_reducible exact Kept.refl _ | with_reducible apply Kept.step (State.completeRequests_kept)
      | with_reducible apply Kept.step (State.roceRetry_still).kept | with_reducible apply Kept.step (State.startError_still).kept
      | with_reducible apply Kept.ite | split)

theorem State.answerTimeout_still {s : State} {c : Nat} : Still s (State.answerTimeout s c) := by
  unfold State.answerTimeout
  repeat' (first
      | with_reducible exact Still.refl _ | with_reducible apply Still.step (State.roceRetry_still)
      | with_reducible apply Still.step (State.setConn_still) | with_reducible apply Still.step (State.startError_still)
      | with_reducible apply Still.ite | split | dsimp only)

theorem State.reportError_kept {s : State} {c : Nat} : Kept s (State.reportError s c) := by
  unfold State.reportError
  repeat' (first
      | with_reducible exact Kept.refl _ | with_reducible apply Kept.step (State.drawBytes_still).kept
      | with_reducible apply Kept.step (State.requestDone_kept) | with_reducible apply Kept.step (State.setConn_still).kept
      | (with_reducible apply Kept.foldl; intro _ _) | split | dsimp only)

theorem State.connRefuse_still {s : State} {c : Nat} : Still s (State.connRefuse s c) := by
  unfold State.connRefuse
  repeat' (first | with_reducible exact Still.refl _ | with_reducible apply Still.step (State.setConn_still))

theorem State.openConn_still {s : State} {c : Nat} : Still s (State.openConn s c) := by
  unfold State.openConn
  repeat' (first
      | with_reducible exact Still.refl _ | with_reducible apply Still.step (State.applyAll_still)
      | with_reducible apply Still.step (State.connRefuse_still) | with_reducible apply Still.step (State.setConn_still)
      | with_reducible apply Still.step (State.setReg_still) | with_reducible apply Still.ite)

theorem State.forceError_still {s : State} {c : Nat} : Still s (State.forceError s c) := by
  unfold State.forceError
  repeat' (first
      | with_reducible exact Still.refl _ | with_reducible apply Still.step (State.connRefuse_still)
      | with_reducible apply Still.step (State.setConn_still) | with_reducible apply Still.step (State.startError_still)
      | with_reducible apply Still.ite)

theorem State.resetConn_still {s : State} {c : Nat} : Still s (State.resetConn s c) := by
  unfold State.resetConn
  repeat' (first
      | with_reducible exact Still.refl _ | with_reducible apply Still.step (State.connRefuse_still)
      | with_reducible apply Still.step (State.setConn_still) | with_reducible apply Still.step (State.setReg_still)
      | with_reducible apply Still.ite)

theorem State.answer_still {s : State} {x : Sent} : Still s (State.answer s x) := by
  unfold State.answer
  repeat' (first | with_reducible exact Still.refl _ | with_reducible apply Still.step (State.emit_still))

theorem State.advancePsn_still {s : State} {c : Nat} {n : Nat} : Still s (State.advancePsn s c n) := by
  unfold State.advancePsn
  repeat' (first | with_reducible exact Still.refl _ | with_reducible apply Still.step (State.setConn_still))

theorem State.requestFault_kept {s : State} {c : Nat} {write : Bool} {f : RunFault} {h : RdmaHeld} {psn : Nat} :
    Kept s (State.requestFault s c write f h psn) := by
  unfold State.requestFault
  repeat' (first
      | with_reducible exact Kept.refl _ | with_reducible apply Kept.step (State.answer_still).kept
      | with_reducible apply Kept.step (State.raiseFault_kept) | with_reducible apply Kept.step (State.setConn_still).kept
      | with_reducible apply Kept.step (State.startError_still).kept | with_reducible apply Kept.ite)

theorem State.serveWrite_kept {s : State} {c : Nat} {psn : Nat} {va : Nat} {data : Bytes} : Kept s (State.serveWrite s c psn va data) := by
  unfold State.serveWrite
  repeat' (first
      | with_reducible exact Kept.refl _ | with_reducible apply Kept.step (State.advancePsn_still).kept
      | with_reducible apply Kept.step (State.answer_still).kept | with_reducible apply Kept.step (State.requestFault_kept)
      | with_reducible refine Kept.fst3 (by assumption) (State.writeRun_kept) ?_ | split)

theorem State.serveRead_kept {s : State} {c : Nat} {psn : Nat} {va : Nat} {len : Nat} : Kept s (State.serveRead s c psn va len) := by
  unfold State.serveRead
  repeat' (first
      | with_reducible exact Kept.refl _ | with_reducible apply Kept.step (State.advancePsn_still).kept
      | with_reducible apply Kept.step (State.answer_still).kept | with_reducible apply Kept.step (State.requestFault_kept)
      | with_reducible refine Kept.fst3 (by assumption) (State.readRun_still).kept ?_ | split)

theorem State.serve?_kept {s : State} {req : RoceRequest} {len : Nat} {go : Nat → State} (h : ∀ va, Kept s (go va)) :
    Kept s (State.serve? s req len go) := by
  unfold State.serve?
  dsimp only
  refine Kept.ite (Kept.refl _) (Kept.ite State.answer_still.kept ?_)
  split
  · exact State.answer_still.kept
  · exact h _

theorem State.serveSend_kept {s0 : State} {c : Nat} {psn : Nat} {data : Bytes} : Kept s0 (State.serveSend s0 c psn data) := by
  unfold State.serveSend
  repeat' (first
      | with_reducible exact Kept.refl _ | with_reducible apply Kept.step (State.advancePsn_still).kept
      | with_reducible apply Kept.step (State.answer_still).kept | with_reducible apply Kept.step (State.bindQueue_still).kept
      | with_reducible apply Kept.step (State.pushRun_still).kept | with_reducible apply Kept.step (State.requestFault_kept)
      | with_reducible apply Kept.step (State.returnBuffer_still).kept | with_reducible apply Kept.step (State.startError_still).kept
      | with_reducible apply Kept.ite | with_reducible refine Kept.fst3 (by assumption) (State.takeBuffer_still).kept ?_
      | with_reducible refine Kept.fst3 (by assumption) (State.writeRun_kept) ?_ | split | dsimp only)

theorem State.resumeRdma_kept {s : State} {c : Nat} {abort : Bool} : Kept s (State.resumeRdma s c abort) := by
  unfold State.resumeRdma
  repeat' (first
      | with_reducible exact Kept.refl _ | with_reducible apply Kept.step (State.answer_still).kept
      | with_reducible apply Kept.step (State.serveRead_kept) | with_reducible apply Kept.step (State.serveSend_kept)
      | with_reducible apply Kept.step (State.serveWrite_kept) | with_reducible apply Kept.step (State.setConn_still).kept
      | with_reducible apply Kept.step (State.startError_still).kept | with_reducible apply Kept.ite | split | dsimp only)

end Sys2Proof.Machine
end

