-- ==== Sys2Proof/Laws/FrameFaults.lean ====
section
/-! SUPPORT. What the operations of Machine/Faults.lean leave alone: memory and the fuses (`Still`), or the fuses and the form of memory
(`Kept`). -/

namespace Sys2Proof.Machine

theorem State.resumeEngine_kept {s : State} {i : Nat} : Kept s (State.resumeEngine s i) := by
  unfold State.resumeEngine
  repeat' (first
      | with_reducible exact Kept.refl _ | with_reducible apply Kept.step (State.bseAdvance_kept)
      | with_reducible apply Kept.step (State.passAdvance_kept) | with_reducible apply Kept.step (State.refresh_still).kept
      | with_reducible apply Kept.step (State.scanAgain_kept) | (with_reducible apply Kept.foldl; intro _ _) | split)

theorem State.takeHeld_still {s : State} {id : Nat} : Still s (State.takeHeld s id).1 := by
  unfold State.takeHeld
  repeat' (first | (simp only [Still.upd]; first | with_reducible refine Still.of ?_ | exact ⟨trivial, trivial⟩))

theorem State.resumeMessage_kept {s : State} {id : Nat} : Kept s (State.resumeMessage s id) := by
  unfold State.resumeMessage
  repeat' (first
      | with_reducible exact Kept.refl _ | with_reducible apply Kept.step (State.effect_still).kept
      | with_reducible apply Kept.step (State.takeFrames_kept) | with_reducible apply Kept.step (State.writePiece_kept)
      | with_reducible refine Kept.fst3 (by assumption) (State.takeHeld_still).kept ?_ | split)

theorem State.abortMessage_still {s : State} {id : Nat} : Still s (State.abortMessage s id) := by
  unfold State.abortMessage
  repeat' (first
      | with_reducible exact Still.refl _ | with_reducible apply Still.step (State.count32_still)
      | with_reducible apply Still.step (State.effect_still) | with_reducible apply Still.step (State.pieceLanded_still)
      | with_reducible refine Still.fst3 (by assumption) (State.takeHeld_still) ?_ | split | dsimp only)

theorem State.resumeAudio_kept {s : State} {p : Nat} : Kept s (State.resumeAudio s p) := by
  unfold State.resumeAudio
  repeat' (first
      | with_reducible exact Kept.refl _ | with_reducible apply Kept.step (State.deliver_kept)
      | with_reducible apply Kept.step (State.fetchPeriod_kept) | with_reducible apply Kept.ite)

theorem State.resumeHolder_kept {s : State} {h : FaultHolder} : Kept s (State.resumeHolder s h) := by
  unfold State.resumeHolder
  repeat' (first
      | with_reducible exact Kept.refl _ | with_reducible apply Kept.step (State.chaffOn_kept)
      | with_reducible apply Kept.step (State.copyDone_kept) | with_reducible apply Kept.step (State.holdProgram_still).kept
      | with_reducible apply Kept.step (State.resumeAudio_kept) | with_reducible apply Kept.step (State.resumeEngine_kept)
      | with_reducible apply Kept.step (State.resumeMessage_kept) | with_reducible apply Kept.step (State.resumeRdma_kept)
      | with_reducible apply Kept.step (State.rouse_still).kept | with_reducible apply Kept.step (State.sendSlots_kept)
      | with_reducible apply Kept.step (State.seqHeaders_kept) | with_reducible apply Kept.step (State.setChannel_still).kept
      | with_reducible apply Kept.step (State.startBatch_kept) | with_reducible apply Kept.step (State.tryHeaders_kept)
      | with_reducible apply Kept.ite | split)

theorem State.abortHolder_kept {s : State} {b : Nat} {h : FaultHolder} {cause : FaultCause} : Kept s (State.abortHolder s b h cause) := by
  unfold State.abortHolder
  repeat' (first
      | with_reducible exact Kept.refl _ | with_reducible apply Kept.step (State.abortInst_kept)
      | with_reducible apply Kept.step (State.abortMessage_still).kept | with_reducible apply Kept.step (State.copyFail_still).kept
      | with_reducible apply Kept.step (State.discardPeriod_still).kept | with_reducible apply Kept.step (State.finishRow_kept)
      | with_reducible apply Kept.step (State.freeSlot_still).kept | with_reducible apply Kept.step (State.holdProgram_still).kept
      | with_reducible apply Kept.step (State.refresh_still).kept | with_reducible apply Kept.step (State.resumeRdma_kept)
      | with_reducible apply Kept.step (State.returnRows_still).kept | with_reducible apply Kept.step (State.returnSeq_still).kept
      | with_reducible apply Kept.step (State.returnStream_still).kept | with_reducible apply Kept.step (State.serviceDone_still).kept
      | with_reducible apply Kept.step (State.setSeq_still).kept | with_reducible apply Kept.step (State.setStream_still).kept
      | with_reducible apply Kept.ite | split)

theorem State.endProtected_kept {s : State} : Kept s (State.endProtected s) := by
  unfold State.endProtected
  repeat' (first
      | with_reducible exact Kept.refl _ | with_reducible apply Kept.step (State.abortHolder_kept) | (with_reducible apply Kept.foldl; intro _ _)
      | (simp only [Kept.upd]; first | with_reducible refine Kept.of ?_ | exact ⟨trivial, fun h => h⟩))

theorem State.fqTailOp_kept {s : State} {v : Word} : Kept s (State.fqTailOp s v) := by
  unfold State.fqTailOp
  repeat' (first
      | with_reducible exact Kept.refl _ | with_reducible apply Kept.step (State.endProtected_kept)
      | with_reducible apply Kept.step (State.postWaiting_kept) | with_reducible apply Kept.step (State.setReg_still).kept
      | with_reducible apply Kept.ite | (simp only [Kept.upd]; first | with_reducible refine Kept.of ?_ | exact ⟨trivial, fun h => h⟩))

theorem State.faultResumeOp_kept {s : State} {tag : Nat} {abort : Bool} : Kept s (State.faultResumeOp s tag abort) := by
  unfold State.faultResumeOp
  repeat' (first
      | with_reducible exact Kept.refl _ | with_reducible apply Kept.step (State.abortHolder_kept)
      | with_reducible apply Kept.step (State.resumeHolder_kept) | with_reducible apply Kept.ite
      | (simp only [Kept.upd]; first | with_reducible refine Kept.of ?_ | exact ⟨trivial, fun h => h⟩) | split)

theorem State.freeFrame_still {s : State} {b : Nat} {frame : Nat} {size : Nat} : Still s (State.freeFrame s b frame size) := by
  unfold State.freeFrame
  repeat' (first
      | with_reducible exact Still.refl _ | with_reducible apply Still.step (State.setOwner_still) | with_reducible apply Still.ite
      | (with_reducible apply Still.foldl; intro _ _))

theorem State.releaseHeld_kept {s : State} {m : Migration} : Kept s (State.releaseHeld s m) := by
  unfold State.releaseHeld
  repeat' (first
      | with_reducible exact Kept.refl _ | with_reducible apply Kept.step (State.resumeHolder_kept)
      | (with_reducible apply Kept.foldl; intro _ _)
      | (simp only [Kept.upd]; first | with_reducible refine Kept.of ?_ | exact ⟨trivial, fun h => h⟩))

theorem State.recheckAbsent_kept {s : State} {b : Nat} : Kept s (State.recheckAbsent s b) := by
  unfold State.recheckAbsent
  repeat' (first
      | with_reducible exact Kept.refl _ | with_reducible apply Kept.step (State.recheck_kept)
      | with_reducible apply Kept.step (State.tryPost_kept) | (with_reducible apply Kept.foldl; intro _ _))

theorem State.endMigration_kept {s : State} {m : Migration} {r : TierResult} : Kept s (State.endMigration s m r) := by
  unfold State.endMigration
  repeat' (first
      | with_reducible exact Kept.refl _ | with_reducible apply Kept.step (State.dropCached_still).kept
      | with_reducible apply Kept.step (State.dropMig_still).kept | with_reducible apply Kept.step (State.recheckAbsent_kept)
      | with_reducible apply Kept.step (State.releaseHeld_kept) | with_reducible apply Kept.step (State.spillRun_still).kept
      | with_reducible apply Kept.ite)

theorem State.moveBytes_kept {s : State} {old : Nat} {new : Nat} {len : Nat} : Kept s (State.moveBytes s old new len) := by
  unfold State.moveBytes
  repeat' (first
      | with_reducible exact Kept.refl _ | with_reducible apply Kept.step (State.meetUe_still).kept
      | with_reducible apply Kept.step (State.physCopy_kept)
      | (simp only [Kept.upd]; first | with_reducible refine Kept.of ?_ | exact ⟨trivial, fun h => h⟩))

theorem State.migrationCopied_kept {s : State} {id : Nat} : Kept s (State.migrationCopied s id) := by
  unfold State.migrationCopied
  repeat' (first
      | with_reducible exact Kept.refl _ | with_reducible apply Kept.step (State.count16_still).kept
      | with_reducible apply Kept.step (State.endMigration_kept) | with_reducible apply Kept.step (State.freeFrame_still).kept
      | with_reducible apply Kept.step (State.meetUe_still).kept | with_reducible apply Kept.step (State.moveBytes_kept)
      | with_reducible apply Kept.step (State.physWrite64_kept) | with_reducible apply Kept.step (State.setMig_still).kept
      | with_reducible apply Kept.ite | split)

theorem State.repairPage_still {s : State} : Still s (State.repairPage s) := by
  unfold State.repairPage
  repeat' (first | (simp only [Still.upd]; first | with_reducible refine Still.of ?_ | exact ⟨trivial, trivial⟩))

theorem State.migrationEnd_kept {s : State} {id : Nat} : Kept s (State.migrationEnd s id) := by
  unfold State.migrationEnd
  repeat' (first
      | with_reducible exact Kept.refl _ | with_reducible apply Kept.step (State.dropCached_still).kept
      | with_reducible apply Kept.step (State.endMigration_kept) | with_reducible apply Kept.step (State.freeFrame_still).kept
      | with_reducible apply Kept.step (State.repairPage_still).kept | with_reducible apply Kept.step (State.setSpillList_still).kept
      | with_reducible apply Kept.ite | split)

theorem State.restoreEntry_kept {s : State} {m : Migration} : Kept s (State.restoreEntry s m) := by
  unfold State.restoreEntry
  repeat' (first
      | with_reducible exact Kept.refl _ | with_reducible apply Kept.step (State.freeFrame_still).kept
      | with_reducible apply Kept.step (State.physWrite64_kept) | with_reducible apply Kept.ite)

theorem State.mtCancelOp_kept {s : State} {b : Nat} : Kept s (State.mtCancelOp s b) := by
  unfold State.mtCancelOp
  repeat' (first
      | with_reducible exact Kept.refl _ | with_reducible apply Kept.step (State.endMigration_kept)
      | with_reducible apply Kept.step (State.restoreEntry_kept) | with_reducible apply Kept.step (State.tierResult_still).kept
      | with_reducible apply Kept.ite | split)

theorem State.endMigrations_kept {s : State} : Kept s (State.endMigrations s) := by
  unfold State.endMigrations
  repeat' (first
      | with_reducible exact Kept.refl _ | with_reducible apply Kept.step (State.freeFrame_still).kept
      | with_reducible apply Kept.step (State.restoreEntry_kept) | with_reducible apply Kept.step (State.spillBack_still).kept
      | (with_reducible apply Kept.foldl; intro _ _)
      | (simp only [Kept.upd]; first | with_reducible refine Kept.of ?_ | exact ⟨trivial, fun h => h⟩) | split)

end Sys2Proof.Machine
end

