-- ==== Sys2Proof/Laws/FrameLull.lean ====
section
/-! SUPPORT. What the operations of Machine/Lull.lean leave alone: memory and the fuses (`Still`), or the fuses and the form of memory
(`Kept`). -/

namespace Sys2Proof.Machine

theorem State.enterLull_kept {s : State} {b : Nat} : Kept s (State.enterLull s b) := by
  unfold State.enterLull
  repeat' (first
      | with_reducible exact Kept.refl _ | with_reducible apply Kept.step (State.beginSave_still).kept
      | with_reducible apply Kept.step (State.closeBatch_kept) | with_reducible apply Kept.ite | (with_reducible apply Kept.foldl; intro _ _))

theorem State.askLull_kept {s : State} {b : Nat} {f : Bay → Bay} : Kept s (State.askLull s b f) := by
  unfold State.askLull
  repeat' (first
      | with_reducible exact Kept.refl _ | with_reducible apply Kept.step (State.enterLull_kept)
      | with_reducible apply Kept.step (State.setBay_still).kept | with_reducible apply Kept.ite)

theorem State.resumeBay_kept {s : State} {b : Nat} : Kept s (State.resumeBay s b) := by
  unfold State.resumeBay
  repeat' (first
      | with_reducible exact Kept.refl _ | with_reducible apply Kept.step (State.applyStaged_still).kept
      | with_reducible apply Kept.step (State.drainClosing_kept) | with_reducible apply Kept.step (State.grantAll_still).kept
      | with_reducible apply Kept.step (State.seqTry_kept) | with_reducible apply Kept.step (State.setBay_still).kept
      | with_reducible apply Kept.step (State.tryPost_kept) | (with_reducible apply Kept.foldl; intro _ _))

theorem State.liftLull_kept {s : State} {b : Nat} {f : Bay → Bay} : Kept s (State.liftLull s b f) := by
  unfold State.liftLull
  repeat' (first
      | with_reducible exact Kept.refl _ | with_reducible apply Kept.step (State.resumeBay_kept)
      | with_reducible apply Kept.step (State.setBay_still).kept | with_reducible apply Kept.ite)

theorem State.reachLull_kept {s : State} {b : Nat} : Kept s (State.reachLull s b) := by
  unfold State.reachLull
  repeat' (first
      | with_reducible exact Kept.refl _ | with_reducible apply Kept.step (State.enterLull_kept)
      | with_reducible apply Kept.step (State.setBay_still).kept | with_reducible apply Kept.ite)

theorem State.emptyQueue_still {s : State} {b : Nat} {q : Nat} : Still s (State.emptyQueue s b q) := by
  unfold State.emptyQueue
  repeat' (first
      | with_reducible exact Still.refl _ | with_reducible apply Still.step (State.returnBuffer_still)
      | with_reducible apply Still.step (State.setQueue_still) | (with_reducible apply Still.foldl; intro _ _))

theorem State.settleQueues_still {s : State} {owner : Nat → Option Nat} {b : Nat} : Still s (State.settleQueues s owner b) := by
  unfold State.settleQueues
  repeat' (first
      | with_reducible exact Still.refl _ | with_reducible apply Still.step (State.drainRuns_still)
      | with_reducible apply Still.step (State.emptyQueue_still) | with_reducible apply Still.ite | (with_reducible apply Still.foldl; intro _ _))

theorem State.endContext_still {s : State} {b : Nat} {seq : Bool} {i : Nat} : Still s (State.endContext s b seq i) := by
  unfold State.endContext
  refine State.goIdle_still.step ?_
  cases h : s.withdrawRow b seq i with
  | none => exact State.abandonRow_still
  | some t => exact State.withdrawRow_still h

theorem State.settleStream_still {s : State} {sid : Nat} : Still s (State.settleStream s sid) := by
  unfold State.settleStream
  repeat' (first
      | with_reducible exact Still.refl _ | with_reducible apply Still.step (State.endContext_still)
      | with_reducible apply Still.step (State.goIdle_still) | with_reducible apply Still.step (State.setReg_still)
      | with_reducible apply Still.ite | split)

theorem State.settleSeq_still {s : State} {q : Nat} : Still s (State.settleSeq s q) := by
  unfold State.settleSeq
  repeat' (first
      | with_reducible exact Still.refl _ | with_reducible apply Still.step (State.endContext_still)
      | with_reducible apply Still.step (State.goIdle_still) | with_reducible apply Still.step (State.setReg_still)
      | with_reducible apply Still.ite | split)

theorem State.firstMapping_kept {s : State} {b : Nat} : Kept s (State.firstMapping s b) := by
  unfold State.firstMapping
  repeat' (first
      | with_reducible exact Kept.refl _ | with_reducible apply Kept.step (State.physClear_kept)
      | with_reducible apply Kept.step (State.physWrite64_kept) | with_reducible apply Kept.step (State.setOwner_still).kept
      | with_reducible apply Kept.ite | (with_reducible apply Kept.foldl; intro _ _) | split)

theorem State.layRings_still {s : State} : Still s (State.layRings s) := by
  unfold State.layRings
  repeat' (first | (simp only [Still.upd]; first | with_reducible refine Still.of ?_ | exact ⟨trivial, trivial⟩))

theorem State.poolsIdle_still {s : State} {b : Nat} : Still s (State.poolsIdle s b) := by
  unfold State.poolsIdle
  repeat' (first
      | with_reducible exact Still.refl _ | with_reducible apply Still.step (State.poolIdle_still)
      | (with_reducible apply Still.foldl; intro _ _))

theorem State.dropBay_still {s : State} {b : Nat} : Still s (State.dropBay s b) := by
  unfold State.dropBay
  repeat' (first
      | with_reducible exact Still.refl _ | with_reducible apply Still.step (State.discardEngines_still)
      | with_reducible apply Still.step (State.dropInst_still) | with_reducible apply Still.step (State.gleanRequests_still)
      | with_reducible apply Still.step (State.leaveStall_still) | with_reducible apply Still.step (State.withdraw_still)
      | (with_reducible apply Still.foldl; intro _ _)
      | (simp only [Still.upd]; first | with_reducible refine Still.of ?_ | exact ⟨trivial, trivial⟩))

theorem State.leaveCores_still {s : State} {b : Nat} : Still s (State.leaveCores s b) := by
  unfold State.leaveCores
  repeat' (first
      | with_reducible exact Still.refl _ | with_reducible apply Still.step (State.replayInst_still)
      | (with_reducible apply Still.foldl; intro _ _) | split)

theorem State.gateCores_kept {s : State} : Kept s (State.gateCores s) := by
  unfold State.gateCores
  repeat' (first | (simp only [Kept.upd]; first | with_reducible refine Kept.of ?_ | exact ⟨trivial, fun h => h⟩))

theorem State.applyTables_kept {s : State} {carried : Nat → Bool} : Kept s (State.applyTables s carried) := by
  unfold State.applyTables
  repeat' (first
      | with_reducible exact Kept.refl _ | with_reducible apply Kept.step (State.dropBay_still).kept
      | with_reducible apply Kept.step (State.dropCached_still).kept | with_reducible apply Kept.step (State.firstMapping_kept)
      | with_reducible apply Kept.step (State.gateCores_kept) | with_reducible apply Kept.step (State.layRings_still).kept
      | with_reducible apply Kept.step (State.leaveCores_still).kept | with_reducible apply Kept.step (State.reroute_kept)
      | with_reducible apply Kept.step (State.settleQueues_still).kept | with_reducible apply Kept.step (State.settleSeq_still).kept
      | with_reducible apply Kept.step (State.settleStream_still).kept | with_reducible apply Kept.ite
      | (with_reducible apply Kept.foldl; intro _ _)
      | (simp only [Kept.upd]; first | with_reducible refine Kept.of ?_ | exact ⟨trivial, fun h => h⟩))

end Sys2Proof.Machine
end

