-- ==== Sys2Proof/Laws/FrameResets.lean ====
section
/-! SUPPORT. What the operations of Machine/Resets.lean leave alone: memory and the fuses (`Still`), or the fuses and the form of memory
(`Kept`). -/

namespace Sys2Proof.Machine

theorem State.keepRegs_still {s : State} {kept : Nat → Bool} : Still s (State.keepRegs s kept) := by
  unfold State.keepRegs
  repeat' (first | (simp only [Still.upd]; first | with_reducible refine Still.of ?_ | exact ⟨trivial, trivial⟩))

theorem State.restStream_still {s : State} {sid : Nat} : Still s (State.restStream s sid) := by
  unfold State.restStream
  repeat' (first
      | with_reducible exact Still.refl _ | with_reducible apply Still.step (State.goIdle_still)
      | with_reducible apply Still.step (State.returnStream_still) | with_reducible apply Still.step (State.setStream_still)
      | with_reducible apply Still.ite)

theorem State.restSeq_still {s : State} {q : Nat} : Still s (State.restSeq s q) := by
  unfold State.restSeq
  repeat' (first
      | with_reducible exact Still.refl _ | with_reducible apply Still.step (State.goIdle_still)
      | with_reducible apply Still.step (State.returnSeq_still) | with_reducible apply Still.step (State.setSeq_still)
      | with_reducible apply Still.ite)

theorem State.carryCore_kept {s : State} {from_ : Nat} {dest : Nat} : Kept s (State.carryCore s from_ dest) := by
  unfold State.carryCore
  repeat' (first
      | with_reducible apply Kept.step (State.setCore_still).kept
      | (simp only [Kept.upd]; first | with_reducible refine Kept.of ?_ | exact ⟨trivial, fun h => h⟩))

theorem State.dropMove_kept {s : State} : Kept s (State.dropMove s) := by
  unfold State.dropMove
  repeat' (first
      | with_reducible exact Kept.refl _ | with_reducible apply Kept.step (State.carryCore_kept)
      | with_reducible apply Kept.step (State.setCore_still).kept | with_reducible apply Kept.ite
      | (simp only [Kept.upd]; first | with_reducible refine Kept.of ?_ | exact ⟨trivial, fun h => h⟩) | split)

theorem State.releaseLulls_kept {s : State} : Kept s (State.releaseLulls s) := by
  unfold State.releaseLulls
  repeat' (first
      | with_reducible exact Kept.refl _ | with_reducible apply Kept.step (State.liftLull_kept) | (with_reducible apply Kept.foldl; intro _ _))

theorem State.endLoad_kept {s : State} {code : Nat} {bay : Nat} : Kept s (State.endLoad s code bay) := by
  unfold State.endLoad
  repeat' (first
      | with_reducible exact Kept.refl _ | with_reducible apply Kept.step (State.dropMove_kept)
      | with_reducible apply Kept.step (State.releaseLulls_kept)
      | (simp only [Kept.upd]; first | with_reducible refine Kept.of ?_ | exact ⟨trivial, fun h => h⟩) | split)

theorem State.haltChip_kept {s0 : State} {contexts : Bool} : Kept s0 (State.haltChip s0 contexts) := by
  unfold State.haltChip
  repeat' (first
      | with_reducible exact Kept.refl _ | with_reducible apply Kept.step (State.endMigrations_kept)
      | with_reducible apply Kept.step (State.keepRegs_still).kept | with_reducible apply Kept.step (State.poolsIdle_still).kept
      | with_reducible apply Kept.step (State.restSeq_still).kept | with_reducible apply Kept.step (State.restStream_still).kept
      | with_reducible apply Kept.ite | (with_reducible apply Kept.foldl; intro _ _)
      | (simp only [Kept.upd]; first | with_reducible refine Kept.of ?_ | exact ⟨trivial, fun h => h⟩))

theorem State.bootAgain_still {s : State} : Still s (State.bootAgain s) := by
  unfold State.bootAgain
  repeat' (first | (simp only [Still.upd]; first | with_reducible refine Still.of ?_ | exact ⟨trivial, trivial⟩))

theorem State.warmRestart_kept {s : State} {contexts : Bool} {cause : Nat} {strength : Nat} :
    Kept s (State.warmRestart s contexts cause strength) := by
  unfold State.warmRestart
  repeat' (first
      | with_reducible exact Kept.refl _ | with_reducible apply Kept.step (State.bootAgain_still).kept
      | with_reducible apply Kept.step (State.haltChip_kept) | with_reducible apply Kept.step (State.setReg_still).kept
      | with_reducible apply Kept.ite | (simp only [Kept.upd]; first | with_reducible refine Kept.of ?_ | exact ⟨trivial, fun h => h⟩))

theorem State.removeInst_still {s : State} {i : Nat} {x : Inst} : Still s (State.removeInst s i x) := by
  unfold State.removeInst
  repeat' (first
      | with_reducible exact Still.refl _ | with_reducible apply Still.step (State.discardEngines_still)
      | with_reducible apply Still.step (State.dropInst_still) | with_reducible apply Still.step (State.leaveStall_still)
      | with_reducible apply Still.step (State.withdraw_still))

theorem State.withdrawBay_still {s : State} {b : Nat} : Still s (State.withdrawBay s b) := by
  unfold State.withdrawBay
  repeat' (first | (simp only [Still.upd]; first | with_reducible refine Still.of ?_ | exact ⟨trivial, trivial⟩))

theorem State.bayReset_kept {s : State} {b : Nat} : Kept s (State.bayReset s b) := by
  unfold State.bayReset
  repeat' (first
      | with_reducible exact Kept.refl _ | with_reducible apply Kept.step (State.dropCached_still).kept
      | with_reducible apply Kept.step (State.endLoad_kept) | with_reducible apply Kept.step (State.gleanRequests_still).kept
      | with_reducible apply Kept.step (State.keepRegs_still).kept | with_reducible apply Kept.step (State.poolsIdle_still).kept
      | with_reducible apply Kept.step (State.removeInst_still).kept | with_reducible apply Kept.step (State.restSeq_still).kept
      | with_reducible apply Kept.step (State.restStream_still).kept | with_reducible apply Kept.step (State.setBay_still).kept
      | with_reducible apply Kept.step (State.startError_still).kept | with_reducible apply Kept.step (State.withdrawBay_still).kept
      | with_reducible apply Kept.ite | (with_reducible apply Kept.foldl; intro _ _)
      | (simp only [Kept.upd]; first | with_reducible refine Kept.of ?_ | exact ⟨trivial, fun h => h⟩))

theorem State.coreReset_kept {s : State} {n : Nat} : Kept s (State.coreReset s n) := by
  unfold State.coreReset
  repeat' (first
      | with_reducible exact Kept.refl _ | with_reducible apply Kept.step (State.coreFaulted_kept)
      | with_reducible apply Kept.step (State.keepRegs_still).kept
      | (simp only [Kept.upd]; first | with_reducible refine Kept.of ?_ | exact ⟨trivial, fun h => h⟩))

end Sys2Proof.Machine
end

