-- ==== Sys2Proof/Laws/FrameVane.lean ====
section
/-! SUPPORT. What the operations of Machine/Vane.lean leave alone: memory and the fuses (`Still`), or the fuses and the form of memory
(`Kept`). -/

namespace Sys2Proof.Machine

theorem State.driveAlarmN_still {s : State} : Still s (State.driveAlarmN s) := by
  unfold State.driveAlarmN
  repeat' (first | (simp only [Still.upd]; first | with_reducible refine Still.of ?_ | exact ⟨trivial, trivial⟩))

theorem State.enterAlarm_still {s : State} {code : Nat} {unit : Nat} {action : Nat} : Still s (State.enterAlarm s code unit action) := by
  unfold State.enterAlarm
  repeat' (first
      | with_reducible apply Still.step (State.countWrap_still)
      | (simp only [Still.upd]; first | with_reducible refine Still.of ?_ | exact ⟨trivial, trivial⟩) | split)

theorem State.latchAlarm_still {s : State} {code : Nat} {unit : Nat} : Still s (State.latchAlarm s code unit) := by
  unfold State.latchAlarm
  repeat' (first
      | with_reducible exact Still.refl _ | with_reducible apply Still.step (State.driveAlarmN_still)
      | with_reducible apply Still.step (State.enterAlarm_still) | with_reducible apply Still.step (State.setReg_still)
      | (simp only [Still.upd]; first | with_reducible refine Still.of ?_ | exact ⟨trivial, trivial⟩))

theorem State.holdBays_still {s : State} {f : Bay → Bay} : Still s (State.holdBays s f) := by
  unfold State.holdBays
  repeat' (first | (simp only [Still.upd]; first | with_reducible refine Still.of ?_ | exact ⟨trivial, trivial⟩))

theorem State.enterSafe_still {s : State} {code : Nat} : Still s (State.enterSafe s code) := by
  unfold State.enterSafe
  repeat' (first
      | with_reducible apply Still.step (State.driveAlarmN_still) | with_reducible apply Still.step (State.holdBays_still)
      | (simp only [Still.upd]; first | with_reducible refine Still.of ?_ | exact ⟨trivial, trivial⟩))

theorem State.reviewCauses_still {s : State} : Still s (State.reviewCauses s) := by
  unfold State.reviewCauses
  repeat' (first | (simp only [Still.upd]; first | with_reducible refine Still.of ?_ | exact ⟨trivial, trivial⟩))

theorem State.setCp_still {s : State} {p : Nat} {x : ControlProc} : Still s (State.setCp s p x) := by
  unfold State.setCp
  repeat' (first | (simp only [Still.upd]; first | with_reducible refine Still.of ?_ | exact ⟨trivial, trivial⟩))

theorem State.cpReset_still {s : State} {p : Nat} : Still s (State.cpReset s p) := by
  unfold State.cpReset
  repeat' (first
      | with_reducible apply Still.step (State.countSat_still) | with_reducible apply Still.step (State.log_still)
      | with_reducible apply Still.step (State.repairShown_still) | with_reducible apply Still.step (State.setCp_still)
      | (simp only [Still.upd]; first | with_reducible refine Still.of ?_ | exact ⟨trivial, trivial⟩) | split | dsimp only)

theorem State.powerUp_kept {s : State} {flash : Sec} {address : Option (List Word)} {records : List (Option TrainRecord)} {erasePending : Bool} {straps : BitVec 2} {resetN refclk : Bool}
    {pending : List Instr} {free : Nat} : Kept s (State.powerUp flash address records erasePending straps resetN refclk pending free s.fuses) :=
  ⟨rfl, fun _ => (by decide : Memory.wf [])⟩

theorem State.losePower_kept {s : State} : Kept s (State.losePower s) := by
  unfold State.losePower
  repeat' (first
      | with_reducible exact Kept.refl _ | with_reducible apply Kept.step State.powerUp_kept
      | (simp only [Kept.upd]; first | with_reducible refine Kept.of ?_ | exact ⟨trivial, fun h => h⟩))

theorem State.bayReapply_kept {s : State} {slot : Nat} : Kept s (State.bayReapply s slot) := by
  unfold State.bayReapply
  repeat' (first
      | with_reducible exact Kept.refl _ | with_reducible apply Kept.step (State.applyTables_kept)
      | with_reducible apply Kept.step (State.askLull_kept) | with_reducible apply Kept.ite
      | (simp only [Kept.upd]; first | with_reducible refine Kept.of ?_ | exact ⟨trivial, fun h => h⟩))

theorem State.reapplyAtLull_kept {s : State} {b : Nat} : Kept s (State.reapplyAtLull s b) := by
  unfold State.reapplyAtLull
  repeat' (first
      | with_reducible exact Kept.refl _ | with_reducible apply Kept.step (State.applyTables_kept)
      | with_reducible apply Kept.step (State.liftLull_kept) | with_reducible apply Kept.ite)

theorem State.perform_kept {s : State} {action : Nat} {code : Nat} {unit : Nat} : Kept s (State.perform s action code unit) := by
  unfold State.perform
  repeat' (first
      | with_reducible exact Kept.refl _ | with_reducible apply Kept.step (State.bayReapply_kept)
      | with_reducible apply Kept.step (State.coreReset_kept) | with_reducible apply Kept.step (State.cpReset_still).kept
      | with_reducible apply Kept.step (State.enterSafe_still).kept | with_reducible apply Kept.step (State.losePower_kept)
      | with_reducible apply Kept.step (State.warmRestart_kept) | with_reducible apply Kept.ite | split)

theorem State.act_kept {s : State} {action : Nat} {code : Nat} {unit : Nat} : Kept s (State.act s action code unit) := by
  unfold State.act
  repeat' (first
      | with_reducible exact Kept.refl _ | with_reducible apply Kept.step (State.perform_kept) | with_reducible apply Kept.ite
      | (simp only [Kept.upd]; first | with_reducible refine Kept.of ?_ | exact ⟨trivial, fun h => h⟩))

theorem State.alarm_kept {s : State} {code : Nat} {unit : Nat} : Kept s (State.alarm s code unit) := by
  unfold State.alarm
  repeat' (first
      | with_reducible exact Kept.refl _ | with_reducible apply Kept.step (State.act_kept)
      | with_reducible apply Kept.step (State.latchAlarm_still).kept | with_reducible apply Kept.ite)

theorem State.actDeferred_kept {s : State} : Kept s (State.actDeferred s) := by
  unfold State.actDeferred
  repeat' (first
      | with_reducible exact Kept.refl _ | with_reducible apply Kept.step (State.act_kept) | (with_reducible apply Kept.foldl; intro _ _)
      | (simp only [Kept.upd]; first | with_reducible refine Kept.of ?_ | exact ⟨trivial, fun h => h⟩))

theorem State.setInbox_still {s : State} {k : Nat} {v : Word} : Still s (State.setInbox s k v) := by
  unfold State.setInbox
  repeat' (first | (simp only [Still.upd]; first | with_reducible refine Still.of ?_ | exact ⟨trivial, trivial⟩))

theorem State.mailboxEval_still {s : State} {slot : Nat} {seq : Word} {op : Nat} {body : State → State × Nat} (h_body : ∀ (v0 : State), Still v0 (body v0).1) :
    Still s (State.mailboxEval s slot seq op body) := by
  unfold State.mailboxEval
  repeat' (first
      | with_reducible exact Still.refl _ | with_reducible apply Still.step (h_body _) | with_reducible apply Still.step (State.setReg_still)
      | split)

theorem State.mailboxEval_kept {s : State} {slot : Nat} {seq : Word} {op : Nat} {body : State → State × Nat} (h_body : ∀ (v0 : State), Kept v0 (body v0).1) :
    Kept s (State.mailboxEval s slot seq op body) := by
  unfold State.mailboxEval
  repeat' (first
      | with_reducible exact Kept.refl _ | with_reducible apply Kept.step (h_body _) | with_reducible apply Kept.step (State.setReg_still).kept
      | split)

theorem State.mailbox_still {s : State} {slot : Fin 5} {seq : Word} {op : Nat} {target : Nat} {arg : Word} {body : State → State × Nat} (h_body : ∀ (v0 : State), Still v0 (body v0).1) :
    Still s (State.mailbox s slot seq op target arg body) := by
  unfold State.mailbox
  repeat' (first
      | with_reducible exact Still.refl _ | with_reducible apply Still.step (h_body _)
      | with_reducible apply Still.step (State.mailboxEval_still (fun _ => ?_)) | with_reducible apply Still.step (State.setInbox_still)
      | with_reducible apply Still.ite)

theorem State.mailbox_kept {s : State} {slot : Fin 5} {seq : Word} {op : Nat} {target : Nat} {arg : Word} {body : State → State × Nat} (h_body : ∀ (v0 : State), Kept v0 (body v0).1) :
    Kept s (State.mailbox s slot seq op target arg body) := by
  unfold State.mailbox
  repeat' (first
      | with_reducible exact Kept.refl _ | with_reducible apply Kept.step (h_body _)
      | with_reducible apply Kept.step (State.mailboxEval_kept (fun _ => ?_)) | with_reducible apply Kept.step (State.setInbox_still).kept
      | with_reducible apply Kept.ite)

theorem State.kickOp_still {s : State} {slot : Nat} : Still s (State.kickOp s slot).1 := by
  unfold State.kickOp
  repeat' (first
      | with_reducible exact Still.refl _ | with_reducible apply Still.iteP
      | (simp only [Still.upd]; first | with_reducible refine Still.of ?_ | exact ⟨trivial, trivial⟩))

theorem State.ackAlarms_still {s : State} {code : Nat} : Still s (State.ackAlarms s code) := by
  unfold State.ackAlarms
  repeat' (first
      | with_reducible apply Still.step (State.driveAlarmN_still)
      | (simp only [Still.upd]; first | with_reducible refine Still.of ?_ | exact ⟨trivial, trivial⟩))

theorem State.ackOp_still {s : State} {code : Nat} : Still s (State.ackOp s code).1 := by
  unfold State.ackOp
  repeat' (first | with_reducible exact Still.refl _ | with_reducible apply Still.step (State.ackAlarms_still) | with_reducible apply Still.iteP)

theorem State.setTripOp_still {s : State} {trip : Nat} {value : Nat} : Still s (State.setTripOp s trip value).1 := by
  unfold State.setTripOp
  repeat' (first
      | with_reducible exact Still.refl _ | with_reducible apply Still.step (State.setReg_still) | with_reducible apply Still.iteP | split)

theorem State.setActionOp_still {s : State} {code : Nat} {action : Nat} : Still s (State.setActionOp s code action).1 := by
  unfold State.setActionOp
  repeat' (first
      | with_reducible exact Still.refl _ | with_reducible apply Still.iteP
      | (simp only [Still.upd]; first | with_reducible refine Still.of ?_ | exact ⟨trivial, trivial⟩))

theorem State.leaveSafeOp_kept {s : State} {slot : Nat} : Kept s (State.leaveSafeOp s slot).1 := by
  unfold State.leaveSafeOp
  repeat' (first
      | with_reducible exact Kept.refl _ | with_reducible apply Kept.step (State.driveAlarmN_still).kept
      | with_reducible apply Kept.step (State.reviewCauses_still).kept | with_reducible apply Kept.step (State.warmRestart_kept)
      | with_reducible apply Kept.iteP | (simp only [Kept.upd]; first | with_reducible refine Kept.of ?_ | exact ⟨trivial, fun h => h⟩))

theorem State.chipOp_kept {s : State} {slot : Nat} : Kept s (State.chipOp s slot).1 := by
  unfold State.chipOp
  repeat' (first | with_reducible exact Kept.refl _ | with_reducible apply Kept.step (State.warmRestart_kept) | with_reducible apply Kept.iteP)

theorem State.bayResetOp_kept {s : State} {bay : Nat} : Kept s (State.bayResetOp s bay).1 := by
  unfold State.bayResetOp
  repeat' (first | with_reducible exact Kept.refl _ | with_reducible apply Kept.step (State.bayReset_kept) | with_reducible apply Kept.iteP)

theorem State.coreResetOp_kept {s : State} {core : Nat} : Kept s (State.coreResetOp s core).1 := by
  unfold State.coreResetOp
  repeat' (first | with_reducible exact Kept.refl _ | with_reducible apply Kept.step (State.coreReset_kept) | with_reducible apply Kept.iteP)

theorem State.requestOp_kept {s : State} {slot : Nat} : Kept s (State.requestOp s slot).1 := by
  unfold State.requestOp
  repeat' (first
      | with_reducible exact Kept.refl _ | with_reducible apply Kept.step (State.ackOp_still).kept
      | with_reducible apply Kept.step (State.bayResetOp_kept) | with_reducible apply Kept.step (State.chipOp_kept)
      | with_reducible apply Kept.step (State.coreResetOp_kept) | with_reducible apply Kept.step (State.kickOp_still).kept
      | with_reducible apply Kept.step (State.leaveSafeOp_kept) | with_reducible apply Kept.step (State.setActionOp_still).kept
      | with_reducible apply Kept.step (State.setTripOp_still).kept | split | dsimp only)

theorem State.inboxWrite_kept {s : State} {slot : Nat} {word : Nat} {v : Word} : Kept s (State.inboxWrite s slot word v) := by
  unfold State.inboxWrite
  repeat' (first
      | with_reducible exact Kept.refl _ | with_reducible apply Kept.step (State.mailboxEval_kept (fun _ => ?_))
      | with_reducible apply Kept.step (State.requestOp_kept) | with_reducible apply Kept.step (State.setInbox_still).kept
      | with_reducible apply Kept.ite)

theorem State.resetLow_kept {s : State} : Kept s (State.resetLow s) := by
  unfold State.resetLow
  repeat' (first
      | with_reducible apply Kept.step (State.driveAlarmN_still).kept | with_reducible apply Kept.step (State.warmRestart_kept)
      | (simp only [Kept.upd]; first | with_reducible refine Kept.of ?_ | exact ⟨trivial, fun h => h⟩) | split)

theorem State.startOn_kept {s : State} : Kept s (State.startOn s) := by
  unfold State.startOn
  repeat' (first
      | with_reducible exact Kept.refl _ | with_reducible apply Kept.step (State.actDeferred_kept)
      | with_reducible apply Kept.step (State.driveAlarmN_still).kept | with_reducible apply Kept.step State.powerUp_kept
      | (simp only [Kept.upd]; first | with_reducible refine Kept.of ?_ | exact ⟨trivial, fun h => h⟩))

theorem State.resetHigh_kept {s : State} : Kept s (State.resetHigh s) := by
  unfold State.resetHigh
  repeat' (first
      | with_reducible apply Kept.step (State.bootAgain_still).kept | with_reducible apply Kept.step (State.startOn_kept)
      | with_reducible apply Kept.ite | (simp only [Kept.upd]; first | with_reducible refine Kept.of ?_ | exact ⟨trivial, fun h => h⟩) | split)

theorem State.startWatch_still {s : State} : Still s (State.startWatch s) := by
  unfold State.startWatch
  repeat' (first | (simp only [Still.upd]; first | with_reducible refine Still.of ?_ | exact ⟨trivial, trivial⟩))

theorem State.restoreTiming_still {s : State} : Still s (State.restoreTiming s) := by
  unfold State.restoreTiming
  repeat' (first | (simp only [Still.upd]; first | with_reducible refine Still.of ?_ | exact ⟨trivial, trivial⟩))

theorem State.restartEnd_kept {s : State} : Kept s (State.restartEnd s) := by
  unfold State.restartEnd
  repeat' (first
      | with_reducible exact Kept.refl _ | with_reducible apply Kept.step (State.actDeferred_kept)
      | with_reducible apply Kept.step (State.applyTables_kept) | with_reducible apply Kept.step (State.driveAlarmN_still).kept
      | with_reducible apply Kept.step (State.holdBays_still).kept | with_reducible apply Kept.step (State.log_still).kept
      | with_reducible apply Kept.step (State.restoreTiming_still).kept | with_reducible apply Kept.step (State.startWatch_still).kept
      | with_reducible apply Kept.step (State.train_still).kept | with_reducible apply Kept.ite
      | (simp only [Kept.upd]; first | with_reducible refine Kept.of ?_ | exact ⟨trivial, fun h => h⟩))

end Sys2Proof.Machine
end

