-- ==== Sys2Proof/Laws/FramePower.lean ====
section
/-! SUPPORT. What the operations of Machine/Power.lean leave alone: memory and the fuses (`Still`), or the fuses and the form of memory
(`Kept`). -/

namespace Sys2Proof.Machine

theorem State.powerOn_kept {s : State} : Kept s (State.powerOn s) := by
  unfold State.powerOn
  repeat' (first
      | with_reducible exact Kept.refl _ | with_reducible apply Kept.step State.powerUp_kept
      | (simp only [Kept.upd]; first | with_reducible refine Kept.of ?_ | exact ⟨trivial, fun h => h⟩))

theorem State.restoreAddress_still {s : State} : Still s (State.restoreAddress s) := by
  unfold State.restoreAddress
  repeat' (first
      | with_reducible exact Still.refl _ | with_reducible apply Still.step (State.setReg_still) | with_reducible apply Still.ite
      | (with_reducible apply Still.foldl; intro _ _) | split)

theorem State.trainWith_still {s : State} {u : Nat} {identity : Bytes} {full : Bool} : Still s (State.trainWith s u identity full).1 := by
  unfold State.trainWith
  repeat' (first
      | with_reducible exact Still.refl _ | with_reducible apply Still.step (State.draw_still)
      | with_reducible refine Still.snd3 (by assumption) (State.draw_still) ?_ | split)

theorem State.storeRecord_still {s : State} {u : Nat} {r : TrainRecord} : Still s (State.storeRecord s u r) := by
  unfold State.storeRecord
  repeat' (first | (simp only [Still.upd]; first | with_reducible refine Still.of ?_ | exact ⟨trivial, trivial⟩))

theorem State.trainUnit_still {s : State} {u : Nat} {identity : Bytes} : Still s (State.trainUnit s u identity) := by
  unfold State.trainUnit
  repeat' (first
      | with_reducible exact Still.refl _ | with_reducible apply Still.step (State.storeRecord_still)
      | with_reducible apply Still.step (State.trainWith_still))

theorem State.trainChannel_still {s : State} {g : Nat} {full : Bool} : Still s (State.trainChannel s g full) := by
  unfold State.trainChannel
  repeat' (first
      | with_reducible exact Still.refl _ | with_reducible apply Still.step (State.trainWith_still)
      | (simp only [Still.upd]; first | with_reducible refine Still.of ?_ | exact ⟨trivial, trivial⟩))

theorem State.trainTiers_still {s : State} : Still s (State.trainTiers s) := by
  unfold State.trainTiers
  repeat' (first
      | with_reducible exact Still.refl _ | with_reducible apply Still.step (State.draw_still)
      | with_reducible apply Still.step (State.log_still) | with_reducible apply Still.step (State.trainChannel_still)
      | with_reducible apply Still.step (State.trainUnit_still) | (with_reducible apply Still.foldl; intro _ _)
      | (simp only [Still.upd]; first | with_reducible refine Still.of ?_ | exact ⟨trivial, trivial⟩))

theorem State.startupEnd_kept {s : State} : Kept s (State.startupEnd s) := by
  unfold State.startupEnd
  repeat' (first
      | with_reducible exact Kept.refl _ | with_reducible apply Kept.step (State.actDeferred_kept)
      | with_reducible apply Kept.step (State.driveAlarmN_still).kept | with_reducible apply Kept.step (State.log_still).kept
      | with_reducible apply Kept.step (State.restoreAddress_still).kept | with_reducible apply Kept.step (State.startWatch_still).kept
      | with_reducible apply Kept.step (State.train_still).kept | with_reducible apply Kept.step (State.trainTiers_still).kept
      | (simp only [Kept.upd]; first | with_reducible refine Kept.of ?_ | exact ⟨trivial, fun h => h⟩))

theorem State.channelOnline_kept {s : State} {g : Nat} : Kept s (State.channelOnline s g) := by
  unfold State.channelOnline
  repeat' (first
      | with_reducible exact Kept.refl _ | with_reducible apply Kept.step (State.physClear_kept)
      | with_reducible apply Kept.step (State.storeRecord_still).kept | with_reducible apply Kept.ite
      | (simp only [Kept.upd]; first | with_reducible refine Kept.of ?_ | exact ⟨trivial, fun h => h⟩) | split)

theorem State.setPmc_still {s : State} {p : Pmc} : Still s (State.setPmc s p) := by
  unfold State.setPmc
  repeat' (first | (simp only [Still.upd]; first | with_reducible refine Still.of ?_ | exact ⟨trivial, trivial⟩))

theorem State.senseAlarm_kept {s : State} {beyond : Bool} {code : Nat} {unit : Nat} : Kept s (State.senseAlarm s beyond code unit) := by
  unfold State.senseAlarm
  repeat' (first
      | with_reducible exact Kept.refl _ | with_reducible apply Kept.step (State.alarm_kept)
      | with_reducible apply Kept.step (State.reviewCauses_still).kept | with_reducible apply Kept.ite)

theorem State.watchdog_kept {s : State} {p : Nat} : Kept s (State.watchdog s p) := by
  unfold State.watchdog
  repeat' (first
      | with_reducible exact Kept.refl _ | with_reducible apply Kept.step (State.act_kept) | with_reducible apply Kept.step (State.alarm_kept)
      | with_reducible apply Kept.step (State.setCp_still).kept | with_reducible apply Kept.ite
      | (simp only [Kept.upd]; first | with_reducible refine Kept.of ?_ | exact ⟨trivial, fun h => h⟩))

theorem State.capInterval_still {s : State} {watts : Nat} : Still s (State.capInterval s watts) := by
  unfold State.capInterval
  repeat' (first
      | with_reducible exact Still.refl _ | with_reducible apply Still.step (State.applyAll_still)
      | with_reducible apply Still.step (State.setPmc_still))

theorem State.predict_still {s : State} {junctions : List Nat} {lofts : List Nat} : Still s (State.predict s junctions lofts) := by
  unfold State.predict
  repeat' (first | with_reducible exact Still.refl _ | with_reducible apply Still.step (State.setPmc_still))

theorem State.drooped_kept {s : State} {island : Nat} {share : Nat} : Kept s (State.drooped s island share) := by
  unfold State.drooped
  repeat' (first
      | with_reducible exact Kept.refl _ | with_reducible apply Kept.step (State.alarm_kept)
      | with_reducible apply Kept.step (State.setPmc_still).kept | with_reducible apply Kept.ite)

end Sys2Proof.Machine
end

