-- ==== Sys2Proof/Laws/FrameLoader.lean ====
section
/-! SUPPORT. What the operations of Machine/Loader.lean leave alone: memory and the fuses (`Still`), or the fuses and the form of memory
(`Kept`). -/

namespace Sys2Proof.Machine

theorem State.rejectLoad_still {s : State} {r : Reject} : Still s (State.rejectLoad s r) := by
  unfold State.rejectLoad
  repeat' (first | (simp only [Still.upd]; first | with_reducible refine Still.of ?_ | exact ⟨trivial, trivial⟩))

theorem State.readImage_still {s : State} {len : Nat} : Still s (State.readImage s len) := by
  unfold State.readImage
  repeat' (first | with_reducible exact Still.refl _ | with_reducible apply Still.step (State.meetUe_still))

theorem State.receivedMore_still {s : State} : Still s (State.receivedMore s) := by
  unfold State.receivedMore
  repeat' (first
      | with_reducible exact Still.refl _ | with_reducible apply Still.step (State.readImage_still)
      | with_reducible apply Still.step (State.rejectLoad_still) | with_reducible apply Still.ite
      | (simp only [Still.upd]; first | with_reducible refine Still.of ?_ | exact ⟨trivial, trivial⟩) | split)

theorem State.cfgData_kept {s0 : State} {p : Nat} {off : Nat} {data : Bytes} : Kept s0 (State.cfgData s0 p off data) := by
  unfold State.cfgData
  repeat' (first
      | with_reducible exact Kept.refl _ | with_reducible apply Kept.step (State.count32_still).kept
      | with_reducible apply Kept.step (State.effect_still).kept | with_reducible apply Kept.step (State.physWrite_kept)
      | with_reducible apply Kept.step (State.receivedMore_still).kept | with_reducible apply Kept.step (State.roleRefused_still).kept
      | with_reducible apply Kept.step (State.takeMsg_still).kept | with_reducible apply Kept.ite
      | (simp only [Kept.upd]; first | with_reducible refine Kept.of ?_ | exact ⟨trivial, fun h => h⟩))

theorem State.verified_still {s0 : State} : Still s0 (State.verified s0) := by
  unfold State.verified
  repeat' (first
      | with_reducible exact Still.refl _ | with_reducible apply Still.step (State.readImage_still)
      | with_reducible apply Still.step (State.rejectLoad_still) | with_reducible apply Still.ite
      | (simp only [Still.upd]; first | with_reducible refine Still.of ?_ | exact ⟨trivial, trivial⟩) | split | dsimp only)

theorem State.cfgRefuse_still {s : State} {code : Nat} {bay : Nat} : Still s (State.cfgRefuse s code bay) := by
  unfold State.cfgRefuse
  repeat' (first | (simp only [Still.upd]; first | with_reducible refine Still.of ?_ | exact ⟨trivial, trivial⟩))

theorem State.cfgLoadOp_still {s : State} : Still s (State.cfgLoadOp s) := by
  unfold State.cfgLoadOp
  repeat' (first
      | with_reducible exact Still.refl _ | with_reducible apply Still.step (State.cfgRefuse_still)
      | with_reducible apply Still.step (State.unlatch_still) | with_reducible apply Still.ite
      | (simp only [Still.upd]; first | with_reducible refine Still.of ?_ | exact ⟨trivial, trivial⟩))

theorem State.beginCommit_still {s : State} : Still s (State.beginCommit s) := by
  unfold State.beginCommit
  repeat' (first | (simp only [Still.upd]; first | with_reducible refine Still.of ?_ | exact ⟨trivial, trivial⟩))

theorem State.loaderGoesOn_still {s : State} : Still s (State.loaderGoesOn s) := by
  unfold State.loaderGoesOn
  repeat' (first
      | with_reducible exact Still.refl _ | with_reducible apply Still.step (State.beginCommit_still) | with_reducible apply Still.ite
      | (simp only [Still.upd]; first | with_reducible refine Still.of ?_ | exact ⟨trivial, trivial⟩) | split)

theorem State.requestLulls_kept {s : State} {set : BitVec 16} : Kept s (State.requestLulls s set) := by
  unfold State.requestLulls
  repeat' (first
      | with_reducible exact Kept.refl _ | with_reducible apply Kept.step (State.askLull_kept)
      | with_reducible apply Kept.step (State.loaderGoesOn_still).kept | (with_reducible apply Kept.foldl; intro _ _)
      | (simp only [Kept.upd]; first | with_reducible refine Kept.of ?_ | exact ⟨trivial, fun h => h⟩))

theorem State.cfgCommitOp_kept {s : State} : Kept s (State.cfgCommitOp s) := by
  unfold State.cfgCommitOp
  repeat' (first | with_reducible exact Kept.refl _ | with_reducible apply Kept.step (State.requestLulls_kept) | with_reducible apply Kept.ite)

theorem State.cfgAckOp_still {s : State} : Still s (State.cfgAckOp s) := by
  unfold State.cfgAckOp
  repeat' (first
      | with_reducible exact Still.refl _ | with_reducible apply Still.ite
      | (simp only [Still.upd]; first | with_reducible refine Still.of ?_ | exact ⟨trivial, trivial⟩))

theorem State.cfgAbortOp_kept {s : State} : Kept s (State.cfgAbortOp s) := by
  unfold State.cfgAbortOp
  repeat' (first
      | with_reducible exact Kept.refl _ | with_reducible apply Kept.step (State.cfgAckOp_still).kept
      | with_reducible apply Kept.step (State.endLoad_kept) | split)

theorem State.cfgResumeOp_kept {s : State} : Kept s (State.cfgResumeOp s) := by
  unfold State.cfgResumeOp
  repeat' (first
      | with_reducible exact Kept.refl _ | with_reducible apply Kept.step (State.liftLull_kept) | with_reducible apply Kept.ite
      | (with_reducible apply Kept.foldl; intro _ _)
      | (simp only [Kept.upd]; first | with_reducible refine Kept.of ?_ | exact ⟨trivial, fun h => h⟩))

theorem State.moveOp_still {s : State} {bay : Nat} {core : Nat} {join : Bool} : Still s (State.moveOp s bay core join) := by
  unfold State.moveOp
  repeat' (first
      | with_reducible exact Still.refl _ | with_reducible apply Still.step (State.cfgRefuse_still)
      | with_reducible apply Still.step (State.setCore_still) | with_reducible apply Still.step (State.unlatch_still)
      | with_reducible apply Still.ite | (simp only [Still.upd]; first | with_reducible refine Still.of ?_ | exact ⟨trivial, trivial⟩) | split)

theorem State.moveLog_still {s : State} {m : MoveOp} {code : Nat} : Still s (State.moveLog s m code) := by
  unfold State.moveLog
  repeat' (first
      | with_reducible exact Still.refl _ | with_reducible apply Still.step (State.log_still)
      | with_reducible apply Still.step (State.repairShown_still))

theorem State.selfTested_kept {s : State} {pass : Bool} : Kept s (State.selfTested s pass) := by
  unfold State.selfTested
  repeat' (first
      | with_reducible exact Kept.refl _ | with_reducible apply Kept.step (State.cfgRefuse_still).kept
      | with_reducible apply Kept.step (State.dropMove_kept) | with_reducible apply Kept.step (State.moveLog_still).kept
      | with_reducible apply Kept.step (State.requestLulls_kept) | with_reducible apply Kept.step (State.setCore_still).kept
      | with_reducible apply Kept.ite | (simp only [Kept.upd]; first | with_reducible refine Kept.of ?_ | exact ⟨trivial, fun h => h⟩) | split)

theorem State.moveCopied_kept {s : State} : Kept s (State.moveCopied s) := by
  unfold State.moveCopied
  repeat' (first
      | with_reducible exact Kept.refl _ | with_reducible apply Kept.step (State.carryCore_kept) | with_reducible apply Kept.ite
      | (simp only [Kept.upd]; first | with_reducible refine Kept.of ?_ | exact ⟨trivial, fun h => h⟩) | split)

theorem State.lullBit_kept {s : State} {b : Nat} {on : Bool} : Kept s (State.lullBit s b on) := by
  unfold State.lullBit
  repeat' (first
      | with_reducible exact Kept.refl _ | with_reducible apply Kept.step (State.askLull_kept)
      | with_reducible apply Kept.step (State.liftLull_kept) | with_reducible apply Kept.ite)

theorem State.awaitRef_still {s : State} : Still s (State.awaitRef s) := by
  unfold State.awaitRef
  repeat' (first | (simp only [Still.upd]; first | with_reducible refine Still.of ?_ | exact ⟨trivial, trivial⟩))

theorem State.copyADone_still {s : State} : Still s (State.copyADone s) := by
  unfold State.copyADone
  repeat' (first
      | with_reducible exact Still.refl _ | with_reducible apply Still.step (State.awaitRef_still)
      | with_reducible apply Still.step (State.log_still) | with_reducible apply Still.ite
      | (simp only [Still.upd]; first | with_reducible refine Still.of ?_ | exact ⟨trivial, trivial⟩))

theorem State.copyBDone_kept {s : State} : Kept s (State.copyBDone s) := by
  unfold State.copyBDone
  repeat' (first
      | with_reducible exact Kept.refl _ | with_reducible apply Kept.step (State.applyTables_kept)
      | with_reducible apply Kept.step (State.setCore_still).kept | with_reducible apply Kept.ite
      | (simp only [Kept.upd]; first | with_reducible refine Kept.of ?_ | exact ⟨trivial, fun h => h⟩) | split)

theorem State.tablesIn_kept {s : State} : Kept s (State.tablesIn s) := by
  unfold State.tablesIn
  repeat' (first
      | with_reducible exact Kept.refl _ | with_reducible apply Kept.step (State.awaitRef_still).kept
      | with_reducible apply Kept.step (State.latch_still).kept | with_reducible apply Kept.step (State.liftLull_kept)
      | with_reducible apply Kept.step (State.moveLog_still).kept | with_reducible apply Kept.ite | (with_reducible apply Kept.foldl; intro _ _)
      | (simp only [Kept.upd]; first | with_reducible refine Kept.of ?_ | exact ⟨trivial, fun h => h⟩) | split)

theorem State.floorOp_still {s : State} {v : Word} : Still s (State.floorOp s v) := by
  unfold State.floorOp
  repeat' (first | (simp only [Still.upd]; first | with_reducible refine Still.of ?_ | exact ⟨trivial, trivial⟩))

theorem State.refOp_still {s : State} {v : Word} : Still s (State.refOp s v) := by
  unfold State.refOp
  repeat' (first
      | with_reducible exact Still.refl _ | with_reducible apply Still.step (State.setReg_still)
      | with_reducible apply Still.step (State.stage_still)
      | (simp only [Still.upd]; first | with_reducible refine Still.of ?_ | exact ⟨trivial, trivial⟩))

theorem State.mismatchSlot_still {s : State} : Still s (State.mismatchSlot s).1 := by
  unfold State.mismatchSlot
  repeat' (first | with_reducible exact Still.refl _ | with_reducible apply Still.step (State.draw_still) | split)

theorem State.sweepEnd_kept {s : State} : Kept s (State.sweepEnd s) := by
  unfold State.sweepEnd
  repeat' (first
      | with_reducible exact Kept.refl _ | with_reducible apply Kept.step (State.alarm_kept)
      | with_reducible apply Kept.step (State.applyStaged_still).kept | with_reducible apply Kept.step (State.count16_still).kept
      | with_reducible apply Kept.step (State.countWrap_still).kept | with_reducible apply Kept.step (State.mismatchSlot_still).kept
      | with_reducible apply Kept.step (State.setReg_still).kept | with_reducible apply Kept.ite
      | (simp only [Kept.upd]; first | with_reducible refine Kept.of ?_ | exact ⟨trivial, fun h => h⟩))

end Sys2Proof.Machine
end

