-- ==== Sys2Proof/Laws/FrameSecurity.lean ====
section
/-! SUPPORT. What the operations of Machine/Security.lean leave alone: memory and the fuses (`Still`), or the fuses and the form of memory
(`Kept`). -/

namespace Sys2Proof.Machine

theorem State.mgmtReply_still {s : State} {p : Nat} {op : Nat} {tag : BitVec 16} {status : Nat} {body : Bytes} :
    Still s (State.mgmtReply s p op tag status body) := by
  unfold State.mgmtReply
  repeat' (first | with_reducible exact Still.refl _ | with_reducible apply Still.step (State.post_still))

theorem State.mgmt_still {s : State} {p : Nat} {op : Nat} {tag : BitVec 16} {role : Role} {body : State → State × Nat × Bytes} (h_body : ∀ (v0 : State), Still v0 (body v0).1) :
    Still s (State.mgmt s p op tag role body) := by
  unfold State.mgmt
  repeat' (first
      | with_reducible exact Still.refl _ | with_reducible apply Still.step (h_body _) | with_reducible apply Still.step (State.effectOf_still)
      | with_reducible apply Still.step (State.mgmtReply_still) | with_reducible apply Still.step (State.refuseMsg_still)
      | with_reducible apply Still.step (State.roleRefused_still) | with_reducible apply Still.ite)

theorem State.mgmt_kept {s : State} {p : Nat} {op : Nat} {tag : BitVec 16} {role : Role} {body : State → State × Nat × Bytes} (h_body : ∀ (v0 : State), Kept v0 (body v0).1) :
    Kept s (State.mgmt s p op tag role body) := by
  unfold State.mgmt
  repeat' (first
      | with_reducible exact Kept.refl _ | with_reducible apply Kept.step (h_body _) | with_reducible apply Kept.step (State.effectOf_still).kept
      | with_reducible apply Kept.step (State.mgmtReply_still).kept | with_reducible apply Kept.step (State.refuseMsg_still).kept
      | with_reducible apply Kept.step (State.roleRefused_still).kept | with_reducible apply Kept.ite)

theorem State.unbound_still {s : State} {source : NetEnd} {op : Nat} {tag : BitVec 16} {status : Nat} {body : Bytes} :
    Still s (State.unbound s source op tag status body) := by
  unfold State.unbound
  repeat' (first | with_reducible exact Still.refl _ | with_reducible apply Still.step (State.emit_still))

theorem State.setSec_still {s : State} {x : Sec} : Still s (State.setSec s x) := by
  unfold State.setSec
  repeat' (first | (simp only [Still.upd]; first | with_reducible refine Still.of ?_ | exact ⟨trivial, trivial⟩))

theorem State.closeWhere_still {s : State} {f : Session → Bool} : Still s (State.closeWhere s f) := by
  unfold State.closeWhere
  repeat' (first
      | with_reducible exact Still.refl _ | with_reducible apply Still.step (State.closeSession_still)
      | (with_reducible apply Still.foldl; intro _ _))

theorem State.claim_still {s : State} {record : Bytes} : Still s (State.claim s record).1 := by
  unfold State.claim
  repeat' (first | with_reducible exact Still.refl _ | with_reducible apply Still.step (State.setSec_still) | split)

theorem State.fillEntry_kept {s : State} {p : Nat} {address : Bytes} {port : BitVec 16} {mac : Bytes} {vlan : BitVec 12} {ipv6 : Bool} :
    Kept s (State.fillEntry s p address port mac vlan ipv6) := by
  unfold State.fillEntry
  repeat' (first
      | with_reducible exact Kept.refl _ | with_reducible apply Kept.step (State.resetPeer_kept)
      | with_reducible apply Kept.step (State.setReg_still).kept | (with_reducible apply Kept.foldl; intro _ _))

theorem State.openFailed_still {s : State} : Still s (State.openFailed s) := by
  unfold State.openFailed
  repeat' (first | with_reducible exact Still.refl _ | with_reducible apply Still.step (State.count16_still))

theorem State.openTake_kept {s : State} {address : Bytes} {port : BitVec 16} {mac : Bytes} {vlan : BitVec 12} {ipv6 : Bool} {tag : BitVec 16} {payload : Bytes} :
    Kept s (State.openTake s address port mac vlan ipv6 tag payload) := by
  unfold State.openTake
  repeat' (first
      | with_reducible exact Kept.refl _ | with_reducible apply Kept.step (State.fillEntry_kept)
      | with_reducible apply Kept.step (State.setSec_still).kept | with_reducible apply Kept.step (State.unbound_still).kept
      | with_reducible apply Kept.ite)

theorem State.dropOpening_kept {s : State} {o : Opening} : Kept s (State.dropOpening s o) := by
  unfold State.dropOpening
  repeat' (first
      | with_reducible exact Kept.refl _ | with_reducible apply Kept.step (State.resetPeer_kept)
      | with_reducible apply Kept.step (State.setReg_still).kept | with_reducible apply Kept.step (State.setSec_still).kept
      | with_reducible apply Kept.ite | (with_reducible apply Kept.foldl; intro _ _))

theorem State.openSession_still {s : State} {o : Opening} {tag : BitVec 16} : Still s (State.openSession s o tag) := by
  unfold State.openSession
  repeat' (first
      | with_reducible exact Still.refl _ | with_reducible apply Still.step (State.countWrap_still)
      | with_reducible apply Still.step (State.dropFrames_still) | with_reducible apply Still.step (State.log_still)
      | with_reducible apply Still.step (State.pump_still) | with_reducible apply Still.step (State.setPeer_still)
      | with_reducible apply Still.step (State.setSec_still))

theorem State.installKey_still {s : State} {kind : Nat} {key : Bytes} : Still s (State.installKey s kind key).1 := by
  unfold State.installKey
  repeat' (first | with_reducible exact Still.refl _ | with_reducible apply Still.step (State.setSec_still) | with_reducible apply Still.iteP)

theorem State.removeKey_still {s : State} {kind : Nat} {digest : Bytes} : Still s (State.removeKey s kind digest).1 := by
  unfold State.removeKey
  repeat' (first | with_reducible exact Still.refl _ | with_reducible apply Still.step (State.setSec_still) | with_reducible apply Still.iteP)

theorem State.raiseFloor_still {s : State} {floor : W64} : Still s (State.raiseFloor s floor).1 := by
  unfold State.raiseFloor
  repeat' (first | with_reducible exact Still.refl _ | with_reducible apply Still.step (State.setSec_still) | with_reducible apply Still.iteP)

theorem State.clearSaks_still {s : State} : Still s (State.clearSaks s) := by
  unfold State.clearSaks
  repeat' (first | with_reducible exact Still.refl _ | with_reducible apply Still.step (State.setPort_still))

theorem State.stageTag_still {s : State} {off : Nat} {data : Bytes} : Still s (State.stageTag s off data).1 := by
  unfold State.stageTag
  repeat' (first | with_reducible exact Still.refl _ | with_reducible apply Still.step (State.setSec_still) | with_reducible apply Still.iteP)

theorem State.commitTag_still {s : State} {expected : Word} {digest : Bytes} : Still s (State.commitTag s expected digest).1 := by
  unfold State.commitTag
  repeat' (first | with_reducible exact Still.refl _ | with_reducible apply Still.step (State.setSec_still) | with_reducible apply Still.iteP)

theorem State.stageFw_still {s : State} {off : Nat} {data : Bytes} : Still s (State.stageFw s off data).1 := by
  unfold State.stageFw
  repeat' (first | with_reducible exact Still.refl _ | with_reducible apply Still.step (State.setSec_still) | with_reducible apply Still.iteP)

theorem State.verifyFw_still {s : State} : Still s (State.verifyFw s).1 := by
  unfold State.verifyFw
  repeat' (first | with_reducible exact Still.refl _ | with_reducible apply Still.step (State.setSec_still) | with_reducible apply Still.iteP)

theorem State.activateFw_still {s : State} : Still s (State.activateFw s).1 := by
  unfold State.activateFw
  repeat' (first | with_reducible exact Still.refl _ | with_reducible apply Still.step (State.setSec_still) | with_reducible apply Still.iteP)

theorem State.attestSecond_still {s : State} : Still s (State.attestSecond s) := by
  unfold State.attestSecond
  repeat' (first
      | with_reducible exact Still.refl _ | with_reducible apply Still.step (State.applyStaged_still)
      | with_reducible apply Still.step (State.setSec_still) | with_reducible apply Still.ite)

theorem State.attested_still {s0 : State} {peer : Option Nat} {source : NetEnd} {nonce : Bytes} {cert : Bool} :
    Still s0 (State.attested s0 peer source nonce cert) := by
  unfold State.attested
  repeat' (first
      | with_reducible exact Still.refl _ | with_reducible apply Still.step (State.attestSecond_still)
      | with_reducible apply Still.step (State.count16_still) | with_reducible apply Still.step (State.countWrap_still)
      | with_reducible apply Still.step (State.effectOf_still) | with_reducible apply Still.step (State.mgmtReply_still)
      | with_reducible apply Still.step (State.setSec_still) | with_reducible apply Still.step (State.unbound_still)
      | with_reducible apply Still.ite | split)

theorem State.eraseEnd_kept {s : State} : Kept s (State.eraseEnd s) := by
  unfold State.eraseEnd
  repeat' (first
      | with_reducible exact Kept.refl _ | with_reducible apply Kept.step (State.clearSaks_still).kept
      | with_reducible apply Kept.step (State.resetHigh_kept) | with_reducible apply Kept.step (State.setSec_still).kept
      | with_reducible apply Kept.ite | (simp only [Kept.upd]; first | with_reducible refine Kept.of ?_ | exact ⟨trivial, fun h => h⟩))

end Sys2Proof.Machine
end

