-- ==== Sys2Proof/Laws/FrameRepair.lean ====
section
/-! SUPPORT. What the operations of Machine/Repair.lean leave alone: memory and the fuses (`Still`), or the fuses and the form of memory
(`Kept`). -/

namespace Sys2Proof.Machine

theorem State.issueRepair_still {s : State} {x : Span} : Still s (State.issueRepair s x) := by
  unfold State.issueRepair
  repeat' (first
      | with_reducible exact Still.refl _ | with_reducible apply Still.step (State.issueMig_still) | with_reducible apply Still.ite
      | (with_reducible apply Still.foldl; intro _ _))

theorem State.moveTables_kept {s : State} {b : Nat} {g : Nat} : Kept s (State.moveTables s b g) := by
  unfold State.moveTables
  repeat' (first
      | with_reducible exact Kept.refl _ | with_reducible apply Kept.step (State.dropCached_still).kept
      | with_reducible apply Kept.step (State.freeFrame_still).kept | with_reducible apply Kept.step (State.moveBytes_kept)
      | with_reducible apply Kept.step (State.physWrite64_kept) | with_reducible apply Kept.step (State.setOwners_still).kept
      | (with_reducible apply Kept.foldl; intro _ _) | with_reducible refine Kept.fst3 (by assumption) (State.takeFrame_still).kept ?_ | split)

theorem State.setRepair_still {s : State} {x : Option Repair} : Still s (State.setRepair s x) := by
  unfold State.setRepair
  repeat' (first | (simp only [Still.upd]; first | with_reducible refine Still.of ?_ | exact ⟨trivial, trivial⟩))

theorem State.repairLog_still {s : State} {x : Repair} {result : Nat} : Still s (State.repairLog s x result) := by
  unfold State.repairLog
  repeat' (first | with_reducible exact Still.refl _ | with_reducible apply Still.step (State.log_still) | with_reducible apply Still.ite | split)

theorem State.endRepair_still {s : State} {x : Repair} {result : Nat} : Still s (State.endRepair s x result) := by
  unfold State.endRepair
  repeat' (first
      | with_reducible exact Still.refl _ | with_reducible apply Still.step (State.mgmtReply_still)
      | with_reducible apply Still.step (State.repairLog_still) | with_reducible apply Still.step (State.repairShown_still)
      | with_reducible apply Still.step (State.setRepair_still) | split)

theorem State.markDrain_still {s : State} {x : Repair} {on : Bool} : Still s (State.markDrain s x on) := by
  unfold State.markDrain
  repeat' (first | (simp only [Still.upd]; first | with_reducible refine Still.of ?_ | exact ⟨trivial, trivial⟩))

theorem State.drained_still {s : State} {x : Repair} : Still s (State.drained s x) := by
  unfold State.drained
  repeat' (first
      | with_reducible exact Still.refl _ | with_reducible apply Still.step (State.endRepair_still)
      | with_reducible apply Still.step (State.markDrain_still) | with_reducible apply Still.step (State.setOffline_still)
      | with_reducible apply Still.step (State.setRepair_still) | with_reducible apply Still.ite
      | (simp only [Still.upd]; first | with_reducible refine Still.of ?_ | exact ⟨trivial, trivial⟩))

theorem State.drainOn_kept {s : State} {x : Repair} : Kept s (State.drainOn s x) := by
  unfold State.drainOn
  repeat' (first
      | with_reducible exact Kept.refl _ | with_reducible apply Kept.step (State.drained_still).kept
      | with_reducible apply Kept.step (State.endRepair_still).kept | with_reducible apply Kept.step (State.issueRepair_still).kept
      | with_reducible apply Kept.step (State.markDrain_still).kept | with_reducible apply Kept.step (State.moveTables_kept)
      | with_reducible apply Kept.step (State.setRepair_still).kept | with_reducible apply Kept.ite
      | (with_reducible apply Kept.foldl; intro _ _))

theorem State.retireOn_kept {s : State} {x : Repair} : Kept s (State.retireOn s x) := by
  unfold State.retireOn
  repeat' (first
      | with_reducible exact Kept.refl _ | with_reducible apply Kept.step (State.countSat_still).kept
      | with_reducible apply Kept.step (State.endRepair_still).kept | with_reducible apply Kept.step (State.issueRepair_still).kept
      | with_reducible apply Kept.step (State.moveTables_kept) | with_reducible apply Kept.step (State.setOwner_still).kept
      | with_reducible apply Kept.ite | (with_reducible apply Kept.foldl; intro _ _)
      | (simp only [Kept.upd]; first | with_reducible refine Kept.of ?_ | exact ⟨trivial, fun h => h⟩))

theorem State.bootTarget_still {s : State} {x : Repair} {p : Nat} : Still s (State.bootTarget s x p).1 := by
  unfold State.bootTarget
  repeat' (first
      | with_reducible exact Still.refl _ | with_reducible apply Still.step (State.setCp_still)
      | (simp only [Still.upd]; first | with_reducible refine Still.of ?_ | exact ⟨trivial, trivial⟩))

theorem State.handoverEnd_still {s : State} {x : Repair} : Still s (State.handoverEnd s x) := by
  unfold State.handoverEnd
  repeat' (first
      | with_reducible exact Still.refl _ | with_reducible apply Still.step (State.endRepair_still)
      | with_reducible apply Still.step (State.setSec_still) | with_reducible apply Still.ite)

theorem State.handoverOn_still {s : State} {x : Repair} : Still s (State.handoverOn s x) := by
  unfold State.handoverOn
  repeat' (first
      | with_reducible exact Still.refl _ | with_reducible apply Still.step (State.bootTarget_still)
      | with_reducible apply Still.step (State.endRepair_still) | with_reducible apply Still.step (State.handoverEnd_still)
      | with_reducible apply Still.step (State.log_still) | with_reducible apply Still.step (State.setCp_still)
      | with_reducible apply Still.step (State.setRepair_still) | with_reducible apply Still.ite | split)

theorem State.repairOn_kept {s : State} : Kept s (State.repairOn s) := by
  unfold State.repairOn
  repeat' (first
      | with_reducible exact Kept.refl _ | with_reducible apply Kept.step (State.drainOn_kept)
      | with_reducible apply Kept.step (State.endRepair_still).kept | with_reducible apply Kept.step (State.handoverOn_still).kept
      | with_reducible apply Kept.step (State.retireOn_kept) | with_reducible apply Kept.ite | split)

theorem State.beginRepair_still {s : State} {x : Repair} : Still s (State.beginRepair s x) := by
  unfold State.beginRepair
  repeat' (first
      | with_reducible exact Still.refl _ | with_reducible apply Still.step (State.markDrain_still)
      | with_reducible apply Still.step (State.setRepair_still)
      | (simp only [Still.upd]; first | with_reducible refine Still.of ?_ | exact ⟨trivial, trivial⟩) | split)

theorem State.nextRepair_still {s : State} : Still s (State.nextRepair s) := by
  unfold State.nextRepair
  repeat' (first
      | with_reducible exact Still.refl _ | with_reducible apply Still.step (State.beginRepair_still)
      | (simp only [Still.upd]; first | with_reducible refine Still.of ?_ | exact ⟨trivial, trivial⟩) | split)

theorem State.askRepair_kept {s : State} {kind : RepairKind} {target : Nat} : Kept s (State.askRepair s kind target) := by
  unfold State.askRepair
  repeat' (first
      | with_reducible exact Kept.refl _ | with_reducible apply Kept.step (State.nextRepair_still).kept
      | with_reducible apply Kept.step (State.repairOn_kept) | with_reducible apply Kept.ite
      | (simp only [Kept.upd]; first | with_reducible refine Kept.of ?_ | exact ⟨trivial, fun h => h⟩))

theorem State.mgmtBegin_kept {s : State} {p : Nat} {op : Nat} {tag : BitVec 16} {role : Role} {kind : RepairKind} {target : Nat} {fault : State → Option Nat} {prepare : State → State} (h_prepare : ∀ (v0 : State), Kept v0 (prepare v0)) :
    Kept s (State.mgmtBegin s p op tag role kind target fault prepare) := by
  unfold State.mgmtBegin
  repeat' (first
      | with_reducible exact Kept.refl _ | with_reducible apply Kept.step (h_prepare _)
      | with_reducible apply Kept.step (State.beginRepair_still).kept | with_reducible apply Kept.step (State.effectOf_still).kept
      | with_reducible apply Kept.step (State.mgmtReply_still).kept | with_reducible apply Kept.step (State.nextRepair_still).kept
      | with_reducible apply Kept.step (State.refuseMsg_still).kept | with_reducible apply Kept.step (State.repairOn_kept)
      | with_reducible apply Kept.step (State.roleRefused_still).kept | with_reducible apply Kept.ite | split | dsimp only)

theorem State.insertDimm_still {s0 : State} {g : Nat} : Still s0 (State.insertDimm s0 g) := by
  unfold State.insertDimm
  repeat' (first
      | with_reducible exact Still.refl _ | with_reducible apply Still.step (State.draw_still)
      | with_reducible apply Still.step (State.trainChannel_still) | with_reducible apply Still.ite
      | (simp only [Still.upd]; first | with_reducible refine Still.of ?_ | exact ⟨trivial, trivial⟩))

theorem State.insertFailed_still {s : State} {g : Nat} : Still s (State.insertFailed s g) := by
  unfold State.insertFailed
  repeat' (first
      | with_reducible exact Still.refl _ | with_reducible apply Still.step (State.endRepair_still) | with_reducible apply Still.ite | split)

theorem State.autoFence_kept {s : State} : Kept s (State.autoFence s) := by
  unfold State.autoFence
  repeat' (first
      | with_reducible exact Kept.refl _ | with_reducible apply Kept.step (State.askRepair_kept) | with_reducible apply Kept.ite
      | (with_reducible apply Kept.foldl; intro _ _))

theorem State.moveFor_still {s : State} {n : Nat} : Still s (State.moveFor s n) := by
  unfold State.moveFor
  repeat' (first
      | with_reducible apply Still.step (State.moveLog_still) | with_reducible apply Still.step (State.moveOp_still)
      | with_reducible apply Still.ite | (simp only [Still.upd]; first | with_reducible refine Still.of ?_ | exact ⟨trivial, trivial⟩))

theorem State.autoMove_still {s : State} : Still s (State.autoMove s) := by
  unfold State.autoMove
  repeat' (first
      | with_reducible apply Still.step (State.moveFor_still) | with_reducible apply Still.ite
      | (simp only [Still.upd]; first | with_reducible refine Still.of ?_ | exact ⟨trivial, trivial⟩) | split)

theorem State.scrub_kept {s : State} {a : Nat} {f : ScrubFinding} : Kept s (State.scrub s a f) := by
  unfold State.scrub
  repeat' (first
      | with_reducible exact Kept.refl _ | with_reducible apply Kept.step (State.applyStaged_still).kept
      | with_reducible apply Kept.step (State.autoFence_kept) | with_reducible apply Kept.step (State.countSat_still).kept
      | with_reducible apply Kept.step (State.meetUe_still).kept
      | (simp only [Kept.upd]; first | with_reducible refine Kept.of ?_ | exact ⟨trivial, fun h => h⟩) | split)

end Sys2Proof.Machine
end

