-- ==== Sys2Proof/Laws/FrameTelemetry.lean ====
section
/-! SUPPORT. What the operations of Machine/Telemetry.lean leave alone: memory and the fuses (`Still`), or the fuses and the form of memory
(`Kept`). -/

namespace Sys2Proof.Machine

theorem State.writeGap_still {s : State} {r : Nat} : Still s (State.writeGap s r) := by
  unfold State.writeGap
  repeat' (first
      | with_reducible exact Still.refl _ | with_reducible apply Still.step (State.count32_still)
      | with_reducible apply Still.step (State.setRing_still) | split | dsimp only)

theorem State.flushSummaries_still {s : State} {f : SummaryEntry → Bool} : Still s (State.flushSummaries s f) := by
  unfold State.flushSummaries
  repeat' (first
      | with_reducible exact Still.refl _ | with_reducible apply Still.step (State.setRing_still) | with_reducible apply Still.iteP
      | (with_reducible apply Still.foldlP; intro _ _)
      | (simp only [Still.upd]; first | with_reducible refine Still.of ?_ | exact ⟨trivial, trivial⟩) | split)

theorem State.recordIn_still {s : State} {record : Bytes} : Still s (State.recordIn s record) := by
  unfold State.recordIn
  repeat' (first | with_reducible exact Still.refl _ | with_reducible apply Still.step (State.hubTake_still) | with_reducible apply Still.ite)

theorem State.tickRing_still {s : State} {r : Nat} : Still s (State.tickRing s r) := by
  unfold State.tickRing
  repeat' (first
      | with_reducible exact Still.refl _ | with_reducible apply Still.step (State.checkEnter_still)
      | with_reducible apply Still.step (State.flushSummaries_still) | with_reducible apply Still.step (State.setLevel_still)
      | with_reducible apply Still.step (State.setRing_still) | with_reducible apply Still.step (State.writeGap_still)
      | with_reducible apply Still.ite)

theorem State.takeTurn_still {s : State} {r : Nat} : Still s (State.takeTurn s r) := by
  unfold State.takeTurn
  repeat' (first
      | with_reducible exact Still.refl _ | with_reducible apply Still.step (State.setRing_still) | with_reducible apply Still.ite
      | (simp only [Still.upd]; first | with_reducible refine Still.of ?_ | exact ⟨trivial, trivial⟩))

theorem State.exportLive_still {s : State} {p : Nat} : Still s (State.exportLive s p) := by
  unfold State.exportLive
  repeat' (first
      | with_reducible exact Still.refl _ | with_reducible apply Still.step (State.post_still)
      | with_reducible apply Still.step (State.setRing_still) | with_reducible apply Still.step (State.takeTurn_still)
      | with_reducible apply Still.ite | (simp only [Still.upd]; first | with_reducible refine Still.of ?_ | exact ⟨trivial, trivial⟩))

theorem State.exportReplay_still {s : State} {p : Nat} {y : Replay} {rest : List Replay} : Still s (State.exportReplay s p y rest) := by
  unfold State.exportReplay
  repeat' (first
      | with_reducible exact Still.refl _ | with_reducible apply Still.step (State.post_still)
      | with_reducible apply Still.step (State.setRing_still) | with_reducible apply Still.step (State.writeGap_still)
      | with_reducible apply Still.ite | (simp only [Still.upd]; first | with_reducible refine Still.of ?_ | exact ⟨trivial, trivial⟩))

theorem State.telemExport_still {s0 : State} : Still s0 (State.telemExport s0) := by
  unfold State.telemExport
  repeat' (first
      | with_reducible exact Still.refl _ | with_reducible apply Still.step (State.applyAll_still)
      | with_reducible apply Still.step (State.exportLive_still) | with_reducible apply Still.step (State.exportReplay_still)
      | with_reducible apply Still.ite | split)

end Sys2Proof.Machine
end

