-- ==== Sys2Proof/Laws/FrameTap.lean ====
section
/-! SUPPORT. What the operations of Machine/Tap.lean leave alone: memory and the fuses (`Still`), or the fuses and the form of memory
(`Kept`). -/

namespace Sys2Proof.Machine

theorem State.tapSelect_still {s : State} {i : TapInstr} {data : Word} : Still s (State.tapSelect s i data) := by
  unfold State.tapSelect
  repeat' (first
      | with_reducible exact Still.refl _ | with_reducible apply Still.ite
      | (simp only [Still.upd]; first | with_reducible refine Still.of ?_ | exact ⟨trivial, trivial⟩))

theorem State.boundaryScan_still {s : State} {i : TapInstr} {boundary : List Bool} : Still s (State.boundaryScan s i boundary) := by
  unfold State.boundaryScan
  repeat' (first
      | with_reducible exact Still.refl _ | with_reducible apply Still.ite
      | (simp only [Still.upd]; first | with_reducible refine Still.of ?_ | exact ⟨trivial, trivial⟩))

end Sys2Proof.Machine
end

