-- ==== Sys2Proof/Laws/FrameRegisters.lean ====
section
/-! SUPPORT. What the operations of Machine/Registers.lean leave alone: memory and the fuses (`Still`), or the fuses and the form of memory
(`Kept`). -/

namespace Sys2Proof.Machine

theorem State.readEffect_still {s : State} {key : Nat} : Still s (State.readEffect s key) := by
  unfold State.readEffect
  repeat' (first | with_reducible exact Still.refl _ | with_reducible apply Still.step (State.unlatch_still) | with_reducible apply Still.ite)

theorem State.readAt_still {s : State} {addr : Nat} : Still s (State.readAt s addr).1 := by
  unfold State.readAt
  repeat' (first
      | with_reducible exact Still.refl _ | with_reducible apply Still.step (State.badAddress_still)
      | with_reducible apply Still.step (State.readEffect_still) | with_reducible apply Still.iteP | split)

theorem State.readCommand_still {s : State} {src : Source} {key : Nat} : Still s (State.readCommand s src key) := by
  unfold State.readCommand
  repeat' (first
      | with_reducible exact Still.refl _ | with_reducible apply Still.step (State.count32_still)
      | with_reducible apply Still.step (State.readEffect_still) | with_reducible apply Still.step (State.roleRefused_still)
      | with_reducible apply Still.ite)

theorem State.commitBlock_still {s : State} {i : Nat} : Still s (State.commitBlock s i) := by
  unfold State.commitBlock
  repeat' (first | with_reducible exact Still.refl _ | with_reducible apply Still.step (State.applyWhere_still))

theorem State.commitEnd_still {s : State} : Still s (State.commitEnd s) := by
  unfold State.commitEnd
  repeat' (first
      | with_reducible exact Still.refl _ | with_reducible apply Still.step (State.latch_still)
      | (simp only [Still.upd]; first | with_reducible refine Still.of ?_ | exact ⟨trivial, trivial⟩))

theorem State.commitOp_still {s : State} {mask : Word} : Still s (State.commitOp s mask) := by
  unfold State.commitOp
  repeat' (first
      | with_reducible exact Still.refl _ | with_reducible apply Still.step (State.commitBlock_still)
      | with_reducible apply Still.step (State.commitEnd_still) | with_reducible apply Still.ite | (with_reducible apply Still.foldl; intro _ _)
      | (simp only [Still.upd]; first | with_reducible refine Still.of ?_ | exact ⟨trivial, trivial⟩))

theorem State.cfgCommand_kept {s : State} {v : Word} : Kept s (State.cfgCommand s v) := by
  unfold State.cfgCommand
  repeat' (first
      | with_reducible exact Kept.refl _ | with_reducible apply Kept.step (State.cfgAbortOp_kept)
      | with_reducible apply Kept.step (State.cfgAckOp_still).kept | with_reducible apply Kept.step (State.cfgCommitOp_kept)
      | with_reducible apply Kept.step (State.cfgLoadOp_still).kept | with_reducible apply Kept.step (State.cfgResumeOp_kept)
      | with_reducible apply Kept.step (State.moveOp_still).kept | split)

theorem State.lullWrite_kept {s : State} {v : Word} : Kept s (State.lullWrite s v) := by
  unfold State.lullWrite
  repeat' (first
      | with_reducible exact Kept.refl _ | with_reducible apply Kept.step (State.lullBit_kept) | with_reducible apply Kept.ite
      | (with_reducible apply Kept.foldl; intro _ _))

theorem State.tierCommand_kept {s : State} {v : Word} : Kept s (State.tierCommand s v) := by
  unfold State.tierCommand
  repeat' (first
      | with_reducible exact Kept.refl _ | with_reducible apply Kept.step (State.mtAssignOp_still).kept
      | with_reducible apply Kept.step (State.mtCancelOp_kept) | with_reducible apply Kept.step (State.mtCommand_kept (fun _ => ?_))
      | with_reducible apply Kept.step (State.mtEnlistOp_still).kept | with_reducible apply Kept.step (State.mtLineOp_still).kept
      | with_reducible apply Kept.step (State.mtMigrateOp_still).kept | with_reducible apply Kept.step (State.mtReleaseOp_still).kept | split)

theorem State.portCommand_kept {s : State} {v : Word} : Kept s (State.portCommand s v) := by
  unfold State.portCommand
  repeat' (first
      | with_reducible exact Kept.refl _ | with_reducible apply Kept.step (State.resetPeer_kept)
      | with_reducible apply Kept.step (State.restoreLanes_still).kept | with_reducible apply Kept.step (State.train_still).kept | split)

theorem State.connCommand_still {s : State} {c : Nat} {v : Word} : Still s (State.connCommand s c v) := by
  unfold State.connCommand
  repeat' (first
      | with_reducible exact Still.refl _ | with_reducible apply Still.step (State.forceError_still)
      | with_reducible apply Still.step (State.openConn_still) | with_reducible apply Still.step (State.resetConn_still) | split)

theorem State.groupCommand_still {s : State} {g : Nat} {v : Word} : Still s (State.groupCommand s g v) := by
  unfold State.groupCommand
  repeat' (first
      | with_reducible exact Still.refl _ | with_reducible apply Still.step (State.groupStart_still)
      | with_reducible apply Still.step (State.portStop_still) | with_reducible apply Still.ite | (with_reducible apply Still.foldl; intro _ _)
      | split)

theorem State.audioCommand_kept {s : State} {p : Nat} {v : Word} : Kept s (State.audioCommand s p v) := by
  unfold State.audioCommand
  repeat' (first
      | with_reducible exact Kept.refl _ | with_reducible apply Kept.step (State.portRestart_still).kept
      | with_reducible apply Kept.step (State.portStart_kept) | with_reducible apply Kept.step (State.portStop_still).kept | split)

theorem State.portdCommand_still {s : State} {p : Nat} {v : Word} : Still s (State.portdCommand s p v) := by
  unfold State.portdCommand
  repeat' (first
      | with_reducible exact Still.refl _ | with_reducible apply Still.step (State.portdArm_still)
      | with_reducible apply Still.step (State.portdCancel_still) | split)

theorem State.copyCommand_kept {s : State} {b : Nat} {c : Nat} {v : Word} : Kept s (State.copyCommand s b c v) := by
  unfold State.copyCommand
  repeat' (first
      | with_reducible exact Kept.refl _ | with_reducible apply Kept.step (State.copyArm_still).kept
      | with_reducible apply Kept.step (State.copyCancel_kept) | split)

theorem State.streamCommand_kept {s : State} {sid : Nat} {v : Word} : Kept s (State.streamCommand s sid v) := by
  unfold State.streamCommand
  repeat' (first
      | with_reducible exact Kept.refl _ | with_reducible apply Kept.step (State.scAbortOp_kept)
      | with_reducible apply Kept.step (State.scArmOp_still).kept | with_reducible apply Kept.step (State.scDrainOp_kept)
      | with_reducible apply Kept.step (State.scPauseOp_kept) | with_reducible apply Kept.step (State.scRecheckOp_kept)
      | with_reducible apply Kept.step (State.scResetStateOp_still).kept | with_reducible apply Kept.step (State.scResumeOp_still).kept
      | with_reducible apply Kept.step (State.scStartOp_still).kept | split)

theorem State.seqCommand_kept {s : State} {q : Nat} {v : Word} : Kept s (State.seqCommand s q v) := by
  unfold State.seqCommand
  repeat' (first
      | with_reducible exact Kept.refl _ | with_reducible apply Kept.step (State.sqAbortOp_still).kept
      | with_reducible apply Kept.step (State.sqArmOp_kept) | with_reducible apply Kept.step (State.sqDrainOp_kept)
      | with_reducible apply Kept.step (State.sqPauseOp_still).kept | with_reducible apply Kept.step (State.sqRecheckOp_kept)
      | with_reducible apply Kept.step (State.sqResumeOp_kept) | with_reducible apply Kept.step (State.sqStartOp_kept) | split)

theorem State.strobe_kept {s : State} {key : Nat} {v : Word} : Kept s (State.strobe s key v) := by
  unfold State.strobe
  repeat' (first
      | with_reducible exact Kept.refl _ | with_reducible apply Kept.step (State.alignStart_still).kept
      | with_reducible apply Kept.step (State.faultResumeOp_kept) | with_reducible apply Kept.step (State.seqCommand_kept)
      | with_reducible apply Kept.step (State.streamCommand_kept) | with_reducible apply Kept.step (State.submitOp_still).kept
      | with_reducible apply Kept.step (State.trnInvOp_still).kept | with_reducible apply Kept.ite)

theorem State.rkCommand_kept {s : State} {key : Nat} {v : Word} : Kept s (State.rkCommand s key v) := by
  unfold State.rkCommand
  repeat' (first
      | with_reducible exact Kept.refl _ | with_reducible apply Kept.step (State.audioCommand_kept)
      | with_reducible apply Kept.step (State.cancelOp_kept) | with_reducible apply Kept.step (State.cfgCommand_kept)
      | with_reducible apply Kept.step (State.commitOp_still).kept | with_reducible apply Kept.step (State.connCommand_still).kept
      | with_reducible apply Kept.step (State.copyCommand_kept) | with_reducible apply Kept.step (State.floorOp_still).kept
      | with_reducible apply Kept.step (State.flushQueue_still).kept | with_reducible apply Kept.step (State.groupCommand_still).kept
      | with_reducible apply Kept.step (State.lullWrite_kept) | with_reducible apply Kept.step (State.pllCtrl_still).kept
      | with_reducible apply Kept.step (State.portCommand_kept) | with_reducible apply Kept.step (State.portdCommand_still).kept
      | with_reducible apply Kept.step (State.setReg_still).kept | with_reducible apply Kept.step (State.tierCommand_kept)
      | with_reducible apply Kept.ite | (simp only [Kept.upd]; first | with_reducible refine Kept.of ?_ | exact ⟨trivial, fun h => h⟩))

theorem State.rkEffect_kept {s : State} {key : Nat} {d : RegDesc} {v : Word} : Kept s (State.rkEffect s key d v) := by
  unfold State.rkEffect
  repeat' (first
      | with_reducible exact Kept.refl _ | with_reducible apply Kept.step (State.drainEgress_still).kept
      | with_reducible apply Kept.step (State.refOp_still).kept | with_reducible apply Kept.step (State.rkCommand_kept)
      | with_reducible apply Kept.step (State.stage_still).kept | with_reducible apply Kept.ite)

theorem State.afterStage_still {s : State} {key : Nat} {v : Word} : Still s (State.afterStage s key v) := by
  unfold State.afterStage
  repeat' (first
      | with_reducible exact Still.refl _ | with_reducible apply Still.step (State.applyAll_still)
      | with_reducible apply Still.step (State.poolIdle_still) | with_reducible apply Still.step (State.train_still)
      | with_reducible apply Still.ite)

theorem State.rwEffect_kept {s : State} {key : Nat} {d : RegDesc} {v : Word} : Kept s (State.rwEffect s key d v) := by
  unfold State.rwEffect
  repeat' (first
      | with_reducible exact Kept.refl _ | with_reducible apply Kept.step (State.fqTailOp_kept)
      | with_reducible apply Kept.step (State.outTailOp_kept) | with_reducible apply Kept.step (State.setQueue_still).kept
      | with_reducible apply Kept.step (State.setReg_still).kept | with_reducible apply Kept.ite)

theorem State.rsEffect_kept {s : State} {key : Nat} {v : Word} : Kept s (State.rsEffect s key v) := by
  unfold State.rsEffect
  repeat' (first
      | with_reducible exact Kept.refl _ | with_reducible apply Kept.step (State.afterStage_still).kept
      | with_reducible apply Kept.step (State.peerEntry_kept) | with_reducible apply Kept.step (State.stage_still).kept
      | with_reducible apply Kept.ite)

theorem State.guardWrite_still {s : State} {src : Source} {b : Block} {v : Word} : Still s (State.guardWrite s src b v) := by
  unfold State.guardWrite
  repeat' (first
      | with_reducible exact Still.refl _ | with_reducible apply Still.step (State.openGuard_still)
      | with_reducible apply Still.step (State.writeCloses_still) | with_reducible apply Still.ite)

theorem State.vaneWrite_kept {s : State} {src : Source} {addr : Nat} {v : Word} : Kept s (State.vaneWrite s src addr v) := by
  unfold State.vaneWrite
  repeat' (first
      | with_reducible exact Kept.refl _ | with_reducible apply Kept.step (State.inboxWrite_kept) | with_reducible apply Kept.ite
      | (simp only [Kept.upd]; first | with_reducible refine Kept.of ?_ | exact ⟨trivial, fun h => h⟩) | split)

theorem State.placeWrite_kept {s : State} {src : Source} {key : Nat} {d : RegDesc} {v : Word} : Kept s (State.placeWrite s src key d v).1 := by
  unfold State.placeWrite
  repeat' (first
      | with_reducible exact Kept.refl _ | with_reducible apply Kept.step (State.guardWrite_still).kept
      | with_reducible apply Kept.step (State.guarded_kept (fun _ => ?_)) | with_reducible apply Kept.step (State.rkEffect_kept)
      | with_reducible apply Kept.step (State.rsEffect_kept) | with_reducible apply Kept.step (State.rwEffect_kept)
      | with_reducible apply Kept.step (State.strobe_kept) | with_reducible apply Kept.step (State.writeCloses_still).kept
      | with_reducible apply Kept.iteP | with_reducible apply Kept.ite | split)

theorem State.writeAt_kept {s : State} {src : Source} {addr : Nat} {v : Word} : Kept s (State.writeAt s src addr v).1 := by
  unfold State.writeAt
  repeat' (first
      | with_reducible exact Kept.refl _ | with_reducible apply Kept.step (State.badAddress_still).kept
      | with_reducible apply Kept.step (State.checkedWrite_kept (fun _ => ?_)) | with_reducible apply Kept.step (State.placeWrite_kept)
      | with_reducible apply Kept.step (State.vaneWrite_kept) | with_reducible apply Kept.step (State.writeCloses_still).kept
      | with_reducible apply Kept.iteP | split)

theorem State.regOp_kept {s : State} {peer : Fin 16384} {o : RegOp} : Kept s (State.regOp s peer o).1 := by
  unfold State.regOp
  repeat' (first
      | with_reducible exact Kept.refl _ | with_reducible apply Kept.step (State.readAt_still).kept
      | with_reducible apply Kept.step (State.roleRefused_still).kept | with_reducible apply Kept.step (State.writeAt_kept)
      | with_reducible apply Kept.iteP | split)

theorem State.regOps_kept {s : State} {peer : Fin 16384} {e0 : List RegOp} : Kept s (State.regOps s peer e0).1 := by
  induction e0 generalizing s peer with
  | nil =>
    unfold State.regOps
    repeat' (first | with_reducible exact Kept.refl _)
  | cons a l ih =>
    unfold State.regOps
    repeat' (first
        | with_reducible exact Kept.refl _ | with_reducible apply Kept.step (ih ..) | with_reducible apply Kept.step (State.regOp_kept)
        | with_reducible apply Kept.iteP)

theorem State.releaseHold_still {s : State} {addr : Nat} : Still s (State.releaseHold s addr) := by
  unfold State.releaseHold
  repeat' (first
      | with_reducible exact Still.refl _ | with_reducible apply Still.step (State.queueRecord_still) | with_reducible apply Still.ite
      | (simp only [Still.upd]; first | with_reducible refine Still.of ?_ | exact ⟨trivial, trivial⟩) | split)

theorem State.refreshCore_still {s : State} {n : Nat} : Still s (State.refreshCore s n) := by
  unfold State.refreshCore
  repeat' (first | with_reducible exact Still.refl _ | with_reducible apply Still.step (State.setReg_still))

theorem State.refreshCopies_still {s : State} : Still s (State.refreshCopies s) := by
  unfold State.refreshCopies
  repeat' (first
      | with_reducible exact Still.refl _ | with_reducible apply Still.step (State.refreshCore_still)
      | with_reducible apply Still.step (State.setReg_still) | (with_reducible apply Still.foldl; intro _ _))

end Sys2Proof.Machine
end

