-- ==== Sys2Proof/Laws/FrameStep.lean ====
section
/-! SUPPORT. What the operations of Machine/Step.lean leave alone: memory and the fuses (`Still`), or the fuses and the form of memory
(`Kept`). -/

namespace Sys2Proof.Machine

theorem State.withFetchWord_still {s : State} {nbits : Nat} {w : Nat} : Still s (State.withFetchWord s nbits w) := by
  unfold State.withFetchWord
  repeat' (first
      | with_reducible exact Still.refl _ | (simp only [Still.upd]; first | with_reducible refine Still.of ?_ | exact ⟨trivial, trivial⟩) | split)

end Sys2Proof.Machine
end

