-- ==== Sys2Proof/Tests/Base.lean ====
section
/-! SUPPORT. The small state that the tests start from: a device in service that holds nothing, with every value that an implementation fixes written out,
so that Lean can evaluate a step on it. -/

namespace Sys2Proof.Tests
open Sys2Proof.Machine

/-- A security block with one root, one image key and no session. -/
def sec0 : Sec :=
  { roots := [[1]], imageKeys := [[2]], certFloor := 0, eraseCount := 0, fwFloor := 0, slotA := [], slotB := [], record := ⟨false, false, false⟩
    running := some false, onTrial := false, verified := false, openings := [], sessions := [], drawn := 0, quotes := 0, second := 0
    copyA := ⟨[], 0, false⟩, copyB := ⟨[], 0, false⟩, staging := none, erasing := false }

/-- A device in service that holds nothing. -/
def idle : State :=
  { pending := [], free := 0, fuses := ⟨0xFFFFFFFFF#36, 0x8888#16⟩, lic := 0, regs := [], latches := [], guards := [], commitMask := none
    commitRefused := false, commitCount := 0, events := .reset, loader := .reset, trans := .reset, tiers := .reset, mem := []
    chaff := [], ue := [], cores := [], bays := [], batchers := [], insts := [], nextInst := 0, queues := [], streams := []
    seqs := [], engines := .reset, net := .reset, audio := .reset, vane := { Vane.reset with running := true }, pmc := .reset
    power := ⟨.service, true, 0, 0, 0, none, false, [], [], [], true⟩, tap := .reset, sec := sec0, tel := .reset }

/-- Compute processor 0. -/
def cp : Source := .cp 0

/-- Its guard of a block stands open. -/
def open_ (b : Block) (s : State) : State := s.openGuard cp b

/-- A section of a slot with a table entry that says its type. -/
def section_ (type : Nat) (body : Bytes) : SlotSection := ⟨leBytes 2 type ++ List.replicate 30 0, body⟩

/-- A BAYDEF entry: a core mask, no relay, class policies as CLASSPOL says; 4 graphs, a bound of 1,000 units; SIDs, sequences and queues 0 to 7 at `first`;
64 handles; the root table at 0x10000 (02 R33). -/
def bayEntry (mask first : Nat) : Bytes :=
  leBytes 8 mask ++ [0, 0] ++ leBytes 2 4 ++ leBytes 4 1000 ++ leBytes 4 16 ++ leBytes 4 16 ++ leBytes 4 16 ++
    leBytes 2 first ++ leBytes 2 8 ++ leBytes 2 first ++ leBytes 2 8 ++ leBytes 2 first ++ leBytes 2 8 ++ leBytes 4 64 ++ leBytes 4 0 ++
    leBytes 8 0x10000 ++ leBytes 8 0

/-- A window from address 0, in the loft: writable, seen by sheaves and by hosts (02 R33). -/
def windowEntry : Bytes := leBytes 8 0 ++ leBytes 8 0x40000000 ++ [0, 7] ++ List.replicate 14 0

/-- Queues of core to core, core to bank-side engine, core to Bale engine and core to audio port, 2 entries each. -/
def queueEntries : Bytes :=
  (List.range 4).flatMap fun q => leBytes 2 q ++ leBytes 2 2 ++ [0, BitVec.ofNat 8 q, 0, 0]

/-- A sheaf descriptor (04 R87): a graph, one row, every engine, four crib units, its row table at 0x1000, program 0 for input and output, a queue to
consume and queue 1 to produce. -/
def sheafOf (graph consume : Nat) : Bytes :=
  leBytes 1 graph ++ [0, 0, 0, 1, 15, 4, 0] ++ leBytes 8 0x1000 ++ [0, 0, 255, 255, 0, 0, 255, 255] ++ leBytes 2 consume ++ [255, 255, 1, 0, 255, 255] ++
    leBytes 8 0 ++ List.replicate 8 255 ++ leBytes 4 100 ++ [0, 0, 1, 0] ++ List.replicate 8 0
def sheafBytes : Bytes := sheafOf 0 0

/-- Bay 0 with a swath entry: cores 0 and 1; its window; its queues; graph 1 runs as BE, on time; graph 0 has an entry template, and a template that queue
0 triggers. -/
def slotOf (swath : Bytes) : SlotCopy :=
  [section_ 1 (bayEntry 3 0), section_ 2 windowEntry, section_ 3 queueEntries,
   section_ 4 (leBytes 2 1 ++ [1, 0] ++ leBytes 4 100 ++ List.replicate 8 0), section_ 5 (sheafOf 0 0xFFFF ++ sheafOf 0 0), section_ 6 swath]
def slot0 : SlotCopy := slotOf (List.replicate 256 0)

/-- Table entries (03 R61): a pointer to a table in the loft, and a writable leaf of 2 MiB there. -/
def pointer_ (frame : Nat) : W64 := BitVec.ofNat 64 (frame + 0xE3)
def leaf_ (frame : Nat) : W64 := BitVec.ofNat 64 (frame + 0x23)

/-- The tables that map the first 2 MiB of bay 0 to the loft at 0x200000. -/
def tables : AMap Byte :=
  [(0x10000, pointer_ 0x11000), (0x11000, pointer_ 0x12000), (0x12000, pointer_ 0x13000), (0x13000, leaf_ 0x200000)].foldl
    (fun m e => memPutAll m e.1 (leBytes 8 e.2.toNat)) []

/-- A device in service with bay 0 defined, its first 2 MiB mapped, and the granules of its tables and of that page owned by it. -/
def bayed : State :=
  { idle with
    loader := { idle.loader with applied := [(0, slot0)], bank0 := [(0, slot0)], copyA := CommitRecord.bytes ⟨1, 0, 1, 0xFFFF, 1⟩, record := ⟨1, 0, 1, 0xFFFF, 1⟩ }
    mem := tables
    tiers := { idle.tiers with granules := (1, 0) :: (List.range 32).map fun i => (32 + i, 0) } }

/-- What an answer holds, in a form that Lean decides. -/
def okOf {ε α : Type} : Except ε α → Option α
  | .ok x => some x
  | .error _ => none
def errOf {ε α : Type} : Except ε α → Option ε
  | .ok _ => none
  | .error e => some e
theorem pair_ok {σ ε α : Type} {p : σ × Except ε α} {x : α} (h : okOf p.2 = some x) : p = (p.1, .ok x) := by
  obtain ⟨s, r⟩ := p
  cases r <;> simp_all [okOf]
theorem pair_err {σ ε α : Type} {p : σ × Except ε α} {e : ε} (h : errOf p.2 = some e) : p = (p.1, .error e) := by
  obtain ⟨s, r⟩ := p
  cases r <;> simp_all [errOf]

/-- A sheaf of graph 0 (graph 1 where it is BE) with every engine, four crib units, queue 0 to consume and queue 1 to produce. -/
def desc_ (be : Bool) : SheafDesc :=
  { graph := if be then 1 else 0, be := be, roundEven := false, replay := false, node := 0, rowCount := 1, engines := 15, cribUnits := 4
    rowTable := 0x1000, inputProg := 0, weightProg := 0xFFFF, outputProg := 0, nextProg := 0xFFFF, consume0 := 0, consume1 := 0xFFFF
    produce0 := 1, produce1 := 0xFFFF, resetMasks := 0, deadline := 0xFFFFFFFFFFFFFFFF#64, engineTime := 100, stagger := 0, steps := 1 }

/-- An instance of it in bay 0, with its input program started. -/
def inst_ (be : Bool) (st : SheafState) : Inst :=
  { freshInst 0 (desc_ be) 0 .submit none 0 0 with state := st, input := some (Program.start 0) }

/-- An instance in slot 0 of core 0. -/
def holding (x : Inst) : State :=
  { bayed with insts := [(1, x)], nextInst := 2, cores := [(0, { Core.reset with slots := [(0, 1)] })] }
def stall0 : StallRef := ⟨0, 0⟩

/-- An instance whose input program stands at an instruction word. -/
def prog_ (w : W64) (f : Program → Program) (g : Inst → Inst) : State :=
  let x := g { inst_ false .resident with input := some (f (Program.start 0)) }
  { holding x with
    loader := { bayed.loader with applied := [(0, slotOf (leBytes 8 w.toNat ++ List.replicate 248 0))] } }
def at0 : ProgRef := ⟨stall0, .input⟩
theorem ok_get {σ ε α : Type} {p : σ × Except ε α} (h : (okOf p.2).isSome = true) : ∃ x, p = (p.1, .ok x) :=
  ⟨_, pair_ok (Option.some_get h).symm⟩

end Sys2Proof.Tests
end

