-- ==== Sys2Proof/Tests/Slice0.lean ====
section
/-! SUPPORT. The model's own tests: an ill-formed command that each check refuses, and values that the manual's worked examples and tables give.
The witnesses of the statements stand in the Witness files beside this one. -/

namespace Sys2Proof.Tests
open Sys2Proof Sys2Proof.Machine
set_option maxRecDepth 100000
set_option Elab.async false

/-! ### Each check of well-formedness refuses a term -/

theorem test_cfgData_refused : (Instr.cfgData 0 32 []).wellFormed = false ∧ (Instr.cfgData 0 64 []).wellFormed = true := by decide
theorem test_bayMove_refused : (Instr.bayMove cp 0 36 false).wellFormed = false ∧ (Instr.bayMove cp 0 35 false).wellFormed = true := by decide
theorem test_streamInputFrames_refused :
    (Instr.streamInputFrames 0 0 false 0 0 []).wellFormed = false ∧ (Instr.streamInputFrames 0 0 false 0 2 [1]).wellFormed = false ∧
      (Instr.streamInputFrames 0 0 false 0 2 [1, 2]).wellFormed = true := by decide
theorem test_outTailWrite_refused :
    (Instr.outTailWrite cp true 8192 0).wellFormed = false ∧ (Instr.outTailWrite cp false 8192 0).wellFormed = true := by decide
theorem test_ethernetFrame_refused :
    (Instr.ethernetFrameRx ⟨64, 0, none, 64, false, none, .other⟩).wellFormed = false ∧
      (Instr.ethernetFrameRx ⟨64, 0, some 8, 0, false, none, .other⟩).wellFormed = false ∧
      (Instr.ethernetFrameRx ⟨64, 0, none, 0, false, some (4, 0, true), .other⟩).wellFormed = false ∧
      (Instr.ethernetFrameRx ⟨64, 0, some 7, 63, false, some (3, 0, true), .other⟩).wellFormed = true := by decide
theorem test_regMessage_refused : (Instr.regMessage 0 0 []).wellFormed = false := by decide
theorem test_queuePiece_refused :
    (Instr.streamQueuePiece 0 0 false 63 64 0 [1, 2]).wellFormed = false ∧ (Instr.streamQueuePiece 0 0 false 63 64 0 [1]).wellFormed = true := by
  decide
theorem test_roce_refused :
    (Instr.roceRdmaWrite ⟨0, 0x1000000, 0, 0⟩ []).wellFormed = false ∧ (Instr.roceRdmaRead ⟨0, 0x1000000, 0, 0⟩ 1).wellFormed = false ∧
      (Instr.roceSend 0 0x1000000 []).wellFormed = false ∧ (Instr.roceAckRx 0 0x1000000 .ack).wellFormed = false ∧
      (Instr.roceAckRx 0 0xFFFFFF .ack).wellFormed = true := by decide
theorem test_guardOpen_refused : (Instr.guardOpen cp .stream).wellFormed = false ∧ (Instr.guardOpen cp .hub).wellFormed = true := by decide
theorem test_eventHoldoffEnd_refused : (Instr.eventHoldoffEnd 2).wellFormed = false ∧ (Instr.eventHoldoffEnd 4).wellFormed = true := by decide
theorem test_power_refused :
    (Instr.capControlInterval 4096).wellFormed = false ∧ (Instr.powerSample 4096 0).wellFormed = false ∧
      (Instr.thermalPredict [] []).wellFormed = false ∧ (Instr.droop 0 10001).wellFormed = false := by decide
theorem test_addresses_refused :
    (Instr.granuleRetire (2 ^ 52)).wellFormed = false ∧ (Instr.patrolScrub (2 ^ 52) .corrected).wellFormed = false := by decide
theorem test_telemetryRecord_refused : (Instr.telemetryRecord []).wellFormed = false := by decide
theorem test_pfcPauseRefresh_refused : (Instr.pfcPauseRefresh 0 101).wellFormed = false ∧ (Instr.pfcPauseRefresh 0 100).wellFormed = true := by decide

/-! ### No row of the table gives bits -/

theorem test_no_word_is_a_command : decodeTableWord 32 0 = none ∧ decodeTableWord 0 0xFFFFFFFF = none := by decide

/-! ### Addresses of control space -/

/-- `FXE_BYTES_LO` and `FXE_BYTES_HI` of core C20 (12, the example "reading a byte counter across a carry"). -/
theorem test_fxe_bytes_addresses : keyAddr (Reg.FXE_BYTES_LO 20) = 0x0240018C ∧ keyAddr (Reg.FXE_BYTES_HI 20) = 0x02400190 := by decide
/-- Each die holds nine cores (01); core C20 is of die D2 (03, the example "one translation in B1"). -/
theorem test_die_of_c20 : dieOf 20 = 2 := by decide

/-! ### Page-table entries and addresses (03, the example "one translation in B1") -/

theorem test_index_split :
    vaIndex 0x0000004280460000 0 = 0 ∧ vaIndex 0x0000004280460000 1 = 0 ∧ vaIndex 0x0000004280460000 2 = 266 ∧
      vaIndex 0x0000004280460000 3 = 2 ∧ vaIndex 0x0000004280460000 4 = 6 := by decide
theorem test_leaf_fields :
    ptePresent 0x0450010D2345000B = true ∧ pteWritable 0x0450010D2345000B = true ∧ pteTier 0x0450010D2345000B = 1 ∧
      pteSizeCode 0x0450010D2345000B = 0 ∧ pteTag 0x0450010D2345000B = 0 ∧ pteFrame 0x0450010D2345000B * 4096 = 0x0010D23450000 ∧
      pteGen 0x0450010D2345000B = 5 ∧ pteState 0x0450010D2345000B = 0 ∧ pteSpill 0x0450010D2345000B = true ∧
      pteSpillCount 0x0450010D2345000B = 0 := by decide

/-! ### The integer rescale (05, the example "rescaling a tagger output") -/

theorem test_rescale_60 :
    rescaleOut 23813 ⟨1385384651, 39, -5⟩ false .int8 = (55, false) ∧ rescaleOut 23813 ⟨1385384651, 39, -5⟩ true .int8 = (55, false) := by decide
theorem test_rescale_saturates : rescaleOut 60000 ⟨1385384651, 39, -5⟩ true .int8 = (127, true) := by decide

/-! ### Swath encodings (09, the example "the tagger's input program") -/

theorem test_swath_cset : decodeSw 0x5000000000000000 = some (.cset 0 0) := by decide
theorem test_swath_loops : decodeSw 0x3000000000000000 = some (.loop 0 0) ∧ decodeSw 0x32000000000FFFFF = some (.loop 1 0xFFFFF) := by decide
theorem test_swath_steps :
    decodeSw 0x4100000000000780 = some (.step 0 true 0 1920) ∧ decodeSw 0x4300000000000140 = some (.step 1 true 0 320) := by decide
theorem test_swath_rowbase : decodeSw 0x2001000000000000 = some (.rowbase 0 0 0 1 0) := by decide
theorem test_swath_move : decodeSw 0x6000000000000140 = some (.move 0 false 320) := by decide
theorem test_swath_endloops : decodeSw 0xC200000000000000 = some (.endloop 1) ∧ decodeSw 0xC000000000000000 = some (.endloop 0) := by decide
theorem test_swath_sync : decodeSw 0xB000000000000001 = some (.syncPost 0 1) := by decide
theorem test_swath_end : decodeSw 0x0000000000000000 = some (.end_ false 0) := by decide

/-! ### The power cap (13, the example "lowering the cap under the reference mix") -/

theorem test_cap_stage_rises : capStage 0 0 1450 1300 = (1, 0) ∧ capStage 5 0 1306 1300 = (6, 0) := by decide
theorem test_cap_stage_holds : capStage 6 0 1278 1300 = (6, 0) := by decide
theorem test_cap_ceiling_falls : capStage 16 0 990 950 = (16, 1) := by decide

/-! ### Sample packing (11 R279) -/

theorem test_pack :
    packSample 0 0x89ABCDEF#32 = [0xAB, 0x89] ∧ packSample 1 0x89ABCDEF#32 = [0xCD, 0xAB, 0x89] ∧
      packSample 2 0x89ABCDEF#32 = [0, 0xCD, 0xAB, 0x89] ∧ packSample 3 0x89ABCDEF#32 = [0xCD, 0xAB, 0x89, 0xFF] ∧
      packSample 4 0x89ABCDEF#32 = [0xEF, 0xCD, 0xAB, 0x89] := by decide
/-- 44.1 kHz from PLLB by 64, and from PLLA by 69 + 11,070,680 / 2^24 (11, the example "44.1 kHz from either reference"). -/
theorem test_divider_rates :
    rateOk 0x11#32 0x40#32 2 0 = false ∧ rateOk 0x11#32 0x40#32 64 0 = true ∧ rateOk 0x01#32 0x40#32 69 11070680 = true := by decide

end Sys2Proof.Tests
end

