-- ==== Sys2Proof/Tests/Witness01.lean ====
section
/-! SUPPORT. Witnesses: for each clause of a statement, a state and operands that meet its hypotheses together (Witness01). -/

namespace Sys2Proof.Tests
open Sys2Proof Sys2Proof.Machine
set_option maxRecDepth 100000
set_option linter.unusedVariables false
set_option Elab.async false

/-- The guard of the loader stands open. -/
def cfgOpen : State := open_ .cfg idle
def loading (l : LoadState) : State := { cfgOpen with loader := { cfgOpen.loader with state := l } }
/-- Peer 5 has a session with every role. -/
def peered : State := { idle with sec := { sec0 with sessions := [⟨7, 5, 0xFF, 1, [], [], 0, 0, 0⟩] } }
/-- An event's hold-off time runs. -/
def held (p : Option (Word × W64)) : State := { idle with events := { idle.events with holds := [(Reg.HUB_EVENT_STATUS, ⟨true, p⟩)] } }

theorem witness_StepRunsFrontCommand :
    (∃ (c : Instr) (rest : List Instr) (s : State), s.pending = c :: rest) ∧
    (∃ s : State, s.pending = []) :=
  ⟨⟨.hubCommitDone, [], { idle with pending := [.hubCommitDone] }, rfl⟩,
   ⟨idle, rfl⟩⟩

theorem witness_EventsLeaveTheRest :
    (∃ s t : State, ∃ key, key ≠ Reg.EB_EVENT_LOST) :=
  ⟨idle, idle, 0, by decide +kernel⟩

theorem witness_EventRecordsAndLimits :
    (∃ (s : State) (addr : Nat) (bits : Word), (AMap.getD s.events.holds addr ⟨false, none⟩) = ⟨false, none⟩ ∧ s.events.window < s.eventRate ∧ s.events.queue.length < 1024) ∧
    (∃ (s : State) (addr : Nat) (bits w : Word) (t : W64) (r : Bool), AMap.get? s.events.holds addr = some ⟨r, some (w, t)⟩) ∧
    (∃ (s : State) (status : Word) (addr : Nat) (w : Word) (t : W64), s.events.holds.find? (fun e => decide (s.canonical e.1 = status.toNat) && e.2.running) = some (addr, ⟨true, some (w, t)⟩) ∧ AMap.get? s.events.holds addr = some ⟨true, some (w, t)⟩ ∧ s.events.window < s.eventRate ∧ s.events.queue.length < 1024) ∧
    (∃ (s : State) (status : Word) (addr : Nat), s.events.holds.find? (fun e => decide (s.canonical e.1 = status.toNat) && e.2.running) = some (addr, ⟨true, none⟩) ∧ AMap.get? s.events.holds addr = some ⟨true, none⟩) ∧
    (∃ s : State, s.events.holds.all (fun e => e.2.running || e.2.pending.isNone) = true) := by
  refine ⟨⟨idle, Reg.HUB_EVENT_STATUS, 2, ?_⟩,
    ⟨held (some (1, 3)), Reg.HUB_EVENT_STATUS, 2, 1, 3, true, ?_⟩,
    ⟨held (some (1, 3)), w32 Reg.HUB_EVENT_STATUS, Reg.HUB_EVENT_STATUS, 1, 3, ?_⟩,
    ⟨held none, w32 Reg.HUB_EVENT_STATUS, Reg.HUB_EVENT_STATUS, ?_⟩,
    ⟨held none, ?_⟩⟩ <;> decide +kernel

theorem witness_GuardsOpenAndClose :
    (∃ (s : State) (src : Source) (block : Block) (key : Nat), guardReg block = some key ∧ s.MayWrite src key) ∧
    (∃ (s : State) (src : Source) (block : Block), ∃ other, sourceId other ≠ sourceId src) ∧
    (∃ (s : State) (src : Source) (block : Block), AMap.wf s.guards = true) ∧
    (∃ (s : State) (src : Source) (addr v : Word) (key : Nat), s.landing addr.toNat = .place key ∧ s.MayWrite src key ∧ ¬ (0x00100000 ≤ addr.toNat ∧ addr.toNat < 0x00200000) ∧ guardReg (blockOf key) = some key ∧ (descOf key).isSome = true) := by
  refine ⟨⟨idle, cp, .cfg, Reg.CFG_GUARD, ?_⟩,
    ⟨idle, cp, .cfg, .cp 1, ?_⟩,
    ⟨cfgOpen, cp, .cfg, ?_⟩,
    ⟨idle, cp, w32 Reg.CFG_GUARD, 0xC1A5#32, Reg.CFG_GUARD, ?_⟩⟩ <;> decide +kernel

theorem witness_RegMessagesRunInOrder :
    (∃ (s : State) (peer : Fin 16384) (tag : BitVec 16) (ops : List RegOp), s.session peer.val = none) ∧
    (∃ (s : State) (peer : Fin 16384) (tag : BitVec 16) (ops : List RegOp), (s.session peer.val).isSome = true) ∧
    (∃ (s : State) (peer : Fin 16384) (o : RegOp) (rest : List RegOp), (s.regOp peer o).2.1 = 0) ∧
    (∃ (s : State) (peer : Fin 16384) (o : RegOp) (rest : List RegOp), (s.regOp peer o).2.1 ≠ 0) ∧
    (∃ (s : State) (peer : Fin 16384) (o : RegOp), o.op = 2) := by
  refine ⟨⟨idle, 5, 1, [], ?_⟩,
    ⟨peered, 5, 1, [], ?_⟩,
    ⟨peered, 5, ⟨1, w32 Reg.HUB_CORE_SPARE, 0⟩, [], ?_⟩,
    ⟨peered, 5, ⟨1, 0xFFFFFFFC#32, 0⟩, [], ?_⟩,
    ⟨peered, 5, ⟨2, w32 Reg.HUB_CORE_SPARE, 0⟩, ?_⟩⟩ <;> decide +kernel

theorem witness_LoaderCommands :
    (∃ (s : State) (src : Source), s.MayCommand src Reg.CFG_CMD ∧ s.loader.state = .idle ∧ s.loader.move = none ∧ s.tiers.rowsOffline ≠ 0xFFFFFFFF#32) ∧
    (∃ (s : State) (src : Source), s.MayCommand src Reg.CFG_CMD ∧ s.loader.state ≠ .idle ∧ s.loader.state ≠ .rejected) ∧
    (∃ (s : State) (src : Source), s.MayCommand src Reg.CFG_CMD ∧ s.loader.state = .staged ∧ s.loader.move = none ∧ s.loadLulls = 0) ∧
    (∃ (s : State) (src : Source), s.MayCommand src Reg.CFG_CMD ∧ s.loader.state = .staged ∧ s.loader.move = none) ∧
    (∃ (s : State) (src : Source), s.MayCommand src Reg.CFG_CMD ∧ (s.loader.state = .receiving ∨ s.loader.state = .verifying)) ∧
    (∃ (s : State) (src : Source), s.MayCommand src Reg.CFG_CMD ∧ (s.loader.state = .staged ∨ s.loader.state = .lulling)) ∧
    (∃ (s : State) (src : Source), s.MayCommand src Reg.CFG_CMD ∧ (s.loader.state = .idle ∨ s.loader.state = .applying)) ∧
    (∃ (s : State) (src : Source), s.MayCommand src Reg.CFG_CMD ∧ s.loader.state = .rejected) ∧
    (∃ (s : State) (src : Source), s.MayCommand src Reg.CFG_CMD ∧ s.loader.state ≠ .rejected ∧ (∀ b, (s.bay b).lullRestart = false)) ∧
    (∃ (s : State) (src : Source) (b : Nat), b < 16 ∧ s.MayCommand src Reg.CFG_CMD ∧ s.loader.state ≠ .rejected ∧ (∀ c, (s.bay c).lullRestart = decide (c = b))) := by
  refine ⟨⟨cfgOpen, cp, ?_⟩,
    ⟨loading .verifying, cp, ?_⟩,
    ⟨loading .staged, cp, ?_⟩,
    ⟨loading .staged, cp, ?_⟩,
    ⟨loading .receiving, cp, ?_⟩,
    ⟨loading .lulling, cp, ?_⟩,
    ⟨loading .applying, cp, ?_⟩,
    ⟨loading .rejected, cp, ?_⟩,
    ⟨cfgOpen, cp, by decide +kernel, by decide +kernel, fun _ => rfl⟩,
    ⟨{ cfgOpen with bays := [(0, { (idle.bay 0) with lullRestart := true })] }, cp, 0, by decide +kernel, by decide +kernel, by decide +kernel, fun c => by cases c <;> rfl⟩⟩ <;> decide +kernel

theorem witness_SerialFloorRises :
    (∃ (s : State) (src : Source) (v : Word), s.MayCommand src Reg.CFG_SERIAL_FLOOR_HI) ∧
    (∃ (s : State) (src : Source) (h v : Word), s.MayCommand src Reg.CFG_SERIAL_FLOOR_LO ∧ s.loader.floorHi = some h ∧ s.loader.floor.toNat ≤ (pair v h).toNat) ∧
    (∃ (s : State) (src : Source) (h v : Word), s.MayCommand src Reg.CFG_SERIAL_FLOOR_LO ∧ s.loader.floorHi = some h ∧ (pair v h).toNat < s.loader.floor.toNat) ∧
    (∃ (s : State) (src : Source) (v : Word), AMap.wf s.guards = true ∧ s.MayWrite src Reg.CFG_SERIAL_FLOOR_LO) := by
  refine ⟨⟨cfgOpen, cp, 1, ?_⟩,
    ⟨{ cfgOpen with loader := { cfgOpen.loader with floorHi := some 0 } }, cp, 0, 1, ?_⟩,
    ⟨{ cfgOpen with loader := { cfgOpen.loader with floorHi := some 0, floor := 9 } }, cp, 0, 8, ?_⟩,
    ⟨idle, cp, 0, ?_⟩⟩ <;> decide +kernel

end Sys2Proof.Tests
end

