-- ==== Sys2Proof/Tests/Witness02.lean ====
section
/-! SUPPORT. Witnesses: for each clause of a statement, a state and operands that meet its hypotheses together (Witness02). -/

namespace Sys2Proof.Tests
open Sys2Proof Sys2Proof.Machine
set_option maxRecDepth 100000
set_option linter.unusedVariables false
set_option Elab.async false

/-- The guard of a block stands open, bay 0 defined. -/
def bayOpen (b : Block) : State := open_ b bayed
/-- Peer 5 has a session with the roles of a mask. -/
def peer_ (roles : Nat) (s : State) : State := { s with sec := { s.sec with sessions := [⟨7, 5, roles, 1, [], [], 0, 0, 0⟩] } }
def moving (m : MoveStep) : State := { bayed with loader := { bayed.loader with move := some ⟨0, 0, false, m⟩ } }
def phase_ (p : CommitPhase) : State := { idle with loader := { idle.loader with phase := p } }
def bay0 (f : Bay → Bay) (s : State) : State := s.setBay 0 (f (s.bay 0))
def crc_ (c : CrcState) : State := { idle with loader := { idle.loader with crcState := c } }
/-- A header that says a length of 1,024 bytes (02 R28). -/
def header1024 : Bytes := List.replicate 8 1 ++ leBytes 4 1024 ++ List.replicate 244 1
def receivedAt (a : Nat) (h : Bytes) : State :=
  { idle.physWrite a h false with loader := { idle.loader with op := { idle.loader.op with length := some 1024, granules := 15 } } }
def received : State := receivedAt Config.stageBase header1024
theorem receivedAt_mem (a : Nat) (h : Bytes) : (receivedAt a h).mem = (idle.physWrite a h false).mem := rfl
theorem read_back (s : State) (a : Nat) (bs : Bytes) (hm : Memory.wf s.mem) : (s.physWrite a bs false).physRead a bs.length = bs := by
  refine List.ext_getElem (by simp [State.physRead, memGet]) fun i h1 h2 => ?_
  simp only [State.physRead, memGet, List.getElem_map, List.getElem_range, State.physWrite]
  exact memPutAll_inside a bs hm i h2
theorem read_mem (s t : State) (a n : Nat) (h : s.mem = t.mem) : s.physRead a n = t.physRead a n := by rw [State.physRead, State.physRead, h]
theorem header_length : header1024.length = 256 := by decide +kernel
theorem received_header : received.staged 0 256 = header1024 := by
  have h := read_back idle Config.stageBase header1024 (by decide +kernel)
  rw [header_length] at h
  rw [State.staged, Nat.add_zero, received, read_mem _ _ _ _ (receivedAt_mem _ _), h]
def fault_ : OutFault := ⟨3, 0, 0, 0, 4, 0, 0, false, .notPresent, .none, true⟩
def faulted : State := { idle with trans := { idle.trans with faults := [fault_], fqCount := 1 } }
def inv_ : InvCmd := ⟨0, true, true, 1, 0, 0⟩
theorem walk_ok : okOf (bayed.translate (0 : Fin 16).val (0x1FFFFF#64).toNat true (bayed.engineOf .rdma 0)).2 =
    some ⟨0x200000, 0x200000, leaf_ 0x200000, ⟨0, 0x40000000, 0, true, true, true⟩⟩ := by decide +kernel
theorem walk_absent : errOf (bayed.translate (0 : Fin 16).val (0x200000#64).toNat true (bayed.engineOf .dispatcher 0)).2 =
    some (.notPresent, 3, 0) := by decide +kernel
theorem walk_outside : errOf (bayed.translate (15 : Fin 16).val (0#64).toNat true (bayed.engineOf .audio 0)).2 = some (.outside, 0, 0) := by decide +kernel

theorem witness_WritesWithoutEffect :
    (∃ (s : State) (src : Source) (addr : Nat) (v : Word) (key : Nat) (d : RegDesc), s.landing addr = .place key ∧ descOf key = some d ∧ s.MayWrite src key ∧ ¬ (0x00100000 ≤ addr ∧ addr < 0x00200000) ∧ guardReg (blockOf key) ≠ some key ∧ ((d.access = .ro ∨ d.access = .rl ∨ d.access = .rc))) ∧
    (∃ (s : State) (src : Source) (addr : Nat) (v w : Word) (key : Nat) (d : RegDesc), s.landing addr = .place key ∧ descOf key = some d ∧ ¬ (0x00100000 ≤ addr ∧ addr < 0x00200000) ∧ guardReg (blockOf key) ≠ some key ∧ d.access ≠ .wo ∧ v &&& d.mask = w &&& d.mask) ∧
    (∃ (s : State) (key : Nat) (d : RegDesc), descOf key = some d ∧ d.access = .wo) :=
  ⟨⟨idle, cp, Reg.HUB_CORE_SPARE, 1, Reg.HUB_CORE_SPARE, (descOf Reg.HUB_CORE_SPARE).get (by decide +kernel), by decide +kernel⟩,
   ⟨idle, cp, Reg.EB_RTO, 0xFFF00001#32, 1, Reg.EB_RTO, (descOf Reg.EB_RTO).get (by decide +kernel), by decide +kernel⟩,
   ⟨idle, Reg.SEC_GUARD, (descOf Reg.SEC_GUARD).get (by decide +kernel), by decide +kernel⟩⟩

theorem witness_StreamWindowAliases :
    (∃ (s : State) (src : Source) (addr canonical v : Word), 0x04000000 ≤ addr.toNat ∧ addr.toNat < 0x05000000 ∧ addr.toNat % 4 = 0 ∧ canonical.toNat = 0x04000000 + (addr.toNat - 0x04000000) % 0x00400000) :=
  ⟨idle, cp, 0x04FFFFFC#32, 0x043FFFFC#32, 1, by decide +kernel⟩

theorem witness_GuardedCommandsRefused :
    (∃ (c : Instr) (s : State) (src : Source) (key : Nat), guardedPlace s c = some (src, key) ∧ s.MayWrite src key ∧ ¬ s.GuardHeld src key) ∧
    (∃ (c : Instr) (s : State) (src : Source) (key : Nat), guardedPlace s c = some (src, key) ∧ s.admitted src = false) ∧
    (∃ (c : Instr) (s : State) (src : Source) (key : Nat), guardedPlace s c = some (src, key) ∧ s.admitted src = true ∧ s.hasRole src (writeRole key) = false) := by
  refine ⟨⟨.cfgLoad cp, idle, cp, Reg.CFG_CMD, ?_⟩,
    ⟨.cfgLoad (.peer 5), idle, .peer 5, Reg.CFG_CMD, ?_⟩,
    ⟨.cfgLoad (.peer 5), peer_ 0 idle, .peer 5, Reg.CFG_CMD, ?_⟩⟩ <;> decide +kernel

theorem witness_OpenAccessesRefused :
    (∃ (c : Instr) (s : State) (src : Source) (key : Nat), openPlace s c = some (src, key) ∧ s.admitted src = false) ∧
    (∃ (c : Instr) (s : State) (src : Source) (key : Nat), openPlace s c = some (src, key) ∧ s.admitted src = true ∧ s.hasRole src (writeRole key) = false) ∧
    (∃ (c : Instr) (s : State) (src : Source) (key : Nat), readPlace c = some (src, key) ∧ s.admitted src = false) ∧
    (∃ (c : Instr) (s : State) (src : Source) (key : Nat), readPlace c = some (src, key) ∧ s.admitted src = true ∧ s.hasRole src .read = false) := by
  refine ⟨⟨.scArm (.peer 5) 0, idle, .peer 5, Reg.SC_CMD 0, ?_⟩,
    ⟨.scArm (.peer 5) 0, peer_ 0 idle, .peer 5, Reg.SC_CMD 0, ?_⟩,
    ⟨.apRateRead (.peer 5) 5, idle, .peer 5, Reg.AP_RATE 5, ?_⟩,
    ⟨.apRateRead (.peer 5) 5, peer_ 0 idle, .peer 5, Reg.AP_RATE 5, ?_⟩⟩ <;> decide +kernel

theorem witness_ReadsEndStatusBits :
    (∃ (s : State) (src : Source), s.MayRead src) ∧
    (∃ (s : State) (src : Source), ∃ bay : Fin 16, s.MayRead src) ∧
    (∃ (s : State) (src : Source), ∃ (bay : Fin 16) (ch : Fin 4), s.MayRead src) ∧
    (∃ (s : State) (src : Source), ∃ port : Fin 6, s.MayRead src) ∧
    (∃ (c : Instr) (s : State) (src : Source) (key status bitNo : Nat), readPlace c = some (src, key) ∧ readLatch c = some (status, bitNo) ∧ s.MayRead src) := by
  refine ⟨⟨idle, cp, ?_⟩,
    ⟨idle, cp, 0, ?_⟩,
    ⟨idle, cp, 0, 0, ?_⟩,
    ⟨idle, cp, 0, ?_⟩,
    ⟨.apRateRead cp 5, idle, cp, Reg.AP_RATE 5, Reg.AP_PORT_EVENT_STATUS 5, 1, ?_⟩⟩ <;> decide +kernel

theorem witness_WritesByAccessCode :
    (∃ (s : State) (src : Source) (addr v : Word) (key : Nat) (d : RegDesc), s.landing addr.toNat = .place key ∧ descOf key = some d ∧ s.MayWrite src key ∧ ¬ (0x00100000 ≤ addr.toNat ∧ addr.toNat < 0x00200000) ∧ guardReg (blockOf key) ≠ some key ∧ d.access = .rw ∧ (s.Entered src key).accepts key (v &&& d.mask) = true ∧ d.clears = false ∧ keyAddr key ≠ Reg.TRN_FQ_TAIL ∧ ¬ (0x04000000 ≤ keyAddr key ∧ keyAddr key < 0x05400000)) ∧
    (∃ (s : State) (src : Source) (addr v : Word) (key : Nat) (d : RegDesc), s.landing addr.toNat = .place key ∧ descOf key = some d ∧ s.MayWrite src key ∧ ¬ (0x00100000 ≤ addr.toNat ∧ addr.toNat < 0x00200000) ∧ guardReg (blockOf key) ≠ some key ∧ d.access = .rw ∧ (s.Entered src key).accepts key (v &&& d.mask) = true ∧ d.clears = true ∧ keyAddr key < 0x06000000) ∧
    (∃ (s : State) (src : Source) (addr v : Word) (key : Nat) (d : RegDesc), s.landing addr.toNat = .place key ∧ descOf key = some d ∧ s.MayWrite src key ∧ ¬ (0x00100000 ≤ addr.toNat ∧ addr.toNat < 0x00200000) ∧ guardReg (blockOf key) ≠ some key ∧ (d.access = .rs ∨ d.access = .rx) ∧ (s.Entered src key).accepts key (v &&& d.mask) = true ∧ ¬ (0x00380000 ≤ keyAddr key ∧ keyAddr key < 0x00400000) ∧ keyAddr key < 0x06000000 ∧ keyAddr key ≠ Reg.EB_PORT_CTRL ∧ keyAddr key ≠ keyAddr (Reg.EB_QB 0) ∧ keyAddr key ≠ keyAddr (Reg.EB_QB_CONN 0)) ∧
    (∃ (s : State) (src : Source) (addr v : Word) (key : Nat) (d : RegDesc), s.landing addr.toNat = .place key ∧ descOf key = some d ∧ s.MayWrite src key ∧ ¬ (0x00100000 ≤ addr.toNat ∧ addr.toNat < 0x00200000) ∧ guardReg (blockOf key) ≠ some key ∧ d.access = .rk ∧ ¬ s.GuardHeld src key) ∧
    (∃ (s : State) (src : Source) (addr v : Word) (key : Nat) (d : RegDesc), s.landing addr.toNat = .place key ∧ descOf key = some d ∧ s.MayWrite src key ∧ ¬ (0x00100000 ≤ addr.toNat ∧ addr.toNat < 0x00200000) ∧ guardReg (blockOf key) ≠ some key ∧ d.access = .rk ∧ s.GuardHeld src key ∧ (s.closeGuard src).accepts key (v &&& d.mask) = true ∧ d.boundary ≠ .now ∧ key ≠ Reg.CFGCRC_REF ∧ key ≠ Reg.EB_MACSEC_CTRL ∧ ¬ (0x01000000 ≤ key ∧ key < 0x03400000)) ∧
    (∃ (s : State) (src : Source) (addr v : Word) (key : Nat) (d : RegDesc), s.landing addr.toNat = .place key ∧ descOf key = some d ∧ s.MayWrite src key ∧ ¬ (0x00100000 ≤ addr.toNat ∧ addr.toNat < 0x00200000) ∧ guardReg (blockOf key) ≠ some key ∧ (d.access = .rw ∨ d.access = .rs ∨ d.access = .rx) ∧ (s.Entered src key).accepts key (v &&& d.mask) = false) ∧
    (∃ (s : State) (src : Source) (addr v : Word) (key : Nat) (d : RegDesc), s.landing addr.toNat = .place key ∧ descOf key = some d ∧ s.MayWrite src key ∧ ¬ (0x00100000 ≤ addr.toNat ∧ addr.toNat < 0x00200000) ∧ guardReg (blockOf key) ≠ some key ∧ d.access = .rk ∧ s.GuardHeld src key ∧ (s.closeGuard src).accepts key (v &&& d.mask) = false) :=
  ⟨⟨idle, cp, w32 Reg.EB_RTO, 0x1000A#32, Reg.EB_RTO, (descOf Reg.EB_RTO).get (by decide +kernel), by decide +kernel⟩,
   ⟨idle, cp, w32 Reg.HUB_BAD_ADDR, 5, Reg.HUB_BAD_ADDR, (descOf Reg.HUB_BAD_ADDR).get (by decide +kernel), by decide +kernel⟩,
   ⟨idle, cp, w32 Reg.HUB_EVENT_RATE, 1024, Reg.HUB_EVENT_RATE, (descOf Reg.HUB_EVENT_RATE).get (by decide +kernel), by decide +kernel⟩,
   ⟨idle, cp, w32 Reg.PMC_CAP, 600, Reg.PMC_CAP, (descOf Reg.PMC_CAP).get (by decide +kernel), by decide +kernel⟩,
   ⟨open_ .pmc idle, cp, w32 Reg.PMC_CAP, 1750, Reg.PMC_CAP, (descOf Reg.PMC_CAP).get (by decide +kernel), by decide +kernel⟩,
   ⟨idle, cp, w32 Reg.HUB_EVENT_RATE, 1025, Reg.HUB_EVENT_RATE, (descOf Reg.HUB_EVENT_RATE).get (by decide +kernel), by decide +kernel⟩,
   ⟨open_ .pmc idle, cp, w32 Reg.PMC_CAP, 599, Reg.PMC_CAP, (descOf Reg.PMC_CAP).get (by decide +kernel), by decide +kernel⟩⟩

theorem witness_CommitsApplyAndComplete :
    (∃ (s : State) (src : Source) (mask : Word), s.MayCommand src Reg.HUB_COMMIT ∧ s.commitMask = none ∧ fld mask 11 0 ≠ 0) ∧
    (∃ (s : State) (src : Source) (mask : Word), s.MayCommand src Reg.HUB_COMMIT ∧ s.commitMask ≠ none) ∧
    (∃ (s : State) (src : Source) (mask : Word), s.MayCommand src Reg.HUB_COMMIT ∧ s.commitMask = none ∧ fld mask 11 0 = 0) ∧
    (∃ s : State, s.commitMask ≠ none) ∧
    (∃ s : State, s.commitMask = none) := by
  refine ⟨⟨open_ .hub idle, cp, 1, ?_⟩,
    ⟨{ open_ .hub idle with commitMask := some 1 }, cp, 1, ?_⟩,
    ⟨open_ .hub idle, cp, 0x1000#32, ?_⟩,
    ⟨{ idle with commitMask := some 1 }, ?_⟩,
    ⟨idle, ?_⟩⟩ <;> decide +kernel

theorem witness_ImageReceivedAndChecked :
    (∃ (s : State) (peer : Fin 16384) (offset : Word) (data : List Byte), (s.session peer.val).isSome = true ∧ s.peerRole peer.val .configure = true ∧ s.loader.state = .receiving ∧ offset.toNat % 64 = 0 ∧ (data.length % 64 = 0 ∨ s.loader.op.length = some (offset.toNat + data.length)) ∧ offset.toNat + data.length ≤ 0x4000000) ∧
    (∃ (s : State) (peer : Fin 16384) (offset : Word) (data : List Byte), (s.session peer.val).isSome = true ∧ s.peerRole peer.val .configure = true ∧ s.loader.state ≠ .receiving) ∧
    (∃ (s : State) (peer : Fin 16384) (offset : Word) (data : List Byte), (s.session peer.val).isSome = true ∧ s.peerRole peer.val .configure = false) ∧
    (∃ (s : State) (n : Nat), lengthOk n = true ∧ imageLength (s.staged 0 256) = n ∧ ([0, 1, 2, 3].all fun g => s.loader.op.got g) = true ∧ ((List.range (ceilDiv n 64)).all fun g => s.loader.op.got g) = false) ∧
    (∃ (s : State) (c : Nat), let u := s.readImage (imageLength s.loader.op.header)
      s.loader.state = .verifying ∧ u.signatureFault = some c) ∧
    (∃ s : State, s.loader.state ≠ .verifying) := by
  refine ⟨⟨peer_ 0xFF { idle with loader := { idle.loader with state := .receiving, op := { idle.loader.op with length := some 1024 } } }, 5, 0x3FFFFC0#32, List.replicate 64 1, ?_⟩,
    ⟨peer_ 0xFF idle, 5, 0, [], ?_⟩,
    ⟨peer_ 0 idle, 5, 0, [], ?_⟩,
    ⟨received, 1024, by decide +kernel, by rw [received_header]; decide +kernel, by decide +kernel, by decide +kernel⟩,
    ⟨{ idle with loader := { idle.loader with state := .verifying } }, 1, ?_⟩,
    ⟨idle, ?_⟩⟩ <;> decide +kernel

theorem witness_CommitRunsInSteps :
    (∃ s : State, s.loader.phase = .copyA) ∧
    (∃ s : State, s.loader.phase = .copyB ∧ s.loader.move = none) ∧
    (∃ s : State, s.loader.phase = .tables ∧ s.loader.move = none ∧ (∀ b, (s.bay b).lullLoad = false) ∧ ((∀ b, b < 16 → s.loader.carried b = false))) ∧
    (∃ s : State, s.loader.phase = .tables) ∧
    (∃ s : State, s.loader.phase = .none) := by
  refine ⟨⟨phase_ .copyA, ?_⟩,
    ⟨phase_ .copyB, ?_⟩,
    ⟨phase_ .tables, by decide +kernel, by decide +kernel, fun _ => rfl, by decide +kernel⟩,
    ⟨phase_ .tables, ?_⟩,
    ⟨phase_ .none, ?_⟩⟩ <;> decide +kernel

theorem witness_BayMovesInSteps :
    (∃ (s : State) (src : Source) (bay : Fin 16) (core : BitVec 6) (sp : Nat), s.MayCommand src Reg.CFG_CMD ∧ s.loader.state = .idle ∧ s.loader.move = none ∧ (s.bayCores bay.val).contains core.toNat = true ∧ s.coreActive core.toNat = true ∧ substituted s.loader.record (core.toNat / 9) = none ∧ bit s.loader.spareFailed (core.toNat / 9) = false ∧ s.spareOf (core.toNat / 9) = some sp) ∧
    (∃ (s : State) (m : MoveOp), s.loader.move = some m ∧ m.step = .selfTest) ∧
    (∃ (s : State) (m : MoveOp) (sp : Nat), s.loader.move = some m ∧ m.step = .copy ∧ s.coreInFlight m.core = false ∧ s.spareOf (m.core / 9) = some sp) ∧
    (∃ (s : State) (m : MoveOp), s.loader.move = some m ∧ m.step = .weights) ∧
    (∃ (s : State) (pass : Bool), s.loader.move = none) := by
  refine ⟨⟨bayOpen .cfg, cp, 0, 0, 8, ?_⟩,
    ⟨moving .selfTest, ⟨0, 0, false, .selfTest⟩, ?_⟩,
    ⟨moving .copy, ⟨0, 0, false, .copy⟩, 8, ?_⟩,
    ⟨moving .weights, ⟨0, 0, false, .weights⟩, ?_⟩,
    ⟨idle, true, ?_⟩⟩ <;> decide +kernel

theorem witness_LullRequestedReachedReleased :
    (∃ (s : State) (src : Source) (bay : Fin 16), s.MayCommand src Reg.CFG_LULL_REQ ∧ s.lullLocked bay.val = false ∧ (s.bayDef bay.val).isSome = true) ∧
    (∃ (s : State) (src : Source) (bay : Fin 16), s.MayCommand src Reg.CFG_LULL_REQ ∧ (s.bay bay.val).lullWanted = true ∧ s.lullLocked bay.val = false ∧ (s.bayDef bay.val).isSome = true ∧ (s.bay bay.val).lullHost = false) ∧
    (∃ (s : State) (bay : Fin 16), (s.bay bay.val).lullWanted = true ∧ (s.bay bay.val).lulled = false ∧ (s.bayDef bay.val).isSome = true ∧ (s.enterLull bay.val).lcWork bay.val = false ∧ (s.enterLull bay.val).beOnCore bay.val = false ∧ (s.enterLull bay.val).storeDue bay.val = false) ∧
    (∃ (s : State) (bay : Fin 16), (s.bay bay.val).lullWanted = false) := by
  refine ⟨⟨bayOpen .cfg, cp, 0, ?_⟩,
    ⟨bay0 (fun y => { y with lullLoad := true }) (bayOpen .cfg), cp, 0, ?_⟩,
    ⟨bay0 (fun y => { y with lullHost := true }) bayed, 0, ?_⟩,
    ⟨bayed, 15, ?_⟩⟩ <;> decide +kernel

theorem witness_CrcMonitorSweeps :
    (∃ (s : State) (src : Source) (v : Word), s.MayCommand src Reg.CFGCRC_REF) ∧
    (∃ s : State, s.loader.crcState = .awaitRef) ∧
    (∃ s : State, s.loader.crcState = .comparing ∧ crc32c s.sweepBytes = s.latest Reg.CFGCRC_REF ∧ (∀ k ∈ s.sweepSlots, s.applied k = s.loader.activeCopy s.loader.record k)) ∧
    (∃ s : State, s.loader.crcState = .comparing ∧ crc32c s.sweepBytes ≠ s.latest Reg.CFGCRC_REF) ∧
    (∃ s : State, s.loader.crcState = .awaitRef ∧ s.loader.crcWarned = false) ∧
    (∃ s : State, s.loader.crcState = .comparing) := by
  refine ⟨⟨open_ .cfg idle, cp, 1, ?_⟩,
    ⟨crc_ .awaitRef, ?_⟩,
    ⟨crc_ .comparing, ?_⟩,
    ⟨(crc_ .comparing).setReg Reg.CFGCRC_REF 1, ?_⟩,
    ⟨crc_ .awaitRef, ?_⟩,
    ⟨crc_ .comparing, ?_⟩⟩ <;> decide +kernel

theorem witness_LoftRepairAndRefresh :
    (∃ (s : State) (die : Fin 4) (bank row : Nat), Config.spareRows (bankKey die.val bank) ≤ AMap.getD s.tiers.spareUsed (bankKey die.val bank) 0) :=
  ⟨{ idle with tiers := { idle.tiers with spareUsed := [(bankKey 3 0, Config.spareRows (bankKey 3 0))] } }, 3, 0, 0, by simp [AMap.getD, AMap.get?, show bankKey 3 0 = bankKey (3 : Fin 4).val 0 from rfl]⟩

theorem witness_TableWalksTranslateOrFault :
    (∃ (s t : State) (bay : Fin 16) (va : W64) (write : Bool) (who : Requester) (holder : Nat) (x : Translation), s.translate bay.val va.toNat write (s.engineOf who holder) = (t, .ok x)) ∧
    (∃ (s t : State) (bay : Fin 16) (va : W64) (write : Bool) (holder level : Nat) (cause : FaultCause) (entry : W64), s.translate bay.val va.toNat write (s.engineOf .dispatcher holder) = (t, .error (cause, level, entry))) ∧
    (∃ (s t : State) (bay : Fin 16) (va : W64) (write : Bool) (who : Requester) (holder level : Nat) (cause : FaultCause) (entry : W64), (who = .rdma ∨ who = .bale ∨ who = .batcher ∨ who = .audio) ∧ s.translate bay.val va.toNat write (s.engineOf who holder) = (t, .error (cause, level, entry))) :=
  ⟨⟨bayed, _, 0, 0x1FFFFF#64, true, .rdma, 0, _, pair_ok walk_ok⟩,
   ⟨bayed, _, 0, 0x200000#64, true, 0, _, _, _, pair_err walk_absent⟩,
   ⟨bayed, _, 15, 0#64, true, .audio, 0, _, _, _, by decide +kernel, pair_err walk_outside⟩⟩

theorem witness_InvalidatesAndFaultQueue :
    (∃ (s : State) (src : Source) (v : Word), s.MayWrite src Reg.TRN_INV_CMD ∧ s.trans.invs.length < 64) ∧
    (∃ (s : State) (src : Source) (v : Word), s.MayWrite src Reg.TRN_INV_CMD ∧ 64 ≤ s.trans.invs.length) ∧
    (∃ (s : State) (c : InvCmd) (rest : List InvCmd), s.trans.invs = c :: rest ∧ s.scopeBusy c = false) ∧
    (∃ s : State, s.trans.invs = []) ∧
    (∃ (s : State) (src : Source) (v : Word) (n : Nat), s.MayWrite src Reg.TRN_FQ_TAIL ∧ n = (fld v 11 0 + 4096 - (s.reg Reg.TRN_FQ_TAIL).toNat) % 4096 ∧ n ≤ s.trans.fqCount) ∧
    (∃ (s : State) (src : Source) (v : Word) (n : Nat), s.MayWrite src Reg.TRN_FQ_TAIL ∧ n = (fld v 11 0 + 4096 - (s.reg Reg.TRN_FQ_TAIL).toNat) % 4096 ∧ n ≤ s.trans.fqCount ∧ s.trans.faults.all (fun f => f.posted && f.cause.resumable) = true) ∧
    (∃ (s : State) (src : Source) (v : Word), s.MayWrite src Reg.TRN_FQ_TAIL ∧ s.trans.fqCount < (fld v 11 0 + 4096 - (s.reg Reg.TRN_FQ_TAIL).toNat) % 4096) ∧
    (∃ (s : State) (src : Source) (tag : BitVec 16) (f : OutFault), s.MayWrite src Reg.TRN_FAULT_RESUME ∧ s.trans.faults.find? (fun x => x.tag = tag.toNat && x.posted) = some f) ∧
    (∃ (s : State) (src : Source) (tag : BitVec 16) (abort : Bool), s.MayWrite src Reg.TRN_FAULT_RESUME ∧ s.trans.faults.find? (fun x => x.tag = tag.toNat && x.posted) = none) := by
  refine ⟨⟨idle, cp, 0, ?_⟩,
    ⟨{ idle with trans := { idle.trans with invs := List.replicate 64 inv_ } }, cp, 0, ?_⟩,
    ⟨{ idle with trans := { idle.trans with invs := [inv_] } }, inv_, [], ?_⟩,
    ⟨idle, ?_⟩,
    ⟨faulted, cp, 0, 0, ?_⟩,
    ⟨faulted, cp, 1, 1, ?_⟩,
    ⟨faulted, cp, 2, ?_⟩,
    ⟨faulted, cp, 3, fault_, ?_⟩,
    ⟨faulted, cp, 4, true, ?_⟩⟩ <;> decide +kernel

end Sys2Proof.Tests
end

