-- ==== Sys2Proof/Tests/Witness03.lean ====
section
/-! SUPPORT. Witnesses: for each clause of a statement, a state and operands that meet its hypotheses together (Witness03). -/

namespace Sys2Proof.Tests
open Sys2Proof Sys2Proof.Machine
set_option maxRecDepth 100000
set_option linter.unusedVariables false
set_option Elab.async false

/-- The tier command's arguments. -/
def arg (a n : Nat) (s : State) : State :=
  ((s.setReg Reg.MT_ARG0_LO (w32 a)).setReg Reg.MT_ARG0_HI (w32 (a / 2 ^ 32))).setReg Reg.MT_ARG1 (w32 n)
def e0 : EngineRef := ⟨stall0, none, none⟩
/-- An engine instruction that waits on a token that nothing has posted. -/
def eWait : EngineRef := ⟨stall0, some ⟨0, 1⟩, none⟩
def tierOpen : State := open_ .tier bayed
/-- The Granary's channel 0 online, with a DIMM of 32 GiB. -/
def granary (s : State) : State := { s with tiers := { s.tiers with channelsOnline := 1, dimms := [(0, 32)] } }
theorem search_found (p : Nat → Bool) (bound t n i k : Nat) (hk : k < n) (ht : (i + k) % bound = t) (h : p t = true) :
    (searchFrom p bound n i).isSome = true := by
  induction n generalizing i k with
  | zero => omega
  | succ n ih =>
    unfold searchFrom
    split
    · rfl
    · rename_i hp
      cases k with
      | zero => rw [Nat.add_zero] at ht; rw [ht] at hp; exact absurd h hp
      | succ k => exact ih (i + 1) k (by omega) (by rw [show i + 1 + k = i + (k + 1) by omega]; exact ht)
theorem frame_found (s : State) (m : Migration) (size : Nat) (ho : ¬(m.target = 2 ∧ m.origin = .spill))
    (hb : 0 < (tierSpan m.target none).2 / size)
    (h : s.draw.2.freeRun (((tierSpan m.target none).1 + 0 * size) / 65536) (size / 65536) = true) :
    ∃ s1 f, s.frameFor m size = (s1, some f) := by
  unfold State.frameFor
  rw [if_neg ho]
  unfold State.takeFrame
  generalize hbound : (tierSpan m.target none).2 / size = bound at hb
  generalize hs : s.draw.1.toNat % bound = r
  have hr : r < bound := hs ▸ Nat.mod_lt _ hb
  have hk : (r + (bound - r) % bound) % bound = 0 := by
    rw [Nat.add_mod_mod, show r + (bound - r) = bound by omega, Nat.mod_self]
  obtain ⟨v, hv⟩ := Option.isSome_iff_exists.mp (search_found (fun i => s.draw.2.freeRun (((tierSpan m.target none).1 + i * size) / 65536) (size / 65536)) bound 0 bound r ((bound - r) % bound) (Nat.mod_lt _ hb) hk h)
  exact ⟨s.draw.2, _, by simp only [hbound, hs]; rw [hv]; rfl⟩
def mig (p : MigPhase) : Migration := ⟨7, 0, 0, 1, true, .command, p, 0x13000, leaf_ 0x200000, 0x400000, 0x200000⟩
def withMig (p : MigPhase) (s : State) : State := { s with tiers := { s.tiers with migrations := [mig p] } }
/-- A migration to the Granary waits. -/
def migWaits_ : Migration := { mig .queued with target := 2 }
def startable : State := { granary bayed with tiers := { (granary bayed).tiers with migrations := [migWaits_] } }
/-- The entry of the page stands as COPYING. -/
def copying_ : State := { withMig .copying bayed with mem := memPutAll bayed.mem 0x13000 (leBytes 8 (pteWith (leaf_ 0x200000) 57 56 1).toNat) }
def submitted (d : Bytes) : State := { bayed with mem := memPutAll bayed.mem 0x200000 d }
def full (d : Bytes) : State := (submitted d).setBay 0 { (bayed.bay 0) with readyLc := List.replicate 16384 0 }
def sheafBad : Bytes := sheafBytes.set 4 65
def sub (s : State) := (s.Entered cp (Reg.DISP_SUBMIT_HI (0 : Fin 16).val)).readRun (0 : Fin 16).val
  (pair (s.reg (Reg.DISP_SUBMIT_LO (0 : Fin 16).val) &&& 0xFFFFFFC0#32) 0).toNat 64 dispatcherEngine
theorem sub_ok : okOf (sub (submitted sheafBytes)).2 = some (sheafBytes, false) := by decide +kernel
theorem rows_ok : okOf ((sub (submitted sheafBytes)).1.readRun (0 : Fin 16).val (parseSheaf sheafBytes).rowTable.toNat
  ((parseSheaf sheafBytes).rowCount * 4) dispatcherEngine).2 = some ([0, 0, 0, 0], false) := by decide +kernel
theorem full_ok : okOf (sub (full sheafBytes)).2 = some (sheafBytes, false) := by decide +kernel
theorem fullRows_ok : okOf ((sub (full sheafBytes)).1.readRun (0 : Fin 16).val (parseSheaf sheafBytes).rowTable.toNat
  ((parseSheaf sheafBytes).rowCount * 4) dispatcherEngine).2 = some ([0, 0, 0, 0], false) := by decide +kernel
theorem bad_ok : okOf (sub (submitted sheafBad)).2 = some (sheafBad, false) := by decide +kernel
theorem badRows_ok : okOf ((sub (submitted sheafBad)).1.readRun (0 : Fin 16).val (parseSheaf sheafBad).rowTable.toNat
  ((parseSheaf sheafBad).rowCount * 4) dispatcherEngine).2 = some (List.replicate 260 0, false) := by decide +kernel
theorem away : errOf ((bayed.Entered cp (Reg.DISP_SUBMIT_HI (0 : Fin 16).val)).readRun (0 : Fin 16).val
  (pair (bayed.reg (Reg.DISP_SUBMIT_LO (0 : Fin 16).val) &&& 0xFFFFFFC0#32) 1).toNat 64 dispatcherEngine).2 =
    some ⟨0x100000000, .outside, 0, 0⟩ := by decide +kernel
def ready_ (x : Inst) : State := ({ bayed with insts := [(1, x)], nextInst := 2 } : State).setBay 0 { (bayed.bay 0) with readyLc := [1] }
def readyBe_ : State := ({ bayed with insts := [(1, inst_ true .ready)], nextInst := 2 } : State).setBay 0 { (bayed.bay 0) with readyBe := [1] }
def run_ : Inst := inst_ false .resident
def held_ (x : Inst) : State := holding x
/-- Core 0's ring buffer holds tile 0 of a round that the instance has joined. -/
def ringing : State :=
  let s := (holding run_).setBay 0 { (bayed.bay 0) with rounds := [⟨0, 0, 0, 1, [0], [], [], [⟨1, 0, [], []⟩], false⟩] }
  s.setCore 0 { s.core 0 with current := ⟨none, 1, [], [], [(0, 0)]⟩ }
/-- A save for a promised slot. -/
def promising : State :=
  { holding (inst_ false .saving) with
    insts := [(1, inst_ false .saving), (2, inst_ false .ready)], cores := [(0, { Core.reset with slots := [(0, 1)], promised := [(0, 2)] })] }
/-- All slots of core 0 hold blocked stalls, and instance 9 is saved. -/
def blocked8 : State :=
  { holding run_ with
    lic := 100000
    insts := (9, { inst_ false .saved with slot := 0 }) :: (List.range 8).map fun k => (10 + k, { inst_ true .blocked with slot := k })
    cores := [(0, { Core.reset with slots := (List.range 8).map fun k => (k, 10 + k), saved := [9] })] }
def coreOpen : State := open_ (.core 0) bayed
/-- A bank-side command at crib offset 0: INT8 by INT8, 4 rows of 64, one vector (05 R137). -/
def bse_ (op : Byte) : Inst :=
  { run_ with crib := memPutAll [] 0 ([op, 0, 1, 0] ++ leBytes 4 4 ++ leBytes 4 64 ++ leBytes 4 64 ++ leBytes 8 0 ++ leBytes 4 0x1000 ++ leBytes 4 0x2000) }

theorem witness_TierCommands :
    (∃ (s : State) (src : Source) (bay : Fin 16), s.MayCommand src Reg.MT_CMD ∧ s.tiers.cmdBusy = none ∧ bit s.tiers.spillStarved bay.val = false ∧ s.rangeOk s.mtArg0 (s.reg Reg.MT_ARG1).toNat = true ∧ s.freeRun (s.mtArg0 / 65536) (s.reg Reg.MT_ARG1).toNat = true ∧ s.used bay.val (tierOf s.mtArg0) + (s.reg Reg.MT_ARG1).toNat ≤ s.quota bay.val (tierOf s.mtArg0)) ∧
    (∃ (s : State) (src : Source) (bay : Fin 16), s.MayCommand src Reg.MT_CMD ∧ s.tiers.cmdBusy = none ∧ bit s.tiers.spillStarved bay.val = false ∧ s.rangeOk s.mtArg0 (s.reg Reg.MT_ARG1).toNat = true ∧ s.ownsRun bay.val (s.mtArg0 / 65536) (s.reg Reg.MT_ARG1).toNat = true) ∧
    (∃ (s : State) (src : Source) (bay : Fin 16), let u : State := { s.Commanded src Reg.MT_CMD (w32 (4 + bay.val * 16)) with tiers := { s.tiers with cmdRefused := false } }
      let r := u.argPte bay.val
      s.MayCommand src Reg.MT_CMD ∧ s.tiers.cmdBusy = none ∧ bit r.tiers.spillStarved bay.val = false ∧ vaOk r.mtArg0 = true ∧ (r.pte bay.val r.mtArg0).isSome = true ∧ (r.spillList bay.val).length < 65536) ∧
    (∃ (s : State) (src : Source) (u : Nat × Nat), s.MayCommand src Reg.MT_CMD ∧ s.tiers.cmdBusy = none ∧ s.unitAt s.mtArg0 = some u ∧ s.anyOwned (unitSpan u).1 (unitSpan u).2 = false) ∧
    (∃ (s : State) (src : Source) (c : Instr), s.MayCommand src Reg.MT_CMD ∧ s.tiers.cmdBusy ≠ none ∧ ((∃ bay : Fin 16, c = .mtAssign src bay ∨ c = .mtRelease src bay ∨ (∃ lc, c = .mtMigrate src bay lc) ∨ c = .mtEnlist src bay ∨
      c = .mtCancel src bay) ∨ c = .mtOffline src ∨ c = .mtOnline src)) := by
  refine ⟨⟨arg 0x100000000000 512 (granary tierOpen), cp, 0, ?_⟩,
    ⟨arg 0x200000 32 tierOpen, cp, 0, ?_⟩,
    ⟨arg 0 0 tierOpen, cp, 0, ?_⟩,
    ⟨arg siloBase 0 tierOpen, cp, (1, 0), ?_⟩,
    ⟨{ tierOpen with tiers := { tierOpen.tiers with cmdBusy := some 1 } }, cp, .mtOffline cp, by decide +kernel, by decide +kernel, .inr (.inl rfl)⟩⟩ <;> decide +kernel

theorem witness_MigrationsInStages :
    (∃ (s : State) (src : Source) (bay : Fin 16) (lc : Bool) (target : Nat) (p : Nat × Nat × W64), 
      let u : State := { s.Commanded src Reg.MT_CMD (w32 (3 + bay.val * 16 + if lc then 256 else 0)) with
        tiers := { s.tiers with cmdRefused := false } }
      let r := u.argPte bay.val
      s.MayCommand src Reg.MT_CMD ∧ s.tiers.cmdBusy = none ∧ fld (r.reg Reg.MT_ARG1) 2 0 = target ∧ target ≤ 2 ∧ vaOk r.mtArg0 = true ∧ r.pte bay.val r.mtArg0 = some p ∧ pteTier p.2.2 ≠ 3 ∧ pteState p.2.2 = settled ∧ r.hasMig bay.val r.mtArg0 = false ∧ r.migQueueFull = false) ∧
    (∃ s : State, s.nextMig = none) ∧
    (∃ (s s1 : State) (m : Migration) (addr level f : Nat) (e : W64), let r := s.readPte m.bay m.va.toNat
      let size := (pageSize (pteSizeCode e)).getD 0x10000
      s.nextMig = some m ∧ s.inProgress.length < 64 ∧ r.pte m.bay m.va.toNat = some (addr, level, e) ∧ pteState e = settled ∧ pteTier e ≠ 3 ∧ r.used m.bay m.target + size / 65536 ≤ r.quota m.bay m.target ∧ r.frameFor m size = (s1, some f)) ∧
    (∃ (s : State) (id : Nat) (m : Migration), s.tiers.migrations.find? (fun x => x.id = id) = some m ∧ m.phase = .firstInv ∧ s.rangeBusy m.bay false m.page m.size = false) ∧
    (∃ (s : State) (id : Nat) (m : Migration), s.tiers.migrations.find? (fun x => x.id = id) = some m ∧ m.phase = .copying ∧ s.stillCopying m = true) ∧
    (∃ (s : State) (id : Nat) (m : Migration), s.tiers.migrations.find? (fun x => x.id = id) = some m ∧ m.phase = .copying ∧ s.stillCopying m = false) ∧
    (∃ (s : State) (id : Nat) (m : Migration), s.tiers.migrations.find? (fun x => x.id = id) = some m ∧ m.phase = .secondInv ∧ s.rangeBusy m.bay false m.page m.size = false) ∧
    (∃ (s : State) (id : Nat), s.tiers.migrations.find? (fun x => x.id = id) = none) ∧
    (∃ (s : State) (src : Source) (bay : Fin 16) (m : Migration), s.MayCommand src Reg.MT_CMD ∧ s.tiers.cmdBusy = none ∧ vaOk s.mtArg0 = true ∧ s.tiers.migrations.find? (fun m => m.bay = bay.val && m.va.toNat / m.size = s.mtArg0 / m.size) = some m ∧ m.phase = .queued) ∧
    (∃ (s : State) (src : Source) (bay : Fin 16) (m : Migration), s.MayCommand src Reg.MT_CMD ∧ s.tiers.cmdBusy = none ∧ vaOk s.mtArg0 = true ∧ s.tiers.migrations.find? (fun m => m.bay = bay.val && m.va.toNat / m.size = s.mtArg0 / m.size) = some m ∧ (m.phase = .firstInv ∨ m.phase = .copying) ∧ s.stillCopying m = true) := by
  refine ⟨⟨arg 0 2 tierOpen, cp, 0, true, 2, (0x13000, 3, leaf_ 0x200000), ?_⟩,
    ⟨idle, ?_⟩,
    by
    obtain ⟨s1, f, h⟩ := frame_found (startable.readPte migWaits_.bay migWaits_.va.toNat) migWaits_ 0x200000 (by decide) (by decide +kernel) (by decide +kernel)
    exact ⟨startable, s1, migWaits_, 0x13000, 3, f, leaf_ 0x200000, by decide +kernel, by decide +kernel, by decide +kernel, by decide +kernel, by decide +kernel, by decide +kernel, h⟩,
    ⟨withMig .firstInv bayed, 7, mig .firstInv, ?_⟩,
    ⟨copying_, 7, mig .copying, ?_⟩,
    ⟨withMig .copying bayed, 7, mig .copying, ?_⟩,
    ⟨withMig .secondInv bayed, 7, mig .secondInv, ?_⟩,
    ⟨bayed, 7, ?_⟩,
    ⟨arg 0 0 (withMig .queued tierOpen), cp, 0, mig .queued, ?_⟩,
    ⟨arg 0 0 (open_ .tier copying_), cp, 0, mig .copying, ?_⟩⟩ <;> decide +kernel

theorem witness_SpillScrubAndStackReports :
    (∃ (s : State) (bay : Fin 16), let u := (s.applyAll [Reg.MT_SPILL_HI bay.val, Reg.MT_SPILL_LO bay.val]).setStarved bay.val false
      bit u.tiers.spillActive bay.val = false ∧ u.used bay.val 1 * 100 ≤ (u.reg (Reg.MT_SPILL_HI bay.val)).toNat * u.quota bay.val 1) ∧
    (∃ (s : State) (address : Nat), s.backed address = true ∧ address / 64 ≠ siloBase / 64) ∧
    (∃ (s : State) (address : Nat) (finding : ScrubFinding), s.backed address = false) ∧
    (∃ (s : State) (stack : Fin 8) (row : Fin 32), let u := (s.applyStaged Reg.REP_POLICY).log 0xFF 0x0006 (telUnit 2 row.val) 0 0
      bit (u.reg Reg.REP_POLICY) 16 = false) ∧
    (∃ (s : State) (stack : Fin 8) (row : Fin 32), let u := (s.applyStaged Reg.REP_POLICY).log 0xFF 0x0006 (telUnit 2 row.val) 0 0
      bit (u.reg Reg.REP_POLICY) 16 = true ∧ bit u.tiers.rowsOffline row.val = false) := by
  refine ⟨⟨bayed, 0, ?_⟩,
    ⟨idle, siloBase + 64, ?_⟩,
    ⟨idle, 0xFFFFFFFFFFFFFFFF, .corrected, ?_⟩,
    ⟨idle.setReg Reg.REP_POLICY 0, 7, 31, ?_⟩,
    ⟨idle, 7, 31, ?_⟩⟩ <;> decide +kernel

theorem witness_SubmissionChecksAndCreates :
    (∃ (s s1 s2 : State) (src : Source) (bay : Fin 16) (hi : Word) (bd : BayDef) (e rows : Bytes) (x y : Bool), s.MayWrite src (Reg.DISP_SUBMIT_HI bay.val) ∧ s.bayDef bay.val = some bd ∧ (s.bay bay.val).submitWait = none ∧ (s.Entered src (Reg.DISP_SUBMIT_HI bay.val)).readRun bay.val
      (pair (s.reg (Reg.DISP_SUBMIT_LO bay.val) &&& 0xFFFFFFC0#32) hi).toNat 64 dispatcherEngine = (s1, .ok (e, x)) ∧ s1.readRun bay.val (parseSheaf e).rowTable.toNat ((parseSheaf e).rowCount * 4) dispatcherEngine = (s2, .ok (rows, y)) ∧ s2.submitOk bay.val bd e rows = true ∧ s2.readyRoom bay.val (parseSheaf e).be = true) ∧
    (∃ (s s1 s2 : State) (src : Source) (bay : Fin 16) (hi : Word) (bd : BayDef) (e rows : Bytes) (x y : Bool), s.MayWrite src (Reg.DISP_SUBMIT_HI bay.val) ∧ s.bayDef bay.val = some bd ∧ (s.bay bay.val).submitWait = none ∧ (s.Entered src (Reg.DISP_SUBMIT_HI bay.val)).readRun bay.val
      (pair (s.reg (Reg.DISP_SUBMIT_LO bay.val) &&& 0xFFFFFFC0#32) hi).toNat 64 dispatcherEngine = (s1, .ok (e, x)) ∧ s1.readRun bay.val (parseSheaf e).rowTable.toNat ((parseSheaf e).rowCount * 4) dispatcherEngine = (s2, .ok (rows, y)) ∧ s2.submitOk bay.val bd e rows = false) ∧
    (∃ (s s1 s2 : State) (src : Source) (bay : Fin 16) (hi : Word) (bd : BayDef) (e rows : Bytes) (x y : Bool), s.MayWrite src (Reg.DISP_SUBMIT_HI bay.val) ∧ s.bayDef bay.val = some bd ∧ (s.bay bay.val).submitWait = none ∧ (s.Entered src (Reg.DISP_SUBMIT_HI bay.val)).readRun bay.val
      (pair (s.reg (Reg.DISP_SUBMIT_LO bay.val) &&& 0xFFFFFFC0#32) hi).toNat 64 dispatcherEngine = (s1, .ok (e, x)) ∧ s1.readRun bay.val (parseSheaf e).rowTable.toNat ((parseSheaf e).rowCount * 4) dispatcherEngine = (s2, .ok (rows, y)) ∧ s2.submitOk bay.val bd e rows = true ∧ s2.readyRoom bay.val (parseSheaf e).be = false) ∧
    (∃ (s s1 : State) (src : Source) (bay : Fin 16) (hi : Word) (bd : BayDef) (err : RunFault), s.MayWrite src (Reg.DISP_SUBMIT_HI bay.val) ∧ s.bayDef bay.val = some bd ∧ (s.bay bay.val).submitWait = none ∧ (s.Entered src (Reg.DISP_SUBMIT_HI bay.val)).readRun bay.val
      (pair (s.reg (Reg.DISP_SUBMIT_LO bay.val) &&& 0xFFFFFFC0#32) hi).toNat 64 dispatcherEngine = (s1, .error err)) ∧
    (∃ (s : State) (src : Source) (bay : Fin 16) (hi : Word), s.MayWrite src (Reg.DISP_SUBMIT_HI bay.val) ∧ (s.bayDef bay.val).isSome = true ∧ (s.bay bay.val).submitWait ≠ none) := by
  refine ⟨⟨submitted sheafBytes, _, _, cp, 0, 0, bayed.bayDef 0 |>.get (by decide +kernel), sheafBytes, [0, 0, 0, 0], false, false, by decide +kernel, by decide +kernel, by decide +kernel, pair_ok sub_ok, pair_ok rows_ok, by decide +kernel, by decide +kernel⟩,
    ⟨submitted sheafBad, _, _, cp, 0, 0, bayed.bayDef 0 |>.get (by decide +kernel), sheafBad, List.replicate 260 0, false, false, by decide +kernel, by decide +kernel, by decide +kernel, pair_ok bad_ok, pair_ok badRows_ok, by decide +kernel⟩,
    ⟨full sheafBytes, _, _, cp, 0, 0, bayed.bayDef 0 |>.get (by decide +kernel), sheafBytes, [0, 0, 0, 0], false, false, by decide +kernel, by decide +kernel, by decide +kernel, pair_ok full_ok, pair_ok fullRows_ok, by decide +kernel, by decide +kernel⟩,
    ⟨bayed, _, cp, 0, 1, bayed.bayDef 0 |>.get (by decide +kernel), _, by decide +kernel, by decide +kernel, by decide +kernel, pair_err away⟩,
    ⟨bayed.setBay 0 { (bayed.bay 0) with submitWait := some (desc_ false) }, cp, 0, 0, ?_⟩⟩ <;> decide +kernel

theorem witness_PlacementOfLcHead :
    (∃ (s : State) (bay : Fin 16) (i n k : Nat) (x : Inst), let u := (s.bayCores bay.val).foldl State.grantAll (s.applyAll ((s.bayCores bay.val).map Reg.CORE_CMD))
      s.inService = true ∧ s.vane.safe = false ∧ (s.bay bay.val).lulled = false ∧ u.lcTurn bay.val = some i ∧ u.inst? i = some x ∧ u.placement bay.val x = some (n, k) ∧ u.staggered bay.val x = false) ∧
    (∃ (s : State) (bay : Fin 16) (i n k : Nat) (x : Inst), let u := (s.bayCores bay.val).foldl State.grantAll (s.applyAll ((s.bayCores bay.val).map Reg.CORE_CMD))
      s.inService = true ∧ s.vane.safe = false ∧ (s.bay bay.val).lulled = false ∧ u.lcTurn bay.val = none ∧ (u.bay bay.val).lullWanted = false ∧ u.beWithheld = false ∧ u.beChoice bay.val = some (i, x, n, k) ∧ u.staggered bay.val x = false) ∧
    (∃ (s : State) (bay : Fin 16), s.inService = true ∧ s.vane.safe = false ∧ (s.bay bay.val).lulled = true) ∧
    (∃ (s : State) (bay : Fin 16), s.inService = false) := by
  refine ⟨⟨ready_ (inst_ false .ready), 0, 1, 0, 0, inst_ false .ready, ?_⟩,
    ⟨readyBe_, 0, 1, 0, 0, inst_ true .ready, ?_⟩,
    ⟨bayed.setBay 0 { (bayed.bay 0) with lulled := true }, 0, ?_⟩,
    ⟨{ idle with power := { idle.power with phase := .restart } }, 0, ?_⟩⟩ <;> decide +kernel

theorem witness_CoresShareSlots :
    (∃ (s : State) (core : Fin 36) (k i : Nat) (x : Inst), (s.preemptForSaved core.val).nextIssue core.val = some (k, i, x)) ∧
    (∃ (s : State) (core : Fin 36), (s.preemptForSaved core.val).nextIssue core.val = none) ∧
    (∃ (s : State) (core : Fin 36), s.allBlocked core.val = false) ∧
    (∃ (s : State) (core : Fin 36) (i k j : Nat) (v : Inst), s.allBlocked core.val = true ∧ (s.core core.val).promised = [] ∧ s.savedRunnable core.val false = some i ∧ s.evictionVictim core.val = some (k, j, v)) ∧
    (∃ (s : State) (core : Fin 36) (slot : Fin 8) (i : Nat) (x : Inst), let c := s.core core.val
      s.instOf (AMap.get? (s.core core.val).slots slot.val) = some (i, x) ∧ x.state = .saving ∧ x.gleaning = none ∧ AMap.get? c.promised slot.val = none) ∧
    (∃ (s : State) (core : Fin 36) (slot : Fin 8) (i : Nat) (x : Inst), let c := s.core core.val
      
      let u := (s.setInst i { x with state := .saved }).setCore core.val
        { c with slots := AMap.erase c.slots slot.val, saved := c.saved ++ [i], promised := AMap.erase c.promised slot.val }
      ∃ (j : Nat) (y : Inst), s.instOf (AMap.get? (s.core core.val).slots slot.val) = some (i, x) ∧ x.state = .saving ∧ x.gleaning = none ∧ u.instOf (AMap.get? c.promised slot.val) = some (j, y)) ∧
    (∃ (s : State) (core : Fin 36) (slot : Fin 8) (i : Nat) (x : Inst), s.instOf (AMap.get? (s.core core.val).slots slot.val) = some (i, x) ∧ x.state = .restoring ∧ x.gleaning = none ∧ x.faultOnRestore = none) ∧
    (∃ (s : State) (core : Fin 36) (slot : Fin 8) (i : Nat) (x : Inst), ∃ cause, s.instOf (AMap.get? (s.core core.val).slots slot.val) = some (i, x) ∧ x.state = .restoring ∧ x.gleaning = none ∧ x.faultOnRestore = some cause) ∧
    (∃ (s : State) (core : Fin 36) (slot : Fin 8) (i : Nat) (x : Inst), s.instOf (AMap.get? (s.core core.val).slots slot.val) = some (i, x) ∧ x.state = .restoring ∧ x.gleaning ≠ none) ∧
    (∃ (s : State) (core : Fin 36) (slot : Fin 8), AMap.get? (s.core core.val).slots slot.val = none) ∧
    (∃ (s : State) (i : Nat) (x : Inst), s.inst? i = some x ∧ x.chaffMode = false) ∧
    (∃ (s : State) (i : Nat) (x : Inst), s.inst? i = some x ∧ x.chaffMode = true) := by
  refine ⟨⟨holding run_, 0, 0, 1, run_, ?_⟩,
    ⟨bayed, 0, ?_⟩,
    ⟨bayed, 0, ?_⟩,
    ⟨blocked8, 0, 9, 0, 10, { inst_ true .blocked with slot := 0 }, ?_⟩,
    ⟨holding (inst_ false .saving), 0, 0, 1, inst_ false .saving, ?_⟩,
    ⟨promising, 0, 0, 1, inst_ false .saving, 2, inst_ false .ready, ?_⟩,
    ⟨holding (inst_ false .restoring), 0, 0, 1, inst_ false .restoring, ?_⟩,
    ⟨holding { inst_ false .restoring with faultOnRestore := some 3 }, 0, 0, 1, { inst_ false .restoring with faultOnRestore := some 3 }, 3, ?_⟩,
    ⟨holding { inst_ false .restoring with gleaning := some .cancel }, 0, 0, 1, { inst_ false .restoring with gleaning := some .cancel }, ?_⟩,
    ⟨bayed, 0, 0, ?_⟩,
    ⟨holding run_, 1, run_, ?_⟩,
    ⟨holding { run_ with chaffMode := true }, 1, { run_ with chaffMode := true }, ?_⟩⟩ <;> decide +kernel

theorem witness_OverrunsFaultsAndHolds :
    (∃ (s : State) (i : Nat) (x : Inst), s.inst? i = some x ∧ x.state = .resident) ∧
    (∃ (s : State) (i : Nat), ((∀ x, s.inst? i = some x → x.state ≠ .resident))) ∧
    (∃ (s : State) (core : Fin 36) (cause : CoreCause), s.insts.filter (fun e => e.2.onCore core.val) = [] ∧ s.loader.move = none) ∧
    (∃ (s : State) (core : Fin 36) (cause : CoreCause), s.insts.filter (fun e => e.2.onCore core.val) = [] ∧ s.loader.move = none ∧ cause = .seqHang) ∧
    (∃ (s : State) (src : Source) (core : Fin 36), s.MayCommand src (Reg.CORE_CMD core.val)) := by
  refine ⟨⟨holding run_, 1, run_, ?_⟩,
    ⟨bayed, 1, fun x h => by cases h⟩,
    ⟨bayed, 0, .clockLoss, ?_⟩,
    ⟨bayed, 35, .seqHang, ?_⟩,
    ⟨coreOpen, cp, 0, ?_⟩⟩ <;> decide +kernel

theorem witness_RowOperationsWriteDestination :
    (∃ (c : Instr) (s : State) (r : EngineRef) (row : VxeRow) (reads : List (Nat × Nat)) (outLen i : Nat) (x : Inst), rowOperation x c = some (r, row, reads, outLen, true) ∧ s.RowRuns r row reads outLen i x) ∧
    (∃ (c : Instr) (s : State) (r : EngineRef) (row : VxeRow) (reads : List (Nat × Nat)) (outLen i : Nat) (x : Inst) (legal : Bool), rowOperation x c = some (r, row, reads, outLen, legal) ∧ s.EngineRuns r engineVxe i x ∧ (legal = false ∨ rowOk x row reads (row.dst, outLen) = false)) ∧
    (∃ (c : Instr) (s : State) (x : Inst) (r : EngineRef) (row : VxeRow) (reads : List (Nat × Nat)) (outLen : Nat) (legal : Bool), rowOperation x c = some (r, row, reads, outLen, legal) ∧ s.engineRun r.stall engineVxe = none) ∧
    (∃ (c : Instr) (s : State) (i : Nat) (x : Inst) (r : EngineRef) (row : VxeRow) (reads : List (Nat × Nat)) (outLen : Nat) (legal : Bool), rowOperation x c = some (r, row, reads, outLen, legal) ∧ s.engineRun r.stall engineVxe = some (i, x) ∧ x.awaited r.await = false) := by
  refine ⟨⟨.rowReduction e0 .max ⟨16, .fp32, .fp32, 0, 64, 128, 192⟩, holding run_, e0, ⟨16, .fp32, .fp32, 0, 64, 128, 192⟩, [rowArea ⟨16, .fp32, .fp32, 0, 64, 128, 192⟩ 0], 4, 1, run_, ?_⟩,
    ⟨.rowReduction e0 .max ⟨65537, .int8, .int8, 0, 0, 0, 0⟩, holding run_, e0, ⟨65537, .int8, .int8, 0, 0, 0, 0⟩, [rowArea ⟨65537, .int8, .int8, 0, 0, 0, 0⟩ 0], 1, 1, run_, true, by decide +kernel, by decide +kernel, .inr (by decide +kernel)⟩,
    ⟨.rowReduction e0 .max ⟨16, .fp32, .fp32, 0, 64, 128, 192⟩, bayed, run_, e0, ⟨16, .fp32, .fp32, 0, 64, 128, 192⟩, [rowArea ⟨16, .fp32, .fp32, 0, 64, 128, 192⟩ 0], 4, true, ?_⟩,
    ⟨.rowReduction eWait .max ⟨16, .fp32, .fp32, 0, 64, 128, 192⟩, holding run_, 1, run_, eWait, ⟨16, .fp32, .fp32, 0, 64, 128, 192⟩, [rowArea ⟨16, .fp32, .fp32, 0, 64, 128, 192⟩ 0], 4, true, ?_⟩⟩ <;> decide +kernel

theorem witness_RowOperationResults :
    (∃ (s : State) (r : EngineRef) (op : VxeOp) (row : VxeRow) (i : Nat) (x : Inst), s.RowRuns r row (opReads op row) (vecBytes row.outFmt row.count) i x) ∧
    (∃ (s : State) (r : EngineRef) (row : VxeRow) (i : Nat) (x : Inst), s.RowRuns r row [rowArea row row.a] (vecBytes row.outFmt 1) i x) ∧
    (∃ (s : State) (r : EngineRef) (row : VxeRow) (epsilon : Word) (i : Nat) (x : Inst), let reads := [rowArea row row.a, rowArea row row.b, rowArea row row.c]
      s.RowRuns r row reads (vecBytes row.outFmt row.count) i x) ∧
    (∃ (s : State) (r : EngineRef) (row : VxeRow) (epsilon : Word) (i : Nat) (x : Inst), let reads := [rowArea row row.a, rowArea row row.b]
      s.RowRuns r row reads (vecBytes row.outFmt row.count) i x) ∧
    (∃ (s : State) (r : EngineRef) (row : VxeRow) (i : Nat) (x : Inst), s.RowRuns r row [rowArea row row.a] (vecBytes row.outFmt row.count) i x) ∧
    (∃ (s : State) (r : EngineRef) (row : VxeRow) (i : Nat) (x : Inst), s.RowRuns r row [rowArea row row.a] (vecBytes row.outFmt row.count) i x ∧ (rowValues row x row.a).all (fun v => !v.isNan && !v.isFinite && v.neg) = true) ∧
    (∃ (s : State) (r : EngineRef) (row : VxeRow) (target : Fmt) (q i : Nat) (x : Inst), qmax target = some q ∧ s.RowRuns r row [rowArea row row.a] 4 i x) ∧
    (∃ (s : State) (r : EngineRef) (row : VxeRow) (target : Fmt) (q i : Nat) (x : Inst), qmax target = some q ∧ s.RowRuns r row [rowArea row row.a, (row.b, 4)] (vecBytes target row.count) i x) ∧
    (∃ (s : State) (r : EngineRef) (row : VxeRow) (i : Nat) (x : Inst), (row.outFmt = .fp32 ∨ row.outFmt = .bf16) ∧ s.RowRuns r row [rowArea row row.a, (row.b, 4)] (vecBytes row.outFmt row.count) i x) ∧
    (∃ (s : State) (r : EngineRef) (o : RescaleOp) (i : Nat) (x : Inst), let row : VxeRow := ⟨o.count, .int32, o.out, o.src, 0, 0, o.dst⟩
      let tokens := ceilDiv o.count (max o.channels 1)
      let reads := [rowArea row o.src, (o.table, rescaleCount o.mode o.channels tokens * 8)]
      1 ≤ o.channels ∧ rescaleOk x o.out o.mode o.table o.channels tokens = true ∧ s.RowRuns r row reads (vecBytes o.out o.count) i x) := by
  refine ⟨⟨holding run_, e0, .add, ⟨65536, .int8, .int8, 0, 65536, 131072, 196608⟩, 1, run_, ?_⟩,
    ⟨holding run_, e0, ⟨16, .fp32, .fp32, 0, 64, 128, 192⟩, 1, run_, ?_⟩,
    ⟨holding run_, e0, ⟨16, .fp32, .fp32, 0, 64, 128, 192⟩, 0, 1, run_, ?_⟩,
    ⟨holding run_, e0, ⟨16, .fp32, .fp32, 0, 64, 128, 192⟩, 0, 1, run_, ?_⟩,
    ⟨holding run_, e0, ⟨16, .fp32, .fp32, 0, 64, 128, 192⟩, 1, run_, ?_⟩,
    ⟨holding { run_ with crib := memPutAll [] 0 (leBytes 4 0xFF800000) }, e0, ⟨1, .fp32, .fp32, 0, 64, 128, 192⟩, 1, { run_ with crib := memPutAll [] 0 (leBytes 4 0xFF800000) }, ?_⟩,
    ⟨holding run_, e0, ⟨16, .fp32, .fp32, 0, 64, 128, 192⟩, .int8, 127, 1, run_, ?_⟩,
    ⟨holding run_, e0, ⟨16, .fp32, .fp32, 0, 64, 128, 192⟩, .int8, 127, 1, run_, ?_⟩,
    ⟨holding run_, e0, ⟨16, .fp32, .fp32, 0, 64, 128, 192⟩, 1, run_, ?_⟩,
    ⟨holding run_, e0, ⟨4, 0, .int8, 0, 256, 1, 512⟩, 1, run_, ?_⟩⟩ <;> decide +kernel

theorem witness_MxePassesComplete :
    (∃ (s : State) (r : EngineRef) (p : MxePass) (i off k channels : Nat) (int : Bool) (x : Inst) (area : Fmt × Nat × List (Nat × Nat)), p.tile = .crib off ∧ s.EngineRuns r engineMxe i x ∧ mxeShape p.weights p.columns = some (k, channels, int) ∧ epilogueArea x p int = some area ∧ passOk p x k channels area = true) ∧
    (∃ (s : State) (r : EngineRef) (p : MxePass) (i round tile k channels : Nat) (int : Bool) (x : Inst) (area : Fmt × Nat × List (Nat × Nat))
      (w : Bytes × Bool), p.tile = .ring round tile ∧ s.EngineRuns r engineMxe i x ∧ mxeShape p.weights p.columns = some (k, channels, int) ∧ epilogueArea x p int = some area ∧ passOk p x k channels area = true ∧ s.tileOf i x p = some w) ∧
    (∃ (s : State) (r : EngineRef) (p : MxePass) (i k channels : Nat) (int : Bool) (x : Inst) (area : Fmt × Nat × List (Nat × Nat)), s.EngineRuns r engineMxe i x ∧ mxeShape p.weights p.columns = some (k, channels, int) ∧ epilogueArea x p int = some area ∧ passOk p x k channels area = true ∧ s.tileOf i x p = none) ∧
    (∃ (s : State) (r : EngineRef) (p : MxePass) (i k channels : Nat) (int : Bool) (x : Inst) (area : Fmt × Nat × List (Nat × Nat)), s.EngineRuns r engineMxe i x ∧ mxeShape p.weights p.columns = some (k, channels, int) ∧ epilogueArea x p int = some area ∧ passOk p x k channels area = false) := by
  refine ⟨⟨holding run_, e0, ⟨.int8, .int8, .crib 0, 65536, 256, 2, 256, 256, .partialSum 131072⟩, 1, 0, 256, 256, true, run_, (.int32, 131072, []), ?_⟩,
    ⟨ringing, e0, ⟨.int8, .int8, .ring 0 0, 65536, 256, 2, 4, 4, .partialSum 131072⟩, 1, 0, 0, 256, 256, true, run_, (.int32, 131072, []), (List.replicate 16 0, false), ?_⟩,
    ⟨holding run_, e0, ⟨.int8, .int8, .ring 0 0, 65536, 256, 2, 256, 256, .partialSum 131072⟩, 1, 256, 256, true, run_, (.int32, 131072, []), ?_⟩,
    ⟨holding run_, e0, ⟨.int8, .int8, .crib 0, 65536, 256, 2, 257, 256, .partialSum 131072⟩, 1, 256, 256, true, run_, (.int32, 131072, []), ?_⟩⟩ <;> decide +kernel

theorem witness_MxeIntegerSums :
    (∃ (s : State) (r : EngineRef) (p : MxePass) (i tileOff dst k channels : Nat) (x : Inst), p.tile = .crib tileOff ∧ p.epilogue = .partialSum dst ∧ s.EngineRuns r engineMxe i x ∧ mxeShape p.weights p.columns = some (k, channels, true) ∧ passOk p x k channels (.int32, dst, []) = true) :=
  ⟨holding run_, e0, ⟨.int8, .int8, .crib 0, 65536, 256, 2, 256, 256, .partialSum 131072⟩, 1, 0, 131072, 256, 256, run_, by decide +kernel⟩

theorem witness_BankSideCommands :
    (∃ (s : State) (r : EngineRef) (off i : Nat) (x : Inst), let e := x.cribRead off 32
      let c0 := parseBse e i (!x.desc.be) s.engines.nextCommand
      s.EngineRuns r engineBse i x ∧ x.inCrib off 32 = true ∧ c0.ok x.cribSize = true ∧ leAt e 0 1 = 1) ∧
    (∃ (s : State) (r : EngineRef) (off i : Nat) (x : Inst), let e := x.cribRead off 32
      let c0 := parseBse e i (!x.desc.be) s.engines.nextCommand
      s.EngineRuns r engineBse i x ∧ x.inCrib off 32 = true ∧ c0.ok x.cribSize = true ∧ leAt e 0 1 = 2) ∧
    (∃ (s : State) (r : EngineRef) (off i : Nat) (x : Inst), s.EngineRuns r engineBse i x ∧ (x.inCrib off 32 = false ∨ (parseBse (x.cribRead off 32) i (!x.desc.be) s.engines.nextCommand).ok x.cribSize = false) ∧ leAt (x.cribRead off 32) 0 1 = 1) ∧
    (∃ (s : State) (r : EngineRef) (off i : Nat) (x : Inst), s.EngineRuns r engineBse i x ∧ (x.inCrib off 32 = false ∨ (parseBse (x.cribRead off 32) i (!x.desc.be) s.engines.nextCommand).ok x.cribSize = false) ∧ leAt (x.cribRead off 32) 0 1 = 2) ∧
    (∃ (s : State) (share id : Nat) (sh : BseShare), s.engines.shares.find? (fun q => q.id = share && q.taken) = some sh ∧ sh.work = .command id) ∧
    (∃ (s : State) (share : Nat), s.engines.shares.find? (fun q => q.id = share && q.taken) = none) := by
  refine ⟨⟨holding (bse_ 1), e0, 0, 1, bse_ 1, ?_⟩,
    ⟨holding (bse_ 2), e0, 0, 1, bse_ 2, ?_⟩,
    ⟨holding { (bse_ 1) with crib := (bse_ 1).crib.take 1 }, e0, 0, 1, { (bse_ 1) with crib := (bse_ 1).crib.take 1 }, ?_⟩,
    ⟨holding { (bse_ 2) with crib := (bse_ 2).crib.take 1 }, e0, 0, 1, { (bse_ 2) with crib := (bse_ 2).crib.take 1 }, ?_⟩,
    ⟨{ idle with engines := { idle.engines with shares := [⟨5, 0, true, .command 3, 0, 0, 0, true⟩] } }, 5, 3, ⟨5, 0, true, .command 3, 0, 0, 0, true⟩, ?_⟩,
    ⟨idle, 5, ?_⟩⟩ <;> decide +kernel

end Sys2Proof.Tests
end

