-- ==== Sys2Proof/Tests/Witness04.lean ====
section
/-! SUPPORT. Witnesses: for each clause of a statement, a state and operands that meet its hypotheses together (Witness04). -/

namespace Sys2Proof.Tests
open Sys2Proof Sys2Proof.Machine
set_option maxRecDepth 100000
set_option linter.unusedVariables false
set_option Elab.async false

def here (f : Program → Program) (g : Inst → Inst) : Inst := g { inst_ false .resident with input := some (f (Program.start 0)) }
def areg (r : AddrReg) (p : Program) : Program := { p with regs := p.regs.set 0 r }
def got_ : AddrReg := { AddrReg.zero with fill := .got }
def waited_ : AddrReg := { AddrReg.zero with fill := .waited }
def loop1 (p : Program) : Program := { p.openLoop 0 2 with pc := p.pc }
def round_ : Round := ⟨3, 0, 0, 1, [0, 1], [], [], [], false⟩
def rounds_ (n : Nat) (s : State) : State := s.setBay 0 { (s.bay 0) with rounds := List.replicate n { round_ with round := 9 } }
/-- One buffer in pool 0. -/
def pooled (s : State) : State := (s.setReg (Reg.SW_POOL_CFG 0 0) 0x00010001#32).setReg (Reg.SW_POOL_CFG 0 0) 0x00010001#32
def handle_ : Handle := ⟨0, 0, 1, false, false, 0, 0⟩
def entry_ : QueueEntry := ⟨handle_, ⟨0x1000, 0, 1, 1, 0, false, none⟩⟩
def queued (q : Nat) (s : State) : State := s.setQueue q ⟨[entry_], [], 0, 0⟩
theorem err_get {σ ε α : Type} {p : σ × Except ε α} (h : (errOf p.2).isSome = true) : ∃ x, p = (p.1, .error x) := ⟨_, pair_err (Option.some_get h).symm⟩
def waiting_ (s : State) : State := s.setPool 0 0 ⟨[], [⟨1, .input, true⟩]⟩
/-- A register whose row source the row does not have; a join with a missed tile; the working set's table outside every window. -/
def astray_ : AddrReg := { AddrReg.zero with fill := .address, row := some (2, 0, 0, 0) }
def late_ : Round := { round_ with joins := [⟨1, 0, [], [0]⟩] }
def away_ (s : State) : State := s.setReg (Reg.SW_WSET_BASE_HI 0) 1

theorem witness_SwathRegisterAndLoopOperations :
    (∃ (s : State) (r : ProgRef) (i : Nat) (x : Inst) (p : Program) (o : SwOp), ∃ n round, s.swHere r = some (i, x, p, o) ∧ o = .end_ n round) ∧
    (∃ (s : State) (r : ProgRef) (i : Nat) (x : Inst) (p : Program) (o : SwOp), ∃ a va, s.swHere r = some (i, x, p, o) ∧ o = .base a va) ∧
    (∃ (s : State) (r : ProgRef) (i : Nat) (x : Inst) (p : Program) (o : SwOp), ∃ a source rl tl off, let reg := { AddrReg.zero with fill := .address, row := some (source, rl, tl, off) }
      ∃ y, s.swHere r = some (i, x, p, o) ∧ o = .rowbase a source rl tl off ∧ s.rowReg x p reg = .ok y) ∧
    (∃ (s : State) (r : ProgRef) (i : Nat) (x : Inst) (p : Program) (o : SwOp), ∃ a source rl tl off, let reg := { AddrReg.zero with fill := .address, row := some (source, rl, tl, off) }
      ∃ cause, s.swHere r = some (i, x, p, o) ∧ o = .rowbase a source rl tl off ∧ s.rowReg x p reg = .error cause) ∧
    (∃ (s : State) (r : ProgRef) (i : Nat) (x : Inst) (p : Program) (o : SwOp), ∃ l c, ∃ q, s.swHere r = some (i, x, p, o) ∧ o = .loop l c ∧ s.rowRegs x (p.openLoop l (s.loopCount x c)) l = .ok q) ∧
    (∃ (s : State) (r : ProgRef) (i : Nat) (x : Inst) (p : Program) (o : SwOp), ∃ l c, ∃ cause, s.swHere r = some (i, x, p, o) ∧ o = .loop l c ∧ s.rowRegs x (p.openLoop l (s.loopCount x c)) l = .error cause) ∧
    (∃ (s : State) (r : ProgRef) (i : Nat) (x : Inst) (p : Program) (o : SwOp), ∃ l crib a stride, s.swHere r = some (i, x, p, o) ∧ o = .step l crib a stride) ∧
    (∃ (s : State) (r : ProgRef) (i : Nat) (x : Inst) (p : Program) (o : SwOp), ∃ area off, s.swHere r = some (i, x, p, o) ∧ o = .cset area off) ∧
    (∃ (s : State) (r : ProgRef) (i : Nat) (x : Inst) (p : Program) (o : SwOp), ∃ l, ∃ q, s.swHere r = some (i, x, p, o) ∧ o = .endloop l ∧ s.rowRegs x p.endLoop p.innermost = .ok q) ∧
    (∃ (s : State) (r : ProgRef) (i : Nat) (x : Inst) (p : Program) (o : SwOp), ∃ l, ∃ cause, s.swHere r = some (i, x, p, o) ∧ o = .endloop l ∧ s.rowRegs x p.endLoop p.innermost = .error cause) ∧
    (∃ (s : State) (r : ProgRef) (i : Nat) (x : Inst) (p : Program) (o : SwOp), ∃ c, s.swHere r = some (i, x, p, o) ∧ c ∈ swathRows r ∧ c ≠ swathRow r o) ∧
    (∃ (s : State) (r : ProgRef) (c : Instr), ∃ i, c ∈ swathRows r ∧ s.misnamed r = some i) ∧
    (∃ (s : State) (r : ProgRef) (c : Instr), c ∈ swathRows r ∧ s.misnamed r = none ∧ s.swHere r = none) := by
  refine ⟨⟨prog_ 0x0000000000030000 id id, at0, 1, here id id, (id (Program.start 0)), .end_ false 3, false, 3, ?_⟩,
    ⟨prog_ 0x1E00000000010000 id id, at0, 1, here id id, (id (Program.start 0)), .base 7 0x10000, 7, 0x10000, ?_⟩,
    ⟨prog_ 0x2000000000000000 id id, at0, 1, here id id, (id (Program.start 0)), .rowbase 0 0 0 0 0, 0, 0, 0, 0, 0, _, by decide +kernel, rfl, rfl⟩,
    ⟨prog_ 0x2080000000000000 id id, at0, 1, here id id, (id (Program.start 0)), .rowbase 0 2 0 0 0, 0, 2, 0, 0, 0, _, by decide +kernel, rfl, rfl⟩,
    ⟨prog_ 0x3000000000000002 id id, at0, 1, here id id, (id (Program.start 0)), .loop 0 2, 0, 2, _, by decide +kernel, rfl, rfl⟩,
    ⟨prog_ 0x3000000000000002 (areg astray_) id, at0, 1, here (areg astray_) id, ((areg astray_) (Program.start 0)), .loop 0 2, 0, 2, _, by decide +kernel, rfl, rfl⟩,
    ⟨prog_ 0x4000000000000040 id id, at0, 1, here id id, (id (Program.start 0)), .step 0 false 0 64, 0, false, 0, 64, ?_⟩,
    ⟨prog_ 0x5100000000000010 id id, at0, 1, here id id, (id (Program.start 0)), .cset 1 16, 1, 16, ?_⟩,
    ⟨prog_ 0xC000000000000000 loop1 id, at0, 1, here loop1 id, (loop1 (Program.start 0)), .endloop 0, 0, _, by decide +kernel, rfl, rfl⟩,
    ⟨prog_ 0xC000000000000000 (fun p => areg astray_ (loop1 p)) id, at0, 1, here (fun p => areg astray_ (loop1 p)) id, ((fun p => areg astray_ (loop1 p)) (Program.start 0)), .endloop 0, 0, _, by decide +kernel, rfl, rfl⟩,
    ⟨prog_ 0x5100000000000010 id id, at0, 1, here id id, (id (Program.start 0)), .cset 1 16, .swGet at0, by decide +kernel, by decide +kernel, by decide +kernel⟩,
    ⟨prog_ 1 id id, at0, .swGet at0, 1, by decide +kernel, by decide +kernel⟩,
    ⟨bayed, at0, .swGet at0, by decide +kernel, by decide +kernel, by decide +kernel⟩⟩ <;> decide +kernel

theorem witness_SwathTransferOperations :
    (∃ (s : State) (r : ProgRef) (i : Nat) (x : Inst) (p : Program) (o : SwOp), ∃ a toMem len, s.swHere r = some (i, x, p, o) ∧ o = .move a toMem len ∧ ((p.areg a).fill = .unset ∨ p.cursor < 0 ∨ s.cursorSize x p < p.cursor.toNat + len)) ∧
    (∃ (s : State) (r : ProgRef) (i : Nat) (x : Inst) (p : Program) (o : SwOp), ∃ a toMem len, s.swHere r = some (i, x, p, o) ∧ o = .move a toMem len ∧ (p.areg a).fill ≠ .unset ∧ 0 ≤ p.cursor ∧ p.cursor.toNat + len ≤ s.cursorSize x p) ∧
    (∃ (s : State) (r : ProgRef) (i : Nat) (x : Inst) (p : Program) (o : SwOp), ∃ a pool, ∃ s2 n, s.swHere r = some (i, x, p, o) ∧ o = .get a pool ∧ s.canGet x.bay pool i r.prog (!x.desc.be) = true ∧ s.getBuffer x.bay pool i r.prog = (s2, some n)) ∧
    (∃ (s : State) (r : ProgRef) (i : Nat) (x : Inst) (p : Program) (o : SwOp), ∃ a pool, s.swHere r = some (i, x, p, o) ∧ o = .get a pool ∧ s.canGet x.bay pool i r.prog (!x.desc.be) = false) ∧
    (∃ (s : State) (r : ProgRef) (i : Nat) (x : Inst) (p : Program) (o : SwOp), ∃ a q, s.swHere r = some (i, x, p, o) ∧ o = .wait a q ∧ x.desc.consume q = noField) ∧
    (∃ (s : State) (r : ProgRef) (i : Nat) (x : Inst) (p : Program) (o : SwOp), ∃ a q, s.swHere r = some (i, x, p, o) ∧ o = .wait a q ∧ x.desc.consume q ≠ noField ∧ s.coreQueue x.bay (x.desc.consume q) false = false) ∧
    (∃ (s : State) (r : ProgRef) (i : Nat) (x : Inst) (p : Program) (o : SwOp), ∃ a q, ∃ s1, ∃ y e, s.swHere r = some (i, x, p, o) ∧ o = .wait a q ∧ x.desc.consume q ≠ noField ∧ s.coreQueue x.bay (x.desc.consume q) false = true ∧ s.nextHandle x (x.desc.consume q) = (s1, some (y, e))) ∧
    (∃ (s : State) (r : ProgRef) (i : Nat) (x : Inst) (p : Program) (o : SwOp), ∃ a q, ∃ s1, s.swHere r = some (i, x, p, o) ∧ o = .wait a q ∧ x.desc.consume q ≠ noField ∧ s.coreQueue x.bay (x.desc.consume q) false = true ∧ s.nextHandle x (x.desc.consume q) = (s1, none)) ∧
    (∃ (s : State) (r : ProgRef) (i : Nat) (x : Inst) (p : Program) (o : SwOp), ∃ a q last rl len, s.swHere r = some (i, x, p, o) ∧ o = .signal a q last rl len ∧ (x.desc.produce q = noField ∨ (p.areg a).fill ≠ .got ∨ (rl ≠ 7 ∧ x.desc.rowCount ≤ p.counter rl))) ∧
    (∃ (s : State) (r : ProgRef) (i : Nat) (x : Inst) (p : Program) (o : SwOp), ∃ a q last rl len, s.swHere r = some (i, x, p, o) ∧ o = .signal a q last rl len ∧ (¬(x.desc.produce q = noField ∨ (p.areg a).fill ≠ .got ∨ (rl ≠ 7 ∧ x.desc.rowCount ≤ p.counter rl))) ∧ s.coreQueue x.bay (x.desc.produce q) true = false) ∧
    (∃ (s : State) (r : ProgRef) (i : Nat) (x : Inst) (p : Program) (o : SwOp), ∃ a q last rl len, s.swHere r = some (i, x, p, o) ∧ o = .signal a q last rl len ∧ x.desc.produce q ≠ noField ∧ (p.areg a).fill = .got ∧ ((rl = 7 ∨ p.counter rl < x.desc.rowCount)) ∧ s.coreQueue x.bay (x.desc.produce q) true = true) ∧
    (∃ (s : State) (r : ProgRef) (i : Nat) (x : Inst) (p : Program) (o : SwOp), ∃ a, s.swHere r = some (i, x, p, o) ∧ o = .free a ∧ (p.areg a).fill = .waited) ∧
    (∃ (s : State) (r : ProgRef) (i : Nat) (x : Inst) (p : Program) (o : SwOp), ∃ a, s.swHere r = some (i, x, p, o) ∧ o = .free a ∧ (p.areg a).fill ≠ .waited) ∧
    (∃ (s : State) (r : ProgRef) (i : Nat) (x : Inst) (p : Program) (o : SwOp), ∃ t n, s.swHere r = some (i, x, p, o) ∧ o = .syncPost t n) ∧
    (∃ (s : State) (r : ProgRef) (i : Nat) (x : Inst) (p : Program) (o : SwOp), ∃ t n, s.swHere r = some (i, x, p, o) ∧ o = .syncWait t n ∧ n ≤ AMap.getD x.tokens t 0) ∧
    (∃ (s : State) (r : ProgRef) (i : Nat) (x : Inst) (p : Program) (o : SwOp), ∃ t n, s.swHere r = some (i, x, p, o) ∧ o = .syncWait t n ∧ AMap.getD x.tokens t 0 < n) ∧
    (∃ (s : State) (r : ProgRef) (i : Nat) (x : Inst) (p : Program) (o : SwOp), ∃ t tiles round, ∃ z, s.swHere r = some (i, x, p, o) ∧ o = .rotate t tiles round ∧ s.liveRound x.bay round = some z) ∧
    (∃ (s : State) (r : ProgRef) (i : Nat) (x : Inst) (p : Program) (o : SwOp), ∃ t tiles round, s.swHere r = some (i, x, p, o) ∧ o = .rotate t tiles round ∧ s.liveRound x.bay round = none ∧ s.roundJoinable x.bay round = false) ∧
    (∃ (s : State) (r : ProgRef) (i : Nat) (x : Inst) (p : Program) (o : SwOp), ∃ t tiles round, ∃ s1 z, s.swHere r = some (i, x, p, o) ∧ o = .rotate t tiles round ∧ s.liveRound x.bay round = none ∧ s.roundJoinable x.bay round = true ∧ s.startRound x round tiles = (s1, .ok z)) ∧
    (∃ (s : State) (r : ProgRef) (i : Nat) (x : Inst) (p : Program) (o : SwOp), ∃ t tiles round, ∃ s1 f, s.swHere r = some (i, x, p, o) ∧ o = .rotate t tiles round ∧ s.liveRound x.bay round = none ∧ s.roundJoinable x.bay round = true ∧ s.startRound x round tiles = (s1, .error f)) ∧
    (∃ (s : State) (bay : Fin 16) (round : BitVec 16) (core : Fin 36), let late := fun z => (s.joinsOn z core.val).find? fun j => !j.missed.isEmpty && !s.engineFault j.inst
      let due := (s.bay bay.val).rounds.find? fun z => z.round = round.toNat && ((late z).isSome || !z.ended)
      due = none) ∧
    (∃ (s : State) (bay : Fin 16) (round : BitVec 16) (core : Fin 36), let late := fun z => (s.joinsOn z core.val).find? fun j => !j.missed.isEmpty && !s.engineFault j.inst
      let due := (s.bay bay.val).rounds.find? fun z => z.round = round.toNat && ((late z).isSome || !z.ended)
      ∃ z, ∃ j, due = some z ∧ late z = some j) ∧
    (∃ (s : State) (bay : Fin 16) (round : BitVec 16) (core : Fin 36), let late := fun z => (s.joinsOn z core.val).find? fun j => !j.missed.isEmpty && !s.engineFault j.inst
      let due := (s.bay bay.val).rounds.find? fun z => z.round = round.toNat && ((late z).isSome || !z.ended)
      ∃ z, ∃ t, due = some z ∧ late z = none ∧ (z.order core.val)[AMap.getD z.passed core.val 0]? = some t) ∧
    (∃ (s : State) (bay : Fin 16) (round : BitVec 16) (core : Fin 36), let late := fun z => (s.joinsOn z core.val).find? fun j => !j.missed.isEmpty && !s.engineFault j.inst
      let due := (s.bay bay.val).rounds.find? fun z => z.round = round.toNat && ((late z).isSome || !z.ended)
      ∃ z, due = some z ∧ late z = none ∧ (z.order core.val)[AMap.getD z.passed core.val 0]? = none) := by
  refine ⟨⟨prog_ 0x6000000000000001 id id, at0, 1, here id id, (id (Program.start 0)), .move 0 false 1, 0, false, 1, ?_⟩,
    ⟨prog_ 0x6000000000040000 (areg got_) id, at0, 1, here (areg got_) id, ((areg got_) (Program.start 0)), .move 0 false 262144, 0, false, 262144, ?_⟩,
    ⟨pooled (prog_ 0x7000000000000000 id id), at0, 1, here id id, (id (Program.start 0)), .get 0 0, 0, 0, _, _, by decide +kernel, rfl, by decide +kernel, rfl⟩,
    ⟨waiting_ (prog_ 0x7000000000000000 id id), at0, 1, here id id, (id (Program.start 0)), .get 0 0, 0, 0, ?_⟩,
    ⟨prog_ 0x8100000000000000 id id, at0, 1, here id id, (id (Program.start 0)), .wait 0 1, 0, 1, ?_⟩,
    ⟨prog_ 0x8000000000000000 id (fun x => { x with desc := { x.desc with consume0 := 1 } }), at0, 1, here id (fun x => { x with desc := { x.desc with consume0 := 1 } }), (id (Program.start 0)), .wait 0 0, 0, 0, ?_⟩,
    ⟨queued 0 (prog_ 0x8000000000000000 id id), at0, 1, here id id, (id (Program.start 0)), .wait 0 0, 0, 0, _, _, _, by decide +kernel, rfl, by decide +kernel, by decide +kernel, rfl⟩,
    ⟨prog_ 0x8000000000000000 id id, at0, 1, here id id, (id (Program.start 0)), .wait 0 0, 0, 0, _, by decide +kernel, rfl, by decide +kernel, by decide +kernel, rfl⟩,
    ⟨prog_ 0x9070000000000000 id id, at0, 1, here id id, (id (Program.start 0)), .signal 0 0 false 7 0, 0, 0, false, 7, 0, ?_⟩,
    ⟨prog_ 0x9070000000000000 (areg got_) (fun x => { x with desc := { x.desc with produce0 := 9 } }), at0, 1, here (areg got_) (fun x => { x with desc := { x.desc with produce0 := 9 } }), ((areg got_) (Program.start 0)), .signal 0 0 false 7 0, 0, 0, false, 7, 0, ?_⟩,
    ⟨prog_ 0x9070000000000000 (areg got_) id, at0, 1, here (areg got_) id, ((areg got_) (Program.start 0)), .signal 0 0 false 7 0, 0, 0, false, 7, 0, ?_⟩,
    ⟨prog_ 0xA000000000000000 (areg waited_) id, at0, 1, here (areg waited_) id, ((areg waited_) (Program.start 0)), .free 0, 0, ?_⟩,
    ⟨prog_ 0xA000000000000000 id id, at0, 1, here id id, (id (Program.start 0)), .free 0, 0, ?_⟩,
    ⟨prog_ 0xB100000000000001 id id, at0, 1, here id id, (id (Program.start 0)), .syncPost 1 1, 1, 1, ?_⟩,
    ⟨prog_ 0xB900000000000001 id (fun x => { x with tokens := [(1, 1)] }), at0, 1, here id (fun x => { x with tokens := [(1, 1)] }), (id (Program.start 0)), .syncWait 1 1, 1, 1, ?_⟩,
    ⟨prog_ 0xB900000000000001 id id, at0, 1, here id id, (id (Program.start 0)), .syncWait 1 1, 1, 1, ?_⟩,
    ⟨(prog_ 0xD000000100030000 id id).setBay 0 { (bayed.bay 0) with rounds := [round_] }, at0, 1, here id id, (id (Program.start 0)), .rotate 0 1 3, 0, 1, 3, round_, ?_⟩,
    ⟨rounds_ 4 (prog_ 0xD000000100030000 id id), at0, 1, here id id, (id (Program.start 0)), .rotate 0 1 3, 0, 1, 3, ?_⟩,
    (ok_get (p := (prog_ 0xD000000100030000 id id).startRound (here id id) 3 1) (by decide +kernel)).elim fun z hz => ⟨prog_ 0xD000000100030000 id id, at0, 1, here id id, Program.start 0, .rotate 0 1 3, 0, 1, 3, _, z, by decide +kernel, rfl, by decide +kernel, by decide +kernel, hz⟩,
    (err_get (p := (away_ (prog_ 0xD000000100030000 id id)).startRound (here id id) 3 1) (by decide +kernel)).elim fun z hz => ⟨away_ (prog_ 0xD000000100030000 id id), at0, 1, here id id, Program.start 0, .rotate 0 1 3, 0, 1, 3, _, z, by decide +kernel, rfl, by decide +kernel, by decide +kernel, hz⟩,
    ⟨bayed, 0, 3, 0, ?_⟩,
    ⟨(holding (inst_ false .resident)).setBay 0 { (bayed.bay 0) with rounds := [late_] }, 0, 3, 0, late_, ⟨1, 0, [], [0]⟩, ?_⟩,
    ⟨(bayed).setBay 0 { (bayed.bay 0) with rounds := [round_] }, 0, 3, 0, round_, 0, ?_⟩,
    ⟨(bayed).setBay 0 { (bayed.bay 0) with rounds := [round_] }, 0, 3, 5, round_, ?_⟩⟩ <;> decide +kernel

end Sys2Proof.Tests
end

