-- ==== Sys2Proof/Tests/Witness05.lean ====
section
/-! SUPPORT. Witnesses: for each clause of a statement, a state and operands that meet its hypotheses together (Witness05). -/

namespace Sys2Proof.Tests
open Sys2Proof Sys2Proof.Machine
set_option maxRecDepth 100000
set_option linter.unusedVariables false
set_option Elab.async false

def w_ (n v : Nat) : Bytes := leBytes n v
/-- An EMA of one channel with one step of one row (07 R165); `kind` 0. -/
def scanBytes (kind : Nat) : Bytes :=
  w_ 1 kind ++ w_ 1 0 ++ w_ 2 1 ++ w_ 2 1 ++ w_ 2 0 ++ w_ 2 1 ++ w_ 2 0 ++ w_ 4 0 ++ w_ 4 0x40 ++ w_ 4 noOperand ++ w_ 4 noOperand ++ w_ 4 noOperand ++
    w_ 4 0x80 ++ w_ 4 0xC0 ++ w_ 4 0x100 ++ w_ 20 0
def crib_ (bs : Bytes) : Inst := { inst_ false .resident with crib := memPutAll [] 0 bs, desc := { (desc_ false) with cribUnits := 32 } }
def scan_ (kind : Nat) : State := holding (crib_ (scanBytes kind))
/-- A pass of one head with records of 256 elements (08 R191). -/
def attBytes (op heads : Nat) : Bytes :=
  w_ 1 op ++ w_ 1 0 ++ w_ 1 heads ++ w_ 1 4 ++ w_ 2 0 ++ w_ 2 0 ++ w_ 4 0x3F800000 ++ w_ 4 0x40 ++ w_ 4 0x1000 ++ w_ 4 0x2000 ++
    w_ 8 0x40000 ++ w_ 4 16 ++ w_ 4 0x3000 ++ w_ 4 0x4000 ++ w_ 20 0
def seqRow (s : State) : State := { s with mem := memPutAll s.mem 0x201000 [0, 0x40, 0, 0] }
def shaped (s : State) : State := { s with engines := { s.engines with seqShapes := [(0, ⟨0, 0, 1⟩)] } }
def att (op heads : Nat) : State := shaped (seqRow (holding (crib_ (attBytes op heads))))
def pass_ (value : Bool) : AttPass :=
  ⟨1, 0, 0, true, value, false, false, 1, 4, 0, 0x3F800000, 0x40, 0x1000, 0x2000, 0x40000, 16, 0x3000, 0x4000, [], false, false⟩
/-- Row 0 names a stream, or a sequence, of no bay. -/
def rowAway (seq : Bool) (s : State) : State := { s with mem := memPutAll s.mem 0x201000 [9, if seq then 0x40 else 0, 0, 0] }
def passing (l : List AttPass) (s : State) : State := { s with engines := { s.engines with passes := l } }
def stream_ (f : Stream → Stream) (s : State) : State := s.setStream 0 (f Stream.idle)
def st_ (c : CtxState) (x : Stream) : Stream := { x with state := c }
def fly : InFlight := ⟨.normal, 0, 0, 1, false, false, [], [], false, 0, 0, 0, .running, false, false, 0, false, false, .zero⟩
def row_ : Row := ⟨false, 0, 0, [], false, false, .zero⟩
def batch_ (rows : List Row) : Batch := ⟨0, false, rows, 0, 0, false, false⟩
/-- A stream whose registers an ARM accepts, whatever the graph's output size. -/
def armable : State :=
  [(Reg.SC_CTRL 0, 0), (Reg.SC_FRAME 0, 0x00640001), (Reg.SC_CHUNK 0, 0x00000001), (Reg.SC_IN_CAP 0, 16), (Reg.SC_OUT_CFG 0, 0x0FFFF010),
   (Reg.SC_STATE_LEN 0, 2), (Reg.BAT_AREA_LO 0, 0x40000)].foldl (fun (s : State) e => (s.setReg e.1 (w32 e.2))) bayed
theorem arm_none : armable.armReason 0 0 = none := by
  have h := (Config.graphOutput 0 0).isLt
  have : State.armReason armable 0 0 = if 4194240 < 64 + (Config.graphOutput 0 0).val then some 4 else none := by
    unfold State.armReason
    have e1 : (armable.latest (Reg.SC_CTRL 0)).toNat = 0 := by decide +kernel
    have e2 : armable.armRanges 0 = true := by decide +kernel
    have e3 : armable.graphOk 0 0 = true := by decide +kernel
    have e4 : fld (armable.latest (Reg.SC_IN_CAP 0)) 15 0 = 16 := by decide +kernel
    have e5 : fld (armable.latest (Reg.SC_OUT_CFG 0)) 27 12 = 65535 := by decide +kernel
    have e6 : armable.stagedShape 0 = ⟨1, 1, 0⟩ := by decide +kernel
    have e7 : armable.dropLate 0 0 = false := by decide +kernel
    have e8 : armable.batArea 0 = 0x40000 := by decide +kernel
    have e9 : AMap.get? (armable.batcher 0).shapes 0 = none := by decide +kernel
    simp [e1, e2, e3, e4, e5, e6, e7, e8, e9]
  rw [this, if_neg (by omega)]
/-- Stream 0 belongs to the running set 1. -/
def inSet (s : State) : State := (s.setReg (Reg.SC_SET 0) 0x8001#32).setAlign 0 1 ⟨true, none, 0, [], false⟩
theorem scanRows_ok : (okOf ((scan_ 0).scanRows (crib_ (scanBytes 0)) (parseScan ((crib_ (scanBytes 0)).cribRead 0 64)) [[]]
    ((List.range ((scan_ 0).rowsOf (crib_ (scanBytes 0))).length).filterMap fun n => (((scan_ 0).rowsOf (crib_ (scanBytes 0)))[n]?).map fun w => (n, w))).2).isSome = true := by decide +kernel

theorem witness_ScanAndAttentionRun_1 :
    ∃ (s : State) (r : EngineRef) (off i : Nat) (x : Inst), s.EngineRuns r engineSce i x ∧ x.inCrib off 64 = false :=
  ⟨scan_ 0, ⟨stall0, none, none⟩, 0x200000, 1, crib_ (scanBytes 0), by decide +kernel⟩

theorem witness_ScanAndAttentionRun_2 :
    ∃ (s : State) (r : EngineRef) (off i : Nat) (x : Inst), s.EngineRuns r engineSce i x ∧ x.inCrib off 64 = true ∧ scanOk x (x.cribRead off 64) ((s.rowsOf x).all fun w => !w.seq) = false :=
  ⟨scan_ 4, ⟨stall0, none, none⟩, 0, 1, crib_ (scanBytes 4), by decide +kernel⟩

theorem witness_ScanAndAttentionRun_3 :
    ∃ (s : State) (r : EngineRef) (off i : Nat) (x : Inst), s.EngineRuns r engineSce i x ∧ x.inCrib off 64 = true ∧ scanOk x (x.cribRead off 64) ((s.rowsOf x).all fun w => !w.seq) = true ∧ s.rowsHome x = false :=
  ⟨rowAway false (scan_ 0), ⟨stall0, none, none⟩, 0, 1, crib_ (scanBytes 0), by decide +kernel⟩

theorem witness_ScanAndAttentionRun_4 :
    ∃ (s : State) (r : EngineRef) (off i : Nat) (x : Inst), ∃ (s1 s2 s3 : State) (resets : List (List Nat)) (rows : List ScanRow) (rs : List (ScanRow × ScanOut × Bool × Bool)), s.EngineRuns r engineSce i x ∧ x.inCrib off 64 = true ∧ scanOk x (x.cribRead off 64) ((s.rowsOf x).all fun w => !w.seq) = true ∧ s.rowsHome x = true ∧ s.rowResets x = (s1, .ok resets) ∧ s1.scanRows x (parseScan (x.cribRead off 64)) resets
      ((List.range (s.rowsOf x).length).filterMap fun n => ((s.rowsOf x)[n]?).map fun w => (n, w)) = (s2, .ok rows) ∧ s2.scanAll x (parseScan (x.cribRead off 64)) rows = (s3, rs) :=
  ⟨scan_ 0, ⟨stall0, none, none⟩, 0, 1, crib_ (scanBytes 0), scan_ 0, _, _, [[]], _, _, by decide +kernel, by decide +kernel, by decide +kernel, by decide +kernel, rfl, pair_ok (Option.some_get scanRows_ok).symm, rfl⟩

theorem witness_ScanAndAttentionRun_5 :
    ∃ (s : State) (r : EngineRef) (off i : Nat) (x : Inst) (value : Bool) (c : Instr), s.EngineRuns r engineMxe i x ∧ ((c = .attScore r off ∧ value = false) ∨ (c = .attValue r off ∧ value = true)) ∧ attFits off value x = false :=
  ⟨att 2 1, ⟨stall0, none, none⟩, 0, 1, crib_ (attBytes 2 1), false, .attScore ⟨stall0, none, none⟩ 0, by decide +kernel, .inl ⟨rfl, rfl⟩, by decide +kernel⟩

theorem witness_ScanAndAttentionRun_6 :
    ∃ (s : State) (r : EngineRef) (off i : Nat) (x : Inst) (value : Bool) (c : Instr), s.EngineRuns r engineMxe i x ∧ ((c = .attScore r off ∧ value = false) ∨ (c = .attValue r off ∧ value = true)) ∧ attFits off value x = true ∧ x.inCrib off 64 = false :=
  ⟨att 1 1, ⟨stall0, none, none⟩, 0x200000, 1, crib_ (attBytes 1 1), true, .attValue ⟨stall0, none, none⟩ 0x200000, by decide +kernel, .inr ⟨rfl, rfl⟩, by decide +kernel, by decide +kernel⟩

theorem witness_ScanAndAttentionRun_7 :
    ∃ (s : State) (r : EngineRef) (off i : Nat) (x : Inst) (value : Bool) (c : Instr), let d := parseAtt (x.cribRead off 64)
      ∃ h, s.EngineRuns r engineMxe i x ∧ ((c = .attScore r off ∧ value = false) ∨ (c = .attValue r off ∧ value = true)) ∧ attFits off value x = true ∧ x.inCrib off 64 = true ∧ d.op = (if value then 2 else 1) ∧ AMap.get? s.engines.seqShapes (x.bay * 256 + x.desc.graph) = some h ∧ s.attOk x (x.cribRead off 64) h = false :=
  ⟨att 1 0, ⟨stall0, none, none⟩, 0, 1, crib_ (attBytes 1 0), false, .attScore ⟨stall0, none, none⟩ 0, ⟨0, 0, 1⟩, by decide +kernel, .inl ⟨rfl, rfl⟩, by decide +kernel⟩

theorem witness_ScanAndAttentionRun_8 :
    ∃ (s : State) (r : EngineRef) (off i : Nat) (x : Inst) (value : Bool) (c : Instr), let d := parseAtt (x.cribRead off 64)
      ∃ h, s.EngineRuns r engineMxe i x ∧ ((c = .attScore r off ∧ value = false) ∨ (c = .attValue r off ∧ value = true)) ∧ attFits off value x = true ∧ x.inCrib off 64 = true ∧ d.op = (if value then 2 else 1) ∧ AMap.get? s.engines.seqShapes (x.bay * 256 + x.desc.graph) = some h ∧ s.attOk x (x.cribRead off 64) h = true ∧ s.rowsHome x = false :=
  ⟨rowAway true (att 2 16), ⟨stall0, none, none⟩, 0, 1, crib_ (attBytes 2 16), true, .attValue ⟨stall0, none, none⟩ 0, ⟨0, 0, 1⟩, by decide +kernel, .inr ⟨rfl, rfl⟩, by decide +kernel⟩

theorem witness_ScanAndAttentionRun_9 :
    ∃ (s : State) (r : EngineRef) (off i : Nat) (x : Inst) (value : Bool) (c : Instr), let d := parseAtt (x.cribRead off 64)
      ∃ h, s.EngineRuns r engineMxe i x ∧ ((c = .attScore r off ∧ value = false) ∨ (c = .attValue r off ∧ value = true)) ∧ attFits off value x = true ∧ x.inCrib off 64 = true ∧ d.op = (if value then 2 else 1) ∧ AMap.get? s.engines.seqShapes (x.bay * 256 + x.desc.graph) = some h ∧ s.attOk x (x.cribRead off 64) h = true ∧ s.rowsHome x = true :=
  ⟨att 2 16, ⟨stall0, none, none⟩, 0, 1, crib_ (attBytes 2 16), true, .attValue ⟨stall0, none, none⟩ 0, ⟨0, 0, 1⟩, by decide +kernel, .inr ⟨rfl, rfl⟩, by decide +kernel⟩

theorem witness_ScanAndAttentionRun_10 :
    ∃ (s : State) (i : Nat) (p : AttPass) (x : Inst) (h : SeqShape), s.pass? i = some p ∧ s.inst? i = some x ∧ AMap.get? s.engines.seqShapes (x.bay * 256 + x.desc.graph) = some h ∧ s.passReady p = false :=
  ⟨passing [{ pass_ true with rows := [⟨0, 0, 0, [], 1, false, [3], []⟩] }] (att 2 1), 1, { pass_ true with rows := [⟨0, 0, 0, [], 1, false, [3], []⟩] }, crib_ (attBytes 2 1), ⟨0, 0, 1⟩, by decide +kernel⟩

theorem witness_ScanAndAttentionRun_11 :
    ∃ (s : State) (i : Nat) (p : AttPass) (x : Inst) (h : SeqShape), s.pass? i = some p ∧ s.inst? i = some x ∧ AMap.get? s.engines.seqShapes (x.bay * 256 + x.desc.graph) = some h ∧ s.passReady p = true ∧ p.value = true :=
  ⟨passing [pass_ true] (att 2 1), 1, pass_ true, crib_ (attBytes 2 1), ⟨0, 0, 1⟩, by decide +kernel⟩

theorem witness_ScanAndAttentionRun_12 :
    ∃ (s : State) (i : Nat) (p : AttPass) (x : Inst) (h : SeqShape), s.pass? i = some p ∧ s.inst? i = some x ∧ AMap.get? s.engines.seqShapes (x.bay * 256 + x.desc.graph) = some h ∧ s.passReady p = true ∧ p.value = false :=
  ⟨passing [pass_ false] (att 1 1), 1, pass_ false, crib_ (attBytes 1 1), ⟨0, 0, 1⟩, by decide +kernel⟩

theorem witness_StreamCommandsAccepted :
    (∃ (s : State) (src : Source) (sid : Fin 16384) (b : Nat), s.MayWrite src (Reg.SC_CMD sid.val) ∧ (s.stream sid.val).pending = none ∧ (s.stream sid.val).state = .idle ∧ s.bayOfSid sid.val = some b ∧ s.armReason b sid.val = none) ∧
    (∃ (s : State) (b sid : Nat), ∃ i, i ≠ sid) ∧
    (∃ (s : State) (src : Source) (sid : Fin 16384), let x := { s.stream sid.val with refused := false, reason := 0 }
      s.MayWrite src (Reg.SC_CMD sid.val) ∧ (s.stream sid.val).pending = none ∧ x.state = .armed) ∧
    (∃ (s : State) (src : Source) (sid : Fin 16384), let x := { s.stream sid.val with refused := false, reason := 0 }
      s.MayWrite src (Reg.SC_CMD sid.val) ∧ (s.stream sid.val).pending = none ∧ (x.state = .armed ∨ x.state = .running) ∧ s.bayOfSid sid.val = none) ∧
    (∃ (s : State) (src : Source) (sid : Fin 16384), let x := { s.stream sid.val with refused := false, reason := 0 }
      s.MayWrite src (Reg.SC_CMD sid.val) ∧ (s.stream sid.val).pending = none ∧ (x.state = .armed ∨ x.state = .running)) ∧
    (∃ (s : State) (src : Source) (sid : Fin 16384), let x := { s.stream sid.val with refused := false, reason := 0 }
      s.MayWrite src (Reg.SC_CMD sid.val) ∧ (s.stream sid.val).pending = none ∧ x.state = .paused) ∧
    (∃ (s : State) (src : Source) (sid : Fin 16384), let x := { s.stream sid.val with refused := false, reason := 0 }
      ∃ b, s.MayWrite src (Reg.SC_CMD sid.val) ∧ (s.stream sid.val).pending = none ∧ s.bayOfSid sid.val = some b ∧ (x.state = .armed ∨ x.state = .running ∨ x.state = .paused)) ∧
    (∃ (s : State) (src : Source) (sid : Fin 16384), let x := { s.stream sid.val with refused := false, reason := 0 }
      ∃ b, s.MayWrite src (Reg.SC_CMD sid.val) ∧ (s.stream sid.val).pending = none ∧ s.bayOfSid sid.val = some b ∧ x.state ≠ .idle) ∧
    (∃ (s : State) (src : Source) (sid : Fin 16384), let x := { s.stream sid.val with refused := false, reason := 0 }
      s.MayWrite src (Reg.SC_CMD sid.val) ∧ (s.stream sid.val).pending = none ∧ (x.state = .armed ∨ x.state = .running ∨ x.state = .paused)) := by
  refine ⟨⟨armable, cp, 0, 0, by decide +kernel, by decide +kernel, by decide +kernel, by decide +kernel, arm_none⟩,
    ⟨idle, 0, 7, 8, ?_⟩,
    ⟨bayed.setStream 7 (st_ .armed Stream.idle), cp, 7, ?_⟩,
    ⟨idle.setStream 0 (st_ .running Stream.idle), cp, 0, ?_⟩,
    ⟨bayed.setStream 7 (st_ .running Stream.idle), cp, 7, ?_⟩,
    ⟨bayed.setStream 7 (st_ .paused Stream.idle), cp, 7, ?_⟩,
    ⟨bayed.setStream 7 (st_ .paused Stream.idle), cp, 7, 0, ?_⟩,
    ⟨bayed.setStream 7 (st_ .draining Stream.idle), cp, 7, 0, ?_⟩,
    ⟨stream_ (st_ .armed) bayed, cp, 0, ?_⟩⟩ <;> decide +kernel

theorem witness_FramesInAndTailsOut :
    (∃ (s : State) (peer sid : Fin 16384) (chaff : Bool) (first : Word) (count b : Nat) (data : List Byte), s.bayOfSid sid.val = some b ∧ bit (s.reg (Reg.SC_CTRL sid.val)) 11 = false ∧ fld (s.reg (Reg.SC_PEER sid.val)) 13 0 = peer.val ∧ (s.stream sid.val).state ≠ .idle ∧ data.length = count * s.frameLen sid.val) ∧
    (∃ (s : State) (peer sid : Fin 16384) (chaff : Bool) (first : Word) (count : Nat) (data : List Byte), (s.stream sid.val).state = .idle) ∧
    (∃ (s : State) (b sid : Nat) (q : Word) (bytes : Bytes) (chaff : Bool) (en : Engine), s.frameLate sid q = true) ∧
    (∃ (s : State) (b sid : Nat) (q : Word) (bytes : Bytes) (chaff : Bool) (en : Engine), s.frameLate sid q = false ∧ fld (s.reg (Reg.SC_IN_CAP sid)) 15 0 ≤ (q - s.reg (Reg.SC_IN_TAIL sid)).toNat) ∧
    (∃ (s s1 : State) (b sid : Nat) (q : Word) (bytes : Bytes) (chaff : Bool) (en : Engine), s.frameLate sid q = false ∧ (q - s.reg (Reg.SC_IN_TAIL sid)).toNat < fld (s.reg (Reg.SC_IN_CAP sid)) 15 0 ∧ (s.stream sid).frames.contains q.toNat = false ∧ s.writeRun b (s.frameVa sid q) bytes chaff en = (s1, none)) ∧
    (∃ (s : State) (src : Source) (sequence : Bool) (index : Fin 16384) (v : Word), let i := if sequence then index.val % 8192 else index.val
      s.MayWrite src (ctxReg sequence i 0x50) ∧ s.ctxSink sequence i = 2) ∧
    (∃ (s : State) (src : Source) (sequence : Bool) (index : Fin 16384) (v : Word), let i := if sequence then index.val % 8192 else index.val
      s.MayWrite src (ctxReg sequence i 0x50) ∧ s.ctxSink sequence i ≠ 2) := by
  refine ⟨⟨(((stream_ (st_ .armed) bayed).setReg (Reg.SC_FRAME 0) 0x00640001#32).setReg (Reg.SC_PEER 0) 9#32).setReg (Reg.SC_IN_CAP 0) 4#32, 9, 0, true, 0xFFFFFFFF#32, 2, 0, List.replicate 8 255, ?_⟩,
    ⟨bayed, 9, 0, true, 0xFFFFFFFF#32, 2, [1], ?_⟩,
    ⟨(((stream_ (st_ .armed) bayed).setReg (Reg.SC_FRAME 0) 0x00640001#32).setReg (Reg.SC_PEER 0) 9#32).setReg (Reg.SC_IN_CAP 0) 4#32, 0, 0, 0xFFFFFFFF#32, [], false, dispatcherEngine, ?_⟩,
    ⟨(((stream_ (st_ .armed) bayed).setReg (Reg.SC_FRAME 0) 0x00640001#32).setReg (Reg.SC_PEER 0) 9#32).setReg (Reg.SC_IN_CAP 0) 4#32, 0, 0, 4, [], false, dispatcherEngine, ?_⟩,
    ⟨(((stream_ (st_ .armed) bayed).setReg (Reg.SC_FRAME 0) 0x00640001#32).setReg (Reg.SC_PEER 0) 9#32).setReg (Reg.SC_IN_CAP 0) 4#32, _, 0, 0, 3, [1, 2, 3, 4], false, dispatcherEngine, by decide +kernel, by decide +kernel, by decide +kernel, Prod.ext rfl (by decide +kernel)⟩,
    ⟨(bayed).setReg (ctxReg true 7 0) 0x00020000#32, cp, true, 8199, 3, ?_⟩,
    ⟨bayed, cp, false, 8199, 3, ?_⟩⟩ <;> decide +kernel

theorem witness_ChunksBatchesAndChains :
    (∃ (s : State) (sid : Fin 16384), ((s.stream sid.val).state = .idle ∨ (s.stream sid.val).state = .armed ∨ (s.stream sid.val).state = .paused)) ∧
    (∃ (s : State) (sid : Fin 16384) (b : Nat), s.bayOfSid sid.val = some b ∧ (s.stream sid.val).state = .running ∧ (s.stream sid.val).inflight = none ∧ (s.stream sid.val).pending = none ∧ s.owesEmpty false sid.val = false ∧ (s.bay b).lullWanted = false ∧ (s.bay b).lulled = false ∧ (s.stream sid.val).dropTo = none ∧ s.chunkReady sid.val (s.reg (Reg.SC_CHUNK_SEQ sid.val)) = true ∧ (s.stream sid.val).absent = false ∧ (s.setOf sid.val = none ∨ (s.stream sid.val).returned = true)) ∧
    (∃ (s : State) (sid : Fin 16384) (b : Nat), ∃ k, s.bayOfSid sid.val = some b ∧ (s.stream sid.val).state = .running ∧ (s.stream sid.val).inflight = none ∧ (s.stream sid.val).pending = none ∧ s.owesEmpty false sid.val = false ∧ (s.bay b).lullWanted = false ∧ (s.bay b).lulled = false ∧ (s.stream sid.val).dropTo = none ∧ s.chunkReady sid.val (s.reg (Reg.SC_CHUNK_SEQ sid.val)) = true ∧ (s.stream sid.val).absent = false ∧ s.setOf sid.val = some k ∧ (s.stream sid.val).returned = false ∧ (s.alignSet b k).running = true ∧ (s.alignSet b k).offered.contains sid.val = false ∧ s.reg (Reg.SC_CHUNK_SEQ sid.val) = s.reg (Reg.BAT_ALIGN_NEXT b k)) ∧
    (∃ (s : State) (bay : Fin 16) (graph : Fin 256) (x : Batch), s.openBatch bay.val graph.val = some x ∧ 64 ≤ x.rows.length) ∧
    (∃ (s : State) (bay : Fin 16) (slot : Fin 1024), AMap.get? (s.batcher bay.val).slots slot.val = none) ∧
    (∃ (s : State) (bay : Fin 16) (slot : Fin 1024) (x : Batch) (r : Row) (f : InFlight), AMap.get? (s.batcher bay.val).slots slot.val = some x ∧ x.held = false ∧ s.chainEnded bay.val slot.val = true ∧ x.rows = [r] ∧ r.finished = false ∧ s.ctxInflight r.seq r.index = some f ∧ f.stage = .running) ∧
    (∃ (s : State) (bay : Fin 16) (slot : Fin 1024) (x : Batch), AMap.get? (s.batcher bay.val).slots slot.val = some x ∧ x.held = false ∧ s.chainEnded bay.val slot.val = true ∧ x.rows.all (·.finished) = true) := by
  refine ⟨⟨stream_ (st_ .paused) bayed, 0, ?_⟩,
    ⟨(stream_ (fun x => { st_ .running x with frames := [0] }) bayed).setReg (Reg.SC_CHUNK 0) 1#32, 0, 0, ?_⟩,
    ⟨inSet ((stream_ (fun x => { st_ .running x with frames := [0] }) bayed).setReg (Reg.SC_CHUNK 0) 1#32), 0, 0, 1, ?_⟩,
    ⟨bayed.setBatcher 0 { Batcher.empty with openBatches := [(255, batch_ (List.replicate 64 row_))] }, 0, 255, batch_ (List.replicate 64 row_), ?_⟩,
    ⟨bayed, 15, 1023, ?_⟩,
    ⟨(stream_ (fun x => { st_ .running x with inflight := some fly }) bayed).setBatcher 0 { Batcher.empty with slots := [(1023, batch_ [row_])] }, 0, 1023, batch_ [row_], row_, fly, ?_⟩,
    ⟨bayed.setBatcher 0 { Batcher.empty with slots := [(1023, batch_ [{ row_ with finished := true }])] }, 0, 1023, batch_ [{ row_ with finished := true }], ?_⟩⟩ <;> decide +kernel

theorem witness_AlignedSets :
    (∃ (s : State) (src : Source) (bay : Fin 16), let k := fld (s.reg (Reg.BAT_ASEL bay.val)) 9 0
      s.MayWrite src (Reg.BAT_ALIGN_CMD bay.val k) ∧ (s.alignSet bay.val k).running = true) ∧
    (∃ (s : State) (src : Source) (bay : Fin 16), let k := fld (s.reg (Reg.BAT_ASEL bay.val)) 9 0
      s.MayWrite src (Reg.BAT_ALIGN_CMD bay.val k) ∧ (s.alignSet bay.val k).running = false ∧ s.members bay.val k = []) ∧
    (∃ (s : State) (src : Source) (bay : Fin 16), let k := fld (s.reg (Reg.BAT_ASEL bay.val)) 9 0
      s.MayWrite src (Reg.BAT_ALIGN_CMD bay.val k)) ∧
    (∃ (s : State) (bay : Fin 16) (set : Fin 1024), (s.alignSet bay.val set.val).timing = none) ∧
    (∃ (s : State) (bay : Fin 16) (set : Fin 1024), (s.alignSet bay.val set.val).timing ≠ none) := by
  refine ⟨⟨(bayed.setReg (Reg.BAT_ASEL 15) 1023#32).setAlign 15 1023 ⟨true, none, 0, [], false⟩, cp, 15, ?_⟩,
    ⟨bayed, cp, 15, ?_⟩,
    ⟨bayed, cp, 0, ?_⟩,
    ⟨bayed, 15, 1023, ?_⟩,
    ⟨(bayed.setReg (Reg.BAT_ASEL 15) 1023#32).setAlign 15 1023 ⟨true, some 5, 0, [], false⟩, 15, 1023, ?_⟩⟩ <;> decide +kernel

end Sys2Proof.Tests
end

