-- ==== Sys2Proof/Tests/Witness06.lean ====
section
/-! SUPPORT. Witnesses: for each clause of a statement, a state and operands that meet its hypotheses together (Witness06). -/

namespace Sys2Proof.Tests
open Sys2Proof Sys2Proof.Machine
set_option maxRecDepth 100000
set_option linter.unusedVariables false
set_option Elab.async false

def seq_ (q : Nat) (f : SeqCtx → SeqCtx) (s : State) : State := s.setSeq q (f SeqCtx.idle)
def qst (c : CtxState) (x : SeqCtx) : SeqCtx := { x with state := c }
def fly6 (st : HeaderStage) : InFlight := ⟨.normal, 0, 0, 1, false, false, [], [], false, 0, 0, 0, st, false, false, 0, false, false, .zero⟩
/-- A sequence whose registers an ARM accepts, whatever the graph's output size. -/
def armSeq : State :=
  [(Reg.SQ_SHAPE 7, 0x00042010), (Reg.SQ_LAYER_STRIDE 7, 2), (Reg.SQ_POS_LIMIT 7, 1), (Reg.SQ_OUT_CFG 7, 0x0FFFF002),
   (Reg.BAT_AREA_LO 0, 0x40000)].foldl (fun (s : State) e => (s.setReg e.1 (w32 e.2))) bayed
theorem armSeq_none : armSeq.sqArmReason 0 7 = none := by
  have h := (Config.graphOutput 0 0).isLt
  have : State.sqArmReason armSeq 0 7 = if 4194240 < 64 + (Config.graphOutput 0 0).val then some 4 else none := by
    unfold State.sqArmReason
    have e1 : (armSeq.latest (Reg.SQ_CTRL 7)).toNat = 0 := by decide +kernel
    have e2 : armSeq.sqRanges 7 = true := by decide +kernel
    have e3 : armSeq.graphOk 0 0 = true := by decide +kernel
    have e4 : armSeq.latest (Reg.SQ_SHAPE 7) = 0x00042010#32 := by decide +kernel
    have e5 : fld (armSeq.latest (Reg.SQ_OUT_CFG 7)) 27 12 = 65535 := by decide +kernel
    have e6 : armSeq.latest (Reg.SQ_POS_LIMIT 7) = 1#32 := by decide +kernel
    have e7 : armSeq.dropLate 0 0 = false := by decide +kernel
    have e8 : armSeq.batArea 0 = 0x40000 := by decide +kernel
    have e9 : armSeq.engines.seqShapes = [] := by decide +kernel
    have e10 : armSeq.latest (Reg.SQ_LAYER_STRIDE 7) = 2#32 := by decide +kernel
    have e11 : (kvFormat (shapeTag 0x00042010#32)) = some ⟨256, .e4m3, 384, 2⟩ := by decide +kernel
    have e12 : shapeWidth 0x00042010#32 = 256 := by decide +kernel
    have e13 : shapeStride 0x00042010#32 = 2 := by decide +kernel
    have e14 : ceilDiv (fld (1#32) 20 0) 256 = 1 := by decide +kernel
    simp [e1, e2, e3, e4, e5, e6, e7, e8, e9, e10, e11, e12, e13, e14, AMap.get?]
  rw [this, if_neg (by omega)]
def cancelOpen (b : Nat) (s : State) : State := open_ (blockOf (Reg.SW_CANCEL_CMD b)) s
def copyOpen (b : Nat) (s : State) : State := open_ (blockOf (Reg.CCH_CMD b 3)) s
def ended_ : Inst := { inst_ false .resident with input := some { Program.start 0 with ended := true } }
def glean_ (k : GleanKind) : Inst := { inst_ false .resident with gleaning := some k }
def qe : QueueEntry := ⟨⟨0, 0, 1, false, false, 0, 0⟩, ⟨0x1000, 0, 1, 1, 0, false, none⟩⟩
def filled (q : Nat) (s : State) : State := s.setQueue q ⟨[qe], [], 0, 0⟩
def pool6 (s : State) : State := s.setReg (Reg.SW_POOL_CFG 0 0) 0x00010001#32
def away6 (s : State) : State := (s.setReg (Reg.SW_POOL_BASE_LO 0 0) 0x3FF00000#32)
def copies (len : Nat) (dst : W64) : CopyDesc := ⟨0, dst, len, false⟩
def chan (c : CopyChannel) (s : State) : State := s.setChannel 0 3 c
def on_ (d : CopyDesc) : CopyChannel := { CopyChannel.idle with active := some d }
def runs_ (n : Nat) (dst : W64) : State := chan (on_ (copies n dst)) bayed
def stopOf : CopyStop → Option (Option (RunFault × Bool))
  | .issued => some none
  | .fault f w => some (some (f, w))
  | _ => none
theorem stop_issued {x : CopyStop} (h : stopOf x = some none) : x = .issued := by cases x <;> simp_all [stopOf]
theorem stop_fault {x : CopyStop} {f : RunFault} {w : Bool} (h : stopOf x = some (some (f, w))) : x = .fault f w := by cases x <;> simp_all [stopOf]
theorem run_issued : ((runs_ 8 0x1000).copyRun 0 3 (copies 8 0x1000) 512 (copyFuel (copies 8 0x1000))).2 = .issued := stop_issued (by decide +kernel)
theorem run_fault : ((runs_ 8 0x3FF00000).copyRun 0 3 (copies 8 0x3FF00000) 512 (copyFuel (copies 8 0x3FF00000))).2 =
    .fault ⟨0x3FF00000, .notPresent, 3, 0⟩ true := stop_fault (by decide +kernel)
theorem pool_away : errOf ((filled 1 (pool6 (away6 bayed))).serviceStart 0 qe.handle).2 = some ⟨0x3FF00000, .notPresent, 3, 0⟩ := by decide +kernel
/-- A service under way, with no command left. -/
def service_ : Service := ⟨inst_ false .resident, [], none, false, []⟩
def serving (s : State) : State := { s with engines := { s.engines with services := [(1, service_)] } }
def start_ := (filled 1 (pool6 bayed)).serviceStart 0 qe.handle
theorem start_ok : (okOf start_.2).isSome = true := by decide +kernel
def begun_ : Service := (okOf start_.2).get start_ok
def served_ := start_.1.serviceRun 0 true (start_.1.poolSize 0 0) begun_ serviceFuel
theorem served_none : served_.2.2 = none := by decide +kernel
theorem served_ok : (okOf (served_.1.translateRun 0 true (bseEngine (served_.1.loftDie 0 (served_.1.bufferVa 0 0 0) 0))
    (pageRuns (served_.1.bufferVa 0 0 0) (served_.1.poolSize 0 0))).2).isSome = true := by decide +kernel
/-- A connection awaits what the channel asked for. -/
def asking (s : State) : State := { s with net := { s.net with conns := [(0, { Conn.idle with requests := [(0, .copyWrite 0 3 0x1000 64)] })] } }
theorem run_asking : ((asking (runs_ 8 0x1000)).copyRun 0 3 (copies 8 0x1000) 512 (copyFuel (copies 8 0x1000))).2 = .issued := stop_issued (by decide +kernel)

theorem witness_SequenceCommandsAccepted :
    (∃ (s : State) (src : Source) (q : Fin 8192) (b : Nat), let x := { s.seqCtx q.val with refused := false, reason := 0 }
      s.MayWrite src (Reg.SQ_CMD q.val) ∧ (s.seqCtx q.val).pending = none ∧ s.bayOfSeq q.val = some b ∧ x.state = .idle ∧ s.sqArmReason b q.val = none) ∧
    (∃ (s : State) (src : Source) (q : Fin 8192) (b : Nat), let x := { s.seqCtx q.val with refused := false, reason := 0 }
      ∃ r, s.MayWrite src (Reg.SQ_CMD q.val) ∧ (s.seqCtx q.val).pending = none ∧ s.bayOfSeq q.val = some b ∧ x.state = .idle ∧ s.sqArmReason b q.val = some r) ∧
    (∃ (s : State) (src : Source) (q : Fin 8192) (b : Nat), let x := { s.seqCtx q.val with refused := false, reason := 0 }
      s.MayWrite src (Reg.SQ_CMD q.val) ∧ (s.seqCtx q.val).pending = none ∧ s.bayOfSeq q.val = some b ∧ x.state = .armed) ∧
    (∃ (s : State) (src : Source) (q : Fin 8192) (b : Nat), let x := { s.seqCtx q.val with refused := false, reason := 0 }
      s.MayWrite src (Reg.SQ_CMD q.val) ∧ (s.seqCtx q.val).pending = none ∧ s.bayOfSeq q.val = some b ∧ (x.state = .armed ∨ x.state = .running)) ∧
    (∃ (s : State) (src : Source) (q : Fin 8192) (b : Nat), let x := { s.seqCtx q.val with refused := false, reason := 0 }
      s.MayWrite src (Reg.SQ_CMD q.val) ∧ (s.seqCtx q.val).pending = none ∧ s.bayOfSeq q.val = some b ∧ x.state = .paused ∧ x.readyAt = none) ∧
    (∃ (s : State) (src : Source) (q : Fin 8192) (b : Nat), let x := { s.seqCtx q.val with refused := false, reason := 0 }
      s.MayWrite src (Reg.SQ_CMD q.val) ∧ (s.seqCtx q.val).pending = none ∧ s.bayOfSeq q.val = some b ∧ x.state = .paused ∧ x.readyAt ≠ none) ∧
    (∃ (s : State) (src : Source) (q : Fin 8192) (b : Nat), let x := { s.seqCtx q.val with refused := false, reason := 0 }
      s.MayWrite src (Reg.SQ_CMD q.val) ∧ (s.seqCtx q.val).pending = none ∧ s.bayOfSeq q.val = some b ∧ (x.state = .armed ∨ x.state = .running ∨ x.state = .paused)) ∧
    (∃ (s : State) (src : Source) (q : Fin 8192) (b : Nat), let x := { s.seqCtx q.val with refused := false, reason := 0 }
      s.MayWrite src (Reg.SQ_CMD q.val) ∧ (s.seqCtx q.val).pending = none ∧ s.bayOfSeq q.val = some b ∧ x.state ≠ .idle) ∧
    (∃ (s : State) (b q : Nat), bit ((s.applyAll (sqArmRegs q)).reg (Reg.SQ_CTRL q)) 12 = false) ∧
    (∃ (s : State) (q : Fin 8192) (f : InFlight), (s.seqCtx q.val).inflight = some f ∧ f.stage = .written) ∧
    (∃ (s : State) (q : Fin 8192) (f : InFlight), (s.seqCtx q.val).inflight = some f ∧ f.stage ≠ .written) := by
  refine ⟨⟨armSeq, cp, 7, 0, by decide +kernel, by decide +kernel, by decide +kernel, by decide +kernel, armSeq_none⟩,
    ⟨bayed, cp, 7, 0, 2, ?_⟩,
    ⟨seq_ 7 (qst .armed) bayed, cp, 7, 0, ?_⟩,
    ⟨seq_ 0 (qst .running) bayed, cp, 0, 0, ?_⟩,
    ⟨seq_ 7 (qst .paused) bayed, cp, 7, 0, ?_⟩,
    ⟨seq_ 0 (fun x => { qst .paused x with readyAt := some 5 }) bayed, cp, 0, 0, ?_⟩,
    ⟨seq_ 0 (qst .armed) bayed, cp, 0, 0, ?_⟩,
    ⟨seq_ 7 (qst .draining) bayed, cp, 7, 0, ?_⟩,
    ⟨bayed, 0, 0, ?_⟩,
    ⟨seq_ 8191 (fun x => { x with inflight := some (fly6 .written) }) bayed, 8191, fly6 .written, ?_⟩,
    ⟨seq_ 0 (fun x => { x with inflight := some (fly6 .due) }) bayed, 0, fly6 .due, ?_⟩⟩ <;> decide +kernel

theorem witness_ContextCommandsRefused :
    (∃ (s : State) (src : Source) (sid : Fin 16384) (c : Instr) (allowed : List CtxState), s.MayWrite src (Reg.SC_CMD sid.val) ∧ ((c = .scArm src sid ∧ allowed = [.idle]) ∨ (c = .scStart src sid ∧ allowed = [.armed]) ∨
      (c = .scPause src sid ∧ allowed = [.armed, .running]) ∨ (c = .scResume src sid ∧ allowed = [.paused]) ∨
      (c = .scDrain src sid ∧ allowed = [.armed, .running, .paused]) ∨
      (c = .scAbort src sid ∧ allowed = [.armed, .running, .paused, .draining]) ∨
      (c = .scResetState src sid ∧ allowed = [.armed, .running, .paused]) ∨
      (c = .scRecheck src sid ∧ allowed = [.armed, .running, .paused, .draining])) ∧ (s.stream sid.val).pending ≠ none) ∧
    (∃ (s : State) (src : Source) (sid : Fin 16384) (c : Instr) (allowed : List CtxState), s.MayWrite src (Reg.SC_CMD sid.val) ∧ ((c = .scArm src sid ∧ allowed = [.idle]) ∨ (c = .scStart src sid ∧ allowed = [.armed]) ∨
      (c = .scPause src sid ∧ allowed = [.armed, .running]) ∨ (c = .scResume src sid ∧ allowed = [.paused]) ∨
      (c = .scDrain src sid ∧ allowed = [.armed, .running, .paused]) ∨
      (c = .scAbort src sid ∧ allowed = [.armed, .running, .paused, .draining]) ∨
      (c = .scResetState src sid ∧ allowed = [.armed, .running, .paused]) ∨
      (c = .scRecheck src sid ∧ allowed = [.armed, .running, .paused, .draining])) ∧ (s.stream sid.val).pending = none ∧ (s.stream sid.val).state ∉ allowed) ∧
    (∃ (s : State) (src : Source) (q : Fin 8192) (c : Instr) (allowed : List CtxState), s.MayWrite src (Reg.SQ_CMD q.val) ∧ ((c = .sqArm src q ∧ allowed = [.idle]) ∨ (c = .sqStart src q ∧ allowed = [.armed]) ∨
      (c = .sqPause src q ∧ allowed = [.armed, .running]) ∨ (c = .sqResume src q ∧ allowed = [.paused]) ∨
      (c = .sqDrain src q ∧ allowed = [.armed, .running, .paused]) ∨
      (c = .sqAbort src q ∧ allowed = [.armed, .running, .paused, .draining]) ∨
      (c = .sqRecheck src q ∧ allowed = [.armed, .running, .paused, .draining])) ∧ (s.seqCtx q.val).pending ≠ none) ∧
    (∃ (s : State) (src : Source) (q : Fin 8192) (c : Instr) (allowed : List CtxState), s.MayWrite src (Reg.SQ_CMD q.val) ∧ ((c = .sqArm src q ∧ allowed = [.idle]) ∨ (c = .sqStart src q ∧ allowed = [.armed]) ∨
      (c = .sqPause src q ∧ allowed = [.armed, .running]) ∨ (c = .sqResume src q ∧ allowed = [.paused]) ∨
      (c = .sqDrain src q ∧ allowed = [.armed, .running, .paused]) ∨
      (c = .sqAbort src q ∧ allowed = [.armed, .running, .paused, .draining]) ∨
      (c = .sqRecheck src q ∧ allowed = [.armed, .running, .paused, .draining])) ∧ (s.seqCtx q.val).pending = none ∧ (s.seqCtx q.val).state ∉ allowed) := by
  refine ⟨⟨idle.setStream 16383 { Stream.idle with pending := some .pause }, cp, 16383, .scRecheck cp 16383, [.armed, .running, .paused, .draining], ?_⟩,
    ⟨idle.setStream 0 { Stream.idle with state := .draining }, cp, 0, .scDrain cp 0, [.armed, .running, .paused], ?_⟩,
    ⟨idle.setSeq 8191 { SeqCtx.idle with pending := some .abort }, cp, 8191, .sqAbort cp 8191, [.armed, .running, .paused, .draining], ?_⟩,
    ⟨idle.setSeq 0 { SeqCtx.idle with state := .armed }, cp, 0, .sqArm cp 0, [.idle], ?_⟩⟩ <;> decide +kernel

theorem witness_ChainsCancelsAndCopies_1 :
    ∃ (s : State) (i : Nat) (x : Inst), s.inst? i = some x ∧ s.sheafEnded i x = false :=
  ⟨holding (inst_ false .resident), 1, inst_ false .resident, by decide +kernel⟩

theorem witness_ChainsCancelsAndCopies_2 :
    ∃ (s : State) (i : Nat) (x : Inst), s.inst? i = some x ∧ s.sheafEnded i x = true ∧ x.chaffMode = true :=
  ⟨holding { ended_ with chaffMode := true, output := none }, 1, { ended_ with chaffMode := true, output := none }, by decide +kernel⟩

theorem witness_ChainsCancelsAndCopies_3 :
    ∃ (s : State) (i : Nat) (x : Inst), s.inst? i = some x ∧ s.sheafEnded i x = true ∧ x.chaffMode = false :=
  ⟨holding ended_, 1, ended_, by decide +kernel⟩

theorem witness_ChainsCancelsAndCopies_4 :
    ∃ (s : State) (i : Nat) (x : Inst) (kind : GleanKind), s.inst? i = some x ∧ x.gleaning = some kind ∧ (s.sharesOf i = true ∨ (s.anyRequest fun r => r.ofInst i) = true ∨ x.state = .saving ∨ x.state = .restoring) :=
  ⟨holding { glean_ .cancel with state := .saving }, 1, { glean_ .cancel with state := .saving }, .cancel, by decide +kernel⟩

theorem witness_ChainsCancelsAndCopies_5 :
    ∃ (s : State) (i : Nat) (x : Inst) (kind : GleanKind), s.inst? i = some x ∧ x.gleaning = some kind ∧ s.sharesOf i = false ∧ (s.anyRequest fun r => r.ofInst i) = false ∧ x.state ≠ .saving ∧ x.state ≠ .restoring ∧ kind = .abort :=
  ⟨holding (glean_ .abort), 1, glean_ .abort, .abort, by decide +kernel⟩

theorem witness_ChainsCancelsAndCopies_6 :
    ∃ (s : State) (i : Nat) (x : Inst) (kind : GleanKind), s.inst? i = some x ∧ x.gleaning = some kind ∧ s.sharesOf i = false ∧ (s.anyRequest fun r => r.ofInst i) = false ∧ x.state ≠ .saving ∧ x.state ≠ .restoring ∧ kind ≠ .abort :=
  ⟨holding (glean_ .cancel), 1, glean_ .cancel, .cancel, by decide +kernel⟩

theorem witness_ChainsCancelsAndCopies_7 :
    ∃ (s : State) (q : Fin 4096), s.triggerOf q.val = none :=
  ⟨bayed, 4095, by decide +kernel⟩

theorem witness_ChainsCancelsAndCopies_8 :
    ∃ (s : State) (q : Fin 4096), ∃ b d s1 e, s.triggerOf q.val = some (b, d) ∧ (d.be && ((s.bay b).lullWanted || (s.bay b).lulled)) = false ∧ s.readyRoom b d.be = true ∧ s.popQueue q.val = (s1, some e) :=
  ⟨filled 0 bayed, 0, 0, _, _, _, rfl, by decide +kernel, by decide +kernel, rfl⟩

theorem witness_ChainsCancelsAndCopies_9 :
    ∃ (s : State) (q : Fin 4096), ∃ b d, s.queueDef q.val = some (b, d) ∧ (s.queue q.val).entries = [] :=
  ⟨bayed, 3, 0, _, rfl, by decide +kernel⟩

theorem witness_ChainsCancelsAndCopies_10 :
    ∃ (s : State) (q : Fin 4096), ∃ b d e rest, ∃ z, s.queueDef q.val = some (b, d) ∧ (s.queue q.val).entries = e :: rest ∧ d.consumer = 1 ∧ s.serviceHeld q.val = false ∧ AMap.get? s.engines.services q.val = some z :=
  ⟨serving (filled 1 bayed), 1, 0, _, qe, [], service_, rfl, by decide +kernel, by decide +kernel, by decide +kernel, by decide +kernel⟩

theorem witness_ChainsCancelsAndCopies_11 :
    ∃ (s : State) (q : Fin 4096), ∃ b d e rest, ∃ s1, ∃ f, s.queueDef q.val = some (b, d) ∧ (s.queue q.val).entries = e :: rest ∧ d.consumer = 1 ∧ s.serviceHeld q.val = false ∧ AMap.get? s.engines.services q.val = none ∧ s.serviceStart b e.handle = (s1, .error f) :=
  ⟨filled 1 (pool6 (away6 bayed)), 1, 0, _, qe, [], _, _, rfl, by decide +kernel, by decide +kernel, by decide +kernel, by decide +kernel, pair_err pool_away⟩

theorem witness_ChainsCancelsAndCopies_12 :
    ∃ (s : State) (q : Fin 4096), ∃ b d e rest, ∃ s1, ∃ z s2 z2 s3 l, let va := s2.bufferVa b e.handle.pool e.handle.buffer
      s.queueDef q.val = some (b, d) ∧ (s.queue q.val).entries = e :: rest ∧ d.consumer = 1 ∧ s.serviceHeld q.val = false ∧ AMap.get? s.engines.services q.val = none ∧ s.serviceStart b e.handle = (s1, .ok z) ∧ s1.serviceRun b (!e.ctx.be) (s1.poolSize b e.handle.pool) z serviceFuel = (s2, z2, none) ∧ s2.translateRun b true (bseEngine (s2.loftDie b va 0)) (pageRuns va (s2.poolSize b e.handle.pool)) = (s3, .ok l) :=
  ⟨filled 1 (pool6 bayed), 1, 0, _, qe, [], start_.1, begun_, served_.1, served_.2.1, _, _, rfl, by decide +kernel, by decide +kernel, by decide +kernel, by decide +kernel, pair_ok (Option.some_get _).symm, Prod.ext rfl (Prod.ext rfl served_none), pair_ok (Option.some_get served_ok).symm⟩

theorem witness_ChainsCancelsAndCopies_13 :
    ∃ (s : State) (src : Source) (bay : Fin 16), s.MayCommand src (Reg.SW_CANCEL_CMD bay.val) ∧ (s.bay bay.val).cancelBusy ≠ none :=
  ⟨cancelOpen 15 (bayed.setBay 15 { Bay.empty with cancelBusy := some 4 }), cp, 15, by decide +kernel⟩

theorem witness_ChainsCancelsAndCopies_14 :
    ∃ (s : State) (src : Source) (bay : Fin 16), let u := s.Commanded src (Reg.SW_CANCEL_CMD bay.val) 1
      ∃ seq, let found := s.insts.find? fun e => e.2.bay = bay.val && e.2.seq = seq && e.2.gleaning ≠ some .replay
      s.MayCommand src (Reg.SW_CANCEL_CMD bay.val) ∧ u.reg (Reg.SW_CANCEL_SEQ bay.val) = seq ∧ (s.bay bay.val).cancelBusy = none ∧ found = none :=
  ⟨cancelOpen 15 bayed, cp, 15, 0, by decide +kernel⟩

theorem witness_ChainsCancelsAndCopies_15 :
    ∃ (s : State) (src : Source) (bay : Fin 16), let u := s.Commanded src (Reg.SW_CANCEL_CMD bay.val) 1
      ∃ seq, let found := s.insts.find? fun e => e.2.bay = bay.val && e.2.seq = seq && e.2.gleaning ≠ some .replay
      ∃ i x, s.MayCommand src (Reg.SW_CANCEL_CMD bay.val) ∧ u.reg (Reg.SW_CANCEL_SEQ bay.val) = seq ∧ (s.bay bay.val).cancelBusy = none ∧ found = some (i, x) ∧ (x.chaffMode = true ∨ x.gleaning ≠ none) :=
  ⟨cancelOpen 0 (holding (glean_ .cancel)), cp, 0, 0, 1, glean_ .cancel, by decide +kernel⟩

theorem witness_ChainsCancelsAndCopies_16 :
    ∃ (s : State) (src : Source) (bay : Fin 16), let u := s.Commanded src (Reg.SW_CANCEL_CMD bay.val) 1
      ∃ seq, let found := s.insts.find? fun e => e.2.bay = bay.val && e.2.seq = seq && e.2.gleaning ≠ some .replay
      ∃ i x, s.MayCommand src (Reg.SW_CANCEL_CMD bay.val) ∧ u.reg (Reg.SW_CANCEL_SEQ bay.val) = seq ∧ (s.bay bay.val).cancelBusy = none ∧ found = some (i, x) ∧ x.chaffMode = false ∧ x.gleaning = none ∧ x.state = .ready :=
  ⟨cancelOpen 0 (holding (inst_ false .ready)), cp, 0, 0, 1, inst_ false .ready, by decide +kernel⟩

theorem witness_ChainsCancelsAndCopies_17 :
    ∃ (s : State) (src : Source) (bay : Fin 16), let u := s.Commanded src (Reg.SW_CANCEL_CMD bay.val) 1
      ∃ seq, let found := s.insts.find? fun e => e.2.bay = bay.val && e.2.seq = seq && e.2.gleaning ≠ some .replay
      ∃ i x, s.MayCommand src (Reg.SW_CANCEL_CMD bay.val) ∧ u.reg (Reg.SW_CANCEL_SEQ bay.val) = seq ∧ (s.bay bay.val).cancelBusy = none ∧ found = some (i, x) ∧ x.chaffMode = false ∧ x.gleaning = none ∧ x.state ≠ .ready :=
  ⟨cancelOpen 0 (holding (inst_ false .resident)), cp, 0, 0, 1, inst_ false .resident, by decide +kernel⟩

theorem witness_ChainsCancelsAndCopies_18 :
    ∃ (s : State) (src : Source) (bay : Fin 16) (ch : Fin 4), s.MayCommand src (Reg.CCH_CMD bay.val ch.val) :=
  ⟨copyOpen 0 bayed, cp, 0, 3, by decide +kernel⟩

theorem witness_ChainsCancelsAndCopies_19 :
    ∃ (s : State) (src : Source) (bay : Fin 16) (ch : Fin 4), s.MayCommand src (Reg.CCH_CMD bay.val ch.val) ∧ (s.channel bay.val ch.val).active = none :=
  ⟨copyOpen 15 bayed, cp, 15, 3, by decide +kernel⟩

theorem witness_ChainsCancelsAndCopies_20 :
    ∃ (s : State) (src : Source) (bay : Fin 16) (ch : Fin 4), ∃ d, s.MayCommand src (Reg.CCH_CMD bay.val ch.val) ∧ (s.channel bay.val ch.val).active = some d :=
  ⟨copyOpen 0 (chan (on_ (copies 8 0)) bayed), cp, 0, 3, copies 8 0, by decide +kernel⟩

theorem witness_ChainsCancelsAndCopies_21 :
    ∃ (s : State) (b c : Nat), let u := s.applyAll [Reg.CCH_SRC_LO b c, Reg.CCH_SRC_HI b c, Reg.CCH_DST_LO b c, Reg.CCH_DST_HI b c, Reg.CCH_LEN b c, Reg.CCH_CTRL b c]
      let d := u.copyDesc b c
      (s.channel b c).active = none ∧ d.len ≠ 0 :=
  ⟨bayed.setReg (Reg.CCH_LEN 0 3) 1, 0, 3, by decide +kernel⟩

theorem witness_ChainsCancelsAndCopies_22 :
    ∃ (s : State) (b c : Nat), (s.channel b c).active ≠ none ∧ (s.channel b c).pending = none :=
  ⟨chan (on_ (copies 8 0)) bayed, 0, 3, by decide +kernel⟩

theorem witness_ChainsCancelsAndCopies_23 :
    ∃ (s : State) (b c : Nat), (s.channel b c).active ≠ none ∧ (s.channel b c).pending ≠ none :=
  ⟨chan { on_ (copies 8 0) with pending := some (copies 8 0) } bayed, 0, 3, by decide +kernel⟩

theorem witness_ChainsCancelsAndCopies_24 :
    ∃ (s : State) (bay : Fin 16) (ch : Fin 4), (s.channel bay.val ch.val).active = none :=
  ⟨bayed, 15, 3, by decide +kernel⟩

theorem witness_ChainsCancelsAndCopies_25 :
    ∃ (s : State) (bay : Fin 16) (ch : Fin 4), ∃ d, (s.channel bay.val ch.val).active = some d ∧ (s.channel bay.val ch.val).blocked = true :=
  ⟨chan { on_ (copies 8 0) with blocked := true } bayed, 0, 3, copies 8 0, by decide +kernel⟩

theorem witness_ChainsCancelsAndCopies_26 :
    ∃ (s : State) (bay : Fin 16) (ch : Fin 4), ∃ d, (s.channel bay.val ch.val).active = some d ∧ (s.channel bay.val ch.val).blocked = false ∧ (s.channel bay.val ch.val).again = [] ∧ (s.channel bay.val ch.val).issued = true ∧ (s.anyRequest fun r => r.ofChannel bay.val ch.val) = false :=
  ⟨chan { on_ (copies 8 0) with issued := true } bayed, 0, 3, copies 8 0, by decide +kernel⟩

theorem witness_ChainsCancelsAndCopies_27 :
    ∃ (s : State) (bay : Fin 16) (ch : Fin 4), ∃ d, ∃ s1, (s.channel bay.val ch.val).active = some d ∧ (s.channel bay.val ch.val).blocked = false ∧ (s.channel bay.val ch.val).again = [] ∧ (s.channel bay.val ch.val).issued = false ∧ s.copyRun bay.val ch.val d (d.len * 64) (copyFuel d) = (s1, .issued) ∧ (s1.anyRequest fun r => r.ofChannel bay.val ch.val) = false :=
  ⟨runs_ 8 0x1000, 0, 3, copies 8 0x1000, _, by decide +kernel, by decide +kernel, by decide +kernel, by decide +kernel, Prod.ext rfl run_issued, by decide +kernel⟩

theorem witness_ChainsCancelsAndCopies_28 :
    ∃ (s : State) (bay : Fin 16) (ch : Fin 4), ∃ d, ∃ s1, (s.channel bay.val ch.val).active = some d ∧ (s.channel bay.val ch.val).blocked = false ∧ (s.channel bay.val ch.val).again = [] ∧ (s.channel bay.val ch.val).issued = false ∧ s.copyRun bay.val ch.val d (d.len * 64) (copyFuel d) = (s1, .issued) ∧ (s1.anyRequest fun r => r.ofChannel bay.val ch.val) = true :=
  ⟨asking (runs_ 8 0x1000), 0, 3, copies 8 0x1000, _, by decide +kernel, by decide +kernel, by decide +kernel, by decide +kernel, Prod.ext rfl run_asking, by decide +kernel⟩

theorem witness_ChainsCancelsAndCopies_29 :
    ∃ (s : State) (bay : Fin 16) (ch : Fin 4), ∃ d, ∃ s1, ∃ f write, (s.channel bay.val ch.val).active = some d ∧ (s.channel bay.val ch.val).blocked = false ∧ (s.channel bay.val ch.val).again = [] ∧ (s.channel bay.val ch.val).issued = false ∧ s.copyRun bay.val ch.val d (d.len * 64) (copyFuel d) = (s1, .fault f write) :=
  ⟨runs_ 8 0x3FF00000, 0, 3, copies 8 0x3FF00000, _, _, _, by decide +kernel, by decide +kernel, by decide +kernel, by decide +kernel, Prod.ext rfl run_fault⟩

theorem witness_QueueFlushNeedsLull :
    (∃ (s : State) (src : Source) (bay : Fin 16) (c : Nat) (d : QueueDef), let q := fld (s.reg (Reg.SW_Q_SEL bay.val)) 11 0
      s.MayCommand src (Reg.SW_Q_CMD bay.val q) ∧ s.queueDef q = some (c, d) ∧ (c ≠ bay.val ∨ (s.bay bay.val).lulled = false)) ∧
    (∃ (s : State) (src : Source) (bay : Fin 16) (c : Nat) (d : QueueDef), let q := fld (s.reg (Reg.SW_Q_SEL bay.val)) 11 0
      s.MayCommand src (Reg.SW_Q_CMD bay.val q) ∧ s.queueDef q = some (c, d) ∧ c = bay.val ∧ (s.bay bay.val).lulled = true) :=
  ⟨⟨open_ (blockOf (Reg.SW_Q_CMD 15 3)) (bayed.setReg (Reg.SW_Q_SEL 15) 3), cp, 15, 0, _, by decide +kernel, rfl, by decide +kernel⟩,
   ⟨(open_ (blockOf (Reg.SW_Q_CMD 0 3)) (bayed.setReg (Reg.SW_Q_SEL 0) 3)).setBay 0 { Bay.empty with lulled := true }, cp, 0, 0, _, by decide +kernel, rfl, by decide +kernel, by decide +kernel⟩⟩

end Sys2Proof.Tests
end

