-- ==== Sys2Proof/Tests/Witness07.lean ====
section
/-! SUPPORT. Witnesses: for each clause of a statement, a state and operands that meet its hypotheses together (Witness07). -/

namespace Sys2Proof.Tests
open Sys2Proof Sys2Proof.Machine
set_option maxRecDepth 100000
set_option linter.unusedVariables false
set_option Elab.async false

def ethOpen (s : State) : State := open_ .eth s
def port_ (f : Port → Port) (s : State) : State := { s with net := { s.net with port := f s.net.port } }
def link_ (l : LinkState) (s : State) : State := port_ (fun x => { x with link := l }) s
def set_ (k v : Nat) (s : State) : State := s.setReg k (w32 v)
/-- A frame to the device, which has the address 1.2.3.4; a Bale datagram and a RoCEv2 packet. -/
def frame_ (len : Nat) (b : FrameBody) : EthFrame := ⟨len, idle.ownMac, none, 0, false, none, b⟩
def nic_ : State := set_ Reg.EB_IP4 0x01020304 (link_ .up8 idle)
def udp_ (port : Nat) (check : Option Bool) : UdpHead := ⟨⟨[9, 9, 9, 9], 1000, [2, 0, 0, 0, 0, 9], 0, false⟩, [1, 2, 3, 4], BitVec.ofNat 16 port, check⟩
def bale_ (check : Option Bool) : FrameBody := .bale (udp_ 47520 check) ⟨1, 3, 0, 0, 0, 0, 0, 0, 64, 32, true, 0⟩
def roce_ (icrc : Bool) : FrameBody := .roce (udp_ 4791 none) 4095 1 icrc
/-- Peer 5 is bound to a host. -/
def peer5 (s : State) : State := set_ (peerWord 5 0) 1 s
def msg_ : TxMsg := ⟨0, .event false [], false, 0, false⟩
def tx_ (f : Peer → Peer) (s : State) : State := (peer5 s).setPeer 5 (f { Peer.fresh with unacked := [msg_], txSeq := 1 })
/-- Queue 4 takes buffers from Bale, of peer 5; pool 7 has one buffer. -/
def pieces : State :=
  set_ (Reg.SW_POOL_CFG 0 7) 0x00010001 (set_ (Reg.EB_QB 4) 0x08000005 (peer5
    { bayed with loader := { bayed.loader with
        applied := [(0, slot0.set 2 (section_ 3 (queueEntries ++ leBytes 2 4 ++ leBytes 2 2 ++ [2, 0, 0, 0])))] } }))
def part_ : Assembly := ⟨4, 0, 64, [(0, 32)], false, 1, none⟩
theorem some_get {σ α : Type} {p : σ × Option α} (h : p.2.isSome = true) : ∃ x, p = (p.1, some x) :=
  ⟨p.2.get h, Prod.ext rfl (Option.some_get h).symm⟩
def he : QueueEntry := ⟨⟨0, 0, 1, false, false, 0, 0⟩, ⟨0x1000, 0, 1, 1, 0, false, none⟩⟩
def sending : State :=
  (set_ (Reg.SW_POOL_CFG 0 0) 0x00010001 (set_ (Reg.EB_QB 2) 0x08000005 (peer5 bayed))).setQueue 2 ⟨[he], [], 0, 0⟩
theorem sending_ok : okOf ((sending.bindQueue 2).readRun 0 ((sending.bindQueue 2).bufferVa 0 he.handle.pool he.handle.buffer)
    (min (he.handle.length * 64) ((sending.bindQueue 2).poolSize 0 he.handle.pool)) baleReader).2 = some (List.replicate 64 0, false) := by decide +kernel
def eventful : State :=
  let s := link_ .up8 (set_ Reg.EB_EVENT_PEER 0x80000005 (peer5 idle))
  { s with events := { s.events with queue := [⟨0x00000010, 1, 0⟩] } }
def dx : List Byte := List.replicate 64 1
def filled_ (q : Nat) : State := bayed.setQueue q ⟨[he], [], 0, 0⟩

theorem witness_PortLanesRatesAndFrames_1 :
    ∃ (s : State) (lane : Fin 8), let x := s.net.port
      (x.link = .down ∨ x.link = .training) :=
  ⟨idle, 7, by decide +kernel⟩

theorem witness_PortLanesRatesAndFrames_2 :
    ∃ (s : State) (lane : Fin 8), let x := s.net.port
      let failed := x.failed ||| (1#8 <<< lane.val)
      let v := ((s.setPort { x with failed := failed }).countSat Reg.EB_DEGRADES 16 0 1).applyStaged Reg.EB_PORT_CTRL
      x.link = .up8 ∧ canDegrade failed v.portDegrade = true :=
  ⟨link_ .up8 (set_ Reg.EB_PORT_CTRL 4 idle), 7, by decide +kernel⟩

theorem witness_PortLanesRatesAndFrames_3 :
    ∃ (s : State) (lane : Fin 8), let x := s.net.port
      let failed := x.failed ||| (1#8 <<< lane.val)
      let v := ((s.setPort { x with failed := failed }).countSat Reg.EB_DEGRADES 16 0 1).applyStaged Reg.EB_PORT_CTRL
      x.link = .up8 ∧ canDegrade failed v.portDegrade = false :=
  ⟨link_ .up8 (set_ Reg.EB_PORT_CTRL 0 idle), 0, by decide +kernel⟩

theorem witness_PortLanesRatesAndFrames_4 :
    ∃ (s : State) (lane : Fin 8), let x := s.net.port
      x.link = .up4 ∧ decide (lane.val ≥ 4) ≠ x.group :=
  ⟨link_ .up4 idle, 7, by decide +kernel⟩

theorem witness_PortLanesRatesAndFrames_5 :
    ∃ (s : State) (lane : Fin 8), let x := s.net.port
      let failed := x.failed ||| (1#8 <<< lane.val)
      let u := (s.setPort { x with failed := failed }).applyStaged Reg.EB_PORT_CTRL
      x.link = .up4 ∧ decide (lane.val ≥ 4) = x.group ∧ canDegrade failed u.portDegrade = true :=
  ⟨link_ .up4 (set_ Reg.EB_PORT_CTRL 4 idle), 3, by decide +kernel⟩

theorem witness_PortLanesRatesAndFrames_6 :
    ∃ (s : State) (lane : Fin 8), let x := s.net.port
      let failed := x.failed ||| (1#8 <<< lane.val)
      let u := (s.setPort { x with failed := failed }).applyStaged Reg.EB_PORT_CTRL
      x.link = .up4 ∧ decide (lane.val ≥ 4) = x.group ∧ canDegrade failed u.portDegrade = false :=
  ⟨port_ (fun x => { x with failed := 0x10 }) (link_ .up4 idle), 3, by decide +kernel⟩

theorem witness_PortLanesRatesAndFrames_7 :
    ∃ (s : State) (width : LinkWidth) (copper : Bool) (failed : BitVec 8), let x := s.net.port
      x.link ≠ .training :=
  ⟨idle, .eight, true, 0, by decide +kernel⟩

theorem witness_PortLanesRatesAndFrames_8 :
    ∃ (s : State) (width : LinkWidth) (copper : Bool) (failed : BitVec 8), let x := s.net.port
      x.link = .training ∧ trainEnds x.train s.portDegrade s.portAn width = true :=
  ⟨link_ .training idle, .eight, true, 1, by decide +kernel⟩

theorem witness_PortLanesRatesAndFrames_9 :
    ∃ (s : State) (width : LinkWidth) (copper : Bool) (failed : BitVec 8), let x := s.net.port
      x.link = .training :=
  ⟨link_ .training idle, .lanes03, false, 255, by decide +kernel⟩

theorem witness_PortLanesRatesAndFrames_10 :
    ∃ (s : State), s.net.port.link = .down :=
  ⟨idle, by decide +kernel⟩

theorem witness_PortLanesRatesAndFrames_11 :
    ∃ (s : State), s.net.port.link ≠ .down :=
  ⟨link_ .up4 idle, by decide +kernel⟩

theorem witness_PortLanesRatesAndFrames_12 :
    ∃ (s : State), (s.linkUp = true ∨ s.portAn = true) :=
  ⟨link_ .up4 idle, by decide +kernel⟩

theorem witness_PortLanesRatesAndFrames_13 :
    ∃ (s : State), s.linkUp = false ∧ s.portAn = false :=
  ⟨set_ Reg.EB_PORT_CTRL 0 idle, by decide +kernel⟩

theorem witness_PortLanesRatesAndFrames_14 :
    ∃ (s : State) (src : Source), s.MayCommand src Reg.EB_CMD :=
  ⟨ethOpen idle, cp, by decide +kernel⟩

theorem witness_PortLanesRatesAndFrames_15 :
    ∃ (s : State) (src : Source), s.MayCommand src Reg.EB_CMD ∧ s.net.port.link = .up4 :=
  ⟨ethOpen (link_ .up4 idle), cp, by decide +kernel⟩

theorem witness_PortLanesRatesAndFrames_16 :
    ∃ (s : State) (src : Source), s.MayCommand src Reg.EB_CMD ∧ s.net.port.link ≠ .up4 :=
  ⟨ethOpen idle, cp, by decide +kernel⟩

theorem witness_PortLanesRatesAndFrames_17 :
    ∃ (s : State) (p : Fin 16384) (c : Fin 4096), s.recent (s.peer p.val).cutAt = true :=
  ⟨idle.setPeer 16383 { Peer.fresh with cutAt := some 0 }, 16383, 4095, by decide +kernel⟩

theorem witness_PortLanesRatesAndFrames_18 :
    ∃ (s : State) (p : Fin 16384) (c : Fin 4096), s.recent (s.peer p.val).cutAt = false :=
  ⟨idle, 0, 0, by decide +kernel⟩

theorem witness_PortLanesRatesAndFrames_19 :
    ∃ (s : State) (priority : Fin 8) (quanta : BitVec 16), let u := s.countWrap Reg.EB_PFC_PAUSE_RX 1
      bit (u.reg Reg.EB_PFC) priority.val = false :=
  ⟨idle, 7, 0xFFFF, by decide +kernel⟩

theorem witness_PortLanesRatesAndFrames_20 :
    ∃ (s : State) (priority : Fin 8) (quanta : BitVec 16), let u := s.countWrap Reg.EB_PFC_PAUSE_RX 1
      bit (u.reg Reg.EB_PFC) priority.val = true ∧ quanta = 0 :=
  ⟨set_ Reg.EB_PFC 0x80 idle, 7, 0, by decide +kernel⟩

theorem witness_PortLanesRatesAndFrames_21 :
    ∃ (s : State) (priority : Fin 8) (quanta : BitVec 16), let u := s.countWrap Reg.EB_PFC_PAUSE_RX 1
      bit (u.reg Reg.EB_PFC) priority.val = true ∧ quanta ≠ 0 :=
  ⟨set_ Reg.EB_PFC 1 idle, 0, 1, by decide +kernel⟩

theorem witness_PortLanesRatesAndFrames_22 :
    ∃ (s : State) (priority : Fin 8) (percent : Nat), bit (s.reg Reg.EB_PFC) priority.val = false :=
  ⟨idle, 7, 100, by decide +kernel⟩

theorem witness_PortLanesRatesAndFrames_23 :
    ∃ (s : State) (priority : Fin 8) (percent : Nat), bit (s.reg Reg.EB_PFC) priority.val = true ∧ 75 ≤ percent :=
  ⟨set_ Reg.EB_PFC 0x80 idle, 7, 75, by decide +kernel⟩

theorem witness_PortLanesRatesAndFrames_24 :
    ∃ (s : State) (priority : Fin 8) (percent : Nat), let x := s.net.port
      bit (s.reg Reg.EB_PFC) priority.val = true ∧ bit x.pausing priority.val = true ∧ percent < 50 :=
  ⟨port_ (fun x => { x with pausing := 0x80 }) (set_ Reg.EB_PFC 0x80 idle), 7, 49, by decide +kernel⟩

theorem witness_PortLanesRatesAndFrames_25 :
    ∃ (s : State) (f : EthFrame), s.linkUp = false :=
  ⟨idle, frame_ 64 .other, by decide +kernel⟩

theorem witness_PortLanesRatesAndFrames_26 :
    ∃ (s : State) (f : EthFrame), s.linkUp = true ∧ (f.length < 64 ∨ 9216 < f.length) :=
  ⟨link_ .up8 idle, frame_ 9217 .other, by decide +kernel⟩

theorem witness_PortLanesRatesAndFrames_27 :
    ∃ (s : State) (f : EthFrame), let u := (s.applyAll frameFields).count64 Reg.EB_RX_FRAMES_LO Reg.EB_RX_FRAMES_HI 1
      s.linkUp = true ∧ 64 ≤ f.length ∧ f.length ≤ 9216 ∧ u.frameOk f = false :=
  ⟨link_ .up8 idle, frame_ 64 .other, by decide +kernel⟩

theorem witness_PortLanesRatesAndFrames_28 :
    ∃ (s : State) (f : EthFrame), let u := (s.applyAll frameFields).count64 Reg.EB_RX_FRAMES_LO Reg.EB_RX_FRAMES_HI 1
      s.linkUp = true ∧ 64 ≤ f.length ∧ f.length ≤ 9216 ∧ u.frameOk f = true ∧ u.macsecTake f = .dropped :=
  ⟨set_ Reg.EB_MACSEC_CTRL 3 nic_, frame_ 9216 (bale_ none), by decide +kernel, by decide +kernel, by decide +kernel, by decide +kernel, rfl⟩

theorem witness_PortLanesRatesAndFrames_29 :
    ∃ (s : State) (f : EthFrame), let u := (s.applyAll frameFields).count64 Reg.EB_RX_FRAMES_LO Reg.EB_RX_FRAMES_HI 1
      s.linkUp = true ∧ 64 ≤ f.length ∧ f.length ≤ 9216 ∧ u.frameOk f = true ∧ u.macsecTake f = .refused :=
  ⟨nic_, { frame_ 64 (bale_ none) with macsec := some (0, 0, true) }, by decide +kernel, by decide +kernel, by decide +kernel, by decide +kernel, rfl⟩

theorem witness_PortLanesRatesAndFrames_30 :
    ∃ (s : State) (f : EthFrame), let u := (s.applyAll frameFields).count64 Reg.EB_RX_FRAMES_LO Reg.EB_RX_FRAMES_HI 1
      ∃ v, s.linkUp = true ∧ 64 ≤ f.length ∧ f.length ≤ 9216 ∧ u.frameOk f = true ∧ u.macsecTake f = .pass v ∧ f.body = .macControl :=
  ⟨nic_, frame_ 64 .macControl, _, by decide +kernel, by decide +kernel, by decide +kernel, by decide +kernel, rfl, rfl⟩

theorem witness_PortLanesRatesAndFrames_31 :
    ∃ (s : State) (f : EthFrame), let u := (s.applyAll frameFields).count64 Reg.EB_RX_FRAMES_LO Reg.EB_RX_FRAMES_HI 1
      let pr := framePriority f
      let full := bit (u.reg Reg.EB_PFC) pr = false ∧ 1048576 < AMap.getD s.net.port.rxLevel pr 0 + f.length
      ∃ v, s.linkUp = true ∧ 64 ≤ f.length ∧ f.length ≤ 9216 ∧ u.frameOk f = true ∧ u.macsecTake f = .pass v ∧ f.body ≠ .macControl ∧ full :=
  ⟨set_ Reg.EB_PFC 0 (port_ (fun x => { x with rxLevel := (List.range 8).map fun k => (k, 1048576) }) nic_), frame_ 64 (bale_ none), _, by decide +kernel, by decide +kernel, by decide +kernel, by decide +kernel, rfl, by decide +kernel, by decide +kernel⟩

theorem witness_PortLanesRatesAndFrames_32 :
    ∃ (s : State) (f : EthFrame), let u := (s.applyAll frameFields).count64 Reg.EB_RX_FRAMES_LO Reg.EB_RX_FRAMES_HI 1
      let pr := framePriority f
      let full := bit (u.reg Reg.EB_PFC) pr = false ∧ 1048576 < AMap.getD s.net.port.rxLevel pr 0 + f.length
      ∃ v, ∃ h d, s.linkUp = true ∧ 64 ≤ f.length ∧ f.length ≤ 9216 ∧ u.frameOk f = true ∧ u.macsecTake f = .pass v ∧ f.body = .bale h d ∧ ¬full ∧ h.checksum = some false :=
  ⟨nic_, frame_ 64 (bale_ (some false)), _, _, _, by decide +kernel, by decide +kernel, by decide +kernel, by decide +kernel, rfl, rfl, by decide +kernel, by decide +kernel⟩

theorem witness_PortLanesRatesAndFrames_33 :
    ∃ (s : State) (f : EthFrame), let u := (s.applyAll frameFields).count64 Reg.EB_RX_FRAMES_LO Reg.EB_RX_FRAMES_HI 1
      let pr := framePriority f
      let full := bit (u.reg Reg.EB_PFC) pr = false ∧ 1048576 < AMap.getD s.net.port.rxLevel pr 0 + f.length
      ∃ v, ∃ h d, s.linkUp = true ∧ 64 ≤ f.length ∧ f.length ≤ 9216 ∧ u.frameOk f = true ∧ u.macsecTake f = .pass v ∧ f.body = .bale h d ∧ ¬full ∧ h.checksum ≠ some false :=
  ⟨nic_, frame_ 64 (bale_ none), _, _, _, by decide +kernel, by decide +kernel, by decide +kernel, by decide +kernel, rfl, rfl, by decide +kernel, by decide +kernel⟩

theorem witness_PortLanesRatesAndFrames_34 :
    ∃ (s : State) (f : EthFrame), let u := (s.applyAll frameFields).count64 Reg.EB_RX_FRAMES_LO Reg.EB_RX_FRAMES_HI 1
      let pr := framePriority f
      let full := bit (u.reg Reg.EB_PFC) pr = false ∧ 1048576 < AMap.getD s.net.port.rxLevel pr 0 + f.length
      ∃ v, ∃ h c opcode, s.linkUp = true ∧ 64 ≤ f.length ∧ f.length ≤ 9216 ∧ u.frameOk f = true ∧ u.macsecTake f = .pass v ∧ ¬full ∧ f.body = .roce h c opcode false :=
  ⟨nic_, frame_ 64 (roce_ false), _, _, _, _, by decide +kernel, by decide +kernel, by decide +kernel, by decide +kernel, rfl, by decide +kernel, rfl⟩

theorem witness_PortLanesRatesAndFrames_35 :
    ∃ (s : State) (f : EthFrame), let u := (s.applyAll frameFields).count64 Reg.EB_RX_FRAMES_LO Reg.EB_RX_FRAMES_HI 1
      let pr := framePriority f
      let full := bit (u.reg Reg.EB_PFC) pr = false ∧ 1048576 < AMap.getD s.net.port.rxLevel pr 0 + f.length
      ∃ v, ∃ h c opcode, s.linkUp = true ∧ 64 ≤ f.length ∧ f.length ≤ 9216 ∧ u.frameOk f = true ∧ u.macsecTake f = .pass v ∧ ¬full ∧ f.body = .roce h c opcode true :=
  ⟨nic_, frame_ 64 (roce_ true), _, _, _, _, by decide +kernel, by decide +kernel, by decide +kernel, by decide +kernel, rfl, by decide +kernel, rfl⟩

theorem witness_BaleMessagesPiecesAndEvents_1 :
    ∃ (s : State) (peer : Fin 16384) (cum sack : Word), (s.peerKind peer.val = 0 ∨ seqLe cum (s.peer peer.val).txSeq = false) :=
  ⟨idle, 16383, 0, 0, by decide +kernel⟩

theorem witness_BaleMessagesPiecesAndEvents_2 :
    ∃ (s : State) (peer : Fin 16384) (cum sack : Word), let x := s.peer peer.val
      let gone := x.unacked.filter fun m => seqLt m.seq cum
      s.peerKind peer.val ≠ 0 ∧ seqLe cum (s.peer peer.val).txSeq = true ∧ gone = [] :=
  ⟨tx_ (fun x => { x with unacked := [] }) idle, 5, 1, 0, by decide +kernel⟩

theorem witness_BaleMessagesPiecesAndEvents_3 :
    ∃ (s : State) (peer : Fin 16384) (cum sack : Word), let x := s.peer peer.val
      let gone := x.unacked.filter fun m => seqLt m.seq cum
      s.peerKind peer.val ≠ 0 ∧ seqLe cum (s.peer peer.val).txSeq = true ∧ gone ≠ [] :=
  ⟨tx_ id idle, 5, 1, 0, by decide +kernel⟩

theorem witness_BaleMessagesPiecesAndEvents_4 :
    ∃ (s : State) (peer : Fin 16384) (cum sack : Word), (s.peer peer.val).unackedEffects = 0 :=
  ⟨idle, 0, 0, 0, by decide +kernel⟩

theorem witness_BaleMessagesPiecesAndEvents_5 :
    ∃ (s : State) (peer : Fin 16384) (cum sack : Word), 0 < (s.peer peer.val).unackedEffects :=
  ⟨idle.setPeer 0 { Peer.fresh with unackedEffects := 1 }, 0, 0, 0, by decide +kernel⟩

theorem witness_BaleMessagesPiecesAndEvents_6 :
    ∃ (s : State) (peer : Fin 16384) (seq : Word) (m : TxMsg), let x := s.peer peer.val
      ((s.peer peer.val).unacked.find? fun m => m.seq = seq && !m.sacked) = some m ∧ (s.linkUp = false ∨ x.down = true ∨ x.awaitSession = true ∨ s.frameWaits peer.val seq = true) :=
  ⟨tx_ id idle, 5, 0, msg_, by decide +kernel⟩

theorem witness_BaleMessagesPiecesAndEvents_7 :
    ∃ (s : State) (peer : Fin 16384) (seq : Word) (m : TxMsg), let x := s.peer peer.val
      ((s.peer peer.val).unacked.find? fun m => m.seq = seq && !m.sacked) = some m ∧ s.linkUp = true ∧ x.down = false ∧ x.awaitSession = false ∧ s.frameWaits peer.val seq = false ∧ fld (s.reg Reg.EB_RTO) 19 16 ≤ m.retries :=
  ⟨link_ .up8 (tx_ id (set_ Reg.EB_RTO 0 idle)), 5, 0, msg_, by decide +kernel⟩

theorem witness_BaleMessagesPiecesAndEvents_8 :
    ∃ (s : State) (peer : Fin 16384) (seq : Word) (m : TxMsg), let x := s.peer peer.val
      ((s.peer peer.val).unacked.find? fun m => m.seq = seq && !m.sacked) = some m ∧ s.linkUp = true ∧ x.down = false ∧ x.awaitSession = false ∧ s.frameWaits peer.val seq = false ∧ m.retries < fld (s.reg Reg.EB_RTO) 19 16 :=
  ⟨link_ .up8 (tx_ id (set_ Reg.EB_RTO 0x000F0000 idle)), 5, 0, msg_, by decide +kernel⟩

theorem witness_BaleMessagesPiecesAndEvents_9 :
    ∃ (s : State) (peer : Fin 16384) (m : TxMsg) (rest : List TxMsg), let x := s.peer peer.val
      (s.peer peer.val).unacked = m :: rest ∧ x.down = true ∧ s.linkUp = true ∧ x.awaitSession = false ∧ s.frameWaits peer.val m.seq = false :=
  ⟨link_ .up8 (tx_ (fun x => { x with down := true }) idle), 5, msg_, [], by decide +kernel⟩

theorem witness_BaleMessagesPiecesAndEvents_10 :
    ∃ (s : State) (peer : Fin 16384) (m : TxMsg) (rest : List TxMsg), let x := s.peer peer.val
      (s.peer peer.val).unacked = m :: rest ∧ (x.down = false ∨ s.linkUp = false ∨ x.awaitSession = true ∨ s.frameWaits peer.val m.seq = true) :=
  ⟨tx_ id idle, 5, msg_, [], by decide +kernel⟩

theorem witness_BaleMessagesPiecesAndEvents_11 :
    ∃ (s : State) (src : Source) (peer : Fin 16384) (value : Word), s.MayCommand src Reg.EB_CMD :=
  ⟨ethOpen idle, cp, 16383, 0, by decide +kernel⟩

theorem witness_BaleMessagesPiecesAndEvents_12 :
    ∃ (s : State) (src : Source) (peer : Fin 16384) (value : Word), s.MayWrite src (peerWord peer.val 0) ∧ 2 < fld value 7 0 :=
  ⟨idle, cp, 16383, 3, by decide +kernel⟩

theorem witness_BaleMessagesPiecesAndEvents_13 :
    ∃ (s : State) (src : Source) (peer : Fin 16384) (value : Word), s.MayWrite src (peerWord peer.val 0) ∧ fld value 7 0 ≤ 2 :=
  ⟨idle, cp, 0, 2, by decide +kernel⟩

theorem witness_BaleMessagesPiecesAndEvents_14 :
    ∃ (s : State) (peer : Fin 16384) (queue : Fin 4096) (chaff : Bool) (offset length : Nat) (tag : BitVec 14) (data : List Byte), s.peerKind peer.val = 0 :=
  ⟨idle, 0, 4095, false, 0, 64, 0, dx, by decide +kernel⟩

theorem witness_BaleMessagesPiecesAndEvents_15 :
    ∃ (s : State) (peer : Fin 16384) (queue : Fin 4096) (chaff : Bool) (offset length : Nat) (tag : BitVec 14) (data : List Byte), let u := ((s.bindQueue queue.val).takeMsg peer.val 3).1
      s.peerKind peer.val ≠ 0 ∧ u.pieceQueue peer.val queue.val = none :=
  ⟨peer5 bayed, 5, 4095, false, 0, 64, 0, dx, by decide +kernel⟩

theorem witness_BaleMessagesPiecesAndEvents_16 :
    ∃ (s : State) (peer : Fin 16384) (queue : Fin 4096) (chaff : Bool) (offset length : Nat) (tag : BitVec 14) (data : List Byte), let u := ((s.bindQueue queue.val).takeMsg peer.val 3).1
      ∃ b a, s.peerKind peer.val ≠ 0 ∧ u.pieceQueue peer.val queue.val = some b ∧ (u.peer peer.val).assemblies.find? (pieceOf queue.val length tag.toNat offset) = some a :=
  ⟨pieces.setPeer 5 { Peer.fresh with assemblies := [part_] }, 5, 4, true, 32, 64, 1, List.replicate 32 1, 0, part_, by decide +kernel⟩

theorem witness_BaleMessagesPiecesAndEvents_17 :
    ∃ (s : State) (peer : Fin 16384) (queue : Fin 4096) (chaff : Bool) (offset length : Nat) (tag : BitVec 14) (data : List Byte), let u := ((s.bindQueue queue.val).takeMsg peer.val 3).1
      ∃ b s1, s.peerKind peer.val ≠ 0 ∧ u.pieceQueue peer.val queue.val = some b ∧ (u.peer peer.val).assemblies.find? (pieceOf queue.val length tag.toNat offset) = none ∧ u.startAssembly peer.val queue.val length tag.toNat = (s1, none) :=
  ⟨set_ (Reg.SW_POOL_CFG 0 7) 0 pieces, 5, 4, false, 0, 64, 1, dx, 0, _, by decide +kernel, by decide +kernel, by decide +kernel, Prod.ext rfl (by decide +kernel)⟩

theorem witness_BaleMessagesPiecesAndEvents_18 :
    ∃ (s : State) (peer : Fin 16384) (queue : Fin 4096) (chaff : Bool) (offset length : Nat) (tag : BitVec 14) (data : List Byte), let u := ((s.bindQueue queue.val).takeMsg peer.val 3).1
      ∃ b s1, ∃ a, s.peerKind peer.val ≠ 0 ∧ u.pieceQueue peer.val queue.val = some b ∧ (u.peer peer.val).assemblies.find? (pieceOf queue.val length tag.toNat offset) = none ∧ u.startAssembly peer.val queue.val length tag.toNat = (s1, some a) :=
  (some_get (p := ((pieces.bindQueue 4).takeMsg 5 3).1.startAssembly 5 4 64 1) (by decide +kernel)).elim fun a ha => ⟨pieces, 5, 4, false, 0, 64, 1, dx, 0, _, a, by decide +kernel, by decide +kernel, by decide +kernel, ha⟩

theorem witness_BaleMessagesPiecesAndEvents_19 :
    ∃ (s : State) (queue : Fin 4096) (b : Nat) (d : QueueDef) (e : QueueEntry) (rest : List QueueEntry), let u := s.bindQueue queue.val
      u.queueDef queue.val = some (b, d) ∧ (u.queue queue.val).entries = e :: rest ∧ (d.consumer ≠ 2 ∨ u.boundValid queue.val = false) :=
  ⟨filled_ 3, 3, 0, _, he, [], rfl, by decide +kernel, by decide +kernel⟩

theorem witness_BaleMessagesPiecesAndEvents_20 :
    ∃ (s : State) (queue : Fin 4096) (b : Nat) (d : QueueDef) (e : QueueEntry) (rest : List QueueEntry), let u := s.bindQueue queue.val
      ∃ s1 bytes marked, u.queueDef queue.val = some (b, d) ∧ (u.queue queue.val).entries = e :: rest ∧ d.consumer = 2 ∧ u.boundValid queue.val = true ∧ u.serviceHeld queue.val = false ∧ u.boundRoce queue.val = false ∧ u.readRun b (u.bufferVa b e.handle.pool e.handle.buffer) (min (e.handle.length * 64) (u.poolSize b e.handle.pool)) baleReader =
      (s1, .ok (bytes, marked)) ∧ bytes ≠ [] :=
  ⟨sending, 2, 0, _, he, [], _, _, _, rfl, by decide +kernel, by decide +kernel, by decide +kernel, by decide +kernel, by decide +kernel, pair_ok sending_ok, by decide +kernel⟩

theorem witness_BaleMessagesPiecesAndEvents_21 :
    ∃ (s : State), let u := s.applyAll [Reg.EB_EVENT_PEER, Reg.EB_BALE_MAX]
      let p := fld (u.reg Reg.EB_EVENT_PEER) 13 0
      (bit (u.reg Reg.EB_EVENT_PEER) 31 = false ∨ s.events.queue = [] ∨ u.canSend p = false) :=
  ⟨idle, by decide +kernel⟩

theorem witness_BaleMessagesPiecesAndEvents_22 :
    ∃ (s : State), let u := s.applyAll [Reg.EB_EVENT_PEER, Reg.EB_BALE_MAX]
      let p := fld (u.reg Reg.EB_EVENT_PEER) 13 0
      bit (u.reg Reg.EB_EVENT_PEER) 31 = true ∧ s.events.queue ≠ [] ∧ u.canSend p = true :=
  ⟨eventful, by decide +kernel⟩

end Sys2Proof.Tests
end

