-- ==== Sys2Proof/Tests/Witness08.lean ====
section
/-! SUPPORT. Witnesses: for each clause of a statement, a state and operands that meet its hypotheses together (Witness08). -/

namespace Sys2Proof.Tests
open Sys2Proof Sys2Proof.Machine
set_option maxRecDepth 100000
set_option linter.unusedVariables false
set_option Elab.async false

def rts_ (c : Nat) (f : Conn → Conn) (s : State) : State := s.setConn c (f { Conn.idle with state := .rts })
def key_ (k v : Nat) (s : State) : State := s.setReg k (w32 v)
def rq (c : Fin 4096) (psn va : Nat) : RoceRequest := ⟨c, psn, 7, BitVec.ofNat 64 va⟩
def rkey_ (c : Nat) (s : State) : State := key_ (Reg.EB_CONN_RKEY_IN c) 7 s
def up_ (s : State) : State := { s with net := { s.net with port := { s.net.port with link := .up8 } } }
def conn0 : State := rkey_ 0 (rts_ 0 id bayed)
theorem write_ok : ((conn0.writeRun (conn0.connBay 0) 0x1000 (List.replicate 64 1) false rdmaEngine).2) = none := by decide +kernel
theorem read_ok : okOf (conn0.readRun (conn0.connBay 0) 0x1000 2 rdmaEngine).2 = some ([0, 0], false) := by decide +kernel
/-- Queue 4 takes the SENDs of connection 0 of peer 5. -/
def sends (pool : Nat) : State :=
  key_ (Reg.SW_POOL_CFG 0 7) pool (key_ (Reg.EB_QB 4) 0x0C000005 (rts_ 0 id
    { bayed with loader := { bayed.loader with
        applied := [(0, slot0.set 2 (section_ 3 (queueEntries ++ leBytes 2 4 ++ leBytes 2 2 ++ [2, 0, 0, 0])))] } }))
theorem take_some {σ α : Type} {p : σ × Option α} (h : p.2.isSome = true) : ∃ x, p = (p.1, some x) :=
  ⟨p.2.get h, Prod.ext rfl (Option.some_get h).symm⟩
def req_ : ConnRequest := .read 1 .input 0 4 0 0
def offered : State := (sends 0x00010001).bindQueue 4
def buffered : State := offered.draw.2.setPool 0 7 ⟨[0], []⟩
theorem take_zero : offered.takeBuffer 0 7 = (buffered, some 0) := by
  have e : offered.poolCount 0 7 = 1 := by decide +kernel
  have p : offered.draw.2.pool 0 7 = ⟨[], []⟩ := by decide +kernel
  unfold State.takeBuffer
  simp only [e, p, searchFrom, Nat.mod_one]
  rfl
theorem buffer_ok : (buffered.writeRun 0 (buffered.bufferVa 0 7 0) ((List.replicate 64 1).take (buffered.poolSize 0 7)) false baleWriter).2 = none := by decide +kernel
def sel_ (s : State) : State := open_ .eth (key_ Reg.EB_CONN_SEL 4095 s)
/-- An OPEN is accepted: a path MTU of 1,024, 1 request, to a bound peer. -/
theorem witness_connOpen_accepted :
    ∃ (s : State) (src : Source), let c := s.connSelected
      let u := fun v => s.Commanded src (Reg.EB_CONN_CMD c) v
      let v := (u 1).latest (Reg.EB_CONN_CTRL c)
      s.MayCommand src (Reg.EB_CONN_CMD c) ∧ (s.conn c).state = .idle ∧ fld v 21 20 ≠ 3 ∧ fld v 26 22 ≠ 0 ∧ (u 1).peerKind (fld v 13 0) ≠ 0 :=
  ⟨key_ (Reg.EB_CONN_CTRL 4095) 0x00400005 (key_ (peerWord 5 0) 1 (sel_ idle)), cp, by decide +kernel⟩
theorem qb_addr (q : Nat) : keyAddr (Reg.EB_QB q) = keyAddr (Reg.EB_QB 0) := by simp only [keyAddr, Reg.EB_QB, sel]; omega
theorem desc_of_addr {k j : Nat} (h : keyAddr k = keyAddr j) : descOf k = descOf j := by
  unfold descOf; rw [h]
theorem reset_of_addr {k j : Nat} (h : keyAddr k = keyAddr j) : resetOf k = resetOf j := by
  unfold resetOf; rw [desc_of_addr h]
theorem qb_zero0 : resetOf (Reg.EB_QB 0) = 0#32 := by decide +kernel
theorem qb_zero (q : Nat) : resetOf (Reg.EB_QB q) = 0#32 := (reset_of_addr (qb_addr q)).trans qb_zero0
theorem no_send (s : State) (c : Nat) (h : s.regs = []) : s.sendQueue c = none := by
  unfold State.sendQueue
  rw [List.findSome?_eq_none_iff]
  intro q _
  have : s.latest (Reg.EB_QB q) = 0#32 := by simp [State.latest, State.cell, h, AMap.getD, AMap.get?, qb_zero]
  simp [this, bit]

theorem witness_RoceRequestsAndConnections_1 :
    ∃ (s : State) (req : RoceRequest) (data : List Byte) (length : Nat), let c := req.conn.val
      s.mayServe c req.psn = false :=
  ⟨idle, rq 4095 0 0, List.replicate 64 1, 1, by decide +kernel⟩

theorem witness_RoceRequestsAndConnections_2 :
    ∃ (s : State) (req : RoceRequest) (data : List Byte) (length : Nat), let c := req.conn.val
      s.mayServe c req.psn = true ∧ req.rkey ≠ s.reg (Reg.EB_CONN_RKEY_IN c) :=
  ⟨rts_ 4095 id idle, rq 4095 0 0, List.replicate 64 1, 1, by decide +kernel⟩

theorem witness_RoceRequestsAndConnections_3 :
    ∃ (s : State) (req : RoceRequest) (data : List Byte) (length : Nat), let c := req.conn.val
      s.mayServe c req.psn = true ∧ req.rkey = s.reg (Reg.EB_CONN_RKEY_IN c) ∧ s.requestVa c req.va.toNat data.length = none :=
  ⟨key_ (Reg.EB_CONN_CTRL 0) 0x00080000 (rkey_ 0 (rts_ 0 id idle)), rq 0 0 0, List.replicate 64 1, 1, by decide +kernel⟩

theorem witness_RoceRequestsAndConnections_4 :
    ∃ (s : State) (req : RoceRequest) (data : List Byte) (length : Nat), let c := req.conn.val
      ∃ va s1, s.mayServe c req.psn = true ∧ req.rkey = s.reg (Reg.EB_CONN_RKEY_IN c) ∧ s.requestVa c req.va.toNat data.length = some va ∧ s.writeRun (s.connBay c) va data false rdmaEngine = (s1, none) :=
  ⟨conn0, rq 0 0 0x1000, List.replicate 64 1, 1, 0x1000, _, by decide +kernel, by decide +kernel, by decide +kernel, Prod.ext rfl write_ok⟩

theorem witness_RoceRequestsAndConnections_5 :
    ∃ (s : State) (req : RoceRequest) (data : List Byte) (length : Nat), let c := req.conn.val
      ∃ va s1 bs chaff, s.mayServe c req.psn = true ∧ req.rkey = s.reg (Reg.EB_CONN_RKEY_IN c) ∧ s.requestVa c req.va.toNat length = some va ∧ s.readRun (s.connBay c) va length rdmaEngine = (s1, .ok (bs, chaff)) :=
  ⟨conn0, rq 0 0 0x1000, List.replicate 64 1, 2, 0x1000, _, _, _, by decide +kernel, by decide +kernel, by decide +kernel, pair_ok read_ok⟩

theorem witness_RoceRequestsAndConnections_6 :
    ∃ (s : State) (conn : Fin 4096) (psn : Nat) (data : List Byte), s.mayServe conn.val psn = false :=
  ⟨idle, 4095, 0, List.replicate 64 1, by decide +kernel⟩

theorem witness_RoceRequestsAndConnections_7 :
    ∃ (s : State) (conn : Fin 4096) (psn : Nat) (data : List Byte), s.mayServe conn.val psn = true ∧ s.sendQueue conn.val = none :=
  ⟨rts_ 4095 id idle, 4095, 0, List.replicate 64 1, by decide +kernel, no_send _ _ rfl⟩

theorem witness_RoceRequestsAndConnections_8 :
    ∃ (s : State) (conn : Fin 4096) (psn : Nat) (data : List Byte), ∃ b q s1, let u := s.bindQueue q
      s.mayServe conn.val psn = true ∧ s.sendQueue conn.val = some (b, q) ∧ (u.peer (u.connPeer conn.val)).assemblies.length < 64 ∧ u.takeBuffer b 7 = (s1, none) :=
  ⟨sends 0, 0, 0, List.replicate 64 1, 0, 4, _, by decide +kernel, by decide +kernel, by decide +kernel, Prod.ext rfl (by decide +kernel)⟩

theorem witness_RoceRequestsAndConnections_9 :
    ∃ (s : State) (conn : Fin 4096) (psn : Nat) (data : List Byte), ∃ b q s1 s2 k, let u := s.bindQueue q
      s.mayServe conn.val psn = true ∧ s.sendQueue conn.val = some (b, q) ∧ (u.peer (u.connPeer conn.val)).assemblies.length < 64 ∧ u.takeBuffer b 7 = (s1, some k) ∧ s1.writeRun b (s1.bufferVa b 7 k) (data.take (s1.poolSize b 7)) false baleWriter = (s2, none) :=
  ⟨sends 0x00010001, 0, 0, List.replicate 64 1, 0, 4, _, _, 0, by decide +kernel, by decide +kernel, by decide +kernel, take_zero, Prod.ext rfl buffer_ok⟩

theorem witness_RoceRequestsAndConnections_10 :
    ∃ (s : State) (conn : Fin 4096) (psn : Nat), let c := conn.val
      let x := s.conn c
      ∃ (a : RoceAnswer), x.state ≠ .rts :=
  ⟨idle, 4095, 0, .ack, by decide +kernel⟩

theorem witness_RoceRequestsAndConnections_11 :
    ∃ (s : State) (conn : Fin 4096) (psn : Nat), let c := conn.val
      let x := s.conn c
      x.state = .rts ∧ x.failing = none :=
  ⟨rts_ 0 id idle, 0, 0, by decide +kernel⟩

theorem witness_RoceRequestsAndConnections_12 :
    ∃ (s : State) (conn : Fin 4096) (psn : Nat), let c := conn.val
      let x := s.conn c
      x.state = .rts ∧ x.failing = none ∧ (x.requests.any fun r => r.1 = psn) = true :=
  ⟨rts_ 0 (fun x => { x with requests := [(9, req_)] }) idle, 0, 9, by decide +kernel⟩

theorem witness_RoceRequestsAndConnections_13 :
    ∃ (s : State) (conn : Fin 4096) (psn : Nat), let c := conn.val
      let x := s.conn c
      ∃ (data : List Byte) (chaff : Bool) (r : Nat × ConnRequest), x.state = .rts ∧ x.failing = none ∧ (x.requests.find? fun r => r.1 = psn && r.2.wants = some data.length) = some r :=
  ⟨rts_ 0 (fun x => { x with requests := [(9, req_)] }) idle, 0, 9, [1, 2, 3, 4], true, (9, req_), by decide +kernel⟩

theorem witness_RoceRequestsAndConnections_14 :
    ∃ (s : State) (conn : Fin 4096) (psn : Nat), let c := conn.val
      let x := s.conn c
      x.requests = [] :=
  ⟨idle, 4095, 0, by decide +kernel⟩

theorem witness_RoceRequestsAndConnections_15 :
    ∃ (s : State) (conn : Fin 4096) (psn : Nat), let c := conn.val
      let x := s.conn c
      ∃ r rest, x.requests = r :: rest ∧ s.linkUp = true ∧ x.state = .rts ∧ x.failing = none ∧ s.connRetry c ≤ x.tries :=
  ⟨up_ (rts_ 0 (fun x => { x with requests := [(9, req_)] }) idle), 0, 0, (9, req_), [], by decide +kernel⟩

theorem witness_RoceRequestsAndConnections_16 :
    ∃ (s : State) (conn : Fin 4096) (psn : Nat), let c := conn.val
      let x := s.conn c
      ∃ r rest, x.requests = r :: rest ∧ s.linkUp = true ∧ x.state = .rts ∧ x.failing = none ∧ x.tries < s.connRetry c :=
  ⟨key_ (Reg.EB_CONN_CTRL 0) 0x38000000 (up_ (rts_ 0 (fun x => { x with requests := [(9, req_)], tries := 6 }) idle)), 0, 0, (9, req_), [], by decide +kernel⟩

theorem witness_RoceRequestsAndConnections_17 :
    ∃ (s : State) (conn : Fin 4096) (psn : Nat), let c := conn.val
      let x := s.conn c
      x.failing = none :=
  ⟨idle, 4095, 0, by decide +kernel⟩

theorem witness_RoceRequestsAndConnections_18 :
    ∃ (s : State) (conn : Fin 4096) (psn : Nat), let c := conn.val
      let x := s.conn c
      ∃ cause, x.failing = some cause :=
  ⟨rts_ 4095 (fun x => { x with failing := some 3 }) idle, 4095, 0, 3, by decide +kernel⟩

theorem witness_RoceRequestsAndConnections_19 :
    ∃ (s : State) (src : Source), let c := s.connSelected
      s.MayCommand src (Reg.EB_CONN_CMD c) ∧ (s.conn c).state ≠ .idle :=
  ⟨sel_ (rts_ 4095 id idle), cp, by decide +kernel⟩

theorem witness_RoceRequestsAndConnections_20 :
    ∃ (s : State) (src : Source), let c := s.connSelected
      s.MayCommand src (Reg.EB_CONN_CMD c) ∧ (s.conn c).state ≠ .rts :=
  ⟨sel_ idle, cp, by decide +kernel⟩

theorem witness_RoceRequestsAndConnections_21 :
    ∃ (s : State) (src : Source), let c := s.connSelected
      s.MayCommand src (Reg.EB_CONN_CMD c) ∧ (s.conn c).state = .rts :=
  ⟨sel_ (rts_ 4095 id idle), cp, by decide +kernel⟩

theorem witness_RoceRequestsAndConnections_22 :
    ∃ (s : State) (src : Source), let c := s.connSelected
      s.MayCommand src (Reg.EB_CONN_CMD c) ∧ (s.conn c).state ≠ .error :=
  ⟨sel_ idle, cp, by decide +kernel⟩

theorem witness_RoceRequestsAndConnections_23 :
    ∃ (s : State) (src : Source), let c := s.connSelected
      s.MayCommand src (Reg.EB_CONN_CMD c) ∧ (s.conn c).state = .error :=
  ⟨sel_ (idle.setConn 4095 { Conn.idle with state := .error }), cp, by decide +kernel⟩

end Sys2Proof.Tests
end

