-- ==== Sys2Proof/Tests/Witness09.lean ====
section
/-! SUPPORT. Witnesses: for each clause of a statement, a state and operands that meet its hypotheses together (Witness09). -/

namespace Sys2Proof.Tests
open Sys2Proof Sys2Proof.Machine
set_option maxRecDepth 100000
set_option linter.unusedVariables false
set_option Elab.async false

def put_ (k v : Nat) (s : State) : State := s.setReg k (w32 v)
def apOpen (s : State) : State := open_ .audio s
def ap_ (p : Nat) (f : AudioPort → AudioPort) (s : State) : State := s.setAport p (f AudioPort.off)
def in_ (st : PortState) (x : AudioPort) : AudioPort := { x with state := st }
def route_ (p pb g : Nat) : Bytes := leBytes 1 p ++ [0, 0, 0] ++ leBytes 1 pb ++ leBytes 1 g ++ List.replicate 10 0
/-- Ports 0 and 5 route to stream 0 of bay 0. -/
def routed (pb g : Nat) : State :=
  { bayed with loader := { bayed.loader with applied := [(0, slot0), (16, [section_ 0x101 (route_ 0 pb g ++ route_ 5 pb g)])] } }
/-- A follower of standard mode. -/
def follower (p : Nat) (s : State) : State := put_ (Reg.AP_CTRL p) 9 (put_ (Reg.AP_DIV_INT p) 2 s)
def group_ (g : Nat) (x : GroupState) (s : State) : State := s.setAgroup g { AudioGroup.idle with state := x }
def portd (mode target : Nat) : PortDesc := ⟨mode, 1, 1, 2, 0x1000, target, 0, 0⟩
def period_ (d : Option PortDesc) : Period := ⟨0, d, 0, 0, 0, [(0, [0x11223344#32])], [], false, none, none⟩
def full_ (d : Option PortDesc) (s : State) : State := ap_ 5 (fun x => { x with full := [period_ d] }) s
def streamIn (s : State) : State :=
  put_ (Reg.SC_IN_CAP 0) 4 (put_ (Reg.SC_FRAME 0) 1 (s.setStream 0 { Stream.idle with state := .armed }))
def gsel_ (g : Nat) (s : State) : State := apOpen (put_ Reg.AP_GSEL g s)
def active_ (d : PortDesc) (f : AudioPort → AudioPort) (s : State) : State := ap_ 5 (fun x => f { x with active := some d }) s
def playing (x : AudioPort) : AudioPort := { x with state := .running, open_ := some (period_ none) }
theorem fetch_ok : okOf ((active_ (portd 2 4) playing (routed 1 255)).readRun 0
    ((portd 2 4).base.toNat + ((active_ (portd 2 4) playing (routed 1 255)).reg (Reg.AP_PERIOD_SEQ 5) + 0 + w32 (([] : List Fetched).length + 1)).toNat % (portd 2 4).target * (portd 2 4).bytes)
    (portd 2 4).bytes audioEngine).2 = some (List.replicate (portd 2 4).bytes 0, false) := by decide +kernel
def fetched_ : State := ((active_ (portd 2 4) playing (routed 1 255)).readRun 0
    ((portd 2 4).base.toNat + ((active_ (portd 2 4) playing (routed 1 255)).reg (Reg.AP_PERIOD_SEQ 5) + 0 + w32 (([] : List Fetched).length + 1)).toNat % (portd 2 4).target * (portd 2 4).bytes)
    (portd 2 4).bytes audioEngine).1
theorem fetch_pair : (active_ (portd 2 4) playing (routed 1 255)).readRun 0
    ((portd 2 4).base.toNat + ((active_ (portd 2 4) playing (routed 1 255)).reg (Reg.AP_PERIOD_SEQ 5) + 0 + w32 (([] : List Fetched).length + 1)).toNat % (portd 2 4).target * (portd 2 4).bytes)
    (portd 2 4).bytes audioEngine = (fetched_, .ok (List.replicate (portd 2 4).bytes 0, false)) := pair_ok fetch_ok
def rate48 : Nat := 4800000 + nominalCode 4800000 * 2 ^ 25

theorem witness_AudioPortsRun_1 :
    ∃ (s : State) (pll : Fin 2), bit (s.reg Reg.AP_PLL_CTRL) pll.val = true :=
  ⟨put_ Reg.AP_PLL_CTRL 2 idle, 1, by decide +kernel⟩

theorem witness_AudioPortsRun_2 :
    ∃ (s : State) (pll : Fin 2), bit (s.reg Reg.AP_PLL_CTRL) pll.val = false :=
  ⟨put_ Reg.AP_PLL_CTRL 0 idle, 0, by decide +kernel⟩

theorem witness_AudioPortsRun_3 :
    ∃ (s : State) (src : Source) (value : Word), let u := s.closeGuard src
      let busy := (List.range 2).any fun i => !bit (w32 (fld value 1 0)) i && u.pllUsed i
      s.MayCommand src Reg.AP_PLL_CTRL ∧ busy = true :=
  ⟨apOpen (ap_ 5 (in_ .running) idle), cp, 2, by decide +kernel⟩

theorem witness_AudioPortsRun_4 :
    ∃ (s : State) (src : Source) (value : Word), let u := s.closeGuard src
      let busy := (List.range 2).any fun i => !bit (w32 (fld value 1 0)) i && u.pllUsed i
      s.MayCommand src Reg.AP_PLL_CTRL ∧ busy = false :=
  ⟨apOpen idle, cp, 3, by decide +kernel⟩

theorem witness_AudioPortsRun_5 :
    ∃ (s : State) (src : Source) (port : Fin 6), let u := fun v => s.Commanded src (Reg.AP_CMD port.val) v
      ∃ r, s.MayCommand src (Reg.AP_CMD port.val) ∧ (u 1).startReason port.val = some r :=
  ⟨apOpen idle, cp, 5, 2, by decide +kernel⟩

theorem witness_AudioPortsRun_6 :
    ∃ (s : State) (src : Source) (port : Fin 6), let u := fun v => s.Commanded src (Reg.AP_CMD port.val) v
      let v := (((u 1).applyAll (startFields port.val)).setReg (Reg.AP_FRAMES_LO port.val) 0).setReg (Reg.AP_FRAMES_HI port.val) 0
      s.MayCommand src (Reg.AP_CMD port.val) ∧ (u 1).startReason port.val = none ∧ v.groupOf port.val = none :=
  ⟨apOpen (follower 5 (routed 0 255)), cp, 5, by decide +kernel⟩

theorem witness_AudioPortsRun_7 :
    ∃ (s : State) (src : Source) (port : Fin 6), let u := fun v => s.Commanded src (Reg.AP_CMD port.val) v
      let v := (((u 1).applyAll (startFields port.val)).setReg (Reg.AP_FRAMES_LO port.val) 0).setReg (Reg.AP_FRAMES_HI port.val) 0
      ∃ g, s.MayCommand src (Reg.AP_CMD port.val) ∧ (u 1).startReason port.val = none ∧ v.groupOf port.val = some g ∧ (v.agroup g).state ≠ .running :=
  ⟨apOpen (follower 5 (routed 0 3)), cp, 5, 3, by decide +kernel⟩

theorem witness_AudioPortsRun_8 :
    ∃ (s : State) (src : Source) (port : Fin 6), let u := fun v => s.Commanded src (Reg.AP_CMD port.val) v
      let v := (((u 1).applyAll (startFields port.val)).setReg (Reg.AP_FRAMES_LO port.val) 0).setReg (Reg.AP_FRAMES_HI port.val) 0
      ∃ g, s.MayCommand src (Reg.AP_CMD port.val) ∧ (u 1).startReason port.val = none ∧ v.groupOf port.val = some g ∧ (v.agroup g).state = .running :=
  ⟨apOpen (group_ 3 .running (ap_ 0 (fun x => { in_ .running x with steady := true }) (follower 0 (follower 5 (routed 0 3))))), cp, 5, 3, by decide +kernel⟩

theorem witness_AudioPortsRun_9 :
    ∃ (s : State) (src : Source) (port : Fin 6), let x := { s.aport port.val with refused := false, reason := 0 }
      s.MayCommand src (Reg.AP_CMD port.val) ∧ x.state = .primed :=
  ⟨apOpen (ap_ 5 (in_ .primed) idle), cp, 5, by decide +kernel⟩

theorem witness_AudioPortsRun_10 :
    ∃ (s : State) (src : Source) (port : Fin 6), let x := { s.aport port.val with refused := false, reason := 0 }
      s.MayCommand src (Reg.AP_CMD port.val) ∧ x.state = .leadIn :=
  ⟨apOpen (ap_ 5 (in_ .leadIn) idle), cp, 5, by decide +kernel⟩

theorem witness_AudioPortsRun_11 :
    ∃ (s : State) (src : Source) (port : Fin 6), let x := { s.aport port.val with refused := false, reason := 0 }
      s.MayCommand src (Reg.AP_CMD port.val) ∧ x.state = .running ∧ x.stopping = false ∧ x.rejoin = false ∧ x.open_ ≠ none :=
  ⟨apOpen (ap_ 5 (fun x => { in_ .running x with open_ := some (period_ none) }) idle), cp, 5, by decide +kernel⟩

theorem witness_AudioPortsRun_12 :
    ∃ (s : State) (src : Source) (port : Fin 6), let x := { s.aport port.val with refused := false, reason := 0 }
      s.MayCommand src (Reg.AP_CMD port.val) ∧ x.state = .running ∧ x.stopping = false ∧ x.rejoin = false ∧ x.open_ = none :=
  ⟨apOpen (ap_ 5 (in_ .running) idle), cp, 5, by decide +kernel⟩

theorem witness_AudioPortsRun_13 :
    ∃ (s : State) (src : Source) (port : Fin 6), let x := { s.aport port.val with refused := false, reason := 0 }
      s.MayCommand src (Reg.AP_CMD port.val) ∧ (x.state = .off ∨ x.state = .leadOut) :=
  ⟨apOpen (ap_ 5 (in_ .leadOut) idle), cp, 5, by decide +kernel⟩

theorem witness_AudioPortsRun_14 :
    ∃ (s : State) (src : Source) (port : Fin 6), let x := { s.aport port.val with refused := false, reason := 0 }
      s.MayCommand src (Reg.AP_CMD port.val) ∧ x.state = .running ∧ x.stopping = false ∧ x.rejoin = false :=
  ⟨apOpen (ap_ 5 (in_ .running) idle), cp, 5, by decide +kernel⟩

theorem witness_AudioPortsRun_15 :
    ∃ (s : State) (src : Source) (port : Fin 6), let x := { s.aport port.val with refused := false, reason := 0 }
      s.MayCommand src (Reg.AP_CMD port.val) ∧ x.state ≠ .running :=
  ⟨apOpen (ap_ 5 (in_ .primed) idle), cp, 5, by decide +kernel⟩

theorem witness_AudioPortsRun_16 :
    ∃ (s : State) (src : Source) (rising : Bool), let g := s.gsel
      s.MayCommand src (Reg.AP_GROUP_CMD s.gsel) ∧ 6 ≤ g :=
  ⟨gsel_ 6 idle, cp, by decide +kernel⟩

theorem witness_AudioPortsRun_17 :
    ∃ (s : State) (src : Source) (rising : Bool), let g := s.gsel
      let u := s.Commanded src (Reg.AP_GROUP_CMD g) 1
      let v := u.applyStaged (Reg.AP_GROUP_CTRL g)
      s.MayCommand src (Reg.AP_GROUP_CMD s.gsel) ∧ g < 6 ∧ fld (v.reg (Reg.AP_GROUP_CTRL g)) 1 0 = 0 :=
  ⟨gsel_ 5 idle, cp, by decide +kernel⟩

theorem witness_AudioPortsRun_18 :
    ∃ (s : State) (src : Source) (rising : Bool), let g := s.gsel
      let u := s.Commanded src (Reg.AP_GROUP_CMD g) 1
      let v := u.applyStaged (Reg.AP_GROUP_CTRL g)
      s.MayCommand src (Reg.AP_GROUP_CMD s.gsel) ∧ g < 6 ∧ fld (v.reg (Reg.AP_GROUP_CTRL g)) 1 0 = 1 :=
  ⟨put_ (Reg.AP_GROUP_CTRL 5) 1 (gsel_ 5 idle), cp, by decide +kernel⟩

theorem witness_AudioPortsRun_19 :
    ∃ (s : State) (src : Source) (rising : Bool), let g := s.gsel
      let u := s.Commanded src (Reg.AP_GROUP_CMD g) 1
      let v := u.applyStaged (Reg.AP_GROUP_CTRL g)
      s.MayCommand src (Reg.AP_GROUP_CMD s.gsel) ∧ g < 6 ∧ 2 ≤ fld (v.reg (Reg.AP_GROUP_CTRL g)) 1 0 :=
  ⟨put_ (Reg.AP_GROUP_CTRL 0) 3 (gsel_ 0 idle), cp, by decide +kernel⟩

theorem witness_AudioPortsRun_20 :
    ∃ (s : State) (src : Source) (rising : Bool), s.MayCommand src (Reg.AP_GROUP_CMD s.gsel) :=
  ⟨gsel_ 5 idle, cp, by decide +kernel⟩

theorem witness_AudioPortsRun_21 :
    ∃ (s : State) (src : Source) (rising : Bool), s.MayCommand src (Reg.AP_GROUP_CMD s.gsel) :=
  ⟨gsel_ 0 idle, cp, by decide +kernel⟩

theorem witness_AudioPortsRun_22 :
    ∃ (s : State) (port : Fin 6), let x := s.aport port.val
      (x.state ≠ .leadIn ∨ x.left ≠ 0) :=
  ⟨idle, 5, by decide +kernel⟩

theorem witness_AudioPortsRun_23 :
    ∃ (s : State) (port : Fin 6), let x := s.aport port.val
      x.state = .leadIn ∧ x.left = 0 ∧ x.rejoining = false ∧ s.groupOf port.val = none :=
  ⟨ap_ 0 (in_ .leadIn) idle, 0, by decide +kernel⟩

theorem witness_AudioPortsRun_24 :
    ∃ (s : State) (port : Fin 6), let x := s.aport port.val
      ∃ g, x.state = .leadIn ∧ x.left = 0 ∧ x.rejoining = false ∧ s.groupOf port.val = some g :=
  ⟨ap_ 0 (in_ .leadIn) (routed 0 3), 0, 3, by decide +kernel⟩

theorem witness_AudioPortsRun_25 :
    ∃ (s : State) (port : Fin 6), let x := s.aport port.val
      (x.state ≠ .leadOut ∨ x.left ≠ 0) :=
  ⟨idle, 5, by decide +kernel⟩

theorem witness_AudioPortsRun_26 :
    ∃ (s : State) (port : Fin 6), let x := s.aport port.val
      x.state = .leadOut ∧ x.left = 0 ∧ x.open_ = none ∧ x.rejoin = false :=
  ⟨ap_ 5 (in_ .leadOut) idle, 5, by decide +kernel⟩

theorem witness_AudioPortsRun_27 :
    ∃ (s : State) (port : Fin 6), let x := s.aport port.val
      s.apFollower port.val = true ∧ x.state ≠ .off ∧ x.state ≠ .primed :=
  ⟨follower 5 (ap_ 5 (in_ .leadOut) idle), 5, by decide +kernel⟩

theorem witness_AudioPortsRun_28 :
    ∃ (s : State) (port : Fin 6), let x := s.aport port.val
      (s.apFollower port.val = false ∨ x.state = .off ∨ x.state = .primed) :=
  ⟨idle, 0, by decide +kernel⟩

theorem witness_AudioPortsRun_29 :
    ∃ (s : State) (port : Fin 6) (clocks : Nat) (samples : List Word) (lost : List Nat), let p := port.val
      let x := s.aport p
      (x.state = .off ∨ x.state = .primed) :=
  ⟨ap_ 5 (in_ .primed) idle, 5, 64, [], [], by decide +kernel⟩

theorem witness_AudioPortsRun_30 :
    ∃ (s : State) (port : Fin 6) (clocks : Nat) (samples : List Word) (lost : List Nat), let p := port.val
      let x := s.aport p
      ∃ u : State, let b := frameClocks (s.reg (Reg.AP_CTRL p)) (s.reg (Reg.AP_FMT p))
      let bad := s.apFollower p && decide (clocks ≠ b)
      let y := u.aport p
      x.state ≠ .off ∧ x.state ≠ .primed ∧ (((s.setAport p { x with clockLost := false }).frameBoundary p).count64 (Reg.AP_FRAMES_LO p) (Reg.AP_FRAMES_HI p) 1).count32
      (Reg.AP_FRAME_ERR p) (if bad then 1 else 0) = u ∧ y.state ≠ .running ∧ s.apPlayback p = false :=
  ⟨ap_ 5 (fun x => { in_ .leadIn x with left := 5 }) (put_ (Reg.AP_CTRL 5) 1 idle), 5, 32, [0, 0], [], _, by decide +kernel, by decide +kernel, rfl, by decide +kernel, by decide +kernel⟩

theorem witness_AudioPortsRun_31 :
    ∃ (s : State) (port : Fin 6) (clocks : Nat) (samples : List Word) (lost : List Nat), let p := port.val
      let x := s.aport p
      ∃ u : State, let b := frameClocks (s.reg (Reg.AP_CTRL p)) (s.reg (Reg.AP_FMT p))
      let bad := s.apFollower p && decide (clocks ≠ b)
      let y := u.aport p
      x.state ≠ .off ∧ x.state ≠ .primed ∧ (((s.setAport p { x with clockLost := false }).frameBoundary p).count64 (Reg.AP_FRAMES_LO p) (Reg.AP_FRAMES_HI p) 1).count32
      (Reg.AP_FRAME_ERR p) (if bad then 1 else 0) = u ∧ y.state ≠ .running ∧ s.apPlayback p = true :=
  ⟨ap_ 5 (fun x => { in_ .leadIn x with left := 5 }) (put_ (Reg.AP_CTRL 5) 1 (routed 1 255)), 5, 32, [0, 0], [], _, by decide +kernel, by decide +kernel, rfl, by decide +kernel, by decide +kernel⟩

theorem witness_AudioPortsRun_32 :
    ∃ (s : State) (port : Fin 6) (clocks : Nat) (samples : List Word) (lost : List Nat), let p := port.val
      let x := s.aport p
      ∃ u : State, let b := frameClocks (s.reg (Reg.AP_CTRL p)) (s.reg (Reg.AP_FMT p))
      let bad := s.apFollower p && decide (clocks ≠ b)
      let y := u.aport p
      x.state ≠ .off ∧ x.state ≠ .primed ∧ (((s.setAport p { x with clockLost := false }).frameBoundary p).count64 (Reg.AP_FRAMES_LO p) (Reg.AP_FRAMES_HI p) 1).count32
      (Reg.AP_FRAME_ERR p) (if bad then 1 else 0) = u ∧ y.state = .running :=
  ⟨ap_ 5 playing (put_ (Reg.AP_CTRL 5) 1 idle), 5, 32, [1, 2], [0], _, by decide +kernel, by decide +kernel, rfl, by decide +kernel⟩

theorem witness_AudioPortsRun_33 :
    ∃ (s : State) (port : Fin 6) (o : Period) (rest : List Period) (d : PortDesc), let p := port.val
      (s.aport p).full = o :: rest ∧ s.audioHeld p = false ∧ o.desc = none :=
  ⟨full_ none idle, 5, period_ none, [], portd 1 4, by decide +kernel⟩

theorem witness_AudioPortsRun_34 :
    ∃ (s : State) (port : Fin 6) (o : Period) (rest : List Period) (d : PortDesc), let p := port.val
      ∃ s1, (s.aport p).full = o :: rest ∧ s.audioHeld p = false ∧ o.desc = some d ∧ d.mode = 1 ∧ (s.stream o.sid).state ≠ .idle ∧ s.writeFrame o.bay o.sid o.seq (o.packed d) o.chaff audioEngine = (s1, none) :=
  ⟨full_ (some (portd 1 4)) (streamIn bayed), 5, period_ (some (portd 1 4)), [], portd 1 4, _, by decide +kernel, by decide +kernel, by decide +kernel, by decide +kernel, by decide +kernel, Prod.ext rfl (by decide +kernel)⟩

theorem witness_AudioPortsRun_35 :
    ∃ (s : State) (port : Fin 6) (o : Period) (rest : List Period) (d : PortDesc), let p := port.val
      ∃ s1, (s.aport p).full = o :: rest ∧ s.audioHeld p = false ∧ o.desc = some d ∧ d.mode = 2 ∧ s.writeRun o.bay (d.base.toNat + o.seq.toNat % d.target * d.bytes) (o.packed d) o.chaff audioEngine = (s1, none) :=
  ⟨full_ (some (portd 2 4)) bayed, 5, period_ (some (portd 2 4)), [], portd 2 4, _, by decide +kernel, by decide +kernel, by decide +kernel, by decide +kernel, Prod.ext rfl (by decide +kernel)⟩

theorem witness_AudioPortsRun_36 :
    ∃ (s : State) (port : Fin 6) (o : Period) (rest : List Period) (d : PortDesc), let p := port.val
      ∃ s1, (s.aport p).full = o :: rest ∧ s.audioHeld p = false ∧ o.desc = some d ∧ d.mode = 3 ∧ s.takeBuffer o.bay 7 = (s1, none) :=
  ⟨full_ (some (portd 3 4)) bayed, 5, period_ (some (portd 3 4)), [], portd 3 4, _, by decide +kernel, by decide +kernel, by decide +kernel, by decide +kernel, Prod.ext rfl (by decide +kernel)⟩

theorem witness_AudioPortsRun_37 :
    ∃ (s : State) (port : Fin 6) (d : PortDesc) (r : AudioRoute), let p := port.val
      let x := s.aport p
      x.active = none :=
  ⟨idle, 5, portd 1 4, ⟨5, 0, 0, true, none⟩, by decide +kernel⟩

theorem witness_AudioPortsRun_38 :
    ∃ (s : State) (port : Fin 6) (d : PortDesc) (r : AudioRoute), let p := port.val
      let x := s.aport p
      x.active = some d ∧ s.routeOf p = some r ∧ r.playback = true ∧ x.fetched.length < 2 ∧ s.audioHeld p = false ∧ d.run = 0 ∧ x.cancelling = false ∧ d.mode = 1 :=
  ⟨active_ (portd 1 4) id (routed 1 255), 5, portd 1 4, ⟨5, 0, 0, true, none⟩, by decide +kernel⟩

theorem witness_AudioPortsRun_39 :
    ∃ (s : State) (port : Fin 6) (d : PortDesc) (r : AudioRoute), let p := port.val
      let x := s.aport p
      ∃ s1 bytes marked, x.active = some d ∧ s.routeOf p = some r ∧ r.playback = true ∧ x.fetched.length < 2 ∧ s.audioHeld p = false ∧ d.run = 0 ∧ x.cancelling = false ∧ d.mode = 2 ∧ x.state = .running ∧ x.open_ ≠ none ∧ s.readRun r.bay (d.base.toNat + (s.reg (Reg.AP_PERIOD_SEQ p) + 0 + w32 (x.fetched.length + 1)).toNat % d.target * d.bytes) d.bytes audioEngine =
      (s1, .ok (bytes, marked)) :=
  ⟨active_ (portd 2 4) playing (routed 1 255), 5, portd 2 4, ⟨5, 0, 0, true, none⟩, fetched_, List.replicate (portd 2 4).bytes 0, false, by refine ⟨?_, ?_, ?_, ?_, ?_, ?_, ?_, ?_, ?_, ?_, fetch_pair⟩ <;> decide +kernel⟩

theorem witness_AudioPortsRun_40 :
    ∃ (s : State) (port : Fin 6) (d : PortDesc) (r : AudioRoute), let p := port.val
      let x := s.aport p
      x.active = some d ∧ s.routeOf p = some r ∧ r.playback = true ∧ x.fetched.length < 2 ∧ s.audioHeld p = false ∧ d.run = 0 ∧ x.cancelling = false ∧ d.mode = 3 ∧ (s.queue (d.target % 4096)).entries = [] :=
  ⟨active_ (portd 3 4095) id (routed 1 255), 5, portd 3 4095, ⟨5, 0, 0, true, none⟩, by decide +kernel⟩

theorem witness_AudioPortsRun_41 :
    ∃ (s : State) (src : Source) (port : Fin 6), let p := port.val
      let x := s.aport p
      s.MayCommand src (Reg.AP_PORTD_CMD port.val) ∧ x.active = none :=
  ⟨apOpen idle, cp, 5, by decide +kernel⟩

theorem witness_AudioPortsRun_42 :
    ∃ (s : State) (src : Source) (port : Fin 6), let p := port.val
      let x := s.aport p
      s.MayCommand src (Reg.AP_PORTD_CMD port.val) ∧ x.active ≠ none ∧ x.pending = none :=
  ⟨apOpen (active_ (portd 1 4) id idle), cp, 5, by decide +kernel⟩

theorem witness_AudioPortsRun_43 :
    ∃ (s : State) (src : Source) (port : Fin 6), let p := port.val
      let x := s.aport p
      s.MayCommand src (Reg.AP_PORTD_CMD port.val) ∧ x.active ≠ none ∧ x.pending ≠ none :=
  ⟨apOpen (active_ (portd 1 4) (fun x => { x with pending := some (portd 1 4) }) idle), cp, 5, by decide +kernel⟩

theorem witness_AudioPortsRun_44 :
    ∃ (s : State) (src : Source) (port : Fin 6), let p := port.val
      let x := s.aport p
      s.MayCommand src (Reg.AP_PORTD_CMD port.val) ∧ x.open_ = none :=
  ⟨apOpen idle, cp, 0, by decide +kernel⟩

theorem witness_AudioPortsRun_45 :
    ∃ (s : State) (src : Source) (port : Fin 6), let p := port.val
      let x := s.aport p
      ∃ o, s.MayCommand src (Reg.AP_PORTD_CMD port.val) ∧ x.open_ = some o ∧ o.desc ≠ none ∧ x.active ≠ none :=
  ⟨apOpen (active_ (portd 1 4) (fun x => { x with open_ := some (period_ (some (portd 1 4))) }) idle), cp, 5, period_ (some (portd 1 4)), by decide +kernel⟩

theorem witness_AudioPortsRun_46 :
    ∃ (s : State) (port : Fin 6) (frames periods : Nat), let p := port.val
      let old := s.reg (Reg.AP_RATE p)
      periods = 0 ∧ fld (w32 (fld old 24 0 + 2 ^ 31)) 28 25 = fld old 28 25 :=
  ⟨idle, 5, 0, 0, by decide +kernel⟩

theorem witness_AudioPortsRun_47 :
    ∃ (s : State) (port : Fin 6) (frames periods : Nat), let p := port.val
      let x := s.aport p
      let old := s.reg (Reg.AP_RATE p)
      ∃ prev, let v := frames * 15625000000 / periods
      0 < periods ∧ x.lastRate = some prev ∧ agrees (fld (s.reg (Reg.AP_MEAS_CFG p)) 31 16) v prev = true ∧ fld (w32 (v % 2 ^ 25 + nominalCode v * 2 ^ 25)) 28 25 = fld old 28 25 :=
  ⟨put_ (Reg.AP_RATE 5) rate48 (ap_ 5 (fun x => { x with lastRate := some 4800000 }) idle), 5, 48, 156250, 4800000, by decide +kernel⟩

theorem witness_AudioPortsRun_48 :
    ∃ (s : State) (port : Fin 6) (frames periods : Nat), let p := port.val
      let x := s.aport p
      let old := s.reg (Reg.AP_RATE p)
      ∃ prev, let v := frames * 15625000000 / periods
      let new := w32 (v % 2 ^ 25 + nominalCode v * 2 ^ 25)
      0 < periods ∧ x.lastRate = some prev ∧ agrees (fld (s.reg (Reg.AP_MEAS_CFG p)) 31 16) v prev = true ∧ fld new 28 25 ≠ fld old 28 25 :=
  ⟨ap_ 5 (fun x => { x with lastRate := some 4800000 }) idle, 5, 48, 156250, 4800000, by decide +kernel⟩

end Sys2Proof.Tests
end

