-- ==== Sys2Proof/Tests/Witness10.lean ====
section
/-! SUPPORT. Witnesses: for each clause of a statement, a state and operands that meet its hypotheses together (Witness10). -/

namespace Sys2Proof.Tests
open Sys2Proof Sys2Proof.Machine
set_option maxRecDepth 100000
set_option linter.unusedVariables false
set_option Elab.async false

def regV (k v : Nat) (s : State) : State := s.setReg k (w32 v)
def vane_ (f : Vane → Vane) (s : State) : State := { s with vane := f s.vane }
def power_ (f : Power → Power) (s : State) : State := { s with power := f s.power }
def pmc_ (f : Pmc → Pmc) (s : State) : State := { s with pmc := f s.pmc }
def phased_ (p : DevicePhase) (s : State) : State := power_ (fun x => { x with phase := p }) s
/-- The clauses of LEAVE_SAFE and CHIP_RESET: not in safe state, in safe state with and without a cause, soon after a restart, and later. -/
theorem witness_leaveSafe_chipReset :
    (∃ (s : State) (slot : Fin 5) (seq : Word), s.MayAsk slot seq ∧ s.vane.safe = false ∧ s.restartRecent = false) ∧
    (∃ (s : State) (slot : Fin 5) (seq : Word), s.MayAsk slot seq ∧ s.vane.safe = true ∧ (s.asked slot seq 6 0 0).reviewCauses.causesClear = false) ∧
    (∃ (s : State) (slot : Fin 5) (seq : Word), s.MayAsk slot seq ∧ s.vane.safe = true ∧ (s.asked slot seq 6 0 0).reviewCauses.causesClear = true) ∧
    (∃ (s : State) (slot : Fin 5) (seq : Word), s.MayAsk slot seq ∧ s.restartRecent = true) :=
  ⟨⟨idle, 4, 1, by decide +kernel⟩, ⟨vane_ (fun v => { v with safe := true, causes := [⟨0x09, none⟩] }) idle, 4, 1, by decide +kernel⟩,
   ⟨vane_ (fun v => { v with safe := true }) idle, 0, 1, by decide +kernel⟩, ⟨vane_ (fun v => { v with lastRestart := some 0 }) idle, 0, 1, by decide +kernel⟩⟩

theorem witness_VaneRequestsAnswered_1 :
    ∃ (s : State) (slot : Fin 5) (seq : Word), s.MayAsk slot seq ∧ slot.val ≠ 4 :=
  ⟨idle, 3, 1, by decide +kernel⟩

theorem witness_VaneRequestsAnswered_2 :
    ∃ (s : State) (slot : Fin 5) (seq : Word), s.MayAsk slot seq ∧ slot.val = 4 :=
  ⟨idle, 4, 1, by decide +kernel⟩

theorem witness_VaneRequestsAnswered_3 :
    ∃ (s : State) (slot : Fin 5) (seq : Word), ∃ (code : BitVec 16), s.MayAsk slot seq ∧ (code.toNat = 0 ∨ 14 < code.toNat) :=
  ⟨idle, 4, 1, 15, by decide +kernel⟩

theorem witness_VaneRequestsAnswered_4 :
    ∃ (s : State) (slot : Fin 5) (seq : Word), ∃ (code : BitVec 16), s.MayAsk slot seq ∧ 1 ≤ code.toNat ∧ code.toNat ≤ 14 :=
  ⟨idle, 4, 1, 14, by decide +kernel⟩

theorem witness_VaneRequestsAnswered_5 :
    ∃ (s : State) (slot : Fin 5) (seq : Word), ∃ (trip : Byte) (value : BitVec 16) (r : Nat), s.MayAsk slot seq ∧ tripReg trip.toNat = some r ∧ stricter trip.toNat value.toNat (s.reg r).toNat = true :=
  ⟨idle, 4, 1, 3, 0, Reg.VANE_TRIP_VIN_HI, by decide +kernel⟩

theorem witness_VaneRequestsAnswered_6 :
    ∃ (s : State) (slot : Fin 5) (seq : Word), ∃ (trip : Byte) (value : BitVec 16) (r : Nat), s.MayAsk slot seq ∧ tripReg trip.toNat = some r ∧ stricter trip.toNat value.toNat (s.reg r).toNat = false :=
  ⟨idle, 4, 1, 0, 0xFFFF, Reg.VANE_TRIP_JUNCTION, by decide +kernel⟩

theorem witness_VaneRequestsAnswered_7 :
    ∃ (s : State) (slot : Fin 5) (seq : Word), ∃ (code : BitVec 16) (action : Byte), s.MayAsk slot seq ∧ (code.toNat = 0 ∨ 14 < code.toNat ∨ 7 < action.toNat) :=
  ⟨idle, 4, 1, 1, 8, by decide +kernel⟩

theorem witness_VaneRequestsAnswered_8 :
    ∃ (s : State) (slot : Fin 5) (seq : Word), ∃ (code : BitVec 16) (action : Byte), s.MayAsk slot seq ∧ 1 ≤ code.toNat ∧ code.toNat ≤ 14 ∧ action.toNat ≤ 7 ∧ s.actionOf code.toNat telNone < action.toNat :=
  ⟨idle, 4, 1, 14, 7, by decide +kernel⟩

theorem witness_VaneRequestsAnswered_9 :
    ∃ (s : State) (slot : Fin 5) (seq : Word), s.MayAsk slot seq :=
  ⟨idle, 4, 1, by decide +kernel⟩

theorem witness_VaneRequestsAnswered_10 :
    ∃ (s : State) (slot : Fin 5) (seq : Word), s.MayAsk slot seq :=
  ⟨idle, 4, 1, by decide +kernel⟩

theorem witness_VaneRequestsAnswered_11 :
    ∃ (s : State) (slot : Fin 5) (seq : Word), ∃ (target : BitVec 16), s.MayAsk slot seq ∧ 15 < target.toNat :=
  ⟨bayed, 4, 1, 16, by decide +kernel⟩

theorem witness_VaneRequestsAnswered_12 :
    ∃ (s : State) (slot : Fin 5) (seq : Word), ∃ (target : BitVec 16), s.MayAsk slot seq ∧ target.toNat ≤ 15 ∧ s.bayDef target.toNat ≠ none ∧ s.vane.safe = false :=
  ⟨bayed, 4, 1, 0, by decide +kernel⟩

theorem witness_VaneRequestsAnswered_13 :
    ∃ (s : State) (slot : Fin 5) (seq : Word), ∃ (target : BitVec 16), s.MayAsk slot seq ∧ target.toNat ≤ 15 ∧ (s.bayDef target.toNat = none ∨ s.vane.safe = true) :=
  ⟨bayed, 4, 1, 15, by decide +kernel⟩

theorem witness_VaneRequestsAnswered_14 :
    ∃ (s : State) (slot : Fin 5) (seq : Word), ∃ (target : BitVec 16), s.MayAsk slot seq ∧ 35 < target.toNat :=
  ⟨bayed, 4, 1, 36, by decide +kernel⟩

theorem witness_VaneRequestsAnswered_15 :
    ∃ (s : State) (slot : Fin 5) (seq : Word), ∃ (target : BitVec 16), s.MayAsk slot seq ∧ target.toNat ≤ 35 ∧ s.coreBay target.toNat ≠ none ∧ s.vane.safe = false :=
  ⟨bayed, 4, 1, 0, by decide +kernel⟩

theorem witness_VaneRequestsAnswered_16 :
    ∃ (s : State) (slot : Fin 5) (seq : Word), s.vane.running = false :=
  ⟨vane_ (fun v => { v with running := false }) idle, 4, 1, by decide +kernel⟩

theorem witness_ResetsAndPowerEvents_1 :
    ∃ (s : State), s.power.erasePending = false :=
  ⟨idle, by decide +kernel⟩

theorem witness_ResetsAndPowerEvents_2 :
    ∃ (s : State), s.power.phase = .startUp :=
  ⟨phased_ .startUp idle, by decide +kernel⟩

theorem witness_ResetsAndPowerEvents_3 :
    ∃ (s : State), s.power.phase ≠ .startUp :=
  ⟨idle, by decide +kernel⟩

theorem witness_ResetsAndPowerEvents_4 :
    ∃ (s : State), s.power.phase = .restart ∧ s.power.refclk = true :=
  ⟨phased_ .restart idle, by decide +kernel⟩

theorem witness_ResetsAndPowerEvents_5 :
    ∃ (s : State), (s.power.phase ≠ .restart ∨ s.power.refclk = false) :=
  ⟨idle, by decide +kernel⟩

theorem witness_ResetsAndPowerEvents_6 :
    ∃ (s : State), s.power.resetN = false :=
  ⟨power_ (fun x => { x with resetN := false }) idle, by decide +kernel⟩

theorem witness_ResetsAndPowerEvents_7 :
    ∃ (s : State), s.power.resetN = true ∧ (s.power.phase = .service ∨ s.power.phase = .restart) :=
  ⟨idle, by decide +kernel⟩

theorem witness_ResetsAndPowerEvents_8 :
    ∃ (s : State), s.power.resetN = true ∧ s.power.phase = .unpowered :=
  ⟨phased_ .unpowered idle, by decide +kernel⟩

theorem witness_ResetsAndPowerEvents_9 :
    ∃ (s : State), s.power.resetN = true ∧ (s.power.phase = .startUp ∨ s.power.phase = .cardTest) :=
  ⟨phased_ .cardTest idle, by decide +kernel⟩

theorem witness_ResetsAndPowerEvents_10 :
    ∃ (s : State), s.power.resetN = true :=
  ⟨idle, by decide +kernel⟩

theorem witness_ResetsAndPowerEvents_11 :
    ∃ (s : State), s.power.resetN = false ∧ s.sec.erasing = true :=
  ⟨{ power_ (fun x => { x with resetN := false }) idle with sec := { sec0 with erasing := true } }, by decide +kernel⟩

theorem witness_ResetsAndPowerEvents_12 :
    ∃ (s : State), s.power.resetN = false ∧ s.sec.erasing = false ∧ s.power.phase = .restartHeld :=
  ⟨phased_ .restartHeld (power_ (fun x => { x with resetN := false }) idle), by decide +kernel⟩

theorem witness_ResetsAndPowerEvents_13 :
    ∃ (s : State) (g : Fin 8), s.tel.running = none ∧ bit s.power.training g.val = false :=
  ⟨idle, 7, by decide +kernel⟩

theorem witness_ResetsAndPowerEvents_14 :
    ∃ (s : State) (g : Fin 8), s.tel.running = none ∧ bit s.power.training g.val = true :=
  ⟨power_ (fun x => { x with training := 0x80 }) idle, 7, by decide +kernel⟩

theorem witness_ResetsAndPowerEvents_15 :
    ∃ (s : State) (cause strength : Nat), s.power.resetN = false :=
  ⟨power_ (fun x => { x with resetN := false }) idle, 5, 3, by decide +kernel⟩

theorem witness_AlarmsAndPowerControl_1 :
    ∃ (s : State) (core : Fin 36) (die : Fin 4) (v : Nat), (s.reg Reg.VANE_TRIP_JUNCTION).toNat ≤ v :=
  ⟨idle, 35, 3, (idle.reg Reg.VANE_TRIP_JUNCTION).toNat, by decide +kernel⟩

theorem witness_AlarmsAndPowerControl_2 :
    ∃ (s : State) (core : Fin 36) (die : Fin 4) (v : Nat), v < (s.reg Reg.VANE_TRIP_JUNCTION).toNat :=
  ⟨idle, 35, 3, 0, by decide +kernel⟩

theorem witness_AlarmsAndPowerControl_3 :
    ∃ (s : State) (core : Fin 36) (die : Fin 4) (v : Nat), (s.reg Reg.VANE_TRIP_LOFT).toNat ≤ v :=
  ⟨idle, 35, 3, (idle.reg Reg.VANE_TRIP_LOFT).toNat, by decide +kernel⟩

theorem witness_AlarmsAndPowerControl_4 :
    ∃ (s : State) (core : Fin 36) (die : Fin 4) (v : Nat), v < (s.reg Reg.VANE_TRIP_LOFT).toNat :=
  ⟨idle, 35, 3, 0, by decide +kernel⟩

theorem witness_AlarmsAndPowerControl_5 :
    ∃ (s : State) (core : Fin 36) (die : Fin 4) (v : Nat), 125 ≤ v :=
  ⟨idle, 35, 3, 125, by decide +kernel⟩

theorem witness_AlarmsAndPowerControl_6 :
    ∃ (s : State) (core : Fin 36) (die : Fin 4) (v : Nat), v < 125 :=
  ⟨idle, 35, 3, 124, by decide +kernel⟩

theorem witness_AlarmsAndPowerControl_7 :
    ∃ (s : State) (core : Fin 36) (die : Fin 4) (v : Nat), v < (s.reg Reg.VANE_TRIP_VIN_LO).toNat :=
  ⟨idle, 0, 0, 0, by decide +kernel⟩

theorem witness_AlarmsAndPowerControl_8 :
    ∃ (s : State) (core : Fin 36) (die : Fin 4) (v : Nat), (s.reg Reg.VANE_TRIP_VIN_LO).toNat ≤ v :=
  ⟨idle, 0, 0, (idle.reg Reg.VANE_TRIP_VIN_LO).toNat, by decide +kernel⟩

theorem witness_AlarmsAndPowerControl_9 :
    ∃ (s : State) (core : Fin 36) (die : Fin 4) (v : Nat), (s.reg Reg.VANE_TRIP_VIN_HI).toNat < v :=
  ⟨idle, 0, 0, (idle.reg Reg.VANE_TRIP_VIN_HI).toNat + 1, by decide +kernel⟩

theorem witness_AlarmsAndPowerControl_10 :
    ∃ (s : State) (core : Fin 36) (die : Fin 4) (v : Nat), v ≤ (s.reg Reg.VANE_TRIP_VIN_HI).toNat :=
  ⟨idle, 0, 0, (idle.reg Reg.VANE_TRIP_VIN_HI).toNat, by decide +kernel⟩

theorem witness_AlarmsAndPowerControl_11 :
    ∃ (s : State) (core : Fin 36) (die : Fin 4) (v : Nat), (v < 34000 ∨ 55000 < v) :=
  ⟨idle, 0, 0, 33999, by decide +kernel⟩

theorem witness_AlarmsAndPowerControl_12 :
    ∃ (s : State) (core : Fin 36) (die : Fin 4) (v : Nat), 34000 ≤ v ∧ v ≤ 55000 :=
  ⟨idle, 0, 0, 55000, by decide +kernel⟩

theorem witness_AlarmsAndPowerControl_13 :
    ∃ (s : State) (phase : Fin 11), let u := State.alarm { s with pmc := { s.pmc with phases := s.pmc.phases ||| (1#11 <<< phase.val) } } 0x08 telNone
      u.phasesFailed < 3 :=
  ⟨idle, 10, by decide +kernel⟩

theorem witness_AlarmsAndPowerControl_14 :
    ∃ (s : State) (phase : Fin 11), let u := State.alarm { s with pmc := { s.pmc with phases := s.pmc.phases ||| (1#11 <<< phase.val) } } 0x08 telNone
      3 ≤ u.phasesFailed :=
  ⟨pmc_ (fun x => { x with phases := 3 }) idle, 10, by decide +kernel⟩

theorem witness_AlarmsAndPowerControl_15 :
    ∃ (s : State) (cp : Fin 4), bit s.vane.watchRunning cp.val = false :=
  ⟨idle, 3, by decide +kernel⟩

theorem witness_AlarmsAndPowerControl_16 :
    ∃ (s : State) (cp q : Fin 4), bit s.vane.watchRunning cp.val = true ∧ q ≠ cp ∧ bit s.vane.watchRunning q.val = true ∧ AMap.get? s.vane.expiredAt q.val = none :=
  ⟨vane_ (fun v => { v with watchRunning := 9 }) idle, 3, 0, by decide +kernel⟩

theorem witness_AlarmsAndPowerControl_17 :
    ∃ (h ceil watts cap : Nat), cap < watts ∧ h < 16 :=
  ⟨15, 0, 601, 600, by decide +kernel⟩

theorem witness_AlarmsAndPowerControl_18 :
    ∃ (h ceil watts cap : Nat), cap < watts ∧ 16 ≤ h :=
  ⟨16, 0, 601, 600, by decide +kernel⟩

theorem witness_AlarmsAndPowerControl_19 :
    ∃ (h ceil watts cap : Nat), watts * 100 < 97 * cap ∧ 0 < ceil :=
  ⟨0, 1, 0, 600, by decide +kernel⟩

theorem witness_AlarmsAndPowerControl_20 :
    ∃ (h ceil watts cap : Nat), watts * 100 < 97 * cap ∧ ceil = 0 :=
  ⟨0, 0, 0, 600, by decide +kernel⟩

theorem witness_AlarmsAndPowerControl_21 :
    ∃ (h ceil watts cap : Nat), watts ≤ cap ∧ 97 * cap ≤ watts * 100 :=
  ⟨0, 0, 600, 600, by decide +kernel⟩

theorem witness_AlarmsAndPowerControl_22 :
    ∃ (s : State) (watts avg : Nat), s.phasesFailed ≠ 2 :=
  ⟨idle, 600, 600, by decide +kernel⟩

theorem witness_AlarmsAndPowerControl_23 :
    ∃ (s : State) (watts avg : Nat), s.phasesFailed = 2 :=
  ⟨pmc_ (fun x => { x with phases := 3 }) idle, 600, 600, by decide +kernel⟩

theorem witness_AlarmsAndPowerControl_24 :
    ∃ (ceil cool j l jl ll : Nat), (jl < j ∨ ll < l) :=
  ⟨0, 0, 101, 95, 100, 95, by decide +kernel⟩

theorem witness_AlarmsAndPowerControl_25 :
    ∃ (ceil cool j l jl ll : Nat), j + 3 ≤ jl ∧ l + 3 ≤ ll ∧ 9 ≤ cool :=
  ⟨0, 9, 97, 92, 100, 95, by decide +kernel⟩

theorem witness_AlarmsAndPowerControl_26 :
    ∃ (ceil cool j l jl ll : Nat), j + 3 ≤ jl ∧ l + 3 ≤ ll ∧ cool < 9 :=
  ⟨0, 8, 97, 92, 100, 95, by decide +kernel⟩

theorem witness_AlarmsAndPowerControl_27 :
    ∃ (ceil cool j l jl ll : Nat), j ≤ jl ∧ l ≤ ll ∧ (jl < j + 3 ∨ ll < l + 3) :=
  ⟨0, 0, 98, 92, 100, 95, by decide +kernel⟩

theorem witness_AlarmsAndPowerControl_28 :
    ∃ (s : State) (island share : Nat), share ≤ 100 :=
  ⟨idle, 0, 100, by decide +kernel⟩

theorem witness_AlarmsAndPowerControl_29 :
    ∃ (s : State) (island share : Nat), 100 < share :=
  ⟨idle, 0, 101, by decide +kernel⟩

end Sys2Proof.Tests
end

