-- ==== Sys2Proof/Tests/Witness11.lean ====
section
/-! SUPPORT. Witnesses: for each clause of a statement, a state and operands that meet its hypotheses together (Witness11). -/

namespace Sys2Proof.Tests
open Sys2Proof Sys2Proof.Machine
set_option maxRecDepth 100000
set_option linter.unusedVariables false
set_option Elab.async false

def rg (k v : Nat) (s : State) : State := s.setReg k (w32 v)
def sec_ (f : Sec → Sec) (s : State) : State := { s with sec := f s.sec }
def tel_ (f : Tel → Tel) (s : State) : State := { s with tel := f s.tel }
def linked (s : State) : State := { s with net := { s.net with port := { s.net.port with link := .up8 } } }
/-- A session of peer 5 with every role. -/
def session_ : Session := ⟨1, 5, 0xFF, 1, [], [], 0, 0, 0⟩
def managed : State := sec_ (fun x => { x with sessions := [session_] }) idle
def guest : State := sec_ (fun x => { x with sessions := [{ session_ with roles := 0 }] }) idle
def opening_ (entry : Nat) : Opening := ⟨7, entry, [1, 2, 3, 4], 9, [], 0, false, [], [], [], [], [], [], false⟩
def opening (l : List Opening) : State := sec_ (fun x => { x with openings := l }) idle
def third : List Byte := [0, 0, 0, 7] ++ List.replicate 132 0
def tagged (b : Bool) : Sec := { sec0 with copyA := if b then ⟨[], 0, false⟩ else ⟨[1], 4, true⟩, copyB := if b then ⟨[1], 4, true⟩ else ⟨[], 0, false⟩, sessions := [session_] }
def tagState (b : Bool) : State := { idle with sec := tagged b }
def repair_ : Repair := ⟨.siloFence, 0, 1, none, 0, [], false, 0⟩
/-- A sender; a trace record of trace code 0x0100 of bay 1; peer 5 is down. -/
def src_ : NetEnd := ⟨[9, 9, 9, 9], 1000, [2, 0, 0, 0, 0, 9], 0, false⟩
def traced : List Byte := [2, 0, 1] ++ List.replicate 13 0 ++ [0, 1] ++ List.replicate 14 0
def tx0 (s : State) : State := s.setPeer 5 { Peer.fresh with down := true }
theorem longer (l : List Byte) : l ≠ l ++ [0] := fun h => by have := congrArg List.length h; simp at this
/-- A set that is not signed. -/
theorem witness_fwVerify_unsigned : ∃ (s : State) (p : Nat), s.MayManage p .admin ∧ fwSignatureGood (s.sec.slot s.sec.inactive) = false :=
  ⟨managed, 5, by decide +kernel⟩
/-- A set that is signed and new enough, or too old, would need a signature; a handover that begins, and one that may not. -/
theorem witness_fwHandover :
    (∃ (s : State) (p : Nat), s.MayManage p .admin ∧ s.tel.running = none ∧ (s.effectOf p 7).sec.verified = true ∧ (s.effectOf p 7).sec.onTrial = false ∧
      (s.effectOf p 7).standby ≠ none) ∧
    (∃ (s : State) (p : Nat), s.MayManage p .admin ∧ s.tel.running = none ∧
      ((s.effectOf p 7).sec.verified = false ∨ (s.effectOf p 7).sec.onTrial = true ∨ (s.effectOf p 7).standby = none)) :=
  ⟨⟨(sec_ (fun x => { x with verified := true }) managed).setCp 3 ⟨.standby, none, []⟩, 5, by decide +kernel⟩, ⟨managed, 5, by decide +kernel⟩⟩
/-- Export goes to peer 5, which is bound and linked. -/
def exporting (s : State) : State := rg Reg.TEL_CTRL 1 (rg Reg.EB_TELEM_PEER 0x80000005 (rg (peerWord 5 0) 1 (linked s)))
def ring_ (l : SquallLevel) (s : State) : State := s.setRing 0 { SubRing.laid 0 0 0 with level := l }
def cpIn (r : CpRole) (s : State) : State := s.setCp 3 ⟨r, none, []⟩
def untap : State := { idle with power := { idle.power with phase := .unpowered } }

theorem witness_SessionsOpenAndClose_1 :
    ∃ (s : State) (source : NetEnd) (address mac payload record : List Byte) (port tag : BitVec 16) (vlan : BitVec 12) (ipv6 : Bool), s.inService = false :=
  ⟨{ idle with power := { idle.power with phase := .restart } }, src_, [], [], [], [], 0, 0, 0, false, by decide +kernel⟩

theorem witness_SessionsOpenAndClose_2 :
    ∃ (s : State) (source : NetEnd) (tag : BitVec 16) (record : List Byte), ∃ c, s.inService = true ∧ s.claimFault record = some c :=
  ⟨idle, src_, 0, [], mgmtBadOp, by decide +kernel⟩

theorem witness_SessionsOpenAndClose_3 :
    ∃ (s : State) (source : NetEnd) (tag : BitVec 16) (record : List Byte), s.inService = true ∧ s.sec.roots ≠ [] :=
  ⟨idle, src_, 0, [], by decide +kernel⟩

theorem witness_SessionsOpenAndClose_4 :
    ∃ (s : State) (address mac payload : List Byte) (port tag : BitVec 16) (vlan : BitVec 12) (ipv6 : Bool), ∃ c, s.inService = true ∧ s.open1Fault address port ipv6 payload = some c :=
  ⟨idle, [], [], [], 0, 0, 0, false, mgmtBadOp, by decide +kernel⟩

theorem witness_SessionsOpenAndClose_5 :
    ∃ (s : State) (source : NetEnd) (tag : BitVec 16) (payload : List Byte), let named := s.sec.openings.find? fun o => o.id.toNat = beNat (payload.take 4)
      ∃ o c, s.inService = true ∧ named = some o ∧ payload.length = 136 ∧ s.open3Fault payload = some c :=
  ⟨opening [opening_ 5], src_, 0, third, opening_ 5, mgmtEntry, by decide +kernel⟩

theorem witness_SessionsOpenAndClose_6 :
    ∃ (s : State) (source : NetEnd) (tag : BitVec 16) (payload : List Byte), let named := s.sec.openings.find? fun o => o.id.toNat = beNat (payload.take 4)
      ∃ c, s.inService = true ∧ (named = none ∨ payload.length ≠ 136) ∧ s.open3Fault payload = some c :=
  ⟨idle, src_, 0, third, mgmtState, by decide +kernel⟩

theorem witness_SessionsOpenAndClose_7 :
    ∃ (s : State) (session : Word), (s.sec.openings.find? fun o => o.id = session) = none :=
  ⟨idle, 7, by decide +kernel⟩

theorem witness_SessionsOpenAndClose_8 :
    ∃ (s : State) (session : Word), ∃ o, (s.sec.openings.find? fun o => o.id = session) = some o :=
  ⟨opening [opening_ 5], 7, opening_ 5, by decide +kernel⟩

theorem witness_SessionsOpenAndClose_9 :
    ∃ (s : State) (peer : Fin 16384) (tag : BitVec 16), s.session peer.val = none :=
  ⟨idle, 16383, 0, by decide +kernel⟩

theorem witness_SessionsOpenAndClose_10 :
    ∃ (s : State) (peer : Fin 16384) (tag : BitVec 16), ∃ x, s.session peer.val = some x :=
  ⟨managed, 5, 0, session_, by decide +kernel⟩

theorem witness_ManagementOperations_1 :
    ∃ (s : State) (peer : Fin 16384) (tag : BitVec 16), ∃ (kind : Byte) (key : List Byte), s.MayManage peer.val .admin ∧ key.length = 133 ∧ kind = 0 ∧ s.sec.roots.length < 8 :=
  ⟨managed, 5, 0, 0, List.replicate 133 4, by decide +kernel⟩

theorem witness_ManagementOperations_2 :
    ∃ (s : State) (peer : Fin 16384) (tag : BitVec 16), ∃ (kind : Byte) (key : List Byte), s.MayManage peer.val .admin ∧ key.length = 133 ∧ kind = 1 ∧ s.sec.imageKeys.length < 8 :=
  ⟨managed, 5, 0, 1, List.replicate 133 4, by decide +kernel⟩

theorem witness_ManagementOperations_3 :
    ∃ (s : State) (peer : Fin 16384) (tag : BitVec 16), ∃ (kind : Byte) (key : List Byte), s.MayManage peer.val .admin ∧ key.length = 133 ∧ 1 < kind.toNat :=
  ⟨managed, 5, 0, 2, List.replicate 133 4, by decide +kernel⟩

theorem witness_ManagementOperations_4 :
    ∃ (s : State) (peer : Fin 16384) (tag : BitVec 16), ∃ (kind : Byte) (digest : List Byte), let rest := s.sec.roots.filter fun k => Config.sha512 k ≠ digest
      s.MayManage peer.val .admin ∧ kind = 0 ∧ digest.length = 64 ∧ rest = [] :=
  ⟨sec_ (fun x => { x with roots := [] }) managed, 5, 0, 0, List.replicate 64 0, by decide +kernel⟩

theorem witness_ManagementOperations_5 :
    ∃ (s : State) (peer : Fin 16384) (tag : BitVec 16), ∃ (floor : W64), s.MayManage peer.val .admin ∧ s.sec.certFloor.toNat ≤ floor.toNat :=
  ⟨managed, 5, 0, 0, by decide +kernel⟩

theorem witness_ManagementOperations_6 :
    ∃ (s : State) (peer : Fin 16384) (tag : BitVec 16), ∃ (floor : W64), s.MayManage peer.val .admin ∧ floor.toNat < s.sec.certFloor.toNat :=
  ⟨sec_ (fun x => { x with certFloor := 5 }) managed, 5, 0, 4, by decide +kernel⟩

theorem witness_ManagementOperations_7 :
    ∃ (s : State) (peer : Fin 16384) (tag : BitVec 16), ∃ (transmit : Bool) (an : Fin 4) (sak salt : List Byte) (ssci : Word) (sci pn : W64), s.MayManage peer.val .admin ∧ sak.length = 32 ∧ salt.length = 12 :=
  ⟨managed, 5, 0, true, 3, List.replicate 32 1, List.replicate 12 1, 0, 0, 0, by decide +kernel⟩

theorem witness_ManagementOperations_8 :
    ∃ (s : State) (peer : Fin 16384) (tag : BitVec 16), s.MayManage peer.val .admin :=
  ⟨managed, 5, 0, by decide +kernel⟩

theorem witness_ManagementOperations_9 :
    ∃ (s : State) (peer : Fin 16384) (tag : BitVec 16), ∃ (offset : BitVec 16) (data : List Byte), s.MayManage peer.val .admin ∧ offset.toNat + data.length ≤ 4096 :=
  ⟨managed, 5, 0, 4095, [1], by decide +kernel⟩

theorem witness_ManagementOperations_10 :
    ∃ (s : State) (peer : Fin 16384) (tag : BitVec 16), ∃ (offset : BitVec 16) (data : List Byte), s.MayManage peer.val .admin ∧ 4096 < offset.toNat + data.length :=
  ⟨managed, 5, 0, 4096, [1], by decide +kernel⟩

theorem witness_ManagementOperations_11 :
    ∃ (s : State) (peer : Fin 16384) (tag : BitVec 16), ∃ (expected : Word) (digest : List Byte), s.MayManage peer.val .admin ∧ expected ≠ s.sec.tagSeq :=
  ⟨tagState false, 5, 0, 5, [], by decide +kernel⟩

theorem witness_ManagementOperations_12 :
    ∃ (s : State) (peer : Fin 16384) (tag : BitVec 16), ∃ (expected : Word) (digest : List Byte), let data := s.sec.staging.getD s.sec.tagData
      s.MayManage peer.val .admin ∧ expected = s.sec.tagSeq ∧ Config.sha512 data ≠ digest :=
  ⟨tagState false, 5, 0, 4, Config.sha512 [1] ++ [0], by decide +kernel, by decide +kernel, longer _⟩

theorem witness_ManagementOperations_13 :
    ∃ (s : State) (peer : Fin 16384) (tag : BitVec 16), ∃ (expected : Word) (digest : List Byte), let data := s.sec.staging.getD s.sec.tagData
      s.MayManage peer.val .admin ∧ expected = s.sec.tagSeq ∧ Config.sha512 data = digest ∧ s.sec.validTag = some false :=
  ⟨tagState false, 5, 0, 4, Config.sha512 [1], by decide +kernel, by decide +kernel, rfl, by decide +kernel⟩

theorem witness_ManagementOperations_14 :
    ∃ (s : State) (peer : Fin 16384) (tag : BitVec 16), ∃ (expected : Word) (digest : List Byte), let data := s.sec.staging.getD s.sec.tagData
      s.MayManage peer.val .admin ∧ expected = s.sec.tagSeq ∧ Config.sha512 data = digest ∧ s.sec.validTag ≠ some false :=
  ⟨tagState true, 5, 0, 4, Config.sha512 [1], by decide +kernel, by decide +kernel, rfl, by decide +kernel⟩

theorem witness_ManagementOperations_15 :
    ∃ (s : State) (peer : Fin 16384) (tag : BitVec 16), ∃ (offset : Word) (data : List Byte), s.MayManage peer.val .admin ∧ s.sec.onTrial = true :=
  ⟨sec_ (fun x => { x with onTrial := true }) managed, 5, 0, 0, [], by decide +kernel⟩

theorem witness_ManagementOperations_16 :
    ∃ (s : State) (peer : Fin 16384) (tag : BitVec 16), ∃ (offset : Word) (data : List Byte), s.MayManage peer.val .admin ∧ s.sec.onTrial = false ∧ offset.toNat + data.length ≤ fwSlotSize :=
  ⟨managed, 5, 0, w32 fwSlotSize, [], by decide +kernel⟩

theorem witness_ManagementOperations_17 :
    ∃ (s : State) (peer : Fin 16384) (tag : BitVec 16), s.MayManage peer.val .admin :=
  ⟨managed, 5, 0, by decide +kernel⟩

theorem witness_ManagementOperations_18 :
    ∃ (s : State) (peer : Fin 16384) (tag : BitVec 16), s.MayManage peer.val .admin ∧ s.sec.verified = true :=
  ⟨sec_ (fun x => { x with verified := true }) managed, 5, 0, by decide +kernel⟩

theorem witness_ManagementOperations_19 :
    ∃ (s : State) (peer : Fin 16384) (tag : BitVec 16), s.MayManage peer.val .admin ∧ s.sec.verified = false :=
  ⟨managed, 5, 0, by decide +kernel⟩

theorem witness_ManagementOperations_20 :
    ∃ (s : State) (peer : Fin 16384) (tag : BitVec 16), s.MayManage peer.val .admin ∧ s.tel.running ≠ none :=
  ⟨tel_ (fun x => { x with running := some repair_ }) managed, 5, 0, by decide +kernel⟩

theorem witness_ManagementOperations_21 :
    ∃ (s : State) (peer : Fin 16384) (tag : BitVec 16), s.MayManage peer.val .admin :=
  ⟨managed, 5, 0, by decide +kernel⟩

theorem witness_ManagementOperations_22 :
    ∃ (s : State) (peer : Fin 16384) (tag : BitVec 16), s.MayManage peer.val .admin :=
  ⟨managed, 5, 0, by decide +kernel⟩

theorem witness_ManagementOperations_23 :
    ∃ (s : State) (peer : Fin 16384) (tag : BitVec 16) (n : Byte), let w := s.effectOf peer.val 7
      s.MayManage peer.val .configure ∧ s.tel.running = none ∧ w.channelFault n = none :=
  ⟨managed, 5, 0, 7, by decide +kernel⟩

theorem witness_ManagementOperations_24 :
    ∃ (s : State) (peer : Fin 16384) (tag : BitVec 16) (n : Byte), let w := s.effectOf peer.val 7
      ∃ c, s.MayManage peer.val .configure ∧ s.tel.running = none ∧ w.channelFault n = some c :=
  ⟨managed, 5, 0, 8, mgmtBadOp, by decide +kernel⟩

theorem witness_ManagementOperations_25 :
    ∃ (s : State) (peer : Fin 16384) (tag : BitVec 16) (n : Byte), s.MayManage peer.val .configure ∧ s.tel.running = none ∧ 7 < n.toNat :=
  ⟨managed, 5, 0, 8, by decide +kernel⟩

theorem witness_ManagementOperations_26 :
    ∃ (s : State) (peer : Fin 16384) (tag : BitVec 16) (n : Byte), let w := s.effectOf peer.val 7
      s.MayManage peer.val .configure ∧ s.tel.running = none ∧ n.toNat ≤ 7 ∧ bit w.power.training n.toNat = false :=
  ⟨managed, 5, 0, 7, by decide +kernel⟩

theorem witness_ManagementOperations_27 :
    ∃ (s : State) (peer : Fin 16384) (tag : BitVec 16) (n : Byte), let w := s.effectOf peer.val 7
      s.MayManage peer.val .configure ∧ s.tel.running = none ∧ w.channelFault n = none ∧ bit w.tiers.channelsOnline n.toNat = false :=
  ⟨managed, 5, 0, 7, by decide +kernel⟩

theorem witness_ManagementOperations_28 :
    ∃ (s : State) (peer : Fin 16384) (tag : BitVec 16) (n : Byte), s.MayManage peer.val .configure ∧ s.tel.running = none ∧ n.toNat ≤ 31 :=
  ⟨managed, 5, 0, 31, by decide +kernel⟩

theorem witness_ManagementOperations_29 :
    ∃ (s : State) (peer : Fin 16384) (tag : BitVec 16) (n : Byte), s.MayManage peer.val .configure ∧ s.tel.running = none ∧ 31 < n.toNat :=
  ⟨managed, 5, 0, 32, by decide +kernel⟩

theorem witness_ManagementOperations_30 :
    ∃ (s : State) (peer : Fin 16384) (tag : BitVec 16), ∃ (ring : Byte) (first count : Word), s.MayManage peer.val .read ∧ AMap.get? s.tel.rings ring.toNat ≠ none ∧ 1 ≤ count.toNat ∧ count.toNat ≤ 0x100000 ∧ (s.ring ring.toNat).level = .calm :=
  ⟨ring_ .calm managed, 5, 0, 0, 0, 1, by decide +kernel⟩

theorem witness_ManagementOperations_31 :
    ∃ (s : State) (peer : Fin 16384) (tag : BitVec 16), ∃ (ring : Byte) (first count : Word), s.MayManage peer.val .read ∧ AMap.get? s.tel.rings ring.toNat ≠ none ∧ 1 ≤ count.toNat ∧ count.toNat ≤ 0x100000 ∧ (s.ring ring.toNat).level ≠ .calm :=
  ⟨ring_ .coalesce managed, 5, 0, 0, 0, 0x100000, by decide +kernel⟩

theorem witness_ManagementOperations_32 :
    ∃ (s : State) (peer : Fin 16384) (tag : BitVec 16), ∃ (first : BitVec 16), s.MayManage peer.val .read :=
  ⟨managed, 5, 0, 0xFFFF, by decide +kernel⟩

theorem witness_ManagementOperations_33 :
    ∃ (s : State) (peer : Fin 16384) (tag : BitVec 16) (c : Instr) (op : Nat), ((c = .macsecClear peer tag ∧ op = 0x21) ∨ (c = .fwVerify peer tag ∧ op = 0x41) ∨ (c = .fwActivate peer tag ∧ op = 0x42) ∨
      (c = .fwHandover peer tag ∧ op = 0x60) ∨ (∃ row, c = .siloFence peer tag row ∧ op = 0x63 ∧ s.peerRole peer.val .configure = false)) ∧ s.session peer.val = none :=
  ⟨idle, 16383, 0, .macsecClear 16383 0, 0x21, .inl ⟨rfl, rfl⟩, by decide +kernel⟩

theorem witness_ManagementOperations_34 :
    ∃ (s : State) (peer : Fin 16384) (tag : BitVec 16) (c : Instr) (op : Nat), ((c = .macsecClear peer tag ∧ op = 0x21) ∨ (c = .fwVerify peer tag ∧ op = 0x41) ∨ (c = .fwActivate peer tag ∧ op = 0x42) ∨
      (c = .fwHandover peer tag ∧ op = 0x60) ∨ (∃ row, c = .siloFence peer tag row ∧ op = 0x63 ∧ s.peerRole peer.val .configure = false)) ∧ s.session peer.val ≠ none ∧ s.peerRole peer.val .admin = false :=
  ⟨guest, 5, 0, .siloFence 5 0 31, 0x63, .inr (.inr (.inr (.inr ⟨31, rfl, rfl, by decide +kernel⟩))), by decide +kernel, by decide +kernel⟩

theorem witness_TelemetryRepairAndTap_1 :
    ∃ (s : State) (record : List Byte), record.length ≠ 32 :=
  ⟨idle, [], by decide +kernel⟩

theorem witness_TelemetryRepairAndTap_2 :
    ∃ (s : State) (record : List Byte), record.length = 32 ∧ leAt record 0 1 = 1 :=
  ⟨idle, [1] ++ List.replicate 31 0, by decide +kernel⟩

theorem witness_TelemetryRepairAndTap_3 :
    ∃ (s : State) (record : List Byte), 
      let on := leAt record 2 1 < 16 ∧ 0x0100 ≤ leAt record 0x10 2 ∧ bit (s.reg Reg.TEL_TRACE_EN) (leAt record 2 1) = true ∧
        bit (s.reg Reg.TEL_TRACE_CODES) (leAt record 0x10 2 - 0x0100) = true
      record.length = 32 ∧ leAt record 0 1 = 2 ∧ on :=
  ⟨rg Reg.TEL_TRACE_EN 2 (rg Reg.TEL_TRACE_CODES 1 idle), traced, by decide +kernel⟩

theorem witness_TelemetryRepairAndTap_4 :
    ∃ (s : State) (record : List Byte), 
      let on := leAt record 2 1 < 16 ∧ 0x0100 ≤ leAt record 0x10 2 ∧ bit (s.reg Reg.TEL_TRACE_EN) (leAt record 2 1) = true ∧
        bit (s.reg Reg.TEL_TRACE_CODES) (leAt record 0x10 2 - 0x0100) = true
      record.length = 32 ∧ leAt record 0 1 = 2 ∧ ¬on :=
  ⟨idle, traced, by decide +kernel⟩

theorem witness_TelemetryRepairAndTap_5 :
    ∃ (s : State), let u := s.applyAll [Reg.TEL_CTRL, Reg.EB_BALE_MAX, Reg.EB_TELEM_PEER]
      (bit (u.reg Reg.TEL_CTRL) 0 = false ∨ u.telemPeer = none) :=
  ⟨idle, by decide +kernel⟩

theorem witness_TelemetryRepairAndTap_6 :
    ∃ (s : State), let u := s.applyAll [Reg.TEL_CTRL, Reg.EB_BALE_MAX, Reg.EB_TELEM_PEER]
      ∃ p, u.telemPeer = some p ∧ u.canSend p = false :=
  ⟨exporting (tx0 idle), 5, by decide +kernel⟩

theorem witness_TelemetryRepairAndTap_7 :
    ∃ (s : State), let u := s.applyAll [Reg.TEL_CTRL, Reg.EB_BALE_MAX, Reg.EB_TELEM_PEER]
      ∃ p, bit (u.reg Reg.TEL_CTRL) 0 = true ∧ u.telemPeer = some p ∧ u.canSend p = true ∧ ((u.vane.alarms.any fun e => e.2.mark) = true ∨ u.dueRing ≠ none) :=
  ⟨exporting { idle with vane := { idle.vane with alarms := [(0, ⟨1, 0, 1, 0, 0, 1, false, false, true⟩)] } }, 5, by decide +kernel⟩

theorem witness_TelemetryRepairAndTap_8 :
    ∃ (s : State), let u := s.applyAll [Reg.TEL_CTRL, Reg.EB_BALE_MAX, Reg.EB_TELEM_PEER]
      ∃ p y rest, bit (u.reg Reg.TEL_CTRL) 0 = true ∧ u.telemPeer = some p ∧ u.canSend p = true ∧ (u.vane.alarms.any fun e => e.2.mark) = false ∧ u.dueRing = none ∧ u.tel.replays = y :: rest :=
  ⟨exporting (tel_ (fun x => { x with replays := [⟨5, 0, 0, 1⟩] }) idle), 5, ⟨5, 0, 0, 1⟩, [], by decide +kernel⟩

theorem witness_TelemetryRepairAndTap_9 :
    ∃ (s : State), s.inService = true :=
  ⟨idle, by decide +kernel⟩

theorem witness_TelemetryRepairAndTap_10 :
    ∃ (s : State), s.inService = false :=
  ⟨untap, by decide +kernel⟩

theorem witness_TelemetryRepairAndTap_11 :
    ∃ (s : State), s.sec.erasing = false :=
  ⟨idle, by decide +kernel⟩

theorem witness_TelemetryRepairAndTap_12 :
    ∃ (s : State), s.sec.erasing = true ∧ s.power.resetN = false :=
  ⟨sec_ (fun x => { x with erasing := true }) { idle with power := { idle.power with resetN := false } }, by decide +kernel⟩

theorem witness_TelemetryRepairAndTap_13 :
    ∃ (s : State) (address : Nat), let u := s.applyStaged Reg.REP_POLICY
      s.backed address = true ∧ bit (u.reg Reg.REP_POLICY) 18 = true :=
  ⟨rg Reg.REP_POLICY 0x40000 idle, 0, by decide +kernel⟩

theorem witness_TelemetryRepairAndTap_14 :
    ∃ (s : State) (address : Nat), let u := s.applyStaged Reg.REP_POLICY
      s.backed address = true ∧ bit (u.reg Reg.REP_POLICY) 18 = false :=
  ⟨rg Reg.REP_POLICY 0 idle, 0, by decide +kernel⟩

theorem witness_TelemetryRepairAndTap_15 :
    ∃ (s : State) (address : Nat), s.backed address = false :=
  ⟨idle, 0xFFFFFFFFFFFF, by decide +kernel⟩

theorem witness_TelemetryRepairAndTap_16 :
    ∃ (s : State) (cp : Fin 4), (s.cp cp.val).state ≠ .booting :=
  ⟨cpIn .standby idle, 3, by decide +kernel⟩

theorem witness_TelemetryRepairAndTap_17 :
    ∃ (s : State) (cp : Fin 4), (s.cp cp.val).state = .booting ∧ s.tel.running = none :=
  ⟨cpIn .booting idle, 3, by decide +kernel⟩

theorem witness_TelemetryRepairAndTap_18 :
    ∃ (s : State) (peer : Option (Fin 16384)) (source : NetEnd) (nonce : List Byte) (flags : Byte), s.inService = true ∧ nonce.length ≠ 32 :=
  ⟨idle, none, src_, [], 0, by decide +kernel⟩

theorem witness_TelemetryRepairAndTap_19 :
    ∃ (s : State) (peer : Option (Fin 16384)) (source : NetEnd) (nonce : List Byte) (flags : Byte), let u := s.attestSecond
      s.inService = true ∧ nonce.length = 32 ∧ fld (u.reg Reg.SEC_ATTEST_RATE) 9 0 ≤ u.sec.quotes ∧ peer = none :=
  ⟨rg Reg.SEC_ATTEST_RATE 0 idle, none, src_, List.replicate 32 0, 0, by decide +kernel⟩

theorem witness_TelemetryRepairAndTap_20 :
    ∃ (s : State) (peer : Option (Fin 16384)) (source : NetEnd) (nonce : List Byte) (flags : Byte), let u := s.attestSecond
      ∃ p, s.inService = true ∧ nonce.length = 32 ∧ fld (u.reg Reg.SEC_ATTEST_RATE) 9 0 ≤ u.sec.quotes ∧ peer = some p :=
  ⟨rg Reg.SEC_ATTEST_RATE 0 idle, some 5, src_, List.replicate 32 0, 0, 5, by decide +kernel⟩

theorem witness_TelemetryRepairAndTap_21 :
    ∃ (s : State) (peer : Option (Fin 16384)) (source : NetEnd) (nonce : List Byte) (flags : Byte), let u := s.attestSecond
      s.inService = true ∧ nonce.length = 32 ∧ u.sec.quotes < fld (u.reg Reg.SEC_ATTEST_RATE) 9 0 ∧ peer = none :=
  ⟨idle, none, src_, List.replicate 32 0, 1, by decide +kernel⟩

theorem witness_TelemetryRepairAndTap_22 :
    ∃ (s : State) (peer : Option (Fin 16384)) (source : NetEnd) (nonce : List Byte) (flags : Byte), let u := s.attestSecond
      ∃ p, s.inService = true ∧ nonce.length = 32 ∧ u.sec.quotes < fld (u.reg Reg.SEC_ATTEST_RATE) 9 0 ∧ peer = some p :=
  ⟨idle, some 5, src_, List.replicate 32 0, 0, 5, by decide +kernel⟩

theorem witness_TelemetryRepairAndTap_23 :
    ∃ (s : State) (boundary : List Bool) (data : Word), s.tapLive = true :=
  ⟨idle, [], 0, by decide +kernel⟩

theorem witness_TelemetryRepairAndTap_24 :
    ∃ (s : State) (boundary : List Bool) (data : Word), s.tapLive = true ∧ (data ≠ 0x0000E5A5 ∨ s.power.resetN = true) :=
  ⟨idle, [], 0x0000E5A5, by decide +kernel⟩

theorem witness_TelemetryRepairAndTap_25 :
    ∃ (s : State) (boundary : List Bool) (data : Word), s.tapLive = true ∧ data = 0x0000E5A5 ∧ s.power.resetN = false :=
  ⟨{ idle with power := { idle.power with resetN := false } }, [], 0x0000E5A5, by decide +kernel⟩

theorem witness_TelemetryRepairAndTap_26 :
    ∃ (s : State) (boundary : List Bool) (data : Word), s.tapLive = false :=
  ⟨untap, [], 0, by decide +kernel⟩

theorem witness_CommandsThatStoreNothingKeepMemory :
    (∃ (c : Instr) (s t : State), ∃ (a len : Nat), storing c = false ∧ exec c s = .next t) ∧
    (∃ (c : Instr) (s t : State), storing c = false ∧ exec c s = .next t) :=
  ⟨⟨.pllLock 1, idle, _, 0x1000, 64, rfl, rfl⟩,
   ⟨.pllLock 1, idle, _, rfl, rfl⟩⟩

theorem witness_StepKeepsMemoryCanonical :
    (∃ (s t : State), s.MemoryCanonical ∧ step s = .next t) :=
  ⟨idle, _, by decide +kernel, rfl⟩

theorem witness_StepNeverChangesFuses :
    (∃ (s t : State), step s = .next t) :=
  ⟨idle, _, rfl⟩

end Sys2Proof.Tests
end

section
/-! How a step takes the front of the queue (01 R24; the tick on an empty queue is log 1). -/

namespace Sys2Proof.Machine

theorem step_eq_exec_of_pending_cons {c : Instr} {rest : List Instr} {s : State} (h : s.pending = c :: rest) :
    step s = exec c { s with pending := rest } := by
  unfold step
  rw [h]

theorem step_eq_tick_of_pending_nil {s : State} (h : s.pending = []) : step s = .next (tick s) := by
  unfold step
  rw [h]

/-- Settles O1, by the two cases of the queue: a front command, or none. -/
theorem stepRunsFrontCommand : Obligations.StepRunsFrontCommand :=
  ⟨fun _ _ _ hfront => step_eq_exec_of_pending_cons hfront, fun _ hempty => step_eq_tick_of_pending_nil hempty⟩

end Sys2Proof.Machine
end

section
/-! The answer of an accepted guarded command (12 R290, R301), and of one whose guard has closed. -/

namespace Sys2Proof.Machine

variable {c : Instr} {s t : State} {src : Source} {key : Nat} {v : Word} {op : State → State}

/-- An accepted command of a command register ends in what its effect makes of the commanded state. -/
theorem exec_of_cmdWrite (hc : exec c s = s.done (s.cmdWrite src key v op)) (h : s.MayCommand src key)
    (ht : op (s.Commanded src key v) = t) : exec c s = .next (settle s t) := by
  rw [hc, cmdWrite_of_mayCommand h, ht, State.done]

/-- An accepted guarded write ends in what its effect makes of the state with the guard closed. -/
theorem exec_of_rkWrite (hc : exec c s = s.done (s.rkWrite src key op)) (h : s.MayCommand src key)
    (ht : op (s.closeGuard src) = t) : exec c s = .next (settle s t) := by
  rw [hc, rkWrite_of_mayCommand h, ht, State.done]

/-- A guarded write after the source's guard has closed is refused and counted (12 R301). -/
theorem exec_of_rkWrite_closed (hc : exec c (s.closeGuard src) = (s.closeGuard src).done ((s.closeGuard src).rkWrite src key op))
    (hwf : AMap.wf s.guards = true) (h : s.MayWrite src key) :
    exec c (s.closeGuard src) = .next (settle (s.closeGuard src) ((s.closeGuard src).count16 Reg.HUB_GUARD_REFUSED)) := by
  have hw : (s.closeGuard src).MayWrite src key := h
  have hclosed : (s.closeGuard src).guard src = none := AMap.get?_erase_same (sourceId src) hwf
  have hg : ¬ (s.closeGuard src).GuardHeld src key := by rw [State.GuardHeld, hclosed]; nofun
  rw [hc, rkWrite_of_not_held hw hg, State.done]

end Sys2Proof.Machine
end

section
/-! What each command of `CFG_CMD` does to the loader, by the loader's state (02 R41, R43 to R45). -/

namespace Sys2Proof.Machine

variable {s : State}

theorem State.cfgLoadOp_of_idle (h : s.loader.state = .idle) (hm : s.loader.move = none) (hr : s.tiers.rowsOffline ≠ 0xFFFFFFFF#32) :
    s.cfgLoadOp = { s.unlatch Reg.CFG_EVENT_STATUS 0 with
      loader := { s.loader with state := .receiving, op := .none, errCode := 0, errSection := 0, errBay := 0 } } := by
  simp only [State.cfgLoadOp, h, hm, hr, reduceCtorEq, ne_eq, not_true_eq_false, decide_false, Option.isSome_none, Bool.or_self,
    Bool.false_eq_true, if_false]

theorem State.cfgLoadOp_of_busy (hi : s.loader.state ≠ .idle) (hr : s.loader.state ≠ .rejected) : s.cfgLoadOp = s.cfgRefuse 0x0E 0 := by
  simp only [State.cfgLoadOp, hi, hr, ne_eq, not_false_eq_true, decide_true, Bool.true_or, if_false, if_true]

theorem State.cfgCommitOp_of_staged (h : s.loader.state = .staged) (hm : s.loader.move = none) :
    s.cfgCommitOp = s.requestLulls s.loadLulls := by
  simp only [State.cfgCommitOp, h, hm, ne_eq, not_true_eq_false, decide_false, Option.isSome_none, Bool.or_self, Bool.false_eq_true,
    if_false]

/-- The loader in LULLING, waiting for a set of bays (02 R43). -/
def State.lullingFor (s : State) (set : BitVec 16) : State :=
  { s with loader := { s.loader with state := .lulling, phase := .waitLull, op := { s.loader.op with lullSet := set } } }

theorem bit_zero {n : Nat} (i : Nat) : bit (0 : BitVec n) i = false := BitVec.getLsbD_zero

theorem State.requestLulls_zero (s : State) : s.requestLulls 0 = (s.lullingFor 0).loaderGoesOn := by
  have hnone : ((List.range 16).filter fun b => bit (0 : BitVec 16) b) = [] :=
    List.filter_eq_nil_iff.mpr fun b _ => by rw [bit_zero]; nofun
  unfold State.requestLulls
  rw [hnone]
  rfl

theorem State.lullsReached_of_none (h : s.loader.op.lullSet = 0) : s.lullsReached = true :=
  List.all_eq_true.mpr fun b _ => by rw [h, bit_zero, Bool.not_false, Bool.true_or]

theorem State.loaderGoesOn_of_reached (h : s.loader.state = .lulling) (hm : s.loader.move = none) (hr : s.lullsReached = true) :
    s.loaderGoesOn = s.beginCommit := by
  simp only [State.loaderGoesOn, h, hm, hr, ne_eq, not_true_eq_false, decide_false, Bool.not_true, Bool.or_self, Bool.false_eq_true,
    if_false]

/-- The record of the commit does not depend on whether a staged load still waits for bays. -/
theorem State.nextRecord_lullingFor (h : s.loader.state = .staged) (set : BitVec 16) : (s.lullingFor set).nextRecord = s.nextRecord := by
  have hcarried : (decide (s.loader.state = .lulling) || decide (s.loader.state = .staged)) = true := by rw [h]; rfl
  unfold State.nextRecord
  dsimp only
  rw [if_pos hcarried]
  rfl

/-- With no bay to wait for, a staged load goes straight on to its commit, on the record that the staged state gives. -/
theorem State.requestLulls_zero_of_staged (h : s.loader.state = .staged) (hm : s.loader.move = none) :
    s.requestLulls 0 = { s with loader := { s.loader with
      state := .applying, phase := .copyA, op := { s.loader.op with lullSet := 0 }, newRecord := s.nextRecord } } := by
  rw [State.requestLulls_zero, State.loaderGoesOn_of_reached (s := s.lullingFor 0) rfl hm (State.lullsReached_of_none (s := s.lullingFor 0) rfl),
    State.beginCommit, State.nextRecord_lullingFor h]
  rfl

theorem State.cfgCommitOp_of_no_bay (h : s.loader.state = .staged) (hm : s.loader.move = none) (hz : s.loadLulls = 0) :
    s.cfgCommitOp = { s with loader := { s.loader with
      state := .applying, phase := .copyA, op := { s.loader.op with lullSet := 0 }, newRecord := s.nextRecord } } := by
  rw [State.cfgCommitOp_of_staged h hm, hz, State.requestLulls_zero_of_staged h hm]

theorem State.cfgAckOp_of_rejected (h : s.loader.state = .rejected) : s.cfgAckOp = { s with loader := { s.loader with state := .idle } } := by
  simp only [State.cfgAckOp, h, if_true]

theorem State.cfgAbortOp_of_rejected (h : s.loader.state = .rejected) : s.cfgAbortOp = { s with loader := { s.loader with state := .idle } } := by
  simp only [State.cfgAbortOp, State.cfgAckOp_of_rejected h, h]

theorem State.cfgAbortOp_of_idle_or_applying (h : s.loader.state = .idle ∨ s.loader.state = .applying) : s.cfgAbortOp = s := by
  rcases h with h | h <;> simp only [State.cfgAbortOp, h]

theorem State.cfgAbortOp_of_staged_or_lulling (h : s.loader.state = .staged ∨ s.loader.state = .lulling) :
    s.cfgAbortOp = s.endLoad 0x0F 0 := by
  rcases h with h | h <;> simp only [State.cfgAbortOp, h]

/-- A load that is not yet staged gives back neither a move nor a bay in lull. -/
theorem State.cfgAbortOp_of_unstaged (h : s.loader.state = .receiving ∨ s.loader.state = .verifying) :
    s.cfgAbortOp = { s with loader := s.loader.fail 0x0F 0 0 } := by
  rcases h with h | h <;> simp only [State.cfgAbortOp, State.endLoad, h]

theorem State.cfgResumeOp_of_none_held (h : s.loader.state ≠ .rejected) (hb : ∀ b, (s.bay b).lullRestart = false) :
    s.cfgResumeOp = { s with loader := { s.loader with resumeWait := false } } := by
  have hbays : ∀ b, (({ s with loader := { s.loader with resumeWait := false } } : State).bay b).lullRestart = false := hb
  have hnone : ((List.range 16).filter fun _ => false) = [] := List.filter_eq_nil_iff.mpr fun _ _ => Bool.false_ne_true
  simp only [State.cfgResumeOp, h, hbays, hnone, List.foldl_nil, if_false]

theorem State.cfgResumeOp_of_one_held {b : Nat} (h : s.loader.state ≠ .rejected) (hlt : b < 16)
    (hb : ∀ c, (s.bay c).lullRestart = decide (c = b)) :
    s.cfgResumeOp = ({ s with loader := { s.loader with resumeWait := false } } : State).liftLull b
      fun y => { y with lullRestart := false } := by
  have hbays : ∀ c, (({ s with loader := { s.loader with resumeWait := false } } : State).bay c).lullRestart = decide (c = b) := hb
  have honly : ((List.range 16).filter fun c => decide (c = b)) = [b] := by
    rw [List.filter_eq, List.count_range, if_pos hlt, List.replicate_one]
  simp only [State.cfgResumeOp, h, hbays, honly, List.foldl_cons, List.foldl_nil, if_false]

/-- Settles O14: each command is accepted, and acts by the loader's state. -/
theorem loaderCommands : Obligations.LoaderCommands := by
  refine ⟨?loadIdle, ?loadBusy, ?commitNoBay, ?commit, ?abortUnstaged, ?abortStaged, ?abortNothing, ?ack, ?resumeNone, ?resumeOne⟩
  case loadIdle => exact fun s src h hi hm hr => exec_of_cmdWrite rfl h (State.cfgLoadOp_of_idle hi hm hr)
  case loadBusy => exact fun s src h hi hr => exec_of_cmdWrite rfl h (State.cfgLoadOp_of_busy hi hr)
  case commitNoBay => exact fun s src h hs hm hz => exec_of_cmdWrite rfl h (State.cfgCommitOp_of_no_bay hs hm hz)
  case commit => exact fun s src h hs hm => exec_of_cmdWrite rfl h (State.cfgCommitOp_of_staged hs hm)
  case abortUnstaged => exact fun s src h hs => exec_of_cmdWrite rfl h (State.cfgAbortOp_of_unstaged hs)
  case abortStaged => exact fun s src h hs => exec_of_cmdWrite rfl h (State.cfgAbortOp_of_staged_or_lulling hs)
  case abortNothing => exact fun s src h hs => exec_of_cmdWrite rfl h (State.cfgAbortOp_of_idle_or_applying hs)
  case ack =>
    exact fun s src h hs => ⟨exec_of_cmdWrite rfl h (State.cfgAckOp_of_rejected hs),
      exec_of_cmdWrite rfl h (State.cfgAbortOp_of_rejected hs)⟩
  case resumeNone => exact fun s src h hs hb => exec_of_cmdWrite rfl h (State.cfgResumeOp_of_none_held hs hb)
  case resumeOne => exact fun s src b hlt h hs hb => exec_of_cmdWrite rfl h (State.cfgResumeOp_of_one_held hs hlt hb)

end Sys2Proof.Machine
end

section
/-! The serial floor (02 R52): the pair takes effect with its low half, and never lowers the floor. -/

namespace Sys2Proof.Machine

variable {s : State} {hi lo : Word}

theorem State.floorOp_of_raised (hh : s.loader.floorHi = some hi) (h : s.loader.floor.toNat ≤ (pair lo hi).toNat) :
    s.floorOp lo = { s with loader := { s.loader with floorHi := none, floor := pair lo hi } } := by
  simp only [State.floorOp, hh, Option.getD_some, Nat.not_lt.mpr h, if_false]

theorem State.floorOp_of_below (hh : s.loader.floorHi = some hi) (h : (pair lo hi).toNat < s.loader.floor.toNat) :
    s.floorOp lo = { s with loader := { s.loader with floorHi := none } } := by
  simp only [State.floorOp, hh, Option.getD_some, h, if_true]

/-- Settles O15: an accepted half acts once, on the state with its guard closed; the next half needs a new opening. -/
theorem serialFloorRises : Obligations.SerialFloorRises := by
  refine ⟨?high, ?raised, ?below, ?closed⟩
  case high => exact fun s src v h => exec_of_rkWrite rfl h rfl
  case raised => exact fun s src hi lo h hh hle => exec_of_rkWrite rfl h (State.floorOp_of_raised hh hle)
  case below => exact fun s src hi lo h hh hlt => exec_of_rkWrite rfl h (State.floorOp_of_below hh hlt)
  case closed =>
    intro s src v hwf h
    -- Both halves stand in the loader's block, under one role.
    have hHigh : s.MayWrite src Reg.CFG_SERIAL_FLOOR_HI := h
    exact ⟨exec_of_rkWrite_closed rfl hwf h, exec_of_rkWrite_closed rfl hwf hHigh⟩

end Sys2Proof.Machine
end

section
/-! What a record for the hub changes (15 R355, R358, R362): telemetry and its counters, none of the machine's work. -/

namespace Sys2Proof.Machine

/-- The states differ in telemetry, register values and latched status bits alone. -/
def State.SameButTelemetry (s t : State) : Prop := t = { s with regs := t.regs, latches := t.latches, tel := t.tel }

namespace State.SameButTelemetry

variable {s t u : State}

theorem refl (s : State) : s.SameButTelemetry s := rfl

theorem trans (h : s.SameButTelemetry t) (k : t.SameButTelemetry u) : s.SameButTelemetry u := by
  unfold State.SameButTelemetry at *
  rw [k, h]

theorem loader (h : s.SameButTelemetry t) : t.loader = s.loader := by rw [h]
theorem mem (h : s.SameButTelemetry t) : t.mem = s.mem := by rw [h]
theorem insts (h : s.SameButTelemetry t) : t.insts = s.insts := by rw [h]

end State.SameButTelemetry

theorem State.setRing_sameButTelemetry (s : State) (r : Nat) (x : SubRing) : s.SameButTelemetry (s.setRing r x) := rfl

theorem State.countWrap_sameButTelemetry (s : State) (key n : Nat) : s.SameButTelemetry (s.countWrap key n) := rfl

theorem State.setLevel_sameButTelemetry (s : State) (r : Nat) (level : SquallLevel) : s.SameButTelemetry (s.setLevel r level) := by
  unfold State.setLevel
  dsimp only
  split
  · exact (State.setRing_sameButTelemetry s r _).trans (State.countWrap_sameButTelemetry _ _ _)
  · exact State.setRing_sameButTelemetry s r _

theorem State.checkEnter_sameButTelemetry (s : State) (r : Nat) : s.SameButTelemetry (s.checkEnter r) := by
  unfold State.checkEnter
  dsimp only
  split
  · exact State.setLevel_sameButTelemetry s r _
  · split
    · exact State.setLevel_sameButTelemetry s r _
    · exact .refl s

theorem State.hubTake_sameButTelemetry (s : State) (trace : Bool) (bay code unit : Nat) (arg1 : W64) (bytes : Bytes) :
    s.SameButTelemetry (s.hubTake trace bay code unit arg1 bytes) := by
  unfold State.hubTake
  refine State.SameButTelemetry.trans ?_ (State.checkEnter_sameButTelemetry _ _)
  dsimp only
  repeat' split
  all_goals rfl

theorem State.log_sameButTelemetry (s : State) (bay code unit : Nat) (arg0 : Word) (arg1 : Nat) :
    s.SameButTelemetry (s.log bay code unit arg0 arg1) := State.hubTake_sameButTelemetry s _ _ _ _ _ _

theorem State.repairShown_sameButTelemetry (s : State) (kind : RepairKind) (target step result : Nat) :
    s.SameButTelemetry (s.repairShown kind target step result) := rfl

theorem State.moveLog_sameButTelemetry (s : State) (m : MoveOp) (code : Nat) : s.SameButTelemetry (s.moveLog m code) :=
  (State.repairShown_sameButTelemetry s _ _ _ _).trans (State.log_sameButTelemetry _ _ _ _ _ _)

end Sys2Proof.Machine
end

section
/-! A bay move, step by step (02 R47, R48). -/

namespace Sys2Proof.Machine

variable {s : State} {m : MoveOp} {sp : Nat}

/-- A move that is not joined to a load, and that nothing forbids, powers the spare of its core's die. -/
theorem State.moveOp_of_free {bay core : Nat} (hi : s.loader.state = .idle) (hm : s.loader.move = none)
    (hb : (s.bayCores bay).contains core = true) (ha : s.coreActive core = true)
    (hsub : substituted s.loader.record (core / 9) = none) (hf : bit s.loader.spareFailed (core / 9) = false)
    (hsp : s.spareOf (core / 9) = some sp) :
    s.moveOp bay core false = { (s.setCore sp { s.core sp with movePowered := true }).unlatch Reg.CFG_EVENT_STATUS 0 with
      loader := { s.loader with
        move := some ⟨bay, core, false, .selfTest⟩, op := .none, errCode := 0, errSection := 0, errBay := 0 } } := by
  unfold State.moveOp
  simp only [hi, hm, hb, ha, hsub, hf, hsp, reduceCtorEq, ne_eq, not_true_eq_false, decide_false, Option.isSome_none, Bool.false_and,
    Bool.not_true, Bool.or_self, Bool.false_eq_true, if_false]

theorem State.selfTested_of_pass (hm : s.loader.move = some m) (hs : m.step = .selfTest) :
    s.selfTested true = ({ s.setCore m.core { s.core m.core with moveFenced := true } with
        loader := { s.loader with move := some { m with step := .lull } } } : State).requestLulls
      ((if m.joined then s.loadLulls else 0) ||| (1#16 <<< m.bay)) := by
  simp only [State.selfTested, hm, hs, ne_eq, not_true_eq_false, if_false, if_true]
  rfl

theorem State.selfTested_of_fail (hm : s.loader.move = some m) (hs : m.step = .selfTest) :
    let u := (s.moveLog m 0x0D).dropMove
    s.selfTested false = ({ u with loader := { u.loader with
      spareFailed := u.loader.spareFailed ||| (1#4 <<< (m.core / 9)) } } : State).cfgRefuse 0x0D m.bay := by
  simp only [State.selfTested, hm, hs, ne_eq, not_true_eq_false, Bool.false_eq_true, if_false]

/-- A move given up before its core's contexts went over leaves every part of the state but the cores and the move itself. -/
theorem State.dropMove_of_not_weights (hm : s.loader.move = some m) (hs : m.step ≠ .weights) :
    s.dropMove = { s with cores := s.dropMove.cores, loader := { s.loader with move := none } } := by
  unfold State.dropMove
  rw [hm]
  dsimp only
  split
  · rfl
  · simp only [hs, decide_false, Bool.false_and, Bool.false_eq_true, if_false]
    rfl

theorem State.moveCopied_of_still (hm : s.loader.move = some m) (hs : m.step = .copy) (hf : s.coreInFlight m.core = false)
    (hsp : s.spareOf (m.core / 9) = some sp) :
    s.moveCopied = { s.carryCore m.core sp with loader := { s.loader with move := some { m with step := .weights } } } := by
  simp only [State.moveCopied, hm, hs, hf, hsp, ne_eq, not_true_eq_false, decide_false, Bool.or_self, Bool.false_eq_true, if_false]
  rfl

theorem exec_moveWeightsDone_of_weights (hm : s.loader.move = some m) (hs : m.step = .weights) :
    exec .moveWeightsDone s = .next (settle s { s with loader := { s.loader with
      newRecord := s.nextRecord, state := .applying, phase := .copyA, move := some { m with step := .commit } } }) := by
  change execMoveWeightsDone s = _
  simp only [execMoveWeightsDone, hm, hs, if_true]
  rfl

theorem exec_moveWeightsDone_of_no_move (hm : s.loader.move = none) : exec .moveWeightsDone s = .next (settle s s) := by
  change execMoveWeightsDone s = _
  simp only [execMoveWeightsDone, hm]
  rfl

theorem State.selfTested_of_no_move (hm : s.loader.move = none) (pass : Bool) : s.selfTested pass = s := by
  simp only [State.selfTested, hm]

theorem State.moveCopied_of_no_move (hm : s.loader.move = none) : s.moveCopied = s := by
  simp only [State.moveCopied, hm]

/-- Settles O18: each step of the move acts at its own stage, and the refused spare leaves memory and the instances. -/
theorem bayMovesInSteps : Obligations.BayMovesInSteps := by
  refine ⟨?move, ?pass, ?fail, ?copy, ?weights, ?noMove⟩
  case move =>
    intro s src bay core sp h hi hm hb ha hsub hf hsp
    exact exec_of_cmdWrite rfl h (State.moveOp_of_free hi hm hb ha hsub hf hsp)
  case pass => exact fun s m hm hs => congrArg s.done (State.selfTested_of_pass hm hs)
  case fail =>
    intro s m hm hs
    have hlog := State.moveLog_sameButTelemetry s m 0x0D
    have hmove : (s.moveLog m 0x0D).loader.move = some m := by rw [hlog.loader, hm]
    have hfailed : (s.moveLog m 0x0D).loader.spareFailed = s.loader.spareFailed := by rw [hlog.loader]
    have hdrop := State.dropMove_of_not_weights hmove (by rw [hs]; nofun)
    refine ⟨_, congrArg s.done (State.selfTested_of_fail hm hs), ?_⟩
    rw [hdrop]
    exact ⟨rfl, rfl, rfl, congrArg (· ||| (1#4 <<< (m.core / 9))) hfailed, hlog.mem, hlog.insts⟩
  case copy => exact fun s m sp hm hs hf hsp => congrArg s.done (State.moveCopied_of_still hm hs hf hsp)
  case weights => exact fun s m hm hs => exec_moveWeightsDone_of_weights hm hs
  case noMove =>
    exact fun s pass hm => ⟨congrArg s.done (State.selfTested_of_no_move hm pass), congrArg s.done (State.moveCopied_of_no_move hm),
      exec_moveWeightsDone_of_no_move hm⟩

end Sys2Proof.Machine
end

section
/-! Lull as it is requested, reached and released (02 R43). -/

namespace Sys2Proof.Machine

variable {s : State} {b : Nat}

theorem State.lullBit_on_of_free (hl : s.lullLocked b = false) (hd : (s.bayDef b).isSome = true) :
    s.lullBit b true = s.askLull b fun y => { y with lullHost := true } := by
  simp only [State.lullBit, hl, Option.isNone_eq_false_iff.mpr hd, Bool.or_self, Bool.false_eq_true, if_false, if_true]

theorem State.lullBit_off_of_free (hl : s.lullLocked b = false) (hd : (s.bayDef b).isSome = true) :
    s.lullBit b false = s.liftLull b fun y => { y with lullHost := false } := by
  simp only [State.lullBit, hl, Option.isNone_eq_false_iff.mpr hd, Bool.or_self, Bool.false_eq_true, if_false]

/-- A further reason for a lull that is wanted already is noted, and dispatch does not stop again. -/
theorem State.askLull_of_wanted (h : (s.bay b).lullWanted = true) (f : Bay → Bay) : s.askLull b f = s.setBay b (f (s.bay b)) := by
  simp only [State.askLull, h, Bool.true_or, if_true]

theorem State.reachLull_of_unwanted (h : (s.bay b).lullWanted = false) : s.reachLull b = s := by
  simp only [State.reachLull, h, Bool.not_false, Bool.true_or, if_true]

theorem State.reachLull_of_quiet (hw : (s.bay b).lullWanted = true) (hl : (s.bay b).lulled = false) (hd : (s.bayDef b).isSome = true)
    (hlc : (s.enterLull b).lcWork b = false) (hbe : (s.enterLull b).beOnCore b = false) (hst : (s.enterLull b).storeDue b = false) :
    s.reachLull b = (s.enterLull b).setBay b { (s.enterLull b).bay b with lulled := true } := by
  simp only [State.reachLull, hw, hl, Option.isNone_eq_false_iff.mpr hd, hlc, hbe, hst, Bool.not_true, Bool.or_self, Bool.false_eq_true,
    if_false]

theorem exec_bayLullReached (s : State) (bay : Fin 16) :
    exec (.bayLullReached bay) s = .next (settle s (((s.reachLull bay.val).reapplyAtLull bay.val).loaderGoesOn)) := rfl

/-- Settles O19: a request asks for lull or notes its reason, a release lifts it, and a quiet bay reports it. -/
theorem lullRequestedReachedReleased : Obligations.LullRequestedReachedReleased := by
  refine ⟨?asked, ?askedAgain, ?reached, ?unwanted⟩
  case asked =>
    exact fun s src bay h hl hd => ⟨exec_of_rkWrite rfl h (State.lullBit_on_of_free (s := s.closeGuard src) hl hd),
      exec_of_rkWrite rfl h (State.lullBit_off_of_free (s := s.closeGuard src) hl hd)⟩
  case askedAgain =>
    intro s src bay h hw hl hd _
    refine exec_of_rkWrite rfl h ?_
    rw [State.lullBit_on_of_free (s := s.closeGuard src) hl hd, State.askLull_of_wanted (s := s.closeGuard src) hw]
    rfl
  case reached =>
    intro s bay hw hl hd hlc hbe hst
    rw [exec_bayLullReached, State.reachLull_of_quiet hw hl hd hlc hbe hst]
  case unwanted =>
    intro s bay hw
    rw [exec_bayLullReached, State.reachLull_of_unwanted hw]

end Sys2Proof.Machine
end

section
/-! The answer of an accepted write that needs no guard (12 R301), and what it leaves of the state. -/

namespace Sys2Proof.Machine

variable {c : Instr} {s t : State} {src : Source} {key : Nat} {op : State → State}

/-- An accepted write without a guard ends in what its effect makes of the state with the source's guard of the block closed. -/
theorem exec_of_plainWrite (hc : exec c s = s.done (s.plainWrite src key op)) (h : s.MayWrite src key)
    (ht : op (s.Entered src key) = t) : exec c s = .next (settle s t) := by
  rw [hc, plainWrite_of_mayWrite h, ht, State.done]

@[simp] theorem State.Entered_trans (s : State) (src : Source) (key : Nat) : (s.Entered src key).trans = s.trans := by
  rw [State.Entered, State.writeCloses_eq]

@[simp] theorem State.Entered_reg (s : State) (src : Source) (key k : Nat) : (s.Entered src key).reg k = s.reg k := by
  rw [State.Entered, State.writeCloses_eq]
  rfl

@[simp] theorem State.Entered_reg64 (s : State) (src : Source) (key lo hi : Nat) : (s.Entered src key).reg64 lo hi = s.reg64 lo hi := by
  simp only [State.reg64, State.Entered_reg]

end Sys2Proof.Machine
end

section
/-! One translation on its own (03 R66, R81, R82). -/

namespace Sys2Proof.Machine

/-- The requesters that work for no sheaf: a fault of theirs holds no program and aborts nothing. -/
def OutsideSheaf (who : Requester) : Prop := who = .rdma ∨ who = .bale ∨ who = .batcher ∨ who = .audio

variable {s t : State} {b va holder level : Nat} {write : Bool} {who : Requester} {cause : FaultCause} {entry : W64}

theorem exec_tableWalk (s : State) (bay : Fin 16) (va : W64) (write : Bool) (who : Requester) (holder : Nat) :
    exec (.tableWalk bay va write who holder) s = .next (settle s (s.tableWalk bay.val va.toNat write who holder)) := rfl

theorem State.tableWalk_of_ok {x : Translation} (h : s.translate b va write (s.engineOf who holder) = (t, .ok x)) :
    s.tableWalk b va write who holder = t := by
  simp only [State.tableWalk, h]

theorem State.tableWalk_of_fault (hw : who ≠ .dispatcher)
    (h : s.translate b va write (s.engineOf who holder) = (t, .error (cause, level, entry))) :
    s.tableWalk b va write who holder = t.takeFault b va write (s.engineOf who holder) cause level entry (s.holderOf who holder) := by
  simp only [State.tableWalk, h, hw, if_false]

theorem State.tableWalk_of_dispatcher_fault
    (h : s.translate b va write (s.engineOf .dispatcher holder) = (t, .error (cause, level, entry))) :
    s.tableWalk b va write .dispatcher holder = t := by
  simp only [State.tableWalk, h, if_true]

/-- A fault of a requester outside the sheaves has no effect but its record. -/
theorem State.takeFault_of_outside_sheaf (hw : OutsideSheaf who) (s u : State) (en : Engine) :
    s.takeFault b va write en cause level entry (u.holderOf who holder) =
      (s.raiseFault b va write en cause level entry (u.holderOf who holder)).1 := by
  rcases hw with rfl | rfl | rfl | rfl <;> simp only [State.takeFault, State.holderOf, State.holdProgram, ite_self]

/-- Settles O22, by what the translation answers: a leaf, a fault that posts none, or a fault of a requester outside the sheaves. -/
theorem tableWalksTranslateOrFault : Obligations.TableWalksTranslateOrFault := by
  refine ⟨?translated, ?dispatcher, ?faulted⟩
  case translated =>
    intro s t bay va write who holder x h
    rw [exec_tableWalk, State.tableWalk_of_ok h]
  case dispatcher =>
    intro s t bay va write holder level cause entry h
    rw [exec_tableWalk, State.tableWalk_of_dispatcher_fault h]
  case faulted =>
    intro s t bay va write who holder level cause entry hw h
    have hd : who ≠ .dispatcher := by rcases hw with rfl | rfl | rfl | rfl <;> nofun
    rw [exec_tableWalk, State.tableWalk_of_fault hd h, State.takeFault_of_outside_sheaf hw]

end Sys2Proof.Machine
end

section
/-! Row repair and refresh of a loft (03 R55, R56). -/

namespace Sys2Proof.Machine

variable {s : State} {die bank row used : Nat}

theorem State.remapRow_of_spare (hu : AMap.getD s.tiers.spareUsed (bankKey die bank) 0 = used)
    (h : used < Config.spareRows (bankKey die bank)) :
    s.remapRow die bank row = { s with tiers := { s.tiers with
      spareUsed := AMap.set s.tiers.spareUsed (bankKey die bank) (used + 1)
      remapped := s.tiers.remapped ++ [(die, bank, row)]
      spareOut := if used + 1 = Config.spareRows (bankKey die bank) then setInsert s.tiers.spareOut (bankKey die bank)
        else s.tiers.spareOut } } := by
  have hlast : (used + 1 ≥ Config.spareRows (bankKey die bank)) = (used + 1 = Config.spareRows (bankKey die bank)) :=
    propext ⟨fun hge => Nat.le_antisymm h hge, fun he => Nat.le_of_eq he.symm⟩
  simp only [State.remapRow, hu, Nat.not_le.mpr h, hlast, if_false]

theorem State.remapRow_of_no_spare (h : Config.spareRows (bankKey die bank) ≤ AMap.getD s.tiers.spareUsed (bankKey die bank) 0) :
    s.remapRow die bank row = { s with tiers := { s.tiers with spareOut := setInsert s.tiers.spareOut (bankKey die bank) } } := by
  simp only [State.remapRow, ge_iff_le, h, if_true]

theorem State.setRefresh_double (s : State) (die : Nat) :
    s.setRefresh die true = { s with tiers := { s.tiers with doubleRefresh := s.tiers.doubleRefresh ||| (1#4 <<< die) } } := rfl

theorem State.setRefresh_normal (s : State) (die : Nat) :
    s.setRefresh die false = { s with tiers := { s.tiers with doubleRefresh := s.tiers.doubleRefresh &&& ~~~(1#4 <<< die) } } := rfl

/-- Settles O21: a remap takes a spare row while the bank has one, and the refresh rate is the die's bit. -/
theorem loftRepairAndRefresh : Obligations.LoftRepairAndRefresh := by
  refine ⟨?spare, ?noSpare, ?refresh⟩
  case spare => exact fun s die bank row used hu h => congrArg s.done (State.remapRow_of_spare hu h)
  case noSpare => exact fun s die bank row h => congrArg s.done (State.remapRow_of_no_spare h)
  case refresh => exact fun s die => ⟨congrArg s.done (State.setRefresh_double s die.val),
    congrArg s.done (State.setRefresh_normal s die.val)⟩

end Sys2Proof.Machine
end

section
/-! Invalidates and the fault queue (03 R70, R72, R82). -/

namespace Sys2Proof.Machine

variable {s : State} {v : Word} {tag n : Nat} {abort : Bool}

theorem State.trnInvOp_of_room (h : s.trans.invs.length < 64) :
    s.trnInvOp v = { s with trans := { s.trans with
      invFull := false
      invs := s.trans.invs ++ [{ bay := fld v 3 0, whole := bit v 4, allLevels := bit v 5, tag := fld v 23 8
                                 start := (s.reg64 Reg.TRN_INV_VA_LO Reg.TRN_INV_VA_HI).toNat, len := (s.reg Reg.TRN_INV_LEN).toNat }] } } := by
  simp only [State.trnInvOp, Nat.not_le.mpr h, if_false]

theorem State.trnInvOp_of_full (h : 64 ≤ s.trans.invs.length) :
    s.trnInvOp v = { s.count16 Reg.TRN_INV_REFUSED with trans := { s.trans with invFull := true } } := by
  simp only [State.trnInvOp, ge_iff_le, h, if_true]

theorem State.trnInvDone_of_quiet {c : InvCmd} {rest : List InvCmd} (hc : s.trans.invs = c :: rest) (h : s.scopeBusy c = false) :
    s.trnInvDone = ((({ s with trans := { s.trans with invs := rest } }).dropCached c.bay c.whole c.allLevels c.start
      (c.len * 65536)).setReg Reg.TRN_INV_DONE_TAG (w32 c.tag)).latch Reg.TRN_EVENT_STATUS 0 := by
  simp only [State.trnInvDone, hc, h, Bool.false_eq_true, if_false]

theorem State.trnInvDone_of_none (h : s.trans.invs = []) : s.trnInvDone = s := by
  simp only [State.trnInvDone, h]

/-- Records that the host's new tail leaves unread (R82): the distance from the tail that stands. -/
def State.fqFreed (s : State) (v : Word) : Nat := (fld v 11 0 + 4096 - (s.reg Reg.TRN_FQ_TAIL).toNat) % 4096

/-- The fault queue after the host's tail has freed places, before waiting records are posted (R82). -/
def State.fqAdvanced (s : State) (v : Word) : State :=
  { s.setReg Reg.TRN_FQ_TAIL (w32 (fld v 11 0)) with trans := { s.trans with fqCount := s.trans.fqCount - s.fqFreed v } }

theorem State.fqTailOp_of_le (h : s.fqFreed v ≤ s.trans.fqCount) : s.fqTailOp v = (s.fqAdvanced v).postWaiting.endProtected :=
  if_neg (Nat.not_lt.mpr h)

theorem State.fqTailOp_of_beyond (h : s.trans.fqCount < s.fqFreed v) : s.fqTailOp v = s := if_pos h

theorem State.postWaiting_of_all_posted (h : ∀ f ∈ s.trans.faults, f.posted = true) : s.postWaiting = s := by
  unfold State.postWaiting
  refine List.foldlRecOn (motive := (· = s)) s.trans.faults _ rfl fun u hu f hf => ?_
  rw [if_pos (h f hf), hu]

theorem State.endProtected_of_all_resumable (h : ∀ f ∈ s.trans.faults, f.cause.resumable = true) : s.endProtected = s := by
  have hnone : (s.trans.faults.filter fun f => f.posted && !f.cause.resumable) = [] :=
    List.filter_eq_nil_iff.mpr fun f hf => by simp only [h f hf, Bool.not_true, Bool.and_false, Bool.false_eq_true, not_false_eq_true]
  rw [State.endProtected, hnone, List.foldl_nil]

theorem State.faultResumeOp_of_posted {f : OutFault} (hf : s.trans.faults.find? (fun x => x.tag = tag && x.posted) = some f) :
    let u : State := { s with trans := { s.trans with faults := s.trans.faults.filter fun x => x.tag ≠ tag } }
    s.faultResumeOp tag false = u.resumeHolder f.holder ∧ s.faultResumeOp tag true = u.abortHolder f.bay f.holder f.cause := by
  simp only [State.faultResumeOp, hf, Bool.false_eq_true, if_false, if_true, and_self]

theorem State.faultResumeOp_of_unknown (hf : s.trans.faults.find? (fun x => x.tag = tag && x.posted) = none) :
    s.faultResumeOp tag abort = s := by
  simp only [State.faultResumeOp, hf]

/-- Settles O23: each write acts on the state with its source's guard closed, which leaves translation and registers as they were. -/
theorem invalidatesAndFaultQueue : Obligations.InvalidatesAndFaultQueue := by
  refine ⟨?queued, ?refused, ?completed, ?noneWaits, ?freed, ?beyond, ?resumed, ?unknown⟩
  case queued =>
    intro s src v h hroom
    have hact := State.trnInvOp_of_room (s := s.Entered src Reg.TRN_INV_CMD) (v := v) (by rwa [State.Entered_trans])
    simp only [State.Entered_trans, State.Entered_reg, State.Entered_reg64] at hact
    exact exec_of_plainWrite rfl h hact
  case refused =>
    intro s src v h hfull
    have hact := State.trnInvOp_of_full (s := s.Entered src Reg.TRN_INV_CMD) (v := v) (by rwa [State.Entered_trans])
    rw [State.Entered_trans] at hact
    exact exec_of_plainWrite rfl h hact
  case completed => exact fun s c rest hc h => congrArg s.done (State.trnInvDone_of_quiet hc h)
  case noneWaits => exact fun s h => congrArg s.done (State.trnInvDone_of_none h)
  case freed =>
    intro s src v n h hn hle u
    have hfreed : (s.Entered src Reg.TRN_FQ_TAIL).fqFreed v = n := by rw [State.fqFreed, State.Entered_reg, hn]
    have hu : (s.Entered src Reg.TRN_FQ_TAIL).fqAdvanced v = u := by rw [State.fqAdvanced, hfreed, State.Entered_trans]
    refine ⟨exec_of_plainWrite rfl h ?_, fun hall => ?_⟩
    · rw [State.fqTailOp_of_le (by rwa [hfreed, State.Entered_trans]), hu]
    · have hposted : ∀ f ∈ u.trans.faults, f.posted = true ∧ f.cause.resumable = true := fun f hf =>
        (Bool.and_eq_true _ _).mp (List.all_eq_true.mp hall f hf)
      rw [State.postWaiting_of_all_posted fun f hf => (hposted f hf).1, State.endProtected_of_all_resumable fun f hf => (hposted f hf).2]
  case beyond =>
    intro s src v h hlt
    refine exec_of_plainWrite rfl h (State.fqTailOp_of_beyond ?_)
    rwa [State.fqFreed, State.Entered_reg, State.Entered_trans]
  case resumed =>
    intro s src tag f h hf u
    have hact := State.faultResumeOp_of_posted (s := s.Entered src Reg.TRN_FAULT_RESUME) (by rwa [State.Entered_trans])
    simp only [State.Entered_trans] at hact
    exact ⟨exec_of_plainWrite rfl h hact.1, exec_of_plainWrite rfl h hact.2⟩
  case unknown =>
    intro s src tag abort h hf
    exact exec_of_plainWrite rfl h (State.faultResumeOp_of_unknown (by rwa [State.Entered_trans]))

end Sys2Proof.Machine
end

section
/-! An accepted tier command (03 R83). -/

namespace Sys2Proof.Machine

variable {c : Instr} {s t : State} {src : Source} {v : Word} {b : Nat} {body : State → State}

/-- The state in which an accepted tier command acts: its guard has closed, its word is in force, and REFUSED has ended. -/
def State.tierStarted (s : State) (src : Source) (v : Word) : State :=
  { s.Commanded src Reg.MT_CMD v with tiers := { s.tiers with cmdRefused := false } }

theorem exec_of_tierCommand (hc : exec c s = s.done (s.rkWrite src Reg.MT_CMD fun s => s.mtCommand v body))
    (h : s.MayCommand src Reg.MT_CMD) (hidle : s.tiers.cmdBusy = none) (ht : body (s.tierStarted src v) = t) :
    exec c s = .next (settle s t) := by
  refine exec_of_rkWrite hc h ?_
  rw [State.mtCommand, if_neg (by rw [State.closeGuard_tiers, hidle]; nofun), ← ht]
  rfl

theorem exec_of_tierCommand_busy (hc : exec c s = s.done (s.rkWrite src Reg.MT_CMD fun s => s.mtCommand v body))
    (h : s.MayCommand src Reg.MT_CMD) (hbusy : s.tiers.cmdBusy ≠ none) :
    exec c s = .next (settle s { s.closeGuard src with tiers := { s.tiers with cmdRefused := true } }) := by
  refine exec_of_rkWrite hc h ?_
  rw [State.mtCommand, if_pos (by rwa [State.closeGuard_tiers, Option.isSome_iff_ne_none]), State.closeGuard_tiers]

theorem State.tierStarted_reg (s : State) (src : Source) (v : Word) {k : Nat} (hk : k ≠ Reg.MT_CMD) :
    (s.tierStarted src v).reg k = s.reg k := State.reg_setReg_other (s.closeGuard src) v hk

@[simp] theorem State.tierStarted_mtArg0 (s : State) (src : Source) (v : Word) : (s.tierStarted src v).mtArg0 = s.mtArg0 := by
  rw [State.mtArg0, State.reg64, State.tierStarted_reg s src v (by decide), State.tierStarted_reg s src v (by decide)]
  rfl

@[simp] theorem State.tierStarted_mtArg1 (s : State) (src : Source) (v : Word) :
    (s.tierStarted src v).reg Reg.MT_ARG1 = s.reg Reg.MT_ARG1 := State.tierStarted_reg s src v (by decide)

end Sys2Proof.Machine
end

section
/-! What each tier command does when its checks pass (03 R74, R80, R83). -/

namespace Sys2Proof.Machine

variable {s : State} {b a n : Nat}

/-- A bay whose spill is not starved has nothing to try again. -/
theorem State.spillRetry_of_not_starved (h : bit s.tiers.spillStarved b = false) : s.spillRetry b = s := by
  simp only [State.spillRetry, h, Bool.false_eq_true, if_false]

theorem State.mtAssignOp_of_free (hstarved : bit s.tiers.spillStarved b = false) (ha : s.mtArg0 = a) (hn : (s.reg Reg.MT_ARG1).toNat = n)
    (hr : s.rangeOk a n = true) (hf : s.freeRun (a / 65536) n = true) (hq : s.used b (tierOf a) + n ≤ s.quota b (tierOf a)) :
    s.mtAssignOp b = (s.setOwners (a / 65536) n b).tierResult .ok := by
  simp only [State.mtAssignOp, ha, hn, hr, hf, Nat.not_lt.mpr hq, Bool.not_true, Bool.false_eq_true, if_false]
  exact State.spillRetry_of_not_starved hstarved

theorem State.mtReleaseOp_of_owned (hstarved : bit s.tiers.spillStarved b = false) (ha : s.mtArg0 = a)
    (hn : (s.reg Reg.MT_ARG1).toNat = n) (hr : s.rangeOk a n = true) (ho : s.ownsRun b (a / 65536) n = true) :
    s.mtReleaseOp b = (s.setOwners (a / 65536) n ownerFree).tierResult .ok := by
  simp only [State.mtReleaseOp, ha, hn, hr, ho, Bool.not_true, Bool.false_eq_true, if_false]
  exact State.spillRetry_of_not_starved hstarved

theorem State.mtEnlistOp_of_room (hstarved : bit s.tiers.spillStarved b = false) (hva : vaOk s.mtArg0 = true)
    (hp : (s.pte b s.mtArg0).isSome = true) (hroom : (s.spillList b).length < 65536) :
    s.mtEnlistOp b = (s.setSpillList b (s.spillList b ++ [BitVec.ofNat 64 s.mtArg0])).tierResult .ok := by
  simp only [State.mtEnlistOp, hva, Option.isNone_eq_false_iff.mpr hp, Nat.not_le.mpr hroom, Bool.not_true,
    Bool.false_eq_true, if_false]
  exact State.spillRetry_of_not_starved hstarved

theorem State.mtLineOp_of_unowned {u : Nat × Nat} (hu : s.unitAt s.mtArg0 = some u)
    (ho : s.anyOwned (unitSpan u).1 (unitSpan u).2 = false) (off : Bool) : s.mtLineOp off = (s.setOffline u off).tierResult .ok := by
  simp only [State.mtLineOp, hu, ho, Bool.false_eq_true, if_false]

/-- Settles O24: an idle tier engine starts each command and ends it with its result; a busy one refuses all seven. -/
theorem tierCommands : Obligations.TierCommands := by
  refine ⟨?assign, ?release, ?enlist, ?line, ?busy⟩
  case assign =>
    intro s src bay h hidle hstarved hr hf hq u
    exact exec_of_tierCommand rfl h hidle (State.mtAssignOp_of_free (s := u) hstarved (State.tierStarted_mtArg0 s src _)
      (congrArg BitVec.toNat (State.tierStarted_mtArg1 s src _)) hr hf hq)
  case release =>
    intro s src bay h hidle hstarved hr ho u
    exact exec_of_tierCommand rfl h hidle (State.mtReleaseOp_of_owned (s := u) hstarved (State.tierStarted_mtArg0 s src _)
      (congrArg BitVec.toNat (State.tierStarted_mtArg1 s src _)) hr ho)
  case enlist =>
    intro s src bay h hidle u r hstarved hva hp hroom
    exact exec_of_tierCommand rfl h hidle (State.mtEnlistOp_of_room (s := r) hstarved hva hp hroom)
  case line =>
    intro s src u h hidle hu ho t
    have hunit : ∀ v, (s.tierStarted src v).unitAt (s.tierStarted src v).mtArg0 = some u := fun v =>
      (congrArg s.unitAt (State.tierStarted_mtArg0 s src v)).trans hu
    exact ⟨exec_of_tierCommand rfl h hidle (State.mtLineOp_of_unowned (hunit 6) ho true),
      exec_of_tierCommand rfl h hidle (State.mtLineOp_of_unowned (hunit 7) ho false)⟩
  case busy =>
    intro s src c h hbusy hc
    rcases hc with ⟨bay, rfl | rfl | ⟨lc, rfl⟩ | rfl | rfl⟩ | rfl | rfl <;> exact exec_of_tierCommand_busy rfl h hbusy

end Sys2Proof.Machine
end

section
/-! A migration, stage by stage (03 R76, R77, R79, R83). -/

namespace Sys2Proof.Machine

variable {s s1 : State} {m : Migration} {b id : Nat}

theorem State.mtMigrateOp_of_settled {target : Nat} {p : Nat × Nat × W64} (ht : fld (s.reg Reg.MT_ARG1) 2 0 = target) (hle : target ≤ 2)
    (hva : vaOk s.mtArg0 = true) (hp : s.pte b s.mtArg0 = some p) (hlocal : pteTier p.2.2 ≠ 3) (hst : pteState p.2.2 = settled)
    (hmig : s.hasMig b s.mtArg0 = false) (hfull : s.migQueueFull = false) (lc : Bool) :
    let q := s.queueMig b (BitVec.ofNat 64 s.mtArg0) target lc .command
    s.mtMigrateOp b lc = { q with tiers := { q.tiers with cmdBusy := some s.tiers.nextMigration } } := by
  have hwindow : target ≠ 7 := by omega
  simp only [State.mtMigrateOp, ht, hwindow, hle, hva, hp, hlocal, hst, hmig, hfull, ne_eq, not_true_eq_false, decide_false, Bool.not_true,
    Bool.or_self, Bool.false_eq_true, if_false, if_true]

theorem State.migrationStart_of_none (h : s.nextMig = none) : s.migrationStart = s := by
  simp only [State.migrationStart, h]

/-- The page of the first migration that waits is read, gets its frame, and stands COPYING (R77). -/
theorem State.migrationStart_of_frame {addr level f size : Nat} {e : W64} (hm : s.nextMig = some m) (hroom : s.inProgress.length < 64)
    (hp : (s.readPte m.bay m.va.toNat).pte m.bay m.va.toNat = some (addr, level, e)) (hst : pteState e = settled) (hlocal : pteTier e ≠ 3)
    (hsize : (pageSize (pteSizeCode e)).getD 0x10000 = size)
    (hq : (s.readPte m.bay m.va.toNat).used m.bay m.target + size / 65536 ≤ (s.readPte m.bay m.va.toNat).quota m.bay m.target)
    (hf : (s.readPte m.bay m.va.toNat).frameFor m size = (s1, some f)) :
    s.migrationStart = ((s1.setOwners (f / 65536) (size / 65536) m.bay).physWrite64 addr (pteWith e 57 56 copying)).setMig
      { m with phase := .firstInv, entryAddr := addr, oldEntry := e, newFrame := f, size := size } := by
  simp only [State.migrationStart, hm, Nat.not_le.mpr hroom, hp, hst, hlocal, hsize, Nat.not_lt.mpr hq, hf, ne_eq,
    not_true_eq_false, if_false]

section
variable (hm : s.tiers.migrations.find? (fun x => x.id = id) = some m)
include hm

theorem State.migrationFirstInv_of_quiet (hp : m.phase = .firstInv) (hq : s.rangeBusy m.bay false m.page m.size = false) :
    s.migrationFirstInv id = (s.dropCached m.bay false false m.page m.size).setMig { m with phase := .copying } := by
  have hq' : s.rangeBusy m.bay false (m.va.toNat / m.size * m.size) m.size = false := hq
  simp only [State.migrationFirstInv, hm, hp, hq', Bool.not_false, and_self, if_true]
  rfl

theorem State.migrationCopied_of_standing (hp : m.phase = .copying) (hc : s.stillCopying m = true) :
    s.migrationCopied id = (((s.meetUe m.entryAddr 8).moveBytes (pteFrame m.oldEntry * 4096) m.newFrame m.size).physWrite64 m.entryAddr
      (movedEntry m)).setMig { m with phase := .secondInv } := by
  simp only [State.migrationCopied, hm, hp, hc, ne_eq, not_true_eq_false, if_false, if_true]

theorem State.migrationCopied_of_edited (hp : m.phase = .copying) (hc : s.stillCopying m = false) :
    s.migrationCopied id =
      (((s.meetUe m.entryAddr 8).freeFrame m.bay m.newFrame m.size).count16 Reg.MT_MIG_ABANDONED).endMigration m .abandoned := by
  simp only [State.migrationCopied, hm, hp, hc, ne_eq, not_true_eq_false, Bool.false_eq_true, if_false]

theorem State.migrationEnd_of_quiet (hp : m.phase = .secondInv) (hq : s.rangeBusy m.bay false m.page m.size = false) :
    let u := (s.dropCached m.bay false false m.page m.size).freeFrame m.bay (pteFrame m.oldEntry * 4096) m.size
    let w := match m.origin with
      | .repair => u.repairPage
      | .walker => if (u.spillList m.bay).length < 65536 then u.setSpillList m.bay (u.spillList m.bay ++ [m.va]) else u
      | _ => u
    s.migrationEnd id = w.endMigration m .ok := by
  simp only [State.migrationEnd, hm, hp, hq, ne_eq, not_true_eq_false, decide_false, Bool.or_self, Bool.false_eq_true, if_false]
  congr 1
  cases m.origin <;> simp only [reduceCtorEq, decide_true, decide_false, Bool.true_and, Bool.false_and, decide_eq_true_eq,
    Bool.false_eq_true, if_false, if_true]

end

/-- A number that no migration has brings none on. -/
theorem State.migration_stages_of_unknown (h : s.tiers.migrations.find? (fun x => x.id = id) = none) :
    s.migrationFirstInv id = s ∧ s.migrationCopied id = s ∧ s.migrationEnd id = s := by
  simp only [State.migrationFirstInv, State.migrationCopied, State.migrationEnd, h, and_self]

section
variable (hva : vaOk s.mtArg0 = true)
  (hm : s.tiers.migrations.find? (fun m => m.bay = b && m.va.toNat / m.size = s.mtArg0 / m.size) = some m)
include hva hm

theorem State.mtCancelOp_of_queued (hp : m.phase = .queued) : s.mtCancelOp b = (s.endMigration m .ok).tierResult .ok := by
  simp only [State.mtCancelOp, hva, hm, hp, Bool.not_true, Bool.false_eq_true, if_false, if_true]

theorem State.mtCancelOp_of_copying (hp : m.phase = .firstInv ∨ m.phase = .copying) (hc : s.stillCopying m = true) :
    s.mtCancelOp b = ((s.restoreEntry m).endMigration m .ok).tierResult .ok := by
  rcases hp with hp | hp <;> simp only [State.mtCancelOp, hva, hm, hp, hc, reduceCtorEq, ne_eq, not_false_eq_true, decide_true,
    Bool.and_self, Bool.not_true, Bool.false_eq_true, if_false, if_true]

end

/-- Settles O25: each stage acts on the migration that stands in its phase, and CANCEL undoes what a phase has done. -/
theorem migrationsInStages : Obligations.MigrationsInStages := by
  refine ⟨?migrate, ?noneWaits, ?start, ?firstInv, ?copied, ?edited, ?ended, ?unknown, ?cancel⟩
  case migrate =>
    intro s src bay lc target p h hidle u r ht hle hva hp hlocal hst hmig hfull q
    exact exec_of_tierCommand rfl h hidle (State.mtMigrateOp_of_settled (s := r) ht hle hva hp hlocal hst hmig hfull lc)
  case noneWaits => exact fun s h => congrArg s.done (State.migrationStart_of_none h)
  case start =>
    intro s s1 m addr level f e hm hroom r hp hst hlocal size hq hf
    exact congrArg s.done (State.migrationStart_of_frame hm hroom hp hst hlocal rfl hq hf)
  case firstInv => exact fun s id m hm hp hq => congrArg s.done (State.migrationFirstInv_of_quiet hm hp hq)
  case copied => exact fun s id m hm hp hc => congrArg s.done (State.migrationCopied_of_standing hm hp hc)
  case edited => exact fun s id m hm hp hc => congrArg s.done (State.migrationCopied_of_edited hm hp hc)
  case ended => exact fun s id m hm hp hq => congrArg s.done (State.migrationEnd_of_quiet hm hp hq)
  case unknown =>
    intro s id h
    obtain ⟨hfirst, hcopied, hended⟩ := State.migration_stages_of_unknown h
    exact ⟨congrArg s.done hfirst, congrArg s.done hcopied, congrArg s.done hended⟩
  case cancel =>
    intro s src bay m h hidle hva hm u
    have harg : u.mtArg0 = s.mtArg0 := State.tierStarted_mtArg0 s src _
    have hvaU : vaOk u.mtArg0 = true := by rwa [harg]
    have hmU : u.tiers.migrations.find? (fun m => m.bay = bay.val && m.va.toNat / m.size = u.mtArg0 / m.size) = some m := by rwa [harg]
    exact ⟨fun hp => exec_of_tierCommand rfl h hidle (State.mtCancelOp_of_queued hvaU hmU hp),
      fun hp hc => exec_of_tierCommand rfl h hidle (State.mtCancelOp_of_copying hvaU hmU hp hc)⟩

end Sys2Proof.Machine
end

section
/-! Spill checks, patrol reads and the reports of a stack (03 R53, R54, R80; 15 R366, R373). -/

namespace Sys2Proof.Machine

variable {s : State} {b a : Nat} {finding : ScrubFinding}

theorem State.spillRun_of_low (hidle : bit s.tiers.spillActive b = false)
    (hlow : s.used b 1 * 100 ≤ (s.reg (Reg.MT_SPILL_HI b)).toNat * s.quota b 1) : s.spillRun b = s := by
  simp only [State.spillRun, hidle, Nat.not_lt.mpr hlow, decide_false, Bool.or_self, Bool.not_false, if_true]

theorem exec_spillCheck (s : State) (bay : Fin 16) :
    exec (.spillCheck bay) s = .next (settle s
      (((s.applyAll [Reg.MT_SPILL_HI bay.val, Reg.MT_SPILL_LO bay.val]).setStarved bay.val false).spillRun bay.val)) := rfl

theorem exec_patrolScrub_of_backed (h : s.backed a = true) : exec (.patrolScrub a finding) s = .next (settle s (s.scrub a finding)) := by
  change execPatrolScrub a finding s = _
  rw [execPatrolScrub, h, Bool.not_true, if_neg Bool.false_ne_true, State.done]

theorem exec_patrolScrub_of_unbacked (h : s.backed a = false) : exec (.patrolScrub a finding) s = .fault (.unbackedAddress a) := by
  change execPatrolScrub a finding s = _
  rw [execPatrolScrub, h, Bool.not_false, if_pos rfl]

section
variable (h : a / 64 ≠ siloBase / 64)
include h

/-- Past the first line of the Silo no patrol pass begins, and a scrub acts by its finding alone. -/
theorem State.scrub_clean : s.scrub a .clean = s := by
  simp only [State.scrub, h, if_false]

theorem State.scrub_corrected : s.scrub a .corrected = s.countSat (Reg.MT_ERR_CE (errUnit a)) 32 0 1 := by
  simp only [State.scrub, h, if_false]

theorem State.scrub_uncorrectable : s.scrub a .uncorrectable =
    ((({ s with ue := setInsert s.ue (a / 64) }).meetUe (a / 64 * 64) 64).applyStaged Reg.REP_POLICY).autoFence := by
  simp only [State.scrub, h, if_false]

end

/-- What a failed stack channel leaves: the staged policy applied and the failure logged, and then the row fenced where the policy asks
for it and the row is online (R373). -/
theorem exec_stackChannelFailed (s : State) (stack : Fin 8) (row : Fin 32) :
    let u := (s.applyStaged Reg.REP_POLICY).log 0xFF 0x0006 (telUnit 2 row.val) 0 0
    exec (.stackChannelFailed stack row) s = .next (settle s
      (if bit (u.reg Reg.REP_POLICY) 16 && !bit u.tiers.rowsOffline row.val then u.askRepair .siloFence row.val else u)) := by
  change execStackChannelFailed stack row s = _
  simp only [execStackChannelFailed, stack.isLt, decide_true, Bool.and_true, State.done]

/-- Settles O26, by the finding of the scrub and the policy of the report. -/
theorem spillScrubAndStackReports : Obligations.SpillScrubAndStackReports := by
  refine ⟨?check, ?low, ?backed, ?unbacked, ?stack⟩
  case check => exact fun s bay => exec_spillCheck s bay
  case low =>
    intro s bay u hidle hlow
    rw [exec_spillCheck, State.spillRun_of_low hidle hlow]
  case backed =>
    intro s address hb h
    refine ⟨?_, ?_, ?_⟩
    · rw [exec_patrolScrub_of_backed hb, State.scrub_clean h]
    · rw [exec_patrolScrub_of_backed hb, State.scrub_corrected h]
    · rw [exec_patrolScrub_of_backed hb, State.scrub_uncorrectable h]
  case unbacked => exact fun s address finding hb => exec_patrolScrub_of_unbacked hb
  case stack =>
    intro s stack row u
    have hexec : exec (.stackChannelFailed stack row) s = .next (settle s
      (if bit (u.reg Reg.REP_POLICY) 16 && !bit u.tiers.rowsOffline row.val then u.askRepair .siloFence row.val else u)) :=
      exec_stackChannelFailed s stack row
    refine ⟨fun hoff => ?_, fun hon honline => ?_⟩
    · rw [hexec, hoff, Bool.false_and, if_neg Bool.false_ne_true]
    · rw [hexec, hon, honline, Bool.not_false, Bool.and_self, if_pos rfl]

end Sys2Proof.Machine
end

section
/-! The dispatcher's look at a bay (04 R92, R95, R100, R101; 02 R43), and what one placement leaves. -/

namespace Sys2Proof.Machine

variable {s t u : State} {b i n k : Nat} {x : Inst}

/-- The state in which the dispatcher chooses: a staged `CORE_CMD` has applied, and freed slots have gone to saved contexts (R100, R114). -/
def State.slotsGranted (s : State) (b : Nat) : State :=
  (s.bayCores b).foldl State.grantAll (s.applyAll ((s.bayCores b).map Reg.CORE_CMD))

theorem State.dispatch_of_lulled (h : (s.bay b).lulled = true) :
    s.dispatch b = s.applyAll ((s.bayCores b).map Reg.CORE_CMD) := by
  rw [State.dispatch, if_pos h]

theorem State.dispatch_of_lc (h : (s.bay b).lulled = false) (hturn : (s.slotsGranted b).lcTurn b = some i)
    (hx : (s.slotsGranted b).inst? i = some x) (hplace : (s.slotsGranted b).placement b x = some (n, k))
    (hgo : (s.slotsGranted b).staggered b x = false) : s.dispatch b = (s.slotsGranted b).place b i n k x := by
  rw [State.slotsGranted] at *
  simp only [State.dispatch, h, hturn, hx, hplace, hgo, Bool.false_eq_true, if_false]

theorem State.dispatch_of_no_lc (h : (s.bay b).lulled = false) (hturn : (s.slotsGranted b).lcTurn b = none) :
    s.dispatch b = (s.slotsGranted b).dispatchBe b := by
  rw [State.slotsGranted] at *
  simp only [State.dispatch, h, hturn, Bool.false_eq_true, if_false]

theorem State.dispatchBe_of_choice (hlull : (s.bay b).lullWanted = false) (hcap : s.beWithheld = false)
    (hbe : s.beChoice b = some (i, x, n, k)) (hgo : s.staggered b x = false) : s.dispatchBe b = s.place b i n k x := by
  simp only [State.dispatchBe, hlull, hcap, hbe, hgo, Bool.or_self, Bool.false_eq_true, if_false]

theorem State.place?_of_service (hs : s.inService = true) (hv : s.vane.safe = false) : s.place? b = (s.dispatch b).listRoom b := by
  simp only [State.place?, hs, hv, Bool.not_false, Bool.and_self, if_true]

theorem State.place?_of_no_service (hs : s.inService = false) : s.place? b = s := by
  simp only [State.place?, hs, Bool.false_and, Bool.false_eq_true, if_false]

theorem exec_sheafPlace_of_dispatch {bay : Fin 16} (hs : s.inService = true) (hv : s.vane.safe = false) (h : s.dispatch bay.val = t) :
    exec (.sheafPlace bay) s = .next (settle s (t.listRoom bay.val)) :=
  congrArg s.done ((State.place?_of_service hs hv).trans (congrArg (State.listRoom · bay.val) h))

theorem State.trace_sameButTelemetry (s : State) (bay code unit : Nat) (arg0 : Word) (arg1 : Nat) :
    s.SameButTelemetry (s.trace bay code unit arg0 arg1) := by
  unfold State.trace
  split
  · exact State.hubTake_sameButTelemetry s _ _ _ _ _ _
  · exact .refl s

@[simp] theorem State.core_setCore_same (s : State) (n : Nat) (c : Core) : (s.setCore n c).core n = c :=
  AMap.getD_set_same s.cores n c Core.reset

/-- In `t` sheaf `i` is resident in slot `k` of core `n`; memory, streams, queues and the loader are those of `s`. -/
structure State.Seated (s t : State) (i n k : Nat) : Prop where
  resident : ∃ y, t.inst? i = some y ∧ y.state = .resident ∧ y.core = n ∧ y.slot = k
  slot : AMap.get? (t.core n).slots k = some i
  mem : t.mem = s.mem
  streams : t.streams = s.streams
  queues : t.queues = s.queues
  loader : t.loader = s.loader

namespace State.Seated

theorem of_sameButTelemetry (h : s.Seated t i n k) (ht : t.SameButTelemetry u) : s.Seated u i n k := by
  rw [State.SameButTelemetry] at ht
  rw [ht]
  exact ⟨h.resident, h.slot, h.mem, h.streams, h.queues, h.loader⟩

theorem trace (h : s.Seated t i n k) {bay code unit arg1 : Nat} {arg0 : Word} : s.Seated (t.trace bay code unit arg0 arg1) i n k :=
  h.of_sameButTelemetry (State.trace_sameButTelemetry t _ _ _ _ _)

theorem countWrap (h : s.Seated t i n k) {key v : Nat} : s.Seated (t.countWrap key v) i n k := h.of_sameButTelemetry rfl

theorem keepMax (h : s.Seated t i n k) {key bits v : Nat} : s.Seated (t.keepMax key bits v) i n k := h.of_sameButTelemetry rfl

theorem ite {c : Prop} [Decidable c] (ht : s.Seated t i n k) (hu : s.Seated u i n k) : s.Seated (if c then t else u) i n k := by
  split
  · exact ht
  · exact hu

end State.Seated

theorem State.applyStaged_sameButTelemetry (s : State) (key : Nat) : s.SameButTelemetry (s.applyStaged key) := by
  unfold State.applyStaged
  split <;> rfl

/-- A resident sheaf written into its entry, its core's slot and its bay's record is seated. -/
theorem State.seated_of_updates {y : Inst} {c : Core} {z : Bay} (h : s.SameButTelemetry t) (hstate : y.state = .resident)
    (hcore : y.core = n) (hslot : y.slot = k) (hc : AMap.get? c.slots k = some i) :
    s.Seated (((t.setInst i y).setCore n c).setBay b z) i n k := by
  have hown : (((t.setInst i y).setCore n c).setBay b z).core n = c := State.core_setCore_same (t.setInst i y) n c
  rw [State.SameButTelemetry] at h
  refine ⟨⟨y, AMap.get?_set_same t.insts i y, hstate, hcore, hslot⟩, by rw [hown, hc], ?_, ?_, ?_, ?_⟩ <;> rw [h] <;> rfl

/-- A placement seats its sheaf; the counters and trace records that follow are telemetry. -/
theorem State.place_seated (s : State) (b i n k : Nat) (x : Inst) : s.Seated (s.place b i n k x) i n k := by
  unfold State.place
  dsimp only
  refine .ite (.trace (.trace ?counted)) (.trace ?counted)
  refine .ite ?seated (.keepMax (.ite (.countWrap ?seated) ?seated))
  exact State.seated_of_updates (State.applyStaged_sameButTelemetry s _) rfl rfl rfl (AMap.get?_set_same _ k i)

/-- Settles O28, by whose turn it is: the LC head, the first BE sheaf that fits (log 80), or none in lull and
out of service. -/
theorem placementOfLcHead : Obligations.PlacementOfLcHead := by
  refine ⟨?turns, ?seated, ?lulled, ?noService, ?staggerEnd⟩
  case turns =>
    intro s bay i n k x hs hv hl u
    exact ⟨fun hturn hx hp hgo => exec_sheafPlace_of_dispatch hs hv (State.dispatch_of_lc hl hturn hx hp hgo),
      fun hturn hlull hcap hbe hgo => exec_sheafPlace_of_dispatch hs hv
        ((State.dispatch_of_no_lc hl hturn).trans (State.dispatchBe_of_choice hlull hcap hbe hgo))⟩
  case seated =>
    intro s b i n k x
    obtain ⟨⟨y, hy, hstate, hcore, hslot⟩, hk, hmem, hstreams, hqueues, hloader⟩ := State.place_seated s b i n k x
    rw [hy]
    exact ⟨congrArg some hstate, congrArg some hcore, congrArg some hslot, hk, hmem, hstreams, hqueues, hloader⟩
  case lulled => exact fun s bay hs hv hl => exec_sheafPlace_of_dispatch hs hv (State.dispatch_of_lulled hl)
  case noService =>
    exact fun s bay hs => ⟨congrArg s.done (State.place?_of_no_service hs), congrArg s.done (State.place?_of_no_service hs)⟩
  case staggerEnd => exact fun s bay => rfl

end Sys2Proof.Machine
end

section
/-! A submission, by what its reads and checks answer (04 R87, R88, R93, R113). -/

namespace Sys2Proof.Machine

variable {s s1 s2 : State} {b : Nat} {hi : Word} {bd : BayDef}

@[simp] theorem State.Entered_bay (s : State) (src : Source) (key b : Nat) : (s.Entered src key).bay b = s.bay b := by
  rw [State.Entered, State.writeCloses_eq]
  rfl

@[simp] theorem State.Entered_bayDef (s : State) (src : Source) (key b : Nat) : (s.Entered src key).bayDef b = s.bayDef b := by
  rw [State.Entered, State.writeCloses_eq]
  rfl

/-- The address of the descriptor that a write of the high half completes (R113). -/
def State.submitVa (s : State) (b : Nat) (hi : Word) : Nat := (pair (s.reg (Reg.DISP_SUBMIT_LO b) &&& 0xFFFFFFC0#32) hi).toNat

theorem State.submitOp_of_busy (hd : (s.bayDef b).isSome = true) (hw : (s.bay b).submitWait ≠ none) :
    s.submitOp b hi = s.refuseSubmit b 1 := by
  obtain ⟨bd, hbd⟩ := Option.isSome_iff_exists.mp hd
  simp only [State.submitOp, hbd, Option.isSome_iff_ne_none.mpr hw, if_true]

section
variable (hd : s.bayDef b = some bd) (hw : (s.bay b).submitWait = none)
include hd hw

theorem State.submitOp_of_unread {err : RunFault} (he : s.readRun b (s.submitVa b hi) 64 dispatcherEngine = (s1, .error err)) :
    s.submitOp b hi = s1.refuseSubmit b 2 := by
  rw [State.submitVa] at he
  simp only [State.submitOp, hd, hw, he, Option.isSome_none, Bool.false_eq_true, if_false]

variable {e rows : Bytes} {x y : Bool}
  (he : s.readRun b (s.submitVa b hi) 64 dispatcherEngine = (s1, .ok (e, x)))
  (hrows : s1.readRun b (parseSheaf e).rowTable.toNat ((parseSheaf e).rowCount * 4) dispatcherEngine = (s2, .ok (rows, y)))
include he hrows

/-- A submission whose descriptor and row table have been read is judged by its checks and by the room in its list. -/
theorem State.submitOp_of_read : s.submitOp b hi =
    if s2.submitOk b bd e rows = false then s2.refuseSubmit b 3
    else if s2.readyRoom b (parseSheaf e).be = true then s2.acceptSubmit b (parseSheaf e)
    else s2.setBay b { s2.bay b with submitWait := some (parseSheaf e) } := by
  rw [State.submitVa] at he
  simp only [State.submitOp, hd, hw, he, hrows, Option.isSome_none, Bool.false_eq_true, if_false, Bool.not_eq_true']

end

/-- Settles O27, by the outcome of the reads, the checks and the room; the write itself only closes its source's guard. -/
theorem submissionChecksAndCreates : Obligations.SubmissionChecksAndCreates := by
  refine ⟨?read, ?unread, ?busy⟩
  case read =>
    intro s s1 s2 src bay hi bd e rows x y h hd hw he hrows
    have hva : (s.Entered src (Reg.DISP_SUBMIT_HI bay.val)).submitVa bay.val hi =
      (pair (s.reg (Reg.DISP_SUBMIT_LO bay.val) &&& 0xFFFFFFC0#32) hi).toNat := by rw [State.submitVa, State.Entered_reg]
    have hact := State.submitOp_of_read (s := s.Entered src (Reg.DISP_SUBMIT_HI bay.val)) (by rwa [State.Entered_bayDef])
      (by rwa [State.Entered_bay]) (by rwa [hva]) hrows
    refine ⟨fun hok hroom => exec_of_plainWrite rfl h ?_, fun hok => exec_of_plainWrite rfl h ?_,
      fun hok hroom => exec_of_plainWrite rfl h ?_⟩
    · rw [hact, hok, hroom, if_neg Bool.noConfusion, if_pos rfl]
      rfl
    · rw [hact, if_pos hok]
      rfl
    · rw [hact, hok, hroom, if_neg Bool.noConfusion, if_neg Bool.noConfusion]
  case unread =>
    intro s s1 src bay hi bd err h hd hw he
    refine exec_of_plainWrite rfl h (State.submitOp_of_unread (s := s.Entered src (Reg.DISP_SUBMIT_HI bay.val)) (bd := bd) (err := err)
      (by rwa [State.Entered_bayDef]) (by rwa [State.Entered_bay]) ?_)
    rwa [State.submitVa, State.Entered_reg]
  case busy =>
    intro s src bay hi h hd hw
    refine exec_of_plainWrite rfl h ?_
    rw [State.submitOp_of_busy (by rwa [State.Entered_bayDef]) (by rwa [State.Entered_bay]), State.refuseSubmit, State.Entered_bay]

end Sys2Proof.Machine
end

section
/-! How a core's stalls share its slots (04 R99, R103, R104, R106). -/

namespace Sys2Proof.Machine

variable {s : State} {n k i j : Nat} {x y : Inst}

/-- Ties between stalls are `nextIssue`'s (log 79). -/
theorem State.chooseIssue_of_some (h : s.nextIssue n = some (k, i, x)) :
    s.chooseIssue n = s.setCore n { s.core n with issuing := some k, lastBe := if x.desc.be then k else (s.core n).lastBe } := by
  simp only [State.chooseIssue, h]

theorem State.chooseIssue_of_none (h : s.nextIssue n = none) : s.chooseIssue n = s.setCore n { s.core n with issuing := none } := by
  simp only [State.chooseIssue, h]

theorem State.evictionCheck_of_unblocked (h : s.allBlocked n = false) : s.evictionCheck n = s := by
  simp only [State.evictionCheck, h, Bool.not_false, Bool.true_or, if_true]

/-- A runnable saved LC context outranks every victim. -/
theorem State.evictionCheck_of_saved {v : Inst} (hall : s.allBlocked n = true) (hp : (s.core n).promised = [])
    (hsaved : s.savedRunnable n false = some i) (hv : s.evictionVictim n = some (k, j, v)) :
    s.evictionCheck n = ((s.beginSave n k (some i)).countWrap (Reg.CORE_EVICTIONS n) 1).trace v.bay 0x0103 (telUnit 0 n) v.seq
      (((s.inst? i).map fun x => x.seq.toNat).getD 0) := by
  simp only [State.evictionCheck, hall, hp, hsaved, hv, List.isEmpty_nil, Bool.not_true, Bool.or_self, Bool.false_and,
    Bool.false_eq_true, if_false]

@[simp] theorem State.instOf_none (s : State) : s.instOf none = none := rfl

/-- The state that a finished save leaves before its slot is given on: the context is saved, and the slot empty (R103). -/
def State.slotSaved (s : State) (n k i : Nat) (x : Inst) : State :=
  (s.setInst i { x with state := .saved }).setCore n { s.core n with
    slots := AMap.erase (s.core n).slots k, saved := (s.core n).saved ++ [i], promised := AMap.erase (s.core n).promised k }

section
variable (hslot : s.instOf (AMap.get? (s.core n).slots k) = some (i, x)) (hst : x.state = .saving)
  (hkept : x.gleaning.isSome = false)
include hslot hst hkept

theorem State.saveDone_of_unpromised (hp : AMap.get? (s.core n).promised k = none) :
    s.saveDone n k = (((s.slotSaved n k i x).grant n).retryPreempt x.bay).listRoom x.bay := by
  rw [State.slotSaved]
  simp only [State.saveDone, State.instOf_none, hslot, hst, hkept, hp, ne_eq, not_true_eq_false, Bool.false_eq_true, if_false]

theorem State.saveDone_of_promised (hp : (s.slotSaved n k i x).instOf (AMap.get? (s.core n).promised k) = some (j, y)) :
    s.saveDone n k = (((s.slotSaved n k i x).fillSlot n k j y).retryPreempt x.bay).listRoom x.bay := by
  rw [State.slotSaved] at *
  simp only [State.saveDone, hslot, hst, hkept, hp, ne_eq, not_true_eq_false, Bool.false_eq_true, if_false]

end

section
variable (hslot : s.instOf (AMap.get? (s.core n).slots k) = some (i, x)) (hst : x.state = .restoring)
include hslot hst

theorem State.restoreDone_of_sound (hg : x.gleaning = none) (hf : x.faultOnRestore = none) :
    s.restoreDone n k = (s.setInst i { x with state := .resident, faultOnRestore := none }).refresh i := by
  simp only [State.restoreDone, hslot, hst, hg, hf, Option.isSome_none, ne_eq, not_true_eq_false, Bool.false_eq_true, if_false]

theorem State.restoreDone_of_fault {cause : Nat} (hg : x.gleaning = none) (hf : x.faultOnRestore = some cause) :
    s.restoreDone n k = (s.setInst i { x with state := .resident, faultOnRestore := none }).abortNow i cause := by
  simp only [State.restoreDone, hslot, hst, hg, hf, Option.isSome_none, ne_eq, not_true_eq_false, Bool.false_eq_true, if_false]

theorem State.restoreDone_of_gleaning (hg : x.gleaning ≠ none) : s.restoreDone n k = s.setInst i { x with state := .aborted } := by
  simp only [State.restoreDone, hslot, hst, Option.isSome_iff_ne_none.mpr hg, ne_eq, not_true_eq_false, if_false, if_true]

end

section
variable (hslot : AMap.get? (s.core n).slots k = none)
include hslot

theorem State.saveDone_of_empty_slot : s.saveDone n k = s := by
  simp only [State.saveDone, State.instOf, hslot, Option.bind_none]

theorem State.restoreDone_of_empty_slot : s.restoreDone n k = s := by
  simp only [State.restoreDone, State.instOf, hslot, Option.bind_none]

end

theorem State.wake_of_running (h : s.inst? i = some x) (hc : x.chaffMode = false) :
    s.wake i = (s.setInst i (s.clearWaits i x)).refresh i := by
  simp only [State.wake, h, hc, Bool.false_eq_true, if_false]

theorem State.wake_of_chaff (h : s.inst? i = some x) (hc : x.chaffMode = true) : s.wake i = s.chaffOn i := by
  simp only [State.wake, h, hc, if_true]

/-- Settles O29: each event acts on the stall that its slot or number names, by that stall's state; a slot that
holds none has no event to come (log 2). -/
theorem coresShareSlots : Obligations.CoresShareSlots := by
  refine ⟨?issue, ?noIssue, ?noEviction, ?eviction, ?saved, ?restored, ?emptySlot, ?wake⟩
  case issue => exact fun s core k i x h => congrArg s.done (State.chooseIssue_of_some h)
  case noIssue => exact fun s core h => congrArg s.done (State.chooseIssue_of_none h)
  case noEviction => exact fun s core h => congrArg s.done (State.evictionCheck_of_unblocked h)
  case eviction =>
    exact fun s core i k j v hall hp hsaved hv => congrArg s.done (State.evictionCheck_of_saved hall hp hsaved hv)
  case saved =>
    intro s core slot i x hslot hst hg c u
    have hkept : x.gleaning.isSome = false := congrArg Option.isSome hg
    exact ⟨fun hp => congrArg s.done (State.saveDone_of_unpromised hslot hst hkept hp),
      fun j y hp => congrArg s.done (State.saveDone_of_promised hslot hst hkept hp)⟩
  case restored =>
    intro s core slot i x hslot hst u
    exact ⟨fun hg hf => congrArg s.done (State.restoreDone_of_sound hslot hst hg hf),
      fun cause hg hf => congrArg s.done (State.restoreDone_of_fault hslot hst hg hf),
      fun hg => congrArg s.done (State.restoreDone_of_gleaning hslot hst hg)⟩
  case emptySlot =>
    exact fun s core slot h => ⟨congrArg s.done (State.saveDone_of_empty_slot h), congrArg s.done (State.restoreDone_of_empty_slot h)⟩
  case wake =>
    exact fun s i x h => ⟨fun hc => congrArg s.done (State.wake_of_running h hc), fun hc => congrArg s.done (State.wake_of_chaff h hc)⟩

end Sys2Proof.Machine
end

section
/-! An engine instruction that its stall may run, and one row operation of the VXE (05 R123, R134; 09 R214). -/

namespace Sys2Proof.Machine

variable {c : Instr} {s : State} {r : EngineRef} {engine i : Nat} {x : Inst} {body : State → State}

/-- A stall that may run an instruction runs it, and ends its tokens. -/
theorem State.tokened_of_engineRuns {fits : Nat → Inst → Bool} (h : s.EngineRuns r engine i x) (hfits : fits i x = true) :
    s.tokened r engine fits body = (body s).engineEnds i r := by
  obtain ⟨hrun, hwait⟩ := h
  simp only [State.tokened, hrun, hwait, hfits, Bool.and_self, if_true]

section
variable {row : VxeRow} {reads : List (Nat × Nat)} {outLen : Nat} {compute : State → Inst → State × Bytes × Tally}
  {out : State × Bytes × Tally} (h : s.RowRuns r row reads outLen i x) (hout : compute s x = out)
include h hout

/-- A legal row operation writes what it computes, marked by its operands (05 R134). -/
theorem State.vxeRun_of_rowRuns :
    s.vxeRun r.stall row true (fun _ => reads) outLen compute = out.1.rowDone i x row.dst out.2 (x.anyMarked reads) := by
  obtain ⟨⟨hrun, -⟩, hok⟩ := h
  subst hout
  simp only [State.vxeRun, hrun, hok, Bool.not_true, Bool.or_self, Bool.false_eq_true, if_false]
  rfl

theorem exec_of_vxeRun (hc : exec c s = s.done (s.tokened r engineVxe (fun _ _ => true) body))
    (hbody : body s = s.vxeRun r.stall row true (fun _ => reads) outLen compute) :
    exec c s = .next (settle s ((out.1.rowDone i x row.dst out.2 (x.anyMarked reads)).engineEnds i r)) := by
  rw [hc, State.tokened_of_engineRuns h.1 rfl, hbody, State.vxeRun_of_rowRuns h hout, State.done]

end

end Sys2Proof.Machine
end

section
/-! What the row operations compute (05 R123 to R131). Sums, variances and bounded functions draw free values (log 8, 9). -/

namespace Sys2Proof.Machine

variable {s : State} {r : EngineRef} {row : VxeRow} {x : Inst}

/-- A row of -∞ alone gives zeros, and counts as degenerate (R125; log 85). -/
theorem softmaxOf_of_all_negInf {vs : List FVal} (h : vs.all (fun v => !v.isNan && !v.isFinite && v.neg) = true) :
    softmaxOf s vs = (s, vs.map fun _ => .fin false 0 0, true) := by
  have hv : ∀ v ∈ vs, (v.isNan = false ∧ v.isFinite = false) ∧ v.neg = true := by
    simpa only [List.all_eq_true, Bool.and_eq_true, Bool.not_eq_true'] using h
  have hany : (vs.any fun v => v.isNan || (v.isInf && !v.neg)) = false :=
    List.any_eq_false.mpr fun v hmem => by
      obtain ⟨⟨hnan, -⟩, hneg⟩ := hv v hmem
      rw [hnan, hneg, Bool.not_true, Bool.and_false, Bool.or_self]
      exact Bool.false_ne_true
  have hfinite : vs.filter FVal.isFinite = [] :=
    List.filter_eq_nil_iff.mpr fun v hmem => by
      obtain ⟨⟨-, hfin⟩, -⟩ := hv v hmem
      rw [hfin]
      exact Bool.false_ne_true
  simp only [softmaxOf, hany, hfinite, Bool.false_eq_true, if_false]

/-- The scale of a row is defined for the formats that have a qmax (R126, R127). -/
theorem State.scaleRow_of_qmax {target : Fmt} {q : Nat} (h : qmax target = some q) :
    s.scaleRow r.stall row target = s.vxeRun r.stall row true (fun _ => [rowArea row row.a]) 4 fun s x =>
      let (v, zero) := scaleOf (rowValues row x row.a) q
      oneOut s x .fp32 v true (if zero then 1 else 0) := by
  rw [State.scaleRow, h]
  rfl

theorem State.quantRow_of_qmax {target : Fmt} {q : Nat} (h : qmax target = some q) :
    s.quantRow r.stall row target =
      s.vxeRun r.stall row true (fun _ => [rowArea row row.a, (row.b, 4)]) (vecBytes target row.count) fun s x =>
        let k := withinUlp s 1 (divExact oneF (of32 (leNat (x.cribRead row.b 4))))
        rowOut k.1 row.count target fun s j =>
          (s, quantElement target q k.2 (((rowValues row x row.a)[j]?).getD (.fin false 0 0))) := by
  rw [State.quantRow, h]
  rfl

theorem State.dequantRow_of_out (h : row.outFmt = .fp32 ∨ row.outFmt = .bf16) :
    s.dequantRow r.stall row =
      s.vxeRun r.stall row true (fun _ => [rowArea row row.a, (row.b, 4)]) (vecBytes row.outFmt row.count) fun s x =>
        let k := of32 (leNat (x.cribRead row.b 4))
        fpOut s x row.outFmt (k.isFinite && (rowValues row x row.a).all FVal.isFinite)
          ((rowValues row x row.a).map fun v => fmul v k) 0 := by
  have hlegal : (decide (row.outFmt = .fp32) || decide (row.outFmt = .bf16)) = true := by
    simpa only [Bool.or_eq_true, decide_eq_true_eq] using h
  rw [State.dequantRow, hlegal]

/-- A row of outputs that draws nothing and counts saturations alone: its elements one by one, and how many saturated. -/
theorem rowOut_of_pure (n : Nat) (f : Fmt) (value : Nat → Nat) (sat : Nat → Bool) :
    rowOut s n f (fun s k => (s, value k, ⟨0, if sat k then 1 else 0, 0, 0⟩)) =
      (s, packElems f ((List.range n).map value), ⟨0, ((List.range n).filter sat).length, 0, 0⟩) := by
  have hfold : (List.range n).foldl (fun (a : State × List Nat × Tally) k =>
      (a.1, a.2.1 ++ [value k], a.2.2.add ⟨0, if sat k then 1 else 0, 0, 0⟩)) (s, [], Tally.zero) =
        (s, (List.range n).map value, ⟨0, ((List.range n).filter sat).length, 0, 0⟩) := by
    induction n with
    | zero => rfl
    | succ n ih =>
      rw [List.range_succ, List.foldl_append, ih, List.map_append, List.filter_append, List.length_append]
      cases hsat : sat n <;> simp [Tally.add, hsat]
  exact congrArg (fun a : State × List Nat × Tally => (a.1, packElems f a.2.1, a.2.2)) hfold

/-- An element of a rescaled row, and whether the clamp changed it (R129, R131). -/
def rescaleElement (o : RescaleOp) (x : Inst) (k : Nat) : Int × Bool :=
  rescaleOut (signedOf 32 (leAt (x.cribRead o.src (o.count * 4)) (k * 4) 4))
    (parseRescale (x.cribRead (o.table + rescaleIndex o.mode (k % o.channels) (k / o.channels) * 8) 8)) x.desc.roundEven o.out

theorem State.rescaleRow_of_legal {o : RescaleOp} {i : Nat} (h : s.EngineRuns r engineVxe i x) (hch : 1 ≤ o.channels)
    (hok : rescaleOk x o.out o.mode o.table o.channels (ceilDiv o.count (max o.channels 1)) = true) :
    s.rescaleRow r.stall o = s.vxeRun r.stall ⟨o.count, .int32, o.out, o.src, 0, 0, o.dst⟩ true
      (fun _ => [rowArea ⟨o.count, .int32, o.out, o.src, 0, 0, o.dst⟩ o.src,
        (o.table, rescaleCount o.mode o.channels (ceilDiv o.count (max o.channels 1)) * 8)]) (vecBytes o.out o.count) fun s x =>
          rowOut s o.count o.out fun s k =>
            (s, natOfInt (fmtBits o.out) (rescaleElement o x k).1, ⟨0, if (rescaleElement o x k).2 then 1 else 0, 0, 0⟩) := by
  have hlegal : (decide (1 ≤ o.channels) && rescaleOk x o.out o.mode o.table o.channels (ceilDiv o.count (max o.channels 1))) = true := by
    rw [hok, Bool.and_true, decide_eq_true hch]
  obtain ⟨hrun, -⟩ := h
  simp only [State.rescaleRow, hrun, hlegal]
  rfl

/-- Settles O32: each row operation computes from its operand rows, and the VXE writes what it computes. -/
theorem rowOperationResults : Obligations.RowOperationResults := by
  refine ⟨?elementwise, ?reduction, ?layerNorm, ?rmsNorm, ?softmax, ?scale, ?quant, ?dequant, ?rescale⟩
  case elementwise => exact fun s r op row i x h => exec_of_vxeRun h rfl rfl rfl
  case reduction =>
    exact fun s r row i x h => ⟨exec_of_vxeRun h rfl rfl rfl, exec_of_vxeRun h rfl rfl rfl, exec_of_vxeRun h rfl rfl rfl⟩
  case layerNorm => exact fun s r row epsilon i x h => exec_of_vxeRun h rfl rfl rfl
  case rmsNorm => exact fun s r row epsilon i x h => exec_of_vxeRun h rfl rfl rfl
  case softmax => exact fun s r row i x h => ⟨exec_of_vxeRun h rfl rfl rfl, softmaxOf_of_all_negInf⟩
  case scale => exact fun s r row target q i x hq h => exec_of_vxeRun h rfl rfl (State.scaleRow_of_qmax hq)
  case quant => exact fun s r row target q i x hq h => exec_of_vxeRun h rfl rfl (State.quantRow_of_qmax hq)
  case dequant => exact fun s r row i x hout h => exec_of_vxeRun h rfl rfl (State.dequantRow_of_out hout)
  case rescale =>
    intro s r o i x row tokens reads hch hok h entry value
    refine ⟨⟨0, ((List.range o.count).filter fun k => (value k).2).length, 0, 0⟩, rfl, rfl, rfl, ?_⟩
    have hout := rowOut_of_pure (s := s) o.count o.out (fun k => natOfInt (fmtBits o.out) (rescaleElement o x k).1)
      fun k => (rescaleElement o x k).2
    have hdone := exec_of_vxeRun (c := .rescale r o) h hout rfl (State.rescaleRow_of_legal h.1 hch hok)
    exact hdone

end Sys2Proof.Machine
end

section
/-! Issue and end of a bank-side command (05 R136 to R139). -/

namespace Sys2Proof.Machine

variable {c : Instr} {s : State} {r : EngineRef} {off i : Nat} {x : Inst}

/-- The opcode of a command of a kind (05 R136). -/
def bseOpcode (wsum : Bool) : Nat := if wsum then 2 else 1

/-- A command in the crib with its number and the end of its matrix, as it joins the list (05 R136). -/
def State.bseNew (s : State) (i off : Nat) (x : Inst) : BseCommand :=
  let c := parseBse (x.cribRead off 32) i (!x.desc.be) s.engines.nextCommand
  { c with stop := c.matrix.toNat + (c.rows - 1) * c.stride + c.rowBytes }

/-- The list of commands with one more, and the next number. -/
def State.bseListed (s : State) (c : BseCommand) : State :=
  { s with engines := { s.engines with nextCommand := s.engines.nextCommand + 1, commands := s.engines.commands ++ [c] } }

section
variable {wsum : Bool} (h : s.EngineRuns r engineBse i x) (hop : leAt (x.cribRead off 32) 0 1 = bseOpcode wsum)
include h hop

/-- A command of the instruction's own kind that lies in the crib is listed where it meets the rules, and else ends its sheaf. -/
theorem State.bseIssue_of_opcode (hin : x.inCrib off 32 = true) :
    s.bseIssue r.stall off wsum =
      if !(parseBse (x.cribRead off 32) i (!x.desc.be) s.engines.nextCommand).ok x.cribSize then s.abortInst i causeProgram
      else ((s.bseListed (s.bseNew i off x)).bseAdvance (s.bseNew i off x).id (s.bseNew i off x).pages).refresh i := by
  obtain ⟨hrun, -⟩ := h
  have hknown : ¬ (bseOpcode wsum ≠ 1 ∧ bseOpcode wsum ≠ 2) := by cases wsum <;> decide
  have hsame : ¬ ((bseOpcode wsum = 2) ≠ (wsum = true)) := by cases wsum <;> simp [bseOpcode]
  simp only [State.bseIssue, hrun, hin, hop, hknown, hsame, Bool.not_true, Bool.false_eq_true, if_false]
  rfl

theorem State.bseIssue_of_ok (hin : x.inCrib off 32 = true)
    (hok : (parseBse (x.cribRead off 32) i (!x.desc.be) s.engines.nextCommand).ok x.cribSize = true) :
    s.bseIssue r.stall off wsum =
      ((s.bseListed (s.bseNew i off x)).bseAdvance (s.bseNew i off x).id (s.bseNew i off x).pages).refresh i := by
  rw [State.bseIssue_of_opcode h hop hin, hok, Bool.not_true, if_neg Bool.false_ne_true]

/-- A command that breaks the rules is a protection fault of cause PROGRAM. -/
theorem State.bseIssue_of_illegal (hbad : x.inCrib off 32 = false ∨
    (parseBse (x.cribRead off 32) i (!x.desc.be) s.engines.nextCommand).ok x.cribSize = false) :
    s.bseIssue r.stall off wsum = s.abortInst i causeProgram := by
  cases hin : x.inCrib off 32 with
  | false =>
    obtain ⟨hrun, -⟩ := h
    simp only [State.bseIssue, hrun, hin, Bool.not_false, if_true]
  | true =>
    have hok := hbad.resolve_left (by rw [hin]; nofun)
    rw [State.bseIssue_of_opcode h hop hin, hok, Bool.not_false, if_pos rfl]

/-- The instruction of a kind runs the command of that kind. -/
theorem exec_of_bseIssue
    (hc : exec c s = s.done (s.tokened r engineBse (fun _ => bseFits off wsum) fun s => s.bseIssue r.stall off wsum)) :
    exec c s = .next (settle s ((s.bseIssue r.stall off wsum).engineEnds i r)) := by
  have hfits : bseFits off wsum x = true := by
    rw [bseFits, hop]
    cases wsum <;> rfl
  rw [hc, State.tokened_of_engineRuns h hfits, State.done]

end

theorem State.shareDone_of_command {share id : Nat} {sh : BseShare}
    (h : s.engines.shares.find? (fun q => q.id = share && q.taken) = some sh) (hw : sh.work = .command id) :
    s.shareDone share = (s.commandShareDone sh id).passRoom := by
  simp only [State.shareDone, h, hw]

/-- A share that no die has taken cannot end (log 2). -/
theorem State.shareDone_of_untaken {share : Nat} (h : s.engines.shares.find? (fun q => q.id = share && q.taken) = none) :
    s.shareDone share = s := by
  simp only [State.shareDone, h]

/-- Settles O35: a command of either kind is checked and listed, or aborts its sheaf; a taken share ends on its die (log 34). -/
theorem bankSideCommands : Obligations.BankSideCommands := by
  refine ⟨?issued, ?illegal, ?share, ?noShare⟩
  case issued =>
    intro s r off i x h hin e c0 c u hok
    refine ⟨fun hop => ?_, fun hop => ?_⟩
    · rw [exec_of_bseIssue (wsum := false) h hop rfl, State.bseIssue_of_ok h hop hin hok]
      rfl
    · rw [exec_of_bseIssue (wsum := true) h hop rfl, State.bseIssue_of_ok h hop hin hok]
      rfl
  case illegal =>
    intro s r off i x h hbad
    refine ⟨fun hop => ?_, fun hop => ?_⟩
    · rw [exec_of_bseIssue (wsum := false) h hop rfl, State.bseIssue_of_illegal h hop hbad]
    · rw [exec_of_bseIssue (wsum := true) h hop rfl, State.bseIssue_of_illegal h hop hbad]
  case share => exact fun s share id sh h hw => congrArg s.done (State.shareDone_of_command h hw)
  case noShare => exact fun s share h => congrArg s.done (State.shareDone_of_untaken h)

end Sys2Proof.Machine
end

section
/-! Bytes read back where a run of bytes has been written (00 R9, 04 R84). -/

namespace Sys2Proof.Machine

variable {m : AMap Byte} {a b len j : Nat} {bs : Bytes}

@[simp] theorem leBytes_length (k n : Nat) : (leBytes k n).length = k := by
  induction k generalizing n with
  | zero => rfl
  | succ k ih => rw [leBytes, List.length_cons, ih]

theorem leNat_leBytes (k n : Nat) : leNat (leBytes k n) = n % 256 ^ k := by
  induction k generalizing n with
  | zero => rw [leBytes, leNat, Nat.pow_zero, Nat.mod_one]
  | succ k ih =>
    rw [leBytes, leNat, ih, BitVec.toNat_ofNat, Nat.pow_succ' (m := 256)]
    exact Nat.mod_mul.symm

theorem natOfInt_lt (k : Nat) (v : Int) : natOfInt k v < 2 ^ k := by
  have hpos : (0 : Int) < (2 ^ k : Nat) := by exact_mod_cast Nat.two_pow_pos k
  have hlo := Int.emod_nonneg v (Int.ne_of_gt hpos)
  have hhi := Int.emod_lt_of_pos v hpos
  unfold natOfInt
  omega

theorem memGet_memPutAll_outside (h : b + len ≤ a ∨ a + bs.length ≤ b) : memGet (memPutAll m a bs) b len = memGet m b len :=
  List.map_congr_left fun k hk => memPutAll_outside m a bs (b + k) (by have := List.mem_range.mp hk; omega)

theorem memGet_memPutAll_inside (hm : Memory.wf m) (h : j + len ≤ bs.length) : memGet (memPutAll m a bs) (a + j) len = slice bs j len := by
  refine List.ext_getElem ?_ fun k hk _ => ?_
  · simp only [memGet, slice, List.length_map, List.length_range, List.length_take, List.length_drop]
    omega
  · have hlt : k < len := by simpa only [memGet, List.length_map, List.length_range] using hk
    simp only [memGet, slice, List.getElem_map, List.getElem_range, List.getElem_take, List.getElem_drop, Nat.add_assoc]
    exact memPutAll_inside a bs hm (j + k) (by omega)

theorem packElems_int32_length (l : List Nat) : (packElems .int32 l).length = l.length * 4 := by
  have hflat : packElems .int32 l = l.flatMap (leBytes 4) := rfl
  rw [hflat]
  induction l with
  | nil => rfl
  | cons v rest ih => rw [List.flatMap_cons, List.length_append, leBytes_length, ih rfl, List.length_cons, Nat.succ_mul, Nat.add_comm]

theorem slice_packElems_int32 (l : List Nat) {k : Nat} (hk : k < l.length) : slice (packElems .int32 l) (k * 4) 4 = leBytes 4 l[k] := by
  simp only [packElems, reduceCtorEq, if_false, fmtBits, Nat.reduceDiv, slice]
  induction l generalizing k with
  | nil => exact absurd hk (Nat.not_lt_zero k)
  | cons v rest ih =>
    cases k with
    | zero => rw [List.flatMap_cons, Nat.zero_mul, List.drop_zero, List.take_left' (leBytes_length 4 v), List.getElem_cons_zero]
    | succ k =>
      rw [List.flatMap_cons, Nat.succ_mul, Nat.add_comm, ← List.drop_drop, List.drop_left' (leBytes_length 4 v), List.getElem_cons_succ]
      exact ih (Nat.lt_of_succ_lt_succ hk)

end Sys2Proof.Machine
end

section
/-! The partial sums that an integer pass of the MXE writes (05 R120, R122). -/

namespace Sys2Proof.Machine

variable {s : State} {r : EngineRef} {p : MxePass} {i tileOff dst k channels : Nat} {x : Inst}

/-! ### Columns of results, one after the other -/

/-- The crib after `n` columns of results, `len` bytes each, written one after the other. -/
def Inst.cribColumns (x : Inst) (dst len : Nat) (bytes : Nat → Bytes) (mark : Nat → Bool) : Nat → Inst
  | 0 => x
  | n + 1 => (x.cribColumns dst len bytes mark n).cribWrite (dst + n * len) (bytes n) (mark n)

theorem Inst.cribColumns_wf {dst len : Nat} {bytes : Nat → Bytes} {mark : Nat → Bool} (hx : Memory.wf x.crib) (n : Nat) :
    Memory.wf (x.cribColumns dst len bytes mark n).crib := by
  induction n with
  | zero => exact hx
  | succ n ih => exact memPutAll_wf _ _ ih

/-- A fold that leaves the state alone and writes one column a step leaves its columns in the crib. -/
theorem foldl_eq_cribColumns {dst len : Nat} {bytes : Nat → Bytes} {mark : Nat → Bool}
    {step : State × Inst × Tally → Nat → State × Inst × Tally}
    (hstep : ∀ y t c, step (s, y, t) c = (s, y.cribWrite (dst + c * len) (bytes c) (mark c), (step (s, y, t) c).2.2)) (t : Tally) (n : Nat) :
    (List.range n).foldl step (s, x, t) = (s, x.cribColumns dst len bytes mark n, ((List.range n).foldl step (s, x, t)).2.2) := by
  induction n with
  | zero => rfl
  | succ n ih =>
    rw [List.range_succ, List.foldl_append, ih]
    exact hstep _ _ n

/-- A column reads as written, for the columns do not overlap. -/
theorem Inst.cribRead_cribColumns {dst len c j k n : Nat} {bytes : Nat → Bytes} {mark : Nat → Bool} (hx : Memory.wf x.crib)
    (hlen : ∀ c, (bytes c).length = len) (hc : c < n) (hj : j + k ≤ len) :
    (x.cribColumns dst len bytes mark n).cribRead (dst + c * len + j) k = slice (bytes c) j k := by
  induction n with
  | zero => exact absurd hc (Nat.not_lt_zero c)
  | succ n ih =>
    rcases Nat.lt_succ_iff_lt_or_eq.mp hc with hlt | rfl
    · have hbefore : c * len + len ≤ n * len := by
        rw [← Nat.succ_mul]
        exact Nat.mul_le_mul_right len hlt
      rw [← ih hlt]
      exact memGet_memPutAll_outside (.inl (by omega))
    · exact memGet_memPutAll_inside (Inst.cribColumns_wf hx c) (by rw [hlen]; exact hj)

/-! ### A column of the pass -/

/-- The sum of the products of a channel's weights and a column (05 R120); the tile lies channel by channel (log 83). -/
def mxeSum (p : MxePass) (tile col : Bytes) (ch : Nat) : Int :=
  (List.range p.depth).foldl (fun (a : Int) j =>
    a + signedOf (fmtBits p.weights) (elemBits p.weights tile (ch * p.depth + j)) * signedOf (fmtBits p.columns) (elemBits p.columns col j)) 0

/-- The accumulator of a sum. -/
def sumEl (v : Int) : AccEl := ⟨natOfInt 32 v, false, false⟩

theorem mxeDot_of_int (tile col : Bytes) (ch : Nat) : mxeDot s true p tile col ch = (s, sumEl (mxeSum p tile col ch)) := by
  simp only [mxeDot, mxeSum, sumEl, List.foldl_map, if_true]

theorem mxeColumn_of_int (tile col : Bytes) :
    mxeColumn s true p tile col = (s, (List.range p.channels).map fun ch => sumEl (mxeSum p tile col ch)) := by
  unfold mxeColumn
  generalize p.channels = n
  induction n with
  | zero => rfl
  | succ n ih =>
    rw [List.range_succ, List.foldl_append, ih, List.map_append]
    simp only [List.foldl_cons, List.foldl_nil, mxeDot_of_int, List.map_cons, List.map_nil]

theorem epilogueArea_of_partialSum (h : p.epilogue = .partialSum dst) : epilogueArea x p true = some (.int32, dst, []) := by
  simp only [epilogueArea, h, if_true]

theorem columnOut_of_partialSum (h : p.epilogue = .partialSum dst) (c : Nat) (accs : List AccEl) :
    (columnOut x p true .int32 c accs).1 = packElems .int32 (accs.map (·.bits)) := by
  unfold columnOut epilogueOut
  simp only [h, List.map_map]
  refine congrArg (packElems .int32) (List.ext_getElem (by simp) fun ch hch _ => ?_)
  have hlt : ch < accs.length := by simpa using hch
  simp [hlt]

/-- The bytes of one column of sums. -/
def Inst.sumBytes (x : Inst) (p : MxePass) (tileOff c : Nat) : Bytes :=
  packElems .int32 ((List.range p.channels).map fun ch => natOfInt 32 (mxeSum p
    (x.cribRead tileOff (vecBytes p.weights (p.depth * p.channels)))
    (x.cribRead (p.columnOffset + c * p.columnStride) (vecBytes p.columns p.depth)) ch))

/-- The tile or the column of a result is marked (05 R134). -/
def Inst.sumMark (x : Inst) (p : MxePass) (tileOff c : Nat) : Bool :=
  x.cribMarked tileOff (vecBytes p.weights (p.depth * p.channels)) ||
    x.cribMarked (p.columnOffset + c * p.columnStride) (vecBytes p.columns p.depth)

/-- The sums of a pass stand in the crib, column by column (log 83). -/
def Inst.partialSums (x : Inst) (p : MxePass) (tileOff dst : Nat) : Inst :=
  x.cribColumns dst (p.channels * 4) (x.sumBytes p tileOff) (x.sumMark p tileOff) p.columnCount

theorem Inst.cribRead_partialSums {c ch : Nat} (hx : Memory.wf x.crib) (hc : c < p.columnCount) (hch : ch < p.channels) :
    leNat ((x.partialSums p tileOff dst).cribRead (dst + (c * p.channels + ch) * 4) 4) = natOfInt 32 (mxeSum p
      (x.cribRead tileOff (vecBytes p.weights (p.depth * p.channels)))
      (x.cribRead (p.columnOffset + c * p.columnStride) (vecBytes p.columns p.depth)) ch) := by
  have hlen : ∀ c, (x.sumBytes p tileOff c).length = p.channels * 4 := fun c => by
    rw [Inst.sumBytes, packElems_int32_length, List.length_map, List.length_range]
  have haddr : dst + (c * p.channels + ch) * 4 = dst + c * (p.channels * 4) + ch * 4 := by
    rw [Nat.add_mul, Nat.mul_assoc, Nat.add_assoc]
  rw [Inst.partialSums, haddr, Inst.cribRead_cribColumns hx hlen hc (by omega), Inst.sumBytes, slice_packElems_int32 _ (by simpa using hch), leNat_leBytes,
    List.getElem_map, List.getElem_range]
  exact Nat.mod_eq_of_lt (natOfInt_lt 32 _)

/-! ### The pass -/

section
variable (htile : p.tile = .crib tileOff) (hepi : p.epilogue = .partialSum dst) (h : s.EngineRuns r engineMxe i x)
  (hshape : mxeShape p.weights p.columns = some (k, channels, true)) (hok : passOk p x k channels (.int32, dst, []) = true)
include htile hepi h hshape hok

theorem State.mxePass_insts_of_partialSum : (s.mxePass r.stall p).insts = AMap.set s.insts i (x.partialSums p tileOff dst) := by
  obtain ⟨hrun, -⟩ := h
  simp only [State.mxePass, hrun, hshape, epilogueArea_of_partialSum hepi, hok, State.tileOf, htile, Bool.not_true, Bool.false_eq_true, if_false,
    List.any_nil, Bool.or_false]
  rw [foldl_eq_cribColumns (dst := dst) (len := p.channels * 4) (bytes := x.sumBytes p tileOff) (mark := x.sumMark p tileOff)]
  · rfl
  · intro y t c
    simp only [mxeColumn_of_int, columnOut_of_partialSum hepi, List.map_map]
    rfl

theorem exec_mxePass_of_partialSum : exec (.mxePass r p) s = .next (settle s ((s.mxePass r.stall p).engineEnds i r)) := by
  have hnow : (!s.tileLate p i x) = true := by
    simp only [State.tileLate, hshape, epilogueArea_of_partialSum hepi, hok, State.tileOf, htile, Option.isNone_some, Bool.and_false, Bool.not_false]
  exact congrArg s.done (State.tokened_of_engineRuns h hnow)

/-- With the crib in its canonical form the sums read back as they are. -/
theorem mxeIntegerSums_of_wf (hx : Memory.wf x.crib) :
    ∃ (u : State) (y : Inst), exec (.mxePass r p) s = .next (settle s (u.engineEnds i r)) ∧ u.inst? i = some y ∧
      ∀ c ch, c < p.columnCount → ch < p.channels → leNat (y.cribRead (dst + (c * p.channels + ch) * 4) 4) =
        natOfInt 32 (mxeSum p (x.cribRead tileOff (vecBytes p.weights (p.depth * p.channels)))
          (x.cribRead (p.columnOffset + c * p.columnStride) (vecBytes p.columns p.depth)) ch) := by
  refine ⟨s.mxePass r.stall p, x.partialSums p tileOff dst, exec_mxePass_of_partialSum htile hepi h hshape hok, ?_,
    fun c ch hc hch => Inst.cribRead_partialSums hx hc hch⟩
  rw [State.inst?, State.mxePass_insts_of_partialSum htile hepi h hshape hok, AMap.get?_set_same]

end

/-! ### A crib that lists an address twice -/

/-- A crib outside the canonical form: the address 128 stands in it twice. -/
def twiceListed : AMap Byte := [(128, 1), (128, 1)]

/-- A sheaf that uses the MXE, in a crib of one unit. -/
def mxeSheaf : SheafDesc :=
  { graph := 0, be := false, roundEven := false, replay := false, node := 0, rowCount := 1, engines := 1, cribUnits := 1, rowTable := 0
    inputProg := 0, weightProg := 0xFFFF, outputProg := 0, nextProg := 0xFFFF, consume0 := 0, consume1 := 0xFFFF, produce0 := 1
    produce1 := 0xFFFF, resetMasks := 0, deadline := 0, engineTime := 100, stagger := 0, steps := 1 }

/-- It is resident, over that crib. -/
def twiceListedInst : Inst := { freshInst 0 mxeSheaf 0 .submit none 0 0 with state := .resident, crib := twiceListed }

/-- It issues on core 0. -/
def twiceListedState : State :=
  { State.reset with
    engines := .reset, trans := .reset, insts := [(1, twiceListedInst)]
    cores := [(0, { Core.reset with slots := [(0, 1)], issuing := some 0 })] }

/-- A pass of one column and one channel over zeros, whose sum, 0, goes to the address 128. -/
def zeroPass : MxePass := ⟨.int8, .int8, .crib 0, 64, 0, 1, 1, 1, .partialSum 128⟩

/-- Slot 0 of core 0, with no token to wait on or to post. -/
def firstStall : EngineRef := ⟨⟨0, 0⟩, none, none⟩

/-- Writing a zero byte takes one of the two entries out, and the other is read. -/
theorem cribRead_twiceListed : leNat ((twiceListedInst.partialSums zeroPass 0 128).cribRead 128 4) = 1 := rfl

/-- Refutes O34: a zero written where the crib lists an address twice reads as the second entry. With the crib in canonical
form the statement holds (`mxeIntegerSums_of_wf`). -/
theorem not_mxeIntegerSums : ¬ Obligations.MxeIntegerSums := by
  intro hall
  have hruns : twiceListedState.EngineRuns firstStall engineMxe 1 twiceListedInst := ⟨rfl, rfl⟩
  have hok : passOk zeroPass twiceListedInst 256 256 (.int32, 128, []) = true := by decide
  obtain ⟨u, y, hexec, hy, hsums⟩ := hall twiceListedState firstStall zeroPass 1 0 128 256 256 twiceListedInst rfl rfl hruns rfl hok
  have hleft : settle twiceListedState (twiceListedState.mxePass firstStall.stall zeroPass) = settle twiceListedState u :=
    Host.Outcome.next.inj ((exec_mxePass_of_partialSum rfl rfl hruns rfl hok).symm.trans hexec)
  have hinsts : u.insts = AMap.set twiceListedState.insts 1 (twiceListedInst.partialSums zeroPass 0 128) := by
    rw [← settle_insts twiceListedState u, ← hleft, settle_insts, State.mxePass_insts_of_partialSum rfl rfl hruns rfl hok]
  have hyeq : y = twiceListedInst.partialSums zeroPass 0 128 := by
    rw [State.inst?, hinsts, AMap.get?_set_same] at hy
    exact (Option.some.inj hy).symm
  have hzero := hsums 0 0 (by decide) (by decide)
  rw [hyeq] at hzero
  exact absurd (cribRead_twiceListed.symm.trans hzero) (by decide)

end Sys2Proof.Machine
end

section
/-! A stream or sequence context read back where it has been written, and what the start of a write leaves of it (06 R143, 08 R185); the answer of a
command that is an effect of its own. -/

namespace Sys2Proof.Machine

theorem AMap.set_set {α : Type} (m : AMap α) (k : Nat) (v w : α) : AMap.set (AMap.set m k v) k w = AMap.set m k w := by
  induction m with
  | nil => simp [AMap.set]
  | cons e rest ih =>
    obtain ⟨a, u⟩ := e
    rcases Nat.lt_trichotomy k a with hlt | rfl | hgt
    · simp [AMap.set, hlt]
    · simp [AMap.set]
    · simp [AMap.set, Nat.lt_asymm hgt, Nat.ne_of_gt hgt, ih]

@[simp] theorem State.stream_setStream_same (s : State) (i : Nat) (x : Stream) : (s.setStream i x).stream i = x :=
  AMap.getD_set_same s.streams i x .idle

theorem State.stream_setStream_other (s : State) {i j : Nat} (x : Stream) (h : j ≠ i) : (s.setStream i x).stream j = s.stream j :=
  AMap.getD_set_other s.streams x .idle h

theorem State.setStream_setStream (s : State) (i : Nat) (x y : Stream) : (s.setStream i x).setStream i y = s.setStream i y :=
  congrArg (fun m => { s with streams := m }) (AMap.set_set s.streams i x y)

/-- A command whose meaning is an effect ends in the state that the effect leaves. -/
theorem exec_of_done {c : Instr} {s t u : State} (hc : exec c s = s.done u) (h : u = t) : exec c s = .next (settle s t) := by
  rw [hc, h, State.done]

@[simp] theorem State.Entered_stream (s : State) (src : Source) (key i : Nat) : (s.Entered src key).stream i = s.stream i := by
  rw [State.Entered, State.writeCloses_eq]
  rfl

@[simp] theorem State.Entered_seqCtx (s : State) (src : Source) (key q : Nat) : (s.Entered src key).seqCtx q = s.seqCtx q := by
  rw [State.Entered, State.writeCloses_eq]
  rfl

end Sys2Proof.Machine
end

section
/-! A stream or sequence command that is refused (06 R144, R146; 08 R186), and a stream command that is accepted. -/

namespace Sys2Proof.Machine

variable {c : Instr} {s t : State} {src : Source} {i : Nat} {allowed : List CtxState} {body : State → State}

theorem exec_of_scCommand_pending (hc : exec c s = s.done (s.plainWrite src (Reg.SC_CMD i) fun s => s.scCommand i allowed body))
    (h : s.MayWrite src (Reg.SC_CMD i)) (hp : (s.stream i).pending ≠ none) :
    exec c s = .next (settle s ((s.Entered src (Reg.SC_CMD i)).setStream i { s.stream i with refused := true, reason := 8 })) := by
  refine exec_of_plainWrite hc h ?_
  rw [State.scCommand, State.Entered_stream, if_pos (Option.isSome_iff_ne_none.mpr hp), State.scRefuse, State.Entered_stream]

theorem exec_of_scCommand_unlisted (hc : exec c s = s.done (s.plainWrite src (Reg.SC_CMD i) fun s => s.scCommand i allowed body))
    (h : s.MayWrite src (Reg.SC_CMD i)) (hp : (s.stream i).pending = none) (hs : (s.stream i).state ∉ allowed) :
    exec c s = .next (settle s ((s.Entered src (Reg.SC_CMD i)).setStream i { s.stream i with refused := true, reason := 1 })) := by
  refine exec_of_plainWrite hc h ?_
  rw [State.scCommand, State.Entered_stream, if_neg (by rw [hp]; nofun), if_pos (by simpa using hs), State.scRefuse, State.Entered_stream]

/-- The state in which an accepted stream command acts: its source's guard of the block has closed, and REFUSED has ended. -/
def State.scStarted (s : State) (src : Source) (i : Nat) : State :=
  (s.Entered src (Reg.SC_CMD i)).setStream i { s.stream i with refused := false, reason := 0 }

theorem exec_of_scCommand (hc : exec c s = s.done (s.plainWrite src (Reg.SC_CMD i) fun s => s.scCommand i allowed body))
    (h : s.MayWrite src (Reg.SC_CMD i)) (hp : (s.stream i).pending = none) (hs : (s.stream i).state ∈ allowed)
    (ht : body (s.scStarted src i) = t) : exec c s = .next (settle s t) := by
  refine exec_of_plainWrite hc h ?_
  rw [State.scCommand, State.Entered_stream, if_neg (by rw [hp]; nofun), if_neg (by simpa using hs), ← ht]
  rfl

theorem exec_of_sqCommand_pending (hc : exec c s = s.done (s.plainWrite src (Reg.SQ_CMD i) fun s => s.sqCommand i allowed body))
    (h : s.MayWrite src (Reg.SQ_CMD i)) (hp : (s.seqCtx i).pending ≠ none) :
    exec c s = .next (settle s ((s.Entered src (Reg.SQ_CMD i)).setSeq i { s.seqCtx i with refused := true, reason := 8 })) := by
  refine exec_of_plainWrite hc h ?_
  rw [State.sqCommand, State.Entered_seqCtx, if_pos (Option.isSome_iff_ne_none.mpr hp), State.sqRefuse, State.Entered_seqCtx]

theorem exec_of_sqCommand_unlisted (hc : exec c s = s.done (s.plainWrite src (Reg.SQ_CMD i) fun s => s.sqCommand i allowed body))
    (h : s.MayWrite src (Reg.SQ_CMD i)) (hp : (s.seqCtx i).pending = none) (hs : (s.seqCtx i).state ∉ allowed) :
    exec c s = .next (settle s ((s.Entered src (Reg.SQ_CMD i)).setSeq i { s.seqCtx i with refused := true, reason := 1 })) := by
  refine exec_of_plainWrite hc h ?_
  rw [State.sqCommand, State.Entered_seqCtx, if_neg (by rw [hp]; nofun), if_pos (by simpa using hs), State.sqRefuse, State.Entered_seqCtx]

/-- Settles O42: each command is one `scCommand` or `sqCommand`, which looks for a pending command first, and then at the state. -/
theorem contextCommandsRefused : Obligations.ContextCommandsRefused := by
  refine ⟨?stream, ?sequence⟩
  case stream =>
    intro s src sid c allowed h hc w
    rcases hc with ⟨rfl, rfl⟩ | ⟨rfl, rfl⟩ | ⟨rfl, rfl⟩ | ⟨rfl, rfl⟩ | ⟨rfl, rfl⟩ | ⟨rfl, rfl⟩ | ⟨rfl, rfl⟩ | ⟨rfl, rfl⟩ <;>
      exact ⟨exec_of_scCommand_pending rfl h, exec_of_scCommand_unlisted rfl h⟩
  case sequence =>
    intro s src q c allowed h hc w
    rcases hc with ⟨rfl, rfl⟩ | ⟨rfl, rfl⟩ | ⟨rfl, rfl⟩ | ⟨rfl, rfl⟩ | ⟨rfl, rfl⟩ | ⟨rfl, rfl⟩ | ⟨rfl, rfl⟩ <;>
      exact ⟨exec_of_sqCommand_pending rfl h, exec_of_sqCommand_unlisted rfl h⟩

end Sys2Proof.Machine
end

section
/-! What an accepted stream command finds (06 R144 to R146), and what ARM leaves (06 R144, R147, R151). -/

namespace Sys2Proof.Machine

variable (s : State) (src : Source) (i : Nat)

@[simp] theorem State.Entered_bayOfSid (key : Nat) : (s.Entered src key).bayOfSid i = s.bayOfSid i := by
  rw [State.Entered, State.writeCloses_eq]
  rfl

@[simp] theorem State.Entered_armReason (key b : Nat) : (s.Entered src key).armReason b i = s.armReason b i := by
  rw [State.Entered, State.writeCloses_eq]
  rfl

@[simp] theorem State.scStarted_stream : (s.scStarted src i).stream i = { s.stream i with refused := false, reason := 0 } :=
  State.stream_setStream_same _ i _

@[simp] theorem State.setStream_scStarted (x : Stream) : (s.scStarted src i).setStream i x = (s.Entered src (Reg.SC_CMD i)).setStream i x :=
  State.setStream_setStream _ i _ x

@[simp] theorem State.scStarted_bayOfSid : (s.scStarted src i).bayOfSid i = s.bayOfSid i := State.Entered_bayOfSid s src i _

@[simp] theorem State.scStarted_armReason (b : Nat) : (s.scStarted src i).armReason b i = s.armReason b i :=
  State.Entered_armReason s src i _ b

theorem CtxState.mem_of_ne_idle {st : CtxState} (h : st ≠ .idle) : st ∈ [CtxState.armed, .running, .paused, .draining] := by
  cases st <;> simp at h ⊢

theorem State.pauseStream_of_no_bay {s : State} {i : Nat} (h : s.bayOfSid i = none) : s.pauseStream i =
    s.setStream i { s.stream i with state := .paused, pending := if (s.stream i).inflight.isSome then some .pause else none } := by
  simp only [State.pauseStream, h]

theorem State.armStream_stream_same (b : Nat) : ((s.armStream b i).stream i).state = .armed := by
  simp only [State.stream, State.armStream, State.setReg_streams, State.setBatcher_streams, State.setStream, AMap.getD_set_same]

theorem State.armStream_stream_other (b : Nat) {j : Nat} (h : j ≠ i) : (s.armStream b i).stream j = s.stream j := by
  simp only [State.stream, State.armStream, State.setReg_streams, State.setBatcher_streams, State.setStream, AMap.getD_set_other _ _ _ h,
    State.applyAll_streams]

/-- ARM leaves the stream at chunk 0 (06 R148). -/
theorem State.armStream_chunkSeq (b : Nat) : (s.armStream b i).reg (Reg.SC_CHUNK_SEQ i) = 0 := by
  simp [State.armStream, State.reg_setReg_other, Reg.SC_CHUNK_SEQ, Reg.SC_DELAY_BOUND]

/-- ARM leaves the input ring empty: head and tail stand at the start frame (06 R147). -/
theorem State.armStream_inHead (b : Nat) : (s.armStream b i).reg (Reg.SC_IN_HEAD i) = (s.armStream b i).reg (Reg.SC_IN_TAIL i) := by
  simp [State.armStream, State.reg_setReg_other, Reg.SC_CHUNK_SEQ, Reg.SC_DELAY_BOUND, Reg.SC_IN_HEAD, Reg.SC_IN_TAIL]

end Sys2Proof.Machine
end

section
/-! Stream commands in the states that R144 lists. -/

namespace Sys2Proof.Machine

/-- Settles O36: each command acts on the stream with REFUSED ended; RESUME of a stream whose input is closed drains on (log 20). -/
theorem streamCommandsAccepted : Obligations.StreamCommandsAccepted := by
  refine ⟨?arm, ?armed, ?others⟩
  case arm =>
    intro s src sid b h hp hidle hbay hreason u
    exact exec_of_scCommand rfl h hp (List.mem_singleton.mpr hidle) (by simp only [State.scStarted_bayOfSid, hbay, State.scStarted_armReason, hreason]; rfl)
  case armed =>
    exact fun s b sid => ⟨s.armStream_stream_same sid b, s.armStream_chunkSeq sid b, s.armStream_inHead sid b, State.armStream_still.mem,
      fun j hj => s.armStream_stream_other sid b hj⟩
  case others =>
    intro s src sid h hp x w u
    refine ⟨fun hs => ?start, fun hs hbay => ?pauseOutside, fun hs => ?pause, fun hs => ?resume, fun b hbay hs => ?drain,
      fun b hbay hs => ?abort, fun hs => ?reset, fun b hbay hs => ?recheck⟩
    case start =>
      exact exec_of_scCommand rfl h hp (List.mem_singleton.mpr hs) (by rw [State.setStream_scStarted, State.scStarted_stream])
    case pauseOutside =>
      refine exec_of_scCommand rfl h hp (by simpa using hs) ?_
      rw [State.pauseStream_of_no_bay (by rwa [State.scStarted_bayOfSid]), State.setStream_scStarted, State.scStarted_stream]
    case pause => exact exec_of_scCommand rfl h hp (by simpa using hs) rfl
    case resume =>
      refine exec_of_scCommand rfl h hp (List.mem_singleton.mpr hs) ?_
      rw [State.resumeStream, State.setStream_scStarted, State.scStarted_stream]
    case drain => exact exec_of_scCommand rfl h hp (by simpa using hs) (by simp only [State.scStarted_bayOfSid, hbay]; rfl)
    case abort => exact exec_of_scCommand rfl h hp (CtxState.mem_of_ne_idle hs) (by simp only [State.scStarted_bayOfSid, hbay]; rfl)
    case reset => exact exec_of_scCommand rfl h hp (by simpa using hs) rfl
    case recheck => exact exec_of_scCommand rfl h hp (CtxState.mem_of_ne_idle hs) (by simp only [State.scStarted_bayOfSid, hbay]; rfl)

end Sys2Proof.Machine
end

section
/-! Input frames (06 R147, 10 R255): the message that carries them, and one frame. -/

namespace Sys2Proof.Machine

section
variable (s : State) (p cls : Nat)

/-- Taking a message changes the peer's entry alone. -/
theorem State.takeMsg_eq : (s.takeMsg p cls).1 = { s with net := (s.takeMsg p cls).1.net } := by
  unfold State.takeMsg
  dsimp only
  split <;> rfl

@[simp] theorem State.takeMsg_reg (k : Nat) : (s.takeMsg p cls).1.reg k = s.reg k := by
  rw [State.takeMsg_eq]
  rfl

@[simp] theorem State.takeMsg_stream (i : Nat) : (s.takeMsg p cls).1.stream i = s.stream i := by
  rw [State.takeMsg_eq]
  rfl

@[simp] theorem State.takeMsg_bayOfSid (i : Nat) : (s.takeMsg p cls).1.bayOfSid i = s.bayOfSid i := by
  rw [State.takeMsg_eq]
  rfl

@[simp] theorem State.takeMsg_frameLen (i : Nat) : (s.takeMsg p cls).1.frameLen i = s.frameLen i := by
  simp only [State.frameLen, State.takeMsg_reg]

@[simp] theorem State.takeMsg_inService : (s.takeMsg p cls).1.inService = s.inService := by
  rw [State.takeMsg_eq]
  rfl

end

section
variable {s u : State} {peer sid b count : Nat} {msg : Option Word} {chaff : Bool} {first : Word} {data : Bytes}

/-- A message for a stream that its peer feeds, not IDLE, with whole frames, is taken frame by frame. -/
theorem State.inputFrames_of_fit (hm : s.takeMsg peer 3 = (u, msg)) (hb : u.bayOfSid sid = some b)
    (hbale : bit (u.reg (Reg.SC_CTRL sid)) 11 = false) (hpeer : fld (u.reg (Reg.SC_PEER sid)) 13 0 = peer)
    (hstate : (u.stream sid).state ≠ .idle) (hlen : data.length = count * u.frameLen sid) :
    s.inputFrames peer sid chaff first count data = u.takeFrames peer msg b sid chaff first
      ((List.range count).map fun k => slice data (k * u.frameLen sid) (u.frameLen sid)) := by
  simp [State.inputFrames, hm, hb, hbale, hpeer, hstate, hlen]

/-- A message for an IDLE stream is refused; before service it is dropped (16 R379). -/
theorem State.inputFrames_of_idle (hm : s.takeMsg peer 3 = (u, msg)) (hidle : (u.stream sid).state = .idle) :
    s.inputFrames peer sid chaff first count data =
      if u.inService then (u.count32 Reg.EB_RX_REFUSED 1).effect peer msg else u := by
  cases hb : u.bayOfSid sid <;> simp [State.inputFrames, hm, hb, hidle]

end

section
variable {s t : State} {b sid : Nat} {q : Word} {bytes : Bytes} {chaff : Bool} {en : Engine}

theorem State.writeFrame_of_late (h : s.frameLate sid q = true) :
    s.writeFrame b sid q bytes chaff en = (s.count16 (Reg.SC_LATE_DISCARD sid), none) := if_pos h

theorem State.writeFrame_of_overrun (hlate : s.frameLate sid q = false)
    (h : fld (s.reg (Reg.SC_IN_CAP sid)) 15 0 ≤ (q - s.reg (Reg.SC_IN_TAIL sid)).toNat) :
    s.writeFrame b sid q bytes chaff en = (s.count16 (Reg.SC_IN_OVERRUN sid), none) := by
  rw [State.writeFrame, if_neg (by rw [hlate]; nofun), if_pos h]

theorem State.writeFrame_of_written (hlate : s.frameLate sid q = false)
    (hroom : (q - s.reg (Reg.SC_IN_TAIL sid)).toNat < fld (s.reg (Reg.SC_IN_CAP sid)) 15 0)
    (hnew : (s.stream sid).frames.contains q.toNat = false) (hw : s.writeRun b (s.frameVa sid q) bytes chaff en = (t, none)) :
    s.writeFrame b sid q bytes chaff en = (t.frameLanded b sid q, none) := by
  rw [State.writeFrame, if_neg (by rw [hlate]; nofun), if_neg (Nat.not_le.mpr hroom), if_neg (by rw [hnew]; nofun), hw]

end

@[simp] theorem State.Entered_ctxSink (s : State) (src : Source) (key : Nat) (seq : Bool) (i : Nat) :
    (s.Entered src key).ctxSink seq i = s.ctxSink seq i := by
  simp only [State.ctxSink, State.Entered_reg]

/-- Settles O37: a message's checks read nothing that taking it changes, and a frame is late, beyond the ring, or written. -/
theorem framesInAndTailsOut : Obligations.FramesInAndTailsOut := by
  refine ⟨?fit, ?idle, ?late, ?overrun, ?written, ?tail⟩
  case fit =>
    intro s peer sid chaff first count b data hb hbale hpeer hstate hlen m
    have htaken := State.inputFrames_of_fit (chaff := chaff) (first := first) (u := m.1) (msg := m.2) rfl
      ((s.takeMsg_bayOfSid _ _ _).trans hb) (by rwa [State.takeMsg_reg]) (by rwa [State.takeMsg_reg]) (by rwa [State.takeMsg_stream])
      (by rwa [State.takeMsg_frameLen])
    rw [State.takeMsg_frameLen] at htaken
    exact exec_of_done rfl htaken
  case idle =>
    intro s peer sid chaff first count data hidle m
    have hrefused := State.inputFrames_of_idle (chaff := chaff) (first := first) (count := count) (data := data) (u := m.1) (msg := m.2) rfl
      (by rwa [State.takeMsg_stream])
    rw [State.takeMsg_inService] at hrefused
    exact exec_of_done rfl hrefused
  case late => exact fun s b sid q bytes chaff en h => State.writeFrame_of_late h
  case overrun => exact fun s b sid q bytes chaff en hlate h => State.writeFrame_of_overrun hlate h
  case written => exact fun s t b sid q bytes chaff en hlate hroom hnew hw => State.writeFrame_of_written hlate hroom hnew hw
  case tail =>
    intro s src sequence index v i h
    exact ⟨fun hsink => exec_of_plainWrite rfl h (if_pos (by rwa [State.Entered_ctxSink])),
      fun hsink => exec_of_plainWrite rfl h (if_neg (by rwa [State.Entered_ctxSink]))⟩

end Sys2Proof.Machine
end

section
/-! Posting a stream's next chunk (06 R148, R149, R152, R159). -/

namespace Sys2Proof.Machine

variable {s : State} {sid b k : Nat}

/-- An IDLE, ARMED or PAUSED stream posts nothing (06 R144). -/
theorem State.tryPost_of_not_posting
    (h : (s.stream sid).state = .idle ∨ (s.stream sid).state = .armed ∨ (s.stream sid).state = .paused) : s.tryPost sid = s := by
  cases hb : s.bayOfSid sid with
  | none => simp only [State.tryPost, hb]
  | some b => rcases h with h | h | h <;> simp [State.tryPost, hb, h]

/-- A chunk that is ready, and waits for no page, goes on to be posted without silence. -/
theorem State.chunkLook_of_ready (hready : s.chunkReady sid (s.reg (Reg.SC_CHUNK_SEQ sid)) = true) (ha : (s.stream sid).absent = false)
    (set : Option Nat) : s.chunkLook b sid set = s.postReady b sid false false set := by
  simp [State.chunkLook, hready, ha]

theorem seqLt_self (n : Word) : seqLt n n = false := by simp [seqLt]

/-- A member at its set's sequence stays there. -/
theorem State.jumpTo_self : s.jumpTo sid (s.reg (Reg.SC_CHUNK_SEQ sid)) = s := by
  simp [State.jumpTo, seqLt_self]

section
variable (hb : s.bayOfSid sid = some b) (hrun : (s.stream sid).state = .running) (hfly : (s.stream sid).inflight = none)
  (hpend : (s.stream sid).pending = none) (howes : s.owesEmpty false sid = false) (hpost : s.noPosts b = false)
  (hdrop : (s.stream sid).dropTo = none)
include hb hrun hfly hpend howes hpost hdrop

/-- A stream without a set, or whose returned chunk goes first, is looked at on its own (06 R162). -/
theorem State.tryPost_alone (hset : s.setOf sid = none ∨ (s.stream sid).returned = true) : s.tryPost sid = s.chunkLook b sid none := by
  rcases hset with hset | hset <;> simp [State.tryPost, hb, hrun, hfly, hpend, howes, hpost, hdrop, hset]

/-- A member that has not offered, at the sequence of its running set, is looked at for the set (06 R159). -/
theorem State.tryPost_member (hset : s.setOf sid = some k) (hret : (s.stream sid).returned = false)
    (hsrun : (s.alignSet b k).running = true) (hoff : (s.alignSet b k).offered.contains sid = false)
    (hseq : s.reg (Reg.SC_CHUNK_SEQ sid) = s.reg (Reg.BAT_ALIGN_NEXT b k)) : s.tryPost sid = s.chunkLook b sid (some k) := by
  have hjump : s.jumpTo sid (s.reg (Reg.BAT_ALIGN_NEXT b k)) = s := by rw [← hseq, State.jumpTo_self]
  simp only [List.contains_eq_mem, decide_eq_false_iff_not] at hoff
  simp [State.tryPost, hb, hrun, hfly, hpend, howes, hpost, hdrop, hset, hret, hsrun, hoff, hjump, hseq]

end

/-- The end of a wait leaves what is in flight. -/
theorem State.absentEnds_inflight (s : State) (sid : Nat) : ((s.absentEnds sid).stream sid).inflight = (s.stream sid).inflight := by
  unfold State.absentEnds
  dsimp only
  split
  · rw [State.stream, State.keepMax_streams, ← State.stream, State.stream_setStream_same]
  · rfl

/-- The end of a wait enters `SC_ABSENT_MAX`, and no other register. -/
theorem State.absentEnds_reg (s : State) (sid : Nat) {key : Nat} (h : key ≠ Reg.SC_ABSENT_MAX sid) :
    (s.absentEnds sid).reg key = s.reg key := by
  unfold State.absentEnds
  dsimp only
  split
  · exact State.reg_setReg_other _ _ h
  · rfl

section
variable (s : State) (sid : Nat) (kind : SlotKind) (silence : Bool) (deadline : W64)

theorem State.launch_inflight_seq :
    ((s.launch sid kind silence deadline).stream sid).inflight.map (·.seq) = some (s.reg (Reg.SC_CHUNK_SEQ sid)) := by
  rw [State.launch, State.absentEnds_inflight]
  exact congrArg (fun x : Stream => x.inflight.map (·.seq)) (State.stream_setStream_same s sid _)

theorem State.launch_chunkSeq :
    (s.launch sid kind silence deadline).reg (Reg.SC_CHUNK_SEQ sid) = s.reg (Reg.SC_CHUNK_SEQ sid) + 1 := by
  rw [State.launch, State.absentEnds_reg _ _ (by simp [Reg.SC_CHUNK_SEQ, Reg.SC_ABSENT_MAX])]
  exact State.reg_setReg_same _ _ _

end

end Sys2Proof.Machine
end

section
/-! Batches that close, and chains that end (06 R151, R152; 07 R174). -/

namespace Sys2Proof.Machine

variable {s : State} {b g slot : Nat} {x : Batch}

theorem State.batchClose_of_full (h : s.openBatch b g = some x) (hfull : 64 ≤ x.rows.length) :
    s.batchClose b g = (s.closeBatch b g).drainClosing b ((s.closeBatch b g).batcher b).waiting.length := by
  simp only [State.batchClose, h, ge_iff_le, hfull, if_true]

theorem State.endChain_of_empty_slot (h : AMap.get? (s.batcher b).slots slot = none) : s.endChain b slot = s := by
  simp only [State.endChain, h]

section
variable (hslot : AMap.get? (s.batcher b).slots slot = some x) (hheld : x.held = false) (hend : s.chainEnded b slot = true)
include hslot hheld hend

theorem State.endChain_of_finished (hall : x.rows.all (·.finished) = true) :
    s.endChain b slot = (s.freeSlot b slot).drainClosing b (s.batcher b).waiting.length := by
  simp only [State.endChain, hslot, hheld, hend, hall, Bool.not_true, Bool.or_self, Bool.false_eq_true, if_false, if_true]

/-- The one row of a chain that has ended: its headers are due, and are written where they can be (07 R174 step 4). -/
theorem State.endChain_of_row {r : Row} {f : InFlight} (hrows : x.rows = [r]) (hopen : r.finished = false)
    (hfly : s.ctxInflight r.seq r.index = some f) (hstage : f.stage = .running) :
    s.endChain b slot = (s.setInflight r.seq r.index (some { f with stage := .due, cut := x.cut, torn := r.torn, scan := r.scan })).tryHeaders
      r.seq r.index := by
  simp [State.endChain, hslot, hheld, hend, hrows, hopen, hfly, hstage]

end

/-- Settles O38: a chunk is posted through `chunkLook` and `launch`, a batch through `closeBatch`; a chain's row takes its headers with
`tryHeaders`, and an empty slot has no chain to end (log 2). -/
theorem chunksBatchesAndChains : Obligations.ChunksBatchesAndChains := by
  refine ⟨?notPosting, ?posts, ?launched, ?full, ?window, ?noChain, ?row, ?finished, ?complete⟩
  case notPosting => exact fun s sid h => exec_of_done rfl (State.tryPost_of_not_posting h)
  case posts =>
    intro s sid b hb hrun hfly hpend howes hwanted hlulled hdrop hready ha
    have hpost : s.noPosts b = false := by rw [State.noPosts, hwanted, hlulled, Bool.or_self]
    refine ⟨fun hset => exec_of_done rfl ?_, fun k hset hret hsrun hoff hseq => exec_of_done rfl ?_⟩
    · exact (State.tryPost_alone hb hrun hfly hpend howes hpost hdrop hset).trans (State.chunkLook_of_ready hready ha _)
    · exact (State.tryPost_member hb hrun hfly hpend howes hpost hdrop hset hret hsrun hoff hseq).trans
        (State.chunkLook_of_ready hready ha _)
  case launched => exact fun s sid => ⟨s.launch_inflight_seq sid .normal false 0, s.launch_chunkSeq sid .normal false 0⟩
  case full => exact fun s bay graph x h hfull => exec_of_done rfl (State.batchClose_of_full h hfull)
  case window => exact fun s bay graph => rfl
  case noChain => exact fun s bay slot h => exec_of_done rfl (State.endChain_of_empty_slot h)
  case row =>
    exact fun s bay slot x r f hslot hheld hend hrows hopen hfly hstage =>
      exec_of_done rfl (State.endChain_of_row hslot hheld hend hrows hopen hfly hstage)
  case finished =>
    exact fun s bay slot x hslot hheld hend hall =>
      exec_of_done rfl (State.endChain_of_finished hslot hheld hend hall)
  case complete => exact fun s sid => rfl

end Sys2Proof.Machine
end

section
/-! The start of an aligned set, and the end of its slack (06 R159, R161). -/

namespace Sys2Proof.Machine

@[simp] theorem State.Entered_alignSet (s : State) (src : Source) (key b k : Nat) : (s.Entered src key).alignSet b k = s.alignSet b k := by
  rw [State.Entered, State.writeCloses_eq]
  rfl

theorem State.Entered_members (s : State) (src : Source) (key b k : Nat) : (s.Entered src key).members b k = s.members b k := by
  rw [State.Entered, State.writeCloses_eq]
  rfl

theorem State.applyStaged_reg_other (s : State) {key j : Nat} (h : j ≠ key) : (s.applyStaged key).reg j = s.reg j := by
  unfold State.applyStaged
  split
  · simp only [State.reg, State.cell, AMap.getD_set_other _ _ _ h]
  · rfl

/-- The members of a set follow from the streams, the bays' ranges and `SC_SET`. -/
theorem State.members_congr {s t : State} (hstreams : t.streams = s.streams) (hloader : t.loader = s.loader)
    (hset : ∀ i, t.reg (Reg.SC_SET i) = s.reg (Reg.SC_SET i)) (b k : Nat) : t.members b k = s.members b k := by
  have hbay : ∀ i, t.bayOfSid i = s.bayOfSid i := fun i => by simp only [State.bayOfSid, State.bayDef, State.applied, hloader]
  have hsets : ∀ i, t.setOf i = s.setOf i := fun i => by simp only [State.setOf, hset]
  simp only [State.members, hstreams, hbay, hsets]

variable {s : State} {b k : Nat}

/-- A set that START has set going: it stands at a sequence, with its staged slack. -/
def State.setBegun (s : State) (b k : Nat) (n : Word) : State :=
  ((s.setAlign b k ⟨true, none, 0, [], false⟩).setReg (Reg.BAT_ALIGN_NEXT b k) n).applyStaged (Reg.BAT_ALIGN_CFG b k)

/-- START changes no membership. -/
theorem State.members_setBegun (n : Word) : (s.setBegun b k n).members b k = s.members b k := by
  have hcfg : ∀ i, Reg.SC_SET i ≠ Reg.BAT_ALIGN_CFG b k := by
    intro i
    simp only [Reg.SC_SET, Reg.BAT_ALIGN_CFG, streamBase, bayBase, sel]
    omega
  have hnext : ∀ i, Reg.SC_SET i ≠ Reg.BAT_ALIGN_NEXT b k := by
    intro i
    simp only [Reg.SC_SET, Reg.BAT_ALIGN_NEXT, streamBase, bayBase, sel]
    omega
  refine State.members_congr (by rw [State.setBegun, State.applyStaged_streams]; rfl) (by rw [State.setBegun, State.applyStaged_loader]; rfl)
    (fun i => ?_) b k
  rw [State.setBegun, State.applyStaged_reg_other _ (hcfg i), State.reg_setReg_other _ _ (hnext i)]
  rfl

theorem State.alignStart_of_running (h : (s.alignSet b k).running = true) : s.alignStart b k = s := if_pos h

theorem State.alignStart_of_no_members (h : (s.alignSet b k).running = false) (hm : s.members b k = []) :
    s.alignStart b k = s.setBegun b k (s.reg (Reg.BAT_ALIGN_SEQ b)) := by
  have hbegun := (State.members_setBegun (s.reg (Reg.BAT_ALIGN_SEQ b))).trans hm
  rw [State.setBegun] at hbegun
  rw [State.alignStart, if_neg (by rw [h]; nofun)]
  simp only [hbegun, List.foldl_nil]
  rfl

theorem State.slackExpire_of_untimed (h : (s.alignSet b k).timing = none) : s.slackExpire b k = s := by
  simp only [State.slackExpire, h, Option.isNone_none, if_true]

theorem State.slackExpire_of_timed (h : (s.alignSet b k).timing ≠ none) :
    s.slackExpire b k = (s.setAlign b k { s.alignSet b k with expired := true }).postDue b k :=
  if_neg (by rwa [Option.isNone_iff_eq_none])

/-- Settles O39: START acts on a set that does not run, and the slack's end on one that times it (log 2). -/
theorem alignedSets : Obligations.AlignedSets := by
  refine ⟨?running, ?empty, ?start, ?slack⟩
  case running =>
    intro s src bay k h hrun
    exact exec_of_plainWrite rfl h (State.alignStart_of_running (by rwa [State.Entered_alignSet]))
  case empty =>
    intro s src bay k h hrun hm
    refine exec_of_plainWrite rfl h ((State.alignStart_of_no_members (by rwa [State.Entered_alignSet]) (by rwa [State.Entered_members])).trans ?_)
    rw [State.Entered_reg, State.setBegun]
  case start =>
    intro s src bay k h
    exact exec_of_plainWrite rfl h rfl
  case slack =>
    exact fun s bay set => ⟨fun h => exec_of_done rfl (State.slackExpire_of_untimed h),
      fun h => exec_of_done rfl (State.slackExpire_of_timed h)⟩

end Sys2Proof.Machine
end

section
/-! A scan, by what its descriptor and its rows answer (07 R169, R170; 01 R26). -/

namespace Sys2Proof.Machine

variable {s s1 s2 s3 : State} {r : EngineRef} {off i : Nat} {x : Inst} {resets : List (List Nat)} {rows : List ScanRow}
  {rs : List (ScanRow × ScanOut × Bool × Bool)}

/-- SCAN runs the scan engine for the sheaf of its stall, and ends the tokens it names (09 R214). -/
theorem exec_scan_of_engineRuns (h : s.EngineRuns r engineSce i x) :
    exec (.scan r off) s = .next (settle s ((s.scanRun i x off).engineEnds i r)) := by
  have hop : s.scanOp r.stall off = s.scanRun i x off := by rw [State.scanOp, h.1]
  exact exec_of_done rfl (by rw [State.tokened_of_engineRuns h rfl, hop])

theorem State.scanRun_of_outside_crib (hin : x.inCrib off 64 = false) : s.scanRun i x off = s.abortInst i causeProgram := by
  rw [State.scanRun, hin, Bool.not_false, if_pos rfl]

section
variable (hin : x.inCrib off 64 = true)
include hin

theorem State.scanRun_of_illegal (hok : scanOk x (x.cribRead off 64) ((s.rowsOf x).all fun w => !w.seq) = false) :
    s.scanRun i x off = s.abortInst i causeProgram := by
  simp only [State.scanRun, hin, hok, Bool.not_true, Bool.not_false, Bool.false_eq_true, if_false, if_true]

variable (hok : scanOk x (x.cribRead off 64) ((s.rowsOf x).all fun w => !w.seq) = true)
include hok

theorem State.scanRun_of_row_away (hhome : s.rowsHome x = false) : s.scanRun i x off = s.abortInst i causeOutside := by
  simp only [State.scanRun, hin, hok, hhome, Bool.not_true, Bool.not_false, Bool.false_eq_true, if_false, if_true]

/-- Rows of the bay whose resets and states are read are all scanned, and their results land together. -/
theorem State.scanRun_of_rows (hhome : s.rowsHome x = true) (hresets : s.rowResets x = (s1, .ok resets))
    (hrows : s1.scanRows x (parseScan (x.cribRead off 64)) resets
      ((List.range (s.rowsOf x).length).filterMap fun n => ((s.rowsOf x)[n]?).map fun w => (n, w)) = (s2, .ok rows))
    (hall : s2.scanAll x (parseScan (x.cribRead off 64)) rows = (s3, rs)) :
    s.scanRun i x off = s3.scanFinish i x off (parseScan (x.cribRead off 64)) rs := by
  simp only [State.scanRun, hin, hok, hhome, hresets, hrows, hall, Bool.not_true, Bool.false_eq_true, if_false]

end

end Sys2Proof.Machine
end

section
/-! Issue and end of an attention pass (08 R191, R194, R197, R198; 01 R22, R26). -/

namespace Sys2Proof.Machine

/-- The pass that a descriptor in the crib asks for, with its rows latched; it waits where its die's walker has 64 (01 R22). -/
def State.attNew (s : State) (i off : Nat) (x : Inst) (value : Bool) : AttPass :=
  let d := parseAtt (x.cribRead off 64)
  let list := s.rowsOf x
  { inst := i, die := dieOf x.core, core := x.core, lc := !x.desc.be, value := value, tap := d.flags % 2 = 1
    allMxe := d.flags / 2 % 2 = 1, heads := d.heads, selfTag := d.selfTag, layer := d.layer, scale := d.scale, qLat := d.qLat
    qTally := d.qTally, selfOff := d.selfOff, scoreArea := BitVec.ofNat 64 d.scoreArea, slots := d.slots, valueOff := d.valueOff
    workOff := d.work, rows := (List.range list.length).filterMap fun n => (list[n]?).map fun w => s.passRow n w.index d.slots
    queued := decide (64 ≤ s.attQueued (dieOf x.core)), waitRoom := false }

/-- A pass joins its die's walker queue, and begins unless it waits for a place. -/
def State.attJoin (s : State) (b : Nat) (p : AttPass) : State :=
  let s1 : State := { s with engines := { s.engines with passes := s.engines.passes ++ [p] } }
  if p.queued then s1 else s1.passStart b p

variable {c : Instr} {s : State} {r : EngineRef} {off i : Nat} {x : Inst} {value : Bool} {h : SeqShape} {p : AttPass}

/-- An instruction that its descriptor does not fit leaves the state (log 27). -/
theorem State.tokened_of_unfit {engine : Nat} {fits : Nat → Inst → Bool} {body : State → State} (hruns : s.EngineRuns r engine i x)
    (hfits : fits i x = false) : s.tokened r engine fits body = s := by
  obtain ⟨hrun, -⟩ := hruns
  simp only [State.tokened, hrun, hfits, Bool.and_false, Bool.false_eq_true, if_false]

section
variable (hruns : s.EngineRuns r engineMxe i x)
include hruns

variable (hfits : attFits off value x = true)
include hfits

theorem State.attIssue_of_outside_crib (hin : x.inCrib off 64 = false) :
    s.attIssue r.stall off value = s.abortInst i causeProgram := by
  obtain ⟨hrun, -⟩ := hruns
  obtain ⟨hbse, -⟩ := Bool.and_eq_true_iff.mp hfits
  simp only [State.attIssue, hrun, hbse, hin, Bool.not_true, Bool.not_false, Bool.false_eq_true, if_false, if_true]

section
variable (hin : x.inCrib off 64 = true) (hop : (parseAtt (x.cribRead off 64)).op = if value then 2 else 1)
  (hshape : AMap.get? s.engines.seqShapes (x.bay * 256 + x.desc.graph) = some h)
include hin hop hshape

/-- A pass of the instruction's own kind, of a graph with a shape, joins its die where it meets the rules, and else ends its sheaf. -/
theorem State.attIssue_of_shape :
    s.attIssue r.stall off value =
      if !s.attOk x (x.cribRead off 64) h then s.abortInst i causeProgram
      else if !s.rowsHome x then s.abortInst i causeOutside
      else (s.attJoin x.bay (s.attNew i off x value)).refresh i := by
  obtain ⟨hrun, -⟩ := hruns
  obtain ⟨hbse, -⟩ := Bool.and_eq_true_iff.mp hfits
  have hknown : ¬ ((if value then 2 else 1) ≠ 1 ∧ (if value then 2 else 1) ≠ 2) := by cases value <;> decide
  have hsame : ¬ (((if value then 2 else 1) = 2) ≠ (value = true)) := by cases value <;> simp
  simp only [State.attIssue, hrun, hbse, hin, hop, hknown, hsame, hshape, Bool.not_true, Bool.false_eq_true, if_false]
  rfl

theorem State.attIssue_of_illegal (hok : s.attOk x (x.cribRead off 64) h = false) :
    s.attIssue r.stall off value = s.abortInst i causeProgram := by
  rw [State.attIssue_of_shape hruns hfits hin hop hshape, hok, Bool.not_false, if_pos rfl]

variable (hok : s.attOk x (x.cribRead off 64) h = true)
include hok

theorem State.attIssue_of_row_away (hhome : s.rowsHome x = false) : s.attIssue r.stall off value = s.abortInst i causeOutside := by
  rw [State.attIssue_of_shape hruns hfits hin hop hshape, hok, hhome, Bool.not_true, if_neg Bool.false_ne_true, Bool.not_false,
    if_pos rfl]

theorem State.attIssue_of_ok (hhome : s.rowsHome x = true) :
    s.attIssue r.stall off value = (s.attJoin x.bay (s.attNew i off x value)).refresh i := by
  rw [State.attIssue_of_shape hruns hfits hin hop hshape, hok, hhome, Bool.not_true, if_neg Bool.false_ne_true,
    if_neg Bool.false_ne_true]

end

end

/-- ATT_SCORE and ATT_VALUE issue a pass of their kind where the descriptor names the engine (log 27). -/
theorem exec_of_attInstr (hc : (c = .attScore r off ∧ value = false) ∨ (c = .attValue r off ∧ value = true)) :
    exec c s = s.done (s.tokened r engineMxe (fun _ => attFits off value) fun s => s.attIssue r.stall off value) := by
  rcases hc with ⟨rfl, rfl⟩ | ⟨rfl, rfl⟩ <;> rfl

theorem exec_attInstr_of_fits (hc : (c = .attScore r off ∧ value = false) ∨ (c = .attValue r off ∧ value = true))
    (hruns : s.EngineRuns r engineMxe i x) (hfits : attFits off value x = true) {u : State}
    (hissue : s.attIssue r.stall off value = u) : exec c s = .next (settle s (u.engineEnds i r)) :=
  exec_of_done (exec_of_attInstr hc) (by rw [State.tokened_of_engineRuns hruns hfits, hissue])

section
variable (hpass : s.pass? i = some p) (hinst : s.inst? i = some x)
  (hshape : AMap.get? s.engines.seqShapes (x.bay * 256 + x.desc.graph) = some h)
include hpass hinst hshape

/-- The end of a pass, once every share of it is done (08 R197, R198); before that the event leaves the state (log 2). -/
theorem State.passDone_of_pass :
    s.passDone i = if !s.passReady p then s else if p.value then s.valueOut i p x h else s.scoreOut i p x h := by
  simp only [State.passDone, hpass, hinst, hshape]

theorem State.passDone_of_unready (hready : s.passReady p = false) : s.passDone i = s := by
  rw [State.passDone_of_pass hpass hinst hshape, hready, Bool.not_false, if_pos rfl]

theorem State.passDone_of_ready (hready : s.passReady p = true) :
    s.passDone i = if p.value then s.valueOut i p x h else s.scoreOut i p x h := by
  rw [State.passDone_of_pass hpass hinst hshape, hready, Bool.not_true, if_neg Bool.false_ne_true]

end

/-- Settles O40: a scan, a pass that is issued and a pass that ends, each by what its descriptor and its rows answer (log 2, 27). -/
theorem scanAndAttentionRun : Obligations.ScanAndAttentionRun := by
  refine ⟨?scan, ?issue, ?passEnd⟩
  case scan =>
    intro s r off i x hruns
    rw [exec_scan_of_engineRuns hruns]
    refine ⟨fun hin => ?_, fun hin hok => ?_, fun hin hok hhome => ?_, fun hin hok hhome s1 s2 s3 resets rows rs h1 h2 h3 => ?_⟩
    · rw [State.scanRun_of_outside_crib hin]
    · rw [State.scanRun_of_illegal hin hok]
    · rw [State.scanRun_of_row_away hin hok hhome]
    · rw [State.scanRun_of_rows hin hok hhome h1 h2 h3]
  case issue =>
    intro s r off i x value c hruns hc d
    refine ⟨fun hfits => exec_of_done (exec_of_attInstr hc) (State.tokened_of_unfit hruns hfits), fun hfits hin => ?_,
      fun hfits hin hop h hshape => ⟨fun hok => ?_, fun hok hhome => ?_, fun hok hhome => ?_⟩⟩
    · exact exec_attInstr_of_fits hc hruns hfits (State.attIssue_of_outside_crib hruns hfits hin)
    · exact exec_attInstr_of_fits hc hruns hfits (State.attIssue_of_illegal hruns hfits hin hop hshape hok)
    · exact exec_attInstr_of_fits hc hruns hfits (State.attIssue_of_row_away hruns hfits hin hop hshape hok hhome)
    · exact exec_attInstr_of_fits hc hruns hfits (State.attIssue_of_ok hruns hfits hin hop hshape hok hhome)
  case passEnd =>
    intro s i p x h hpass hinst hshape
    refine ⟨fun hready => exec_of_done rfl (State.passDone_of_unready hpass hinst hshape hready), fun hready hv => ?_,
      fun hready hv => ?_⟩
    · exact exec_of_done rfl ((State.passDone_of_ready hpass hinst hshape hready).trans (if_pos hv))
    · exact exec_of_done rfl ((State.passDone_of_ready hpass hinst hshape hready).trans (if_neg (by rw [hv]; nofun)))

end Sys2Proof.Machine
end

section
/-! An accepted sequence command (08 R186): the state in which it acts, and what that state keeps of the one before. -/

namespace Sys2Proof.Machine

theorem State.setSeq_setSeq (s : State) (q : Nat) (x y : SeqCtx) : (s.setSeq q x).setSeq q y = s.setSeq q y :=
  congrArg (fun m => { s with seqs := m }) (AMap.set_set s.seqs q x y)

@[simp] theorem State.seqCtx_setSeq_same (s : State) (q : Nat) (x : SeqCtx) : (s.setSeq q x).seqCtx q = x :=
  AMap.getD_set_same s.seqs q x .idle

/-- The state in which an accepted sequence command acts: its source's guard of the block has closed, and REFUSED has ended. -/
def State.sqStarted (s : State) (src : Source) (q : Nat) : State :=
  (s.Entered src (Reg.SQ_CMD q)).setSeq q { s.seqCtx q with refused := false, reason := 0 }

theorem exec_of_sqCommand {c : Instr} {s t : State} {src : Source} {q : Nat} {allowed : List CtxState} {body : State → State}
    (hc : exec c s = s.done (s.plainWrite src (Reg.SQ_CMD q) fun s => s.sqCommand q allowed body)) (h : s.MayWrite src (Reg.SQ_CMD q))
    (hp : (s.seqCtx q).pending = none) (hs : (s.seqCtx q).state ∈ allowed) (ht : body (s.sqStarted src q) = t) :
    exec c s = .next (settle s t) := by
  refine exec_of_plainWrite hc h ?_
  rw [State.sqCommand, State.Entered_seqCtx, if_neg (by rw [hp]; nofun), if_neg (by simpa using hs), ← ht]
  rfl

variable (s : State) (src : Source) (q : Nat)

@[simp] theorem State.sqStarted_seqCtx : (s.sqStarted src q).seqCtx q = { s.seqCtx q with refused := false, reason := 0 } :=
  State.seqCtx_setSeq_same _ q _

@[simp] theorem State.setSeq_sqStarted (x : SeqCtx) : (s.sqStarted src q).setSeq q x = (s.Entered src (Reg.SQ_CMD q)).setSeq q x :=
  State.setSeq_setSeq _ q _ x

@[simp] theorem State.sqStarted_bayOfSeq : (s.sqStarted src q).bayOfSeq q = s.bayOfSeq q := by
  rw [State.sqStarted, State.Entered, State.writeCloses_eq]
  rfl

/-- The checks of ARM read the staged fields, the bay and its batcher, and the shapes in use (08 R187, R188), none of which the start of the
command changes. -/
@[simp] theorem State.sqStarted_sqArmReason (b : Nat) : (s.sqStarted src q).sqArmReason b q = s.sqArmReason b q := by
  rw [State.sqStarted, State.Entered, State.writeCloses_eq]
  rfl

end Sys2Proof.Machine
end

section
/-! What RESUME and the end of a step do by the step that they find (08 R186, R190), and what ARM leaves (08 R186). -/

namespace Sys2Proof.Machine

section
variable {s : State} {b q : Nat} {f : InFlight}

theorem State.resumeSeq_of_unready (h : (s.seqCtx q).readyAt = none) : s.resumeSeq b q = s.startSeq b q := by
  simp only [State.resumeSeq, h, Option.isNone_none, if_true]

theorem State.resumeSeq_of_ready (h : (s.seqCtx q).readyAt ≠ none) :
    s.resumeSeq b q =
      let v := s.setSeq q { s.seqCtx q with state := .running }
      (if (s.seqCtx q).probed || (s.seqCtx q).absent then v else v.probe b q (s.reg (Reg.SQ_POS q)).toNat).seqTry q :=
  if_neg (by simpa using h)

/-- A written step ends; at any other stage the event leaves the state (log 2). -/
theorem State.completeStep_of_inflight (h : (s.seqCtx q).inflight = some f) :
    s.completeStep q = if f.stage = .written then ((s.completeSlot true q).stepQuiet q).seqTry q else s := by
  simp only [State.completeStep, h]

end

section
variable (s : State) (q : Nat) (y : SeqCtx) (shapes : AMap SeqShape) (bound : Word)

/-- What ARM stores once the staged fields apply: the context, the shapes in use, the start position and the delay bound (08 R186, R188). -/
def State.seqArmed : State :=
  let armed : State := { s.setSeq q y with engines := { s.engines with seqShapes := shapes } }
  (armed.setReg (Reg.SQ_POS q) (w32 (fld (s.reg (Reg.SQ_START_POS q)) 20 0))).setReg (Reg.SQ_DELAY_BOUND q) bound

@[simp] theorem State.seqArmed_mem : (s.seqArmed q y shapes bound).mem = s.mem := rfl

@[simp] theorem State.seqArmed_seqCtx : (s.seqArmed q y shapes bound).seqCtx q = y :=
  State.seqCtx_setSeq_same s q y

@[simp] theorem State.seqArmed_pos :
    (s.seqArmed q y shapes bound).reg (Reg.SQ_POS q) = w32 (fld (s.reg (Reg.SQ_START_POS q)) 20 0) := by
  rw [State.seqArmed, State.reg_setReg_other _ _ (by simp [Reg.SQ_POS, Reg.SQ_DELAY_BOUND]), State.reg_setReg_same]

/-- Neither register that ARM sets is `SQ_CTRL`, which holds AUTOSTART. -/
@[simp] theorem State.seqArmed_ctrl : (s.seqArmed q y shapes bound).reg (Reg.SQ_CTRL q) = s.reg (Reg.SQ_CTRL q) := by
  rw [State.seqArmed, State.reg_setReg_other _ _ (by simp [Reg.SQ_CTRL, Reg.SQ_DELAY_BOUND]),
    State.reg_setReg_other _ _ (by simp [Reg.SQ_CTRL, Reg.SQ_POS])]
  rfl

end

/-- ARM arms the context on the staged fields, whatever its class, shape and bound, and starts it where `SQ_CTRL` holds AUTOSTART (08 R186). -/
theorem State.exists_armSeq_eq (s : State) (b q : Nat) :
    ∃ y shapes bound, y.state = CtxState.armed ∧
      let t := (s.applyAll (sqArmRegs q)).seqArmed q y shapes bound
      s.armSeq b q = if bit (t.reg (Reg.SQ_CTRL q)) 12 then t.startSeq b q else t := by
  unfold State.armSeq
  generalize s.applyAll (sqArmRegs q) = s1
  exact ⟨_, _, _, by rfl, rfl⟩

end Sys2Proof.Machine
end

section
/-! Sequence commands in the states that R186 lists, and the end of a step (08 R185 to R190). -/

namespace Sys2Proof.Machine

/-- Settles O41: each command acts on the sequence with REFUSED ended; a step that is not yet written does not end (log 2). -/
theorem sequenceCommandsAccepted : Obligations.SequenceCommandsAccepted := by
  refine ⟨?commands, ?armed, ?stepEnd⟩
  case commands =>
    intro s src q b h hp hbay x w u
    refine ⟨fun hs hreason => ?arm, fun r hs hreason => ?armRefused, fun hs => ?start, fun hs => ?pause, fun hs hready => ?resumeUnready,
      fun hs hready => ?resumeReady, fun hs => ?drain, fun hs => ?abort, fun hs => ?recheck⟩
    case arm =>
      exact exec_of_sqCommand rfl h hp (List.mem_singleton.mpr hs) (by
        simp only [State.sqStarted_bayOfSeq, hbay, State.sqStarted_sqArmReason, hreason]
        rfl)
    case armRefused =>
      exact exec_of_sqCommand rfl h hp (List.mem_singleton.mpr hs) (by
        simp only [State.sqStarted_bayOfSeq, hbay, State.sqStarted_sqArmReason, hreason, State.sqRefuse, State.setSeq_sqStarted,
          State.sqStarted_seqCtx]
        rfl)
    case start =>
      exact exec_of_sqCommand rfl h hp (List.mem_singleton.mpr hs) (by simp only [State.sqStarted_bayOfSeq, hbay]; rfl)
    case pause =>
      refine exec_of_sqCommand rfl h hp (by simpa using hs) ?_
      rw [State.pauseSeq, State.setSeq_sqStarted, State.sqStarted_seqCtx]
    case resumeUnready =>
      refine exec_of_sqCommand rfl h hp (List.mem_singleton.mpr hs) ?_
      simp only [State.sqStarted_bayOfSeq, hbay]
      exact State.resumeSeq_of_unready (by rwa [State.sqStarted_seqCtx])
    case resumeReady =>
      refine exec_of_sqCommand rfl h hp (List.mem_singleton.mpr hs) ?_
      simp only [State.sqStarted_bayOfSeq, hbay]
      rw [State.resumeSeq_of_ready (by rwa [State.sqStarted_seqCtx]), State.sqStarted_seqCtx]
      rfl
    case drain => exact exec_of_sqCommand rfl h hp (by simpa using hs) (by simp only [State.sqStarted_bayOfSeq, hbay]; rfl)
    case abort =>
      exact exec_of_sqCommand rfl h hp (CtxState.mem_of_ne_idle hs) (by simp only [State.sqStarted_bayOfSeq, hbay]; rfl)
    case recheck =>
      exact exec_of_sqCommand rfl h hp (CtxState.mem_of_ne_idle hs) (by simp only [State.sqStarted_bayOfSeq, hbay]; rfl)
  case armed =>
    intro s b q h
    obtain ⟨y, shapes, bound, hy, harm⟩ := s.exists_armSeq_eq b q
    rw [harm, State.seqArmed_ctrl, h, if_neg Bool.false_ne_true, State.seqArmed_seqCtx, State.seqArmed_mem, State.applyAll_mem, State.seqArmed_pos]
    exact ⟨hy, rfl, rfl⟩
  case stepEnd =>
    intro s q f hf
    refine ⟨fun hw => ?written, fun hw => ?unwritten⟩
    case written => exact exec_of_done rfl ((State.completeStep_of_inflight hf).trans (if_pos hw))
    case unwritten => exact exec_of_done rfl ((State.completeStep_of_inflight hf).trans (if_neg hw))

end Sys2Proof.Machine
end

section
/-! One row of the swath table (09 R210, R212): it runs the operation at a running program's restart point where that operation is its own. -/

namespace Sys2Proof.Machine

variable {c : Instr} {s t u : State} {r : ProgRef} {i : Nat} {x : Inst} {p : Program} {o : SwOp}
  {act : State → Nat → Inst → Program → SwOp → Option State}

/-- A program that runs an operation is of the kind that its field names (R212). -/
theorem State.misnamed_of_here (h : s.swHere r = some (i, x, p, o)) : s.misnamed r = none := by
  unfold State.swHere at h
  unfold State.misnamed
  cases hrun : s.running r.stall with
  | none => rfl
  | some e =>
    obtain ⟨j, y⟩ := e
    cases hprog : y.prog r.prog with
    | none => simp only [hprog]
    | some q =>
      simp only [hrun, hprog] at h ⊢
      split at h
      · next hgo =>
        obtain ⟨-, hnamed⟩ := Bool.and_eq_true_iff.mp hgo
        rw [hnamed, Bool.not_true, Bool.and_false, if_neg Bool.false_ne_true]
      · cases h

theorem State.swStep_of_here (h : s.swHere r = some (i, x, p, o)) : s.swStep r act = (act s i x p o).getD s := by
  simp only [State.swStep, State.misnamed_of_here h, h]

theorem State.swStep_of_misnamed (h : s.misnamed r = some i) : s.swStep r act = s.abortInst i causeProgram := by
  simp only [State.swStep, h]

theorem State.swStep_of_nothing (hm : s.misnamed r = none) (h : s.swHere r = none) : s.swStep r act = s := by
  simp only [State.swStep, hm, h]

/-- The row whose operation stands at the restart point ends in what the operation makes of the state. -/
theorem exec_of_swathOp (hc : exec c s = s.done (s.swStep r act)) (h : s.swHere r = some (i, x, p, o))
    (hact : act s i x p o = some u) (hu : u = t) : exec c s = .next (settle s t) :=
  exec_of_done hc (by rw [State.swStep_of_here h, hact, Option.getD_some, hu])

/-- Every row of the table is a step that acts on no operation but its own. -/
theorem exec_of_swathRows (hc : c ∈ swathRows r) : ∃ act : State → Nat → Inst → Program → SwOp → Option State,
    (∀ s, exec c s = s.done (s.swStep r act)) ∧ ∀ s i x p o, c ≠ swathRow r o → act s i x p o = none := by
  simp only [swathRows, List.mem_cons, List.not_mem_nil, or_false] at hc
  rcases hc with rfl | rfl | rfl | rfl | rfl | rfl | rfl | rfl | rfl | rfl | rfl | rfl | rfl | rfl | rfl <;>
    refine ⟨_, fun _ => rfl, fun s i x p o hother => ?_⟩
  all_goals
    split
    · exact absurd rfl hother
    · rfl

end Sys2Proof.Machine
end

section
/-! Swath operations on registers, counters and loops (09 R210 to R212, R215). -/

namespace Sys2Proof.Machine

variable {s : State} {r : ProgRef} {i : Nat} {x : Inst} {k : ProgKind} {p q : Program} {level cause : Nat}

theorem State.loopMoved_of_ok (h : s.rowRegs x p level = .ok q) : s.loopMoved i x k p level = s.putProg i x k q := by
  simp only [State.loopMoved, h]

theorem State.loopMoved_of_fault (h : s.rowRegs x p level = .error cause) : s.loopMoved i x k p level = s.abortInst i cause := by
  simp only [State.loopMoved, h]

section
variable {a source rl tl : Nat} {off : Int}

theorem State.swRowbase_of_ok {y : AddrReg} (h : s.rowReg x p { AddrReg.zero with fill := .address, row := some (source, rl, tl, off) } = .ok y) :
    s.swRowbase i x k p a source rl tl off = s.putProg i x k (p.next.setReg a y) := by
  simp only [State.swRowbase, h]

theorem State.swRowbase_of_fault
    (h : s.rowReg x p { AddrReg.zero with fill := .address, row := some (source, rl, tl, off) } = .error cause) :
    s.swRowbase i x k p a source rl tl off = s.abortInst i cause := by
  simp only [State.swRowbase, h]

end

/-- Settles O43: a row runs the operation at the restart point where it is its own, meets a program that is wrongly named with a fault, and else does
nothing (log 2). -/
theorem swathRegisterAndLoopOperations : Obligations.SwathRegisterAndLoopOperations := by
  refine ⟨?operations, ?nothingHere⟩
  case operations =>
    intro s r i x p o h
    refine ⟨?ends, ?base, ?rowbase, ?loop, ?step, ?cset, ?endloop, ?otherRow⟩
    case ends =>
      rintro n round rfl
      exact exec_of_swathOp rfl h rfl rfl
    case base =>
      rintro a va rfl
      exact exec_of_swathOp rfl h rfl rfl
    case rowbase =>
      rintro a source rl tl off rfl
      exact ⟨fun y hy => exec_of_swathOp rfl h rfl (State.swRowbase_of_ok hy),
        fun cause hy => exec_of_swathOp rfl h rfl (State.swRowbase_of_fault hy)⟩
    case loop =>
      rintro l c rfl
      exact ⟨fun q hq => exec_of_swathOp rfl h rfl (State.loopMoved_of_ok hq),
        fun cause hq => exec_of_swathOp rfl h rfl (State.loopMoved_of_fault hq)⟩
    case step =>
      rintro l crib a stride rfl
      exact exec_of_swathOp rfl h rfl rfl
    case cset =>
      rintro area off rfl
      exact exec_of_swathOp rfl h rfl rfl
    case endloop =>
      rintro l rfl
      exact ⟨fun q hq => exec_of_swathOp rfl h rfl (State.loopMoved_of_ok hq),
        fun cause hq => exec_of_swathOp rfl h rfl (State.loopMoved_of_fault hq)⟩
    case otherRow =>
      intro c hc hother
      obtain ⟨act, hexec, hnone⟩ := exec_of_swathRows hc
      exact exec_of_done (hexec s) (by rw [State.swStep_of_here h, hnone s i x p o hother, Option.getD_none])
  case nothingHere =>
    intro s r c hc
    obtain ⟨act, hexec, -⟩ := exec_of_swathRows hc
    exact ⟨fun i hm => exec_of_done (hexec s) (State.swStep_of_misnamed hm),
      fun hm h => exec_of_done (hexec s) (State.swStep_of_nothing hm h)⟩

end Sys2Proof.Machine
end

section
/-! Swath operations on memory, buffers and handles (09 R213, R216 to R220, R225). -/

namespace Sys2Proof.Machine

variable {s s1 s2 : State} {i a q n len : Nat} {x y : Inst} {k : ProgKind} {p : Program}

section
variable {toMem : Bool}

/-- An element needs a register that has been filled, and a cursor area that holds it (R213). -/
theorem State.swMove_of_illegal (h : (p.areg a).fill = .unset ∨ p.cursor < 0 ∨ s.cursorSize x p < p.cursor.toNat + len) :
    s.swMove i x k p a toMem len = s.abortInst i causeProgram := by
  by_cases hfill : (p.areg a).fill = .unset
  · simp only [State.swMove, hfill, if_true]
  · have harea := h.resolve_left hfill
    simp only [State.swMove, hfill, gt_iff_lt, Bool.or_eq_true, decide_eq_true_eq, harea, if_false, if_true]

theorem State.swMove_of_within (hfill : (p.areg a).fill ≠ .unset) (hcursor : 0 ≤ p.cursor)
    (harea : p.cursor.toNat + len ≤ s.cursorSize x p) : s.swMove i x k p a toMem len =
      if toMem then s.moveOut i x k p a (p.address a) p.cursor.toNat len
      else s.moveIn i x k p (p.areg a) (p.address a) p.cursor.toNat len := by
  simp only [State.swMove, hfill, gt_iff_lt, Int.not_lt.mpr hcursor, Nat.not_lt.mpr harea, decide_false, Bool.or_self,
    Bool.false_eq_true, if_false]

end

section
variable {pool : Nat}

theorem State.swGet_of_buffer (hget : s.canGet x.bay pool i k (!x.desc.be) = true)
    (hbuf : s.getBuffer x.bay pool i k = (s2, some n)) : s.swGet i x k p a pool =
      s2.putProg i { x with got := x.got ++ [(k, pool, n)] } k (p.next.setReg a
        { AddrReg.zero with fill := .got, base := BitVec.ofNat 64 (s2.bufferVa x.bay pool n), pool := pool, buffer := n }) := by
  simp only [State.swGet, hget, hbuf, if_true]

theorem State.swGet_of_no_buffer (hget : s.canGet x.bay pool i k (!x.desc.be) = false) :
    s.swGet i x k p a pool = (s.awaitBuffer x.bay pool i k (!x.desc.be)).progWaits i x k p (.pool pool) := by
  simp only [State.swGet, hget, Bool.false_eq_true, if_false]

end

section
variable {e : QueueEntry}

theorem State.swWait_of_no_field (h : x.desc.consume q = noField) : s.swWait i x k p a q = s.abortInst i causeProgram := by
  simp only [State.swWait, h, if_true]

variable (hfield : x.desc.consume q ≠ noField)
include hfield

theorem State.swWait_of_foreign (h : s.coreQueue x.bay (x.desc.consume q) false = false) :
    s.swWait i x k p a q = s.abortInst i causeQueue := by
  simp only [State.swWait, hfield, h, Bool.not_false, if_false, if_true]

variable (hqueue : s.coreQueue x.bay (x.desc.consume q) false = true)
include hqueue

theorem State.swWait_of_handle (h : s.nextHandle x (x.desc.consume q) = (s1, some (y, e))) : s.swWait i x k p a q =
    s1.putProg i y k (p.next.setReg a { AddrReg.zero with
      fill := .waited, base := BitVec.ofNat 64 (s1.bufferVa x.bay e.handle.pool e.handle.buffer), pool := e.handle.pool,
      buffer := e.handle.buffer, chaff := e.handle.chaff }) := by
  simp only [State.swWait, hfield, hqueue, h, Bool.not_true, Bool.false_eq_true, if_false]

theorem State.swWait_of_no_handle (h : s.nextHandle x (x.desc.consume q) = (s1, none)) :
    s.swWait i x k p a q = s1.progWaits i x k p (.queue (x.desc.consume q)) := by
  simp only [State.swWait, hfield, hqueue, h, Bool.not_true, Bool.false_eq_true, if_false]

end

section
variable {last : Bool} {rl : Nat}

/-- A SIGNAL that the rules forbid (R216, R217): no queue in its field, a register that no GET filled, or a counter beyond the rows. -/
def Inst.signalIllegal (x : Inst) (p : Program) (a q rl : Nat) : Prop :=
  x.desc.produce q = noField ∨ (p.areg a).fill ≠ .got ∨ (rl ≠ 7 ∧ x.desc.rowCount ≤ p.counter rl)

/-- The handle that a SIGNAL stages (R216, R225). -/
def State.signalHandle (s : State) (x : Inst) (p : Program) (a : Nat) (last : Bool) (rl len : Nat) : Handle :=
  { pool := (p.areg a).pool, buffer := (p.areg a).buffer, length := (p.areg a).signalLength len
    chaff := (p.areg a).wroteChaff || s.silentRow x p rl, last := last, tag := s.rowTag x p rl, seq := 0 }

theorem State.swSignal_of_illegal (h : x.signalIllegal p a q rl) :
    s.swSignal i x k p a q last rl len = s.abortInst i causeProgram :=
  if_pos (by simpa [Inst.signalIllegal, or_assoc] using h)

variable (h : ¬ x.signalIllegal p a q rl)
include h

theorem State.swSignal_of_legal : s.swSignal i x k p a q last rl len =
    if !s.coreQueue x.bay (x.desc.produce q) true then s.abortInst i causeQueue
    else (s.count32 (Reg.FXE_CHAFF_OUT x.core) (if (s.signalHandle x p a last rl len).chaff then 1 else 0)).putProg i
      { x with staged := x.staged ++ [(k, x.desc.produce q, s.signalHandle x p a last rl len)] } k p.next :=
  if_neg (by simpa [Inst.signalIllegal, or_assoc] using h)

theorem State.swSignal_of_foreign (hqueue : s.coreQueue x.bay (x.desc.produce q) true = false) :
    s.swSignal i x k p a q last rl len = s.abortInst i causeQueue := by
  rw [State.swSignal_of_legal h, hqueue, Bool.not_false, if_pos rfl]

theorem State.swSignal_of_staged (hqueue : s.coreQueue x.bay (x.desc.produce q) true = true) :
    s.swSignal i x k p a q last rl len =
      (s.count32 (Reg.FXE_CHAFF_OUT x.core) (if (s.signalHandle x p a last rl len).chaff then 1 else 0)).putProg i
        { x with staged := x.staged ++ [(k, x.desc.produce q, s.signalHandle x p a last rl len)] } k p.next := by
  rw [State.swSignal_of_legal h, hqueue, Bool.not_true, if_neg Bool.false_ne_true]

end

theorem State.swFree_of_waited (h : (p.areg a).fill = .waited) :
    s.swFree i x k p a = s.putProg i { x with frees := x.frees ++ [((p.areg a).pool, (p.areg a).buffer)] } k p.next := by
  simp only [State.swFree, h, ne_eq, not_true_eq_false, if_false]

theorem State.swFree_of_unwaited (h : (p.areg a).fill ≠ .waited) : s.swFree i x k p a = s.abortInst i causeProgram := if_pos h

end Sys2Proof.Machine
end

section
/-! Tokens and rotation rounds (09 R214, R226 to R229). -/

namespace Sys2Proof.Machine

variable {s s1 : State} {i b core : Nat} {x : Inst} {k : ProgKind} {p : Program} {z : Round}

section
variable {token count : Nat}

theorem State.swSyncWait_of_posted (h : count ≤ AMap.getD x.tokens token 0) : s.swSyncWait i x k p token count =
    s.putProg i { x with tokens := AMap.set x.tokens token (AMap.getD x.tokens token 0 - count) } k p.next := if_pos h

theorem State.swSyncWait_of_unposted (h : AMap.getD x.tokens token 0 < count) :
    s.swSyncWait i x k p token count = s.progWaits i x k p (.token token count) := if_neg (Nat.not_le.mpr h)

end

section
variable {token tiles round : Nat}

theorem State.swRotate_of_live (h : s.liveRound x.bay round = some z) :
    s.swRotate i x k p token tiles round = s.joinRound i x k p z token := by
  simp only [State.swRotate, h]

variable (hlive : s.liveRound x.bay round = none)
include hlive

theorem State.swRotate_of_unjoinable (h : s.roundJoinable x.bay round = false) :
    s.swRotate i x k p token tiles round = s.progWaits i x k p (.ring round) := by
  simp only [State.swRotate, hlive, h, Bool.not_false, if_true]

variable (hjoin : s.roundJoinable x.bay round = true)
include hjoin

theorem State.swRotate_of_started (h : s.startRound x round tiles = (s1, .ok z)) :
    s.swRotate i x k p token tiles round = s1.joinRound i x k p z token := by
  simp only [State.swRotate, hlive, hjoin, h, Bool.not_true, Bool.false_eq_true, if_false]

theorem State.swRotate_of_fault {f : RunFault} (h : s.startRound x round tiles = (s1, .error f)) :
    s.swRotate i x k p token tiles round =
      s1.takeFault x.bay f.va false (fxeEngine x.core) f.cause f.level f.entry (.program i k) := by
  simp only [State.swRotate, hlive, hjoin, h, Bool.not_true, Bool.false_eq_true, if_false]

end

/-- The first stall of a core that a tile of a round has passed by, and that may read it directly (R228). -/
def State.lateJoin (s : State) (core : Nat) (z : Round) : Option RoundJoin :=
  (s.joinsOn z core).find? fun j => !j.missed.isEmpty && !s.engineFault j.inst

/-- The earliest round of a number that has a tile for a core to read directly or to pass (R227, R228). -/
def State.dueRound (s : State) (b round core : Nat) : Option Round :=
  (s.bay b).rounds.find? fun z => z.round = round && ((s.lateJoin core z).isSome || !z.ended)

section
variable {round : Nat}

theorem State.ringDelivery_of_none (h : s.dueRound b round core = none) : s.ringDelivery b round core = s := by
  unfold State.dueRound State.lateJoin at h
  simp only [State.ringDelivery, h]

variable (hdue : s.dueRound b round core = some z)
include hdue

/-- A stall that a tile passed by reads it before the next tile passes its core (R228). -/
theorem State.ringDelivery_of_late {j : RoundJoin} (h : s.lateJoin core z = some j) :
    s.ringDelivery b round core = s.directTile b z core j ((j.missed.head?).getD 0) := by
  unfold State.dueRound State.lateJoin at *
  simp only [State.ringDelivery, hdue, h]

variable (hlate : s.lateJoin core z = none)
include hlate

theorem State.ringDelivery_of_tile {t : Nat} (h : (z.order core)[AMap.getD z.passed core 0]? = some t) :
    s.ringDelivery b round core = s.passTile b z core t := by
  unfold State.dueRound State.lateJoin at *
  simp only [State.ringDelivery, hdue, hlate, h]

theorem State.ringDelivery_of_no_tile (h : (z.order core)[AMap.getD z.passed core 0]? = none) : s.ringDelivery b round core = s := by
  unfold State.dueRound State.lateJoin at *
  simp only [State.ringDelivery, hdue, hlate, h]

end

/-- Settles O44: each row runs its operation, by what the operation finds; a delivery takes the round that is due (log 22), if any (log 2). -/
theorem swathTransferOperations : Obligations.SwathTransferOperations := by
  refine ⟨?operations, ?delivery⟩
  case operations =>
    intro s r i x p o h
    refine ⟨?move, ?get, ?waitIllegal, ?wait, ?signalIllegal, ?signal, ?free, ?post, ?syncWait, ?rotate⟩
    case move =>
      rintro a toMem len rfl
      exact ⟨fun hbad => exec_of_swathOp rfl h rfl (State.swMove_of_illegal hbad),
        fun hfill hcursor harea => exec_of_swathOp rfl h rfl (State.swMove_of_within hfill hcursor harea)⟩
    case get =>
      rintro a pool rfl
      exact ⟨fun hget s2 n hbuf => exec_of_swathOp rfl h rfl (State.swGet_of_buffer hget hbuf),
        fun hget => exec_of_swathOp rfl h rfl (State.swGet_of_no_buffer hget)⟩
    case waitIllegal =>
      rintro a q rfl
      exact ⟨fun hfield => exec_of_swathOp rfl h rfl (State.swWait_of_no_field hfield),
        fun hfield hqueue => exec_of_swathOp rfl h rfl (State.swWait_of_foreign hfield hqueue)⟩
    case wait =>
      rintro a q rfl hfield hqueue s1
      exact ⟨fun y e hnext => exec_of_swathOp rfl h rfl (State.swWait_of_handle hfield hqueue hnext),
        fun hnext => exec_of_swathOp rfl h rfl (State.swWait_of_no_handle hfield hqueue hnext)⟩
    case signalIllegal =>
      rintro a q last rl len rfl
      exact ⟨fun hbad => exec_of_swathOp rfl h rfl (State.swSignal_of_illegal hbad),
        fun hlegal hqueue => exec_of_swathOp rfl h rfl (State.swSignal_of_foreign hlegal hqueue)⟩
    case signal =>
      rintro a q last rl len rfl hfield hfill hrow hqueue
      have hlegal : ¬ x.signalIllegal p a q rl := by
        rintro (hnone | hother | ⟨hlevel, hcount⟩)
        · exact hfield hnone
        · exact hother hfill
        · exact hrow.elim hlevel (Nat.not_lt.mpr hcount)
      exact exec_of_swathOp rfl h rfl (State.swSignal_of_staged hlegal hqueue)
    case free =>
      rintro a rfl
      exact ⟨fun hfill => exec_of_swathOp rfl h rfl (State.swFree_of_waited hfill),
        fun hfill => exec_of_swathOp rfl h rfl (State.swFree_of_unwaited hfill)⟩
    case post =>
      rintro t n rfl
      exact exec_of_swathOp rfl h rfl rfl
    case syncWait =>
      rintro t n rfl
      exact ⟨fun hle => exec_of_swathOp rfl h rfl (State.swSyncWait_of_posted hle),
        fun hlt => exec_of_swathOp rfl h rfl (State.swSyncWait_of_unposted hlt)⟩
    case rotate =>
      rintro t tiles round rfl
      exact ⟨fun z hz => exec_of_swathOp rfl h rfl (State.swRotate_of_live hz),
        fun hlive hjoin => exec_of_swathOp rfl h rfl (State.swRotate_of_unjoinable hlive hjoin),
        fun hlive hjoin => ⟨fun s1 z hz => exec_of_swathOp rfl h rfl (State.swRotate_of_started hlive hjoin hz),
          fun s1 f hf => exec_of_swathOp rfl h rfl (State.swRotate_of_fault hlive hjoin hf)⟩⟩
  case delivery =>
    intro s bay round core late due
    exact ⟨fun hnone => exec_of_done rfl (State.ringDelivery_of_none hnone), fun z hdue =>
      ⟨fun j hj => exec_of_done rfl (State.ringDelivery_of_late hdue hj),
        fun hj t ht => exec_of_done rfl (State.ringDelivery_of_tile hdue hj ht),
        fun hj ht => exec_of_done rfl (State.ringDelivery_of_no_tile hdue hj ht)⟩⟩

end Sys2Proof.Machine
end

section
/-! A queue flushed by its bay in lull (09 R224). -/

namespace Sys2Proof.Machine

variable {s : State} {b q c : Nat} {d : QueueDef}

theorem State.flushQueue_of_refused (hdef : s.queueDef q = some (c, d)) (h : c ≠ b ∨ (s.bay b).lulled = false) : s.flushQueue b q = s := by
  have hcond : (decide (c ≠ b) || !(s.bay b).lulled) = true := by simpa using h
  simp only [State.flushQueue, hdef, hcond, if_true]

theorem State.flushQueue_of_lulled (hdef : s.queueDef q = some (b, d)) (h : (s.bay b).lulled = true) : s.flushQueue b q =
    ((s.queue q).entries.foldl (fun s e => s.returnBuffer b e.handle.pool e.handle.buffer)
      ((s.setQueue q { s.queue q with entries := [] }).setService q none)).drainRuns q := by
  simp only [State.flushQueue, hdef, h, ne_eq, not_true_eq_false, decide_false, Bool.not_true, Bool.or_self, Bool.false_eq_true, if_false]

/-- Settles O46: the command empties the queue only where the queue is the bay's own and the bay is in lull. -/
theorem queueFlushNeedsLull : Obligations.QueueFlushNeedsLull := by
  intro s src bay c d q u h hdef
  refine ⟨fun hrefused => ?refused, fun hown hl => ?lulled⟩
  case refused => exact exec_of_cmdWrite rfl h (State.flushQueue_of_refused hdef hrefused)
  case lulled =>
    subst hown
    exact exec_of_cmdWrite rfl h (State.flushQueue_of_lulled (s := u) hdef hl)

end Sys2Proof.Machine
end

section
/-! The ends of sheaves and of gleanings, and triggered instances (04 R88, R91, R92; 09 R221, R230, R231). -/

namespace Sys2Proof.Machine

variable {s s1 : State} {i b q : Nat} {x : Inst}

/-- A sheaf is counted as done: its bay lists its sequence number, its core counts it, and a trace record names it (R91, R92). -/
def State.sheafCounted (s : State) (x : Inst) : State :=
  ((s.setBay x.bay { s.bay x.bay with doneSeqs := setInsert (s.bay x.bay).doneSeqs x.seq.toNat }).countWrap (Reg.CORE_SHEAVES x.core) 1).trace
    x.bay 0x0101 (telUnit 0 x.core) x.seq x.traceArg

section
variable (hx : s.inst? i = some x)
include hx

/-- A sheaf that has not ended leaves the state (log 2). -/
theorem State.sheafDone_of_unended (h : s.sheafEnded i x = false) : s.sheafDone i = s := by
  simp only [State.sheafDone, hx, h, Bool.not_false, if_true]

variable (h : s.sheafEnded i x = true)
include h

theorem State.sheafDone_of_chaff (hc : x.chaffMode = true) :
    s.sheafDone i = (((s.publish x).chainLearn x).vacate i x).stepsReady x.bay x.chain := by
  simp only [State.sheafDone, hx, h, hc, Bool.not_true, Bool.false_eq_true, if_false, if_true]

theorem State.sheafDone_of_clean (hc : x.chaffMode = false) :
    s.sheafDone i = ((((s.publish x).chainLearn x).sheafCounted x).vacate i x).stepsReady x.bay x.chain := by
  simp only [State.sheafDone, hx, h, hc, Bool.not_true, Bool.false_eq_true, if_false]
  rfl

end

/-- The state in which an ended gleaning gives back what its sheaf held: its engines' work is discarded, and their next passes begin. -/
def State.enginesDiscarded (s : State) (i : Nat) : State := (List.range 4).foldl State.nextPass (s.discardEngines i)

section
variable {kind : GleanKind} (hx : s.inst? i = some x) (hg : x.gleaning = some kind)
include hx hg

/-- A gleaning waits for shares, requests, and a save or a restore that is under way (log 2). -/
theorem State.gleanEnd_of_held
    (h : s.sharesOf i = true ∨ (s.anyRequest fun r => r.ofInst i) = true ∨ x.state = .saving ∨ x.state = .restoring) : s.gleanEnd i = s := by
  have hheld : (s.sharesOf i || (s.anyRequest fun r => r.ofInst i) || decide (x.state = .saving) || decide (x.state = .restoring)) = true := by
    simpa [or_assoc] using h
  simp only [State.gleanEnd, hx, hg, hheld, if_true]

variable (hshares : s.sharesOf i = false) (hreq : (s.anyRequest fun r => r.ofInst i) = false) (hsave : x.state ≠ .saving)
  (hrestore : x.state ≠ .restoring)
include hshares hreq hsave hrestore

theorem State.gleanEnd_of_abort (hk : kind = .abort) : s.gleanEnd i =
    (((x.got.filter fun g => g.1 ≠ .output).foldl (fun s g => s.returnBuffer x.bay g.2.1 g.2.2) (s.enginesDiscarded i)).setInst i
      { x with gleaning := none, got := x.got.filter fun g => g.1 = .output, wasted := 0 }).countGlean x.bay x.wasted := by
  simp only [State.gleanEnd, hx, hg, hshares, hreq, hsave, hrestore, hk, decide_false, Bool.or_self, Bool.false_eq_true, if_false, if_true]
  rfl

theorem State.gleanEnd_of_vacated (hk : kind ≠ .abort) : s.gleanEnd i =
    let u := ((x.got.foldl (fun s g => s.returnBuffer x.bay g.2.1 g.2.2) (s.enginesDiscarded i)).countGlean x.bay
      (x.wasted + x.wastedOut)).vacate i x
    if kind = .cancel then u.cancelEnd i x else u := by
  simp only [State.gleanEnd, hx, hg, hshares, hreq, hsave, hrestore, hk, decide_false, Bool.or_self, Bool.false_eq_true, if_false]
  rfl

end

theorem State.triggerRun_of_no_template (h : s.triggerOf q = none) : s.triggerRun q = s := by
  simp only [State.triggerRun, h]

theorem State.triggerRun_of_handle {d : SheafDesc} {e : QueueEntry} (h : s.triggerOf q = some (b, d))
    (hlull : (d.be && ((s.bay b).lullWanted || (s.bay b).lulled)) = false) (hroom : s.readyRoom b d.be = true)
    (hpop : s.popQueue q = (s1, some e)) :
    s.triggerRun q = (s1.createInst b (s1.triggerDesc d e.ctx) .trigger e.ctx.chain [(q, e)]).1 := by
  simp only [State.triggerRun, h, hlull, hroom, hpop, Bool.not_true, Bool.or_self, Bool.false_eq_true, if_false]

end Sys2Proof.Machine
end

section
/-! The service of a queue by the bank-side engines (09 R223). -/

namespace Sys2Proof.Machine

variable {s s1 s2 s3 : State} {b q : Nat} {d : QueueDef} {e : QueueEntry} {rest : List QueueEntry} {z z2 : Service}

/-- A service whose commands have run writes its results, and its handle goes on to the paired queue. -/
theorem State.serviceOn_of_ran {l : List (Nat × Nat × Translation)}
    (hrun : s.serviceRun b (!e.ctx.be) (s.poolSize b e.handle.pool) z serviceFuel = (s2, z2, none))
    (htrans : s2.translateRun b true (bseEngine (s2.loftDie b (s2.bufferVa b e.handle.pool e.handle.buffer) 0))
      (pageRuns (s2.bufferVa b e.handle.pool e.handle.buffer) (s2.poolSize b e.handle.pool)) = (s3, .ok l)) :
    s.serviceOn b q e z =
      ((z2.results.foldl (fun s r => s.putLines (s2.bufferVa b e.handle.pool e.handle.buffer) z2.area l r) s3).setService q none).serviceDone
        q e (z2.broken || z2.results.any fun r => z2.area.cribMarked r.1 r.2) := by
  simp only [State.serviceOn, State.serviceWrite, hrun, htrans]

section
variable (hdef : s.queueDef q = some (b, d))
include hdef

theorem State.serve_of_empty (hq : (s.queue q).entries = []) : s.serve q = s := by
  simp only [State.serve, hdef, hq]

variable (hq : (s.queue q).entries = e :: rest) (hkind : d.consumer = 1) (hheld : s.serviceHeld q = false)
include hq hkind hheld

theorem State.serve_of_started (h : AMap.get? s.engines.services q = some z) : s.serve q = s.serviceOn b q e z := by
  simp only [State.serve, hdef, hq, hkind, hheld, h, ne_eq, not_true_eq_false, decide_false, Bool.or_self, Bool.false_eq_true, if_false]

variable (hnew : AMap.get? s.engines.services q = none)
include hnew

theorem State.serve_of_unread {f : RunFault} (h : s.serviceStart b e.handle = (s1, .error f)) :
    s.serve q = s1.serviceFault b q e true f (bseEngine (s.loftDie b f.va 0)) := by
  simp only [State.serve, hdef, hq, hkind, hheld, hnew, h, ne_eq, not_true_eq_false, decide_false, Bool.or_self, Bool.false_eq_true, if_false]

theorem State.serve_of_read (h : s.serviceStart b e.handle = (s1, .ok z)) : s.serve q = s1.serviceOn b q e z := by
  simp only [State.serve, hdef, hq, hkind, hheld, hnew, h, ne_eq, not_true_eq_false, decide_false, Bool.or_self, Bool.false_eq_true, if_false]

end

end Sys2Proof.Machine
end

section
/-! `SW_CANCEL_CMD` GO (09 R230, R231). -/

namespace Sys2Proof.Machine

section
variable (s : State) (b : Nat) (y y' : Bay)

@[simp] theorem State.bay_setBay_same : (s.setBay b y).bay b = y := AMap.getD_set_same s.bays b y .empty

theorem State.setBay_setBay : (s.setBay b y).setBay b y' = s.setBay b y' := congrArg (fun m => { s with bays := m }) (AMap.set_set s.bays b y y')

end

/-- The sheaf that a cancel names: the bay's sheaf with the sequence number of `SW_CANCEL_SEQ`, of those that no replay gleans. -/
def State.cancelTarget (s : State) (b : Nat) : Option (Nat × Inst) :=
  s.insts.find? fun e => e.2.bay = b && e.2.seq = s.reg (Reg.SW_CANCEL_SEQ b) && e.2.gleaning ≠ some .replay

/-- A bay that has accepted the cancel of a sheaf: no refusal stands, and no ready list holds the sheaf. -/
def Bay.cancelTaken (y : Bay) (i : Nat) : Bay :=
  { y with cancelRefused := false, cancelReason := 0, readyLc := y.readyLc.filter (· ≠ i), readyBe := y.readyBe.filter (· ≠ i) }

variable {s : State} {b i : Nat} {x : Inst}

theorem State.cancelOp_of_busy (h : (s.bay b).cancelBusy ≠ none) : s.cancelOp b = s.refuseCancel b 3 :=
  if_pos (Option.isSome_iff_ne_none.mpr h)

section
variable (hfree : (s.bay b).cancelBusy = none)
include hfree

theorem State.cancelOp_of_unknown (h : s.cancelTarget b = none) :
    s.cancelOp b = s.refuseCancel b (if (s.bay b).doneSeqs.contains (s.reg (Reg.SW_CANCEL_SEQ b)).toNat then 2 else 1) := by
  unfold State.cancelTarget at h
  simp only [State.cancelOp, hfree, h, Option.isSome_none, Bool.false_eq_true, if_false]

variable (h : s.cancelTarget b = some (i, x))
include h

/-- A cancel is refused where a fault or an earlier cancel ends its sheaf; a ready sheaf goes at once, and one that has been placed is gleaned. -/
theorem State.cancelOp_of_target : s.cancelOp b =
    if x.chaffMode || x.gleaning.isSome then s.refuseCancel b 3
    else if x.state = .ready then (((s.setBay b ((s.bay b).cancelTaken i)).dropInst i).countGlean b 0).cancelEnd i x
    else (s.setBay b { (s.bay b).cancelTaken i with cancelBusy := some i }).beginGlean i .cancel := by
  unfold State.cancelTarget at h
  have hidle : ¬ (s.bay b).cancelBusy.isSome = true := by rw [hfree]; nofun
  simp only [State.cancelOp, if_neg hidle, h, State.bay_setBay_same, State.setBay_setBay]
  rfl

theorem State.cancelOp_of_ended (hend : x.chaffMode = true ∨ x.gleaning ≠ none) : s.cancelOp b = s.refuseCancel b 3 := by
  rw [State.cancelOp_of_target hfree h, if_pos]
  simpa [Option.isSome_iff_ne_none] using hend

variable (hc : x.chaffMode = false) (hg : x.gleaning = none)
include hc hg

theorem State.cancelOp_of_ready (hs : x.state = .ready) :
    s.cancelOp b = (((s.setBay b ((s.bay b).cancelTaken i)).dropInst i).countGlean b 0).cancelEnd i x := by
  rw [State.cancelOp_of_target hfree h, hc, hg, if_neg (by simp), if_pos hs]

theorem State.cancelOp_of_placed (hs : x.state ≠ .ready) :
    s.cancelOp b = (s.setBay b { (s.bay b).cancelTaken i with cancelBusy := some i }).beginGlean i .cancel := by
  rw [State.cancelOp_of_target hfree h, hc, hg, if_neg (by simp), if_neg hs]

end

end Sys2Proof.Machine
end

section
/-! Copy channels (09 R234, R235). -/

namespace Sys2Proof.Machine

section
variable (s : State) (b c : Nat) (x : CopyChannel)

@[simp] theorem State.channel_setChannel_same : (s.setChannel b c x).channel b c = x := by
  rw [State.channel, State.setChannel, State.bay_setBay_same, AMap.getD_set_same]

theorem State.channel_setBay_of_channels {y : Bay} (h : y.channels = (s.bay b).channels) : (s.setBay b y).channel b c = s.channel b c := by
  rw [State.channel, State.bay_setBay_same, h, State.channel]

@[simp] theorem State.channel_countGlean (b' n : Nat) : (s.countGlean b' n).channel b c = s.channel b c := rfl

@[simp] theorem State.channel_applyAll (keys : List Nat) : (s.applyAll keys).channel b c = s.channel b c := by
  rw [State.channel, State.bay, State.applyAll_bays]
  rfl

/-- The state in which ARM copies the staged descriptor. -/
def State.copyApplied : State :=
  s.applyAll [Reg.CCH_SRC_LO b c, Reg.CCH_SRC_HI b c, Reg.CCH_DST_LO b c, Reg.CCH_DST_HI b c, Reg.CCH_LEN b c, Reg.CCH_CTRL b c]

end

variable {s s1 : State} {b c : Nat} {d : CopyDesc}

theorem State.copyArm_of_idle (h : (s.channel b c).active = none) (hlen : ((s.copyApplied b c).copyDesc b c).len ≠ 0) :
    s.copyArm b c = (s.copyApplied b c).copyStart b c ((s.copyApplied b c).copyDesc b c) := by
  unfold State.copyApplied at *
  simp only [State.copyArm, State.channel_applyAll, h, hlen, if_false]

theorem State.copyArm_of_active (h : (s.channel b c).active ≠ none) (hp : (s.channel b c).pending = none) :
    s.copyArm b c = (s.copyApplied b c).setChannel b c { s.channel b c with pending := some ((s.copyApplied b c).copyDesc b c) } := by
  obtain ⟨a, ha⟩ := Option.ne_none_iff_exists'.mp h
  unfold State.copyApplied
  simp only [State.copyArm, State.channel_applyAll, ha, hp]

/-- A copy that is armed over a pending one replaces it, and the loss is counted. -/
theorem State.copyArm_of_pending (h : (s.channel b c).active ≠ none) (hp : (s.channel b c).pending ≠ none) :
    s.copyArm b c = ((s.copyApplied b c).setChannel b c { s.channel b c with
      pending := some ((s.copyApplied b c).copyDesc b c) }).count16 (Reg.CCH_LOST_REARM b c) := by
  obtain ⟨a, ha⟩ := Option.ne_none_iff_exists'.mp h
  obtain ⟨w, hw⟩ := Option.ne_none_iff_exists'.mp hp
  unfold State.copyApplied
  simp only [State.copyArm, State.channel_applyAll, ha, hw]

theorem State.copyCancel_of_idle (h : (s.channel b c).active = none) : s.copyCancel b c = s := by
  simp only [State.copyCancel, h]

/-- The state in which a cancelled transfer has stopped, at an element boundary that a free value names (R234). -/
def State.copyStopped (s : State) (b c : Nat) (d : CopyDesc) : State :=
  let bound := (s.draw.1.toNat % (d.len + 1)) * 64
  if (s.channel b c).issued || (s.channel b c).blocked then s.draw.2 else (s.draw.2.copyRun b c d bound (copyFuel d)).1

/-- The state in which nothing of a cancelled transfer will land, under the gleaning's number. -/
def State.copyWithdrawn (s : State) (b c : Nat) : State :=
  ((s.gleanRequests (fun r => r.ofChannel b c) (some (s.bay b).gleanSerial)).withdrawCopy b c).setChannel b c .idle

theorem State.copyCancel_of_active (h : (s.channel b c).active = some d) (hstop : s.copyStopped b c d = s1) : s.copyCancel b c =
    if s1.anyRequest fun r => r.ofChannel b c then
      (s1.copyWithdrawn b c).setBay b { (s1.copyWithdrawn b c).bay b with gleanSerial := (s1.bay b).gleanSerial + 1 }
    else (s1.copyWithdrawn b c).countGlean b 0 := by
  subst hstop
  simp only [State.copyCancel, h]
  rfl

/-- A cancelled channel is idle, whether its gleaning still waits or is counted at once. -/
theorem State.copyCancel_channel (h : (s.channel b c).active = some d) : (s.copyCancel b c).channel b c = .idle := by
  have hidle : ((s.copyStopped b c d).copyWithdrawn b c).channel b c = .idle := State.channel_setChannel_same _ b c .idle
  rw [State.copyCancel_of_active h rfl]
  split
  · refine (State.channel_setBay_of_channels _ b c ?_).trans hidle
    rfl
  · exact (State.channel_countGlean _ b c b 0).trans hidle

theorem State.copyDone_of_idle (h : (s.channel b c).active = none) : s.copyDone b c = s := by
  simp only [State.copyDone, h]

section
variable (hd : (s.channel b c).active = some d)
include hd

theorem State.copyDone_of_blocked (h : (s.channel b c).blocked = true) : s.copyDone b c = s := by
  simp only [State.copyDone, hd, h, if_true]

variable (hb : (s.channel b c).blocked = false) (hagain : (s.channel b c).again = [])
include hb hagain

theorem State.copyDone_of_issued (hi : (s.channel b c).issued = true) (hreq : (s.anyRequest fun r => r.ofChannel b c) = false) :
    s.copyDone b c = s.copyEnd b c none 2 := by
  simp only [State.copyDone, State.copyAgain, hd, hb, hagain, hi, hreq, Bool.false_eq_true, if_false, if_true]

variable (hi : (s.channel b c).issued = false)
include hi

/-- A transfer whose pieces have all been moved or asked for ends, or waits for its remote pieces. -/
theorem State.copyDone_of_run (hrun : s.copyRun b c d (d.len * 64) (copyFuel d) = (s1, .issued)) :
    s.copyDone b c =
      if s1.anyRequest fun r => r.ofChannel b c then s1.setChannel b c { s1.channel b c with issued := true } else s1.copyEnd b c none 2 := by
  simp only [State.copyDone, State.copyAgain, hd, hb, hagain, hi, hrun, Bool.false_eq_true, if_false]

theorem State.copyDone_of_fault {f : RunFault} {write : Bool} (hrun : s.copyRun b c d (d.len * 64) (copyFuel d) = (s1, .fault f write)) :
    s.copyDone b c = s1.copyFault b c f write := by
  simp only [State.copyDone, State.copyAgain, hd, hb, hagain, hi, hrun, Bool.false_eq_true, if_false]

end

end Sys2Proof.Machine
end

section
/-! The ends of sheaves and gleanings, queue services, cancels and copies together (09 R221 to R223, R230, R231, R234, R235; 04 R88). -/

namespace Sys2Proof.Machine

/-- Settles O45, by what each row finds: the sheaf, its gleaning, the queue's head or the channel; where it finds nothing to do, the state
stays (log 2). -/
theorem chainsCancelsAndCopies : Obligations.ChainsCancelsAndCopies := by
  refine ⟨?sheafEnd, ?gleanEnd, ?queue, ?cancel, ?copyCommands, ?copyArms, ?copyEnd⟩
  case sheafEnd =>
    intro s i x hx
    exact ⟨fun hend => exec_of_done rfl (State.sheafDone_of_unended hx hend),
      fun hend hc => exec_of_done rfl (State.sheafDone_of_chaff hx hend hc),
      fun hend hc => exec_of_done rfl (State.sheafDone_of_clean hx hend hc)⟩
  case gleanEnd =>
    intro s i x kind hx hg
    exact ⟨fun hheld => exec_of_done rfl (State.gleanEnd_of_held hx hg hheld), fun hshares hreq hsave hrestore =>
      ⟨fun hk => exec_of_done rfl (State.gleanEnd_of_abort hx hg hshares hreq hsave hrestore hk),
        fun hk => exec_of_done rfl (State.gleanEnd_of_vacated hx hg hshares hreq hsave hrestore hk)⟩⟩
  case queue =>
    intro s q
    refine ⟨fun h => exec_of_done rfl (State.triggerRun_of_no_template h),
      fun b d s1 e h hlull hroom hpop => exec_of_done rfl (State.triggerRun_of_handle h hlull hroom hpop),
      fun b d hdef hq => exec_of_done rfl (State.serve_of_empty hdef hq), fun b d e rest hdef hq hkind hheld => ?service⟩
    case service =>
      refine ⟨fun z hz => exec_of_done rfl (State.serve_of_started hdef hq hkind hheld hz), fun hnew s1 => ⟨fun f hf => ?unread, ?ran⟩⟩
      case unread => exact exec_of_done rfl (State.serve_of_unread hdef hq hkind hheld hnew hf)
      case ran =>
        intro z s2 z2 s3 l hz hrun va htrans
        exact exec_of_done rfl ((State.serve_of_read hdef hq hkind hheld hnew hz).trans (State.serviceOn_of_ran hrun htrans))
  case cancel =>
    intro s src bay h u
    refine ⟨fun hbusy => exec_of_cmdWrite rfl h (State.cancelOp_of_busy (s := u) hbusy), ?free⟩
    rintro seq rfl hfree found
    refine ⟨fun hf => exec_of_cmdWrite rfl h (State.cancelOp_of_unknown (s := u) hfree hf),
      fun i x hf => ⟨fun hend => ?ended, fun hc hg => ?goes⟩⟩
    case ended => exact exec_of_cmdWrite rfl h (State.cancelOp_of_ended (s := u) hfree hf hend)
    case goes =>
      exact ⟨fun hs => exec_of_cmdWrite rfl h (State.cancelOp_of_ready (s := u) hfree hf hc hg hs),
        fun hs => exec_of_cmdWrite rfl h (State.cancelOp_of_placed (s := u) hfree hf hc hg hs)⟩
  case copyCommands =>
    intro s src bay ch h
    refine ⟨exec_of_cmdWrite rfl h rfl, fun hidle => exec_of_cmdWrite rfl h (State.copyCancel_of_idle hidle), fun d hd => ?cancelled⟩
    have hcancelled := State.copyCancel_channel (s := s.Commanded src (Reg.CCH_CMD bay.val ch.val) 2) hd
    exact ⟨_, exec_of_cmdWrite rfl h rfl, by rw [hcancelled]; rfl, by rw [hcancelled]; rfl⟩
  case copyArms => exact fun s b c => ⟨State.copyArm_of_idle, State.copyArm_of_active, State.copyArm_of_pending⟩
  case copyEnd =>
    intro s bay ch
    refine ⟨fun hidle => exec_of_done rfl (State.copyDone_of_idle hidle), fun d hd =>
      ⟨fun hb => exec_of_done rfl (State.copyDone_of_blocked hd hb), fun hb hagain => ⟨fun hi hreq => ?issued, fun hi s1 => ?runs⟩⟩⟩
    case issued => exact exec_of_done rfl (State.copyDone_of_issued hd hb hagain hi hreq)
    case runs =>
      refine ⟨fun hrun hreq => ?ends, fun hrun hreq => ?waits, fun f write hrun => ?faults⟩
      case ends => exact exec_of_done rfl ((State.copyDone_of_run hd hb hagain hi hrun).trans (if_neg (by rw [hreq]; nofun)))
      case waits => exact exec_of_done rfl ((State.copyDone_of_run hd hb hagain hi hrun).trans (if_pos hreq))
      case faults => exact exec_of_done rfl (State.copyDone_of_fault hd hb hagain hi hrun)

end Sys2Proof.Machine
end

section
/-! A write or a read of a source that lacks a session or a role (10 R251, 14 R342): its counter alone changes. -/

namespace Sys2Proof.Machine

variable {c : Instr} {s : State} {src : Source} {key : Nat}

theorem plainWrite_of_not_admitted (h : s.admitted src = false) (op : State → State) :
    s.plainWrite src key op = s.count32 Reg.EB_RX_REFUSED 1 := by
  rw [State.plainWrite, checkedWrite_of_not_admitted h]

theorem plainWrite_of_no_role (ha : s.admitted src = true) (h : s.hasRole src (writeRole key) = false) (op : State → State) :
    s.plainWrite src key op = s.count16 Reg.SEC_ROLE_REFUSED := by
  rw [State.plainWrite, checkedWrite_of_no_role ha h, State.roleRefused]

theorem readCommand_of_not_admitted (h : s.admitted src = false) : s.readCommand src key = s.count32 Reg.EB_RX_REFUSED 1 := by
  rw [State.readCommand, h]
  rfl

theorem readCommand_of_no_role (ha : s.admitted src = true) (h : s.hasRole src .read = false) :
    s.readCommand src key = s.count16 Reg.SEC_ROLE_REFUSED := by
  rw [State.readCommand, ha, h]
  rfl

/-- A command with an open place is a write of that place which needs no guard. -/
theorem exec_eq_plainWrite_of_openPlace (h : openPlace s c = some (src, key)) :
    ∃ op, exec c s = s.done (s.plainWrite src key op) := by
  unfold openPlace at h
  split at h <;> cases h <;> exact ⟨_, rfl⟩

theorem exec_eq_readCommand_of_readPlace (h : readPlace c = some (src, key)) : exec c s = s.done (s.readCommand src key) := by
  unfold readPlace at h
  split at h <;> cases h <;> rfl

/-- Settles O8: every such command is one `plainWrite` or one `readCommand`, which looks for the session first, and then for the role. -/
theorem openAccessesRefused : Obligations.OpenAccessesRefused := by
  refine ⟨?write, ?read⟩
  case write =>
    intro c s src key hplace
    obtain ⟨op, hexec⟩ := exec_eq_plainWrite_of_openPlace hplace
    exact ⟨fun ha => exec_of_done hexec (plainWrite_of_not_admitted ha op), fun ha hr => exec_of_done hexec (plainWrite_of_no_role ha hr op)⟩
  case read =>
    intro c s src key hplace
    have hexec := exec_eq_readCommand_of_readPlace (s := s) hplace
    exact ⟨fun ha => exec_of_done hexec (readCommand_of_not_admitted ha), fun ha hr => exec_of_done hexec (readCommand_of_no_role ha hr)⟩

end Sys2Proof.Machine
end

section
/-! A REG message (10 R249, R251, R252; 16 R379): its operations, and its refusal. The taking of its sequence is log 76. -/

namespace Sys2Proof.Machine

variable {s : State} {peer : Fin 16384} {o : RegOp} {rest : List RegOp}

theorem State.regOp_of_write (h : o.op = 2) :
    s.regOp peer o = ((s.writeAt (.peer peer) o.addr.toNat o.data).1, (s.writeAt (.peer peer) o.addr.toNat o.data).2.code, o.data, 0) := by
  rw [State.regOp, h]
  rfl

/-- An operation that ends OK lets the rest run on the state that it leaves. -/
theorem State.regOps_cons_of_ok (h : (s.regOp peer o).2.1 = 0) :
    s.regOps peer (o :: rest) = (((s.regOp peer o).1.regOps peer rest).1, (s.regOp peer o).2 :: ((s.regOp peer o).1.regOps peer rest).2) := by
  rw [State.regOps]
  exact if_pos h

/-- An operation that ends otherwise has the rest SKIPPED, status 2 (10 R252). -/
theorem State.regOps_cons_of_failed (h : (s.regOp peer o).2.1 ≠ 0) :
    s.regOps peer (o :: rest) = ((s.regOp peer o).1, (s.regOp peer o).2 :: rest.map fun r => (2, r.data, 0)) := by
  rw [State.regOps]
  exact if_neg h

/-- Settles O13: the recursion of `regOps` runs the operations, and the session alone decides whether it does. -/
theorem regMessagesRunInOrder : Obligations.RegMessagesRunInOrder := by
  refine ⟨?refused, ?answered, ?goesOn, ?skips, ?write⟩
  case refused => exact fun s peer tag ops h => exec_of_done rfl (if_pos (Option.isNone_iff_eq_none.mpr h))
  case answered => exact fun s peer tag ops h => exec_of_done rfl (if_neg (by rw [Option.isNone_eq_false_iff.mpr h]; nofun))
  case goesOn => exact fun s peer o rest h => State.regOps_cons_of_ok h
  case skips => exact fun s peer o rest h => State.regOps_cons_of_failed h
  case write =>
    intro s peer o h
    rw [State.regOp_of_write h]
    exact ⟨rfl, rfl⟩

end Sys2Proof.Machine
end

section
/-! CFG data into the staging store (10 R253, 02 R44, 14 R342), and the signature check of what was received (02 R31, R34). What the checks read of the
staging store is log 72 and 95. -/

namespace Sys2Proof.Machine

section
variable (s : State) (p cls : Nat)

@[simp] theorem State.takeMsg_session (q : Nat) : (s.takeMsg p cls).1.session q = s.session q := by
  rw [State.takeMsg_eq]
  rfl

@[simp] theorem State.takeMsg_peerRole (q : Nat) (r : Role) : (s.takeMsg p cls).1.peerRole q r = s.peerRole q r := by
  rw [State.takeMsg_eq]
  rfl

@[simp] theorem State.takeMsg_loader : (s.takeMsg p cls).1.loader = s.loader := by
  rw [State.takeMsg_eq]

end

section
variable {s u : State} {p off : Nat} {data : Bytes} {msg : Option Word}
variable (hm : s.takeMsg p 2 = (u, msg)) (hs : (u.session p).isSome = true)
include hm hs

/-- The granules that a piece brings count as received, and the load goes on. -/
theorem State.cfgData_of_received (hr : u.peerRole p .configure = true) (hst : u.loader.state = .receiving) (hoff : off % 64 = 0)
    (hlen : data.length % 64 = 0 ∨ u.loader.op.length = some (off + data.length)) (hend : off + data.length ≤ 0x4000000) :
    s.cfgData p off data =
      (({ u.physWrite (Config.stageBase + off) data false with loader := { u.loader with op := { u.loader.op with
        granules := (List.range (ceilDiv data.length 64)).foldl (fun (g : Nat) i => g ||| 2 ^ (off / 64 + i)) u.loader.op.granules } } } :
          State).receivedMore).effect p msg := by
  rcases hlen with hlen | hlen <;> simp [State.cfgData, hm, Option.isNone_eq_false_iff.mpr hs, hr, hst, hoff, hlen, Nat.not_lt.mpr hend]

/-- A piece that comes while the loader does not receive is refused; before service it is dropped (16 R379). -/
theorem State.cfgData_of_not_receiving (hr : u.peerRole p .configure = true) (hst : u.loader.state ≠ .receiving) :
    s.cfgData p off data = if u.inService then (u.count32 Reg.EB_RX_REFUSED 1).effect p msg else u := by
  simp [State.cfgData, hm, Option.isNone_eq_false_iff.mpr hs, hr, hst]

theorem State.cfgData_of_no_role (hr : u.peerRole p .configure = false) : s.cfgData p off data = u.roleRefused.effect p msg := by
  simp [State.cfgData, hm, Option.isNone_eq_false_iff.mpr hs, hr]

end

section
variable {s : State}

/-- Once the header is in, the load knows its length and its bays, and goes on receiving. -/
theorem State.receivedMore_of_header (hn : lengthOk (imageLength (s.staged 0 256)) = true)
    (hhead : ([0, 1, 2, 3].all fun g => s.loader.op.got g) = true)
    (hmore : ((List.range (ceilDiv (imageLength (s.staged 0 256)) 64)).all fun g => s.loader.op.got g) = false) :
    s.receivedMore = { s with loader := { s.loader with op := { s.loader.op with
      length := some (imageLength (s.staged 0 256)), mask := BitVec.ofNat 16 (imageMask (s.staged 0 256)), full := imageFull (s.staged 0 256)
      global := imageGlobal (s.staged 0 256), serial := imageSerial (s.staged 0 256), header := s.staged 0 256, keys := s.sec.imageKeys } } } := by
  simp only [State.receivedMore, hn, hhead, hmore, Bool.not_true, Bool.not_false, Bool.and_self, Bool.false_eq_true, if_false, if_true]

theorem State.verified_of_idle (h : s.loader.state ≠ .verifying) : s.verified = s := if_pos h

variable {u : State} (h : s.loader.state = .verifying) (hu : s.readImage (imageLength s.loader.op.header) = u)
include h hu

theorem State.verified_of_bad_signature {code : Nat} (hsig : u.signatureFault = some code) : s.verified = u.rejectLoad (code, 0, 0) := by
  simp only [State.verified, hu, h, hsig, ne_eq, not_true_eq_false, if_false]

/-- An image that passes every check has its slots put into the inactive banks. -/
theorem State.verified_of_good {table : List TableEntry} {slots : List (Nat × SlotCopy)} (htable : u.imageTable u.loader.op.header = table)
    (hslots : (u.loader.op.slots.map fun k => (k, u.imageSlot table k)) = slots) (hsig : u.signatureFault = none)
    (hentry : u.entryFault table table 0 = none) (hspace : u.loader.spaceOk slots = true) (hlive : u.liveFault slots = none) :
    s.verified = { u with loader := { slots.foldl
      (fun (l : Loader) e => l.setBank (!bit u.loader.record.active e.1) e.1 (some e.2)) u.loader with state := .staged } } := by
  simp only [State.verified, hu, h, hsig, htable, hentry, hslots, hspace, hlive, ne_eq, not_true_eq_false, Bool.not_true, Bool.false_eq_true, if_false]

end

/-- Settles O16: taking the message changes none of what its checks read, and a check ends by its first fault; with nothing to check it
does nothing (log 2). -/
theorem imageReceivedAndChecked : Obligations.ImageReceivedAndChecked := by
  refine ⟨?received, ?notReceiving, ?noRole, ?header, ?badSignature, ?staged, ?idle⟩
  case received =>
    intro s peer offset data hs hr hst hoff hlen hend granules stored
    have hact := State.cfgData_of_received (s := s) (u := (s.takeMsg peer.val 2).1) (msg := (s.takeMsg peer.val 2).2) rfl
      (by rwa [State.takeMsg_session]) (by rwa [State.takeMsg_peerRole]) (by rwa [State.takeMsg_loader]) hoff
      (by rwa [State.takeMsg_loader]) hend
    rw [State.takeMsg_loader] at hact
    exact exec_of_done rfl hact
  case notReceiving =>
    intro s peer offset data hs hr hst u
    have hact := State.cfgData_of_not_receiving (s := s) (off := offset.toNat) (data := data) (u := u) (msg := (s.takeMsg peer.val 2).2) rfl
      (by rwa [State.takeMsg_session]) (by rwa [State.takeMsg_peerRole]) (by rwa [State.takeMsg_loader])
    rw [State.takeMsg_inService] at hact
    exact exec_of_done rfl hact
  case noRole =>
    intro s peer offset data hs hr
    exact exec_of_done rfl (State.cfgData_of_no_role rfl (by rwa [State.takeMsg_session]) (by rwa [State.takeMsg_peerRole]))
  case header =>
    intro s n hn himage hhead hmore h
    subst himage
    exact State.receivedMore_of_header hn hhead hmore
  case badSignature =>
    intro s code h u hsig
    exact exec_of_done rfl (State.verified_of_bad_signature h rfl hsig)
  case staged =>
    intro s h u table slots hsig hentry hspace hlive
    exact exec_of_done rfl (State.verified_of_good h rfl rfl rfl hsig hentry hspace hlive)
  case idle => exact fun s h => exec_of_done rfl (State.verified_of_idle h)

end Sys2Proof.Machine
end

section
/-! The link as lanes fail, as training ends and as it begins again (10 R237, R238; 16 R386). -/

namespace Sys2Proof.Machine

variable {s : State}

/-- A link that has lost a lane trains on four lanes where its lane record lets it, and is DOWN otherwise (10 R238). -/
def State.fallBack (s : State) (failed : BitVec 8) : State :=
  if canDegrade failed s.portDegrade then s.train else s.setPort { s.net.port with link := .down }

theorem State.fallBack_of_can {failed : BitVec 8} (h : canDegrade failed s.portDegrade = true) : s.fallBack failed = s.train := if_pos h

theorem State.fallBack_of_cannot {failed : BitVec 8} (h : canDegrade failed s.portDegrade = false) :
    s.fallBack failed = s.setPort { s.net.port with link := .down } := if_neg (by rw [h]; nofun)

section
variable {lane : Nat}

theorem State.laneFailed_of_not_up (h : s.net.port.link = .down ∨ s.net.port.link = .training) : s.laneFailed lane = s := by
  rcases h with h | h <;> simp only [State.laneFailed, h]

theorem State.laneFailed_of_up8 (h : s.net.port.link = .up8) : s.laneFailed lane =
    ((((s.setPort { s.net.port with failed := s.net.port.failed ||| (1#8 <<< lane) }).countSat Reg.EB_DEGRADES 16 0 1).applyStaged
      Reg.EB_PORT_CTRL).fallBack (s.net.port.failed ||| (1#8 <<< lane))).laneLog lane := by
  simp only [State.laneFailed, h]
  rfl

theorem State.laneFailed_of_up4 (h : s.net.port.link = .up4) (hlane : decide (lane ≥ 4) = s.net.port.group) : s.laneFailed lane =
    (((s.setPort { s.net.port with failed := s.net.port.failed ||| (1#8 <<< lane) }).applyStaged Reg.EB_PORT_CTRL).fallBack
      (s.net.port.failed ||| (1#8 <<< lane))).laneLog lane := by
  simp only [State.laneFailed, h, hlane, if_true]
  rfl

/-- A lane that the four-lane link does not use has no effect on it. -/
theorem State.laneFailed_of_unused (h : s.net.port.link = .up4) (hlane : decide (lane ≥ 4) ≠ s.net.port.group) : s.laneFailed lane = s := by
  simp only [State.laneFailed, h, hlane, if_false]

end

section
variable {w : LinkWidth} {copper : Bool} {failed : BitVec 8}

theorem State.trained_of_not_training (h : s.net.port.link ≠ .training) : s.trained w copper = s := by
  simp only [State.trained, h, ne_eq, not_false_eq_true, decide_true, Bool.true_or, if_true]

/-- The link comes up on the lanes that the width names. -/
theorem State.trained_of_ends (h : s.net.port.link = .training) (hw : trainEnds s.net.port.train s.portDegrade s.portAn w = true) :
    s.trained w copper = (s.setPort { s.net.port with
      link := if w = .eight then .up8 else .up4, group := decide (w = .lanes47)
      cr := if s.portAn then copper else bit (s.reg Reg.EB_PORT_CTRL) 1 }).drainEgress := by
  simp only [State.trained, h, hw, ne_eq, not_true_eq_false, decide_false, Bool.not_true, Bool.or_self, Bool.false_eq_true, if_false]
  cases w <;> rfl

theorem State.trainFailed_of_not_training (h : s.net.port.link ≠ .training) : s.trainFailed failed = s := if_pos h

theorem State.trainFailed_of_training (h : s.net.port.link = .training) : s.trainFailed failed =
    ((List.range 8).filter fun i => bit failed i).foldl State.laneLog
      (s.setPort { s.net.port with link := .down, failed := s.net.port.failed ||| failed }) := if_neg (not_not_intro h)

end

theorem State.restoreLanes_of_up4 (h : s.net.port.link = .up4) : s.restoreLanes = (s.setPort { s.net.port with failed := 0 }).train := if_pos h

theorem State.restoreLanes_of_not_up4 (h : s.net.port.link ≠ .up4) : s.restoreLanes = s := if_neg h

theorem State.anFallback_of_unneeded (h : s.linkUp = true ∨ s.portAn = true) : s.anFallback = s := if_pos ((Bool.or_eq_true _ _).mpr h)

theorem State.anFallback_of_forced (hup : s.linkUp = false) (han : s.portAn = false) :
    s.anFallback = (s.setPort { s.net.port with fallback := true }).train := if_neg (by rw [hup, han]; nofun)

end Sys2Proof.Machine
end

section
/-! Congestion notices and pauses (10 R242, R243). -/

namespace Sys2Proof.Machine

variable {s : State}

theorem State.congestedPeer_of_recent {p : Nat} (h : s.recent (s.peer p).cutAt = true) : s.congestedPeer p = s := if_pos h

theorem State.congestedPeer_of_due {p : Nat} (h : s.recent (s.peer p).cutAt = false) :
    s.congestedPeer p = s.setPeer p { s.peer p with rate := some (s.cutRate (s.peer p).rate), cutAt := some s.lic } :=
  if_neg (by rw [h]; nofun)

section
variable {priority quanta : Nat}

/-- A pause on a priority without PFC is only counted. -/
theorem State.pauseRx_of_no_pfc (h : bit ((s.countWrap Reg.EB_PFC_PAUSE_RX 1).reg Reg.EB_PFC) priority = false) :
    s.pauseRx priority quanta = s.countWrap Reg.EB_PFC_PAUSE_RX 1 := by
  simp only [State.pauseRx, h, Bool.not_false, if_true]

theorem State.pauseRx_of_zero (h : bit ((s.countWrap Reg.EB_PFC_PAUSE_RX 1).reg Reg.EB_PFC) priority = true) :
    s.pauseRx priority 0 =
      ((s.countWrap Reg.EB_PFC_PAUSE_RX 1).setPort { s.net.port with paused := AMap.erase s.net.port.paused priority }).drainEgress := by
  simp only [State.pauseRx, h, Bool.not_true, Bool.false_eq_true, if_false, if_true]
  rfl

theorem State.pauseRx_of_quanta (h : bit ((s.countWrap Reg.EB_PFC_PAUSE_RX 1).reg Reg.EB_PFC) priority = true) (hq : quanta ≠ 0) :
    s.pauseRx priority quanta =
      (s.countWrap Reg.EB_PFC_PAUSE_RX 1).setPort { s.net.port with paused := AMap.set s.net.port.paused priority quanta } := by
  simp only [State.pauseRx, h, hq, Bool.not_true, Bool.false_eq_true, if_false]
  rfl

end

/-- The port with the fill of a priority's receive buffer noted: a share of 1 MiB. -/
def Port.filled (x : Port) (priority percent : Nat) : Port :=
  { x with rxLevel := AMap.set x.rxLevel priority (min percent 100 * 1048576 / 100) }

section
variable {priority percent : Nat}

theorem State.rxFill_of_no_pfc (h : bit (s.reg Reg.EB_PFC) priority = false) :
    s.rxFill priority percent = s.setPort (s.net.port.filled priority percent) := by
  simp only [State.rxFill, h, Bool.not_false, if_true]
  rfl

theorem State.rxFill_of_high (h : bit (s.reg Reg.EB_PFC) priority = true) (hfill : 75 ≤ percent) : s.rxFill priority percent =
    ((s.setPort { s.net.port.filled priority percent with pausing := s.net.port.pausing ||| (1#8 <<< priority) }).send
      (.pause priority true)).countWrap Reg.EB_PFC_PAUSE_TX 1 := by
  simp only [State.rxFill, h, ge_iff_le, hfill, decide_true, Bool.not_true, Bool.true_or, Bool.false_eq_true, if_false, if_true]
  rfl

/-- A priority that pauses its sender lets it go once its buffer falls below one half. -/
theorem State.rxFill_of_low (h : bit (s.reg Reg.EB_PFC) priority = true) (hp : bit s.net.port.pausing priority = true) (hfill : percent < 50) :
    s.rxFill priority percent =
      ((s.setPort { s.net.port.filled priority percent with pausing := s.net.port.pausing &&& ~~~(1#8 <<< priority) }).send
        (.pause priority false)).countWrap Reg.EB_PFC_PAUSE_TX 1 := by
  have hhigh : ¬ 75 ≤ percent := by omega
  have hmid : ¬ 50 < percent := by omega
  simp only [State.rxFill, h, hp, ge_iff_le, gt_iff_lt, hhigh, hmid, hfill, decide_true, decide_false, Bool.not_true, Bool.and_false, Bool.or_self,
    Bool.and_self, Bool.false_eq_true, if_false, if_true]
  rfl

end

end Sys2Proof.Machine
end

section
/-! A received frame (10 R240 to R244): its checks, and where it goes. -/

namespace Sys2Proof.Machine

/-- The fields that apply at the next frame do, and the frame is counted. -/
def State.frameCounted (s : State) : State := (s.applyAll frameFields).count64 Reg.EB_RX_FRAMES_LO Reg.EB_RX_FRAMES_HI 1

/-- The receive buffer of a frame's priority has no room, and no pause holds its sender back. -/
def State.rxFull (s : State) (f : EthFrame) : Bool :=
  !bit (s.reg Reg.EB_PFC) (framePriority f) && decide (AMap.getD s.net.port.rxLevel (framePriority f) 0 + f.length > 1048576)

/-- What becomes of a frame that the port accepts: the checks of MACsec, the room for it, and then its body (10 R240, R242, R244). -/
def State.acceptFrame (s : State) (f : EthFrame) : State :=
  match s.macsecTake f with
  | .dropped => s.count32 Reg.EB_MACSEC_DROP 1
  | .refused => s.count32 Reg.EB_RX_DROP 1
  | .pass v =>
    if f.body ≠ .macControl && s.rxFull f then s.count32 Reg.EB_RX_DROP 1
    else
      match f.body with
      | .macControl | .other => v
      | .bale head d => if head.checksum = some false then v else v.baleRx head.src d f.ecnCe
      | .roce _ c opcode icrc => if icrc then v.roceRx c opcode.toNat f.ecnCe else v

variable {s u v : State} {f : EthFrame}

theorem State.rxFull_frameCounted : s.frameCounted.rxFull f = true ↔
    bit (s.frameCounted.reg Reg.EB_PFC) (framePriority f) = false ∧
      1048576 < AMap.getD s.net.port.rxLevel (framePriority f) 0 + f.length := by
  have hnet : s.frameCounted.net = s.net := by rw [State.frameCounted, State.count64_net, State.applyAll_net]
  rw [State.rxFull, hnet, Bool.and_eq_true, Bool.not_eq_true', decide_eq_true_iff]

theorem State.frameRx_of_link_down (h : s.linkUp = false) : s.frameRx f = s := by
  simp only [State.frameRx, h, Bool.not_false, if_true]

section
variable (hup : s.linkUp = true)
include hup

theorem State.frameRx_of_bad_length (h : f.length < 64 ∨ 9216 < f.length) : s.frameRx f = s.frameCounted.count32 Reg.EB_RX_DROP 1 := by
  simp only [State.frameRx, hup, gt_iff_lt, h, Bool.not_true, Bool.false_eq_true, if_false, if_true]
  rfl

variable (hmin : 64 ≤ f.length) (hmax : f.length ≤ 9216)
include hmin hmax

theorem State.frameRx_of_good_length :
    s.frameRx f = if s.frameCounted.frameOk f then s.frameCounted.acceptFrame f else s.frameCounted.count32 Reg.EB_RX_DROP 1 := by
  have hlen : ¬ (f.length < 64 ∨ f.length > 9216) := by omega
  simp only [State.frameRx, hup, hlen, Bool.not_true, Bool.false_eq_true, if_false]
  cases hok : s.frameCounted.frameOk f <;> rw [State.frameCounted] at hok <;> rw [hok] <;> rfl

theorem State.frameRx_of_not_ok (hok : s.frameCounted.frameOk f = false) : s.frameRx f = s.frameCounted.count32 Reg.EB_RX_DROP 1 := by
  rw [State.frameRx_of_good_length hup hmin hmax, if_neg (by rw [hok]; nofun)]

theorem State.frameRx_of_ok (hok : s.frameCounted.frameOk f = true) (h : s.frameCounted.acceptFrame f = u) : s.frameRx f = u := by
  rw [State.frameRx_of_good_length hup hmin hmax, if_pos hok, h]

end

theorem State.acceptFrame_of_dropped (h : s.macsecTake f = .dropped) : s.acceptFrame f = s.count32 Reg.EB_MACSEC_DROP 1 := by
  simp only [State.acceptFrame, h]

theorem State.acceptFrame_of_refused (h : s.macsecTake f = .refused) : s.acceptFrame f = s.count32 Reg.EB_RX_DROP 1 := by
  simp only [State.acceptFrame, h]

section
variable (hpass : s.macsecTake f = .pass v)
include hpass

theorem State.acceptFrame_of_mac_control (h : f.body = .macControl) : s.acceptFrame f = v := by
  simp only [State.acceptFrame, hpass, h, ne_eq, not_true_eq_false, decide_false, Bool.false_and, Bool.false_eq_true, if_false]

theorem State.acceptFrame_of_full (h : f.body ≠ .macControl) (hfull : s.rxFull f = true) : s.acceptFrame f = s.count32 Reg.EB_RX_DROP 1 := by
  simp only [State.acceptFrame, hpass, h, hfull, ne_eq, not_false_eq_true, decide_true, Bool.and_self, if_true]

variable (hroom : s.rxFull f = false)
include hroom

theorem State.acceptFrame_of_bale {head : UdpHead} {d : BaleDatagram} (h : f.body = .bale head d) :
    s.acceptFrame f = if head.checksum = some false then v else v.baleRx head.src d f.ecnCe := by
  simp only [State.acceptFrame, hpass, hroom, h, Bool.and_false, Bool.false_eq_true, if_false]

theorem State.acceptFrame_of_roce {head : UdpHead} {c : Fin 4096} {opcode : Byte} {icrc : Bool} (h : f.body = .roce head c opcode icrc) :
    s.acceptFrame f = if icrc then v.roceRx c opcode.toNat f.ecnCe else v := by
  simp only [State.acceptFrame, hpass, hroom, h, Bool.and_false, Bool.false_eq_true, if_false]

end

end Sys2Proof.Machine
end

section
/-! The port as a whole. -/

namespace Sys2Proof.Machine

/-- Settles O47: each event acts by the state of the link, and a frame meets its checks one after the other. RESTORE outside UP4 and the
lanes of a training are log 23; an event that finds nothing to do is log 2. -/
theorem portLanesRatesAndFrames : Obligations.PortLanesRatesAndFrames := by
  refine ⟨?lanes, ?training, ?retries, ?commands, ?rates, ?pauses, ?fill, ?frames⟩
  case lanes =>
    intro s lane x failed u v
    refine ⟨fun h => ?notUp, fun h hcan => ?up8Degrades, fun h hcan => ?up8Down, fun h hlane => ?unused, fun h hlane hcan => ?up4Trains,
      fun h hlane hcan => ?up4Down⟩
    case notUp => exact exec_of_done rfl (State.laneFailed_of_not_up h)
    case up8Degrades => exact exec_of_done rfl ((State.laneFailed_of_up8 h).trans (congrArg (State.laneLog · lane.val) (State.fallBack_of_can hcan)))
    case up8Down => exact exec_of_done rfl ((State.laneFailed_of_up8 h).trans (congrArg (State.laneLog · lane.val) (State.fallBack_of_cannot hcan)))
    case unused => exact exec_of_done rfl (State.laneFailed_of_unused h hlane)
    case up4Trains =>
      exact exec_of_done rfl ((State.laneFailed_of_up4 h hlane).trans (congrArg (State.laneLog · lane.val) (State.fallBack_of_can hcan)))
    case up4Down =>
      exact exec_of_done rfl ((State.laneFailed_of_up4 h hlane).trans (congrArg (State.laneLog · lane.val) (State.fallBack_of_cannot hcan)))
  case training =>
    intro s width copper failed x cr
    exact
      ⟨fun h => ⟨exec_of_done rfl (State.trained_of_not_training h), exec_of_done rfl (State.trainFailed_of_not_training h)⟩,
        fun h hw => exec_of_done rfl (State.trained_of_ends h hw), fun h => exec_of_done rfl (State.trainFailed_of_training h)⟩
  case retries =>
    exact fun s => ⟨fun h => exec_of_done rfl (if_pos h), fun h => exec_of_done rfl (if_neg h),
      fun h => exec_of_done rfl (State.anFallback_of_unneeded h), fun hup han => exec_of_done rfl (State.anFallback_of_forced hup han)⟩
  case commands =>
    exact fun s src h => ⟨exec_of_cmdWrite rfl h rfl,
      fun hup => exec_of_cmdWrite rfl h (State.restoreLanes_of_up4 (s := s.Commanded src Reg.EB_CMD 2) hup),
      fun hup => exec_of_cmdWrite rfl h (State.restoreLanes_of_not_up4 (s := s.Commanded src Reg.EB_CMD 2) hup)⟩
  case rates =>
    exact fun s p c => ⟨fun h => exec_of_done rfl (State.congestedPeer_of_recent h), fun h => exec_of_done rfl (State.congestedPeer_of_due h),
      rfl, rfl, rfl⟩
  case pauses =>
    intro s priority quanta u x
    refine ⟨fun h => ?uncontrolled, fun h hq => ?free, fun h hq => ?stop, rfl⟩
    case uncontrolled => exact exec_of_done rfl (State.pauseRx_of_no_pfc h)
    case free =>
      subst hq
      exact exec_of_done rfl (State.pauseRx_of_zero h)
    case stop => exact exec_of_done rfl (State.pauseRx_of_quanta h (by rwa [ne_eq, ← BitVec.toNat_inj] at hq))
  case fill =>
    intro s priority percent x y
    exact ⟨fun h => exec_of_done rfl (State.rxFill_of_no_pfc h), fun h hfill => exec_of_done rfl (State.rxFill_of_high h hfill),
      fun h hp hfill => exec_of_done rfl (State.rxFill_of_low h hp hfill)⟩
  case frames =>
    intro s f u
    refine ⟨fun h => ?linkDown, fun hup h => ?badLength, fun hup hmin hmax h => ?notOk, fun hup hmin hmax hok => ?accepted⟩
    case linkDown => exact exec_of_done rfl (State.frameRx_of_link_down h)
    case badLength => exact exec_of_done rfl (State.frameRx_of_bad_length hup h)
    case notOk => exact exec_of_done rfl (State.frameRx_of_not_ok hup hmin hmax h)
    case accepted =>
      intro pr full
      have hroomy : ¬ full → s.frameCounted.rxFull f = false := fun h => Bool.eq_false_iff.mpr (mt State.rxFull_frameCounted.mp h)
      have hact {t : State} (h : s.frameCounted.acceptFrame f = t) : exec (.ethernetFrameRx f) s = .next (settle s t) :=
        exec_of_done rfl (State.frameRx_of_ok hup hmin hmax hok h)
      refine ⟨fun h => ?dropped, fun h => ?refused, fun v hpass => ⟨fun h => ?control, fun h hfull => ?full, fun head d h hroom => ?bale,
        fun head c opcode hroom => ?roce⟩⟩
      case dropped => exact hact (State.acceptFrame_of_dropped h)
      case refused => exact hact (State.acceptFrame_of_refused h)
      case control => exact hact (State.acceptFrame_of_mac_control hpass h)
      case full => exact hact (State.acceptFrame_of_full hpass h (State.rxFull_frameCounted.mpr hfull))
      case bale =>
        have hbody := State.acceptFrame_of_bale hpass (hroomy hroom) h
        exact ⟨fun hsum => hact (hbody.trans (if_pos hsum)), fun hsum => hact (hbody.trans (if_neg hsum))⟩
      case roce =>
        exact ⟨fun h => hact (State.acceptFrame_of_roce hpass (hroomy hroom) h), fun h => hact (State.acceptFrame_of_roce hpass (hroomy hroom) h)⟩

end Sys2Proof.Machine
end

section
/-! Acknowledgements, timeouts and probes of a peer's messages (10 R249), and the write of its entry (10 R247). -/

namespace Sys2Proof.Machine

variable {s : State} {p : Nat} {cum sack seq : Word} {m : TxMsg}

/-- The messages that an acknowledgement names: those before its sequence. -/
def Peer.acked (x : Peer) (cum : Word) : List TxMsg := x.unacked.filter fun m => seqLt m.seq cum

/-- The messages that an acknowledgement leaves, marked where it names them selectively. -/
def Peer.left (x : Peer) (cum sack : Word) : List TxMsg :=
  (x.unacked.filter fun m => !seqLt m.seq cum).map fun m =>
    { m with sacked := m.sacked || (decide ((m.seq - cum - 1).toNat < 32) && bit sack (m.seq - cum - 1).toNat) }

/-- The messages that an acknowledgement shows lost. -/
def Peer.lost (x : Peer) (cum sack : Word) : List Word := newlyLost x.unacked (x.left cum sack)

/-- The peer after an acknowledgement: it is up, and each message shown lost has one retry more. -/
def Peer.afterAck (x : Peer) (cum sack : Word) : Peer :=
  { x with
    unacked := (x.left cum sack).map fun m => if (x.lost cum sack).contains m.seq then { m with retries := m.retries + 1 } else m
    down := false, backoff := 0 }

/-- What follows an acknowledgement: the messages that it names are done with, those that it shows lost leave again, and waiting ones leave. -/
def State.ackFollows (s : State) (p : Nat) (acked : List TxMsg) (lost : List Word) : State :=
  (lost.foldl (fun s q => s.resend p q) (acked.foldl (fun s m => s.bodyDone true m.body) s)).pump p

/-- An entry that is not in use, or a sequence that was not sent (log 24). -/
theorem State.ackRx_of_ignored (h : s.peerKind p = 0 ∨ seqLe cum (s.peer p).txSeq = false) : s.ackRx p cum sack = s := by
  refine if_pos ?_
  rw [Bool.or_eq_true, decide_eq_true_iff, Bool.not_eq_true']
  exact h

section
variable (hk : s.peerKind p ≠ 0) (hseq : seqLe cum (s.peer p).txSeq = true)
include hk hseq

/-- An acknowledgement that names no message leaves the round-trip time. -/
theorem State.ackRx_of_none_acked (h : (s.peer p).acked cum = []) : s.ackRx p cum sack =
    (s.setPeer p ((s.peer p).afterAck cum sack)).ackFollows p ((s.peer p).acked cum) ((s.peer p).lost cum sack) := by
  unfold Peer.acked at h ⊢
  simp only [State.ackRx, hk, hseq, h, decide_false, Bool.not_true, Bool.or_self, Bool.false_eq_true, List.isEmpty_nil, if_false, if_true]
  rfl

/-- An acknowledgement that names a message draws the new round-trip time, whose weights are not stated (log 24). -/
theorem State.ackRx_of_acked (h : (s.peer p).acked cum ≠ []) : s.ackRx p cum sack =
    (s.draw.2.setPeer p { (s.peer p).afterAck cum sack with rtt := fld s.draw.1 23 0 }).ackFollows p ((s.peer p).acked cum)
      ((s.peer p).lost cum sack) := by
  have hsome := List.isEmpty_eq_false_iff.mpr h
  unfold Peer.acked at hsome ⊢
  simp only [State.ackRx, hk, hseq, hsome, decide_false, Bool.not_true, Bool.or_self, Bool.false_eq_true, if_false]
  rfl

end

/-- A message's timer stands: the link is down, or its peer is DOWN or waits for a session, or a frame of it waits to leave (10 R239, R251). -/
def State.TimerStands (s : State) (p : Nat) (seq : Word) : Prop :=
  s.linkUp = false ∨ (s.peer p).down = true ∨ (s.peer p).awaitSession = true ∨ s.frameWaits p seq = true

section
variable (hm : ((s.peer p).unacked.find? fun m => m.seq = seq && !m.sacked) = some m)
include hm

theorem State.retransmit_of_stands (h : s.TimerStands p seq) : s.retransmit p seq = s := by
  rcases h with h | h | h | h <;> simp [State.retransmit, hm, h]

variable (hup : s.linkUp = true) (hd : (s.peer p).down = false) (ha : (s.peer p).awaitSession = false) (hw : s.frameWaits p seq = false)
include hup hd ha hw

theorem State.retransmit_of_spent (h : fld (s.reg Reg.EB_RTO) 19 16 ≤ m.retries) :
    s.retransmit p seq = s.setPeer p { s.peer p with down := true } := by
  simp only [State.retransmit, hm, hup, hd, ha, hw, ge_iff_le, h, Bool.not_true, Bool.or_self, Bool.false_eq_true, if_false, if_true]

theorem State.retransmit_of_left (h : m.retries < fld (s.reg Reg.EB_RTO) 19 16) : s.retransmit p seq =
    (s.setPeer p { s.peer p with
      backoff := (s.peer p).backoff + 1
      unacked := (s.peer p).unacked.map fun k => if k.seq = seq then { k with retries := k.retries + 1 } else k }).resend p seq := by
  simp only [State.retransmit, hm, hup, hd, ha, hw, ge_iff_le, Nat.not_le.mpr h, Bool.not_true, Bool.or_self, Bool.false_eq_true, if_false]

end

section
variable {rest : List TxMsg} (hu : (s.peer p).unacked = m :: rest)
include hu

theorem State.probePeer_of_down (hd : (s.peer p).down = true) (hup : s.linkUp = true) (ha : (s.peer p).awaitSession = false)
    (hw : s.frameWaits p m.seq = false) : s.probePeer p = s.resend p m.seq := by
  simp only [State.probePeer, hu, hd, hup, ha, hw, Bool.not_false, Bool.and_self, if_true]

theorem State.probePeer_of_stands
    (h : (s.peer p).down = false ∨ s.linkUp = false ∨ (s.peer p).awaitSession = true ∨ s.frameWaits p m.seq = true) : s.probePeer p = s := by
  rcases h with h | h | h | h <;> simp [State.probePeer, hu, h]

end

theorem State.peerEntry_of_bad_kind {v : Word} (h : 2 < fld v 7 0) : s.peerEntry p v = s := if_pos h

theorem State.peerEntry_of_kind {v : Word} (h : fld v 7 0 ≤ 2) : s.peerEntry p v =
    ((s.applyAll ((List.range 7).map fun w => peerWord p (w + 1))).setReg (peerWord p 0) (v &&& 0xFFFF01FF#32)).resetPeer p :=
  if_neg (Nat.not_lt.mpr h)

end Sys2Proof.Machine
end

section
/-! Queue pieces, bound queues and event messages (10 R254, R257, R258). -/

namespace Sys2Proof.Machine

section
variable {s u s1 : State} {p q b offset total tag : Nat} {chaff : Bool} {data : Bytes} {msg : Option Word}
variable (hm : (s.bindQueue q).takeMsg p 3 = (u, msg))
include hm

/-- A queue that takes no pieces from the peer. -/
theorem State.queuePiece_of_refused (hq : u.pieceQueue p q = none) :
    s.queuePiece p q chaff offset total tag data = (u.count32 Reg.EB_RX_REFUSED 1).effect p msg := by
  simp only [State.queuePiece, hm, hq]

variable (hq : u.pieceQueue p q = some b)
include hq

theorem State.queuePiece_of_assembling {a : Assembly} (ha : (u.peer p).assemblies.find? (pieceOf q total tag offset) = some a) :
    s.queuePiece p q chaff offset total tag data = u.writePiece b p msg a chaff offset data := by
  simp only [State.queuePiece, hm, hq, ha]

variable (hnew : (u.peer p).assemblies.find? (pieceOf q total tag offset) = none)
include hnew

theorem State.queuePiece_of_no_buffer (ha : u.startAssembly p q total tag = (s1, none)) :
    s.queuePiece p q chaff offset total tag data = s1.count32 Reg.EB_RX_NOBUF 1 := by
  simp only [State.queuePiece, hm, hq, hnew, ha]

theorem State.queuePiece_of_new {a : Assembly} (ha : u.startAssembly p q total tag = (s1, some a)) :
    s.queuePiece p q chaff offset total tag data = s1.writePiece b p msg a chaff offset data := by
  simp only [State.queuePiece, hm, hq, hnew, ha]

end

section
variable {s u s1 : State} {q b : Nat} {d : QueueDef} {e : QueueEntry} {rest : List QueueEntry} {bytes : Bytes} {marked : Bool}
variable (hu : s.bindQueue q = u) (hd : u.queueDef q = some (b, d)) (he : (u.queue q).entries = e :: rest)
include hu hd he

theorem State.sendBound_of_unbound (h : d.consumer ≠ 2 ∨ u.boundValid q = false) : s.sendBound q = u := by
  rcases h with h | h <;> simp [State.sendBound, hu, hd, he, h]

/-- A buffer at the head of a queue that is bound to a peer leaves as pieces. -/
theorem State.sendBound_of_bale (hc : d.consumer = 2) (hv : u.boundValid q = true) (hs : u.serviceHeld q = false) (hr : u.boundRoce q = false)
    (hread : u.readRun b (u.bufferVa b e.handle.pool e.handle.buffer) (min (e.handle.length * 64) (u.poolSize b e.handle.pool)) baleReader =
      (s1, .ok (bytes, marked))) (hbytes : bytes ≠ []) :
    let v := (s1.popQueue q).1.applyStaged Reg.EB_BALE_MAX
    s.sendBound q = v.post (v.boundPeer q) (bufferPieces v.baleMax b e.handle.pool e.handle.buffer (v.boundRemote q) e.handle.tag bytes
      (e.handle.chaff || marked) (!e.ctx.be)) := by
  have hsome : bytes.isEmpty = false := List.isEmpty_eq_false_iff.mpr hbytes
  simp only [State.sendBound, hu, hd, he, hc, hv, hs, hr, hread, hsome, ne_eq, not_true_eq_false, decide_false, Bool.not_true, Bool.false_and,
    Bool.or_self, Bool.false_eq_true, if_false]

end

section
variable {s u : State} (hu : s.applyAll [Reg.EB_EVENT_PEER, Reg.EB_BALE_MAX] = u)
include hu

theorem State.sendEvents_of_held
    (h : bit (u.reg Reg.EB_EVENT_PEER) 31 = false ∨ u.events.queue = [] ∨ u.canSend (fld (u.reg Reg.EB_EVENT_PEER) 13 0) = false) :
    s.sendEvents = s := by
  rcases h with h | h | h <;> simp [State.sendEvents, hu, h]

/-- As many records leave as a message holds. -/
theorem State.sendEvents_of_free (hon : bit (u.reg Reg.EB_EVENT_PEER) 31 = true) (hq : u.events.queue ≠ [])
    (hcan : u.canSend (fld (u.reg Reg.EB_EVENT_PEER) 13 0) = true) :
    s.sendEvents = ({ u with events := { u.events with queue := u.events.queue.drop ((u.baleMax - 8) / 16), lost := false } } : State).post
      (fld (u.reg Reg.EB_EVENT_PEER) 13 0) [.event u.events.lost (u.events.queue.take ((u.baleMax - 8) / 16))] := by
  have hsome : u.events.queue.isEmpty = false := List.isEmpty_eq_false_iff.mpr hq
  simp only [State.sendEvents, hu, hon, hcan, hsome, Bool.not_true, Bool.or_self, Bool.false_eq_true, if_false]

end

end Sys2Proof.Machine
end

section
/-! A read of a REG message that does not return (10 R252). -/

namespace Sys2Proof.Machine

/-- One operation of a response after the read of the operation `op` has timed out: that one ends with TIMEOUT and data zero, and those after it
are SKIPPED. -/
def opTimedOut (op i : Nat) (o : Nat × Word × Word) : Nat × Word × Word :=
  if i < op then o else if i = op then (4, 0, 0) else (2, o.2.1, 0)

/-- The operations of a response after a read has timed out. -/
def opsTimedOut (op : Nat) (ops : List (Nat × Word × Word)) : List (Nat × Word × Word) :=
  (List.range ops.length).filterMap fun i => (ops[i]?).map (opTimedOut op i)

/-- A message after a read of the response with a tag has timed out. -/
def TxBody.timedOut (tag : BitVec 16) (op : Nat) : TxBody → TxBody
  | .regResponse t ops => if t = tag then .regResponse t (opsTimedOut op ops) else .regResponse t ops
  | b => b

/-- A partial map that is defined on a whole list maps it. -/
theorem filterMap_eq_map_of_forall_some {α β : Type} {f : α → Option β} {g : α → β} {l : List α} (h : ∀ a ∈ l, f a = some (g a)) :
    l.filterMap f = l.map g := by
  induction l with
  | nil => rfl
  | cons a l ih =>
    rw [List.filterMap_cons_some (h a List.mem_cons_self), List.map_cons, ih fun b hb => h b (List.mem_cons_of_mem a hb)]

theorem opsTimedOut_eq_mapIdx (op : Nat) (ops : List (Nat × Word × Word)) : opsTimedOut op ops = ops.mapIdx (opTimedOut op) := by
  have hall : ∀ i ∈ List.range ops.length, (ops[i]?).map (opTimedOut op i) = some (opTimedOut op i ((ops[i]?).getD (0, 0, 0))) := fun i hi => by
    rw [List.getElem?_eq_getElem (List.mem_range.mp hi), Option.map_some, Option.getD_some]
  rw [opsTimedOut, filterMap_eq_map_of_forall_some hall]
  refine List.ext_getElem (by rw [List.length_map, List.length_range, List.length_mapIdx]) fun i hi _ => ?_
  have hlt : i < ops.length := by rwa [List.length_map, List.length_range] at hi
  rw [List.getElem_map, List.getElem_range, List.getElem_mapIdx, List.getElem?_eq_getElem hlt, Option.getD_some]

theorem getElem?_opsTimedOut {op : Nat} {ops : List (Nat × Word × Word)} {o : Nat × Word × Word} (h : ops[op]? = some o) :
    (opsTimedOut op ops)[op]? = some (4, 0, 0) := by
  rw [opsTimedOut_eq_mapIdx, List.getElem?_mapIdx, h, Option.map_some, opTimedOut, if_neg (Nat.lt_irrefl op), if_pos rfl]

theorem length_opsTimedOut (op : Nat) (ops : List (Nat × Word × Word)) : (opsTimedOut op ops).length = ops.length := by
  rw [opsTimedOut_eq_mapIdx, List.length_mapIdx]

theorem TxBody.timedOut_regResponse (tag : BitVec 16) (op : Nat) (ops : List (Nat × Word × Word)) :
    (TxBody.regResponse tag ops).timedOut tag op = .regResponse tag (opsTimedOut op ops) := if_pos rfl

@[simp] theorem State.peer_setPeer_same (s : State) (p : Nat) (x : Peer) : (s.setPeer p x).peer p = x :=
  AMap.getD_set_same s.net.peers p x .fresh

theorem State.peer_setPeer_other (s : State) {p q : Nat} (x : Peer) (h : q ≠ p) : (s.setPeer p x).peer q = s.peer q :=
  AMap.getD_set_other s.net.peers x .fresh h

/-- Only what waits for the peer changes, message by message. -/
theorem State.regTimeout_eq (s : State) (p : Nat) (tag : BitVec 16) (op : Nat) :
    s.regTimeout p tag op = s.setPeer p { s.peer p with waiting := (s.peer p).waiting.map (TxBody.timedOut tag op) } := by
  rw [State.regTimeout]
  refine congrArg (fun l => s.setPeer p { s.peer p with waiting := l }) (List.map_congr_left fun b _ => ?_)
  cases b <;> rfl

end Sys2Proof.Machine
end

section
/-! Bale as a whole. -/

namespace Sys2Proof.Machine

/-- Settles O48: each event acts on its peer's messages, its queue or its records. An acknowledgement of what was not sent, the free round-trip
time and the buffer of a piece are log 24. -/
theorem baleMessagesPiecesAndEvents : Obligations.BaleMessagesPiecesAndEvents := by
  refine ⟨?acks, ?timeout, ?probe, ?entries, ?pieces, ?bound, ?events, ?readTimeout⟩
  case acks =>
    intro s peer cum sack
    refine ⟨fun h => ?ignored, fun hk hseq => ?taken, fun h => ?nothing, fun h => ?timer⟩
    case ignored => exact exec_of_done rfl (State.ackRx_of_ignored h)
    case taken =>
      intro x gone left lost y rest
      exact ⟨fun h => exec_of_done rfl (State.ackRx_of_none_acked hk hseq h), fun h => exec_of_done rfl (State.ackRx_of_acked hk hseq h)⟩
    case nothing => exact exec_of_done rfl (if_neg (by rw [h]; nofun))
    case timer => exact exec_of_done rfl (if_pos h)
  case timeout =>
    intro s peer seq m hm x
    exact ⟨fun h => exec_of_done rfl (State.retransmit_of_stands hm h), fun hup hd ha hw =>
      ⟨fun h => exec_of_done rfl (State.retransmit_of_spent hm hup hd ha hw h),
        fun h => exec_of_done rfl (State.retransmit_of_left hm hup hd ha hw h)⟩⟩
  case probe =>
    intro s peer m rest hu x
    exact ⟨fun hd hup ha hw => exec_of_done rfl (State.probePeer_of_down hu hd hup ha hw),
      fun h => exec_of_done rfl (State.probePeer_of_stands hu h)⟩
  case entries =>
    intro s src peer value
    refine ⟨fun h => exec_of_cmdWrite rfl h rfl, fun h => ?entry⟩
    case entry =>
      intro u
      exact ⟨fun hkind => exec_of_plainWrite rfl h (State.peerEntry_of_bad_kind hkind),
        fun hkind => exec_of_plainWrite rfl h (State.peerEntry_of_kind hkind)⟩
  case pieces =>
    intro s peer queue chaff offset length tag data u msg
    have hact {t : State} (hk : s.peerKind peer.val ≠ 0) (h : s.queuePiece peer.val queue.val chaff offset length tag.toNat data = t) :
        exec (.streamQueuePiece peer queue chaff offset length tag data) s = .next (settle s t) := exec_of_done rfl ((if_neg hk).trans h)
    exact ⟨fun hk => exec_of_done rfl (if_pos hk), fun hk hq => hact hk (State.queuePiece_of_refused rfl hq),
      fun b a hk hq ha => hact hk (State.queuePiece_of_assembling rfl hq ha), fun b s1 hk hq hnew =>
        ⟨fun ha => hact hk (State.queuePiece_of_no_buffer rfl hq hnew ha), fun a ha => hact hk (State.queuePiece_of_new rfl hq hnew ha)⟩⟩
  case bound =>
    intro s queue b d e rest u hd he
    exact ⟨fun h => exec_of_done rfl (State.sendBound_of_unbound rfl hd he h), fun hc hv hs hr s1 bytes marked hread hbytes =>
      exec_of_done rfl (State.sendBound_of_bale rfl hd he hc hv hs hr hread hbytes)⟩
  case events =>
    intro s u p n
    have hevents : u.events = s.events := State.applyAll_events s _
    refine ⟨fun h => exec_of_done rfl (State.sendEvents_of_held rfl (by rwa [← hevents] at h)), fun hon hq hcan => ?leave⟩
    case leave =>
      intro v
      have hact := State.sendEvents_of_free (s := s) (u := u) rfl hon (by rwa [hevents]) hcan
      rw [hevents] at hact
      exact exec_of_done rfl hact
  case readTimeout =>
    intro s peer tag op
    refine ⟨_, exec_of_done rfl (s.regTimeout_eq peer.val tag op), rfl, rfl, fun q hq => s.peer_setPeer_other _ hq, ?length,
      fun ops k o hk ho => ?response⟩
    case length => rw [State.peer_setPeer_same, List.length_map]
    case response =>
      refine ⟨opsTimedOut op ops, ?_, getElem?_opsTimedOut ho, length_opsTimedOut op ops⟩
      rw [State.peer_setPeer_same, List.getElem?_map, hk, Option.map_some, TxBody.timedOut_regResponse]

end Sys2Proof.Machine
end

section
/-! Inbound RoCEv2 requests (10 R257, R261). -/

namespace Sys2Proof.Machine

section
variable {s : State} {req : RoceRequest} {len : Nat} {go : Nat → State}

theorem State.serve?_of_not_served (h : s.mayServe req.conn.val req.psn = false) : s.serve? req len go = s := by
  simp only [State.serve?, h, Bool.not_false, if_true]

variable (h : s.mayServe req.conn.val req.psn = true)
include h

theorem State.serve?_of_wrong_key (hkey : req.rkey ≠ s.reg (Reg.EB_CONN_RKEY_IN req.conn.val)) :
    s.serve? req len go = s.answer (.roceNak req.conn.val req.psn 2) := by
  simp only [State.serve?, h, hkey, ne_eq, not_false_eq_true, Bool.not_true, Bool.false_eq_true, if_false, if_true]

variable (hkey : req.rkey = s.reg (Reg.EB_CONN_RKEY_IN req.conn.val))
include hkey

theorem State.serve?_of_outside_window (hva : s.requestVa req.conn.val req.va.toNat len = none) :
    s.serve? req len go = s.answer (.roceNak req.conn.val req.psn 2) := by
  simp only [State.serve?, h, ← hkey, hva, ne_eq, not_true_eq_false, Bool.not_true, Bool.false_eq_true, if_false]

theorem State.serve?_of_address {va : Nat} (hva : s.requestVa req.conn.val req.va.toNat len = some va) : s.serve? req len go = go va := by
  simp only [State.serve?, h, ← hkey, hva, ne_eq, not_true_eq_false, Bool.not_true, Bool.false_eq_true, if_false]

end

section
variable {s s1 : State} {c psn va : Nat}

theorem State.serveWrite_of_written {data : Bytes} (h : s.writeRun (s.connBay c) va data false rdmaEngine = (s1, none)) :
    s.serveWrite c psn va data = (s1.advancePsn c (s1.packets c data.length)).answer (.roceAck c psn) := by
  simp only [State.serveWrite, h]

theorem State.serveRead_of_read {len : Nat} {bs : Bytes} {chaff : Bool}
    (h : s.readRun (s.connBay c) va len rdmaEngine = (s1, .ok (bs, chaff))) :
    s.serveRead c psn va len = (s1.advancePsn c (s1.packets c len)).answer (.roceReadResponse c psn bs chaff) := by
  simp only [State.serveRead, h]

end

section
variable {s s1 s2 : State} {c psn b q k : Nat} {data : Bytes}

/-- A SEND on a connection that no queue is bound to is no supported request (log 40). -/
theorem State.serveSend_of_no_queue (h : s.sendQueue c = none) : s.serveSend c psn data = (s.answer (.roceNak c psn 1)).startError c 3 := by
  unfold State.serveSend
  rw [h]

variable (hq : s.sendQueue c = some (b, q)) (hroom : ((s.bindQueue q).peer ((s.bindQueue q).connPeer c)).assemblies.length < 64)
include hq hroom

theorem State.serveSend_of_no_buffer (hk : (s.bindQueue q).takeBuffer b 7 = (s1, none)) :
    s.serveSend c psn data = s1.answer (.roceNak c psn 0) := by
  unfold State.serveSend
  rw [hq]
  simp only [ge_iff_le, Nat.not_le.mpr hroom, hk, if_false]

/-- The handle of a SEND that has landed in a buffer of pool 7; bytes beyond the buffer are discarded and mark it. -/
def State.sendHandle (s : State) (b k : Nat) (data : Bytes) : Handle :=
  { pool := 7, buffer := k, length := ceilDiv data.length 64, chaff := decide ((data.take (s.poolSize b 7)).length < data.length)
    last := false, tag := 0, seq := 0 }

theorem State.serveSend_of_written (hk : (s.bindQueue q).takeBuffer b 7 = (s1, some k))
    (hw : s1.writeRun b (s1.bufferVa b 7 k) (data.take (s1.poolSize b 7)) false baleWriter = (s2, none)) :
    s.serveSend c psn data =
      ((s2.pushRun q [⟨s1.sendHandle b k data, externalCtx⟩]).advancePsn c (s2.packets c data.length)).answer (.roceAck c psn) := by
  unfold State.serveSend
  rw [hq]
  simp only [ge_iff_le, Nat.not_le.mpr hroom, hk, hw, if_false]
  rfl

end

end Sys2Proof.Machine
end

section
/-! Answers, timeouts and the report of an error on a connection (10 R260, R263). -/

namespace Sys2Proof.Machine

variable {s : State} {c psn : Nat} {a : RoceAnswer}

theorem State.answerRx_of_not_rts (h : (s.conn c).state ≠ .rts) : s.answerRx c psn a = s := by
  simp only [State.answerRx, h, ne_eq, not_false_eq_true, decide_true, Bool.true_or, if_true]

section
variable (hs : (s.conn c).state = .rts) (hf : (s.conn c).failing = none)
include hs hf

theorem State.answerRx_ack :
    s.answerRx c psn .ack = s.completeRequests c (fun r => psnLe r.1 psn && r.2.wants.isNone) [] false := by
  simp [State.answerRx, hs, hf]

theorem State.answerRx_rnrNak (h : ((s.conn c).requests.any fun r => r.1 = psn) = true) : s.answerRx c psn .rnrNak = s.roceRetry c psn := by
  simp only [State.answerRx, hs, hf, h, ne_eq, not_true_eq_false, decide_false, Option.isSome_none, Bool.or_self, Bool.false_eq_true, if_false,
    if_true]

theorem State.answerRx_remoteAccessNak : s.answerRx c psn .remoteAccessNak = s.startError c 2 := by
  simp [State.answerRx, hs, hf]

theorem State.answerRx_invalidRequestNak : s.answerRx c psn .invalidRequestNak = s.startError c 3 := by
  simp [State.answerRx, hs, hf]

theorem State.answerRx_remoteOperationalNak : s.answerRx c psn .remoteOperationalNak = s.startError c 4 := by
  simp [State.answerRx, hs, hf]

/-- A read response acknowledges the writes and SENDs before it, and completes its read. -/
theorem State.answerRx_readResponse {data : Bytes} {chaff : Bool} {r : Nat × ConnRequest}
    (h : ((s.conn c).requests.find? fun r => r.1 = psn && r.2.wants = some data.length) = some r) :
    s.answerRx c psn (.readResponse data chaff) =
      (s.completeRequests c (fun r => psnLe r.1 psn && r.2.wants.isNone) [] false).completeRequests c
        (fun r => r.1 = psn && r.2.wants.isSome) data chaff := by
  simp only [State.answerRx, hs, hf, h, ne_eq, not_true_eq_false, decide_false, Option.isSome_none, Bool.or_self, Bool.false_eq_true, if_false]

end

theorem State.answerTimeout_of_none (h : (s.conn c).requests = []) : s.answerTimeout c = s := by
  simp only [State.answerTimeout, h]

section
variable {r : Nat × ConnRequest} {rest : List (Nat × ConnRequest)} (hr : (s.conn c).requests = r :: rest) (hup : s.linkUp = true)
variable (hs : (s.conn c).state = .rts) (hf : (s.conn c).failing = none)
include hr hup hs hf

theorem State.answerTimeout_of_spent (h : s.connRetry c ≤ (s.conn c).tries) : s.answerTimeout c = s.startError c 1 := by
  simp only [State.answerTimeout, hr, hup, hs, hf, ge_iff_le, h, ne_eq, not_true_eq_false, decide_false, Bool.not_true, Option.isSome_none,
    Bool.or_self, Bool.false_eq_true, if_false, if_true]

theorem State.answerTimeout_of_left (h : (s.conn c).tries < s.connRetry c) :
    s.answerTimeout c = (s.setConn c { s.conn c with tries := (s.conn c).tries + 1 }).roceRetry c r.1 := by
  simp only [State.answerTimeout, hr, hup, hs, hf, ge_iff_le, Nat.not_le.mpr h, ne_eq, not_true_eq_false, decide_false, Bool.not_true,
    Option.isSome_none, Bool.or_self, Bool.false_eq_true, if_false]

end

theorem State.reportError_of_none (h : (s.conn c).failing = none) : s.reportError c = s := by
  simp only [State.reportError, h]

/-- The connection is in ERROR, and each of its requests, in flight or waiting, ends with free data that is marked. -/
theorem State.reportError_of_failing {cause : Nat} (h : (s.conn c).failing = some cause) : s.reportError c =
    ((s.conn c).requests.map (·.2) ++ (s.conn c).waits.map (·.1)).foldl
      (fun s r => (s.drawBytes (r.wants.getD 0)).1.requestDone r (s.drawBytes (r.wants.getD 0)).2 true)
      (s.setConn c { s.conn c with state := .error, failing := none, cause := cause, requests := [], waits := [], tries := 0, heldReq := none }) := by
  simp only [State.reportError, h]

end Sys2Proof.Machine
end

section
/-! The commands of a connection (10 R263, R266). -/

namespace Sys2Proof.Machine

variable {s : State} {c : Nat}

theorem State.openConn_of_not_idle (h : (s.conn c).state ≠ .idle) : s.openConn c = s.connRefuse c := by
  simp only [State.openConn, h, ne_eq, not_false_eq_true, decide_true, Bool.true_or, if_true]

theorem State.openConn_of_valid (h : (s.conn c).state = .idle) (hmtu : fld (s.latest (Reg.EB_CONN_CTRL c)) 21 20 ≠ 3)
    (htime : fld (s.latest (Reg.EB_CONN_CTRL c)) 26 22 ≠ 0) (hpeer : s.peerKind (fld (s.latest (Reg.EB_CONN_CTRL c)) 13 0) ≠ 0) :
    let w := (s.applyAll (connFields c)).setReg (Reg.EB_CONN_RETRIES c) 0
    s.openConn c = w.setConn c { Conn.idle with
      state := .rts, sendPsn := fld (w.reg (Reg.EB_CONN_SPSN c)) 23 0, recvPsn := fld (w.reg (Reg.EB_CONN_RPSN c)) 23 0 } := by
  simp only [State.openConn, h, hmtu, htime, hpeer, ne_eq, not_true_eq_false, decide_false, Bool.or_self, Bool.false_eq_true, if_false]

theorem State.forceError_of_not_rts (h : (s.conn c).state ≠ .rts) : s.forceError c = s.connRefuse c := if_pos h

theorem State.forceError_of_rts (h : (s.conn c).state = .rts) :
    s.forceError c = (s.setConn c { s.conn c with refused := false }).startError c 5 := if_neg (not_not_intro h)

theorem State.resetConn_of_not_error (h : (s.conn c).state ≠ .error) : s.resetConn c = s.connRefuse c := if_pos h

theorem State.resetConn_of_error (h : (s.conn c).state = .error) :
    s.resetConn c = (s.setConn c .idle).setReg (Reg.EB_CONN_RETRIES c) 0 := if_neg (not_not_intro h)

end Sys2Proof.Machine
end

section
/-! RoCEv2 as a whole. -/

namespace Sys2Proof.Machine

/-- Settles O49: a request meets its checks one after the other (log 40), an answer or a timeout acts on a connection in RTS, and a command acts on
the connection with its word in force. -/
theorem roceRequestsAndConnections : Obligations.RoceRequestsAndConnections := by
  refine ⟨?requests, ?sends, ?answers, ?commands⟩
  case requests =>
    intro s req data length c
    refine ⟨fun h => ?unserved, fun h hkey => ?wrongKey, fun h hkey => ⟨fun hva => ?outside, fun va s1 hva hw => ?written,
      fun va s1 bs chaff hva hr => ?read⟩⟩
    case unserved => exact ⟨exec_of_done rfl (State.serve?_of_not_served h), exec_of_done rfl (State.serve?_of_not_served h)⟩
    case wrongKey => exact ⟨exec_of_done rfl (State.serve?_of_wrong_key h hkey), exec_of_done rfl (State.serve?_of_wrong_key h hkey)⟩
    case outside => exact exec_of_done rfl (State.serve?_of_outside_window h hkey hva)
    case written => exact exec_of_done rfl ((State.serve?_of_address h hkey hva).trans (State.serveWrite_of_written hw))
    case read => exact exec_of_done rfl ((State.serve?_of_address h hkey hva).trans (State.serveRead_of_read hr))
  case sends =>
    intro s conn psn data
    refine ⟨fun h => ?unserved, fun h hq => ?noQueue, fun b q s1 h hq => ?noBuffer, fun b q s1 s2 k h hq => ?written⟩
    case unserved => exact exec_of_done rfl (if_neg (by rw [h]; nofun))
    case noQueue => exact exec_of_done rfl ((if_pos h).trans (State.serveSend_of_no_queue hq))
    case noBuffer =>
      intro u hroom hk
      exact exec_of_done rfl ((if_pos h).trans (State.serveSend_of_no_buffer hq hroom hk))
    case written =>
      intro u hroom hk hw hd
      exact exec_of_done rfl ((if_pos h).trans (State.serveSend_of_written hq hroom hk hw))
  case answers =>
    intro s conn psn c x
    refine ⟨fun h a => ?notRts, fun hs hf => ?inRts, fun h => ?noRequest, fun r rest hr hup hs hf => ?timeout, fun h => ?noError,
      fun cause h => ?report⟩
    case notRts => exact exec_of_done rfl (State.answerRx_of_not_rts h)
    case inRts =>
      exact ⟨exec_of_done rfl (State.answerRx_ack hs hf), fun h => exec_of_done rfl (State.answerRx_rnrNak hs hf h),
        exec_of_done rfl (State.answerRx_remoteAccessNak hs hf), exec_of_done rfl (State.answerRx_invalidRequestNak hs hf),
        exec_of_done rfl (State.answerRx_remoteOperationalNak hs hf),
        fun data chaff r h => exec_of_done rfl (State.answerRx_readResponse hs hf h)⟩
    case noRequest => exact exec_of_done rfl (State.answerTimeout_of_none h)
    case timeout =>
      exact ⟨fun h => exec_of_done rfl (State.answerTimeout_of_spent hr hup hs hf h),
        fun h => exec_of_done rfl (State.answerTimeout_of_left hr hup hs hf h)⟩
    case noError => exact exec_of_done rfl (State.reportError_of_none h)
    case report => exact exec_of_done rfl (State.reportError_of_failing h)
  case commands =>
    intro s src c u h
    refine ⟨fun hs => ?openRefused, ?opened, fun hs => ?errorRefused, fun hs => ?error, fun hs => ?resetRefused, fun hs => ?reset⟩
    case openRefused => exact exec_of_cmdWrite rfl h (State.openConn_of_not_idle (s := u 1) hs)
    case opened =>
      intro v hs hmtu htime hpeer w
      exact exec_of_cmdWrite rfl h (State.openConn_of_valid (s := u 1) hs hmtu htime hpeer)
    case errorRefused => exact exec_of_cmdWrite rfl h (State.forceError_of_not_rts (s := u 2) hs)
    case error => exact exec_of_cmdWrite rfl h (State.forceError_of_rts (s := u 2) hs)
    case resetRefused => exact exec_of_cmdWrite rfl h (State.resetConn_of_not_error (s := u 3) hs)
    case reset => exact exec_of_cmdWrite rfl h (State.resetConn_of_error (s := u 3) hs)

end Sys2Proof.Machine
end

section
/-! The clocks of the audio ports (11 R267, R289). -/

namespace Sys2Proof.Machine

variable {s : State} {i : Nat} {v : Word}

theorem State.pllLocks_of_enabled (h : bit (s.reg Reg.AP_PLL_CTRL) i = true) : s.pllLocks i =
    { s with audio := { s.audio with locked := s.audio.locked ||| (1#2 <<< i), present := s.audio.present ||| (1#2 <<< i) } } := if_pos h

theorem State.pllLocks_of_disabled (h : bit (s.reg Reg.AP_PLL_CTRL) i = false) : s.pllLocks i = s := if_neg (by rw [h]; nofun)

/-- A write would turn off a PLL that a port uses. -/
def State.pllNeeded (s : State) (v : Word) : Bool := (List.range 2).any fun i => !bit (w32 (fld v 1 0)) i && s.pllUsed i

theorem State.pllCtrl_of_needed (h : s.pllNeeded v = true) : s.pllCtrl v = s := if_pos h

theorem State.pllCtrl_of_not_needed (h : s.pllNeeded v = false) : s.pllCtrl v =
    { s.setReg Reg.AP_PLL_CTRL (w32 (fld v 1 0)) with
      audio := { s.audio with locked := s.audio.locked &&& BitVec.ofNat 2 (w32 (fld v 1 0)).toNat } } :=
  if_neg (ne_true_of_eq_false h)

end Sys2Proof.Machine
end

section
/-! The commands of an audio port (11 R280, R281, R285). -/

namespace Sys2Proof.Machine

variable {s : State} {p g : Nat}

/-! ### START -/

/-- A port whose start is accepted: the staged fields are in force, and its frames count from 0 (11 R280). -/
def State.portStarted (s : State) (p : Nat) : State :=
  ((s.applyAll (startFields p)).setReg (Reg.AP_FRAMES_LO p) 0).setReg (Reg.AP_FRAMES_HI p) 0

/-- A port that starts: a held period goes to delivery, and what its status showed of the run before is cleared (11 R280, R285). -/
def AudioPort.started (x : AudioPort) : AudioPort :=
  { x.releaseHeld with refused := false, reason := 0, slip := 0, slipped := false, clockLost := false }

/-- The divider accumulator of a group's leading port, 0 where none leads (11 R284). -/
def State.leaderAcc (s : State) (g : Nat) : Nat := ((s.leader g).map fun l => (s.aport l).acc).getD 0

theorem State.portStart_of_refused {r : Nat} (h : s.startReason p = some r) : s.portStart p = s.portRefuse p r := by
  simp only [State.portStart, h]

section
variable {v : State} (h : s.startReason p = none) (hv : s.portStarted p = v)
include h hv

theorem State.portStart_of_accepted : s.portStart p =
    match v.groupOf p with
    | none => v.setAport p ((v.aport p).started.toLeadIn (v.leadInFrames p) 0 true false)
    | some g =>
      if (v.agroup g).state = .running then v.setAport p ((v.aport p).started.toLeadIn (v.leadInFrames p) (v.leaderAcc g) false true)
      else (v.setAport p { (v.aport p).started with state := .primed }).setAgroup g { v.agroup g with state := .primed } := by
  subst hv
  rw [State.portStart, h]
  rfl

theorem State.portStart_alone (hg : v.groupOf p = none) :
    s.portStart p = v.setAport p ((v.aport p).started.toLeadIn (v.leadInFrames p) 0 true false) := by
  simp only [State.portStart_of_accepted h hv, hg]

/-- A port of a group that is not running waits for the release (11 R284). -/
theorem State.portStart_primed (hg : v.groupOf p = some g) (hrun : (v.agroup g).state ≠ .running) :
    s.portStart p = (v.setAport p { (v.aport p).started with state := .primed }).setAgroup g { v.agroup g with state := .primed } := by
  simp only [State.portStart_of_accepted h hv, hg, hrun, if_false]

/-- A port of a running group rejoins in step with the leading port (11 R284). -/
theorem State.portStart_rejoining (hg : v.groupOf p = some g) (hrun : (v.agroup g).state = .running) :
    s.portStart p = v.setAport p ((v.aport p).started.toLeadIn (v.leadInFrames p) (v.leaderAcc g) false true) := by
  simp only [State.portStart_of_accepted h hv, hg, hrun, if_true]

end

/-! ### STOP and RESTART -/

/-- A port whose command is accepted: REFUSED has ended. -/
def AudioPort.accepted (x : AudioPort) : AudioPort := { x with refused := false, reason := 0 }

theorem State.portStop_eq : s.portStop p =
    match (s.aport p).state with
    | .primed => (s.setAport p (s.aport p).accepted).portOff p
    | .leadIn => (s.setAport p (s.aport p).accepted).leadOut p
    | .running =>
      if (s.aport p).stopping || (s.aport p).rejoin then s.portRefuse p 1
      else if (s.aport p).open_.isNone then (s.setAport p (s.aport p).accepted).leadOut p
      else s.setAport p { (s.aport p).accepted with stopping := true }
    | .off | .leadOut => s.portRefuse p 1 := rfl

theorem State.portStop_of_primed (h : (s.aport p).state = .primed) : s.portStop p = (s.setAport p (s.aport p).accepted).portOff p := by
  simp only [State.portStop_eq, h]

theorem State.portStop_of_leadIn (h : (s.aport p).state = .leadIn) : s.portStop p = (s.setAport p (s.aport p).accepted).leadOut p := by
  simp only [State.portStop_eq, h]

theorem State.portStop_of_off_or_leadOut (h : (s.aport p).state = .off ∨ (s.aport p).state = .leadOut) : s.portStop p = s.portRefuse p 1 := by
  rcases h with h | h <;> simp only [State.portStop_eq, h]

theorem State.portRestart_of_not_running (h : (s.aport p).state ≠ .running) : s.portRestart p = s.portRefuse p 1 := if_pos (by simp [h])

section
variable (h : (s.aport p).state = .running) (hstop : (s.aport p).stopping = false) (hrejoin : (s.aport p).rejoin = false)
include h hstop hrejoin

/-- Data ends with the open period. -/
theorem State.portStop_of_open (ho : (s.aport p).open_ ≠ none) : s.portStop p = s.setAport p { (s.aport p).accepted with stopping := true } := by
  have hopen : (s.aport p).open_.isNone = false := Option.isNone_eq_false_iff.mpr (Option.isSome_iff_ne_none.mpr ho)
  simp only [State.portStop_eq, h, hstop, hrejoin, hopen, Bool.or_self, Bool.false_eq_true, if_false]

/-- Between two periods there is no data to end (log 41). -/
theorem State.portStop_of_none_open (ho : (s.aport p).open_ = none) : s.portStop p = (s.setAport p (s.aport p).accepted).leadOut p := by
  simp only [State.portStop_eq, h, hstop, hrejoin, ho, Option.isNone_none, Bool.or_self, Bool.false_eq_true, if_false, if_true]

theorem State.portRestart_of_running : s.portRestart p = s.setAport p { (s.aport p).accepted with rejoin := true } :=
  if_neg (by simp [h, hstop, hrejoin])

end

end Sys2Proof.Machine
end

section
/-! The release of a group of audio ports (11 R284). -/

namespace Sys2Proof.Machine

variable {s v : State} {g : Nat} (hv : s.applyStaged (Reg.AP_GROUP_CTRL g) = v)
include hv

theorem State.groupStart_now (h : fld (v.reg (Reg.AP_GROUP_CTRL g)) 1 0 = 0) : s.groupStart g = v.releaseGroup g := by
  simp only [State.groupStart, hv, h]

theorem State.groupStart_rising (h : fld (v.reg (Reg.AP_GROUP_CTRL g)) 1 0 = 1) :
    s.groupStart g = v.setAgroup g { v.agroup g with armed := some true } := by
  simp only [State.groupStart, hv, h]

theorem State.groupStart_falling (h : 2 ≤ fld (v.reg (Reg.AP_GROUP_CTRL g)) 1 0) :
    s.groupStart g = v.setAgroup g { v.agroup g with armed := some false } := by
  simp only [State.groupStart, hv]
  split
  next hzero => omega
  next hone => omega
  next => rfl

end Sys2Proof.Machine
end

section
/-! The ends of lead-in and lead-out (11 R280). -/

namespace Sys2Proof.Machine

variable {s : State} {p g : Nat}

theorem State.leadInEnds_of_not_due (h : (s.aport p).state ≠ .leadIn ∨ (s.aport p).left ≠ 0) : s.leadInEnds p = s :=
  if_pos (by simpa using h)

theorem State.leadOutEnds_of_not_due (h : (s.aport p).state ≠ .leadOut ∨ (s.aport p).left ≠ 0) : s.leadOutEnds p = s :=
  if_pos (by simpa using h)

/-- A port whose lead-in has ended (11 R280). -/
def State.toRunning (s : State) (p : Nat) : State := s.setAport p { s.aport p with state := .running, rejoining := false }

section
variable (h : (s.aport p).state = .leadIn) (hleft : (s.aport p).left = 0) (hrejoin : (s.aport p).rejoining = false)
variable {u : State} (hu : s.toRunning p = u)
include h hleft hrejoin hu

/-- The first period opens at the sequence that the port starts from; a member of a group has rejoined it (11 R282, R284). -/
theorem State.leadInEnds_of_due : s.leadInEnds p =
    match s.groupOf p with
    | some g =>
      (u.setAgroup g { u.agroup g with slipped := setRemove (u.agroup g).slipped p }).openPeriod p (u.reg (Reg.AP_PERIOD_BASE p)) 0 false
    | none => u.openPeriod p (u.reg (Reg.AP_PERIOD_BASE p)) 0 false := by
  subst hu
  refine (if_neg (by simp [h, hleft])).trans ?_
  simp only [hrejoin, Bool.false_eq_true, if_false]
  rfl

theorem State.leadInEnds_alone (hg : s.groupOf p = none) : s.leadInEnds p = u.openPeriod p (u.reg (Reg.AP_PERIOD_BASE p)) 0 false := by
  simp only [State.leadInEnds_of_due h hleft hrejoin hu, hg]

theorem State.leadInEnds_of_group (hg : s.groupOf p = some g) : s.leadInEnds p =
    (u.setAgroup g { u.agroup g with slipped := setRemove (u.agroup g).slipped p }).openPeriod p (u.reg (Reg.AP_PERIOD_BASE p)) 0 false := by
  simp only [State.leadInEnds_of_due h hleft hrejoin hu, hg]

end

theorem State.leadOutEnds_of_stopped (h : (s.aport p).state = .leadOut) (hleft : (s.aport p).left = 0) (ho : (s.aport p).open_ = none)
    (hrejoin : (s.aport p).rejoin = false) : s.leadOutEnds p = (s.setAport p { s.aport p with slip := 0, slipped := false }).portOff p := by
  simp only [State.leadOutEnds, h, hleft, ho, hrejoin, ne_eq, not_true_eq_false, decide_false, Bool.or_self, Bool.not_false, Bool.false_eq_true,
    if_false, if_true]

end Sys2Proof.Machine
end

section
/-! One audio frame (11 R271, R272). -/

namespace Sys2Proof.Machine

variable {s u : State} {p clocks : Nat} {samples : List Word} {lost : List Nat}

/-- A follower's frame with another number of bit clocks than its format has (11 R272). -/
def State.frameBad (s : State) (p clocks : Nat) : Bool :=
  s.apFollower p && decide (clocks ≠ frameClocks (s.reg (Reg.AP_CTRL p)) (s.reg (Reg.AP_FMT p)))

/-- A frame is counted: its clock is there, and a staged slot mask applies at its boundary (11 R272, R278). -/
def State.audioFrameCounted (s : State) (p clocks : Nat) : State :=
  (((s.setAport p { s.aport p with clockLost := false }).frameBoundary p).count64 (Reg.AP_FRAMES_LO p) (Reg.AP_FRAMES_HI p) 1).count32
    (Reg.AP_FRAME_ERR p) (if s.frameBad p clocks then 1 else 0)

/-- The counted state `u` with the port's clocks moved on by the frame: the divider's accumulator of a master, and the frames left outside RUNNING
(11 R268, R280). -/
def State.audioClocked (s u : State) (p : Nat) : State :=
  u.setAport p { u.aport p with
    acc := if s.apFollower p then (u.aport p).acc
      else ((u.aport p).acc + frameClocks (s.reg (Reg.AP_CTRL p)) (s.reg (Reg.AP_FMT p)) * fld (u.reg (Reg.AP_DIV_FRAC p)) 23 0) % 2 ^ 24
    left := if (u.aport p).state = .running then (u.aport p).left else (u.aport p).left - 1 }

/-- The pins of a playback frame outside RUNNING: zeros in every slot (11 R280). -/
def State.driveZeros (s v : State) (p : Nat) : State :=
  v.setAport p { v.aport p with out := (List.range (slotCount (s.reg (Reg.AP_CTRL p)) (s.reg (Reg.AP_FMT p)))).map fun _ => some 0 }

/-- A period is open: where none is, the next one opens (11 R282). -/
def State.periodOpened (v : State) (p : Nat) : State :=
  if (v.aport p).open_.isNone then v.openPeriod p (v.reg (Reg.AP_PERIOD_SEQ p) + 1) 0 false else v

/-- The frame is played or captured in the open period of `v` (11 R271). -/
def State.frameMoved (s v : State) (p clocks : Nat) (samples : List Word) (lost : List Nat) : State :=
  if s.apPlayback p then (v.periodOpened p).playFrame p lost else (v.periodOpened p).captureFrame p samples (s.frameBad p clocks) lost

theorem State.audioFrame_of_no_clocks (h : (s.aport p).state = .off ∨ (s.aport p).state = .primed) : s.audioFrame p clocks samples lost = s :=
  if_pos (by simpa using h)

section
variable (hoff : (s.aport p).state ≠ .off) (hprimed : (s.aport p).state ≠ .primed) (hu : s.audioFrameCounted p clocks = u)
include hoff hprimed hu

/-- Every frame is counted and moves the clocks on; data moves in RUNNING only. -/
theorem State.audioFrame_of_clocks : s.audioFrame p clocks samples lost =
    if (u.aport p).state ≠ .running then if s.apPlayback p then s.driveZeros (s.audioClocked u p) p else s.audioClocked u p
    else ((s.frameMoved (s.audioClocked u p) p clocks samples lost).groupCount p).frameEnds p := by
  subst hu
  exact if_neg (by simp [hoff, hprimed])

theorem State.audioFrame_of_lead_capture (hrun : (u.aport p).state ≠ .running) (hplay : s.apPlayback p = false) :
    s.audioFrame p clocks samples lost = s.audioClocked u p := by
  rw [State.audioFrame_of_clocks hoff hprimed hu, if_pos hrun, if_neg (ne_true_of_eq_false hplay)]

theorem State.audioFrame_of_lead_playback (hrun : (u.aport p).state ≠ .running) (hplay : s.apPlayback p = true) :
    s.audioFrame p clocks samples lost = s.driveZeros (s.audioClocked u p) p := by
  rw [State.audioFrame_of_clocks hoff hprimed hu, if_pos hrun, if_pos hplay]

theorem State.audioFrame_of_running (hrun : (u.aport p).state = .running) : s.audioFrame p clocks samples lost =
    ((s.frameMoved (s.audioClocked u p) p clocks samples lost).groupCount p).frameEnds p := by
  rw [State.audioFrame_of_clocks hoff hprimed hu, if_neg (not_not_intro hrun)]

end

/-! ### The loss of a follower's clock (11 R272) -/

variable {port : Fin 6}

theorem exec_clockLost_of_follower (h : s.apFollower port.val = true) (hoff : (s.aport port.val).state ≠ .off)
    (hprimed : (s.aport port.val).state ≠ .primed) :
    exec (.clockLost port) s = .next (settle s (s.setAport port.val { s.aport port.val with clockLost := true })) :=
  exec_of_done rfl (if_pos (by rw [h, decide_eq_true hoff, decide_eq_true hprimed]; rfl))

theorem exec_clockLost_of_no_follower
    (h : s.apFollower port.val = false ∨ (s.aport port.val).state = .off ∨ (s.aport port.val).state = .primed) :
    exec (.clockLost port) s = .next (settle s s) := by
  refine exec_of_done rfl (if_neg ?_)
  rcases h with h | h | h <;>
    simp only [h, ne_eq, not_true_eq_false, decide_false, Bool.false_and, Bool.and_false, Bool.false_eq_true, not_false_eq_true]

end Sys2Proof.Machine
end

section
/-! Deliveries of captured periods, and fetches of periods to play (11 R282). -/

namespace Sys2Proof.Machine

variable {s s1 : State} {p : Nat} {d : PortDesc}

section
variable {o : Period} {rest : List Period} (hfull : (s.aport p).full = o :: rest) (hheld : s.audioHeld p = false)
include hfull hheld

theorem State.deliver_of_no_desc (hd : o.desc = none) : s.deliver p = s.discardPeriod p := by
  simp only [State.deliver, hfull, hheld, hd, Bool.false_eq_true, if_false]

variable (hd : o.desc = some d)
include hd

theorem State.deliver_to_stream (hmode : d.mode = 1) (hs : (s.stream o.sid).state ≠ .idle)
    (hw : s.writeFrame o.bay o.sid o.seq (o.packed d) o.chaff audioEngine = (s1, none)) : s.deliver p = s1.delivered p := by
  simp only [State.deliver, hfull, hheld, hd, hmode, hs, hw, Bool.false_eq_true, if_false]

theorem State.deliver_to_ring (hmode : d.mode = 2)
    (hw : s.writeRun o.bay (d.base.toNat + o.seq.toNat % d.target * d.bytes) (o.packed d) o.chaff audioEngine = (s1, none)) :
    s.deliver p = (s1.delivered p).countWrap (Reg.AP_RING_HEAD p) 1 := by
  simp only [State.deliver, hfull, hheld, hd, hmode, hw, Bool.false_eq_true, if_false]

theorem State.deliver_of_no_buffer (hmode : d.mode = 3) (hk : s.takeBuffer o.bay 7 = (s1, none)) : s.deliver p = s1.discardPeriod p := by
  simp only [State.deliver, hfull, hheld, hd, hmode, hk, Bool.false_eq_true, if_false]

end

theorem State.fetchPeriod_of_no_desc (h : (s.aport p).active = none) : s.fetchPeriod p = s := by
  simp only [State.fetchPeriod, h]

section
variable {r : AudioRoute} (hd : (s.aport p).active = some d) (hr : s.routeOf p = some r) (hplay : r.playback = true)
variable (hroom : (s.aport p).fetched.length < 2) (hheld : s.audioHeld p = false) (hendless : d.run = 0) (hkept : (s.aport p).cancelling = false)
include hd hr hplay hroom hheld hendless hkept

theorem State.fetchPeriod_of_stream (hmode : d.mode = 1) : s.fetchPeriod p = s.fetchSlot r.bay r.sid p d := by
  simp only [State.fetchPeriod, hd, hr, hplay, ge_iff_le, Nat.not_le.mpr hroom, hheld, hendless, hkept, hmode, ne_eq, not_true_eq_false,
    decide_false, Bool.not_true, Bool.false_and, Bool.or_self, Bool.false_eq_true, if_false]

/-- The periods of a ring follow the sequence of the open period, beyond those fetched ahead. -/
theorem State.fetchPeriod_of_ring {bytes : Bytes} {marked : Bool} (hmode : d.mode = 2) (hrun : (s.aport p).state = .running)
    (ho : (s.aport p).open_ ≠ none)
    (hread : s.readRun r.bay (d.base.toNat + (s.reg (Reg.AP_PERIOD_SEQ p) + 0 + w32 ((s.aport p).fetched.length + 1)).toNat % d.target * d.bytes)
      d.bytes audioEngine = (s1, .ok (bytes, marked))) : s.fetchPeriod p = s1.addFetched p ⟨bytes, marked, none, none⟩ := by
  obtain ⟨o, ho⟩ := Option.ne_none_iff_exists'.mp ho
  simp only [State.fetchPeriod, hd, hr, hplay, ge_iff_le, Nat.not_le.mpr hroom, hheld, hendless, hkept, hmode, hrun, ho, hread, ne_eq,
    not_true_eq_false, decide_false, Bool.not_true, Bool.false_and, Bool.or_self, Bool.false_eq_true, Option.isSome_some, if_false, if_true]

theorem State.fetchPeriod_of_empty_queue (hmode : d.mode = 3) (hq : (s.queue (d.target % 4096)).entries = []) : s.fetchPeriod p = s := by
  simp only [State.fetchPeriod, hd, hr, hplay, ge_iff_le, Nat.not_le.mpr hroom, hheld, hendless, hkept, hmode, hq, ne_eq, not_true_eq_false,
    decide_false, Bool.not_true, Bool.false_and, Bool.or_self, Bool.false_eq_true, if_false]

end

end Sys2Proof.Machine
end

section
/-! The descriptors of an audio port (11 R283). -/

namespace Sys2Proof.Machine

variable {s : State} {p : Nat}

/-- The state in which ARM copies the staged descriptor: its fields are in force. -/
def State.portdApplied (s : State) (p : Nat) : State :=
  s.applyAll [Reg.AP_PORTD_CTRL p, Reg.AP_PORTD_BASE_LO p, Reg.AP_PORTD_BASE_HI p, Reg.AP_PORTD_TARGET p, Reg.AP_PORTD_RUN p]

@[simp] theorem State.portdApplied_aport : (s.portdApplied p).aport p = s.aport p := by
  rw [State.aport, State.portdApplied, State.applyAll_audio]
  rfl

theorem State.portdArm_eq : s.portdArm p =
    match (s.aport p).active, (s.aport p).pending with
    | none, _ => (s.portdApplied p).activate p ((s.portdApplied p).stagedDesc p)
    | some _, none => (s.portdApplied p).setAport p { s.aport p with pending := some ((s.portdApplied p).stagedDesc p) }
    | some _, some _ => ((s.portdApplied p).setAport p { s.aport p with pending := some ((s.portdApplied p).stagedDesc p) }).count16
        (Reg.AP_PORTD_LOST_REARM p) := by
  rw [← s.portdApplied_aport (p := p)]
  rfl

theorem State.portdArm_of_idle (h : (s.aport p).active = none) :
    s.portdArm p = (s.portdApplied p).activate p ((s.portdApplied p).stagedDesc p) := by
  rw [State.portdArm_eq]
  simp only [h]

theorem State.portdArm_of_active (h : (s.aport p).active ≠ none) (hp : (s.aport p).pending = none) :
    s.portdArm p = (s.portdApplied p).setAport p { s.aport p with pending := some ((s.portdApplied p).stagedDesc p) } := by
  obtain ⟨d, h⟩ := Option.ne_none_iff_exists'.mp h
  rw [State.portdArm_eq]
  simp only [h, hp]

/-- A second ARM replaces the pending descriptor, which is counted. -/
theorem State.portdArm_of_pending (h : (s.aport p).active ≠ none) (hp : (s.aport p).pending ≠ none) : s.portdArm p =
    ((s.portdApplied p).setAport p { s.aport p with pending := some ((s.portdApplied p).stagedDesc p) }).count16 (Reg.AP_PORTD_LOST_REARM p) := by
  obtain ⟨d, h⟩ := Option.ne_none_iff_exists'.mp h
  obtain ⟨e, hp⟩ := Option.ne_none_iff_exists'.mp hp
  rw [State.portdArm_eq]
  simp only [h, hp]

theorem State.portdCancel_of_none_open (h : (s.aport p).open_ = none) : s.portdCancel p = s.dropDescs p := by
  simp only [State.portdCancel, h]

theorem State.portdCancel_of_open {o : Period} (h : (s.aport p).open_ = some o) (hd : o.desc ≠ none) (ha : (s.aport p).active ≠ none) :
    s.portdCancel p = s.setAport p { s.aport p with cancelling := true } := by
  simp only [State.portdCancel, h, Option.isSome_iff_ne_none.mpr hd, Option.isSome_iff_ne_none.mpr ha, Bool.and_self, if_true]

end Sys2Proof.Machine
end

section
/-! The windows of a rate measurement (11 R275, R276). -/

namespace Sys2Proof.Machine

variable {s : State} {p frames periods prev : Nat}

/-- The rate as it is reported where none is known: its last value, marked. -/
def unknownRate (old : Word) : Word := w32 (fld old 24 0 + 2 ^ 31)

/-- The rate as it is reported, with its nominal code. -/
def knownRate (m : Nat) : Word := w32 (m % 2 ^ 25 + nominalCode m * 2 ^ 25)

/-- A window has given the measurement `m`, and the port reports the rate `new`. -/
def State.rateReported (s : State) (p : Nat) (m : Option Nat) (new : Word) : State :=
  (s.setAport p { s.aport p with lastRate := m }).setReg (Reg.AP_RATE p) new

/-- The position of the next frame in the open period, in samples (11 R286). -/
def AudioPort.markOffset (x : AudioPort) : Nat :=
  ((x.open_.map (·.at_)).getD 0) * (((x.open_.bind (·.desc)).orElse fun _ => x.active).map (·.c)).getD 0

/-- A change of the nominal code is an event, and is marked in the port's data (11 R276). -/
def State.rateChanged (s u : State) (p : Nat) (new : Word) : State :=
  (u.latch (Reg.AP_PORT_EVENT_STATUS p) 1).marker p 3 (s.reg (Reg.AP_PERIOD_SEQ p)) (s.aport p).markOffset (fld new 28 25)

@[simp] theorem State.rateReported_periodSeq (m : Option Nat) (new : Word) :
    (s.rateReported p m new).reg (Reg.AP_PERIOD_SEQ p) = s.reg (Reg.AP_PERIOD_SEQ p) :=
  State.reg_setReg_other _ _ (by simp [Reg.AP_PERIOD_SEQ, Reg.AP_RATE])

theorem State.rateWindow_of_unknown (h : periods = 0)
    (hsame : fld (unknownRate (s.reg (Reg.AP_RATE p))) 28 25 = fld (s.reg (Reg.AP_RATE p)) 28 25) :
    s.rateWindow p frames periods = s.rateReported p none (unknownRate (s.reg (Reg.AP_RATE p))) := by
  rw [unknownRate] at hsame
  simp only [State.rateWindow, h, hsame, if_true]
  rfl

section
variable (hperiods : 0 < periods) (hprev : (s.aport p).lastRate = some prev)
variable (hagree : agrees (fld (s.reg (Reg.AP_MEAS_CFG p)) 31 16) (frames * 15625000000 / periods) prev = true)
include hperiods hprev hagree

/-- Two windows that agree give the rate; what is left to tell is a change of its nominal code. -/
theorem State.rateWindow_of_agreement {new : Word} (hnew : knownRate (frames * 15625000000 / periods) = new)
    {u : State} (hu : s.rateReported p (some (frames * 15625000000 / periods)) new = u) :
    s.rateWindow p frames periods = if fld new 28 25 = fld (s.reg (Reg.AP_RATE p)) 28 25 then u else s.rateChanged u p new := by
  subst hu
  subst hnew
  rw [State.rateChanged, ← State.rateReported_periodSeq (s := s)]
  simp only [State.rateWindow, Nat.pos_iff_ne_zero.mp hperiods, hprev, hagree, if_false, if_true]
  rfl

end

end Sys2Proof.Machine
end

section
/-! The audio ports as a whole. -/

namespace Sys2Proof.Machine

/-- Settles O50: each command and each event acts by the state of its port or group. STOP between two periods is log 41, and the frames of
lead-in and lead-out are log 103. -/
theorem audioPortsRun : Obligations.AudioPortsRun := by
  refine ⟨?plls, ?pllWrites, ?ports, ?groups, ?leads, ?frames, ?deliveries, ?fetches, ?descriptors, ?rates⟩
  case plls =>
    exact fun s pll => ⟨fun h => exec_of_done rfl (State.pllLocks_of_enabled h), fun h => exec_of_done rfl (State.pllLocks_of_disabled h),
      s.pllUnlocks pll.val, rfl, rfl, rfl, rfl, rfl⟩
  case pllWrites =>
    exact fun s src value h => ⟨fun hbusy => exec_of_rkWrite rfl h (State.pllCtrl_of_needed hbusy),
      fun hfree => exec_of_rkWrite rfl h (State.pllCtrl_of_not_needed hfree)⟩
  case ports =>
    intro s src port h u x
    refine ⟨fun r hr => ?refused, fun hr => ⟨fun hg => ?alone, fun g hg hrun => ?primes, fun g hg hrun => ?rejoins⟩, fun hs => ?stopPrimed,
      fun hs => ?stopLeadIn, fun hs hstop hrejoin ho => ?stopOpen, fun hs hstop hrejoin ho => ?stopBetween, fun hs => ?stopRefused,
      fun hs hstop hrejoin => ?restarts, fun hs => ?restartRefused⟩
    case refused => exact exec_of_cmdWrite rfl h (State.portStart_of_refused hr)
    case alone => exact exec_of_cmdWrite rfl h (State.portStart_alone hr rfl hg)
    case primes => exact exec_of_cmdWrite rfl h (State.portStart_primed hr rfl hg hrun)
    case rejoins => exact exec_of_cmdWrite rfl h (State.portStart_rejoining hr rfl hg hrun)
    case stopPrimed => exact exec_of_cmdWrite rfl h (State.portStop_of_primed (s := u 2) hs)
    case stopLeadIn => exact exec_of_cmdWrite rfl h (State.portStop_of_leadIn (s := u 2) hs)
    case stopOpen => exact exec_of_cmdWrite rfl h (State.portStop_of_open (s := u 2) hs hstop hrejoin ho)
    case stopBetween => exact exec_of_cmdWrite rfl h (State.portStop_of_none_open (s := u 2) hs hstop hrejoin ho)
    case stopRefused => exact exec_of_cmdWrite rfl h (State.portStop_of_off_or_leadOut (s := u 2) hs)
    case restarts => exact exec_of_cmdWrite rfl h (State.portRestart_of_running (s := u 3) hs hstop hrejoin)
    case restartRefused => exact exec_of_cmdWrite rfl h (State.portRestart_of_not_running (s := u 3) hs)
  case groups =>
    intro s src rising h g u v
    refine ⟨fun hg => ?noGroup, fun hg hnow => ?now, fun hg hrising => ?rising, fun hg hfalling => ?falling, exec_of_cmdWrite rfl h rfl, rfl⟩
    case noGroup => exact exec_of_cmdWrite rfl h (if_neg (Nat.not_lt.mpr hg))
    case now => exact exec_of_cmdWrite rfl h ((if_pos hg).trans (State.groupStart_now rfl hnow))
    case rising => exact exec_of_cmdWrite rfl h ((if_pos hg).trans (State.groupStart_rising rfl hrising))
    case falling => exact exec_of_cmdWrite rfl h ((if_pos hg).trans (State.groupStart_falling rfl hfalling))
  case leads =>
    intro s port x
    refine ⟨fun h => ?leadInStands, fun h hleft hrejoin => ⟨fun hg => ?opensAlone, fun g hg => ?opensInGroup⟩, fun h => ?leadOutStands,
      fun h hleft ho hrejoin => ?stops, fun hf hoff hprimed => ?lost, fun h => ?kept⟩
    case leadInStands => exact exec_of_done rfl (State.leadInEnds_of_not_due h)
    case opensAlone => exact exec_of_done rfl (State.leadInEnds_alone h hleft hrejoin rfl hg)
    case opensInGroup => exact exec_of_done rfl (State.leadInEnds_of_group h hleft hrejoin rfl hg)
    case leadOutStands => exact exec_of_done rfl (State.leadOutEnds_of_not_due h)
    case stops => exact exec_of_done rfl (State.leadOutEnds_of_stopped h hleft ho hrejoin)
    case lost => exact exec_clockLost_of_follower hf hoff hprimed
    case kept => exact exec_clockLost_of_no_follower h
  case frames =>
    intro s port clocks samples lost p x
    refine ⟨fun h => exec_of_done rfl (State.audioFrame_of_no_clocks h), fun hoff hprimed u => ?clocked⟩
    case clocked =>
      intro b bad hu y v
      exact ⟨fun hrun hplay => exec_of_done rfl (State.audioFrame_of_lead_capture hoff hprimed hu hrun hplay),
        fun hrun hplay => exec_of_done rfl (State.audioFrame_of_lead_playback hoff hprimed hu hrun hplay),
        fun hrun => exec_of_done rfl (State.audioFrame_of_running hoff hprimed hu hrun)⟩
  case deliveries =>
    exact fun s port o rest d hfull hheld => ⟨fun hd => exec_of_done rfl (State.deliver_of_no_desc hfull hheld hd),
      fun hd hmode hs s1 hw => exec_of_done rfl (State.deliver_to_stream hfull hheld hd hmode hs hw),
      fun hd hmode s1 hw => exec_of_done rfl (State.deliver_to_ring hfull hheld hd hmode hw),
      fun hd hmode s1 hk => exec_of_done rfl (State.deliver_of_no_buffer hfull hheld hd hmode hk)⟩
  case fetches =>
    exact fun s port d r => ⟨fun h => exec_of_done rfl (State.fetchPeriod_of_no_desc h), fun hd hr hplay hroom hheld hendless hkept =>
      ⟨fun hmode => exec_of_done rfl (State.fetchPeriod_of_stream hd hr hplay hroom hheld hendless hkept hmode),
        fun hmode hrun ho s1 bytes marked hread =>
          exec_of_done rfl (State.fetchPeriod_of_ring hd hr hplay hroom hheld hendless hkept hmode hrun ho hread),
        fun hmode hq => exec_of_done rfl (State.fetchPeriod_of_empty_queue hd hr hplay hroom hheld hendless hkept hmode hq)⟩⟩
  case descriptors =>
    intro s src port h p u x
    refine ⟨fun ha => ?activates, fun ha hp => ?waits, fun ha hp => ?replaces, fun ho => ?drops, fun o ho hd ha => ?cancels⟩
    case activates => exact exec_of_cmdWrite rfl h (State.portdArm_of_idle (s := s.Commanded src (Reg.AP_PORTD_CMD p) 1) ha)
    case waits => exact exec_of_cmdWrite rfl h (State.portdArm_of_active (s := s.Commanded src (Reg.AP_PORTD_CMD p) 1) ha hp)
    case replaces => exact exec_of_cmdWrite rfl h (State.portdArm_of_pending (s := s.Commanded src (Reg.AP_PORTD_CMD p) 1) ha hp)
    case drops => exact exec_of_cmdWrite rfl h (State.portdCancel_of_none_open (s := s.Commanded src (Reg.AP_PORTD_CMD p) 2) ho)
    case cancels => exact exec_of_cmdWrite rfl h (State.portdCancel_of_open (s := s.Commanded src (Reg.AP_PORTD_CMD p) 2) ho hd ha)
  case rates =>
    intro s port frames periods p x old
    refine ⟨fun hnone hsame => ?unknown, fun prev hpos hprev => ?same, fun prev hpos hprev => ?changes⟩
    case unknown => exact exec_of_done rfl (State.rateWindow_of_unknown hnone hsame)
    case same =>
      intro v hagree hsame
      exact exec_of_done rfl ((State.rateWindow_of_agreement hpos hprev hagree rfl rfl).trans (if_pos hsame))
    case changes =>
      intro v new c hagree hchange u
      exact exec_of_done rfl ((State.rateWindow_of_agreement hpos hprev hagree rfl rfl).trans (if_neg hchange))

end Sys2Proof.Machine
end

section
/-! The frame of every command, from the frames of the operations that it calls: what a command that goes on leaves of memory and of the fuses
(12 R308, 16 R383). -/

namespace Sys2Proof.Machine

variable {s u : State} {c : Instr} {o : Host.Outcome State Fault Refusal}

/-- Every state that an outcome goes on with stands in a relation to the state before. -/
def Answers (R : State → State → Prop) (s : State) (o : Host.Outcome State Fault Refusal) : Prop := ∀ t, o = .next t → R s t

theorem Answers.kept (h : Answers Still s o) : Answers Kept s o := fun t ht => (h t ht).kept

/-- A fault goes on with no state. -/
theorem answers_fault {R : State → State → Prop} {r : Fault} : Answers R s (.fault r) := fun _ h => nomatch h

/-- The events of a command's end touch neither memory nor the fuses (12 R303). -/
theorem still_done (h : Still s u) : Answers Still s (s.done u) := fun _ ht => by
  cases ht
  exact settle_still.step h

theorem kept_done (h : Kept s u) : Answers Kept s (s.done u) := fun _ ht => by
  cases ht
  exact settle_still.kept.step h

theorem exec_cpBootDone_still {cp : Fin 4} : Answers Still s (exec (.cpBootDone cp) s) := by
  have hset {x : ControlProc} {v : Vane} : Still s { s.setCp cp.val x with vane := v } := ⟨rfl, rfl⟩
  refine still_done (.ite ?_ (.refl _))
  dsimp only
  split
  · exact .ite (State.nextRepair_still.step (State.handoverOn_still.step hset)) hset
  · exact hset

theorem exec_open1_kept {address mac payload : List Byte} {port tag : BitVec 16} {vlan : BitVec 12} {ipv6 : Bool} :
    Answers Kept s (exec (.open1 address port mac vlan ipv6 tag payload) s) := by
  refine kept_done (.ite (.refl _) ?_)
  split
  · exact (State.unbound_still.step State.openFailed_still).kept
  · exact State.openTake_kept

theorem exec_open3_kept {who : Caller} {payload : List Byte} : Answers Kept s (exec (.open3 who payload) s) := by
  refine kept_done (.ite (.refl _) ?_)
  dsimp only
  split
  · exact State.openSession_still.kept
  · exact .refl _
  · exact .ite (State.unbound_still.step State.openFailed_still).kept
      (State.unbound_still.kept.step (State.dropOpening_kept.step State.openFailed_still.kept))
  · exact (State.unbound_still.step State.openFailed_still).kept

theorem exec_granuleRetire_kept {address : Nat} : Answers Kept s (exec (.granuleRetire address) s) := by
  change Answers Kept s (execGranuleRetire address s)
  unfold execGranuleRetire
  split
  · exact answers_fault
  · exact kept_done (.ite (State.askRepair_kept.step State.applyStaged_still.kept) State.applyStaged_still.kept)

theorem exec_patrolScrub_kept {address : Nat} {finding : ScrubFinding} : Answers Kept s (exec (.patrolScrub address finding) s) := by
  change Answers Kept s (execPatrolScrub address finding s)
  unfold execPatrolScrub
  split
  · exact answers_fault
  · exact kept_done State.scrub_kept

/-- What PHASE_LOSS leaves before it looks at the number of phases left (13 R321). -/
theorem phaseAlarm {p : Pmc} : Kept s ((s.setPmc p).alarm 0x08 telNone) := State.alarm_kept.step State.setPmc_still.kept

/-- What STACK_CHANNEL_FAILED leaves before it asks for a fence (15 R370). -/
theorem stackLogged {row : Nat} : Kept s ((s.applyStaged Reg.REP_POLICY).log 0xFF 0x0006 (telUnit 2 row) 0 0) :=
  (State.log_still.step State.applyStaged_still).kept

/-- A command that `storing` does not name leaves memory and the fuses as they are. -/
theorem exec_still (h : storing c = false) : Answers Still s (exec c s) := by
  cases c with
  | cfgLoad => exact still_done (State.cmdWrite_still fun _ => State.cfgLoadOp_still)
  | signatureCheckDone => exact still_done State.verified_still
  | cfgAck => exact still_done (State.cmdWrite_still fun _ => State.cfgAckOp_still)
  | bayMove => exact still_done (State.cmdWrite_still fun _ => State.moveOp_still)
  | moveWeightsDone =>
    refine still_done ?_
    split
    · exact .ite ⟨State.beginCommit_still.fuses, State.beginCommit_still.mem⟩ (.refl _)
    · exact .refl _
  | commitCopyADone => exact still_done State.copyADone_still
  | serialFloorHiWrite => exact still_done (State.rkWrite_still fun _ => ⟨rfl, rfl⟩)
  | serialFloorLoWrite => exact still_done (State.rkWrite_still fun _ => State.floorOp_still)
  | cfgcrcRefWrite => exact still_done (State.rkWrite_still fun _ => State.refOp_still)
  | loftRowRemap => exact still_done State.remapRow_still
  | doubleRefresh => exact still_done State.setRefresh_still
  | refreshNormal => exact still_done State.setRefresh_still
  | trnInv => exact still_done (State.plainWrite_still fun _ => State.trnInvOp_still)
  | trnInvDone => exact still_done State.trnInvDone_still
  | mtAssign => exact still_done (State.rkWrite_still fun _ => State.mtCommand_still fun _ => State.mtAssignOp_still)
  | mtRelease => exact still_done (State.rkWrite_still fun _ => State.mtCommand_still fun _ => State.mtReleaseOp_still)
  | mtMigrate => exact still_done (State.rkWrite_still fun _ => State.mtCommand_still fun _ => State.mtMigrateOp_still.step State.argPte_still)
  | mtEnlist => exact still_done (State.rkWrite_still fun _ => State.mtCommand_still fun _ => State.mtEnlistOp_still.step State.argPte_still)
  | mtOffline => exact still_done (State.rkWrite_still fun _ => State.mtCommand_still fun _ => State.mtLineOp_still)
  | mtOnline => exact still_done (State.rkWrite_still fun _ => State.mtCommand_still fun _ => State.mtLineOp_still)
  | migrationFirstInvDone => exact still_done State.migrationFirstInv_still
  | spillCheck => exact still_done State.spillCheck_still
  | dispSubmit => exact still_done (State.plainWrite_still fun _ => State.submitOp_still)
  | passBoundary => exact still_done State.passBoundary_still
  | evictionCheck => exact still_done State.evictionCheck_still
  | coreHold => exact still_done (State.rkWrite_still fun _ => State.stage_still)
  | coreRelease => exact still_done (State.rkWrite_still fun _ => State.stage_still)
  | scArm => exact still_done (State.plainWrite_still fun _ => State.scArmOp_still)
  | scStart => exact still_done (State.plainWrite_still fun _ => State.scStartOp_still)
  | scResume => exact still_done (State.plainWrite_still fun _ => State.scResumeOp_still)
  | scResetState => exact still_done (State.plainWrite_still fun _ => State.scResetStateOp_still)
  | alignStart => exact still_done (State.plainWrite_still fun _ => State.alignStart_still)
  | sqPause => exact still_done (State.plainWrite_still fun _ => State.sqPauseOp_still)
  | sqAbort => exact still_done (State.plainWrite_still fun _ => State.sqAbortOp_still)
  | triggeredInstance => exact still_done State.triggerRun_still
  | queueFlush => exact still_done (State.cmdWrite_still fun _ => State.flushQueue_still)
  | cchArm => exact still_done (State.cmdWrite_still fun _ => State.copyArm_still)
  | laneFail => exact still_done State.laneFailed_still
  | trainingDone => exact still_done State.trained_still
  | trainingFail => exact still_done State.trainFailed_still
  | linkRetry => exact still_done (.ite State.train_still (.refl _))
  | retrain => exact still_done (State.cmdWrite_still fun _ => State.train_still)
  | restore => exact still_done (State.cmdWrite_still fun _ => State.restoreLanes_still)
  | linkAnFallback => exact still_done State.anFallback_still
  | pfcPauseRx => exact still_done State.pauseRx_still
  | pfcPauseEnd => exact still_done State.pauseEnd_still
  | cnpRx =>
    refine still_done ?_
    split
    · exact State.congested_still
    · exact State.congested_still.step State.countWrap_still
  | ecnRateRaise => exact still_done State.rateRaise_still
  | regReadTimeout => exact still_done State.regTimeout_still
  | baleAckTimer => exact still_done (.ite State.sendAck_still (.refl _))
  | baleRetransmit => exact still_done State.retransmit_still
  | baleProbe => exact still_done State.probePeer_still
  | eventMessageSend => exact still_done State.sendEvents_still
  | roceAckTimeout => exact still_done State.answerTimeout_still
  | connOpen => exact still_done (State.cmdWrite_still fun _ => State.openConn_still)
  | connError => exact still_done (State.cmdWrite_still fun _ => State.forceError_still)
  | connReset => exact still_done (State.cmdWrite_still fun _ => State.resetConn_still)
  | pllLock => exact still_done State.pllLocks_still
  | pllUnlock => exact still_done State.pllUnlocks_still
  | apPllCtrlWrite => exact still_done (State.rkWrite_still fun _ => State.pllCtrl_still)
  | apStop => exact still_done (State.cmdWrite_still fun _ => State.portStop_still)
  | apRestart => exact still_done (State.cmdWrite_still fun _ => State.portRestart_still)
  | groupStart => exact still_done (State.cmdWrite_still fun _ => .ite State.groupStart_still (.refl _))
  | groupStop => exact still_done (State.cmdWrite_still fun _ => .foldl (fun _ _ => State.portStop_still) (.refl _))
  | astartEdge => exact still_done State.astartMoves_still
  | clockLost => exact still_done (.ite State.setAport_still (.refl _))
  | portdArm => exact still_done (State.cmdWrite_still fun _ => State.portdArm_still)
  | portdCancel => exact still_done (State.cmdWrite_still fun _ => State.portdCancel_still)
  | trnInvDoneTagRead => exact still_done State.readCommand_still
  | mtCmdStatusRead => exact still_done State.readCommand_still
  | mtUeAddrRead => exact still_done State.readCommand_still
  | hubCommitStatusRead => exact still_done State.readCommand_still
  | swCancelStatusRead => exact still_done State.readCommand_still
  | cchStatusRead => exact still_done State.readCommand_still
  | apRateRead => exact still_done State.readCommand_still
  | repStatusRead => exact still_done State.readCommand_still
  | hubCommit => exact still_done (State.rkWrite_still fun _ => State.commitOp_still)
  | hubCommitDone => exact still_done (.ite State.commitEnd_still (.refl _))
  | guardOpen =>
    refine still_done ?_
    split
    · exact State.checkedWrite_still fun _ => State.openGuard_still
    · exact .refl _
  | guardExpire => exact still_done State.closeGuard_still
  | eventHoldoffEnd =>
    refine still_done ?_
    split
    · exact State.releaseHold_still
    · exact .refl _
  | eventRateWindow => exact still_done (.foldl (fun _ _ => State.releaseHold_still) ⟨rfl, rfl⟩)
  | rcRefresh => exact still_done State.refreshCopies_still
  | kick => exact still_done (State.mailbox_still fun _ => State.kickOp_still)
  | ackAlarm => exact still_done (State.mailbox_still fun _ => State.ackOp_still)
  | setTrip => exact still_done (State.mailbox_still fun _ => State.setTripOp_still)
  | setAction => exact still_done (State.mailbox_still fun _ => State.setActionOp_still)
  | addressRecord => exact still_done ⟨rfl, rfl⟩
  | vaneWatchdog => exact still_done ⟨rfl, rfl⟩
  | capControlInterval => exact still_done State.capInterval_still
  | powerSample => exact still_done State.setPmc_still
  | thermalPredict => exact still_done State.predict_still
  | coldStartEnd => exact still_done State.setPmc_still
  | droopRecover => exact still_done State.setPmc_still
  | attest => exact still_done (.ite (.refl _) (.ite State.count32_still State.attested_still))
  | sessionClose =>
    refine still_done ?_
    split
    · exact State.closeSession_still.step (State.mgmtReply_still.step State.effectOf_still)
    · exact State.refuseMsg_still
  | sessionIdle => exact still_done State.closeSession_still
  | claim => exact still_done (.ite (State.unbound_still.step State.claim_still) (.refl _))
  | keyInstall => exact still_done (State.mgmt_still fun _ => State.installKey_still)
  | keyRemove => exact still_done (State.closeWhere_still.step (State.mgmt_still fun _ => State.removeKey_still))
  | certFloor => exact still_done (State.closeWhere_still.step (State.mgmt_still fun _ => State.raiseFloor_still))
  | macsecSa => exact still_done (State.mgmt_still fun _ => .iteP (.refl _) State.setPort_still)
  | macsecClear => exact still_done (State.mgmt_still fun _ => State.clearSaks_still)
  | tagStage => exact still_done (State.mgmt_still fun _ => State.stageTag_still)
  | tagCommit => exact still_done (State.mgmt_still fun _ => State.commitTag_still)
  | fwStage => exact still_done (State.mgmt_still fun _ => State.stageFw_still)
  | fwVerify => exact still_done (State.mgmt_still fun _ => State.verifyFw_still)
  | fwActivate => exact still_done (State.mgmt_still fun _ => State.activateFw_still)
  | telReplay => exact still_done (State.mgmt_still fun _ => .iteP (.refl _) (.iteP (.refl _) ⟨rfl, rfl⟩))
  | alarmList => exact still_done (State.mgmt_still fun _ => .refl _)
  | telemetryRecord => exact still_done State.recordIn_still
  | telemExport => exact still_done State.telemExport_still
  | squallTick => exact still_done (.foldl (fun _ _ => State.tickRing_still) State.applyAll_still)
  | summaryFlush => exact still_done State.flushSummaries_still
  | secErase => exact still_done (.ite (State.setSec_still.step State.tapSelect_still) State.tapSelect_still)
  | tapReset => exact still_done State.tapSelect_still
  | extest => exact still_done State.boundaryScan_still
  | samplePreload => exact still_done State.boundaryScan_still
  | idcode => exact still_done State.tapSelect_still
  | highz => exact still_done State.tapSelect_still
  | clamp => exact still_done State.tapSelect_still
  | bypass => exact still_done State.tapSelect_still
  | refclkReturn => exact still_done ⟨rfl, rfl⟩
  | cpBootDone => exact exec_cpBootDone_still
  | pfcPauseRefresh => exact still_done State.rxFill_still
  | _ => cases h

/-- Every command leaves the fuses as they are and keeps the form of memory. -/
theorem exec_kept : Answers Kept s (exec c s) := by
  cases c with
  | cfgData => exact kept_done State.cfgData_kept
  | cfgCommit => exact kept_done (State.cmdWrite_kept fun _ => State.cfgCommitOp_kept)
  | cfgAbort => exact kept_done (State.cmdWrite_kept fun _ => State.cfgAbortOp_kept)
  | cfgResume => exact kept_done (State.cmdWrite_kept fun _ => State.cfgResumeOp_kept)
  | spareSelfTestDone => exact kept_done State.selfTested_kept
  | moveCopyDone => exact kept_done State.moveCopied_kept
  | bayLullReached => exact kept_done ((State.loaderGoesOn_still.kept.step State.reapplyAtLull_kept).step State.reachLull_kept)
  | commitCopyBDone => exact kept_done State.copyBDone_kept
  | tablesApplied => exact kept_done State.tablesIn_kept
  | lullRequest => exact kept_done (State.rkWrite_kept fun _ => State.lullBit_kept)
  | lullRelease => exact kept_done (State.rkWrite_kept fun _ => State.lullBit_kept)
  | crcSweepEnd => exact kept_done State.sweepEnd_kept
  | cfgRefMissing => exact kept_done (.ite (State.alarm_kept.step ⟨rfl, id⟩) (.refl _))
  | tableWalk => exact kept_done State.tableWalk_kept
  | fqTailWrite => exact kept_done (State.plainWrite_kept fun _ => State.fqTailOp_kept)
  | faultResume => exact kept_done (State.plainWrite_kept fun _ => State.faultResumeOp_kept)
  | mtCancel => exact kept_done (State.rkWrite_kept fun _ => State.mtCommand_kept fun _ => State.mtCancelOp_kept)
  | migrationStart => exact kept_done State.migrationStart_kept
  | migrationCopyDone => exact kept_done State.migrationCopied_kept
  | migrationEnd => exact kept_done State.migrationEnd_kept
  | sheafPlace => exact kept_done State.place?_kept
  | stallSaveDone => exact kept_done State.saveDone_kept
  | stallWake => exact kept_done State.wake_kept
  | sheafDone => exact kept_done State.sheafDone_kept
  | sheafOverrun => exact kept_done State.overrun_kept
  | coreFault => exact kept_done State.coreFaulted_kept
  | seqHang => exact kept_done State.coreFaulted_kept
  | staggerEnd => exact kept_done State.staggerEnd_kept
  | mxePass => exact kept_done (State.tokened_kept fun _ => State.mxePass_kept)
  | vxeElementwise => exact kept_done (State.tokened_kept fun _ => State.vxeElementwise_kept)
  | rowReduction => exact kept_done (State.tokened_kept fun _ => State.rowReduction_kept)
  | layerNorm => exact kept_done (State.tokened_kept fun _ => State.layerNorm_kept)
  | rmsNorm => exact kept_done (State.tokened_kept fun _ => State.rmsNorm_kept)
  | softmax => exact kept_done (State.tokened_kept fun _ => State.softmax_kept)
  | scale => exact kept_done (State.tokened_kept fun _ => State.scaleRow_kept)
  | quant => exact kept_done (State.tokened_kept fun _ => State.quantRow_kept)
  | dequant => exact kept_done (State.tokened_kept fun _ => State.dequantRow_kept)
  | rescale => exact kept_done (State.tokened_kept fun _ => State.rescaleRow_kept)
  | bseDot => exact kept_done (State.tokened_kept fun _ => State.bseIssue_kept)
  | bseWsum => exact kept_done (State.tokened_kept fun _ => State.bseIssue_kept)
  | bseShareDone => exact kept_done State.shareDone_kept
  | scPause => exact kept_done (State.plainWrite_kept fun _ => State.scPauseOp_kept)
  | scDrain => exact kept_done (State.plainWrite_kept fun _ => State.scDrainOp_kept)
  | scAbort => exact kept_done (State.plainWrite_kept fun _ => State.scAbortOp_kept)
  | scRecheck => exact kept_done (State.plainWrite_kept fun _ => State.scRecheckOp_kept)
  | streamInputFrames => exact kept_done State.inputFrames_kept
  | chunkPost => exact kept_done State.tryPost_kept
  | batchClose => exact kept_done State.batchClose_kept
  | batchWindowExpire => exact kept_done State.closeBatch_kept
  | chainEnd => exact kept_done State.endChain_kept
  | chunkComplete => exact kept_done State.completeSlot_kept
  | outTailWrite => exact kept_done (State.plainWrite_kept fun _ => State.outTailOp_kept)
  | alignSlackExpire => exact kept_done State.slackExpire_kept
  | scan => exact kept_done (State.tokened_kept fun _ => State.scanOp_kept)
  | sqArm => exact kept_done (State.plainWrite_kept fun _ => State.sqArmOp_kept)
  | sqStart => exact kept_done (State.plainWrite_kept fun _ => State.sqStartOp_kept)
  | sqResume => exact kept_done (State.plainWrite_kept fun _ => State.sqResumeOp_kept)
  | sqDrain => exact kept_done (State.plainWrite_kept fun _ => State.sqDrainOp_kept)
  | sqRecheck => exact kept_done (State.plainWrite_kept fun _ => State.sqRecheckOp_kept)
  | attScore => exact kept_done (State.tokened_kept fun _ => State.attIssue_kept)
  | attValue => exact kept_done (State.tokened_kept fun _ => State.attIssue_kept)
  | attentionPassDone => exact kept_done State.passDone_kept
  | stepComplete => exact kept_done State.completeStep_kept
  | swEnd => exact kept_done (State.swStep_kept fun _ _ _ _ _ _ h => by split at h <;> cases h; exact State.swEnd_still.kept)
  | swBase => exact kept_done (State.swStep_kept fun _ _ _ _ _ _ h => by split at h <;> cases h; exact State.putProg_still.kept)
  | swRowbase => exact kept_done (State.swStep_kept fun _ _ _ _ _ _ h => by split at h <;> cases h; exact State.swRowbase_kept)
  | swLoop => exact kept_done (State.swStep_kept fun _ _ _ _ _ _ h => by split at h <;> cases h; exact State.loopMoved_kept)
  | swStep => exact kept_done (State.swStep_kept fun _ _ _ _ _ _ h => by split at h <;> cases h; exact State.putProg_still.kept)
  | swCset => exact kept_done (State.swStep_kept fun _ _ _ _ _ _ h => by split at h <;> cases h; exact State.putProg_still.kept)
  | swMove => exact kept_done (State.swStep_kept fun _ _ _ _ _ _ h => by split at h <;> cases h; exact State.swMove_kept)
  | swGet => exact kept_done (State.swStep_kept fun _ _ _ _ _ _ h => by split at h <;> cases h; exact State.swGet_still.kept)
  | swWait => exact kept_done (State.swStep_kept fun _ _ _ _ _ _ h => by split at h <;> cases h; exact State.swWait_kept)
  | swSignal => exact kept_done (State.swStep_kept fun _ _ _ _ _ _ h => by split at h <;> cases h; exact State.swSignal_kept)
  | swFree => exact kept_done (State.swStep_kept fun _ _ _ _ _ _ h => by split at h <;> cases h; exact State.swFree_kept)
  | swSyncPost => exact kept_done (State.swStep_kept fun _ _ _ _ _ _ h => by split at h <;> cases h; exact State.swPost_kept)
  | swSyncWait => exact kept_done (State.swStep_kept fun _ _ _ _ _ _ h => by split at h <;> cases h; exact State.swSyncWait_still.kept)
  | swEndloop => exact kept_done (State.swStep_kept fun _ _ _ _ _ _ h => by split at h <;> cases h; exact State.loopMoved_kept)
  | swRotate => exact kept_done (State.swStep_kept fun _ _ _ _ _ _ h => by split at h <;> cases h; exact State.swRotate_kept)
  | ringTileDelivery => exact kept_done State.ringDelivery_kept
  | bseQueueService => exact kept_done State.serve_kept
  | swCancel => exact kept_done (State.cmdWrite_kept fun _ => State.cancelOp_kept)
  | gleanDone => exact kept_done State.gleanEnd_kept
  | cchCancel => exact kept_done (State.cmdWrite_kept fun _ => State.copyCancel_kept)
  | cchTransferDone => exact kept_done State.copyDone_kept
  | peerReset => exact kept_done (State.cmdWrite_kept fun _ => State.resetPeer_kept)
  | ethernetFrameRx => exact kept_done State.frameRx_kept
  | regMessage =>
    refine kept_done ?_
    split
    · exact State.refuseMsg_still.kept
    · exact (State.post_still.step State.effectOf_still).kept.step State.regOps_kept
  | streamQueuePiece => exact kept_done (.ite (.refl _) State.queuePiece_kept)
  | baleAckRx => exact kept_done State.ackRx_kept
  | queueBoundSend => exact kept_done State.sendBound_kept
  | roceRdmaWrite => exact kept_done (State.serve?_kept fun _ => State.serveWrite_kept)
  | roceRdmaRead => exact kept_done (State.serve?_kept fun _ => State.serveRead_kept)
  | roceSend => exact kept_done (.ite State.serveSend_kept (.refl _))
  | roceAckRx => exact kept_done State.answerRx_kept
  | connErrorReport => exact kept_done State.reportError_kept
  | peerEntryWrite => exact kept_done (State.plainWrite_kept fun _ => State.peerEntry_kept)
  | apStart => exact kept_done (State.cmdWrite_kept fun _ => State.portStart_kept)
  | leadInDone => exact kept_done State.leadInEnds_kept
  | leadOutDone => exact kept_done State.leadOutEnds_kept
  | audioFrame => exact kept_done State.audioFrame_kept
  | capturePeriodEnd => exact kept_done State.deliver_kept
  | playbackPeriodFetch => exact kept_done State.fetchPeriod_kept
  | rateWindowEnd => exact kept_done State.rateWindow_kept
  | registerWrite => exact kept_done State.writeAt_kept
  | leaveSafe => exact kept_done (State.mailbox_kept fun _ => State.leaveSafeOp_kept)
  | powerOnReset => exact kept_done State.powerOn_kept
  | startupComplete => exact kept_done (.ite State.startupEnd_kept (.refl _))
  | granaryChannelOnline =>
    refine kept_done ?_
    split
    · exact .ite ((State.nextRepair_still.kept.step State.repairOn_kept).step State.channelOnline_kept) State.channelOnline_kept
    · exact State.channelOnline_kept
  | resetNAssert => exact kept_done (.ite State.resetLow_kept (.refl _))
  | resetNDeassert => exact kept_done (.ite (.refl _) State.resetHigh_kept)
  | chipReset =>
    refine kept_done ?_
    split
    · exact State.mailbox_kept fun _ => State.chipOp_kept
    · exact State.act_kept
  | warmRestartComplete => exact kept_done (.ite State.restartEnd_kept (.refl _))
  | bayReset => exact kept_done (State.mailbox_kept fun _ => State.bayResetOp_kept)
  | coreReset =>
    refine kept_done ?_
    split
    · exact State.mailbox_kept fun _ => State.coreResetOp_kept
    · exact .ite (.refl _) State.act_kept
  | powerLoss => exact kept_done State.losePower_kept
  | junctionTrip => exact kept_done (State.senseAlarm_kept.step State.setPmc_still.kept)
  | loftTrip => exact kept_done (State.senseAlarm_kept.step State.setPmc_still.kept)
  | junctionCrit => exact kept_done (State.senseAlarm_kept.step State.setPmc_still.kept)
  | vinLow => exact kept_done (State.senseAlarm_kept.step State.setPmc_still.kept)
  | vinHigh => exact kept_done (State.senseAlarm_kept.step State.setPmc_still.kept)
  | vinCrit => exact kept_done (State.senseAlarm_kept.step State.setPmc_still.kept)
  | railFault => exact kept_done State.alarm_kept
  | phaseLoss => exact kept_done (.ite (State.losePower_kept.step phaseAlarm) phaseAlarm)
  | cpWatchdog => exact kept_done State.watchdog_kept
  | hubClockLoss =>
    refine kept_done (State.alarm_kept.step ?_)
    split <;> exact ⟨rfl, id⟩
  | glitch => exact kept_done (State.alarm_kept.step State.count16_still.kept)
  | droop => exact kept_done State.drooped_kept
  | open1 => exact exec_open1_kept
  | open3 => exact exec_open3_kept
  | openAbandon =>
    refine kept_done ?_
    split
    · exact State.dropOpening_kept.step State.openFailed_still.kept
    · exact .refl _
  | fwHandover => exact kept_done (State.mgmtBegin_kept fun _ => .refl _)
  | dimmRemove => exact kept_done (State.mgmtBegin_kept fun _ => .refl _)
  | dimmInsert => exact kept_done (State.insertFailed_still.kept.step (State.mgmtBegin_kept fun _ => State.insertDimm_still.kept))
  | siloFence => exact kept_done (State.mgmtBegin_kept fun _ => .refl _)
  | fenceRetry =>
    exact kept_done (.ite (State.autoMove_still.kept.step (State.autoFence_kept.step (State.nextRepair_still.kept.step
      (State.repairOn_kept.step State.applyStaged_still.kept)))) (.refl _))
  | granuleRetire => exact exec_granuleRetire_kept
  | patrolScrub => exact exec_patrolScrub_kept
  | stackChannelFailed => exact kept_done (.ite (State.askRepair_kept.step stackLogged) stackLogged)
  | stallRestoreDone => exact kept_done State.restoreDone_kept
  | eraseComplete => exact kept_done (.ite State.eraseEnd_kept (.refl _))
  | _ => exact (exec_still rfl).kept

/-! What the hub's core registers read comes from the fuses (12 R308). -/

theorem State.valueAt_corePresentLo : s.valueAt Reg.HUB_CORE_PRESENT_LO = w32 s.fuses.present.toNat := rfl

theorem State.valueAt_corePresentHi : s.valueAt Reg.HUB_CORE_PRESENT_HI = w32 (s.fuses.present.toNat / 2 ^ 32) := rfl

theorem State.valueAt_coreSpare : s.valueAt Reg.HUB_CORE_SPARE = w32 s.fuses.spare.toNat := rfl

theorem step_kept : Answers Kept s (step s) := by
  intro t ht
  cases hq : s.pending with
  | nil =>
    rw [step_eq_tick_of_pending_nil hq] at ht
    cases ht
    exact tick_still.kept
  | cons c rest =>
    rw [step_eq_exec_of_pending_cons hq] at ht
    exact (exec_kept t ht).step ⟨rfl, id⟩

/-- Settles O60: a step keeps the fuses, and the three registers read nothing else. -/
theorem stepNeverChangesFuses : Obligations.StepNeverChangesFuses := by
  intro s t hstep
  have hfuses := (step_kept t hstep).fuses
  simp only [State.valueAt_corePresentLo, State.valueAt_corePresentHi, State.valueAt_coreSpare, hfuses, and_self]

/-- Settles O59: every command, and the tick, keeps the form of memory. -/
theorem stepKeepsMemoryCanonical : Obligations.StepKeepsMemoryCanonical :=
  fun _ t hcanonical hstep => (step_kept t hstep).mem hcanonical

/-- Settles O58, by the frames of the commands that `storing` does not name. -/
theorem commandsThatStoreNothingKeepMemory : Obligations.CommandsThatStoreNothingKeepMemory := by
  intro c s t hc hexec
  have hstill := exec_still hc t hexec
  refine ⟨fun a len => ?_, ?_⟩
  · unfold State.physRead
    rw [hstill.mem]
  · rw [State.valueAt_coreSpare, State.valueAt_coreSpare, hstill.fuses]

end Sys2Proof.Machine
end

section
/-! What the end of a command and the limits of events do (12 R303, R304). -/

namespace Sys2Proof.Machine

variable {s : State} {addr : Nat} {bits : Word}

/-- A record queued changes the event block and registers alone. -/
theorem State.queueRecord_eq (r : EventRecord) :
    s.queueRecord r = { s with events := (s.queueRecord r).events, regs := (s.queueRecord r).regs } := by
  unfold State.queueRecord
  dsimp only
  split <;> rfl

theorem State.rise_eq : s.rise addr bits = { s with events := (s.rise addr bits).events, regs := (s.rise addr bits).regs } := by
  unfold State.rise
  dsimp only
  split
  · rfl
  · rw [State.queueRecord_eq]

/-- The rest of a state beside its events and registers: the same state with others in their place. -/
def State.withEvents (e : Events) (r : AMap RegCell) (s : State) : State := { s with events := e, regs := r }

theorem settle_eq (s t : State) : settle s t = { t with events := (settle s t).events, regs := (settle s t).regs } :=
  settle_keeps (State.withEvents (settle s t).events (settle s t).regs)
    (fun u a w => by rw [State.rise_eq]; rfl) s t

/-- Settles O2. -/
theorem eventsLeaveTheRest : Obligations.EventsLeaveTheRest :=
  fun s t => ⟨settle_eq s t, fun _ hkey => settle_cell s t hkey⟩

/-- A record finds room in a queue that is not full (10 R258). -/
theorem State.queueRecord_of_room {r : EventRecord} (h : s.events.queue.length < 1024) :
    s.queueRecord r = { s with events := { s.events with window := s.events.window + 1, queue := s.events.queue ++ [r] } } := by
  unfold State.queueRecord
  rw [if_neg (Nat.not_le.mpr h)]

theorem State.rise_of_unlimited (hfree : AMap.getD s.events.holds addr ⟨false, none⟩ = ⟨false, none⟩)
    (hwindow : s.events.window < s.eventRate) (hroom : s.events.queue.length < 1024) :
    s.rise addr bits = { s with events := { s.events with
      window := s.events.window + 1
      queue := s.events.queue ++ [⟨s.canonical addr, bits, s.lic⟩]
      holds := AMap.set s.events.holds addr ⟨s.holdoff ≠ 0, none⟩ } } := by
  unfold State.rise
  simp only [hfree, State.queueRecord_of_room hroom, Option.isSome_none, Bool.or_self, Bool.false_or, decide_eq_true_eq,
    if_neg (Nat.not_le.mpr hwindow)]

/-- A bit that rises behind a pending record joins it. -/
theorem State.rise_of_pending {w : Word} {t : W64} {r : Bool} (h : AMap.get? s.events.holds addr = some ⟨r, some (w, t)⟩) :
    s.rise addr bits = { s with events := { s.events with holds := AMap.set s.events.holds addr ⟨r, some (w ||| bits, t)⟩ } } := by
  have hold : AMap.getD s.events.holds addr ⟨false, none⟩ = ⟨r, some (w, t)⟩ := by rw [AMap.getD, h, Option.getD_some]
  unfold State.rise
  simp only [hold, Option.isSome_some, Bool.or_true, Bool.true_or, if_true]

theorem State.releaseHold_of_pending {w : Word} {t : W64} {r : Bool} (h : AMap.get? s.events.holds addr = some ⟨r, some (w, t)⟩)
    (hwindow : s.events.window < s.eventRate) (hroom : s.events.queue.length < 1024) :
    s.releaseHold addr = { s with events := { s.events with
      window := s.events.window + 1
      queue := s.events.queue ++ [⟨s.canonical addr, w, t⟩]
      holds := AMap.set s.events.holds addr ⟨s.holdoff ≠ 0, none⟩ } } := by
  simp only [State.releaseHold, h, State.queueRecord_of_room hroom, ge_iff_le, if_neg (Nat.not_le.mpr hwindow)]

theorem State.releaseHold_of_empty {r : Bool} (h : AMap.get? s.events.holds addr = some ⟨r, none⟩) :
    s.releaseHold addr = { s with events := { s.events with holds := AMap.erase s.events.holds addr } } := by
  simp only [State.releaseHold, h]

/-- With no record that waits for the window, its end counts from nothing and queues none. -/
theorem exec_eventRateWindow_of_none_waiting (h : s.events.holds.all (fun e => e.2.running || e.2.pending.isNone) = true) :
    exec .eventRateWindow s = .next (settle s { s with events := { s.events with window := 0 } }) := by
  have hnone : (s.events.holds.filter fun e => !e.2.running && e.2.pending.isSome) = [] := by
    refine List.filter_eq_nil_iff.mpr fun e he => ?_
    have hheld := List.all_eq_true.mp h e he
    cases hr : e.2.running <;> cases hp : e.2.pending <;> simp_all
  exact exec_of_done rfl (by rw [hnone]; rfl)

/-- Settles O3. -/
theorem eventRecordsAndLimits : Obligations.EventRecordsAndLimits := by
  refine ⟨?atOnce, ?joins, ?released, ?ends, ?window⟩
  case atOnce => exact fun s addr bits => State.rise_of_unlimited
  case joins => exact fun s addr bits w t r => State.rise_of_pending
  case released =>
    intro s status addr w t hfind hhold hwindow hroom
    exact exec_of_done rfl (by rw [hfind]; exact State.releaseHold_of_pending hhold hwindow hroom)
  case ends =>
    intro s status addr hfind hhold
    exact exec_of_done rfl (by rw [hfind]; exact State.releaseHold_of_empty hhold)
  case window => exact fun s => exec_eventRateWindow_of_none_waiting

end Sys2Proof.Machine
end

section
/-! Aliases of the stream window (12 R307): an address and its canonical address land on one place, and nothing else of an access looks at the
address. -/

namespace Sys2Proof.Machine

variable {s : State} {src : Source} {v : Word} {a c : Nat}

/-- Where both addresses of a pair stand: the stream window and its first 16,384 contexts (12 R306, R307). -/
structure StreamAlias (a c : Nat) : Prop where
  low : 0x04000000 ≤ a
  high : a < 0x05000000
  aligned : a % 4 = 0
  canonical : c = 0x04000000 + (a - 0x04000000) % 0x00400000

theorem StreamAlias.canonical_low (h : StreamAlias a c) : 0x04000000 ≤ c := by have := h.canonical; omega
theorem StreamAlias.canonical_high (h : StreamAlias a c) : c < 0x04400000 := by have := h.canonical; omega

theorem StreamAlias.self (h : StreamAlias a c) : StreamAlias c c := by
  have hlow := h.canonical_low
  have hhigh := h.canonical_high
  obtain ⟨hbase, -, halign, hc⟩ := h
  refine ⟨hlow, by omega, ?_, ?_⟩
  · rw [hc, Nat.add_mod, Nat.mod_mod_of_dvd _ (by norm_num : 4 ∣ 0x00400000)]
    omega
  · rw [hc, Nat.add_sub_cancel_left, Nat.mod_mod]

/-- A place of the stream window, unless it holds no register. -/
theorem StreamAlias.landing_eq (h : StreamAlias a c) : s.landing a = match descOf c with
    | none => .unassigned
    | some d => match d.selector with | some x => .place (sel (s.selected x c) c) | none => .place c := by
  obtain ⟨hlow, hhigh, halign, hc⟩ := h
  have hwindow : inWindow a = true := by simp only [inWindow, decide_eq_true_eq]; omega
  simp only [State.landing, halign, hwindow, hlow, show a < 0x05000000 from hhigh, ← hc, ne_eq, not_true_eq_false, decide_false, Bool.not_true,
    Bool.or_self, Bool.false_eq_true, if_false, and_self, if_true] <;> rfl

theorem StreamAlias.landing (h : StreamAlias a c) : s.landing a = s.landing c := by rw [h.landing_eq, h.self.landing_eq]

theorem StreamAlias.gatedCore (h : StreamAlias a c) : s.gatedCore a = none :=
  if_neg fun hcore => absurd hcore.2.1 (by have := h.low; omega)

theorem StreamAlias.landing_ne_outside (h : StreamAlias a c) : s.landing a ≠ .outside := by
  rw [h.landing_eq]
  split
  · nofun
  · split <;> nofun

theorem StreamAlias.readAt (h : StreamAlias a c) : s.readAt a = s.readAt c := by
  have houtside := h.landing_ne_outside (s := s)
  simp only [State.readAt, h.gatedCore, h.self.gatedCore, ← h.landing]
  cases hl : s.landing a with
  | outside => exact absurd hl houtside
  | unassigned => rfl
  | place key => rfl

theorem StreamAlias.blockOf (h : StreamAlias a c) : blockOf a = .stream := by
  obtain ⟨hlow, hhigh, -, -⟩ := h
  have haddr : keyAddr a = a := Nat.mod_eq_of_lt (by omega)
  simp only [Machine.blockOf, haddr]
  repeat rw [if_neg (by omega)]
  rw [if_pos hhigh]

/-- No register stands in the window beyond its contexts: there an address only stands for another. -/
theorem StreamAlias.descOf_none (h : StreamAlias a c) (hc : descOf c = none) : descOf a = none := by
  have hself := h.canonical
  obtain ⟨hlow, hhigh, -, -⟩ := h
  rcases Nat.lt_or_ge a 0x04400000 with hfirst | hbeyond
  · rw [show a = c by omega, hc]
  · have haddr : keyAddr a = a := Nat.mod_eq_of_lt (by omega)
    simp only [descOf, haddr]
    repeat rw [if_neg (by omega)]
    rw [if_pos (by omega)]

theorem StreamAlias.writeRole (h : StreamAlias a c) (hc : descOf c = none) : writeRole a = .operate := by
  have hnone := h.descOf_none hc
  obtain ⟨hlow, hhigh, -, -⟩ := h
  have haddr : keyAddr a = a := Nat.mod_eq_of_lt (by omega)
  have hcommit : a ≠ Reg.HUB_COMMIT := by rw [Reg.HUB_COMMIT]; omega
  have hqb : ¬ (a = keyAddr (Reg.EB_QB 0) ∨ a = keyAddr (Reg.EB_QB_CONN 0)) := by
    rw [show keyAddr (Reg.EB_QB 0) = 0x00300304 from rfl, show keyAddr (Reg.EB_QB_CONN 0) = 0x00300308 from rfl]
    omega
  simp only [Machine.writeRole, haddr, hnone, if_neg hcommit, if_neg hqb, Bool.false_eq_true, if_false]
  rw [if_neg (by omega)]

theorem StreamAlias.placeGated (h : StreamAlias a c) : s.placeGated a = false := by
  obtain ⟨hlow, hhigh, -, -⟩ := h
  have haddr : keyAddr a = a := Nat.mod_eq_of_lt (by omega)
  exact if_neg (by rw [haddr]; omega)

/-- A write without a register meets the same checks at both addresses. -/
theorem StreamAlias.checkedWrite (h : StreamAlias a c) (hc : descOf c = none) (op : State → State × RegStatus) :
    s.checkedWrite src a op = s.checkedWrite src c op := by
  simp only [State.checkedWrite, h.writeRole hc, h.self.writeRole hc, h.placeGated, h.self.placeGated, h.blockOf, h.self.blockOf]

theorem StreamAlias.writeAt (h : StreamAlias a c) : s.writeAt src a v = s.writeAt src c v := by
  have hvane {x : Nat} (hx : 0x04000000 ≤ x) : ¬ (0x00100000 ≤ x ∧ x < 0x00200000) := by omega
  have houtside := h.landing_ne_outside (s := s)
  have heq := h.landing_eq (s := s)
  simp only [State.writeAt, ← h.landing, if_neg (hvane h.low), if_neg (hvane h.canonical_low), h.blockOf, h.self.blockOf]
  cases hl : s.landing a with
  | outside => exact absurd hl houtside
  | unassigned =>
    have hnone : descOf c = none := by
      cases hd : descOf c with
      | none => rfl
      | some d =>
        rw [hl, hd] at heq
        dsimp only at heq
        split at heq <;> cases heq
    exact h.checkedWrite hnone _
  | place key => rfl

/-- Settles O5. -/
theorem streamWindowAliases : Obligations.StreamWindowAliases := by
  intro s src addr canonical v hlow hhigh halign hc
  have h : StreamAlias addr.toNat canonical.toNat := ⟨hlow, hhigh, halign, hc⟩
  refine ⟨h.readAt, h.writeAt, ?_⟩
  change s.done (s.writeAt src addr.toNat v).1 = s.done (s.writeAt src canonical.toNat v).1
  rw [h.writeAt]

end Sys2Proof.Machine
end

section
/-! What a write of a place does, by its access code, and which commands are such writes (12 R290 to R293, R301, R302, R411). -/

namespace Sys2Proof.Machine

variable {c : Instr} {s : State} {src : Source} {key addr : Nat} {v w : Word} {d : RegDesc} {op : State → State}

/-! ### Guarded commands -/

theorem rkWrite_of_not_admitted (h : s.admitted src = false) : s.rkWrite src key op = s.count32 Reg.EB_RX_REFUSED 1 := by
  rw [State.rkWrite, checkedWrite_of_not_admitted h]

theorem rkWrite_of_no_role (ha : s.admitted src = true) (h : s.hasRole src (writeRole key) = false) :
    s.rkWrite src key op = s.count16 Reg.SEC_ROLE_REFUSED := by
  rw [State.rkWrite, checkedWrite_of_no_role ha h, State.roleRefused]

/-- A command with a guarded place is a guarded write of that place. -/
theorem exec_eq_rkWrite_of_guardedPlace (h : guardedPlace s c = some (src, key)) : ∃ op, exec c s = s.done (s.rkWrite src key op) := by
  unfold guardedPlace at h
  split at h <;> cases h <;> exact ⟨_, rfl⟩

/-- Settles O7: every such command is one `rkWrite`, which looks for the session, the role and the guard, in this order. -/
theorem guardedCommandsRefused : Obligations.GuardedCommandsRefused := by
  intro c s src key hplace
  obtain ⟨op, hexec⟩ := exec_eq_rkWrite_of_guardedPlace hplace
  exact ⟨fun hmay hg => exec_of_done hexec (rkWrite_of_not_held hmay hg op), fun ha => exec_of_done hexec (rkWrite_of_not_admitted ha),
    fun ha hr => exec_of_done hexec (rkWrite_of_no_role ha hr)⟩

/-! ### Reads that end a status bit (R291) -/

/-- The read of a bay's cancel status. -/
theorem State.readEffect_swCancelStatus (bay : Fin 16) :
    s.readEffect (Reg.SW_CANCEL_STATUS bay.val) = s.unlatch (Reg.SW_EVENT_STATUS bay.val) 0 := by
  fin_cases bay <;> rfl

theorem State.readEffect_cchStatus (bay : Fin 16) (ch : Fin 4) :
    s.readEffect (Reg.CCH_STATUS bay.val ch.val) = s.unlatch (Reg.CCH_STATUS bay.val ch.val) 0 := by
  fin_cases bay <;> fin_cases ch <;> rfl

theorem State.readEffect_apRate (port : Fin 6) :
    s.readEffect (Reg.AP_RATE port.val) = s.unlatch (Reg.AP_PORT_EVENT_STATUS port.val) 1 := by
  fin_cases port <;> rfl

/-- The read of a place that a status bit is live until ends that bit. -/
theorem State.readEffect_of_readLatch {status bitNo : Nat} (hplace : readPlace c = some (src, key)) (hlatch : readLatch c = some (status, bitNo)) :
    s.readEffect key = s.unlatch status bitNo := by
  unfold readPlace at hplace
  split at hplace <;> cases hplace <;> cases hlatch
  case h_5 => exact State.readEffect_swCancelStatus _
  case h_6 => exact State.readEffect_cchStatus _ _
  case h_7 => exact State.readEffect_apRate _
  all_goals rfl

theorem exec_of_readLatch {status bitNo : Nat} (hmay : s.MayRead src) (hplace : readPlace c = some (src, key))
    (hlatch : readLatch c = some (status, bitNo)) : exec c s = .next (settle s (s.unlatch status bitNo)) :=
  exec_of_done (exec_eq_readCommand_of_readPlace hplace) ((readCommand_of_mayRead hmay).trans (State.readEffect_of_readLatch hplace hlatch))

/-- Settles O9. -/
theorem readsEndStatusBits : Obligations.ReadsEndStatusBits := by
  refine ⟨fun s src h => ?_, fun c s src key status bitNo hplace hlatch hmay => exec_of_readLatch hmay hplace hlatch⟩
  exact ⟨exec_of_readLatch h rfl rfl, exec_of_readLatch h rfl rfl, exec_of_readLatch h rfl rfl, exec_of_readLatch h rfl rfl,
    exec_of_readLatch h rfl rfl, fun _ => exec_of_readLatch h rfl rfl, fun _ _ => exec_of_readLatch h rfl rfl,
    fun _ => exec_of_readLatch h rfl rfl⟩

/-! ### Writes of a place -/

/-- A write of a place outside Vane's window meets the place's checks, and then its access code (R290). -/
theorem State.writeAt_of_place (hplace : s.landing addr = .place key) (hd : descOf key = some d)
    (hvane : ¬ (0x00100000 ≤ addr ∧ addr < 0x00200000)) : s.writeAt src addr v = s.checkedWrite src key fun s => s.placeWrite src key d v := by
  simp only [State.writeAt, hplace, hd, if_neg hvane]

theorem State.writeAt_of_mayWrite (hplace : s.landing addr = .place key) (hd : descOf key = some d) (hmay : s.MayWrite src key)
    (hvane : ¬ (0x00100000 ≤ addr ∧ addr < 0x00200000)) : s.writeAt src addr v = s.placeWrite src key d v := by
  rw [State.writeAt_of_place hplace hd hvane, checkedWrite_of_mayWrite hmay]

/-- What may be written does not depend on the guards. -/
theorem State.accepts_entered : (s.Entered src key).accepts key v = s.accepts key v := by
  rw [State.Entered, State.writeCloses_eq]
  rfl

theorem State.accepts_closeGuard : (s.closeGuard src).accepts key v = s.accepts key v := rfl

section
variable (hguard : guardReg (blockOf key) ≠ some key)
include hguard

theorem State.placeWrite_of_readOnly (ha : d.access = .ro ∨ d.access = .rl ∨ d.access = .rc) :
    s.placeWrite src key d v = (s.Entered src key, .ok) := by
  unfold State.placeWrite
  rw [if_neg hguard]
  rcases ha with ha | ha | ha <;> rw [ha] <;> rfl

theorem State.placeWrite_of_rw (ha : d.access = .rw) : s.placeWrite src key d v =
    (if s.accepts key (v &&& d.mask) then (s.Entered src key).rwEffect key d (v &&& d.mask) else s.Entered src key, .ok) := by
  unfold State.placeWrite
  rw [if_neg hguard, ha]
  rfl

theorem State.placeWrite_of_rs (ha : d.access = .rs ∨ d.access = .rx) : s.placeWrite src key d v =
    (if s.accepts key (v &&& d.mask) then (s.Entered src key).rsEffect key (v &&& d.mask) else s.Entered src key, .ok) := by
  unfold State.placeWrite
  rw [if_neg hguard]
  rcases ha with ha | ha <;> rw [ha] <;> rfl

theorem State.placeWrite_of_rk (ha : d.access = .rk) :
    s.placeWrite src key d v = s.guarded src key fun s => s.rkEffect key d (v &&& d.mask) := by
  unfold State.placeWrite
  rw [if_neg hguard, ha]

theorem State.placeWrite_of_wo (ha : d.access = .wo) : s.placeWrite src key d v = ((s.Entered src key).strobe key v, .ok) := by
  unfold State.placeWrite
  rw [if_neg hguard, ha]
  rfl

/-- Of a register that is not WO, a write takes the writable bits alone (R290). -/
theorem State.placeWrite_congr (ha : d.access ≠ .wo) (hm : v &&& d.mask = w &&& d.mask) : s.placeWrite src key d v = s.placeWrite src key d w := by
  cases hd : d.access with
  | rk => rw [State.placeWrite_of_rk hguard hd, State.placeWrite_of_rk hguard hd, hm]
  | rw => rw [State.placeWrite_of_rw hguard hd, State.placeWrite_of_rw hguard hd, hm]
  | rs => rw [State.placeWrite_of_rs hguard (.inl hd), State.placeWrite_of_rs hguard (.inl hd), hm]
  | rx => rw [State.placeWrite_of_rs hguard (.inr hd), State.placeWrite_of_rs hguard (.inr hd), hm]
  | wo => exact absurd hd ha
  | ro => rw [State.placeWrite_of_readOnly hguard (.inl hd), State.placeWrite_of_readOnly hguard (.inl hd)]
  | rl => rw [State.placeWrite_of_readOnly hguard (.inr (.inl hd)), State.placeWrite_of_readOnly hguard (.inr (.inl hd))]
  | rc => rw [State.placeWrite_of_readOnly hguard (.inr (.inr hd)), State.placeWrite_of_readOnly hguard (.inr (.inr hd))]

end

/-- Settles O4. -/
theorem writesWithoutEffect : Obligations.WritesWithoutEffect := by
  refine ⟨?readOnly, ?masked, ?writeOnly⟩
  case readOnly =>
    intro s src addr v key d hplace hd hmay hvane hguard ha
    rw [State.writeAt_of_mayWrite hplace hd hmay hvane, State.placeWrite_of_readOnly hguard ha]
  case masked =>
    intro s src addr v w key d hplace hd hvane hguard ha hm
    rw [State.writeAt_of_place hplace hd hvane, State.writeAt_of_place hplace hd hvane]
    simp only [State.placeWrite_congr hguard ha hm]
  case writeOnly =>
    intro s key d hd ha
    simp only [State.valueAt, hd, ha, if_true]

/-! ### What each access code does with an accepted value -/

/-- A plain RW register takes the value (R290): neither the head of a ring of the device nor a counter. -/
theorem State.rwEffect_of_value (hc : d.clears = false) (hfq : keyAddr key ≠ Reg.TRN_FQ_TAIL)
    (hctx : ¬ (0x04000000 ≤ keyAddr key ∧ keyAddr key < 0x05400000)) : s.rwEffect key d v = s.setReg key v := by
  simp only [State.rwEffect, hc, Bool.false_eq_true, if_false, if_neg hfq]
  rw [if_neg (by omega), if_neg (by omega)]

/-- A write of any value clears a counter (R305). -/
theorem State.rwEffect_of_clears (hc : d.clears = true) (hbay : keyAddr key < 0x06000000) : s.rwEffect key d v = s.setReg key 0 := by
  simp only [State.rwEffect, hc, if_true]
  rw [if_neg (by omega)]

/-- An RS or RX register whose boundary is not at hand holds the value staged (R293). -/
theorem State.rsEffect_of_value (hpeer : ¬ (0x00380000 ≤ keyAddr key ∧ keyAddr key < 0x00400000)) (hbay : keyAddr key < 0x06000000)
    (hport : keyAddr key ≠ Reg.EB_PORT_CTRL) (hqb : keyAddr key ≠ keyAddr (Reg.EB_QB 0)) (hqbConn : keyAddr key ≠ keyAddr (Reg.EB_QB_CONN 0)) :
    s.rsEffect key v = s.stage key v := by
  simp only [State.rsEffect, State.afterStage, hqb, hqbConn, if_neg hport, decide_false, Bool.or_self, Bool.false_and, Bool.false_eq_true, if_false]
  rw [if_neg (by omega), if_neg (by omega)]

/-- An RK register of a later boundary holds the value staged (R293). -/
theorem State.rkEffect_of_value (hok : s.accepts key v = true) (hnow : d.boundary ≠ .now) (href : key ≠ Reg.CFGCRC_REF)
    (hmacsec : key ≠ Reg.EB_MACSEC_CTRL) (hcore : ¬ (0x01000000 ≤ key ∧ key < 0x03400000)) : s.rkEffect key d v = s.stage key v := by
  simp only [State.rkEffect, hok, Bool.not_true, Bool.false_eq_true, if_false, if_neg href, if_neg hnow, if_neg hcore, if_neg hmacsec]

/-- A value outside the register's range is ignored (R411). -/
theorem State.rkEffect_of_rejected (hbad : s.accepts key v = false) : s.rkEffect key d v = s := by
  simp only [State.rkEffect, hbad, Bool.not_false, if_true]

theorem State.guarded_of_held {f : State → State} (h : s.GuardHeld src key) : s.guarded src key f = (f (s.closeGuard src), .ok) := if_pos h

theorem State.guarded_of_not_held {f : State → State} (h : ¬ s.GuardHeld src key) :
    s.guarded src key f = (s.count16 Reg.HUB_GUARD_REFUSED, .notPermitted) := if_neg h

/-- Settles O10. -/
theorem writesByAccessCode : Obligations.WritesByAccessCode := by
  intro s src addr v key d hplace hd hmay hvane hguard
  have hexec {t : State} (h : (s.placeWrite src key d v).1 = t) : exec (.registerWrite src addr v) s = .next (settle s t) :=
    exec_of_done rfl (by rw [State.writeAt_of_mayWrite hplace hd hmay hvane, h])
  simp only [State.accepts_entered, State.accepts_closeGuard]
  refine ⟨fun ha hok hc hfq hctx => hexec ?value, fun ha hok hc hbay => hexec ?clears, fun ha hok hpeer hbay hport hqb hqbConn => hexec ?staged,
    fun ha hg => hexec ?unguarded, fun ha hg hok hnow href hmacsec hcore => hexec ?guarded, fun ha hbad => ?rejected,
    fun ha hg hbad => hexec ?guardedRejected⟩
  case value => rw [State.placeWrite_of_rw hguard ha, if_pos hok, State.rwEffect_of_value hc hfq hctx]
  case clears => rw [State.placeWrite_of_rw hguard ha, if_pos hok, State.rwEffect_of_clears hc hbay]
  case staged => rw [State.placeWrite_of_rs hguard ha, if_pos hok, State.rsEffect_of_value hpeer hbay hport hqb hqbConn]
  case unguarded => rw [State.placeWrite_of_rk hguard ha, State.guarded_of_not_held hg]
  case guarded =>
    rw [State.placeWrite_of_rk hguard ha, State.guarded_of_held hg]
    exact State.rkEffect_of_value (s := s.closeGuard src) hok hnow href hmacsec hcore
  case rejected =>
    rcases ha with ha | ha
    · exact hexec (by rw [State.placeWrite_of_rw hguard ha, if_neg (Bool.eq_false_iff.mp hbad)])
    · exact hexec (by rw [State.placeWrite_of_rs hguard ha, if_neg (Bool.eq_false_iff.mp hbad)])
  case guardedRejected =>
    rw [State.placeWrite_of_rk hguard ha, State.guarded_of_held hg]
    exact State.rkEffect_of_rejected (s := s.closeGuard src) hbad

/-! ### The rows of the table that are writes of a command register (R290) -/

/-- A write of an RK register whose accepted value has an effect is the guarded write with that effect. -/
theorem exec_registerWrite_of_rk {a : Word} (hplace : s.landing a.toNat = .place key) (hd : descOf key = some d)
    (hvane : ¬ (0x00100000 ≤ a.toNat ∧ a.toNat < 0x00200000)) (hguard : guardReg (blockOf key) ≠ some key) (ha : d.access = .rk)
    (heffect : ∀ u : State, u.rkEffect key d (v &&& d.mask) = op u) : exec (.registerWrite src a v) s = s.done (s.rkWrite src key op) := by
  change s.done (s.writeAt src a.toNat v).1 = _
  rw [State.writeAt_of_place hplace hd hvane, State.rkWrite]
  simp only [State.placeWrite_of_rk hguard ha, heffect]

/-- A write of a WO register that strobes is the plain write with that effect. -/
theorem exec_registerWrite_of_wo {a : Word} (hplace : s.landing a.toNat = .place key) (hd : descOf key = some d)
    (hvane : ¬ (0x00100000 ≤ a.toNat ∧ a.toNat < 0x00200000)) (hguard : guardReg (blockOf key) ≠ some key) (ha : d.access = .wo)
    (heffect : ∀ u : State, u.strobe key v = op u) : exec (.registerWrite src a v) s = s.done (s.plainWrite src key op) := by
  change s.done (s.writeAt src a.toNat v).1 = _
  rw [State.writeAt_of_place hplace hd hvane, State.plainWrite]
  simp only [State.placeWrite_of_wo hguard ha, heffect]
  rfl

/-- Settles O11. -/
theorem commandRowsAreRegisterWrites : Obligations.CommandRowsAreRegisterWrites := by
  intro s src
  have hfull (v : Word) : v &&& 0xFFFFFFFF = v := BitVec.and_allOnes
  refine ⟨?_, ?_, ?_, ?_, ?_, ?_, ?_, ?_, ?_, fun v => ?floorHi, fun v => ?floorLo, fun v => ?ref, fun v => ?inv⟩
  case floorHi => exact exec_registerWrite_of_rk rfl rfl (by decide) (by decide) rfl fun u => by rw [hfull]; rfl
  case floorLo => exact exec_registerWrite_of_rk rfl rfl (by decide) (by decide) rfl fun u => by rw [hfull]; rfl
  case ref => exact exec_registerWrite_of_rk rfl rfl (by decide) (by decide) rfl fun u => by rw [hfull]; rfl
  case inv => exact exec_registerWrite_of_wo rfl rfl (by decide) (by decide) rfl fun u => rfl
  all_goals exact exec_registerWrite_of_rk rfl rfl (by decide) (by decide) rfl fun u => rfl

end Sys2Proof.Machine
end

section
/-! What reset, loss of power and warm restarts leave (13 R328, R329, R331; 16 R378, R379; 14 R352). -/

namespace Sys2Proof.Machine

variable {s t u : State}

/-! ### The state after reset -/

theorem reset_sec_empty : State.reset.sec.sessions = [] ∧ State.reset.sec.openings = [] := by
  have hsec : State.reset.sec = flashOnly (if true && Config.erasePending then eraseOwner .shipped else .shipped) ∨
      State.reset.sec = boot (flashOnly (if true && Config.erasePending then eraseOwner .shipped else .shipped)) := ite_eq_or_eq _ _ _
  rcases hsec with hsec | hsec <;> rw [hsec] <;> exact ⟨rfl, rfl⟩

/-- Settles O57. -/
theorem resetLeavesEverythingClear : Obligations.ResetLeavesEverythingClear := by
  obtain ⟨hsessions, hopenings⟩ := reset_sec_empty
  refine ⟨rfl, ⟨rfl, nofun⟩, rfl, rfl, rfl, rfl, rfl, rfl, rfl, rfl, rfl, rfl, rfl, rfl, rfl, rfl, rfl, rfl, rfl, hsessions, hopenings, rfl, rfl, rfl,
    rfl, rfl, rfl, rfl, rfl, fun _ => rfl⟩

/-! ### Loss and return of power -/

theorem State.powerOn_roots (h : s.power.erasePending = false) : s.powerOn.sec.roots = s.sec.roots := by
  have hsec : s.powerOn.sec = flashOnly (if s.power.resetN && s.power.erasePending then eraseOwner s.sec else s.sec) ∨
      s.powerOn.sec = boot (flashOnly (if s.power.resetN && s.power.erasePending then eraseOwner s.sec else s.sec)) := ite_eq_or_eq _ _ _
  rw [h, Bool.and_false] at hsec
  rcases hsec with hsec | hsec <;> rw [hsec] <;> rfl

/-! ### Migrations, pools and registers as the halted islands lose them -/

/-- What every step of a fold leaves as it is, the fold leaves. -/
theorem foldl_leaves {α β : Type} {f : State → β} {g : State → α → State} (h : ∀ u a, f (g u a) = f u) (l : List α) (s : State) :
    f (l.foldl g s) = f s :=
  (List.foldl_hom f (g₂ := fun b _ => b) fun u a => (h u a).symm).symm.trans (List.foldl_fixed _)

/-- A state without its memory and its tiers. -/
def State.butTiers (s : State) : State := { s with mem := [], tiers := State.reset.tiers }

theorem State.freeFrame_butTiers (b frame size : Nat) : (s.freeFrame b frame size).butTiers = s.butTiers := by
  refine foldl_leaves (fun u i => ?_) _ s
  dsimp only
  split <;> rfl

theorem State.restoreEntry_butTiers (m : Migration) : (s.restoreEntry m).butTiers = s.butTiers := by
  rw [State.restoreEntry, State.freeFrame_butTiers]
  split <;> rfl

theorem State.spillBack_butTiers (m : Migration) : (s.spillBack m).butTiers = s.butTiers := by
  unfold State.spillBack
  split <;> rfl

/-- The end of every migration changes the tiers and the page tables in memory alone (R412). -/
theorem State.endMigrations_butTiers : s.endMigrations.butTiers = s.butTiers := by
  refine foldl_leaves (f := State.butTiers) (fun u m => ?_) _ s
  cases m.phase with
  | queued => exact State.spillBack_butTiers m
  | firstInv => exact (State.spillBack_butTiers m).trans (State.restoreEntry_butTiers m)
  | copying => exact (State.spillBack_butTiers m).trans (State.restoreEntry_butTiers m)
  | secondInv => exact State.freeFrame_butTiers _ _ _

/-- A state without its registers. -/
def State.butRegs (s : State) : State := { s with regs := [] }

theorem State.applyStaged_butRegs (key : Nat) : (s.applyStaged key).butRegs = s.butRegs := by
  unfold State.applyStaged
  split <;> rfl

theorem State.poolIdle_butRegs (b p : Nat) : (s.poolIdle b p).butRegs = s.butRegs := by
  unfold State.poolIdle
  split
  · exact foldl_leaves (fun _ key => State.applyStaged_butRegs key) _ s
  · rfl

theorem State.poolsIdle_butRegs (b : Nat) : (s.poolsIdle b).butRegs = s.butRegs := foldl_leaves (fun _ p => State.poolIdle_butRegs b p) _ s

/-- A place at an index lies above every plain register. -/
theorem ne_sel {k : Nat} (h : k < 2 ^ 32) (i a : Nat) : k ≠ sel i a := by
  unfold sel
  omega

theorem State.poolIdle_reg {k : Nat} (h : k < 2 ^ 32) (b p : Nat) : (s.poolIdle b p).reg k = s.reg k := by
  unfold State.poolIdle
  split
  · simp only [State.applyAll, List.foldl_cons, List.foldl_nil]
    rw [State.applyStaged_reg_other _ (key := Reg.SW_POOL_CFG b p) (ne_sel h p _),
      State.applyStaged_reg_other _ (key := Reg.SW_POOL_BASE_HI b p) (ne_sel h p _),
      State.applyStaged_reg_other _ (key := Reg.SW_POOL_BASE_LO b p) (ne_sel h p _)]
  · rfl

theorem State.poolsIdle_reg {k : Nat} (h : k < 2 ^ 32) (b : Nat) : (s.poolsIdle b).reg k = s.reg k :=
  foldl_leaves (f := fun u => u.reg k) (fun _ p => State.poolIdle_reg h b p) _ s

theorem AMap.get?_keep {α : Type} {p : Nat → Bool} {k : Nat} (h : p k = true) (m : AMap α) :
    AMap.get? (AMap.keep (fun k _ => p k) m) k = AMap.get? m k := by
  induction m with
  | nil => rfl
  | cons e rest ih =>
    obtain ⟨a, v⟩ := e
    unfold AMap.keep at ih ⊢
    rw [List.filter_cons]
    dsimp only
    split
    · simp only [AMap.get?, ih]
    · have ha : a ≠ k := fun ha => by simp_all
      rw [ih, AMap.get?, if_neg ha]

theorem State.reg_keepRegs {kept : Nat → Bool} {k : Nat} (h : kept k = true) : (s.keepRegs kept).reg k = s.reg k := by
  simp only [State.reg, State.cell, State.keepRegs, AMap.getD, AMap.get?_keep h]

/-! ### RESET_N and warm restarts -/

/-- Halting the islands for RESET_N: a state that is empty of what they hold, in which the pools' staged configuration then applies. -/
theorem State.haltChip_eq (s : State) : ∃ u : State, ∃ bays : List Nat,
    s.haltChip false = { bays.foldl (fun u b => u.poolsIdle b) u with streams := [], seqs := [] } ∧
    u.insts = [] ∧ u.cores = [] ∧ u.guards = [] ∧ u.sec.sessions = [] ∧ u.regs = (s.endMigrations.keepRegs (warmKept false)).regs ∧
    u.vane = s.endMigrations.vane ∧ u.pmc = s.endMigrations.pmc ∧ u.power = s.endMigrations.power ∧ u.fuses = s.endMigrations.fuses :=
  ⟨_, _, rfl, rfl, rfl, rfl, rfl, rfl, rfl, rfl, rfl, rfl⟩

/-- What a warm restart leaves of the halted islands: nothing of theirs; Vane, the PMC, the power state and the fuses as they were (R329). -/
structure State.Halted (s t : State) : Prop where
  insts : t.insts = []
  cores : t.cores = []
  guards : t.guards = []
  streams : t.streams = []
  seqs : t.seqs = []
  sessions : t.sec.sessions = []
  vane : t.vane = s.vane
  pmc : t.pmc = s.pmc
  power : t.power = s.power
  fuses : t.fuses = s.fuses
  reg : ∀ k, k < 2 ^ 32 → blockOf k = .vane → t.reg k = s.reg k

theorem State.haltChip_halted (s : State) : s.Halted (s.haltChip false) := by
  obtain ⟨u, bays, heq, hinsts, hcores, hguards, hsessions, hregs, hvane, hpmc, hpower, hfuses⟩ := s.haltChip_eq
  have hbut : (bays.foldl (fun u b => u.poolsIdle b) u).butRegs = u.butRegs := foldl_leaves (fun _ b => State.poolsIdle_butRegs b) _ u
  have hend : s.endMigrations.butTiers = s.butTiers := State.endMigrations_butTiers
  rw [heq]
  exact
    { insts := (congrArg State.insts hbut).trans hinsts
      cores := (congrArg State.cores hbut).trans hcores
      guards := (congrArg State.guards hbut).trans hguards
      streams := rfl
      seqs := rfl
      sessions := (congrArg (·.sec.sessions) hbut).trans hsessions
      vane := ((congrArg State.vane hbut).trans hvane).trans (congrArg State.vane hend :)
      pmc := ((congrArg State.pmc hbut).trans hpmc).trans (congrArg State.pmc hend :)
      power := ((congrArg State.power hbut).trans hpower).trans (congrArg State.power hend :)
      fuses := ((congrArg State.fuses hbut).trans hfuses).trans (congrArg State.fuses hend :)
      reg := fun k hk hblock => by
        have hkept : warmKept false k = true := by rw [warmKept, hblock]
        calc (bays.foldl (fun u b => u.poolsIdle b) u).reg k
          _ = u.reg k := foldl_leaves (f := fun u => u.reg k) (fun _ b => State.poolsIdle_reg hk b) _ u
          _ = (s.endMigrations.keepRegs (warmKept false)).reg k := by rw [State.reg, State.cell, hregs]; rfl
          _ = s.endMigrations.reg k := State.reg_keepRegs hkept
          _ = s.reg k := (congrArg (fun u : State => u.reg k) hend :) }

/-- The causes that still hold follow from Vane, the sensors and the trips. -/
theorem State.causesLeft_congr (hvane : t.vane = s.vane) (hpmc : t.pmc = s.pmc)
    (hreg : ∀ k ∈ [Reg.VANE_TRIP_JUNCTION, Reg.VANE_TRIP_LOFT, Reg.VANE_TRIP_VIN_LO, Reg.VANE_TRIP_VIN_HI], t.reg k = s.reg k) :
    t.causesLeft = s.causesLeft := by
  have hholds : ∀ code, t.causeHolds code = s.causeHolds code := fun code => by
    simp only [List.forall_mem_cons] at hreg
    obtain ⟨hjunction, hloft, hlo, hhi, -⟩ := hreg
    simp only [State.causeHolds, hpmc, hjunction, hloft, hlo, hhi]
  simp only [State.causesLeft, hvane, hholds]

/-- A warm restart by RESET_N, held at step 3 (13 R331). -/
theorem State.warmRestart_held (h : s.power.resetN = false) (cause strength : Nat) :
    let t := s.warmRestart false cause strength
    t.power.phase = .restartHeld ∧ t.insts = [] ∧ t.cores = [] ∧ t.guards = [] ∧ t.fuses = s.fuses ∧ t.reg Reg.VANE_RESET_CAUSE = w32 cause ∧
      t.vane.causes = s.causesLeft ∧ t.vane.safe = !s.causesLeft.isEmpty ∧ t.streams = [] ∧ t.seqs = [] ∧ t.sec.sessions = [] := by
  have halted := s.haltChip_halted
  have hcauses : (((s.haltChip false).setReg Reg.VANE_RESET_CAUSE (w32 cause)).setReg Reg.VANE_RESETS (s.reg Reg.VANE_RESETS + 1)).causesLeft =
      s.causesLeft := by
    refine State.causesLeft_congr halted.vane halted.pmc fun k hk => ?_
    fin_cases hk <;>
    · rw [State.reg_setReg_other _ _ (by decide), State.reg_setReg_other _ _ (by decide)]
      exact halted.reg _ (by decide) rfl
  have hresetN : (s.haltChip false).power.resetN = false := by rw [halted.power, h]
  intro t
  have ht : t = { ((s.haltChip false).setReg Reg.VANE_RESET_CAUSE (w32 cause)).setReg Reg.VANE_RESETS (s.reg Reg.VANE_RESETS + 1) with
      vane := { (s.haltChip false).vane with
        safe := !s.causesLeft.isEmpty, leavePending := false, causes := s.causesLeft, underWay := strength }
      power := { (s.haltChip false).power with phase := .restartHeld } } := by
    simp only [t, State.warmRestart, hcauses]
    exact if_neg (ne_true_of_eq_false hresetN)
  rw [ht]
  refine ⟨rfl, halted.insts, halted.cores, halted.guards, halted.fuses, ?_, rfl, rfl, halted.streams, halted.seqs, halted.sessions⟩
  exact (State.reg_setReg_other (k := Reg.VANE_RESET_CAUSE) (key := Reg.VANE_RESETS) _ _ (by decide)).trans (State.reg_setReg_same _ _ _)

/-! ### Granary channels -/

theorem State.channelOnline_tel (g : Nat) : (s.channelOnline g).tel = s.tel := by
  unfold State.channelOnline
  split
  · rfl
  · dsimp only
    split <;> rfl

/-- A channel that trains comes online, and trains no more (16 R384). -/
theorem State.channelOnline_of_training {g : Nat} (hg : g < 8) (h : bit s.power.training g = true) :
    bit (s.channelOnline g).tiers.channelsOnline g = true ∧ bit (s.channelOnline g).power.training g = false := by
  have hbits : ∀ w v : BitVec 8, bit (w ||| 1#8 <<< g) g = true ∧ bit (v &&& ~~~(1#8 <<< g)) g = false := fun w v => by
    simp [bit, hg]
  unfold State.channelOnline
  rw [if_neg (by simp [h])]
  exact hbits _ _

theorem exec_granaryChannelOnline (h : s.tel.running = none) (g : Fin 8) :
    exec (.granaryChannelOnline g) s = .next (settle s (s.channelOnline g.val)) := by
  have hrunning : (s.channelOnline g.val).tel.running = none := by rw [State.channelOnline_tel, h]
  refine exec_of_done (u := match (s.channelOnline g.val).tel.running with
    | some x => if x.kind = .dimmInsert && x.target = g.val then (s.channelOnline g.val).repairOn.nextRepair else s.channelOnline g.val
    | none => s.channelOnline g.val) rfl ?_
  rw [hrunning]

/-- Settles O52. -/
theorem resetsAndPowerEvents : Obligations.ResetsAndPowerEvents := by
  refine ⟨fun s => ⟨rfl, rfl, State.powerOn_roots, rfl, rfl, rfl, rfl, rfl, rfl, rfl, ?startup, ?noStartup, ?restart, ?noRestart, ?heldLow, ?lowRunning,
    ?lowUnpowered, ?lowStartUp, ?heldHigh, ?highErasing, ?highRestart, rfl, rfl⟩, fun s g htel => ⟨?untrained, ?trained⟩, fun s seq => rfl,
    fun s cause strength h => State.warmRestart_held h cause strength⟩
  case startup => exact fun h => exec_of_done rfl (if_pos h)
  case noStartup => exact fun h => exec_of_done rfl (if_neg h)
  case restart => exact fun hphase hclk => exec_of_done rfl (if_pos (by simp [hphase, hclk]))
  case noRestart => exact fun h => exec_of_done rfl (if_neg (by simpa [imp_iff_not_or] using h))
  case heldLow => exact fun h => exec_of_done rfl (if_neg (by simp [h]))
  case lowRunning =>
    intro h hphase
    refine exec_of_done rfl ((if_pos h).trans ?_)
    unfold State.resetLow
    rcases hphase with hphase | hphase <;> rw [hphase]
  case lowUnpowered =>
    intro h hphase
    refine exec_of_done rfl ((if_pos h).trans ?_)
    unfold State.resetLow
    rw [hphase]
  case lowStartUp =>
    intro h hphase
    refine exec_of_done rfl ((if_pos h).trans ?_)
    unfold State.resetLow
    rcases hphase with hphase | hphase <;> rw [hphase]
  case heldHigh => exact fun h => exec_of_done rfl (if_pos h)
  case highErasing => exact fun h herasing => exec_of_done rfl ((if_neg (by simp [h])).trans (if_pos herasing))
  case highRestart =>
    intro h herasing hphase
    refine exec_of_done rfl ((if_neg (by simp [h])).trans ((if_neg (by simp [herasing])).trans ?_))
    dsimp only
    rw [hphase]
  case untrained =>
    intro h
    rw [exec_granaryChannelOnline htel, State.channelOnline, if_pos (by simp [h])]
  case trained =>
    intro h
    obtain ⟨honline, htraining⟩ := State.channelOnline_of_training g.isLt h
    exact ⟨_, exec_granaryChannelOnline htel g, honline, htraining⟩

end Sys2Proof.Machine
end

section
/-! Sensors, watchdogs and the control loops of the PMC (13 R312, R316, R317, R321, R323 to R325, R327). -/

namespace Sys2Proof.Machine

variable {s : State}

/-! ### Sensors and watchdogs -/

theorem State.senseAlarm_of_beyond {p : Prop} [Decidable p] (h : p) (code unit : Nat) :
    s.senseAlarm (decide p) code unit = s.reviewCauses.alarm code unit :=
  if_pos (decide_eq_true h)

theorem State.senseAlarm_of_below {p : Prop} [Decidable p] (h : ¬ p) (code unit : Nat) : s.senseAlarm (decide p) code unit = s.reviewCauses :=
  if_neg (by simp [h])

/-- A processor's watchdog expires while another's still runs: the alarm alone (13 R316). -/
theorem State.watchdog_of_other_running {p q : Nat} (hp : bit s.vane.watchRunning p = true) (hq : q < 4) (hne : q ≠ p)
    (hrunning : bit s.vane.watchRunning q = true) (hexpired : AMap.get? s.vane.expiredAt q = none) :
    let u := s.setCp p { s.cp p with expiries := (s.cp p).expiries ++ [s.lic] }
    s.watchdog p = State.alarm { u with vane := { u.vane with
      watchExpired := u.vane.watchExpired ||| (1#4 <<< p)
      expiredAt := AMap.set u.vane.expiredAt p s.lic, watchRunning := u.vane.watchRunning &&& ~~~(1#4 <<< p) } } 0x09 (telUnit 5 p) := by
  have hnone : AMap.get? (AMap.set s.vane.expiredAt p s.lic) q = none := by rw [AMap.get?_set_other _ _ hne, hexpired]
  intro u
  unfold State.watchdog
  rw [if_neg (by simp [hp])]
  refine if_neg fun hall => ?_
  have hq' := List.all_eq_true.mp hall q (List.mem_filter.mpr ⟨List.mem_range.mpr hq, by
    simp only [State.setCp, hrunning, Bool.true_or]⟩)
  simp only [State.setCp, hnone] at hq'
  exact absurd hq' Bool.false_ne_true

/-! ### The control loops -/

theorem State.capInterval_pmc (watts : Nat) :
    let t := s.capInterval watts
    (t.pmc.h, t.pmc.capCeil) = capStage s.pmc.h s.pmc.capCeil watts s.capWatts ∧ t.pmc.pin = watts ∧
      t.pmc.energy = s.pmc.energy + BitVec.ofNat 64 watts ∧ t.pmc.intervalAt = s.lic ∧ t.pmc.half = s.pmc.half ∧ t.mem = s.mem := by
  intro t
  simp only [t, State.capInterval, State.applyAll_pmc, State.applyAll_mem, State.setPmc, and_self]

theorem capStage_cases (h ceil watts cap : Nat) :
    (cap < watts → h < 16 → capStage h ceil watts cap = (h + 1, ceil)) ∧
    (cap < watts → 16 ≤ h → capStage h ceil watts cap = (h, min 7 (ceil + 1))) ∧
    (watts * 100 < 97 * cap → 0 < ceil → capStage h ceil watts cap = (h, ceil - 1)) ∧
    (watts * 100 < 97 * cap → ceil = 0 → capStage h ceil watts cap = (h - 1, 0)) ∧
    (watts ≤ cap → 97 * cap ≤ watts * 100 → capStage h ceil watts cap = (h, ceil)) := by
  unfold capStage
  refine ⟨fun hover hh => ?_, fun hover hh => ?_, fun hunder hceil => ?_, fun hunder hceil => ?_, fun hle hge => ?_⟩
  · rw [if_pos hover, if_pos hh]
  · rw [if_pos hover, if_neg (by omega)]
  · rw [if_neg (by omega), if_pos hunder, if_pos hceil]
  · rw [if_neg (by omega), if_pos hunder, if_neg (by omega), hceil]
    split
    · rfl
    · rw [show h = 0 by omega]
  · rw [if_neg (by omega), if_neg (by omega)]

theorem thermStep_cases (ceil cool j l jl ll : Nat) :
    (jl < j ∨ ll < l → thermStep ceil cool j l jl ll = (min 7 (ceil + 1), 0)) ∧
    (j + 3 ≤ jl → l + 3 ≤ ll → 9 ≤ cool → thermStep ceil cool j l jl ll = (ceil - 1, 0)) ∧
    (j + 3 ≤ jl → l + 3 ≤ ll → cool < 9 → thermStep ceil cool j l jl ll = (ceil, cool + 1)) ∧
    (j ≤ jl → l ≤ ll → jl < j + 3 ∨ ll < l + 3 → thermStep ceil cool j l jl ll = (ceil, 0)) := by
  simp only [thermStep, Bool.or_eq_true, Bool.and_eq_true, decide_eq_true_eq]
  refine ⟨fun hover => ?_, fun hj hl hcool => ?_, fun hj hl hcool => ?_, fun hj hl hnear => ?_⟩
  · rw [if_pos hover]
  · rw [if_neg (by omega), if_pos ⟨hj, hl⟩, if_pos (by omega)]
  · rw [if_neg (by omega), if_pos ⟨hj, hl⟩, if_neg (by omega)]
  · rw [if_neg (by omega), if_neg (by omega)]

/-- The half clock after a sample of the 100 µs average: on above one limit, off below the other, kept between them (13 R324). -/
def halfAfter (half : Bool) (on off average : Nat) : Bool := if average > on then true else if average < off then false else half

theorem halfAfter_cases (half : Bool) {on off : Nat} (h : off ≤ on) (average : Nat) :
    (on < average → halfAfter half on off average = true) ∧ (average < off → halfAfter half on off average = false) ∧
      (off ≤ average → average ≤ on → halfAfter half on off average = half) := by
  unfold halfAfter
  refine ⟨fun habove => if_pos habove, fun hbelow => ?_, fun hge hle => ?_⟩
  · rw [if_neg (by omega), if_pos hbelow]
  · rw [if_neg (by omega), if_neg (by omega)]

/-- A power sample moves the half clock and the input power shown, and nothing else. -/
theorem exec_powerSample (watts average : Nat) :
    let low := decide (s.phasesFailed = 2)
    exec (.powerSample watts average) s = .next (settle s { s with pmc := { s.pmc with
      half := halfAfter s.pmc.half (if low then 1800 else 2000) (if low then 1700 else 1900) average
      pin := if s.pmc.pinHistory.isEmpty then watts else s.pmc.pin } }) := rfl

/-- Settles O53. -/
theorem alarmsAndPowerControl : Obligations.AlarmsAndPowerControl := by
  refine ⟨fun s core die v => ⟨?_, ?_, ?_, ?_, ?_, ?_, ?_, ?_, ?_, ?_, ?_, ?_, rfl, rfl, rfl, rfl, rfl, rfl⟩,
    fun s phase => ⟨?_, ?_⟩, fun s cp h => ?_, fun s cp q hcp hne hq hexpired => ?_, fun s watts => ⟨_, rfl, State.capInterval_pmc watts⟩, capStage_cases, fun s watts avg h => ?_,
    fun s watts avg h => ?_, fun s junctions lofts => rfl, thermStep_cases, fun s island share => ⟨?_, ?_, rfl, rfl⟩⟩
  · exact fun h => exec_of_done rfl (State.senseAlarm_of_beyond h _ _)
  · exact fun h => exec_of_done rfl (State.senseAlarm_of_below (Nat.not_le.mpr h) _ _)
  · exact fun h => exec_of_done rfl (State.senseAlarm_of_beyond h _ _)
  · exact fun h => exec_of_done rfl (State.senseAlarm_of_below (Nat.not_le.mpr h) _ _)
  · exact fun h => exec_of_done rfl (State.senseAlarm_of_beyond h _ _)
  · exact fun h => exec_of_done rfl (State.senseAlarm_of_below (Nat.not_le.mpr h) _ _)
  · exact fun h => exec_of_done rfl (State.senseAlarm_of_beyond h _ _)
  · exact fun h => exec_of_done rfl (State.senseAlarm_of_below (Nat.not_lt.mpr h) _ _)
  · exact fun h => exec_of_done rfl (State.senseAlarm_of_beyond h _ _)
  · exact fun h => exec_of_done rfl (State.senseAlarm_of_below (Nat.not_lt.mpr h) _ _)
  · exact fun h => exec_of_done rfl (State.senseAlarm_of_beyond h _ _)
  · exact fun hlo hhi => exec_of_done rfl (State.senseAlarm_of_below (by omega) _ _)
  · exact fun h => exec_of_done rfl (if_neg (Nat.not_le.mpr h))
  · exact fun h => exec_of_done rfl (if_pos h)
  · exact exec_of_done rfl (if_pos (by simp [h]))
  · exact exec_of_done rfl (State.watchdog_of_other_running hcp q.isLt (Fin.val_ne_of_ne hne) hq hexpired)
  · have hlow := exec_powerSample (s := s) watts avg
    rw [decide_eq_false h] at hlow
    exact ⟨_, hlow, rfl, rfl, halfAfter_cases _ (by decide) avg⟩
  · have hlow := exec_powerSample (s := s) watts avg
    rw [decide_eq_true h] at hlow
    exact ⟨_, hlow, halfAfter_cases _ (by decide) avg⟩
  · exact fun h => exec_of_done rfl (if_neg (Nat.not_lt.mpr h))
  · exact fun h => exec_of_done rfl (if_pos h)

end Sys2Proof.Machine
end

section
/-! How sessions open and close (14 R340, R343 to R346). -/

namespace Sys2Proof.Machine

variable {s : State} {payload record : List Byte}

/-! ### Claims -/

/-- A device that holds a root refuses every claim (R340). -/
theorem State.claimFault_of_claimed (h : s.sec.roots ≠ []) : ∃ c, s.claimFault record = some c := by
  have hroots : (!s.sec.roots.isEmpty) = true := by simpa using h
  unfold State.claimFault
  rw [if_pos hroots]
  split
  · exact ⟨_, rfl⟩
  · exact ⟨_, rfl⟩

theorem State.claim_of_fault {c : Nat} (h : s.claimFault record = some c) : s.claim record = (s, c) := by
  unfold State.claim
  rw [h]

theorem State.claim_of_none (h : s.claimFault record = none) :
    s.claim record = ({ s with sec := { s.sec with roots := [slice record 0x18 133] } }, 0) := by
  unfold State.claim
  rw [h]
  rfl

theorem exec_claim (h : s.inService = true) (source : NetEnd) (tag : BitVec 16) (record : List Byte) :
    exec (.claim ⟨source, tag⟩ record) s = .next (settle s ((s.claim record).1.unbound source 0x05 tag (s.claim record).2 [])) :=
  exec_of_done rfl (if_pos h)

/-! ### Openings -/

/-- What OPEN_3 does: its fault, if it has one, and the opening that it names. -/
def State.open3 (s : State) (source : NetEnd) (tag : BitVec 16) (long : Bool) : Option Nat → Option Opening → State
  | none, some o => s.openSession o tag
  | none, none => s
  | some c, some o => if long then s.openFailed.unbound source 0x03 tag c [] else (s.openFailed.dropOpening o).unbound source 0x03 tag c []
  | some c, none => s.openFailed.unbound source 0x03 tag c []

theorem exec_open3 (h : s.inService = true) (source : NetEnd) (tag : BitVec 16) (payload : List Byte) :
    exec (.open3 ⟨source, tag⟩ payload) s = .next (settle s (s.open3 source tag (decide (payload.length ≠ 136)) (s.open3Fault payload)
      (s.sec.openings.find? fun o => o.id.toNat = beNat (payload.take 4)))) := by
  refine exec_of_done rfl ((if_neg (by simp [h])).trans ?_)
  dsimp only
  cases s.open3Fault payload <;> cases s.sec.openings.find? fun o => o.id.toNat = beNat (payload.take 4) <;>
    simp only [State.open3, decide_eq_true_eq]

/-- A refusal of OPEN_3 that ends no opening: it names none, or its length is wrong. -/
theorem State.open3_of_unnamed {source : NetEnd} {tag : BitVec 16} {long : Bool} {named : Option Opening} (h : named = none ∨ long = true) (c : Nat) :
    s.open3 source tag long (some c) named = s.openFailed.unbound source 0x03 tag c [] := by
  cases named with
  | none => rfl
  | some o => exact if_pos (h.resolve_left nofun)

/-- Settles O54. -/
theorem sessionsOpenAndClose : Obligations.SessionsOpenAndClose := by
  refine ⟨fun s source address mac payload record port tag vlan ipv6 h => ⟨?openOutside, ?open3Outside, ?claimOutside⟩,
    fun s source tag record h => ⟨?claimRefused, ?claimed, State.claimFault_of_claimed⟩,
    fun s address mac payload port tag vlan ipv6 h => ⟨?openRefused, ?opened⟩,
    fun s source tag payload h => ⟨?sessionOpened, ?openingEnded, ?refusedUnnamed⟩,
    fun s session => ⟨?abandonUnknown, ?abandoned, rfl⟩,
    fun s peer tag => ⟨?closeUnknown, ?closed⟩⟩
  case openOutside => exact exec_of_done rfl (if_pos (by simp [h]))
  case open3Outside => exact exec_of_done rfl (if_pos (by simp [h]))
  case claimOutside => exact exec_of_done rfl (if_neg (by simp [h]))
  case claimRefused =>
    intro c hfault
    rw [exec_claim h, State.claim_of_fault hfault]
  case claimed =>
    intro hfault
    rw [exec_claim h, State.claim_of_none hfault]
  case openRefused =>
    intro c hfault
    refine exec_of_done rfl ((if_neg (by simp [h])).trans ?_)
    rw [hfault]
    rfl
  case opened =>
    intro hfault
    refine exec_of_done rfl ((if_neg (by simp [h])).trans ?_)
    rw [hfault]
  case sessionOpened =>
    intro o hnamed hfault
    rw [exec_open3 h, hfault, hnamed]
    rfl
  case openingEnded =>
    intro o c hnamed hlength hfault
    rw [exec_open3 h, hfault, hnamed, decide_eq_false (not_not.mpr hlength)]
    rfl
  case refusedUnnamed =>
    intro c hunnamed hfault
    rw [exec_open3 h, hfault, State.open3_of_unnamed (hunnamed.imp_right decide_eq_true)]
  case abandonUnknown =>
    intro hnone
    refine exec_of_done rfl ?_
    rw [hnone]
  case abandoned =>
    intro o hsome
    refine exec_of_done rfl ?_
    rw [hsome]
  case closeUnknown =>
    intro hnone
    refine exec_of_done rfl ?_
    rw [hnone]
  case closed =>
    intro x hsome
    refine exec_of_done rfl ?_
    rw [hsome]
    rfl

end Sys2Proof.Machine
end

section
/-! Telemetry records, exporting and repairs of firmware's own, attestation, erase and the test access port (14 R348, R352; 15 R358, R359, R363, R368,
R370, R372; 17 R408). -/

namespace Sys2Proof.Machine

variable {s : State} {record : List Byte}

/-! ### Records of other sources (15 R358) -/

/-- A record with the hub's time in place of its own. -/
def State.stamped (s : State) (record : List Byte) : Bytes := record.take 8 ++ leBytes 8 s.lic.toNat ++ record.drop 16

/-- The bay and the code of a TRACE record are enabled. -/
def State.TraceOn (s : State) (record : List Byte) : Prop :=
  leAt record 2 1 < 16 ∧ 0x0100 ≤ leAt record 0x10 2 ∧ bit (s.reg Reg.TEL_TRACE_EN) (leAt record 2 1) = true ∧
    bit (s.reg Reg.TEL_TRACE_CODES) (leAt record 0x10 2 - 0x0100) = true

theorem State.recordIn_of_other_length (h : record.length ≠ 32) : s.recordIn record = s := if_pos h

theorem State.recordIn_of_log (h : record.length = 32) (hkind : leAt record 0 1 = 1) :
    s.recordIn record = s.hubTake false (leAt record 2 1) (leAt record 0x10 2) (leAt record 0x12 2) (BitVec.ofNat 64 (leAt record 0x18 8))
      (s.stamped record) :=
  (if_neg (not_not.mpr h)).trans (if_pos hkind)

theorem State.recordIn_of_trace (h : record.length = 32) (hkind : leAt record 0 1 = 2) (hon : s.TraceOn record) :
    s.recordIn record = s.hubTake true (leAt record 2 1) (leAt record 0x10 2) (leAt record 0x12 2) (BitVec.ofNat 64 (leAt record 0x18 8))
      (s.stamped record) := by
  obtain ⟨hbay, hcode, hen, hcodes⟩ := hon
  refine (if_neg (not_not.mpr h)).trans ((if_neg (by omega)).trans (if_pos ?_))
  simp only [hkind, hbay, hcode, hen, hcodes, decide_true, Bool.and_self]

theorem State.recordIn_of_trace_off (h : record.length = 32) (hkind : leAt record 0 1 = 2) (hoff : ¬ s.TraceOn record) : s.recordIn record = s := by
  refine (if_neg (not_not.mpr h)).trans ((if_neg (by omega)).trans (if_neg fun hon => hoff ?_))
  simp only [Bool.and_eq_true, decide_eq_true_eq] at hon
  obtain ⟨⟨⟨⟨-, hbay⟩, hcode⟩, hen⟩, hcodes⟩ := hon
  exact ⟨hbay, hcode, hen, hcodes⟩

/-! ### Messages to the telemetry peer (15 R359) -/

/-- What exporting does with a peer under the registers in force: nothing, a live message, or a message of the first queued replay. -/
def State.exportOn (s : State) : State :=
  if !bit (s.reg Reg.TEL_CTRL) 0 then s
  else
    match s.telemPeer with
    | none => s
    | some p =>
      if !s.canSend p then s
      else if (s.vane.alarms.any fun e => e.2.mark) || s.dueRing.isSome then s.exportLive p
      else
        match s.tel.replays with
        | y :: rest => s.exportReplay p y rest
        | [] => s

theorem exec_telemExport : exec .telemExport s = .next (settle s (s.applyAll [Reg.TEL_CTRL, Reg.EB_BALE_MAX, Reg.EB_TELEM_PEER]).exportOn) := rfl

theorem State.exportOn_of_off (h : bit (s.reg Reg.TEL_CTRL) 0 = false ∨ s.telemPeer = none) : s.exportOn = s := by
  unfold State.exportOn
  split
  · rfl
  · next hon =>
    rw [h.resolve_left fun hoff => hon (by rw [hoff]; rfl)]

theorem State.exportOn_of_blocked {p : Nat} (hpeer : s.telemPeer = some p) (h : s.canSend p = false) : s.exportOn = s := by
  unfold State.exportOn
  split
  · rfl
  · rw [hpeer]
    exact if_pos (by simp [h])

/-- With a peer that takes messages, the message is the live one, or the first replay's. -/
theorem State.exportOn_of_peer {p : Nat} (hon : bit (s.reg Reg.TEL_CTRL) 0 = true) (hpeer : s.telemPeer = some p) (hsend : s.canSend p = true) :
    s.exportOn = if (s.vane.alarms.any fun e => e.2.mark) || s.dueRing.isSome then s.exportLive p else
      match s.tel.replays with
      | y :: rest => s.exportReplay p y rest
      | [] => s := by
  unfold State.exportOn
  rw [hon, hpeer]
  dsimp only
  rw [hsend]
  rfl

theorem State.exportOn_of_live {p : Nat} (hon : bit (s.reg Reg.TEL_CTRL) 0 = true) (hpeer : s.telemPeer = some p) (hsend : s.canSend p = true)
    (hlive : (s.vane.alarms.any fun e => e.2.mark) = true ∨ s.dueRing ≠ none) : s.exportOn = s.exportLive p := by
  rw [State.exportOn_of_peer hon hpeer hsend]
  exact if_pos (by simpa [Option.isSome_iff_ne_none] using hlive)

theorem State.exportOn_of_replay {p : Nat} {y : Replay} {rest : List Replay} (hon : bit (s.reg Reg.TEL_CTRL) 0 = true) (hpeer : s.telemPeer = some p)
    (hsend : s.canSend p = true) (hmark : (s.vane.alarms.any fun e => e.2.mark) = false) (hring : s.dueRing = none) (hreplays : s.tel.replays = y :: rest) :
    s.exportOn = s.exportReplay p y rest := by
  rw [State.exportOn_of_peer hon hpeer hsend, hmark, hring, hreplays]
  rfl

/-! ### Erase (14 R352) -/

/-- An erase that ends while RESET_N is low leaves the device in reset. -/
theorem State.eraseEnd_held (h : s.power.resetN = false) :
    s.eraseEnd = { (s.setSec { eraseOwner s.sec with erasing := false }).clearSaks with
      power := { s.power with address := none, records := List.replicate 20 none, erasePending := false } } :=
  if_neg (ne_true_of_eq_false h)

/-! ### Attestation (14 R348) -/

theorem exec_attest_of_length {nonce : List Byte} (h : s.inService = true) (hlength : nonce.length = 32) (who : Attester) (flags : Byte) :
    exec (.attest who nonce flags) s = .next (settle s (s.attested (who.peer.map (·.val)) who.source nonce (bit flags 0))) :=
  exec_of_done rfl ((if_neg (by simp [h])).trans (if_neg (not_not.mpr hlength)))

theorem State.attested_of_rate (h : fld (s.attestSecond.reg Reg.SEC_ATTEST_RATE) 9 0 ≤ s.attestSecond.sec.quotes) (peer : Option Nat) (source : NetEnd)
    (nonce : Bytes) (cert : Bool) :
    s.attested peer source nonce cert =
      (match peer with | some p => s.attestSecond.effectOf p 6 | none => s.attestSecond).count16 Reg.SEC_ATTEST_DROP :=
  if_pos h

/-- The quote that answers a request, with the identity certificate where it is asked for. -/
def State.quote (s : State) (nonce : Bytes) (cert : Bool) : Bytes :=
  s.quoteBody nonce ++ Config.identitySign (s.quoteBody nonce) ++ (if cert then Config.idCertificate else [])

/-- A quote is counted. -/
def State.quoted (s : State) : State := State.countWrap { s with sec := { s.sec with quotes := s.sec.quotes + 1 } } Reg.SEC_ATTESTS 1

theorem State.attested_of_room (h : s.attestSecond.sec.quotes < fld (s.attestSecond.reg Reg.SEC_ATTEST_RATE) 9 0) (peer : Option Nat) (source : NetEnd)
    (nonce : Bytes) (cert : Bool) :
    s.attested peer source nonce cert = match peer with
      | some p => (s.attestSecond.quoted.effectOf p 6).mgmtReply p 0 0 0 (s.attestSecond.quote nonce cert)
      | none => s.attestSecond.quoted.unbound source 0 0 0 (s.attestSecond.quote nonce cert) :=
  if_neg (by omega)

/-! ### The test access port (17 R408) -/

theorem State.tapSelect_of_live (h : s.tapLive = true) (i : TapInstr) (d : Word) :
    s.tapSelect i d = { s with tap := { s.tap with instr := i, data := d } } :=
  if_pos h

theorem State.tapSelect_of_dead (h : s.tapLive = false) (i : TapInstr) (d : Word) : s.tapSelect i d = s := if_neg (by simp [h])

theorem State.boundaryScan_of_live (h : s.tapLive = true) (i : TapInstr) (boundary : List Bool) :
    ∃ l : List Bool, l.length = boundary.length ∧ s.boundaryScan i boundary =
      { s with free := s.free + boundary.length, tap := { s.tap with instr := i, boundary := boundary, captured := l } } :=
  ⟨_, by rw [List.length_map, List.length_range], if_pos h⟩

theorem State.boundaryScan_of_dead (h : s.tapLive = false) (i : TapInstr) (boundary : List Bool) : s.boundaryScan i boundary = s := if_neg (by simp [h])

/-- SEC_ERASE selects its register, and starts the erase at its word while RESET_N is low (14 R352). -/
theorem exec_secErase (data : Word) :
    exec (.secErase data) s = .next (settle s (if s.tapLive && data = 0x0000E5A5 && !s.power.resetN then
      (s.tapSelect .secErase data).setSec { (s.tapSelect .secErase data).sec with erasing := true } else s.tapSelect .secErase data)) := rfl

theorem exec_secErase_of_other {data : Word} (h : data ≠ 0x0000E5A5 ∨ s.power.resetN = true) :
    exec (.secErase data) s = .next (settle s (s.tapSelect .secErase data)) := by
  rw [exec_secErase, if_neg]
  rcases h with h | h
  · rw [decide_eq_false h, Bool.and_false]
    exact Bool.false_ne_true
  · rw [h, Bool.not_true, Bool.and_false]
    exact Bool.false_ne_true

theorem tap_of_live (h : s.tapLive = true) (boundary : List Bool) (data : Word) :
    let sel := fun i d => ({ s with tap := { s.tap with instr := i, data := d } } : State)
    exec .tapReset s = .next (settle s (sel .idcode s.idcode)) ∧ exec .idcode s = .next (settle s (sel .idcode s.idcode)) ∧
    exec .highz s = .next (settle s (sel .highz 0)) ∧ exec .clamp s = .next (settle s (sel .clamp 0)) ∧
    exec .bypass s = .next (settle s (sel .bypass 0)) ∧
    (∃ l, l.length = boundary.length ∧ exec (.extest boundary) s = .next (settle s
      { s with free := s.free + boundary.length, tap := { s.tap with instr := .extest, boundary := boundary, captured := l } })) ∧
    (∃ l, l.length = boundary.length ∧ exec (.samplePreload boundary) s = .next (settle s
      { s with free := s.free + boundary.length, tap := { s.tap with instr := .samplePreload, boundary := boundary, captured := l } })) ∧
    (data ≠ 0x0000E5A5 ∨ s.power.resetN = true → exec (.secErase data) s = .next (settle s (sel .secErase data))) ∧
    (data = 0x0000E5A5 → s.power.resetN = false →
      exec (.secErase data) s = .next (settle s { sel .secErase data with sec := { s.sec with erasing := true } })) := by
  have hselect := State.tapSelect_of_live h
  refine ⟨exec_of_done rfl (hselect _ _), exec_of_done rfl (hselect _ _), exec_of_done rfl (hselect _ _), exec_of_done rfl (hselect _ _),
    exec_of_done rfl (hselect _ _), ?extest, ?sample, fun hother => ?other, fun hword hreset => ?erase⟩
  case extest =>
    obtain ⟨l, hl, hscan⟩ := State.boundaryScan_of_live h .extest boundary
    exact ⟨l, hl, exec_of_done rfl hscan⟩
  case sample =>
    obtain ⟨l, hl, hscan⟩ := State.boundaryScan_of_live h .samplePreload boundary
    exact ⟨l, hl, exec_of_done rfl hscan⟩
  case other => rw [exec_secErase_of_other hother, hselect]
  case erase =>
    rw [exec_secErase, if_pos (by simp [h, hword, hreset]), hselect]
    rfl

/-- Without power the port does nothing. -/
theorem tap_of_dead (h : s.tapLive = false) (boundary : List Bool) (data : Word) :
    exec .tapReset s = .next (settle s s) ∧ exec .idcode s = .next (settle s s) ∧ exec .highz s = .next (settle s s) ∧
    exec .clamp s = .next (settle s s) ∧ exec .bypass s = .next (settle s s) ∧ exec (.extest boundary) s = .next (settle s s) ∧
    exec (.samplePreload boundary) s = .next (settle s s) ∧ exec (.secErase data) s = .next (settle s s) := by
  have hselect := State.tapSelect_of_dead h
  refine ⟨exec_of_done rfl (hselect _ _), exec_of_done rfl (hselect _ _), exec_of_done rfl (hselect _ _), exec_of_done rfl (hselect _ _),
    exec_of_done rfl (hselect _ _), exec_of_done rfl (State.boundaryScan_of_dead h _ _), exec_of_done rfl (State.boundaryScan_of_dead h _ _), ?_⟩
  rw [exec_secErase, if_neg (by simp [h]), hselect]

/-! ### The obligation -/

/-- Settles O56. -/
theorem telemetryRepairAndTap : Obligations.TelemetryRepairAndTap := by
  refine ⟨fun s record => ⟨?_, ?_, fun h hkind => ⟨?_, ?_⟩⟩, fun s => ⟨?_, ?_, ?_, ?_, rfl, rfl, ?_, ?_, ?_, ?_⟩, fun s address h => ⟨?_, ?_⟩,
    fun s address h => ?_, fun s cp => ⟨?_, ?_⟩,
    fun s peer source nonce flags h => ⟨?_, fun hlength hrate => ⟨?_, ?_⟩, fun hlength hroom => ⟨?_, ?_⟩⟩,
    fun s boundary data => ⟨fun h => tap_of_live h boundary data, fun h => tap_of_dead h boundary data⟩⟩
  · exact fun h => exec_of_done rfl (State.recordIn_of_other_length h)
  · exact fun h hkind => exec_of_done rfl (State.recordIn_of_log h hkind)
  · exact fun hon => exec_of_done rfl (State.recordIn_of_trace h hkind hon)
  · exact fun hoff => exec_of_done rfl (State.recordIn_of_trace_off h hkind hoff)
  · intro hoff
    rw [exec_telemExport, State.exportOn_of_off hoff]
  · intro p hpeer hsend
    rw [exec_telemExport, State.exportOn_of_blocked hpeer hsend]
  · intro p hon hpeer hsend hlive
    rw [exec_telemExport, State.exportOn_of_live hon hpeer hsend hlive]
  · intro p y rest hon hpeer hsend hmark hring hreplays
    rw [exec_telemExport, State.exportOn_of_replay hon hpeer hsend hmark hring hreplays]
  · exact fun h => exec_of_done rfl (if_pos h)
  · exact fun h => exec_of_done rfl (if_neg (by simp [h]))
  · exact fun h => exec_of_done rfl (if_neg (by simp [h]))
  · exact fun h hreset => ⟨_, exec_of_done rfl ((if_pos h).trans (State.eraseEnd_held hreset)), rfl, rfl, rfl, rfl, rfl, rfl, rfl, rfl, rfl, rfl⟩
  · exact fun hauto => exec_of_done (if_neg (by simp [h])) (if_pos hauto)
  · exact fun hauto => exec_of_done (if_neg (by simp [h])) (if_neg (ne_true_of_eq_false hauto))
  · exact if_pos (by simp [h])
  · exact fun h => exec_of_done rfl (if_neg h)
  · intro hboot hrunning
    refine exec_of_done rfl ((if_pos hboot).trans ?_)
    simp only [State.setCp, hrunning]
  · exact fun hlength => exec_of_done rfl ((if_neg (by simp [h])).trans (if_pos hlength))
  · rintro rfl
    rw [exec_attest_of_length h hlength, State.attested_of_rate hrate]
    rfl
  · rintro p rfl
    rw [exec_attest_of_length h hlength, State.attested_of_rate hrate]
    rfl
  · rintro rfl
    rw [exec_attest_of_length h hlength, State.attested_of_room hroom]
    rfl
  · rintro p rfl
    rw [exec_attest_of_length h hlength, State.attested_of_room hroom]
    rfl

end Sys2Proof.Machine
end
